-- ==== Sys2Proof/Word.lean ====
section
/-! DEFINITION. The words of the device: bytes and the widths of its registers and fields (spec/00 R4, R5). -/

namespace Sys2Proof

/-- One byte of a register, descriptor, record, image or memory structure (R5). -/
abbrev Byte := BitVec 8

/-- A 32-bit register, sequence number or lane register. -/
abbrev W32 := BitVec 32

/-- A 64-bit register, TIME value (R3) or address field (R8). -/
abbrev W64 := BitVec 64

/-- A sequence of bytes, least address first. -/
abbrev Bytes := List Byte

end Sys2Proof
end

