-- ==== Sys2Proof/Syntax.lean ====
section
/-! DEFINITION. The commands: one constructor per row of spec/opcode_table.json, with the row's operands. What the
device cannot know by itself (a host's answer, a bit error, a sensor's reading, a self-test's result) is an operand. -/

namespace Sys2Proof

/-- The answer of host memory to a read (spec/04 R91, spec/13 HOST_ACCESS). -/
inductive HostReply where
  /-- The completion's data. -/
  | ok (data : Bytes)
  /-- A completion with an error, and its PCIe completion status. -/
  | error (status : Nat)
  /-- The port's link is down. -/
  | linkDown
deriving DecidableEq, Repr

/-- A ring with a head doorbell (spec/04 R92): a CQ, a fault queue, or the manager's fault, telemetry and log rings. -/
inductive RingId where
  | cq (slice : BitVec 8) (q : BitVec 4)
  | fq (slice : BitVec 8)
  | flt
  | tel
  | log
deriving DecidableEq, Repr

/-- A CFG or BASE register of a queue or ring (spec/04 R90). -/
inductive QueueReg where
  | sqCfg (slice : BitVec 8) (q : BitVec 4)
  | sqBase (slice : BitVec 8) (q : BitVec 4)
  | ringCfg (r : RingId)
  | ringBase (r : RingId)
deriving DecidableEq, Repr

/-- Where an address of a gang's access lies: a TVA, or host memory with a PASID (spec/00 Table 0.2). -/
inductive Space where
  | tva
  | host (pasid : BitVec 20)
deriving DecidableEq, Repr

/-- One active lane's part of a load or store: address, width in bytes, the register a load fills, the bytes a store
writes. -/
structure LaneAcc where
  lane : Fin 32
  addr : W64
  size : Nat
  reg : Nat := 0
  data : Bytes := []
deriving DecidableEq, Repr

/-- The atomic operations of Table 9.3. -/
inductive AtomicOp where
  | add | min | max | and | or | xor | exchange | compareExchange
deriving DecidableEq, Repr

/-- The operand kinds of atomics (Table 9.3). -/
inductive AtomicKind where
  | i32 | i64 | u32 | u64 | f32
deriving DecidableEq, Repr

/-- The modes of the FLUSH range instruction (spec/09 R214). -/
inductive FlushMode where
  | wb | inv | wbinv
deriving DecidableEq, Repr

/-- Where the range of a FLUSH range instruction starts: a TVA, or an address of the gang's scratch window. -/
inductive FlushStart where
  | tva (addr : W64)
  | scratch (offset : W64)
deriving DecidableEq, Repr

/-- The attribute of a load that is not PLAIN (spec/09 R213). -/
inductive LoadAttr where
  | volatile
  | stream (n : Fin 4)
  | capstone (n : Fin 4)
deriving DecidableEq, Repr

/-- Where such a load reads, and with which attribute. -/
structure LoadFrom where
  space : Space
  attr : LoadAttr := .volatile
deriving DecidableEq, Repr

/-- The BAR of a register write and the PCIe port it came through (spec/17 R396). -/
structure Window where
  bar0 : Bool
  port : Bool := false
deriving DecidableEq, Repr

/-- What the power loop senses at a tick (spec/16 R386): the estimate P in W and the level of PROCHOT_N. -/
structure PowerSense where
  watts : Nat
  prochotN : Bool
deriving DecidableEq, Repr

/-- A lane-arithmetic or scalar instruction (spec/05 R119). The manual defines the fused multiply-add; the result of any
other operation is a free value. -/
inductive LaneOp where
  | fma (dst a b c : Nat)
  | lane (dst : Nat) (sources : List Nat)
  | scalar (dst : Nat)
  | constant (dst : Nat) (offset : W32)
deriving DecidableEq, Repr

/-- A load or a store of scratch. -/
inductive ScratchOp where
  | load (reg : Nat)
  | store (data : Bytes)
deriving DecidableEq, Repr

/-- The reset domains in the code order of CFG_RESET_CTL.DOMAIN (Table 3.13). -/
inductive Domain where
  | tenant | bay | channel | die | port | package
deriving DecidableEq, Repr

/-- Who asks for a reset (spec/03 R73). -/
inductive ResetSource where
  /-- CFG_RESET_CTL, with the UNLOCK byte of the write. -/
  | manager (unlock : Byte)
  /-- The tenant's doorbell page. -/
  | tenant
  /-- A fault policy: ESCALATE, or a unit's fault. -/
  | fault
  /-- The management path (POWER_ON, split reprobe). -/
  | management
deriving DecidableEq, Repr

/-- What the work of a bring-up step found (Table 3.1). -/
inductive StepInput where
  /-- Step 2: whether the fuse CRC checked, and whether each transaction with the five regulators was acknowledged, in
  order: for each regulator the write of VOUT_TRANSITION_RATE, then that of VOUT_COMMAND (spec/16 R385). -/
  | fuses (crcOk : Bool) (vrAnswers : List Bool)
  /-- Step 3: the dies whose spares did not suffice. -/
  | selfTest (exhausted : List (Fin 8))
  /-- Step 4: channels that failed three attempts, and what the mode registers say: packages of an unsupported type, and
  of each of the 32 packages the rates of R18 it supports (0 to 3 for 6400 to 9600 MT/s) and its density code. -/
  | training (failed : List (Fin 128)) (unsupported : List (Fin 32)) (rates : List (List (Fin 4))) (density : List (Fin 3))
  /-- Steps 5 to 8: nothing from outside. -/
  | plain
deriving DecidableEq, Repr

/-- The fields of a Sweld OPEN body (spec/12 R282). -/
structure OpenBody where
  src : BitVec 8
  dst : BitVec 8
  arrival : Bool
  flag : Bool
  dest : W64
  len : W64
  flagAddr : W64
  tag : W64
deriving DecidableEq, Repr

/-- What an array check found (Table 8.6, spec/14 R340). -/
inductive ArrayErr where
  | none
  | single
  | uncorrectable
deriving DecidableEq, Repr

/-- Where a logic fault was found (DIE_STOP and PACKAGE_STOP of Table 13.2). -/
inductive LogicFault where
  | bothTags (x : BitVec 9) (set : Nat)
  /-- A single-bit error of a router link, corrected (spec/10 R233), and its router. -/
  | onDieLinkBit (d : Fin 8) (router : Fin 64)
  | onDieLink (d : Fin 8)
  | dieLogic (d : Fin 8)
  | bridgeLost (b : Fin 14)
  | quoinLogic
  | noPlumb
deriving DecidableEq, Repr

/-- The commands of the block. -/
inductive Instr where
  /-- NOP (R96): command `c` completes DONE at dispatch. -/
  | nop (c : Nat)
  /-- COPY (R96); `reply` answers the read of a host source. -/
  | copy (c : Nat) (reply : HostReply)
  /-- LAUNCH (R128): the grant's gangs become resident. -/
  | launch (c : Nat)
  /-- SLAB_RUN (R150): array `a` = 4 × bay + quarter runs the next K tile of its work item. -/
  | slabRun (c a : Nat)
  /-- GATHER (R168): the hod engine of a bay pools the next index, or writes its finished bag. -/
  | gather (c bay : Nat)
  /-- SELECT (R173): the riddle unit of a bay examines its next group of elements, or ends its item's phase. -/
  | select (c bay : Nat)
  /-- RELEASE (R199). -/
  | release (c : Nat)
  /-- FLUSH (R224). -/
  | flush (c : Nat)
  /-- HANDLE_SET (R108). -/
  | handleSet (c : Nat)
  /-- EPOCH_FLIP (R108). -/
  | epochFlip (c : Nat)
  /-- SWELD_STREAM SEND (R276). -/
  | sweldSend (c : Nat)
  /-- SWELD_STREAM EXPECT (R283). -/
  | sweldExpect (c : Nat)
  /-- A write to QE_SQ_TAIL (R91). -/
  | sqTailDoorbell (slice : BitVec 8) (q : BitVec 4) (value : W32)
  /-- A head doorbell (R92). -/
  | cqHeadDoorbell (ring : RingId) (value : W32)
  /-- A write to a CFG or BASE register (R90). -/
  | queueCfgWrite (reg : QueueReg) (value : W64)
  /-- A write to QE_TENANT_RESET (R113). -/
  | qeTenantReset (slice : BitVec 8) (value : W32)
  /-- A write to QE_POOL_FREE (R111). -/
  | qePoolFree (slice : BitVec 8) (value : W32)
  /-- The fetch of a descriptor (R91) and its checks (R97, R98). -/
  | fetchDescriptor (slice : BitVec 8) (q : BitVec 4) (reply : HostReply)
  /-- One NCLK edge of the arbiter (R99). -/
  | dispatch
  /-- Preemption for a blocked PREEMPTS candidate (R103); `ns` is the time from stop to the end of the save. -/
  | preemption (ns : Nat)
  /-- A command's engines finish (R222). -/
  | commandComplete (c : Nat)
  /-- A completion record goes to its reserved slot (R92). -/
  | postCompletionRecord (slice : BitVec 8) (q : BitVec 4)
  /-- A record that took no reservation goes to a free slot (R92). -/
  | postWaitingRecord (slice : BitVec 8) (q : BitVec 4)
  /-- A gang ends (R128). -/
  | gangExit (g : Nat)
  /-- An engine claims the next work item of command `c` (R236). -/
  | workItemClaim (c engine : Nat)
  | loadPlain (g : Nat) (sp : Space) (accs : List LaneAcc)
  | storePlain (g : Nat) (sp : Space) (accs : List LaneAcc)
  | loadVolatile (g : Nat) (source : LoadFrom) (accs : List LaneAcc)
  | storeVolatile (g : Nat) (sp : Space) (accs : List LaneAcc)
  | storeStream (g : Nat) (n : Fin 4) (sp : Space) (accs : List LaneAcc)
  | storeCapstone (g : Nat) (n : Fin 4) (sp : Space) (acc : LaneAcc) (flag : Option W64)
  /-- The release token of a held capstone (R219), by the capstone's request number. -/
  | capstoneReleaseToken (id : Nat)
  /-- A held capstone times out (R221). -/
  | capstoneDiscard (id : Nat)
  /-- An atomic of one lane (R216); `operand` and `comparand` are its inputs. -/
  | atomic (g : Nat) (sp : Space) (acc : LaneAcc) (op : AtomicOp) (kind : AtomicKind) (operand comparand : W64)
  | flushRange (g : Nat) (start : FlushStart) (len : Nat) (mode : FlushMode)
  | fence (g : Nat)
  | flushAll (g : Nat)
  /-- A divergent branch (R120): the lanes taken first, and the reconvergence address. -/
  | maskPush (g : Nat) (taken : W32) (rpc : BitVec 48)
  | maskReconverge (g : Nat)
  /-- A read request reaches its home slice (R194), by request number. -/
  | cacheRead (rid : Nat)
  /-- A write request reaches its home slice (R195), by request number. -/
  | cacheWrite (rid : Nat)
  /-- A partner slice's miss reaches the home slice (R192), by line address. -/
  | replicaFill (dpa : BitVec 44)
  | replicaInstallAck (dpa : BitVec 44)
  | replicaInvalidate (dpa : BitVec 44)
  | invalidateAck (dpa : BitVec 44)
  /-- A channel reads line q (R247); `errs` are bit errors the DRAM has added to codeword positions. -/
  | channelRead (c : Fin 128) (q : Nat) (errs : List (Nat × Byte)) (mapErrs : List (Nat × Byte)) (rid : Option Nat)
  /-- A channel writes the masked bytes of line q (R251). -/
  | channelWrite (c : Fin 128) (q : Nat) (data : Bytes) (mask : BitVec 128)
  | refresh (c : Fin 128) (bank : Fin 16)
  | retrainStart (c : Fin 128)
  | retrainEnd (c : Fin 128)
  | hpprTimeout (c : Fin 128)
  | shieldAnswer (rid : Nat)
  | staleReplyDiscard (rid : Nat)
  | tenantReset (slice : BitVec 8) (src : ResetSource)
  | bayReset (b : Fin 48) (src : ResetSource)
  | channelReset (c : Fin 128) (src : ResetSource)
  /-- A die reset; `lost` says that the die's fault makes write-back impossible (R72). -/
  | dieReset (d : Fin 8) (lost : Bool) (src : ResetSource)
  | sweldPortReset (p : Fin 16) (src : ResetSource)
  | packageReset (src : ResetSource)
  /-- A domain reset finishes (R83); `ok` is the result of its retraining or self-test. -/
  | resetComplete (dom : Domain) (n : Nat) (ok : Bool)
  | bringupStepTimeout
  /-- PWR_GOOD and PERST_N both high (R377), with the straps sampled on that edge (R376). -/
  | coldStart (pkgId : BitVec 4) (traySel : Bool)
  | pwrGoodFall
  | perstNAssert
  /-- A link goes down (R73); `lost` names the rings whose record writes were lost with it. -/
  | pcieLinkDown (port : Bool) (lost : List RingId)
  | applySlice (slice : BitVec 8) (port : Bool)
  | loadWhole (port : Bool)
  | storeSlot (slotB : Bool) (port : Bool)
  | revoke (unlock : Byte) (mask : BitVec 4)
  | raiseFloor (unlock : Byte)
  | drain (slice : BitVec 8)
  | resume (slice : BitVec 8)
  | sliceDrained (slice : BitVec 8)
  | fwLoad (port : Bool)
  | fwStoreSlot (slotB : Bool) (port : Bool)
  | cfgHandleSet (slice : BitVec 8) (handle : BitVec 10) (current : Bool)
  | cfgHandleFlip (slice : BitVec 8) (handle : BitVec 10)
  | managerHandleEffect
  /-- A write to CFG_FILL_CTL (R267). -/
  | cfgFill (value : W64) (port : Bool)
  | cfgAccessErrClear
  /-- An access that matches no register or has the wrong width (R399). -/
  | badAccess (bar0 : Bool) (offset : BitVec 24) (isWrite : Bool)
  /-- A write of 64 bits (`wide`) or 32 bits to a register that has no row of its own (R9). -/
  | registerWrite (window : Window) (offset : BitVec 24) (wide : Bool) (value : W64)
  | mcStatsClear
  | killPin (c : Fin 128) (pin : Fin 16)
  | applyPpr (c : Fin 128)
  | wayDisable (x : BitVec 9) (way : Fin 16)
  | wayEnable (x : BitVec 9) (way : Fin 16)
  | peer (slice : BitVec 8) (index : Fin 16) (pkg : BitVec 4) (remote : BitVec 8) (valid : Bool)
  | accept (slice : BitVec 8) (index : Fin 16) (pkg : BitVec 4) (remote : BitVec 8) (valid : Bool) (cls : Fin 8)
      (cq : BitVec 4)
  /-- A POWER_OFF request (R289) for a unit number of Table 3.6. -/
  | powerOff (unit : BitVec 12)
  | powerOn (unit : BitVec 12)
  | plbPowerLimitWrite (value : W32)
  | fltAck (value : W32)
  | arm (unlock : Byte) (unit : BitVec 12) (checker : Fin 8) (mask : Byte) (count : BitVec 16)
  | disarm (unlock : Byte)
  | forcePath (unlock : Byte) (unit : BitVec 12)
  | fltRepairGo (unlock : Byte) (die : Fin 8)
  /-- TEL_CTL with SNAP, and the CLEAR field of the same write (R351). -/
  | snap (groups clearGroups : BitVec 16)
  | clear (groups : BitVec 16)
  | telSelWrite (g : Fin 16) (i : Fin 8) (value : W64)
  | logOn (slice : BitVec 8)
  | logOff (slice : BitVec 8)
  | mark (slice : BitVec 8)
  | freeze (slice : BitVec 8)
  | sliceFrozen (slice : BitVec 8)
  | migExport (slice : BitVec 8) (port : Bool)
  | thaw (slice : BitVec 8)
  | migImport (slice : BitVec 8) (port : Bool)
  /-- A write to MIG_COPY_CTL (R373). -/
  | migCopy (value : W64) (port : Bool)
  | getDeviceState
  | getUnitState
  | setPowerLimit (watts : BitVec 16)
  | unitPower (on : Bool) (unit : BitVec 12)
  | plumbPackageReset
  | readFaultSummary
  | readTelemetry
  /-- STAGE_FLASH (R287): slot area 0 to 3 (firmware A, B, image A, B) and the image. -/
  | stageFlash (area : Fin 4) (data : Bytes) (flashOk : Bool)
  /-- A plumb message of an unknown code, or with a bad CRC (R287). -/
  | unknownPlumbCommand (code : Byte) (crcOk : Bool)
  /-- A port completes training (R268) with the lanes in use and what the far end sent. -/
  | portTrained (p : Fin 16) (lanes : Byte) (remotePkg remotePort : BitVec 4)
  /-- A flit arrives (R270, R271); `fecOk` is the FEC decode's result and `fecSyms` the symbols it corrected. -/
  | flitReceived (p : Fin 16) (flit : Bytes) (fecOk : Bool) (fecSyms : Nat)
  | replayTimeout (p : Fin 16)
  | linkRecovery (p : Fin 16)
  | linkRecovered (p : Fin 16) (lanes : Byte)
  | recoveryTimeout (p : Fin 16)
  | sweldOpen (p : Fin 16) (stream : BitVec 16) (body : OpenBody)
  | openAck (p : Fin 16) (stream : BitVec 16)
  | refuse (p : Fin 16) (stream : BitVec 16) (reason : W32)
  | busyRetry (c : Nat)
  | member (p : Fin 16) (stream : BitVec 16) (sseq : W32) (data : Bytes)
  | landedReport (p : Fin 16) (stream : BitVec 16)
  | landed (p : Fin 16) (stream : BitVec 16) (upTo : W32)
  | capstone (p : Fin 16) (stream : BitVec 16) (sseq : W32) (data : Bytes)
  | capstoneApply (p : Fin 16) (stream : BitVec 16)
  | capDone (p : Fin 16) (stream : BitVec 16)
  | close (p : Fin 16) (stream : BitVec 16)
  | abort (p : Fin 16) (stream : BitVec 16) (reason : W32)
  | beaconSend
  /-- A BEACON arrives (R284): the sender's TIME and the TIME at which it last received ours. -/
  | beacon (p : Fin 16) (time lastRx : W64)
  | malformedMessage (p : Fin 16) (mtype : Byte)
  | fenceTimeout (c : Nat)
  | timeBeacon
  /-- A bridge flit fails its CRC (R233) on a link of bridge b. -/
  | bridgeFlitReplay (b : Fin 14) (link : BitVec 7)
  /-- A collector takes a record from a reporter (R310); `forward` says that the die collector also forwards its
  oldest. -/
  | faultRecordCollect (unit : BitVec 12) (forward : Bool)
  | faultRecordPost
  /-- A collector samples a reporter's pair on one SCLK edge (R307, R308). -/
  | reporterPath (unit : BitVec 12) (err errN : Bool)
  | bucketLeak
  | descriptorScrub (slice : BitVec 8)
  /-- One scrub position (R337), with the bit errors found in its word. -/
  | scrubDramLine (c : Fin 128) (errs : List (Nat × Byte))
  /-- One set of a slice (R339): the error found in a tag copy pair and in a way's data, if any. -/
  | scrubCacheSet (x : BitVec 9) (tag0 tag1 : ArrayErr) (dataErr : Option (Fin 16 × Fin 4 × ArrayErr))
  /-- One 256-byte row of a bay (R340): row number and error found at a byte of it. -/
  | scrubLsRow (b : Fin 48) (err : ArrayErr) (byteOff : Fin 256)
  /-- The monitors are sampled (R342): the margins in ps that the monitors of each of the ten domains report, 24 of an
  ashlar die and 8 of its bed die, or 8 of a quoin die; and whether each of the five regulators acknowledges a set point
  written to it (R385). -/
  | agingSample (monitors : List (List Nat)) (answers : List Bool)
  | telemetryTick
  /-- The power loop's tick (R386). -/
  | powerLoopTick (sense : PowerSense)
  | prochotAssert
  /-- All 104 sensors (R388), die by die. -/
  | thermalRead (readings : List Nat)
  /-- VR_ALERT_N falls (R385): the regulator that answers, whether it acknowledged, and its over-current status. -/
  | vrAlert (reg : Fin 5) (acked : Bool) (overCurrent : Bool)
  | splitCheck
  | splitReprobe (unit : BitVec 12) (answers powered : Bool)
  /-- A failover (R79); `ended` when quoin 1's controller has taken over. -/
  | plumbFailover (ended : Bool)
  | bringupStepEnd (input : StepInput)
  | perstNRelease
  | pcieLinkUp (port : Bool)
  | imageOperationFinish (reply : HostReply) (flashOk : Bool)
  | firmwareOperationFinish (reply : HostReply) (flashOk : Bool)
  | fillDone (reply : HostReply)
  | migCopyDone (reply : HostReply)
  | migrationBlobDone (reply : HostReply)
  | wayOperationDone
  | fuseBlowDone (ok : Bool)
  | repackRow (c : Fin 128) (errs : List (Nat × Nat × Byte))
  | portDrainTimeout (p : Fin 16)
  | holdNotice (c : Fin 128)
  | writeAcknowledgement (rid : Nat)
  /-- Read data returns to its gang (R119); `reply` is the host's answer to a read of host memory. -/
  | readReply (rid : Nat) (reply : HostReply)
  | laneArithmetic (g : Nat) (op : LaneOp)
  /-- Code is fetched into an instruction cache (R122): the line at a byte offset from CODE. -/
  | instructionFetch (g : Nat) (offset : W32)
  | scratchAccess (g : Nat) (offset : Nat) (size : Nat) (lane : Fin 32) (op : ScratchOp)
  | logicFaultDetected (f : LogicFault)
  | entdaa (addr : BitVec 7)
deriving DecidableEq, Repr

end Sys2Proof
end

