-- ==== Sys2Proof/Machine/Bits.lean ====
section
/-! DEFINITION. Bit fields (R4), little-endian bytes (R5) and saturating counts. -/

namespace Sys2Proof.Machine

/-- Bits hi down to lo of a number, as a number (R4). -/
def bitsOf (n hi lo : Nat) : Nat := n / 2 ^ lo % 2 ^ (hi + 1 - lo)

/-- Bit i of a number. -/
def bitAt (n i : Nat) : Bool := n / 2 ^ i % 2 = 1

/-- A truth value as 0 or 1. -/
def ofBool (b : Bool) : Nat := if b then 1 else 0

/-- The byte at offset `i`; zero beyond the end. -/
def byteAt (b : Bytes) (i : Nat) : Nat := (b.getD i 0).toNat

/-- The little-endian number of the bytes (R5). -/
def leVal : Bytes → Nat
  | [] => 0
  | x :: t => x.toNat + 256 * leVal t

/-- The `n` bytes from offset `off`, zeros beyond the end. -/
def bytesAt (b : Bytes) (off n : Nat) : Bytes :=
  let d := (b.drop off).take n
  d ++ List.replicate (n - d.length) 0

/-- The little-endian field of `n` bytes at offset `off` (R5). -/
def leAt (b : Bytes) (off n : Nat) : Nat := leVal ((b.drop off).take n)

/-- The `n` little-endian bytes of a number. -/
def leBytes : Nat → Nat → Bytes
  | 0, _ => []
  | n + 1, v => BitVec.ofNat 8 v :: leBytes n (v / 256)

/-- Writes bytes over a byte sequence from offset `off`; bytes past the end are dropped. -/
def putBytes : Bytes → Nat → Bytes → Bytes
  | [], _, _ => []
  | b, _, [] => b
  | _ :: t, 0, x :: xs => x :: putBytes t 0 xs
  | b :: t, off + 1, xs => b :: putBytes t off xs

/-- A count that stops at its greatest value of `w` bits. -/
def satAdd (w a b : Nat) : Nat := min (2 ^ w - 1) (a + b)

/-- `n` rounded up to a multiple of `k`. -/
def roundUp (n k : Nat) : Nat := (n + k - 1) / k * k

/-- ceil(a / b). -/
def ceilDiv (a b : Nat) : Nat := (a + b - 1) / b

/-- Sets or clears bit `i` of a number. -/
def setBit (n i : Nat) (v : Bool) : Nat :=
  if bitAt n i then (if v then n else n - 2 ^ i) else (if v then n + 2 ^ i else n)

/-- The number whose bits `lo` upward are the field and which has nothing else. -/
def field (lo v : Nat) : Nat := v * 2 ^ lo

/-- The number of set bits among the low `w`. -/
def popCount : Nat → Nat → Nat
  | 0, _ => 0
  | w + 1, n => n % 2 + popCount w (n / 2)

/-- The positions of the set bits among the low `w`, in ascending order. -/
def bitList (w n : Nat) : List Nat := (List.range w).filter (bitAt n)

/-- All bytes are zero. -/
def allZero (b : Bytes) : Bool := b.all (· == 0)

/-- The first position of `b`, counted from `off`, that holds a nonzero byte. -/
def firstNonzero : Bytes → Nat → Option Nat
  | [], _ => none
  | x :: t, off => if x = 0 then firstNonzero t (off + 1) else some off

/-- A little-endian number read as a signed number of `w` bits. -/
def signedOf (w n : Nat) : Int := if n < 2 ^ (w - 1) then n else (n : Int) - 2 ^ w

/-- A signed number as `w` bits of two's complement. -/
def unsignedOf (w : Nat) (z : Int) : Nat := (z % (2 ^ w : Int)).toNat

end Sys2Proof.Machine
end

