-- ==== Sys2Proof/Machine/Crc.lean ====
section
/-! DEFINITION. The cyclic checks of the device: CRC-32C (spec/02 R50), CRC-8 (spec/12 R287) and SHA-384 and ECDSA
over P-384 (spec/02 R38, which names FIPS 186-5). -/

namespace Sys2Proof.Machine

/-- One bit of the reflected CRC-32C register (polynomial 0x1EDC_6F41, R50). -/
def crc32cBit (c : W32) : W32 :=
  if c.getLsbD 0 then (c >>> 1) ^^^ 0x82F63B78#32 else c >>> 1

/-- One byte of CRC-32C. -/
def crc32cByte (c : W32) (b : Byte) : W32 :=
  (List.range 8).foldl (fun c _ => crc32cBit c) (c ^^^ b.setWidth 32)

/-- `f n`, written so that an evaluation finds `n` first. -/
def withValue {α : Type} (n : Nat) (f : Nat → α) : α :=
  match n with
  | 0 => f 0
  | k + 1 => f (k + 1)

/-- The CRC-32C register after a byte string. -/
def crc32cFrom : Bytes → W32 → W32
  | [], c => c
  | b :: t, c => withValue c.toNat (fun n => crc32cFrom t (crc32cByte (BitVec.ofNat 32 n) b))

/-- CRC-32C: reflected, initial value 0xFFFF_FFFF, final exclusive-or 0xFFFF_FFFF (R50). -/
def crc32c (b : Bytes) : W32 := crc32cFrom b 0xFFFFFFFF#32 ^^^ 0xFFFFFFFF#32

/-- One bit of the CRC-8 register, most significant bit first (polynomial 0x07, R287). -/
def crc8Bit (c : Byte) : Byte := if c.getLsbD 7 then (c <<< 1) ^^^ 0x07#8 else c <<< 1

/-- CRC-8 of a byte string: initial value 0, no reflection, no final exclusive-or (R287). -/
def crc8 (b : Bytes) : Byte :=
  b.foldl (fun c x => (List.range 8).foldl (fun c _ => crc8Bit c) (c ^^^ x)) 0

/-- The 64-bit field-repair entry whose low 56 bits are given: the CRC-8 over its seven bytes stands in [63:56]
(R319). -/
def repairEntryWithCrc (low56 : Nat) : Nat :=
  low56 % 2 ^ 56 + (crc8 (leBytes 7 low56)).toNat * 2 ^ 56

/-- The greatest number whose `k`-th power does not exceed `n` among those that agree with `r` above the low `bits` bits:
the bits are tried from the highest down. -/
def rootFrom (k n : Nat) : Nat → Nat → Nat
  | 0, r => r
  | bits + 1, r => rootFrom k n bits (if (r + 2 ^ bits) ^ k ≤ n then r + 2 ^ bits else r)

/-- The first 64 bits of the fractional part of the `k`-th root of `p`, a number below 2^24. -/
def rootFraction (k p : Nat) : W64 := BitVec.ofNat 64 (rootFrom k (p * 2 ^ (64 * k)) 88 0)

/-- The primes below `n`. -/
def primesBelow (n : Nat) : List Nat :=
  (List.range n).filter (fun p => decide (2 ≤ p) && (List.range p).all (fun d => decide (d < 2) || decide (p % d ≠ 0)))

/-- The round constants of SHA-384, from the cube roots of the first 80 primes (FIPS 180-4, which FIPS 186-5 uses). -/
def shaConstants : List W64 := (primesBelow 410).map (rootFraction 3)

/-- The initial hash value of SHA-384, from the square roots of the ninth to the sixteenth prime. -/
def shaStart : List W64 := ((primesBelow 54).drop 8).map (rootFraction 2)

/-- A big-endian number of a byte string. -/
def beVal (b : Bytes) : Nat := b.foldl (fun n x => n * 256 + x.toNat) 0

/-- The `n` big-endian bytes of a number. -/
def beBytes (n v : Nat) : Bytes := (leBytes n v).reverse

/-- The padding of a SHA-384 message: 0x80, zeros, and the bit length in 16 bytes. -/
def shaPad (m : Bytes) : Bytes :=
  m ++ 0x80#8 :: List.replicate ((239 - m.length % 128) % 128) 0 ++ beBytes 16 (8 * m.length)

/-- The message schedule, newest word first, from the sixteen words of a block. -/
def shaSchedule : Nat → List W64 → List W64
  | 0, w => w
  | n + 1, w =>
    let x := w.getD 1 0
    let y := w.getD 14 0
    let s1 := x.rotateRight 19 ^^^ x.rotateRight 61 ^^^ (x >>> 6)
    let s0 := y.rotateRight 1 ^^^ y.rotateRight 8 ^^^ (y >>> 7)
    shaSchedule n ((s1 + w.getD 6 0 + s0 + w.getD 15 0) :: w)

/-- One round of the SHA-384 compression on the eight working words. -/
def shaRound (h : List W64) (kw : W64 × W64) : List W64 :=
  match h with
  | [a, b, c, d, e, f, g, hh] =>
    let t1 := hh + (e.rotateRight 14 ^^^ e.rotateRight 18 ^^^ e.rotateRight 41)
      + ((e &&& f) ^^^ (~~~e &&& g)) + kw.1 + kw.2
    let t2 := (a.rotateRight 28 ^^^ a.rotateRight 34 ^^^ a.rotateRight 39)
      + ((a &&& b) ^^^ (a &&& c) ^^^ (b &&& c))
    [t1 + t2, a, b, c, d + t1, e, f, g]
  | h => h

/-- The compression of one 128-byte block. -/
def shaBlock (h : List W64) (blk : Bytes) : List W64 :=
  let w16 := (List.range 16).map (fun i => BitVec.ofNat 64 (beVal (bytesAt blk (8 * i) 8)))
  let w := (shaSchedule 64 w16.reverse).reverse
  let h' := (shaConstants.zip w).foldl shaRound h
  List.zipWith (· + ·) h h'

/-- SHA-384 of a byte string, as a 384-bit number, most significant byte first. -/
def sha384 (m : Bytes) : Nat :=
  let p := shaPad m
  let h := (List.range (p.length / 128)).foldl (fun h i => shaBlock h (bytesAt p (128 * i) 128)) shaStart
  (h.take 6).foldl (fun n x => n * 2 ^ 64 + x.toNat) 0

/-- The field prime of P-384. -/
def p384P : Nat := 2 ^ 384 - 2 ^ 128 - 2 ^ 96 + 2 ^ 32 - 1

/-- The order of the P-384 group. -/
def p384N : Nat :=
  0xffffffffffffffffffffffffffffffffffffffffffffffffc7634d81f4372ddf581a0db248b0a77aecec196accc52973

/-- The coefficient b of P-384. -/
def p384B : Nat :=
  0xb3312fa7e23ee7e4988e056be3f82d19181d9c6efe8141120314088f5013875ac656398d8a2ed19d2a85c8edd3ec2aef

/-- The base point of P-384, x coordinate. -/
def p384Gx : Nat :=
  0xaa87ca22be8b05378eb1c71ef320ad746e1d3b628ba79b9859f741e082542a385502f25dbf55296c3a545e3872760ab7

/-- The base point of P-384, y coordinate. -/
def p384Gy : Nat :=
  0x3617de4a96262c6f5d9e98bf9292dc29f8f41dbd289a147ce9da3113b5f0b8c00a60b1ce1d7e819d7a431d7c90ea0e5f

/-- Modular power by squaring; `fuel` bounds the bits of the exponent. -/
def powMod (m : Nat) : Nat → Nat → Nat → Nat
  | 0, _, _ => 1 % m
  | fuel + 1, b, e =>
    let r := powMod m fuel (b * b % m) (e / 2)
    if e % 2 = 1 then r * b % m else r

/-- The inverse modulo a prime, by Fermat's theorem. -/
def invMod (m a : Nat) : Nat := powMod m 384 (a % m) (m - 2)

/-- a − b modulo m. -/
def subMod (m a b : Nat) : Nat := (a % m + (m - b % m)) % m

/-- A point of P-384 in Jacobian coordinates; Z = 0 is the point at infinity. -/
abbrev JPoint := Nat × Nat × Nat

/-- Doubling of a point (a = −3). -/
def jDouble (q : JPoint) : JPoint :=
  let (x, y, z) := q
  if z = 0 || y = 0 then (1, 1, 0) else
  let p := p384P
  let zz := z * z % p
  let m := 3 * (subMod p x zz * ((x + zz) % p)) % p
  let yy := y * y % p
  let s := 4 * (x * yy) % p
  let x3 := subMod p (m * m % p) (2 * s)
  let y3 := subMod p (m * subMod p s x3) (8 * (yy * yy))
  (x3, y3, 2 * (y * z) % p)

/-- Addition of two points. -/
def jAdd (a b : JPoint) : JPoint :=
  let (x1, y1, z1) := a
  let (x2, y2, z2) := b
  if z1 = 0 then b else if z2 = 0 then a else
  let p := p384P
  let z1z1 := z1 * z1 % p
  let z2z2 := z2 * z2 % p
  let u1 := x1 * z2z2 % p
  let u2 := x2 * z1z1 % p
  let s1 := y1 * (z2 * z2z2 % p) % p
  let s2 := y2 * (z1 * z1z1 % p) % p
  if u1 = u2 then (if s1 = s2 then jDouble a else (1, 1, 0)) else
  let h := subMod p u2 u1
  let r := subMod p s2 s1
  let hh := h * h % p
  let hhh := h * hh % p
  let v := u1 * hh % p
  let x3 := subMod p (subMod p (r * r % p) hhh) (2 * v)
  let y3 := subMod p (r * subMod p v x3) (s1 * hhh)
  (x3, y3, h * (z1 * z2 % p) % p)

/-- Scalar multiple; `fuel` bounds the bits of the scalar. -/
def jMul : Nat → Nat → JPoint → JPoint
  | 0, _, _ => (1, 1, 0)
  | fuel + 1, k, q =>
    let r := jMul fuel (k / 2) (jDouble q)
    if k % 2 = 1 then jAdd r q else r

/-- PUB_X and PUB_Y form a valid public key of P-384: each coordinate below the prime and the point on the curve
(R411; no affine point is the point at infinity). -/
def p384ValidKey (x y : Nat) : Bool :=
  decide (x < p384P) && decide (y < p384P)
    && decide (y * y % p384P = (x * x % p384P * x + (p384P - 3) * x + p384B) % p384P)

/-- The key's hash: SHA-384 of the byte 0x04, then X, then Y, most significant byte first (R38). -/
def keyHash (x y : Nat) : Nat := sha384 (0x04#8 :: beBytes 48 x ++ beBytes 48 y)

/-- ECDSA verification over P-384 with SHA-384 (R38), r and s already known to lie from 1 to n − 1. -/
def ecdsaVerify (x y r s : Nat) (msg : Bytes) : Bool :=
  let n := p384N
  let e := sha384 msg % n
  let w := invMod n s
  let q := jAdd (jMul 384 (e * w % n) (p384Gx, p384Gy, 1)) (jMul 384 (r * w % n) (x, y, 1))
  match q with
  | (_, _, 0) => false
  | (qx, _, qz) =>
    let zi := invMod p384P qz
    decide (qx * (zi * zi % p384P) % p384P % n = r % n)

end Sys2Proof.Machine
end

