-- ==== Sys2Proof/Config.lean ====
section
/-! DEFINITION. What an implementation fixes, and the free values: values that the spec leaves open. A free value is an
opaque constant, so nothing can be proved from what it is; `State.free` counts the draws (notes/assumptions/2.md). -/

namespace Sys2Proof

/-- A byte whose value the spec leaves open (indeterminate output bytes, CTX_SAVE layout, the blob's inner layout). -/
opaque Config.freeByte : Nat → Byte

/-- A 32-bit value the spec leaves open (the result of a mason instruction of which the manual gives no operation). -/
opaque Config.freeWord : Nat → W32

/-- A choice among alternatives that the spec leaves open (the L1 line that makes room for another). -/
opaque Config.freeChoice : Nat → Nat

/-- Element `i` of the stored image that the device writes to CTX_SAVE (R124: the layout belongs to the device). -/
opaque Config.saveByte : Nat → Nat → Byte

/-- What a blob's byte at an offset differs by from the order in which the model writes the regions after the header: their
layout belongs to the device (R369). -/
opaque Config.blobByte : Nat → Byte

/-- A 64-bit RESULT of a completion record for which the spec states none. -/
opaque Config.freeResult : Nat → W64

/-- How many flits, less one and modulo 4, a message of the control mesh has (spec/10: one to four). -/
opaque Config.controlFlits : Nat → Nat

/-- Milliseconds that the bring-up work of a step took (Table 3.1 gives typical values; R20: they are not limits). -/
opaque Config.stepMs : Nat → Nat

end Sys2Proof
end

