-- ==== Sys2Proof/Machine/Table.lean ====
section
/-! DEFINITION. Sparse tables: a list of (key, value) pairs with one default, in one canonical form (keys strictly
rising, no entry equal to the default). Every indexed family of registers, units and memory cells is held so. -/

namespace Sys2Proof

/-- A sparse table. What an unlisted key holds is the default that each reader names. -/
abbrev Tbl (α : Type) := List (Nat × α)

variable {α : Type}

/-- The value at key `i`, `d` where nothing is listed. -/
def Tbl.get (d : α) : Tbl α → Nat → α
  | [], _ => d
  | (k, v) :: t, i => if i = k then v else Tbl.get d t i

/-- Lists `v` at key `i`, in key order. -/
def Tbl.put : Tbl α → Nat → α → Tbl α
  | [], i, v => [(i, v)]
  | (k, w) :: t, i, v =>
    if i = k then (i, v) :: t
    else if i < k then (i, v) :: (k, w) :: t
    else (k, w) :: Tbl.put t i v

/-- Removes every entry at key `i`. -/
def Tbl.del : Tbl α → Nat → Tbl α
  | [], _ => []
  | (k, w) :: t, i => if i = k then Tbl.del t i else (k, w) :: Tbl.del t i

/-- Writes `v` at key `i`; writing the default removes the entry. -/
def Tbl.set [DecidableEq α] (d : α) (t : Tbl α) (i : Nat) (v : α) : Tbl α :=
  if v = d then Tbl.del t i else Tbl.put t i v

/-- Applies `f` to the value at key `i`. -/
def Tbl.upd [DecidableEq α] (d : α) (t : Tbl α) (i : Nat) (f : α → α) : Tbl α :=
  Tbl.set d t i (f (Tbl.get d t i))

/-- The entry at key `i`, if one is listed. -/
def Tbl.find? (t : Tbl α) (i : Nat) : Option α :=
  match t with
  | [] => none
  | (k, v) :: u => if i = k then some v else Tbl.find? u i

/-- Every key of the table lies at or above `lo` and the keys rise strictly. -/
def Tbl.rising (lo : Nat) : Tbl α → Bool
  | [] => true
  | (k, _) :: t => decide (lo ≤ k) && Tbl.rising (k + 1) t

/-- The canonical form: keys strictly rising, no entry equal to the default. -/
def Tbl.wf [DecidableEq α] (d : α) (t : Tbl α) : Bool :=
  Tbl.rising 0 t && t.all (fun e => !decide (e.2 = d))

/-- The least key not below `lo` that is absent from the table, among the first `fuel` keys. -/
def Tbl.freeKey (t : Tbl α) : Nat → Nat → Option Nat
  | _, 0 => none
  | lo, fuel + 1 => if (Tbl.find? t lo).isNone then some lo else Tbl.freeKey t (lo + 1) fuel

/-- Maps every listed value. -/
def Tbl.mapVals (t : Tbl α) (f : Nat → α → α) : Tbl α :=
  t.map (fun e => (e.1, f e.1 e.2))

end Sys2Proof
end

