-- ==== Sys2Proof/Machine/Parts.lean ====
section
/-! DEFINITION. The parts of the machine's state, chapter by chapter: plain data, every field at the value the spec
gives it at reset (notes/assumptions for the values it does not give). -/

namespace Sys2Proof.Machine

/-! ## Host memory and rings (spec/04) -/

/-- A record waiting to be written into a ring (R92, R279, R312). -/
structure Rec where
  /-- The record's bytes, PHASE clear. -/
  bytes : Bytes := []
  /-- Whether a notify follows it (R93). -/
  notify : Bool := false
  /-- The command that keeps its window place until the record is posted (R92). -/
  place : Option Nat := none
  /-- The dispatched command whose own record this is. -/
  cmd : Option Nat := none
  /-- The command whose own record goes before this one (R259). -/
  after : Option Nat := none
  /-- The pool buffer of an ARRIVAL record (R279). -/
  buffer : Option Nat := none
  /-- A zero-length read on the other port precedes the record (R222). -/
  orderRead : Bool := false
  /-- The tenant copy of this SLICE_SEQ is posted before the record (R315). -/
  awaitSeq : Option Nat := none
deriving DecidableEq, Repr

/-- A ring in host memory that the device writes (R92, R94, R313, R346, R364). -/
structure Ring where
  base : W64 := 0
  pasid : BitVec 20 := 0
  port : Bool := false
  enable : Bool := false
  sizeLog2 : BitVec 5 := 0
  notifyEn : Bool := false
  notifyValue : W32 := 0
  notifyAddr : W64 := 0
  head : Nat := 0
  tail : Nat := 0
  /-- Records posted and not yet released by the head doorbell. -/
  posted : Nat := 0
  phase : Bool := true
  badDoorbell : Bool := false
  cfgError : Bool := false
  /-- LOST_RECORDS, or the ring's own count of dropped entries. -/
  lost : Nat := 0
  /-- Reservations held (R92). -/
  reserved : Nat := 0
  /-- Records of completed commands, for their reserved slots, oldest first. -/
  due : List Rec := []
  /-- Records without a reservation, oldest first. -/
  waiting : List Rec := []
deriving DecidableEq, Repr

/-- A submission queue (R90, R91, R98). -/
structure Sq where
  base : W64 := 0
  pasid : BitVec 20 := 0
  port : Bool := false
  enable : Bool := false
  sizeLog2 : BitVec 5 := 0
  head : Nat := 0
  tail : Nat := 0
  badDoorbell : Bool := false
  cfgError : Bool := false
  /-- A failed descriptor read stopped fetching until the next accepted tail doorbell (R91). -/
  stopped : Bool := false
  /-- The fetch window: command numbers in ring order. -/
  window : List Nat := []
  /-- The sequence window: empty, high and the accepted values high − 1,023 to high (bit k: high − k). -/
  seqEmpty : Bool := true
  high : W32 := 0
  seen : BitVec 1024 := 0
deriving DecidableEq, Repr

/-- A table handle (Table 11.5). -/
structure Handle where
  baseA : W64 := 0
  baseB : W64 := 0
  current : Bool := false
  refA : Nat := 0
  refB : Nat := 0
  flipPending : Bool := false
  /-- FLIP_SRC: true for a manager flip. -/
  flipMgr : Bool := false
  flipCq : Nat := 0
  /-- The flip's SQ, for the record's SQ field. -/
  flipSq : Nat := 0
  flipTag : W64 := 0
  flipSeq : W32 := 0
  /-- The command of the pending tenant flip, whose record goes first (R259). -/
  flipCmd : Option Nat := none
deriving DecidableEq, Repr

/-! ## The running configuration (spec/02) -/

inductive Policy where
  | spread | locale | paired
deriving DecidableEq, Repr

/-- A course range (Table 2.7). -/
structure Range where
  policy : Policy := .spread
  homeDie : Nat := 0
  access : Nat := 0
  tva : Nat := 0
  dpa : Nat := 0
  courses : Nat := 0
deriving DecidableEq, Repr

/-- A PASID entry (Table 2.8). -/
structure Pasid where
  pasid : Nat := 0
  ports : Nat := 0
deriving DecidableEq, Repr

/-- What the image defines for one slice (Tables 2.4 to 2.9, 2.14). -/
structure SliceDef where
  enabled : Bool := false
  rarFault : Bool := false
  tenantFlip : Bool := false
  classMask : Nat := 0
  tableHandles : Nat := 0
  payloadBuffers : Nat := 0
  ownerTag : W32 := 0
  poolWeight : Nat := 0
  poolMax : Nat := 0
  dedicated : Nat := 0
  quotaMib : Nat := 0
  floorMib : Nat := 0
  ranges : List Range := []
  pasids : List Pasid := []
  sqCount : Nat := 0
  cqCount : Nat := 0
  maxDepth : Nat := 0
  escalate : Nat := 0
  quiesce : Nat := 0
  /-- IMAGE_SERIAL of the image that last defined the slice (R50). -/
  applySerial : W64 := 0
deriving DecidableEq, Repr

/-- A priority class (Table 2.10). -/
structure PrioClass where
  preempts : Bool := false
  background : Bool := false
  share : Nat := 0
deriving DecidableEq, Repr

/-- Package-wide matter of the running WHOLE image (R33, R34, R35, R37). -/
structure WholeCfg where
  serial : W64 := 0
  secVersion : W32 := 0
  /-- 0 slot A, 1 slot B, 2 host, 3 none yet (Table 2.27). -/
  loadedFrom : Nat := 3
  classes : List PrioClass := []
  /-- Bit n: bay n is QUARTERED in the WHOLE image. -/
  quartered : Nat := 0
  routes : List Nat := []
  weights : List Nat := []
  errMaskInit : Nat := 6
  bucketThreshold : Nat := 32
  bucketLeak : Nat := 1
  scrubDram : Nat := 0
  scrubPassH : Nat := 0
  retrainMax : Nat := 0
  scrubCache : Nat := 0
  scrubLs : Nat := 0
  stream : Nat := 0
  /-- The 256 slice definitions it loads at bring-up step 8. -/
  slices : Tbl SliceDef := []
deriving DecidableEq, Repr

/-! ## Slices (spec/02 R42, spec/03, spec/04, spec/13, spec/14, spec/15) -/

inductive SliceState where
  | off | active | draining | drained | applying | frozen
deriving DecidableEq, Repr

/-- A tenant reset's progress (R75, R46, R74). -/
inductive ResetPhase where
  | none | held | running
deriving DecidableEq, Repr

/-- A peer or accept entry (R273). -/
structure Peer where
  pkg : Nat := 0
  remote : Nat := 0
  valid : Bool := false
  cls : Nat := 0
  cq : Nat := 0
deriving DecidableEq, Repr

/-- One slice: its definition, its doorbell page and its queues, handles and counters. -/
structure Slice where
  defn : SliceDef := {}
  state : SliceState := .off
  /-- The state held before APPLYING (R44). -/
  prior : SliceState := .off
  reset : ResetPhase := .none
  /-- Completion records dropped and commands aborted by the running tenant reset (R75). -/
  resetDropped : Nat := 0
  resetAborted : Nat := 0
  tenantEpoch : BitVec 16 := 0
  droppedDoorbells : Nat := 0
  doubleFrees : Nat := 0
  foreignFrees : Nat := 0
  refusedArrivals : Nat := 0
  sqs : Tbl Sq := []
  cqs : Tbl Ring := []
  fq : Ring := {}
  handles : Tbl Handle := []
  /-- The two stored copies of descriptor, range entries and PASID entries (R50): quoin 0, quoin 1. -/
  copy0 : Bytes := []
  copy1 : Bytes := []
  /-- SLICE_SEQ of the next tenant copy (R312). -/
  sliceSeq : W32 := 1
  tqDropped : Nat := 0
  uCount : Nat := 0
  descBad : Bool := false
  rarCount : Nat := 0
  bypasses : Nat := 0
  /-- The 14 counters of Table 14.6 and their OVF bits. -/
  counters : Tbl Nat := []
  ovf : Nat := 0
  peers : Tbl Peer := []
  accepts : Tbl Peer := []
  logging : Bool := false
  logLost : Bool := false
  logInvalid : Bool := false
  lateWrites : Nat := 0
  /-- FREEZE accepted and waiting for inbound streams, from this TIME (R368). -/
  freezing : Option Nat := none
  timeFrozen : Nat := 0
deriving DecidableEq, Repr

/-! ## Commands (spec/04) -/

inductive CmdPhase where
  /-- Fetched and accepted, not dispatched. -/
  | windowed
  /-- Completed without dispatch; its record waits for a slot (R92). -/
  | placed
  | running
  /-- Part or all of its work is saved (R103). -/
  | preempted
  /-- Its engines have finished or stopped; it completes at COMMAND_COMPLETE. -/
  | finishing
  /-- Completed; its record may still wait for its slot. -/
  | completed
deriving DecidableEq, Repr

/-- Why a dispatched command stops: the outcome, detail and argument it will complete with. -/
structure Stop where
  outcome : Nat
  detail : Nat
  arg : Nat
  /-- The fault's record has not yet been collected (R315). -/
  awaitSeq : Option Nat := none
deriving DecidableEq, Repr

/-- An exact sum in units of 2^−600, with counts of its infinite and NaN terms (R175). -/
structure SumAcc where
  units : Int := 0
  posInf : Nat := 0
  negInf : Nat := 0
  nans : Nat := 0
deriving DecidableEq, Repr

/-- A selected element (Table 7.7) with the number that breaks ties (R171). -/
structure Entry where
  index : W64
  value : W32
  source : Byte
  order : Nat
deriving DecidableEq, Repr

/-- The progress of one work item on one array, hod engine or riddle unit; a saved image is the same data (R155,
R181). -/
structure Item where
  /-- Work item number. -/
  item : Nat := 0
  /-- SELECT: phase 1 pass 1, 2 merge, 3 pass 2, 4 finish. -/
  phase : Nat := 1
  row : Nat := 0
  seg : Nat := 0
  /-- Next K tile, list position or element. -/
  pos : Nat := 0
  bag : Nat := 0
  bagEnd : Nat := 0
  kept : Nat := 0
  /-- Accumulators: F32 patterns, or exact integers. -/
  acc : List Int := []
  /-- Exact accumulators that are NaN, by their place in `acc` (a block scale byte 0xFF of I8, R140). -/
  nanAt : List Nat := []
  list : List Entry := []
  sum : SumAcc := {}
  nanCount : Nat := 0
  /-- Saved images carry the engine's number they left (bays resume anywhere), and their place in CTX_SAVE. -/
  engine : Nat := 0
  slot : Nat := 0
deriving DecidableEq, Repr

/-- What a SELECT holds of an unfinished row between work items: the partial lists by segment (one list once they are
merged), the totals of the terms, the NaNs, and the items of passes 1 and 2 that have not ended (R173). -/
structure RowAcc where
  lists : Tbl (List Entry) := []
  sum : SumAcc := {}
  nanCount : Nat := 0
  pass1Left : Nat := 0
  pass2Left : Nat := 0
deriving DecidableEq, Repr

/-- One fetched command. -/
structure Cmd where
  slice : Nat := 0
  sq : Nat := 0
  ring : Nat := 0
  desc : Bytes := []
  /-- The launch, slab, gather, select or Sweld block read at fetch step 5. -/
  block : Bytes := []
  handleList : List Nat := []
  fetchTime : Nat := 0
  phase : CmdPhase := .windowed
  /-- Earlier commands of its SQ that had not completed at acceptance (R102). -/
  earlier : List Nat := []
  /-- Ring index of an earlier command that did not complete DONE (R102). -/
  predFail : Option Nat := none
  dispatched : Bool := false
  timeDispatch : Nat := 0
  timeDone : Nat := 0
  tenantEpoch : BitVec 16 := 0
  /-- Captured epochs: handle and whether base B is selected (R107). -/
  captures : List (Nat × Bool) := []
  /-- The granted arrays, engines, units or bays in order of placement; with the gangs placed for a LAUNCH. -/
  grant : List (Nat × Nat) := []
  granted : Nat := 0
  bays : List Nat := []
  /-- Next unstarted work item or gang index; the claim counter of R236. -/
  next : Nat := 0
  /-- Work items or gang indices in all. -/
  items : Nat := 0
  /-- Items in progress, by engine. -/
  busy : Tbl Item := []
  /-- Saved images (R131, R155, R181). -/
  images : List Item := []
  /-- Saved gangs of the launch's bay images: (image, gang number). -/
  savedGangs : List (Nat × Nat) := []
  saves : Nat := 0
  /-- Units of each work item finished: bags, rows or lines; complete items count all of theirs. -/
  done : Tbl Nat := []
  /-- Gang indices that ended normally with their stores written back, as counts for each commit slot (R128). -/
  slotEnds : Tbl Nat := []
  /-- Gangs that ended normally and whose stores are not all written back: slot, bay, gang. -/
  ended : List (Nat × Nat × Nat) := []
  rows : Tbl RowAcc := []
  /-- RESULT flags: SATURATED, NAN_TO_ZERO, INF_OUT, NAN_OUT, or those of Table 7.8. -/
  flags : Nat := 0
  skipped : Nat := 0
  /-- RESULT halves of RELEASE, FLUSH, HANDLE_SET, EPOCH_FLIP, SEND. -/
  resA : Nat := 0
  resB : Nat := 0
  stop : Option Stop := none
  /-- A write of the command was refused (R300) before anything stopped it: it goes on, and completes PARTIAL FAULT. -/
  refusal : Option Stop := none
  /-- The lines whose write was refused, by their address. -/
  refusedLines : List Nat := []
  /-- A fault of an ESCALATE group asked for a tenant reset, which waits for the command to complete (R306). -/
  escalate : Bool := false
  /-- Outstanding requests of the command (their numbers). -/
  reqs : List Nat := []
  /-- Host writes went on a port other than its CQ's (R222). -/
  otherPort : Bool := false
  outcome : Nat := 0
deriving DecidableEq, Repr

/-! ## The arbiter (spec/04 R100) -/

structure Arb where
  /-- The eight share credits, 0 to 4,000. -/
  credits : List Nat := [0, 0, 0, 0, 0, 0, 0, 0]
  /-- NCLK edges the arbiter has seen. -/
  edge : Nat := 0
  /-- Number of the next command fetched. -/
  nextCmd : Nat := 0
deriving DecidableEq, Repr

/-! ## Bays (spec/05, spec/06, spec/07) -/

/-- State of a resettable unit (R86). -/
inductive UnitState where
  | up | resetting | down
deriving DecidableEq, Repr

/-- State the management path keeps (R297). -/
inductive MgmtState where
  | on | draining | off | failed
deriving DecidableEq, Repr

structure L1Line where
  data : Bytes
  /-- Bytes that the line holds. -/
  valid : BitVec 128
  /-- Dirty marks by byte (R213). -/
  dirty : BitVec 128
  /-- The launches that dirtied it. -/
  cmds : List Nat
deriving DecidableEq, Repr

/-- Part of an operand row: its elements, and its scale bytes where the operand is block-scaled. -/
structure OpRow where
  codes : List Nat
  scales : List Nat
deriving DecidableEq, Repr

/-- One slab array or quarter: the weight tiles as loaded (tile number) and the work item. -/
structure Array where
  cmd : Option Nat := none
  active : Option Nat := none
  shadow : Option Nat := none
  /-- A weight tile delivered to the array by another's load (R151): its place in W, and its columns. -/
  latched : Option (Nat × List OpRow) := none
deriving DecidableEq, Repr

structure Bay where
  holder : Option Nat := none
  /-- The slice whose work last ran on the bay, and whether that slice has changed its owner since (R132). -/
  lastHolder : Option Nat := none
  ownerGone : Bool := false
  unit : UnitState := .up
  mgmt : MgmtState := .on
  epoch : BitVec 16 := 0
  split : Nat := 0
  /-- The launch whose gangs each mason core holds. -/
  cores : Tbl Nat := []
  quartered : Bool := false
  /-- Arrays by quarter; a whole array is quarter 0. -/
  arrays : Tbl Array := []
  hod : Option Nat := none
  hodPayload : Bool := false
  riddle : Option Nat := none
  /-- L1 lines by TVA line number. -/
  l1 : Tbl L1Line := []
  /-- Scratch bytes. -/
  scratch : Tbl Byte := []
  /-- Instruction caches (core × 2^50 + line), constant cache and descriptor cache (line): 128-byte lines. -/
  icache : Tbl Bytes := []
  ccache : Tbl Bytes := []
  dcache : Tbl Bytes := []
  zeroings : Nat := 0
  tiles : Nat := 0
  rowsPooled : Nat := 0
  elements : Nat := 0
  /-- A POWER_ON whose reset has not ended (R289). -/
  powering : Bool := false
  /-- A reprobe found the unit without power: its reset ends DOWN (Table 12.9). -/
  unpowered : Bool := false
  scrubRow : Nat := 0
  /-- The scrub meter (R334), in units of 10^−3 access slots, and the `ticks` up to which it has earned. -/
  scrubCredit : Nat := 0
  meterTime : Nat := 0
  /-- Check bits that an injection inverted in array words (R318 checker 3): the command whose state the word holds, and
  the mask. -/
  errs : List (Nat × Nat) := []
deriving DecidableEq, Repr

/-- An entry of the mask stack (R120). -/
structure MaskEntry where
  active : W32 := 0
  pending : W32 := 0
  rpc : BitVec 48 := 0
deriving DecidableEq, Repr

/-- A resident or saved gang. -/
structure Gang where
  cmd : Nat := 0
  index : Nat := 0
  bay : Nat := 0
  core : Nat := 0
  age : Nat := 0
  /-- Registers by 256 × lane + register. -/
  regs : Tbl W32 := []
  scalars : Tbl W32 := []
  mask : W32 := 0xFFFFFFFF
  /-- Hardware entries, newest first. -/
  stack : List MaskEntry := []
  spilled : Nat := 0
  /-- In the active set (R119). -/
  active : Bool := false
  /-- The blocks of 256 bytes of the bay's scratch that make up the footprint, in the order of its offsets (R121). -/
  feet : List Nat := []
  saved : Bool := false
  /-- A saved gang's footprint bytes, and the place of its image in CTX_SAVE. -/
  image : Bytes := []
  slot : Nat := 0
  /-- Outstanding members of each stream (their request numbers), by stream. -/
  members : Tbl (List Nat) := []
  /-- A member of the stream failed since its last capstone (R221), by stream: bit n. -/
  failed : Nat := 0
  /-- The ports that host members of each stream have gone on since its last capstone: bit 0, bit 1 (R220). -/
  hostPorts : Tbl Nat := []
  /-- Outstanding stores and atomics that a FENCE waits for. -/
  stores : List Nat := []
  /-- Outstanding loads and the active gang's wait on a load that left the bay. -/
  loads : List Nat := []
  /-- What a demoted gang's next instruction waits on (R119, R218): these loads, and room for so many members of a stream. -/
  waits : List Nat := []
  room : Option (Nat × Nat) := none
deriving DecidableEq, Repr

/-- The instructions that a mason core issued on its latest KCLK edge (R119): their gangs, and whether one is lane
arithmetic. -/
structure Edge where
  gangs : List Nat := []
  lane : Bool := false
deriving DecidableEq, Repr

/-! ## Requests (spec/03 R78) -/

inductive ReqKind where
  | read | write | atomic (op : AtomicOp) (kind : AtomicKind) (operand comparand : W64)
deriving DecidableEq, Repr

/-- The answer a request has received and not yet delivered. -/
inductive Answer where
  | data (bytes : Bytes)
  | ack
  | fault
  | shield (detail arg : Nat)
deriving DecidableEq, Repr

/-- A request in flight from a gang: one line piece (R212). -/
structure Req where
  kind : ReqKind := .read
  gang : Nat := 0
  cmd : Nat := 0
  slice : Nat := 0
  tenantEpoch : BitVec 16 := 0
  unit : Nat := 0
  unitEpoch : BitVec 16 := 0
  responder : Nat := 0
  respEpoch : BitVec 16 := 0
  issued : Nat := 0
  /-- The TVA and the DPA of the line; for host memory the address. -/
  tva : Nat := 0
  dpa : Nat := 0
  host : Option (BitVec 20) := none
  accs : List LaneAcc := []
  volatile : Bool := false
  stream : Option Nat := none
  /-- The request was answered; the reply is on its way (with its responder's epoch at that time). -/
  answer : Option Answer := none
  /-- A read that missed at the partner slice of a PAIRED line (R192). -/
  missed : Bool := false
  /-- A load of a saved gang: discarded, and reissued as the gang resumes (R130). -/
  parked : Bool := false
  /-- Its gang or command has ended: the reply has no taker (R78). -/
  dead : Bool := false
  /-- When it entered the domain of its home and had to wait there: its place in the shield's record (R77). -/
  entered : Option Nat := none
deriving DecidableEq, Repr

/-! ## The unified cache (spec/08) and capstones (spec/09 R219) -/

inductive Dir where
  | none | filling | replica | invalidating
deriving DecidableEq, Repr

/-- One way (Table 8.1). -/
structure Way where
  tag : Nat := 0
  owner : Nat := 0
  valid : BitVec 4 := 0
  dirty : BitVec 4 := 0
  released : Bool := false
  replica : Bool := false
  dir : Dir := .none
  age : Nat := 0
  data : Bytes := []
  /-- Inverted check bits of each sector's words, 8 bits a sector (R318 checker 1). -/
  dataErr : Nat := 0
  /-- Inverted check bits of tag copies 0 and 1, 7 bits each (R318 checker 2). -/
  tagErr : Nat := 0
deriving DecidableEq, Repr

/-- A capstone held at a home slice or waiting at its bay. -/
structure Capstone where
  gang : Nat := 0
  cmd : Nat := 0
  slice : Nat := 0
  stream : Nat := 0
  /-- Earlier members not yet acknowledged. -/
  waits : List Nat := []
  failed : Bool := false
  dpa : Nat := 0
  tva : Nat := 0
  host : Option (BitVec 20) := none
  hostAddr : Nat := 0
  /-- The ports that earlier host members of its stream went on (R220). -/
  ports : Nat := 0
  data : Bytes := []
  flag : Option W64 := none
  /-- Held at its home slice (or quoin); otherwise it waits at the issuing bay for a place. -/
  held : Bool := false
  arrived : Nat := 0
deriving DecidableEq, Repr

structure Uc where
  /-- Ways by (slice × 1,536 + set) × 16 + way. -/
  ways : Tbl Way := []
  /-- Requests that wait at a home slice behind a directory transition, in arrival order (R193). -/
  waiting : List Nat := []
  /-- WAY_OFF mask by slice. -/
  wayOff : Tbl Nat := []
  corrected : Tbl Nat := []
  refetched : Tbl Nat := []
  capstones : Tbl Capstone := []
  heldMax : Nat := 0
  discarded : Nat := 0
  wayBusy : Bool := false
  wayDone : Bool := false
  wayOverrun : Bool := false
  /-- The operation that runs: slice, way, and whether it disables. -/
  wayOp : Option (Nat × Nat × Bool) := none
  /-- Sets that lost both tag copies: slice × 1,536 + set (R303). -/
  lostSets : List Nat := []
  scrubSet : Tbl Nat := []
  scrubPasses : Nat := 0
  scrubCorrected : Nat := 0
  /-- The scrub meters by slice (R334), in units of 10^−4 access slots, and the `ticks` up to which each has earned. -/
  scrubCredit : Tbl Int := []
  meterTime : Tbl Nat := []
  /-- Requests that have entered a home's domain so far (R77). -/
  arrivals : Nat := 0
  /-- Within one step whose accesses can wait: whether one met a hold, the channel that holds it, and the lines whose
  replica a write asks to invalidate. Between steps nothing is held. -/
  mayWait : Bool := false
  held : Bool := false
  heldBy : Option Nat := none
  wants : List (Nat × Nat) := []
deriving DecidableEq, Repr

/-! ## LPDDR5X channels (spec/11, spec/14) -/

/-- A corrected error's trace toward pin-kill and the repair queue (R248, R254). -/
structure ErrTrace where
  /-- Pin, or row number (bank + 16 × row). -/
  what : Nat
  /-- Channel line, or slot. -/
  line : Nat
  time : Nat
deriving DecidableEq, Repr

/-- A request that waits in a channel's controller during a retraining hold (R256). -/
inductive ChanReq where
  /-- A request of a gang, by its number. -/
  | req (rid : Nat)
  | read (q : Nat)
  | write (q : Nat) (data : Bytes) (mask : BitVec 128)
deriving DecidableEq, Repr

structure Chan where
  unit : UnitState := .up
  epoch : BitVec 16 := 0
  trained : Bool := false
  killed : Option Nat := none
  repacking : Bool := false
  repackRow : Nat := 0
  pprQueue : List Nat := []
  /-- Rows queued when the reset in progress began, and whether that reset is armed (R254). -/
  pprRun : List Nat := []
  pprArmed : Bool := false
  pprDropped : Bool := false
  /-- Row remaps: (row + bank × 2^20) to spare index. -/
  remaps : Tbl Nat := []
  corrected : Nat := 0
  uncorrected : Nat := 0
  pinErrs : List ErrTrace := []
  rowErrs : List ErrTrace := []
  retraining : Bool := false
  retrainFrom : Nat := 0
  /-- A retraining that RETRAIN_MAX has put off, and a hold notice that has gone out (R256). -/
  deferred : Bool := false
  notice : Bool := false
  /-- Requests that wait in the controller during a hold, in arrival order. -/
  queued : List ChanReq := []
  scrubPos : Nat := 0
  scrubLate : Bool := false
  scrubPasses : Nat := 0
  scrubStart : Nat := 0
  /-- Since when the scrubber's time has not counted: the channel resets, is DOWN or repacks (R338). -/
  scrubPaused : Option Nat := none
  /-- The scrub meter (R334), in units of 10^−3 ns of bus time, and the `ticks` up to which it has earned. -/
  scrubCredit : Nat := 0
  meterTime : Nat := 0
  /-- The streaming meter (R334, R341), in ps of bus time, and the `ticks` up to which it has earned. -/
  streamCredit : Nat := 0
  streamTime : Nat := 0
deriving DecidableEq, Repr

structure Mem where
  /-- DRAM contents: channel × 2^34 + raw course × 4,096 + half × 2,048 + column. -/
  dram : Tbl Byte := []
  /-- The course-map lines that the channels' caches hold, channel × 2^20 + map line: 16 entries each, the low 32 bits
  WRITTEN, the high 32 MARK (R249, R251). The course map itself lies coded in `dram`, in its raw courses (R244). -/
  mapCache : Tbl (List W64) := []
  /-- Blocks whose share is not fresh: channel × 2^21 + β (R250; every bit is set at reset). -/
  notFresh : Tbl Bool := []
  chans : Tbl Chan := []
  holds : Nat := 0
  worstHold : Nat := 0
  ctlDone : Bool := false
  ctlRefused : Bool := false
deriving DecidableEq, Repr

/-! ## Pool buffers (spec/04 R110) -/

structure Buffer where
  owner : Option Nat := none
  gen : BitVec 16 := 0
  data : Bytes := []
deriving DecidableEq, Repr

/-! ## Weighted round robin (spec/10 R232) -/

/-- A bulk message whose flits wait at a bridge (R232): its number in the order of sending, priority class, flits, and the
bridge directions still to come. -/
structure BulkMsg where
  num : Nat
  cls : Nat
  response : Bool
  crossed : Bool := false
  flits : Nat
  rest : List Nat
deriving DecidableEq, Repr

/-- One direction of a bridge: the messages that wait, oldest first, and the round robin among the ordinary classes and
among the BACKGROUND ones: whose turn it is and the flits left of the turn. -/
structure Flow where
  waiting : List BulkMsg := []
  turn : Nat := 7
  left : Nat := 0
  bgTurn : Nat := 7
  bgLeft : Nat := 0
deriving DecidableEq, Repr

/-! ## Sweld (spec/12) -/

inductive PortState where
  | down | training | up | recovering | off
deriving DecidableEq, Repr

/-- What is left to send of a message (R282), the stream whose CLOSE it is, and the stream and reason whose ABORT it is. -/
structure Msg where
  bytes : Bytes
  close : Option Nat := none
  abort : Option (Nat × Nat) := none
deriving DecidableEq, Repr

/-- A sent flit kept for resending (R271), with the streams whose CLOSE, and the ABORTs that, end in it. -/
structure SentFlit where
  lseq : BitVec 12
  ctrl : Bool
  payload : Bytes
  resends : Nat := 0
  closes : List Nat := []
  aborts : List (Nat × Nat) := []
deriving DecidableEq, Repr

structure Port where
  state : PortState := .down
  unit : UnitState := .up
  mgmt : MgmtState := .on
  epoch : BitVec 16 := 0
  x4 : Bool := false
  lanes : Byte := 0
  remotePkg : Nat := 0
  remotePort : Nat := 0
  remoteValid : Bool := false
  /-- The next LSEQ to send, and the next to accept. -/
  txSeq : BitVec 12 := 0
  rxSeq : BitVec 12 := 0
  nakSent : Bool := false
  /-- Sent and unacknowledged flits, oldest first, and the TIME of the last ACK progress. -/
  replay : List SentFlit := []
  progress : Nat := 0
  /-- The last flit put on the wire. -/
  wire : Bytes := []
  creditData : Nat := 0
  creditCtrl : Nat := 0
  /-- Receive-buffer places freed since the last report. -/
  freedData : Nat := 0
  freedCtrl : Nat := 0
  /-- CTRL flits sent in a row while DATA waited (R270). -/
  ctrlRun : Nat := 0
  /-- Messages waiting to go out, and received message bytes, by channel (CTRL, DATA). -/
  outCtrl : List Msg := []
  outData : List Msg := []
  inCtrl : Bytes := []
  inData : Bytes := []
  fecCorrected : Nat := 0
  replays : Nat := 0
  recoveries : Nat := 0
  recoverFrom : Nat := 0
  /-- ABORTs, by stream and reason, that no link-level acknowledgement covers yet: they go again after a recovery. -/
  aborts : List (Nat × Nat) := []
  /-- The round robin among the priority classes of the streams (R277). -/
  rr : Flow := {}
  /-- TIME at which the last BEACON was sent and received (R284), moved on with each step of TIME. -/
  beaconTx : Nat := 0
  lastRx : Nat := 0
  /-- POWER_OFF waits for its streams from this TIME (R289). -/
  draining : Option Nat := none
  /-- A POWER_ON whose reset has not ended. -/
  powering : Bool := false
  /-- A reprobe found the unit without power: its reset ends DOWN (Table 12.9). -/
  unpowered : Bool := false
deriving DecidableEq, Repr

/-- An outbound stream, keyed port × 2^16 + stream number. -/
structure OutStream where
  cmd : Nat := 0
  /-- The sending slice, and the receiving slice that its peer entry named at the first OPEN (R273). -/
  slice : Nat := 0
  remote : Nat := 0
  /-- OPEN_ACK has arrived. -/
  opened : Bool := false
  /-- TIME of the first OPEN, and of the last one that met BUSY. -/
  firstOpen : Nat := 0
  busyAt : Option Nat := none
  /-- The landed prefix the receiver reported, the next member to send, and the members ever sent. -/
  landed : Nat := 0
  sent : Nat := 0
  top : Nat := 0
  /-- The capstone has been sent since the last recovery, and at any time. -/
  capSent : Bool := false
  capTop : Bool := false
  /-- CLOSE has been sent. -/
  closing : Bool := false
  resends : Nat := 0
deriving DecidableEq, Repr

/-- An inbound stream, keyed port × 2^16 + stream number. -/
structure InStream where
  src : Nat := 0
  dst : Nat := 0
  arrival : Bool := false
  flag : Bool := false
  dest : W64 := 0
  len : W64 := 0
  flagAddr : W64 := 0
  tag : W64 := 0
  cls : Nat := 0
  cq : Nat := 0
  buffer : Option Nat := none
  /-- Every SSEQ below it has landed; bit k of the record: prefix + k has landed. -/
  landed : Nat := 0
  marks : BitVec 1024 := 0
  /-- The prefix last reported by LANDED, and when. -/
  reported : Nat := 0
  reportTime : Nat := 0
  capstone : Option Bytes := none
  applied : Bool := false
deriving DecidableEq, Repr

/-- An EXPECT in progress, keyed by its command. -/
structure Expect where
  slice : Nat := 0
  fenceEnd : Nat := 0
  /-- The reads at dispatch have been made. -/
  read : Bool := false
  committed : List Nat := []
deriving DecidableEq, Repr

structure Sweld where
  ports : Tbl Port := []
  outs : Tbl OutStream := []
  ins : Tbl InStream := []
  expects : Tbl Expect := []
  broken : Nat := 0
  refused : Nat := 0
  duplicates : Nat := 0
  malformed : Nat := 0
  peerDone : Bool := false
  peerResult : Nat := 0
  masterPkg : Nat := 0
  master : Bool := true
  aligned : Bool := false
  steps : Nat := 0
  /-- The last measured offset from the master, and what is left of it. -/
  measured : Int := 0
  offset : Int := 0
  /-- Whether a follower slews toward its master. -/
  slewing : Bool := false
deriving DecidableEq, Repr

/-! ## Fabric (spec/10) -/

structure Bridge where
  linksGood : Nat := 0
  spares : Nat := 0
  degraded : Bool := false
  retries : Nat := 0
  bytes0 : Nat := 0
  bytes1 : Nat := 0
  /-- Retries of the last second: link and TIME. -/
  recent : List (Nat × Nat) := []
deriving DecidableEq, Repr

/-- The messages of the control mesh (Table 10.3). -/
inductive CtrlKind where
  | stop | shield | invalidate | invalidateAck | holdNotice
  | ack | releaseToken | flagAdd | grant | completion | report | register
deriving DecidableEq, Repr

/-- One flit of a control message and the links still to come. -/
structure CtrlFlit where
  msg : Nat
  kind : CtrlKind
  rest : List Nat
deriving DecidableEq, Repr

/-- A control link (R235): the flits that wait in each channel, oldest first, and the slots in a row that HIGH has won
while NORMAL had a flit waiting. -/
structure CtrlLink where
  high : List CtrlFlit := []
  normal : List CtrlFlit := []
  run : Nat := 0
deriving DecidableEq, Repr

structure Fab where
  bridges : Tbl Bridge := []
  /-- The directions of the bridges, 2 b + r, and the bulk messages sent so far. -/
  flows : Tbl Flow := []
  bulkSent : Nat := 0
  /-- The control links that have flits waiting, and the control messages sent so far. -/
  links : Tbl CtrlLink := []
  ctrlSent : Nat := 0
  /-- The priority class of the last access. -/
  cls : Nat := 0
  /-- `ticks` up to which each die's broadcast bus is busy (R237). -/
  busUntil : Tbl Nat := []
  /-- How far each die's TIME is from the package's, in ns, and where the last beacon steers it (R236). -/
  skew : Tbl Int := []
  target : Tbl Int := []
  /-- `ticks` at the last alignment beacon. -/
  beaconAt : Option Nat := none
  /-- ROUTE entries loaded at bring-up step 7: 8s + t to OVERRIDE × 4 + CROSS_COL. -/
  routes : Tbl Nat := []
  weights : List Nat := []
  transfers : Tbl Nat := []
  fallbacks : Tbl Nat := []
deriving DecidableEq, Repr

/-! ## Faults (spec/13) -/

/-- A fault record on its way to the rings (Table 13.5). -/
structure FaultRec where
  time : Nat := 0
  code : Nat := 0
  action : Nat := 0
  slice : Option Nat := none
  unit : Nat := 0
  seq : W32 := 0
  sliceSeq : W32 := 0
  addr : Option Nat := none
  addrTva : Bool := false
  tva : Option Nat := none
  cmd : Option (W64 × W32 × Nat) := none
  cmdId : Option Nat := none
  /-- Created before READY: held like any other record, class C included (R314). -/
  early : Bool := false
  count : Nat := 1
  info0 : W64 := 0
  info1 : W64 := 0
  lost : Bool := false
  tqDropped : Bool := false
deriving DecidableEq, Repr

/-- A reporter's syndrome queue and pair (R307 to R309). -/
structure Reporter where
  queue : List FaultRec := []
  /-- The next record queued carries FLAGS.LOST. -/
  lostNext : Bool := false
  err : Bool := false
  errN : Bool := true
  /-- Consecutive equal samples, and consecutive (1,0) samples with an empty queue. -/
  equalEdges : Nat := 0
  emptyEdges : Nat := 0
  /-- FORCE_PATH drives the pair for this many more SCLK edges. -/
  forced : Nat := 0
deriving DecidableEq, Repr

structure Inject where
  armed : Bool := false
  checker : Nat := 0
  unit : Nat := 0
  mask : Nat := 0
  remaining : Nat := 0
  disarmed : Bool := false
  refused : Bool := false
deriving DecidableEq, Repr

structure Flt where
  reporters : Tbl Reporter := []
  /-- Records the die collectors hold, by die, oldest first. -/
  collectors : Tbl (List FaultRec) := []
  ring : Ring := {}
  nextSeq : W32 := 1
  lastSeq : W32 := 0
  /-- Records held, in SEQ order, at most 256 (R314). -/
  held : List FaultRec := []
  /-- Open records: SEQ and class (R317). -/
  openRecs : List (W32 × Nat) := []
  /-- The last 16 records, newest first (R333). -/
  last : List FaultRec := []
  mask : Nat := 6
  ack : W32 := 0
  cDropped : Nat := 0
  ufLost : Nat := 0
  tqDropped : Nat := 0
  reportsLost : Nat := 0
  buckets : Tbl Nat := []
  threshold : Nat := 32
  leak : Nat := 1
  /-- TIME of the last leak. -/
  lastLeak : Nat := 0
  inject : Inject := {}
  repairEntry : W64 := 0
  repairBusy : Bool := false
  repairDone : Bool := false
  repairFailed : Bool := false
  repairFull : Bool := false
  /-- The blow in progress: die and the 64-bit entry; automatic blows wait behind it. -/
  blowing : List (Nat × W64 × Bool) := []
deriving DecidableEq, Repr

/-! ## Telemetry and services (spec/14) -/

/-- A programmable counter (R349 to R354), keyed 8g + i. -/
structure Counter where
  sel : W64 := 0
  value : W64 := 0
  ovf : Bool := false
  snap : W64 := 0
  snapOvf : Bool := false
deriving DecidableEq, Repr

/-- A guard-band domain (R342). -/
structure Aging where
  guardMv : Nat := 0
  marginPs : Nat := 255
  exhausted : Bool := false
  raises : Nat := 0
  samples : List Nat := []
  waitUntil : Nat := 0
deriving DecidableEq, Repr

structure Tel where
  ring : Ring := {}
  tickSeq : W32 := 1
  droppedTicks : Nat := 0
  lastTick : Option Nat := none
  counters : Tbl Counter := []
  /-- The latest issue edge of each mason core, by 8 × bay + core. -/
  edges : Tbl Edge := []
  snapTime : Tbl Nat := []
  aging : Tbl Aging := []
  /-- `ticks` at the last sample of the monitors. -/
  agingAt : Option Nat := none
  lsPasses : Nat := 0
  lsZeroed : Nat := 0
deriving DecidableEq, Repr

/-! ## Migration (spec/15) -/

structure Mig where
  blobAddr : W64 := 0
  busy : Bool := false
  done : Bool := false
  overrun : Bool := false
  result : Nat := 0
  lastSlice : Nat := 0
  lastOp : Nat := 0
  markSerial : W32 := 0
  /-- The operation that runs: OP, slice, port, and the blob's address. -/
  op : Option (Nat × Nat × Bool × Nat) := none
  ring : Ring := {}
  /-- The filters of the logging points (slices 0 to 511, ports 512 and 513): (slice, course), newest first (R362). -/
  filters : Tbl (List (Nat × Nat)) := []
  copySrc : W64 := 0
  copyDst : W64 := 0
  copyBusy : Bool := false
  copyDone : Bool := false
  copyOverrun : Bool := false
  copyResult : Nat := 0
  copyPoisoned : Nat := 0
  copyCtl : W64 := 0
  copyPort : Bool := false
  /-- SRC and DST of the copy that runs. -/
  copyFrom : Nat × Nat := (0, 0)
deriving DecidableEq, Repr

/-! ## Management, power and pins (spec/12, spec/16) -/

/-- A management operation that a failover holds (R79). -/
inductive HeldOp where
  /-- POWER_ON and POWER_OFF of the manager, and its writes to PLB_POWER_LIMIT and PLB_THERMAL_CFG. -/
  | power (on : Bool) (unit : BitVec 12)
  | managerLimit (value : Nat)
  | throttle (celsius : Nat)
  /-- VR_ALERT_N has fallen: STATUS_WORD is still to be read (R385). -/
  | alert (reg : Fin 5) (acked overCurrent : Bool)
  /-- SET_POWER_LIMIT, UNIT_POWER, PACKAGE_RESET and STAGE_FLASH of the Plinth controller. -/
  | limit (watts : BitVec 16)
  | unitPower (on : Bool) (unit : BitVec 12)
  | packageReset
  | stage (area : Fin 4) (data : Bytes) (flashOk : Bool)
deriving DecidableEq, Repr

structure Plb where
  unitDone : Bool := false
  unitRefused : Bool := false
  splits : Nat := 0
  lastUnit : Nat := 0
  lastMgmt : Nat := 0
  lastData : Nat := 0
  /-- Splits found and not resolved (unit numbers), and power requests held behind them: unit and on. -/
  openSplits : List Nat := []
  heldPower : List (Nat × Bool) := []
  mgrLimit : Nat := 1150
  plinthLimit : Nat := 1150
  /-- The estimates of the last 1 ms, newest first, at most 100, and the TIME of the last (R386). -/
  estimates : List Nat := []
  lastLoop : Option Nat := none
  level : Nat := 0
  throttleNs : Nat := 0
  /-- Loop ticks in a row with λ at 88 and P above L. -/
  at88 : Nat := 0
  limitMissed : Bool := false
  thermal : Bool := false
  vrFault : Bool := false
  /-- Regulators given up on (bit n), and transactions unanswered in a row by regulator. -/
  vrDead : Nat := 0
  vrMissed : Tbl Nat := []
  /-- Set points as last written, guard-band in mV above nominal, by regulator; and VOUT_TRANSITION_RATE in mV per µs. -/
  setPoint : Tbl Nat := []
  slewRate : Tbl Nat := []
  overCurrentUntil : Nat := 0
  tjThrottle : Nat := 95
  temps : Tbl Nat := []
  peaks : Tbl Nat := []
  /-- Sensors (0 to 103) that read 115 °C or more at the last reading. -/
  hot : List Nat := []
  thermtrip : Bool := false
  i3cAddr : Option (BitVec 7) := none
  /-- In-band interrupts sent (R287), and those in a row that went unacknowledged (R377). -/
  ibiSent : Nat := 0
  ibiMissed : Nat := 0
  smbAlert : Bool := false
  failover : Bool := false
  /-- Management operations written during a failover, performed afterwards. -/
  heldOps : List HeldOp := []
  /-- The last answer of the plumb controller: status and payload. -/
  answer : Nat × Bytes := (0, [])
deriving DecidableEq, Repr

structure Pins where
  pwrGood : Bool := false
  perstN : Bool := true
  prochotN : Bool := true
  pkgId : BitVec 4 := 0
  traySel : Bool := false
  /-- MEM_RESET_N of the 32 LPDDR5X packages. -/
  memResetN : BitVec 32 := 0
deriving DecidableEq, Repr

/-! ## Fuses and flash: what survives every reset (spec/02 R39, spec/13 R319, spec/14 R343, R344) -/

/-- A journal record as read (R344). -/
structure Journal where
  /-- Whether there is one. -/
  valid : Bool := false
  jseq : W32 := 0
  guardMv : List Nat := [0, 0, 0, 0, 0, 0, 0, 0, 0, 0]
  boots : W32 := 0
  erases : List Nat := [0, 0, 0, 0]
  /-- Its place in the log, 0 to 16,383. -/
  slot : Nat := 0
deriving DecidableEq, Repr

structure Nv where
  /-- Key-hash slots 0 to 3: none while unprogrammed. -/
  keys : Tbl Nat := []
  revoked : Nat := 0
  floor : Nat := 0
  /-- Field-repair entries of each die, in slot order. -/
  repairs : Tbl (List W64) := []
  /-- Slot areas: 0 firmware A, 1 firmware B, 2 image A, 3 image B. -/
  flash : Tbl Bytes := []
  /-- The journal: the 64-byte records of its 256 sectors by their place, 64 to a sector; nothing at an erased place. -/
  log : Tbl Bytes := []
  fusesOk : Bool := true
deriving DecidableEq, Repr

/-! ## The device (spec/02, spec/03) -/

inductive DevState where
  | bringup | fwWait | imageWait | ready | failed | fatal
deriving DecidableEq, Repr

/-- An image operation that runs (R44, R48). -/
structure ImageOp where
  op : Nat
  slice : Nat
  slotB : Bool
  port : Bool
  addr : W64
  len : Nat
deriving DecidableEq, Repr

structure Dev where
  state : DevState := .bringup
  step : Nat := 2
  failCode : Nat := 0
  failUnit : Nat := 0
  resetCause : Nat := 0
  readyMs : Nat := 0
  /-- Nanoseconds that have passed, whatever TIME was stepped or slewed to. -/
  ticks : Nat := 0
  /-- `ticks` as the package reset began, and as the present step began; nanoseconds of the step spent waiting. -/
  resetTime : Nat := 0
  stepTime : Nat := 0
  stepWaited : Nat := 0
  memRate : Nat := 0
  memDensity : Nat := 0
  memValid : Bool := false
  accessErr : Nat := 0
  lastOffset : BitVec 24 := 0
  lastBar : Bool := false
  lastWrite : Bool := false
  imageAddr : W64 := 0
  imageLen : Nat := 0
  imageBusy : Bool := false
  imageDone : Bool := false
  imageOverrun : Bool := false
  imageResult : Nat := 0
  imageLastOp : Nat := 0
  imageLastSlice : Nat := 0
  imageOffset : Nat := 0xFFFFFFFF
  imageOp : Option ImageOp := none
  fwAddr : W64 := 0
  fwLen : Nat := 0
  fwBusy : Bool := false
  fwDone : Bool := false
  fwOverrun : Bool := false
  fwHost : Bool := false
  fwSlotB : Bool := false
  fwRunning : Bool := false
  fwResult : Nat := 0
  fwVersion : W64 := 0
  fwOp : Option ImageOp := none
  /-- `ticks` at which the last journal record was appended since the package reset (R344). -/
  journalAt : Option Nat := none
  sliceWrong : Bool := false
  resetDone : Bool := false
  resetMerged : Bool := false
  resetRefused : Bool := false
  lastDomain : Nat := 0
  lastInst : Nat := 0
  /-- Resets in progress that were started through CFG_RESET_CTL: domain code × 256 + number. -/
  started : List Nat := []
  /-- `ticks` as each reset in progress began. -/
  resetFrom : Tbl Nat := []
  staleCount : Nat := 0
  handleDone : Bool := false
  handleRetired : Bool := false
  handleBusy : Bool := false
  handleOverrun : Bool := false
  handleResult : Nat := 0
  retiredHandle : Nat := 0
  retiredBase : Bool := false
  retiredSlice : Nat := 0
  handleBaseA : W64 := 0
  handleBaseB : W64 := 0
  /-- The manager handle operation held: slice, handle, SET's CURRENT or none for FLIP, bases as accepted. -/
  handleOp : Option (Nat × Nat × Option Bool × W64 × W64) := none
  fillSrc : W64 := 0
  fillDst : W64 := 0
  fillBusy : Bool := false
  fillDone : Bool := false
  fillOverrun : Bool := false
  fillResult : Nat := 0
  fillCtl : W64 := 0
  fillPort : Bool := false
  /-- SRC and DST of the fill that runs. -/
  fillFrom : Nat × Nat := (0, 0)
  preempts : Nat := 0
  preemptWorst : Nat := 0
  slabPreempts : Nat := 0
  slabWorst : Nat := 0
  hodImages : Nat := 0
  hodWorst : Nat := 0
  /-- Fuse blows of CFG_SEC_CTL in progress: slots to revoke, new floor. -/
  secRevoke : Nat := 0
  secFloor : Nat := 0
  linkUp0 : Bool := false
  linkUp1 : Bool := false
  /-- Unit state of the dies, and of the package reset hold by PERST_N. -/
  dies : Tbl UnitState := []
  perstHold : Bool := false
deriving DecidableEq, Repr

/-- The host's side: memory that the device has written, in address order (space × 2^64 + address, space 0 for no PASID
and PASID + 1 otherwise), and the ordering reads of R222 on each port. -/
structure HostSide where
  mem : Tbl Byte := []
  orderReads0 : Nat := 0
  orderReads1 : Nat := 0
deriving DecidableEq, Repr

end Sys2Proof.Machine
end

