-- ==== Sys2Proof/Machine/State.lean ====
section
/-! DEFINITION. The state of the block and its value after reset; what a step can stop with. -/

namespace Sys2Proof.Machine

/-- The reasons a step could stop with a fault. The block reports every fault as state (fault records and ERR_N, spec/13),
so no command raises one. -/
inductive Fault where
  /-- Raised by no command; present because a fault of the block is always a next state. Safe. -/
  | none
deriving DecidableEq, Repr

/-- The reasons a step could refuse a command. -/
inductive Refusal where
  /-- Raised by an arm of `exec` that has no meaning yet. Safe: it stops where the hardware goes on. -/
  | notModelled (mnemonic : String)
deriving DecidableEq, Repr

/-- The state of the block. -/
structure State where
  /-- Commands that wait, first in, first out. -/
  pending : List Instr := []
  /-- The model's own counter of free values drawn (notes/assumptions/2.md). -/
  free : Nat := 0
  /-- TIME in ns (R3). -/
  time : Nat := 0
  pins : Pins := {}
  nv : Nv := {}
  dev : Dev := {}
  whole : WholeCfg := {}
  slices : Tbl Slice := []
  cmds : Tbl Cmd := []
  arb : Arb := {}
  bays : Tbl Bay := []
  gangs : Tbl Gang := []
  nextGang : Nat := 0
  reqs : Tbl Req := []
  nextReq : Nat := 0
  uc : Uc := {}
  mem : Mem := {}
  pool : Tbl Buffer := []
  sweld : Sweld := {}
  fab : Fab := {}
  flt : Flt := {}
  tel : Tel := {}
  mig : Mig := {}
  plb : Plb := {}
  host : HostSide := {}
deriving DecidableEq, Repr

/-- The machine right after reset: a cold start has just begun (R377), TIME is zero (R65), the device is in BRINGUP at
step 2 (R81) and every register holds its reset value (spec/17 R401 and Tables 17.3 to 17.9). -/
def State.reset : State := { pins := { pwrGood := true } }

end Sys2Proof.Machine
end

