-- ==== Sys2Proof/Machine/Geometry.lean ====
section
/-! DEFINITION. Numbers and places: the numbering of dies, channels, slices and bays (spec/01 R13), unit numbers
(Tables 3.6 and 13.3), windows and the slice hash (spec/08 R189, R190), the place of a line in DRAM (spec/11 R244,
R250) and distances (spec/10). -/

namespace Sys2Proof.Machine

/-! ## R13 -/

def dieOfChan (c : Nat) : Nat := c / 16
def dieOfUcSlice (x : Nat) : Nat := x / 64
def chanOfUcSlice (x : Nat) : Nat := x / 4
def dieOfBay (b : Nat) : Nat := b / 6
def baysOfDie (d : Nat) : List Nat := (List.range 6).map (6 * d + ·)
def chansOfDie (d : Nat) : List Nat := (List.range 16).map (16 * d + ·)
def ucSlicesOfDie (d : Nat) : List Nat := (List.range 64).map (64 * d + ·)
def ucSlicesOfChan (c : Nat) : List Nat := (List.range 4).map (4 * c + ·)

/-! ## Unit numbers -/

def unitBay (b : Nat) : Nat := b
def unitChan (c : Nat) : Nat := 0x40 + c
def unitPort (p : Nat) : Nat := 0xC0 + p
def unitQueue (quoin : Bool) : Nat := 0xF0 + ofBool quoin
def unitPlumb (quoin : Bool) : Nat := 0xF2 + ofBool quoin
def unitDieCollector (d : Nat) : Nat := 0x100 + d
def unitBridge (b : Nat) : Nat := 0x110 + b
def unitUcSlice (x : Nat) : Nat := 0x200 + x

/-- The kinds of unit of Table 13.3. -/
inductive UnitKind where
  | bay (b : Nat) | chan (c : Nat) | port (p : Nat) | queue (quoin : Nat) | plumb (quoin : Nat) | pcie (quoin : Nat)
  | quoinCollector (quoin : Nat) | dieCollector (d : Nat) | bridge (b : Nat) | ucSlice (x : Nat) | reserved
deriving DecidableEq, Repr

/-- What a unit number names (Tables 3.6 and 13.3). -/
def unitKind (u : Nat) : UnitKind :=
  if u < 0x30 then .bay u
  else if 0x40 ≤ u ∧ u < 0xC0 then .chan (u - 0x40)
  else if 0xC0 ≤ u ∧ u < 0xD0 then .port (u - 0xC0)
  else if u = 0xF0 ∨ u = 0xF1 then .queue (u - 0xF0)
  else if u = 0xF2 ∨ u = 0xF3 then .plumb (u - 0xF2)
  else if u = 0xF4 ∨ u = 0xF5 then .pcie (u - 0xF4)
  else if u = 0xF6 ∨ u = 0xF7 then .quoinCollector (u - 0xF6)
  else if 0x100 ≤ u ∧ u < 0x108 then .dieCollector (u - 0x100)
  else if 0x110 ≤ u ∧ u < 0x11E then .bridge (u - 0x110)
  else if 0x200 ≤ u ∧ u < 0x400 then .ucSlice (u - 0x200)
  else .reserved

/-- The die whose collector takes a unit's records; none where a quoin's collector does (R305, R307). -/
def dieOfUnit (u : Nat) : Option Nat :=
  match unitKind u with
  | .bay b => some (dieOfBay b)
  | .chan c => some (dieOfChan c)
  | .ucSlice x => some (dieOfUcSlice x)
  | .dieCollector d => some d
  | .bridge b =>
    -- the west die, or the north die for the halves link; quoin bridges report on the ashlar die they reach
    if b < 3 then some b else if b < 6 then some (b + 1) else if b < 10 then some (b - 6)
    else if b = 10 then none else if b = 11 then none else if b = 12 then some 3 else some 7
  | _ => none

/-! ## Density, windows and capacity (R19, R189, Table 8.2) -/

/-- Fresh blocks of usable memory that each channel gives (B of Table 8.2), by MEM_DENSITY code. -/
def blocksPerChan (density : Nat) : Nat := 1916 * 2 ^ density

def localBlocks (density : Nat) : Nat := blocksPerChan density / 8
def spreadBlocks (density : Nat) : Nat := blocksPerChan density - localBlocks density
def spreadTop (density : Nat) : Nat := spreadBlocks density * 0x10000000
def localLen (density : Nat) : Nat := localBlocks density * 0x2000000

/-- Usable capacity in bytes (R19); the last local window ends there (R189). -/
def usable (density : Nat) : Nat := spreadTop density + 8 * localLen density

/-- The DPA window of a policy (R189): first byte and length. -/
def window (density : Nat) (p : Policy) (die : Nat) : Nat × Nat :=
  match p with
  | .locale => (spreadTop density + die * localLen density, localLen density)
  | _ => (0, spreadTop density)

/-! ## The slice hash (R190) -/

/-- The exclusive-or of the w-bit fields of v, over `fuel` fields. -/
def foldFuel (w : Nat) : Nat → Nat → Nat
  | 0, _ => 0
  | f + 1, v => (v % 2 ^ w) ^^^ foldFuel w f (v / 2 ^ w)

/-- fold_w(v) of R190; eight fields cover every value the hash folds. -/
def foldXor (w v : Nat) : Nat := foldFuel w 8 v

/-- A line's home: slice, slice-local line number n (R190). -/
def homeOf (density dpa : Nat) : Nat × Nat :=
  let a := dpa / 128
  if dpa < spreadTop density then
    let g := a / 2 ^ 21
    let low := a % 512
    let mid := a / 512 % 4096
    (low ^^^ foldXor 9 mid ^^^ foldXor 9 g, g * 4096 + mid)
  else
    let l := a - spreadTop density / 128
    let lb := localBlocks density
    let d := l / (262144 * lb)
    let r := l % (262144 * lb)
    (64 * d + ((r % 64) ^^^ foldXor 6 (r / 64)), spreadBlocks density * 4096 + r / 64)

/-- The set of a line number (R190). -/
def setOf (n : Nat) : Nat := n % 1536

/-- The DPA of the line of slice x and line number n: the hash backwards. -/
def dpaOf (density x n : Nat) : Nat :=
  let sb := spreadBlocks density
  if n < sb * 4096 then
    let g := n / 4096
    let mid := n % 4096
    (g * 2 ^ 21 + mid * 512 + (x ^^^ foldXor 9 mid ^^^ foldXor 9 g)) * 128
  else
    let q := n - sb * 4096
    (spreadTop density / 128 + x / 64 * (262144 * localBlocks density) + q * 64
      + ((x % 64) ^^^ foldXor 6 q)) * 128

/-! ## Channel layout (R244, R250) -/

/-- Channel line q of slice x and line number n. -/
def chanLine (x n : Nat) : Nat := 4 * n + x % 4

/-- Home slice and line number of channel line q of channel c. -/
def lineOfChan (c q : Nat) : Nat × Nat := (4 * c + q % 4, q / 4)

/-- Raw course, row half and slot of a channel line. -/
def rawCourse (q : Nat) : Nat := q / 30
def rowHalf (q : Nat) : Nat := q % 30 / 15
def lineSlot (q : Nat) : Nat := q % 30 % 15
def bankOf (q : Nat) : Nat := rawCourse q % 8 + 8 * rowHalf q
def rowOf (q : Nat) : Nat := rawCourse q / 8

/-- Where a line's data begin in `Mem.dram`: the raw course, then the half and column. -/
def dramAddr (c rc h col : Nat) : Nat := c * 2 ^ 34 + rc * 4096 + h * 2048 + col

/-- Lines of usable memory in one channel: the data region is positions 0 to this (R336). -/
def chanLines (density : Nat) : Nat := blocksPerChan density * 16384

/-- Raw courses of data, of the course map and of the spares (R244). -/
def dataCourses (density : Nat) : Nat := ceilDiv (16384 * blocksPerChan density) 30
def mapCourses (density : Nat) : Nat := ceilDiv (512 * blocksPerChan density) 480
def spareCourse (density i : Nat) : Nat := dataCourses density + mapCourses density + i

/-- The channel line of the course map that holds the entry of channel course k: 16 entries a line (R244, R249). -/
def mapLine (density k : Nat) : Nat := 30 * dataCourses density + k / 16

/-- The DPA block number of a line from its slice and n (R250). -/
def blockOf (density x n : Nat) : Nat :=
  let sb := spreadBlocks density
  if n < 4096 * sb then 128 * (n / 4096) + n % 4096 / 32
  else 128 * sb + 16 * localBlocks density * dieOfUcSlice x + (n - 4096 * sb) / 256

/-- The channels that host a DPA block (R250). -/
def hostsOf (density β : Nat) : List Nat :=
  let sb := spreadBlocks density
  if β < 128 * sb then List.range 128
  else chansOfDie ((β - 128 * sb) / (16 * localBlocks density))

/-- The channel courses of a channel's share of a block: first and count (R250). -/
def shareCourses (density β : Nat) : Nat × Nat :=
  let sb := spreadBlocks density
  if β < 128 * sb then
    -- 32 line numbers of each of four slices: n from 4096 g + 32 m, q from 4 n
    ((4096 * (β / 128) + 32 * (β % 128)) * 4 / 32, 4)
  else ((4096 * sb + (β - 128 * sb) % (16 * localBlocks density) * 256) * 4 / 32, 32)

/-! ## Distance (R13, R227 to R231, Table 10.5) -/

def dieCol (d : Nat) : Nat := d % 4
def dieHalf (d : Nat) : Nat := d / 4

/-- Columns travelled and halves crossed between two dies on the default route. -/
def hops (s t : Nat) : Nat := (dieCol s - dieCol t) + (dieCol t - dieCol s)
def crossing (s t : Nat) : Nat := if dieHalf s = dieHalf t then 0 else 1

/-- 40h + 60x, the order of placement from a home die (R126). -/
def distance (s t : Nat) : Nat := 40 * hops s t + 60 * crossing s t

/-- The bridges between neighbouring columns of one half, from column a to column b, with the direction taken
(0 eastward). -/
def rowBridges (half a b : Nat) : List (Nat × Nat) :=
  if a ≤ b then (List.range (b - a)).map (fun i => (3 * half + a + i, 0))
  else (List.range (a - b)).map (fun i => (3 * half + a - 1 - i, 1))

/-- The bridges of the path between two dies with the crossing at column c (R35, R231), with directions. -/
def pathVia (c s t : Nat) : List (Nat × Nat) :=
  if dieHalf s = dieHalf t then rowBridges (dieHalf s) (dieCol s) (dieCol t)
  else rowBridges (dieHalf s) (dieCol s) c ++ [(6 + c, dieHalf s)] ++ rowBridges (dieHalf t) c (dieCol t)

/-- The path that a ROUTE entry names (R35): CROSS_COL in [1:0], OVERRIDE in [2]. -/
def pathOf (route s t : Nat) : List (Nat × Nat) :=
  pathVia (if bitAt route 2 then route % 4 else dieCol t) s t

/-- The path between a quoin and a die: its bridge into the half of the die, then along that half (R231). -/
def quoinPath (quoin : Bool) (t : Nat) (toDie : Bool) : List (Nat × Nat) :=
  let b := (if quoin then 12 else 10) + dieHalf t
  let endCol := if quoin then 3 else 0
  if toDie then (b, ofBool quoin) :: rowBridges (dieHalf t) endCol (dieCol t)
  else rowBridges (dieHalf t) (dieCol t) endCol ++ [(b, 1 - ofBool quoin)]

/-! ## Translation (R30) -/

/-- The course range that holds a TVA. -/
def findRange (rs : List Range) (tva : Nat) : Option Range :=
  rs.find? (fun r => decide (r.tva ≤ tva) && decide (tva < r.tva + r.courses * 4096))

/-- The course range that holds all of [tva, tva + len). -/
def coverRange (rs : List Range) (tva len : Nat) : Option Range :=
  match findRange rs tva with
  | some r => if tva + len ≤ r.tva + r.courses * 4096 then some r else none
  | none => none

/-- The DPA of a TVA in its range. -/
def Range.toDpa (r : Range) (tva : Nat) : Nat := r.dpa + (tva - r.tva)

/-- The course range whose DPA range holds a DPA. -/
def findDpa (rs : List Range) (dpa : Nat) : Option Range :=
  rs.find? (fun r => decide (r.dpa ≤ dpa) && decide (dpa < r.dpa + r.courses * 4096))

def Range.canRead (r : Range) : Bool := bitAt r.access 0
def Range.canWrite (r : Range) : Bool := bitAt r.access 1
def Range.canExec (r : Range) : Bool := bitAt r.access 2

/-- The pieces of [addr, addr + len) at 128-byte boundaries: address and length (R212). -/
def pieces : Nat → Nat → Nat → List (Nat × Nat)
  | 0, _, _ => []
  | fuel + 1, addr, len =>
    if len = 0 then []
    else
      let n := min len (128 - addr % 128)
      (addr, n) :: pieces fuel (addr + n) (len - n)

/-- The pieces of an access of `len` bytes (R212). -/
def linePieces (addr len : Nat) : List (Nat × Nat) := pieces (len / 128 + 2) addr len

/-- Two byte ranges share a byte. -/
def overlap (a la b lb : Nat) : Bool := decide (a < b + lb) && decide (b < a + la)

end Sys2Proof.Machine
end

