-- ==== Sys2Proof/Machine/ImageCheck.lean ====
section
/-! DEFINITION. Quothisa and firmware images (spec/02 R24 to R39, R48, R411; spec/03 R67, R69): header, keys, section table,
records, and what an image says of itself. -/

namespace Sys2Proof.Machine

/-- A failed check: RESULT of Table 2.18 and the byte offset. -/
structure Bad where
  code : Nat
  off : Nat := 0xFFFFFFFF
deriving DecidableEq, Repr

/-- The first failed check of a list. -/
def firstBad : List (Bool × Bad) → Option Bad
  | [] => none
  | (true, b) :: _ => some b
  | (false, _) :: t => firstBad t

/-- RESULT codes of Table 2.18. -/
def irWrongState : Nat := 0x01
def irFetch : Nat := 0x02
def irHeader : Nat := 0x03
def irKind : Nat := 0x04
def irKeyUnusable : Nat := 0x05
def irKeyMismatch : Nat := 0x06
def irSignature : Nat := 0x07
def irPart : Nat := 0x08
def irMemory : Nat := 0x09
def irRollback : Nat := 0x0A
def irTable : Nat := 0x0B
def irPresence : Nat := 0x0C
def irReserved : Nat := 0x0D
def irRange : Nat := 0x0E
def irOrder : Nat := 0x0F
def irBayConflict : Nat := 0x10
def irFloor : Nat := 0x11
def irOverlap : Nat := 0x12
def irWindow : Nat := 0x13
def irPasid : Nat := 0x14
def irBayBusy : Nat := 0x15
def irQueueBusy : Nat := 0x16
def irHandlesBusy : Nat := 0x17
def irActiveSlot : Nat := 0x18
def irFlash : Nat := 0x19
def irPasidBusy : Nat := 0x1A

/-- PART, and the device's stepping 2.1 (spec/01 Table 1.13). -/
def partNumber : Nat := 0x0D08
def stepping : Nat := 0x21

/-! ## Step 2 -/

def imgLen (b : Bytes) : Nat := leAt b 0x08 4
def imgSections (b : Bytes) : Nat := leAt b 0x0C 2
def imgKeySlot (b : Bytes) : Nat := byteAt b 0x0E
def imgSecVersion (b : Bytes) : Nat := leAt b 0x14 4
def imgSerial (b : Bytes) : Nat := leAt b 0x18 8
def imgTarget (b : Bytes) : Nat := byteAt b 0x07

/-- IMAGE_LEN is out of range (Table 2.1). -/
def badImgLen (n : Nat) : Bool := decide (n < 0x180) || decide (0x100000 < n) || decide (n % 64 ≠ 0)

/-- The header checks: `slice` is the target of an APPLY_SLICE; `fetched` the length read from the host. -/
def headerCheck (b : Bytes) (slice : Option Nat) (fetched : Option Nat) : Option Bad :=
  let kind := byteAt b 0x06
  firstBad
    [ (decide (leAt b 0 4 ≠ 0x53485451), ⟨irHeader, 0x00⟩),
      (decide (leAt b 4 2 ≠ 1), ⟨irHeader, 0x04⟩),
      (decide (1 < kind), ⟨irHeader, 0x06⟩),
      (decide (kind ≠ ofBool slice.isSome), ⟨irKind, 0x06⟩),
      (decide (kind = 0) && decide (imgTarget b ≠ 0), ⟨irHeader, 0x07⟩),
      (decide (kind = 1) && decide (slice ≠ some (imgTarget b)), ⟨irKind, 0x07⟩),
      (badImgLen (imgLen b) || decide (fetched ≠ none ∧ fetched ≠ some (imgLen b)), ⟨irHeader, 0x08⟩),
      (decide (imgSections b = 0) || decide (11 < imgSections b), ⟨irHeader, 0x0C⟩),
      (decide (3 < imgKeySlot b), ⟨irHeader, 0x0E⟩) ]

/-! ## Step 3 (R38, R39) -/

/-- The signature check over the whole image, whose last 256 bytes are the block. -/
def keyCheck (nv : Nv) (b : Bytes) (len slot : Nat) : Option Bad :=
  let sg := len - 256
  let x := leAt b (sg + 0x08) 48
  let y := leAt b (sg + 0x38) 48
  let r := leAt b (sg + 0x68) 48
  let z := leAt b (sg + 0x98) 48
  match Tbl.find? nv.keys slot with
  | none => some ⟨irKeyUnusable, 0x0E⟩
  | some h =>
    firstBad
      [ (bitAt nv.revoked slot, ⟨irKeyUnusable, 0x0E⟩),
        (decide (keyHash x y ≠ h), ⟨irKeyMismatch, sg + 0x08⟩),
        (decide (leAt b sg 4 ≠ 0x47495351), ⟨irSignature, sg⟩),
        (decide (byteAt b (sg + 4) ≠ slot), ⟨irSignature, sg + 4⟩),
        (!p384ValidKey x y, ⟨irSignature, sg + 0x08⟩),
        (decide (r = 0) || decide (p384N ≤ r), ⟨irSignature, sg + 0x68⟩),
        (decide (z = 0) || decide (p384N ≤ z), ⟨irSignature, sg + 0x98⟩),
        (!ecdsaVerify x y r z (b.take sg), ⟨irSignature, 0xFFFFFFFF⟩) ]

/-! ## Step 4 -/

def partCheck (nv : Nv) (density : Nat) (b : Bytes) : Option Bad :=
  firstBad
    [ (decide (leAt b 0x10 2 ≠ partNumber), ⟨irPart, 0x10⟩),
      (decide (stepping < byteAt b 0x12), ⟨irPart, 0x12⟩),
      (decide (byteAt b 0x13 % 4 ≠ density), ⟨irMemory, 0x13⟩),
      (decide (imgSecVersion b < nv.floor), ⟨irRollback, 0x14⟩) ]

/-! ## The section table (R25, R26) -/

structure Sec where
  at_ : Nat
  type : Nat
  off : Nat
  len : Nat
  count : Nat
deriving DecidableEq, Repr

/-- Record sizes of Table 2.3. -/
def recSize (t : Nat) : Option Nat :=
  match t with
  | 1 => some 16
  | 2 => some 16
  | 3 => some 8
  | 4 => some 32
  | 5 => some 8
  | 6 => some 8
  | 7 => some 16
  | 8 => some 4
  | 9 => some 256
  | 10 => some 16
  | 11 => some 32
  | _ => none

def secAt (b : Bytes) (a : Nat) : Sec :=
  { at_ := a, type := leAt b a 2, off := leAt b (a + 4) 4, len := leAt b (a + 8) 4, count := leAt b (a + 12) 4 }

def secsOf (b : Bytes) : List Sec := (List.range (imgSections b)).map (fun i => secAt b (0x80 + 16 * i))

/-- The offsets of a section's records. -/
def Sec.recs (x : Sec) : List Nat := (List.range x.count).map (fun i => x.off + i * (recSize x.type).getD 0)

/-- The records of a type; a type that an image lacks has none. A count beyond the most of Table 2.3 is judged first, so no
more than 4,096 are read. -/
def recsOf (b : Bytes) (t : Nat) : List Nat :=
  match (secsOf b).find? (fun x => x.type == t) with
  | some x => ({ x with count := min x.count 4097 }).recs
  | none => []

/-- Whether an image is WHOLE. -/
def isWhole (b : Bytes) : Bool := decide (byteAt b 0x06 = 0)

/-- The enabled slices that an image defines. -/
def enabledOf (b : Bytes) : List Nat :=
  ((recsOf b 1).filter (fun o => bitAt (byteAt b (o + 1)) 0)).map (fun o => byteAt b o)

/-- A SLICE image that disables its slice carries only the SLICE section. -/
def disables (b : Bytes) : Bool :=
  match recsOf b 1 with
  | [o] => !bitAt (byteAt b (o + 1)) 0
  | _ => false

/-- The types an image must carry, and no others. -/
def typesOf (b : Bytes) : List Nat :=
  if isWhole b then [1, 2, 3, 4, 5, 6, 7, 8, 9, 10, 11]
  else if disables b then [1]
  else [1, 2, 3, 4, 5, 6, 8, 10]

/-- DEDICATED[47:0] of a SLICE image's one BAY_GRANT record. -/
def grantedBays (b : Bytes) : Nat :=
  match recsOf b 2 with
  | [o] => leAt b (o + 8) 8 % 2 ^ 48
  | _ => 0

/-- Where a type's records carry their SLICE field. -/
def sliceFieldAt (t : Nat) : Nat := if t = 5 then 4 else 0

/-- How many records of a type an enabled slice has, between two counts. -/
def perSlice (b : Bytes) (t lo hi : Nat) (pkg : Bool) : Bool :=
  let names := ((recsOf b t).filter (fun o => !(pkg && bitAt (byteAt b (o + 1)) 0))).map
    (fun o => byteAt b (o + sliceFieldAt t))
  (enabledOf b).all (fun e =>
    decide (lo ≤ (names.filter (· == e)).length) && decide ((names.filter (· == e)).length ≤ hi))

/-- A count rule of R26, R34 or R36 that a section breaks. -/
def countBad (b : Bytes) (x : Sec) : Bool :=
  let n := (enabledOf b).length
  let c := x.count
  let pkgs := ((recsOf b 10).filter (fun o => bitAt (byteAt b (o + 1)) 0)).length
  if isWhole b then
    match x.type with
    | 1 => decide (c ≠ 256)
    | 2 => decide (c ≠ n) || !perSlice b 2 1 1 false
    | 3 => decide (c ≠ n) || !perSlice b 3 1 1 false
    | 4 => decide (4096 < c) || !perSlice b 4 0 64 false
    | 5 => decide (4096 < c) || !perSlice b 5 1 16 false
    | 6 => decide (c ≠ n) || !perSlice b 6 1 1 false
    | 7 => decide (c ≠ 8)
    | 8 => decide (c ≠ 48)
    | 10 => decide (c ≠ n + 1) || decide (pkgs ≠ 1) || !perSlice b 10 1 1 true
    | _ => decide (c ≠ 1)
  else
    match x.type with
    | 4 => decide (64 < c)
    | 5 => decide (c = 0) || decide (16 < c)
    | 8 => decide (c ≠ popCount 48 (grantedBays b))
    | 10 => decide (c ≠ 1) || decide (pkgs ≠ 0)
    | _ => decide (c ≠ 1)

/-- The checks of one entry behind the entries before it (R25, R411). -/
def entryCheck (b : Bytes) (before : List Sec) (x : Sec) : Option Bad :=
  let sg := imgLen b - 256
  firstBad
    [ ((recSize x.type).isNone || before.any (fun y => decide (x.type ≤ y.type)), ⟨irTable, x.at_⟩),
      (!(typesOf b).contains x.type, ⟨irPresence, x.at_⟩),
      (decide (x.off % 64 ≠ 0) || decide (x.off < 0x80 + 16 * imgSections b) || decide (sg < x.off)
        || before.any (fun y => overlap x.off x.len y.off y.len && decide (0 < x.len) && decide (0 < y.len)),
        ⟨irTable, x.at_ + 4⟩),
      (decide (sg < x.off + x.len) || decide (x.len ≠ x.count * (recSize x.type).getD 0), ⟨irTable, x.at_ + 8⟩),
      (countBad b x, ⟨irPresence, x.at_ + 0x0C⟩) ]

def entriesCheck (b : Bytes) : List Sec → List Sec → Option Bad
  | _, [] => none
  | before, x :: t =>
    match entryCheck b before x with
    | some e => some e
    | none => entriesCheck b (before ++ [x]) t

/-- Step 5. -/
def tableCheck (b : Bytes) : Option Bad :=
  match entriesCheck b [] (secsOf b) with
  | some e => some e
  | none =>
    if (typesOf b).all (fun t => (secsOf b).any (fun x => x.type == t)) then none else some ⟨irPresence, 0x0C⟩

/-! ## Step 6: every field -/

/-- A failed check of step 6 at an offset. -/
def rsv (bad : Bool) (off : Nat) : Bool × Bad := (bad, ⟨irReserved, off⟩)
def rng (bad : Bool) (off : Nat) : Bool × Bad := (bad, ⟨irRange, off⟩)
def ord (bad : Bool) (off : Nat) : Bool × Bad := (bad, ⟨irOrder, off⟩)

/-- Reserved bytes. -/
def rsvB (b : Bytes) (off n : Nat) : Bool × Bad := rsv (decide (leAt b off n ≠ 0)) off

/-- What the records before a record leave to its checks. -/
structure Before where
  index : Nat := 0
  slice : Nat := 0
  tva : Tbl Nat := []
  pasid : Tbl Nat := []
  share : Nat := 0
  bay : Option Nat := none

/-- The SLICE field of a record: an enabled slice, or the target, in ascending order. -/
def sliceChecks (b : Bytes) (p : Before) (at_ : Nat) : List (Bool × Bad) :=
  let s := byteAt b at_
  [ rng (!(enabledOf b).contains s || (!isWhole b && decide (s ≠ imgTarget b))) at_, ord (decide (s < p.slice)) at_ ]

/-- R27. -/
def sliceRec (b : Bytes) (p : Before) (o : Nat) : List (Bool × Bad) :=
  let on := bitAt (byteAt b (o + 1)) 0
  [ rng (!isWhole b && decide (byteAt b o ≠ imgTarget b)) o,
    ord (isWhole b && decide (byteAt b o ≠ p.index)) o,
    rsv (decide (8 ≤ byteAt b (o + 1))) (o + 1),
    rng (!on && decide (byteAt b (o + 1) ≠ 0)) (o + 1),
    rng (on == decide (byteAt b (o + 2) = 0)) (o + 2),
    rsvB b (o + 3) 1,
    rng (decide (1024 < leAt b (o + 4) 2) || (!on && decide (leAt b (o + 4) 2 ≠ 0))) (o + 4),
    rng (!on && decide (leAt b (o + 6) 2 ≠ 0)) (o + 6),
    rng (!on && decide (leAt b (o + 8) 4 ≠ 0)) (o + 8),
    rsvB b (o + 12) 4 ]

/-- R28. -/
def grantRec (b : Bytes) (p : Before) (o : Nat) : List (Bool × Bad) :=
  let w := leAt b (o + 2) 2
  let m := byteAt b (o + 4)
  let d := leAt b (o + 8) 8
  sliceChecks b p o ++
  [ rsvB b (o + 1) 1, rng (decide (48 < m) || (decide (m = 0) != decide (w = 0))) (o + 4), rsvB b (o + 5) 3,
    rsv (decide (2 ^ 48 ≤ d)) (o + 8), rng (decide (d = 0) && decide (w = 0)) (o + 8) ]

/-- R29. -/
def quotaRec (b : Bytes) (p : Before) (o : Nat) : List (Bool × Bad) :=
  let q := leAt b (o + 2) 2
  sliceChecks b p o ++
  [ rsvB b (o + 1) 1, rng (decide (q = 0) || decide (1536 < q)) (o + 2), rng (decide (q < leAt b (o + 4) 2)) (o + 4),
    rsvB b (o + 6) 2 ]

/-- R30. -/
def rangeRec (b : Bytes) (p : Before) (o : Nat) : List (Bool × Bad) :=
  let pol := byteAt b (o + 1)
  let die := byteAt b (o + 2)
  let acc := byteAt b (o + 3)
  let tva := leAt b (o + 8) 8
  let n := leAt b (o + 0x18) 4
  sliceChecks b p o ++
  [ rsv (decide (2 < pol)) (o + 1),
    rng (if pol = 1 then decide (7 < die) else decide (die ≠ 0)) (o + 2),
    rsv (decide (8 ≤ acc)) (o + 3), rng (decide (acc = 0)) (o + 3),
    rsvB b (o + 4) 4,
    rsv (decide (2 ^ 57 ≤ tva)) (o + 8), rng (decide (tva % 0x200000 ≠ 0)) (o + 8),
    ord (decide (tva < Tbl.get 0 p.tva (byteAt b o))) (o + 8),
    rsv (decide (2 ^ 44 ≤ leAt b (o + 0x10) 8)) (o + 0x10),
    rng (decide (n = 0) || decide (n % 512 ≠ 0) || decide (2 ^ 57 < tva + n * 4096)) (o + 0x18),
    rsvB b (o + 0x1C) 4 ]

/-- R31. -/
def pasidRec (b : Bytes) (p : Before) (o : Nat) : List (Bool × Bad) :=
  let v := leAt b o 4
  [ rsv (decide (2 ^ 20 ≤ v)) o, rng (decide (v % 2 ^ 20 = 0)) o,
    ord (decide (v % 2 ^ 20 < Tbl.get 0 p.pasid (byteAt b (o + 4)))) o ]
  ++ sliceChecks b p (o + 4) ++
  [ rsv (decide (4 ≤ byteAt b (o + 5))) (o + 5), rng (decide (byteAt b (o + 5) = 0)) (o + 5), rsvB b (o + 6) 2 ]

/-- R32. -/
def queueRec (b : Bytes) (p : Before) (o : Nat) : List (Bool × Bad) :=
  let out := fun off lo hi : Nat => rng (decide (byteAt b (o + off) < lo) || decide (hi < byteAt b (o + off))) (o + off)
  sliceChecks b p o ++ [out 1 1 16, out 2 1 16, out 3 6 16, rsvB b (o + 4) 4]

/-- R33. -/
def classRec (b : Bytes) (p : Before) (o : Nat) : List (Bool × Bad) :=
  let f := byteAt b (o + 1)
  let sh := leAt b (o + 2) 2
  [ rng (decide (7 < byteAt b o)) o, ord (decide (byteAt b o ≠ p.index)) o,
    rsv (decide (4 ≤ f)) (o + 1), rng (decide (f = 3)) (o + 1), rng (decide (1000 < p.share + sh)) (o + 2),
    rsvB b (o + 4) 12 ]

/-- R34. -/
def quarterRec (b : Bytes) (p : Before) (o : Nat) : List (Bool × Bad) :=
  let y := byteAt b o
  let late := match p.bay with
    | some z => decide (y ≤ z)
    | none => false
  [ rng (decide (47 < y) || (!isWhole b && !bitAt (grantedBays b) y)) o,
    ord (if isWhole b then decide (y ≠ p.index) else late) o,
    rsv (decide (1 < byteAt b (o + 1))) (o + 1), rsvB b (o + 2) 2 ]

/-- R35. -/
def routeRec (b : Bytes) (o : Nat) : List (Bool × Bad) :=
  (List.range 64).flatMap (fun i =>
    let v := leAt b (o + 2 * i) 2
    [ rsv (decide (8 ≤ v)) (o + 2 * i), rng (bitAt v 2 && decide (i / 8 / 4 = i % 8 / 4)) (o + 2 * i) ])
  ++ (List.range 112).map (fun i => rng (decide (byteAt b (o + 0x80 + i) = 0)) (o + 0x80 + i))
  ++ [rsvB b (o + 0xF0) 16]

/-- R36. -/
def maskRec (b : Bytes) (p : Before) (o : Nat) : List (Bool × Bad) :=
  let f := byteAt b (o + 1)
  let w := leAt b (o + 8) 4
  (if bitAt f 0 then [rng (decide (byteAt b o ≠ 0)) o] else sliceChecks b p o) ++
  [ rsv (decide (2 ≤ f)) (o + 1), ord (isWhole b && (bitAt f 0 != decide (p.index = 0))) (o + 1), rsvB b (o + 2) 2 ]
  ++ (if bitAt f 0 then
    [ rsv (decide (8 ≤ leAt b (o + 4) 4)) (o + 4), rsv (decide (2 ^ 16 ≤ w)) (o + 8),
      rng (decide (w % 256 = 0) || decide (w / 256 % 256 = 0)) (o + 8) ] else [])
  ++ [rsvB b (o + 12) 4]

/-- R37. -/
def budgetRec (b : Bytes) (o : Nat) : List (Bool × Bad) :=
  let out := fun off n lo hi : Nat => rng (decide (leAt b (o + off) n < lo) || decide (hi < leAt b (o + off) n)) (o + off)
  [out 0 2 1 50, out 2 1 1 24, out 3 1 1 4, out 4 2 1 50, out 6 2 1 50, out 8 2 0 500, rsvB b (o + 10) 22]

/-- The checks of one record. -/
def recChecks (b : Bytes) (t : Nat) (p : Before) (o : Nat) : List (Bool × Bad) :=
  match t with
  | 1 => sliceRec b p o
  | 2 => grantRec b p o
  | 3 => quotaRec b p o
  | 4 => rangeRec b p o
  | 5 => pasidRec b p o
  | 6 => queueRec b p o
  | 7 => classRec b p o
  | 8 => quarterRec b p o
  | 9 => routeRec b o
  | 10 => maskRec b p o
  | _ => budgetRec b o

/-- What a record leaves to the checks of the next. -/
def Before.after (p : Before) (b : Bytes) (t o : Nat) : Before :=
  let s := byteAt b (o + sliceFieldAt t)
  { index := p.index + 1
    slice := if t = 1 ∨ t = 7 ∨ t = 8 ∨ t = 9 ∨ t = 11 ∨ (t = 10 ∧ bitAt (byteAt b (o + 1)) 0 = true) then p.slice
      else max p.slice s
    tva := if t = 4 then Tbl.put p.tva s (leAt b (o + 8) 8) else p.tva
    pasid := if t = 5 then Tbl.put p.pasid s (leAt b o 4 % 2 ^ 20) else p.pasid
    share := if t = 7 then p.share + leAt b (o + 2) 2 else p.share
    bay := if t = 8 then some (byteAt b o) else p.bay }

def secChecks (b : Bytes) (t : Nat) : Before → List Nat → List (Bool × Bad)
  | _, [] => []
  | p, o :: r => recChecks b t p o ++ secChecks b t (p.after b t o) r

/-- The bytes from one offset to another are all padding: the first that is not zero. -/
def paddingCheck (b : Bytes) (lo hi : Nat) : List (Bool × Bad) :=
  match firstNonzero (bytesAt b lo (hi - lo)) lo with
  | some i => [rsv true i]
  | none => []

def insertSec (x : Sec) : List Sec → List Sec
  | [] => [x]
  | y :: t => if x.off < y.off then x :: y :: t else y :: insertSec x t

/-- The sections in the order in which they lie in the image. -/
def secsInOrder (b : Bytes) : List Sec := (secsOf b).foldl (fun l x => insertSec x l) []

/-- The gaps between header, table, sections and signature block. -/
def gaps (stop : Nat) : Nat → List Sec → List (Nat × Nat)
  | pos, [] => [(pos, stop)]
  | pos, x :: t => (pos, max pos x.off) :: gaps stop (max pos (x.off + x.len)) t

/-- Of the failed checks, the one that is judged first: by offset, and within a field reserved, range, order. -/
def leastBad : List (Bool × Bad) → Option Bad → Option Bad
  | [], best => best
  | (false, _) :: t, best => leastBad t best
  | (true, x) :: t, best =>
    match best with
    | none => leastBad t (some x)
    | some y => leastBad t (if x.off < y.off ∨ (x.off = y.off ∧ x.code < y.code) then some x else some y)

/-- Step 6. -/
def fieldCheck (b : Bytes) : Option Bad :=
  let sg := imgLen b - 256
  leastBad
    ([rsvB b 0x0F 1, rsv (decide (4 ≤ byteAt b 0x13)) 0x13, rsvB b 0x28 88]
      ++ (secsOf b).map (fun x => rsvB b (x.at_ + 2) 2)
      ++ (secsOf b).flatMap (fun x => secChecks b x.type {} x.recs)
      ++ (gaps sg (0x80 + 16 * imgSections b) (secsInOrder b)).flatMap (fun g => paddingCheck b g.1 g.2)
      ++ [rsvB b (sg + 5) 3, rsvB b (sg + 0xC8) 56]) none

/-! ## What an image defines -/

/-- The record of a type that names a slice. -/
def recFor (b : Bytes) (t slice : Nat) : Option Nat :=
  (recsOf b t).find? (fun o => byteAt b (o + sliceFieldAt t) == slice && !(t == 10 && bitAt (byteAt b (o + 1)) 0))

def recsFor (b : Bytes) (t slice : Nat) : List Nat :=
  (recsOf b t).filter (fun o => byteAt b (o + sliceFieldAt t) == slice)

def policyOf (n : Nat) : Policy := if n = 1 then .locale else if n = 2 then .paired else .spread

def rangeAt (b : Bytes) (o : Nat) : Range :=
  { policy := policyOf (byteAt b (o + 1)), homeDie := byteAt b (o + 2), access := byteAt b (o + 3)
    tva := leAt b (o + 8) 8, dpa := leAt b (o + 0x10) 8, courses := leAt b (o + 0x18) 4 }

def pasidAt (b : Bytes) (o : Nat) : Pasid := { pasid := leAt b o 4 % 2 ^ 20, ports := byteAt b (o + 5) % 4 }

/-- The definition that an image gives a slice. -/
def defOf (b : Bytes) (slice : Nat) : SliceDef :=
  let at1 := (recFor b 1 slice).getD 0
  let fld := fun t off n : Nat => match recFor b t slice with
    | some o => leAt b (o + off) n
    | none => 0
  if (recFor b 1 slice).isSome && bitAt (byteAt b (at1 + 1)) 0 then
    { enabled := true, rarFault := bitAt (byteAt b (at1 + 1)) 1, tenantFlip := bitAt (byteAt b (at1 + 1)) 2
      classMask := fld 1 2 1, tableHandles := fld 1 4 2, payloadBuffers := fld 1 6 2
      ownerTag := BitVec.ofNat 32 (fld 1 8 4), poolWeight := fld 2 2 2, poolMax := fld 2 4 1
      dedicated := fld 2 8 8 % 2 ^ 48, quotaMib := fld 3 2 2, floorMib := fld 3 4 2
      ranges := (recsFor b 4 slice).map (rangeAt b), pasids := (recsFor b 5 slice).map (pasidAt b)
      sqCount := fld 6 1 1, cqCount := fld 6 2 1, maxDepth := fld 6 3 1, escalate := fld 10 4 4, quiesce := fld 10 8 4
      applySerial := BitVec.ofNat 64 (imgSerial b) }
  else { applySerial := BitVec.ofNat 64 (imgSerial b) }

/-- The modes of its SLAB_QUARTER records, as a mask. -/
def quartersOf (b : Bytes) : Nat :=
  (recsOf b 8).foldl (fun m o => setBit m (byteAt b o) (decide (byteAt b (o + 1) = 1))) 0

def classAt (b : Bytes) (o : Nat) : PrioClass :=
  { preempts := bitAt (byteAt b (o + 1)) 0, background := bitAt (byteAt b (o + 1)) 1, share := leAt b (o + 2) 2 }

/-- The package-wide matter of a WHOLE image. -/
def wholeOf (b : Bytes) (loadedFrom : Nat) : WholeCfg :=
  let one := fun t off n : Nat => match recsOf b t with
    | o :: _ => leAt b (o + off) n
    | [] => 0
  let ro := match recsOf b 9 with
    | o :: _ => o
    | [] => 0
  { serial := BitVec.ofNat 64 (imgSerial b), secVersion := BitVec.ofNat 32 (imgSecVersion b), loadedFrom := loadedFrom
    classes := (recsOf b 7).map (classAt b), quartered := quartersOf b
    routes := (List.range 64).map (fun i => leAt b (ro + 2 * i) 2)
    weights := (List.range 112).map (fun i => byteAt b (ro + 0x80 + i))
    errMaskInit := one 10 4 4, bucketThreshold := one 10 8 1, bucketLeak := one 10 9 1
    scrubDram := one 11 0 2, scrubPassH := one 11 2 1, retrainMax := one 11 3 1, scrubCache := one 11 4 2
    scrubLs := one 11 6 2, stream := one 11 8 2
    slices := (List.range 256).filterMap (fun i =>
      let d := defOf b i
      if d = {} then none else some (i, d)) }

/-! ## Steps 7 and 8: records against each other and against other slices -/

/-- What the other slices and the earlier records hold. -/
structure Held where
  bays : Nat := 0
  floors : Nat := 0
  dpas : List (Nat × Nat) := []
  tvas : Tbl Nat := []
  pasids : List Nat := []

/-- The enabled slices of the running configuration, but for one. -/
def heldBy (defs : List (Nat × SliceDef)) (butNot : Nat) : Held :=
  let ds := (defs.filter (fun e => decide (e.1 ≠ butNot) && e.2.enabled)).map (·.2)
  { bays := ds.foldl (fun n d => n ||| d.dedicated) 0, floors := (ds.map (·.floorMib)).foldl (· + ·) 0
    dpas := ds.flatMap (fun d => d.ranges.map (fun r => (r.dpa, r.courses * 4096)))
    pasids := ds.flatMap (fun d => d.pasids.map (·.pasid)) }

/-- The DPA range of a record is aligned and lies in its window below the usable capacity (R30, R189). -/
def inWindow (density : Nat) (r : Range) : Bool :=
  let w := window density r.policy r.homeDie
  decide (r.dpa % 0x200000 = 0) && decide (w.1 ≤ r.dpa) && decide (r.dpa + r.courses * 4096 ≤ w.1 + w.2)

/-- The checks of steps 7 and 8 on one record; `busy` judges the target's busy resources (step 8). -/
def conflict (density : Nat) (b : Bytes) (h : Held) (busy : Nat → Nat → Option Bad) (t o : Nat) : Option Bad :=
  let own := match t with
    | 2 => firstBad [(decide ((leAt b (o + 8) 8 &&& h.bays) ≠ 0), ⟨irBayConflict, o + 8⟩)]
    | 3 => firstBad [(decide (1536 < h.floors + leAt b (o + 4) 2), ⟨irFloor, o + 4⟩)]
    | 4 =>
      let r := rangeAt b o
      firstBad
        [ (!inWindow density r, ⟨irWindow, o + 0x10⟩),
          (decide (r.tva < Tbl.get 0 h.tvas (byteAt b o)), ⟨irOverlap, o + 8⟩),
          (h.dpas.any (fun e => overlap r.dpa (r.courses * 4096) e.1 e.2), ⟨irOverlap, o + 0x10⟩) ]
    | 5 => firstBad [(h.pasids.contains (pasidAt b o).pasid, ⟨irPasid, o⟩)]
    | _ => none
  match own with
  | some e => some e
  | none => busy t o

/-- What a record adds to what is held. -/
def Held.add (h : Held) (b : Bytes) (t o : Nat) : Held :=
  match t with
  | 2 => { h with bays := h.bays ||| leAt b (o + 8) 8 }
  | 3 => { h with floors := h.floors + leAt b (o + 4) 2 }
  | 4 =>
    let r := rangeAt b o
    { h with dpas := (r.dpa, r.courses * 4096) :: h.dpas, tvas := Tbl.put h.tvas (byteAt b o) (r.tva + r.courses * 4096) }
  | 5 => { h with pasids := (pasidAt b o).pasid :: h.pasids }
  | _ => h

def conflicts (density : Nat) (b : Bytes) (busy : Nat → Nat → Option Bad) : Held → List (Nat × Nat) → Option Bad
  | _, [] => none
  | h, (t, o) :: r =>
    match conflict density b h busy t o with
    | some e => some e
    | none => conflicts density b busy (h.add b t o) r

/-- The records of an image in offset order, with their types. -/
def allRecs (b : Bytes) : List (Nat × Nat) := (secsInOrder b).flatMap (fun x => x.recs.map (fun o => (x.type, o)))

/-- Steps 2 to 6 (R48, R411). -/
def imageCheck (nv : Nv) (density : Nat) (b : Bytes) (slice fetched : Option Nat) : Option Bad :=
  match headerCheck b slice fetched with
  | some e => some e
  | none => match keyCheck nv b (imgLen b) (imgKeySlot b) with
    | some e => some e
    | none => match partCheck nv density b with
      | some e => some e
      | none => match tableCheck b with
        | some e => some e
        | none => fieldCheck b

/-- Steps 2 to 7 of a WHOLE image. -/
def wholeCheck (nv : Nv) (density : Nat) (b : Bytes) (fetched : Option Nat) : Option Bad :=
  match imageCheck nv density b none fetched with
  | some e => some e
  | none => conflicts density b (fun _ _ => none) {} (allRecs b)

/-! ## Firmware (R67, R69) -/

def badFwLen (n : Nat) : Bool := decide (n < 0x140) || decide (0x800000 < n) || decide (n % 64 ≠ 0)

def fwVersionOf (b : Bytes) : Nat := leAt b 0x18 8

/-- Firmware validation; its RESULT carries no offset. -/
def firmwareCheck (nv : Nv) (b : Bytes) (fetched : Option Nat) : Option Bad :=
  let len := imgLen b
  let sg := len - 256
  match firstBad
    [ (decide (leAt b 0 4 ≠ 0x4D574651), ⟨irHeader, 0x00⟩),
      (decide (leAt b 4 2 ≠ 1), ⟨irHeader, 0x04⟩),
      (badFwLen len || decide (fetched ≠ none ∧ fetched ≠ some len), ⟨irHeader, 0x08⟩),
      (decide (3 < byteAt b 0x0C), ⟨irHeader, 0x0C⟩) ] with
  | some e => some e
  | none => match keyCheck nv b len (byteAt b 0x0C) with
    | some e => some e
    | none => firstBad
      [ (decide (leAt b 0x0E 2 ≠ partNumber), ⟨irPart, 0x0E⟩),
        (decide (leAt b 0x10 4 < nv.floor), ⟨irRollback, 0x10⟩),
        rsvB b 0x06 2, rsvB b 0x0D 1, rsvB b 0x14 4, rsvB b 0x20 32, rsvB b (sg + 5) 3, rsvB b (sg + 0xC8) 56 ]

end Sys2Proof.Machine
end

