-- ==== Sys2Proof/Machine/Operands.lean ====
section
/-! DEFINITION. The operand forms: the command descriptor (spec/04 R95), outputs, completion records (R104, R105) and
fault records (spec/13 R311). -/

namespace Sys2Proof.Machine

/-! ## The command descriptor (Table 4.2) -/

def dOpcode (d : Bytes) : Nat := byteAt d 0x00
def dFlags (d : Bytes) : Nat := byteAt d 0x01
def dExpire (d : Bytes) : Bool := bitAt (dFlags d) 0
def dOrdered (d : Bytes) : Bool := bitAt (dFlags d) 1
def dNotify (d : Bytes) : Bool := bitAt (dFlags d) 2
def dClass (d : Bytes) : Nat := byteAt d 0x02 % 8
def dCq (d : Bytes) : Nat := byteAt d 0x03 % 16
def dSeq (d : Bytes) : Nat := leAt d 0x04 4
def dDeadline (d : Bytes) : Nat := leAt d 0x08 8
def dTag (d : Bytes) : Nat := leAt d 0x10 8
def dHandleList (d : Bytes) : Nat := leAt d 0x18 8
def dHandleCount (d : Bytes) : Nat := leAt d 0x20 2
def dOutSlots (d : Bytes) : Nat := leAt d 0x22 2
def dOutCount (d : Bytes) : Nat := byteAt d 0x24

/-- An ARGS field of `n` bytes at ARGS offset `off`. -/
def dArg (d : Bytes) (off n : Nat) : Nat := leAt d (0x28 + off) n

/-- No deadline (Table 4.2). -/
def noDeadline : Nat := 2 ^ 64 - 1

/-- An output entry, or the source of a COPY (Tables 4.3 and 4.5). -/
structure Target where
  addr : Nat
  len : Nat
  pasid : Nat
  host : Bool
deriving DecidableEq, Repr

/-- The target of an ADDR and an ATTR field. -/
def targetOf (addr attr : Nat) : Target :=
  { addr := addr, len := attr % 2 ^ 37, pasid := bitsOf attr 59 40, host := bitAt attr 63 }

/-- OUT[i] of a descriptor. -/
def dOut (d : Bytes) (i : Nat) : Target := targetOf (leAt d (0x40 + 16 * i) 8) (leAt d (0x48 + 16 * i) 8)

/-- The outputs in force. -/
def dOuts (d : Bytes) : List Target := (List.range (dOutCount d)).map (dOut d)

/-- The SWELD_STREAM opcode, whose block's OP tells SEND from EXPECT. -/
def opNop : Nat := 0x00
def opCopy : Nat := 0x01
def opLaunch : Nat := 0x02
def opSlab : Nat := 0x03
def opGather : Nat := 0x04
def opSelect : Nat := 0x05
def opRelease : Nat := 0x06
def opFlush : Nat := 0x07
def opHandleSet : Nat := 0x08
def opEpochFlip : Nat := 0x09
def opSweld : Nat := 0x0A

/-! ## Outcomes (Table 4.8) -/

def ocDone : Nat := 0x00
def ocPartial : Nat := 0x01
def ocNotStarted : Nat := 0x02
def ocExpired : Nat := 0x03
def ocRejected : Nat := 0x04
def ocNofit : Nat := 0x05
def ocDuplicate : Nat := 0x06
def ocAborted : Nat := 0x07

/-- DETAIL codes of REJECTED. -/
def rjReserved : Nat := 1
def rjOpcode : Nat := 2
def rjClass : Nat := 3
def rjRange : Nat := 4
def rjAddress : Nat := 5
def rjPasid : Nat := 6
def rjHandle : Nat := 7
def rjPermit : Nat := 8
def rjEpochBusy : Nat := 9
def rjHandleBusy : Nat := 10
def rjArgs : Nat := 11

/-! ## Completion records (Tables 4.6, 4.7) -/

/-- A committed extent (Table 4.7). -/
def extentWord (out first lines : Nat) : Nat := out + field 4 first + field 34 lines

/-- The runs of consecutive numbers of an ascending list: first and length. -/
def runsOf : List Nat → List (Nat × Nat)
  | [] => []
  | x :: t =>
    match runsOf t with
    | (f, n) :: r => if f = x + 1 then (x, n + 1) :: r else (x, 1) :: (f, n) :: r
    | [] => [(x, 1)]

/-- The extents of one output's committed lines, given in ascending order. -/
def extentsOf (out : Nat) (lines : List Nat) : List Nat := (runsOf lines).map (fun r => extentWord out r.1 r.2)

/-- What a record reports of committed work. -/
inductive Commit where
  | nothing
  | extents (words : List Nat)
  | bitmap (slots : List Nat)
deriving DecidableEq, Repr

/-- KIND codes of FLAGS [3:2]. -/
def kindCommand : Nat := 0
def kindRetired : Nat := 1
def kindArrival : Nat := 2

/-- A completion record with PHASE clear (Table 4.6); the lowest eight extents are listed (R105). -/
def completionRecord (tag seq outcome kind sq detail detailArg timeDispatch timeDone result : Nat) (c : Commit) :
    Bytes :=
  let bitmap := match c with
    | .bitmap _ => 1
    | _ => 0
  let ext := match c with
    | .extents ws => ws.take 8
    | _ => []
  let tail := match c with
    | .nothing => List.replicate 64 (0 : Byte)
    | .extents _ => bytesAt (ext.flatMap (leBytes 8)) 0 64
    | .bitmap slots => leBytes 64 (slots.foldl (fun n i => setBit n i true) 0)
  leBytes 8 tag ++ leBytes 4 seq ++ leBytes 1 outcome ++ leBytes 1 (field 1 bitmap + field 2 kind) ++ leBytes 1 sq
    ++ leBytes 1 ext.length ++ leBytes 2 detail ++ leBytes 2 0 ++ leBytes 4 detailArg ++ leBytes 8 timeDispatch
    ++ leBytes 8 timeDone ++ leBytes 8 result ++ List.replicate 16 (0 : Byte) ++ tail

/-! ## Fault codes (Table 13.2) -/

/-- The class of a code: 0 C, 1 U, 2 F, 3 INFO. -/
def faultClass (code : Nat) : Nat :=
  if code = 0x0A01 then 3
  else if 0x1001 ≤ code ∧ code ≤ 0x100C then 0
  else if 0x1201 ≤ code ∧ code ≤ 0x1202 then 2
  else 1

/-- Whether a code has a tenant copy: groups 0x00 to 0x0A. -/
def tenantCopy (code : Nat) : Bool := decide (code < 0x1000)

/-- The fault group of a code (R304). -/
def faultGroup (code : Nat) : Nat := code / 256

def fcBadCq : Nat := 0x0001
def fcDoubleFree : Nat := 0x0101
def fcForeignFree : Nat := 0x0102
def fcTranslation : Nat := 0x0201
def fcExec : Nat := 0x0202
def fcMaskOverflow : Nat := 0x0301
def fcScratchRange : Nat := 0x0302
def fcBadAttribute : Nat := 0x0303
def fcAtomicSpace : Nat := 0x0304
def fcHodIndex : Nat := 0x0401
def fcHodOffsets : Nat := 0x0402
def fcRar : Nat := 0x0501
def fcUncorrectable : Nat := 0x0601
def fcPoisonWrite : Nat := 0x0602
def fcPoisoned : Nat := 0x0701
def fcArrayUnc : Nat := 0x0801
def fcHostAccess : Nat := 0x0901
def fcResetDone : Nat := 0x0A01
def fcDramCorrected : Nat := 0x1001
def fcCacheCorrected : Nat := 0x1002
def fcArrayCorrected : Nat := 0x1003
def fcLinkCorrected : Nat := 0x1004
def fcLinkSpared : Nat := 0x1005
def fcPinKill : Nat := 0x1006
def fcDescMismatch : Nat := 0x1007
def fcStateSplit : Nat := 0x1008
def fcRepairFull : Nat := 0x1009
def fcRepairBad : Nat := 0x100A
def fcBucket : Nat := 0x100B
def fcFailover : Nat := 0x100C
def fcReporterPath : Nat := 0x1101
def fcChannelDown : Nat := 0x1102
def fcBridgeDegraded : Nat := 0x1103
def fcUnitFailed : Nat := 0x1104
def fcMalformed : Nat := 0x1105
def fcDescBad : Nat := 0x1106
def fcDieStop : Nat := 0x1201
def fcPackageStop : Nat := 0x1202

/-- The 64 bytes of a fault record with PHASE clear (Table 13.5). -/
def FaultRec.bytes (r : FaultRec) : Bytes :=
  let flags := field 1 (ofBool r.slice.isSome) + field 2 (ofBool r.cmd.isSome) + field 3 (ofBool r.addr.isSome)
    + field 4 (ofBool r.addrTva) + field 5 (ofBool r.tqDropped) + field 6 (ofBool r.lost)
  let (tag, seq, sq) : Nat × Nat × Nat := match r.cmd with
    | some (t, q, n) => (t.toNat, q.toNat, n)
    | none => (0, 0, 0)
  leBytes 8 r.time ++ leBytes 2 r.code ++ leBytes 1 (faultClass r.code) ++ leBytes 1 flags ++ leBytes 1 r.action
    ++ leBytes 1 (r.slice.getD 0) ++ leBytes 2 r.unit ++ leBytes 4 r.seq.toNat ++ leBytes 4 r.sliceSeq.toNat
    ++ leBytes 8 (r.addr.getD 0) ++ leBytes 8 tag ++ leBytes 4 seq ++ leBytes 1 sq ++ leBytes 1 0
    ++ leBytes 2 (min 65535 r.count) ++ leBytes 8 r.info0.toNat ++ leBytes 8 r.info1.toNat

/-- The tenant's copy of a record (R312): no SEQ, no UNIT, the line's TVA or no address. -/
def FaultRec.tenantBytes (r : FaultRec) : Bytes :=
  FaultRec.bytes { r with seq := 0, unit := 0, addr := r.tva, addrTva := r.tva.isSome, tqDropped := false }

/-- ACTION bits (Table 13.5). -/
def actCorrected : Nat := 1
def actStopped : Nat := 2
def actRefused : Nat := 4
def actReset : Nat := 8
def actQuiesced : Nat := 16
def actOffline : Nat := 32
def actDieStop : Nat := 64
def actPackageStop : Nat := 128

end Sys2Proof.Machine
end

