-- ==== Sys2Proof/Machine/Ops.lean ====
section
/-! DEFINITION. The named operations over the state's tables: units, host memory, rings (spec/04 R92, R93), counters
(spec/14 R348, R349) and the dirty-course log (spec/15 R362 to R364). -/

namespace Sys2Proof.Machine

/-! ## Tables of the state -/

def State.slice (s : State) (i : Nat) : Slice := Tbl.get {} s.slices i
def State.setSlice (s : State) (i : Nat) (v : Slice) : State := { s with slices := Tbl.set {} s.slices i v }
def State.updSlice (s : State) (i : Nat) (f : Slice → Slice) : State := s.setSlice i (f (s.slice i))

def State.cmd (s : State) (i : Nat) : Cmd := Tbl.get {} s.cmds i
def State.setCmd (s : State) (i : Nat) (v : Cmd) : State := { s with cmds := Tbl.set {} s.cmds i v }
def State.updCmd (s : State) (i : Nat) (f : Cmd → Cmd) : State := s.setCmd i (f (s.cmd i))
def State.hasCmd (s : State) (i : Nat) : Bool := (Tbl.find? s.cmds i).isSome

def State.bay (s : State) (i : Nat) : Bay := Tbl.get {} s.bays i
def State.setBay (s : State) (i : Nat) (v : Bay) : State := { s with bays := Tbl.set {} s.bays i v }
def State.updBay (s : State) (i : Nat) (f : Bay → Bay) : State := s.setBay i (f (s.bay i))

def State.gang (s : State) (i : Nat) : Gang := Tbl.get {} s.gangs i
def State.setGang (s : State) (i : Nat) (v : Gang) : State := { s with gangs := Tbl.put s.gangs i v }
def State.updGang (s : State) (i : Nat) (f : Gang → Gang) : State := s.setGang i (f (s.gang i))
def State.hasGang (s : State) (i : Nat) : Bool := (Tbl.find? s.gangs i).isSome
def State.dropGang (s : State) (i : Nat) : State := { s with gangs := Tbl.del s.gangs i }

def State.setReq (s : State) (i : Nat) (v : Req) : State := { s with reqs := Tbl.put s.reqs i v }
def State.dropReq (s : State) (i : Nat) : State := { s with reqs := Tbl.del s.reqs i }

def State.chan (s : State) (i : Nat) : Chan := Tbl.get {} s.mem.chans i
def State.setChan (s : State) (i : Nat) (v : Chan) : State :=
  { s with mem := { s.mem with chans := Tbl.set {} s.mem.chans i v } }
def State.updChan (s : State) (i : Nat) (f : Chan → Chan) : State := s.setChan i (f (s.chan i))

def State.port (s : State) (i : Nat) : Port := Tbl.get {} s.sweld.ports i
def State.setPort (s : State) (i : Nat) (v : Port) : State :=
  { s with sweld := { s.sweld with ports := Tbl.set {} s.sweld.ports i v } }
def State.updPort (s : State) (i : Nat) (f : Port → Port) : State := s.setPort i (f (s.port i))

/-- A bridge's register at reset (Table 10.10). -/
def bridgeReset (b : Nat) : Bridge :=
  { linksGood := if b ≤ 9 then 80 else 20, spares := if b ≤ 9 then 4 else 1 }

def State.bridge (s : State) (b : Nat) : Bridge := Tbl.get (bridgeReset b) s.fab.bridges b
def State.updBridge (s : State) (b : Nat) (f : Bridge → Bridge) : State :=
  { s with fab := { s.fab with bridges := Tbl.set (bridgeReset b) s.fab.bridges b (f (s.bridge b)) } }

def State.reporter (s : State) (u : Nat) : Reporter := Tbl.get {} s.flt.reporters u
def State.updReporter (s : State) (u : Nat) (f : Reporter → Reporter) : State :=
  { s with flt := { s.flt with reporters := Tbl.set {} s.flt.reporters u (f (s.reporter u)) } }

def State.buffer (s : State) (i : Nat) : Buffer := Tbl.get {} s.pool i
def State.setBuffer (s : State) (i : Nat) (v : Buffer) : State := { s with pool := Tbl.set {} s.pool i v }

def State.way (s : State) (i : Nat) : Way := Tbl.get {} s.uc.ways i
def State.setWay (s : State) (i : Nat) (v : Way) : State :=
  { s with uc := { s.uc with ways := Tbl.set {} s.uc.ways i v } }

def Slice.sq (v : Slice) (q : Nat) : Sq := Tbl.get {} v.sqs q
def Slice.setSq (v : Slice) (q : Nat) (x : Sq) : Slice := { v with sqs := Tbl.set {} v.sqs q x }
def Slice.cq (v : Slice) (q : Nat) : Ring := Tbl.get {} v.cqs q
def Slice.setCq (v : Slice) (q : Nat) (x : Ring) : Slice := { v with cqs := Tbl.set {} v.cqs q x }
def Slice.handle (v : Slice) (h : Nat) : Handle := Tbl.get {} v.handles h
def Slice.setHandle (v : Slice) (h : Nat) (x : Handle) : Slice := { v with handles := Tbl.set {} v.handles h x }

def State.updSq (s : State) (i q : Nat) (f : Sq → Sq) : State :=
  s.updSlice i (fun v => v.setSq q (f (v.sq q)))
def State.updCq (s : State) (i q : Nat) (f : Ring → Ring) : State :=
  s.updSlice i (fun v => v.setCq q (f (v.cq q)))
def State.updHandle (s : State) (i h : Nat) (f : Handle → Handle) : State :=
  s.updSlice i (fun v => v.setHandle h (f (v.handle h)))

/-- The TIME-independent memory density code (R22). -/
def State.density (s : State) : Nat := s.dev.memDensity

/-- Draws a free byte (notes/assumptions/2.md). -/
def State.drawByte (s : State) : Byte × State := (Config.freeByte s.free, { s with free := s.free + 1 })

/-- Draws a free choice below `n`, 0 where `n` is 0. -/
def State.drawChoice (s : State) (n : Nat) : Nat × State :=
  (Config.freeChoice s.free % n, { s with free := s.free + 1 })

/-- The device runs: it is powered and THERMTRIP has not stopped its clocks (R377, R389). -/
def State.powered (s : State) : Bool := s.pins.pwrGood && !s.plb.thermtrip

/-- The device serves tenants (R70). -/
def State.ready (s : State) : Bool := s.powered && decide (s.dev.state = .ready)

/-- The writes that act in FAILED and FATAL as in READY: CFG_RESET_CTL, FLT_ACK, FLT_ERR_MASK and the FLT_RING registers
(R402); after THERMTRIP too, since the registers run on SCLK, which it does not stop (R389). -/
def State.stopRegs (s : State) : Bool :=
  s.ready || (s.pins.pwrGood && (decide (s.dev.state = .failed) || decide (s.dev.state = .fatal)))

/-! ## Units (R78, R86) -/

def State.dieState (s : State) (d : Nat) : UnitState := Tbl.get .up s.dev.dies d

/-- The data-path state of a unit of Table 3.6; quoin engines are up. -/
def State.unitState (s : State) (u : Nat) : UnitState :=
  match unitKind u with
  | .bay b => (s.bay b).unit
  | .chan c => (s.chan c).unit
  | .port p => (s.port p).unit
  | _ => .up

/-- A unit's epoch (R78); units of the package domain have epoch zero. -/
def State.unitEpoch (s : State) (u : Nat) : BitVec 16 :=
  match unitKind u with
  | .bay b => (s.bay b).epoch
  | .chan c => (s.chan c).epoch
  | .port p => (s.port p).epoch
  | _ => 0

/-- From now on a channel's scrub time does not count; and counts again (R338). -/
def Chan.pauseScrub (v : Chan) (now : Nat) : Chan :=
  if v.scrubPaused.isSome then v else { v with scrubPaused := some now }

def Chan.goOnScrub (v : Chan) (now : Nat) : Chan :=
  match v.scrubPaused with
  | some t => if v.unit = .up ∧ !v.repacking then { v with scrubPaused := none, scrubStart := v.scrubStart + (now - t) }
    else v
  | none => v

/-- Sets a unit's data-path state. -/
def State.setUnitState (s : State) (u : Nat) (x : UnitState) : State :=
  match unitKind u with
  | .bay b => s.updBay b (fun v => { v with unit := x })
  | .chan c => s.updChan c (fun v =>
    if x = .up then ({ v with unit := x }).goOnScrub s.dev.ticks
    else { v.pauseScrub s.dev.ticks with
      unit := x, retraining := false, deferred := false, notice := false, queued := [] })
  | .port p => s.updPort p (fun v => { v with unit := x })
  | _ => s

/-- Advances a unit's epoch by one, modulo 65,536 (R78). -/
def State.bumpEpoch (s : State) (u : Nat) : State :=
  match unitKind u with
  | .bay b => s.updBay b (fun v => { v with epoch := v.epoch + 1 })
  | .chan c => s.updChan c (fun v => { v with epoch := v.epoch + 1 })
  | .port p => s.updPort p (fun v => { v with epoch := v.epoch + 1 })
  | _ => s

/-- A bay or port that may serve work: data state UP and management state ON (R288). -/
def State.bayUsable (s : State) (b : Nat) : Bool :=
  decide ((s.bay b).unit = .up) && decide ((s.bay b).mgmt = .on)

/-! ## Signals to the Plinth controller (R287, R377) -/

/-- Draws whether an in-band interrupt was acknowledged: no row says so (notes/assumptions/2.md). -/
def State.drawAck (s : State) : Bool × State :=
  (decide (Config.freeChoice s.free % 2 = 1), { s with free := s.free + 1 })

/-- An event that the plumb controller signals: an in-band interrupt; SMB_ALERT_N while it has no address on I3C, and from
the third interrupt in a row that went unacknowledged (R377). -/
def State.signal (s : State) : State :=
  if s.plb.i3cAddr.isSome ∧ s.plb.ibiMissed < 3 then
    let (ack, s) := s.drawAck
    let n := if ack then 0 else s.plb.ibiMissed + 1
    { s with plb := { s.plb with ibiSent := s.plb.ibiSent + 1, ibiMissed := n, smbAlert := s.plb.smbAlert || decide (n = 3) } }
  else { s with plb := { s.plb with smbAlert := true } }

/-- The device changes state. -/
def State.enterState (s : State) (x : DevState) : State :=
  if s.dev.state = x then s else { s with dev := { s.dev with state := x } }.signal

/-! ## Bays and their holders (R28, R116) -/

/-- The slice to which a bay is dedicated. -/
def State.dedicatedTo (s : State) (b : Nat) : Option Nat :=
  (List.find? (fun e : Nat × Slice => bitAt e.2.defn.dedicated b) s.slices).map (·.1)

/-- The slice that holds a bay: its dedicated slice, or the slice whose work is granted on a pool bay. -/
def State.bayHolder (s : State) (b : Nat) : Option Nat :=
  match s.dedicatedTo b with
  | some i => some i
  | none => (s.bay b).holder

/-- No work is left on any engine of the bay (R116). -/
def Bay.idle (v : Bay) : Bool :=
  v.cores.isEmpty && v.arrays.all (fun e => e.2.cmd.isNone) && v.hod.isNone && v.riddle.isNone

/-- A bay's whole content zeroed: registers, local store, read-only caches and the state of its engines (R132, R157,
R183, Table 3.5). -/
def Bay.zeroed (v : Bay) : Bay :=
  { v with cores := [], arrays := [], hod := none, hodPayload := false, riddle := none, l1 := [], scratch := []
           icache := [], ccache := [], dcache := [], split := 0 }

/-- A drained bay is zeroed and powered off (R289): management shows OFF and data DOWN. -/
def State.cutBay (s : State) (b : Nat) : State :=
  let s := s.bumpEpoch (unitBay b)
  let s := s.updBay b (fun v => { v.zeroed with
    holder := none, unit := .down, mgmt := .off, zeroings := satAdd 24 v.zeroings 1 })
  { s with plb := { s.plb with unitDone := true } }

/-- A pool bay that holds no work is unheld (R116); one that drains for POWER_OFF is powered off. -/
def State.unholdBay (s : State) (b : Nat) : State :=
  if (s.bay b).idle then
    let s := s.updBay b (fun v => { v with holder := none })
    if (s.bay b).mgmt = .draining ∧ (s.bay b).unit = .up then s.cutBay b else s
  else s

/-- Draws a RESULT that the spec does not state (notes/assumptions/2.md). -/
def State.drawResult (s : State) : Nat × State :=
  ((Config.freeResult s.free).toNat, { s with free := s.free + 1 })

/-! ## Counters (spec/14) -/

/-- Adds to slice counter i (Table 14.6); it wraps at 2^64 and then sets its OVF bit (R347). -/
def State.count (s : State) (slice i n : Nat) : State :=
  s.updSlice slice (fun v =>
    let x := Tbl.get 0 v.counters i + n
    { v with
      counters := Tbl.set 0 v.counters i (x % 2 ^ 64)
      ovf := if x < 2 ^ 64 then v.ovf else setBit v.ovf i true })

/-- Whether an event of Table 14.7 may be counted for one slice. -/
def sliceable (event : Nat) : Bool :=
  [0x02, 0x03, 0x10, 0x11, 0x12, 0x13, 0x20, 0x21, 0x22, 0x23, 0x30, 0x31, 0x50, 0x51].contains event

/-- Events whose UNIT is ignored (Table 14.7). -/
def unitless (event : Nat) : Bool := [0x01, 0x02, 0x03].contains event

/-- A selector counts an event of a unit for a slice (R349). -/
def selects (sel : Nat) (event : Nat) (unit : Nat) (slice : Option Nat) : Bool :=
  decide (sel % 256 = event) && decide (event ≠ 0)
    && (unitless event || decide (bitsOf sel 19 8 = unit) || decide (bitsOf sel 19 8 = 0xFFF))
    && (!bitAt sel 28 || (sliceable event && decide (slice = some (bitsOf sel 27 20))))

/-- Adds n to one programmable counter; it wraps at 2^64 and sets its sticky bit (R352). -/
def Counter.add (c : Counter) (n : Nat) : Counter :=
  { c with value := c.value + BitVec.ofNat 64 n, ovf := c.ovf || decide (2 ^ 64 ≤ c.value.toNat + n) }

/-- Counts an event in every programmable counter that selects it (R349, R350). -/
def State.event (s : State) (event unit : Nat) (slice : Option Nat) (n : Nat) : State :=
  { s with tel := { s.tel with
      counters := Tbl.mapVals s.tel.counters (fun _ c =>
        if selects c.sel.toNat event unit slice then c.add n else c) } }

/-! ## Host memory -/

def State.linkUp (s : State) (port : Bool) : Bool := if port then s.dev.linkUp1 else s.dev.linkUp0

/-- The key of a host byte: the address space of the PASID, or of no PASID, and the address. -/
def hostKey (sp : Option (BitVec 20)) (addr : Nat) : Nat :=
  (match sp with
   | none => 0
   | some p => p.toNat + 1) * 2 ^ 64 + addr % 2 ^ 64

/-- Writes bytes to a table of bytes from a key upward. -/
def putAll (t : Tbl Byte) (key : Nat) : Bytes → Tbl Byte
  | [] => t
  | x :: xs => putAll (Tbl.put t key x) (key + 1) xs

/-- A host write that its port has accepted (R210). -/
def State.hostWrite (s : State) (sp : Option (BitVec 20)) (addr : Nat) (b : Bytes) : State :=
  { s with host := { s.host with mem := putAll s.host.mem (hostKey sp addr) b } }

/-- The ports a slice's PASID may use (R31): the PORTS mask, 0 where the PASID is not mapped. -/
def SliceDef.ports (d : SliceDef) (pasid : Nat) : Nat :=
  match d.pasids.find? (fun p => p.pasid == pasid) with
  | some p => p.ports
  | none => 0

def portBit (port : Bool) : Nat := if port then 1 else 0

/-! ## The dirty-course log (spec/15) -/

def Ring.size (r : Ring) : Nat := 2 ^ r.sizeLog2.toNat

/-- Slots neither posted and unreleased nor reserved (R92). -/
def Ring.free (r : Ring) : Nat := r.size - r.posted - r.reserved

/-- The address of a ring's next slot, for records of `len` bytes. -/
def Ring.slotAddr (r : Ring) (len : Nat) : Nat := r.base.toNat + r.tail * len

/-- The ring after one record: the tail moves on, and PHASE inverts as it wraps (R92). -/
def Ring.advance (r : Ring) : Ring :=
  { r with
    tail := if r.tail + 1 = r.size then 0 else r.tail + 1
    phase := if r.tail + 1 = r.size then !r.phase else r.phase
    posted := r.posted + 1 }

/-- A record with its PHASE bit set at a byte and bit. -/
def withPhase (b : Bytes) (off bit : Nat) (phase : Bool) : Bytes :=
  putBytes b off [BitVec.ofNat 8 (setBit (byteAt b off) bit phase)]

/-- The port a manager ring writes through: its own, or the other while its link is down (R313). -/
def State.ringPort (s : State) (r : Ring) : Option Bool :=
  if s.linkUp r.port then some r.port else if s.linkUp (!r.port) then some (!r.port) else none

/-- Posts one 8-byte log entry, or drops and counts it and sets LOST for its slice (R364). -/
def State.postLog (s : State) (slice entry : Nat) : State :=
  let r := s.mig.ring
  if r.enable && decide (0 < r.free) && (s.ringPort r).isSome then
    let e := setBit entry 63 r.phase
    let s := s.hostWrite none (r.slotAddr 8) (leBytes 8 e)
    let s := if r.notifyEn then s.hostWrite none r.notifyAddr.toNat (leBytes 4 r.notifyValue.toNat) else s
    { s with mig := { s.mig with ring := r.advance } }
  else
    let s := { s with mig := { s.mig with ring := { r with lost := satAdd 32 r.lost 1 } } }
    s.updSlice slice (fun v => { v with logLost := true })

/-- A logging point logs a course for a slice unless its filter holds it (R362). -/
def State.logCourse (s : State) (slice point course entry : Nat) : State :=
  if (s.slice slice).logging then
    let f := Tbl.get [] s.mig.filters point
    if f.contains (slice, course) then s
    else
      let s := { s with mig := { s.mig with
        filters := Tbl.set [] s.mig.filters point (((slice, course) :: f).take 32) } }
      s.postLog slice entry
  else s

/-- Logs a device-memory write at its home slice (Table 15.1, TYPE 0). -/
def State.logDevice (s : State) (slice ucSlice dpa : Nat) : State :=
  s.logCourse slice ucSlice (dpa / 4096) (dpa / 4096 + field 52 slice)

/-- Logs a host write made on a slice's behalf at its port (Table 15.1, TYPE 1). -/
def State.logHost (s : State) (slice : Nat) (port : Bool) (pasid addr : Nat) : State :=
  let ix := ((s.slice slice).defn.pasids.takeWhile (fun p => p.pasid != pasid)).length
  let wide := ofBool (decide (0 < bitsOf addr 63 57))
  s.logCourse slice (512 + portBit port) (2 ^ 70 + ix * 2 ^ 64 + addr / 4096)
    (bitsOf addr 56 12 + field 45 1 + field 47 (ix % 16) + field 51 wide + field 52 slice)

/-- A host write on a slice's behalf: it is counted (Table 14.6), logged and sent in pieces (R212, R362). -/
def State.tenantHostWrite (s : State) (slice : Nat) (port : Bool) (pasid : BitVec 20) (addr : Nat) (b : Bytes) :
    State :=
  let s := s.hostWrite (some pasid) addr b
  let s := s.count slice 12 b.length
  (linePieces addr b.length).foldl (fun s pc => s.logHost slice port pasid.toNat pc.1) s

/-! ## Posting into rings (R92, R93) -/

/-- Writes one record into a slice's CQ or fault queue: the record with PHASE, then its notify (R92 to R94). -/
def State.postTenant (s : State) (slice : Nat) (r : Ring) (phaseOff : Nat) (rec : Rec) : State × Ring :=
  let s := s.tenantHostWrite slice r.port r.pasid (r.slotAddr rec.bytes.length) (withPhase rec.bytes phaseOff 0 r.phase)
  let s := if r.notifyEn && rec.notify
    then s.tenantHostWrite slice r.port r.pasid r.notifyAddr.toNat (leBytes 4 r.notifyValue.toNat) else s
  (s, r.advance)

/-- Writes one record into a manager ring, with no PASID (R313). -/
def State.postManager (s : State) (r : Ring) (phaseOff : Nat) (rec : Rec) : State × Ring :=
  let s := s.hostWrite none (r.slotAddr rec.bytes.length) (withPhase rec.bytes phaseOff 0 r.phase)
  let s := if r.notifyEn && rec.notify then s.hostWrite none r.notifyAddr.toNat (leBytes 4 r.notifyValue.toNat) else s
  (s, r.advance)

/-- A head doorbell (R92): the head may move only over posted records. One equal to the present head releases none, also
where the ring is full and the posted records end there (DESIGN CHOICE, notes/assumptions/67.md). -/
def Ring.headDoorbell (r : Ring) (v : Nat) : Ring :=
  if !r.enable then { r with badDoorbell := true }
  else if r.size ≤ v then { r with badDoorbell := true }
  else
    let delta := (v + r.size - r.head) % r.size
    if r.posted < delta then { r with badDoorbell := true }
    else { r with head := v, posted := r.posted - delta }

end Sys2Proof.Machine
end

