-- ==== Sys2Proof/Machine/Fabric.lean ====
section
/-! DEFINITION. The on-package fabric (spec/10): the router grid (R228), the networks (R227), bulk traffic and the bridges that
share their links by weighted round robin (R229 to R232), the control mesh with its two virtual channels (R234, R235), and
the dies' TIME (R236). How long a message takes, its waiting at a bridge or a control link apart, is left out. -/

namespace Sys2Proof.Machine

/-! ## Networks (R227) -/

/-- The four networks of a die. -/
inductive Network where
  | bulk | control | sync | broadcast
deriving DecidableEq, Repr

/-- What travels on the fabric (Table 10.1). -/
inductive Traffic where
  | readRequest | readData | writeData | replicaFill | writeBack | dma | sweldWrite
  | acknowledgement | releaseToken | invalidate | stopSignal | shieldSignal | grant | report
  | claim | barrier | timeAlignment
  | weightTile | constantFill
deriving DecidableEq, Repr

/-- The one network of each kind of traffic (Table 10.1). -/
def Traffic.network : Traffic → Network
  | .readRequest | .readData | .writeData | .replicaFill | .writeBack | .dma | .sweldWrite => .bulk
  | .acknowledgement | .releaseToken | .invalidate | .stopSignal | .shieldSignal | .grant | .report => .control
  | .claim | .barrier | .timeAlignment => .sync
  | .weightTile | .constantFill => .broadcast

/-- Data bits of one link of a network in one NCLK, one direction. -/
def Network.bits : Network → Nat
  | .bulk => 512
  | .control => 64
  | .sync => 16
  | .broadcast => 1024

/-! ## The router grid (R228, R238) -/

def routersPerDie : Nat := 64
def routerRow (x : Nat) : Nat := x / 8
def routerCol (x : Nat) : Nat := x % 8

/-- The unified-cache slice above router x of die d. -/
def routerSlice (d x : Nat) : Nat := 64 * d + x

/-- The bay under router x of die d. -/
def routerBay (d x : Nat) : Nat := 6 * d + 6 * x / 64

/-- The routers that a bay owns: 11, or 10 of the third and the sixth bay of a die. -/
def routersOf (b : Nat) : List Nat := (List.range 64).filter (fun x => decide (6 * x / 64 = b % 6))

/-- Bulk links of a slice port and a bay port, and of a router to a neighbour in each direction. -/
def slicePortLinks : Nat := 11
def bayPortLinks : Nat := 11
def neighbourLinks : Nat := 10

/-- A place on the meshes: router x of die d is 64 d + x, which is the number of its cache slice; quoin q is 512 + q. -/
def quoinNode (q : Nat) : Nat := 512 + q
def nodeDie (n : Nat) : Nat := n / 64
def nodeHalf (n : Nat) : Nat := dieHalf (nodeDie n)
def nodeRow (n : Nat) : Nat := routerRow (n % 64)

/-- The column of a router in the 32 columns of its half. -/
def nodeCol (n : Nat) : Nat := 8 * dieCol (nodeDie n) + routerCol (n % 64)

def gap (a b : Nat) : Nat := (a - b) + (b - a)

/-- Router steps between two places: along the half, over the halves link, and along the columns. -/
def nodeDistance (n m : Nat) : Nat :=
  if 512 ≤ n then (if 512 ≤ m then 0 else if n = 512 then nodeCol m else 31 - nodeCol m)
  else if 512 ≤ m then (if m = 512 then nodeCol n else 31 - nodeCol n)
  else gap (nodeCol n) (nodeCol m)
    + (if nodeHalf n = nodeHalf m then gap (nodeRow n) (nodeRow m) else (7 - nodeRow n) + (7 - nodeRow m) + 1)

/-- The router of a bay at which an access to a place leaves: the owned one nearest it, of equals the lowest. -/
def bayNode (b toward : Nat) : Nat :=
  let rs := (routersOf b).map (fun x => 64 * dieOfBay b + x)
  rs.foldl (fun best r => if nodeDistance r toward < nodeDistance best toward then r else best) (rs.headD 0)

/-- The place of a unit, for messages to or from `toward`. -/
def unitNode (u toward : Nat) : Nat :=
  match unitKind u with
  | .bay b => bayNode b toward
  | .chan c => 4 * c
  | .ucSlice x => x
  | .dieCollector d => 64 * d
  | .port p => quoinNode (ofBool (decide (8 ≤ p)))
  | .queue q | .plumb q | .pcie q | .quoinCollector q => quoinNode q
  | .bridge _ | .reserved => quoinNode 0

/-! ## Bridges (R230, Table 10.2) -/

/-- The routers of a die's edge at which a bridge attaches, as their rows or columns: one link of the control mesh each. -/
def bridgeLanes (b : Nat) : List Nat := if b ≤ 9 then List.range 8 else [2, 3, 4, 5]

/-- Bulk links with spares, control links and sync links of a bridge, each direction, and a crossing in NCLK. -/
def bridgeWidths (b : Nat) : Nat × Nat × Nat × Nat × Nat :=
  if b ≤ 5 then (80, 4, 8, 2, 24) else if b ≤ 9 then (80, 4, 8, 2, 40) else (20, 1, 4, 1, 24)

/-! ## Links of the meshes (R229, R231)

A link of a die's grid is 4 × (place of its router) + direction: 0 east, 1 west, 2 toward row 7, 3 toward row 0. A link of
bridge b in direction r, at lane k, is 4,096 + 16 b + 8 r + k. -/

def gridLink (n dir : Nat) : Nat := 4 * n + dir
def bridgeLink (b r k : Nat) : Nat := 4096 + 16 * b + 8 * r + k

/-- The place of a router by half, row and column of the half. -/
def nodeAt (half row col : Nat) : Nat := 64 * (4 * half + col / 8) + 8 * row + col % 8

/-- One step eastward or westward along a row, over the bridge at the edge of a die. -/
def eastLink (half row col : Nat) : Nat :=
  if col % 8 = 7 then bridgeLink (3 * half + col / 8) 0 row else gridLink (nodeAt half row col) 0
def westLink (half row col : Nat) : Nat :=
  if col % 8 = 0 then bridgeLink (3 * half + col / 8 - 1) 1 row else gridLink (nodeAt half row col) 1

/-- Along a row from one column of a half to another. -/
def rowLinks (half row a b : Nat) : List Nat :=
  if a ≤ b then (List.range (b - a)).map (fun i => eastLink half row (a + i))
  else (List.range (a - b)).map (fun i => westLink half row (a - i))

/-- Along a column from one row to another. -/
def colLinks (half col a b : Nat) : List Nat :=
  if a ≤ b then (List.range (b - a)).map (fun i => gridLink (nodeAt half (a + i) col) 2)
  else (List.range (a - b)).map (fun i => gridLink (nodeAt half (a - i) col) 3)

/-- The row at which a message from or to row r passes a quoin bridge. -/
def quoinRow (r : Nat) : Nat := max 2 (min 5 r)

/-- The path of control and sync traffic, the default path (R231): along the row first and then along the column (R229),
and over the halves link in the destination's column. Between the quoins it runs along the north half, which is not stated
(DESIGN CHOICE, notes/assumptions/65.md). -/
def meshPath (n m : Nat) : List Nat :=
  if n = m then []
  else if 512 ≤ n ∧ 512 ≤ m then
    let q := n - 512
    bridgeLink (10 + 2 * q) q 2 :: rowLinks 0 2 (31 * q) (31 - 31 * q) ++ [bridgeLink (12 - 2 * q) q 2]
  else if 512 ≤ n then
    let q := n - 512
    let h := nodeHalf m
    let r := quoinRow (nodeRow m)
    bridgeLink (10 + 2 * q + h) q r :: rowLinks h r (31 * q) (nodeCol m) ++ colLinks h (nodeCol m) r (nodeRow m)
  else if 512 ≤ m then
    let q := m - 512
    let h := nodeHalf n
    let r := quoinRow (nodeRow n)
    rowLinks h (nodeRow n) (nodeCol n) (31 * q) ++ colLinks h (31 * q) (nodeRow n) r ++ [bridgeLink (10 + 2 * q + h) (1 - q) r]
  else if nodeHalf n = nodeHalf m then
    rowLinks (nodeHalf n) (nodeRow n) (nodeCol n) (nodeCol m) ++ colLinks (nodeHalf n) (nodeCol m) (nodeRow n) (nodeRow m)
  else
    rowLinks (nodeHalf n) (nodeRow n) (nodeCol n) (nodeCol m) ++ colLinks (nodeHalf n) (nodeCol m) (nodeRow n) 7
      ++ bridgeLink (6 + nodeCol m / 8) (nodeHalf n) (nodeCol m % 8) :: colLinks (nodeHalf m) (nodeCol m) 7 (nodeRow m)

/-! ## Bulk traffic on the bridges (R231, R232, R240) -/

/-- Where a unit stands: ashlar die 0 to 7, or 8 and 9 for the quoins. -/
def placeOf (u : Nat) : Nat :=
  match unitKind u with
  | .bay b => dieOfBay b
  | .port p => 8 + ofBool (decide (8 ≤ p))
  | .queue q => 8 + q
  | _ => 8

/-- The half of a place; the quoins stand in neither. -/
def halfOf (place : Nat) : Option Nat := if place < 8 then some (dieHalf place) else none

/-- One direction of a bridge: 2 b + r. -/
def flowKey (e : Nat × Nat) : Nat := 2 * e.1 + e.2

/-- The four buffer classes of a bulk message (R229): request or response, before or after a crossing of the halves link. -/
def BulkMsg.buffer (m : BulkMsg) : Nat := 2 * ofBool m.response + ofBool m.crossed

/-- Flits of a message join those that wait at one direction of a bridge, behind the ones that came before. -/
def Flow.join (f : Flow) (m : BulkMsg) : Flow :=
  if f.waiting.any (fun x => decide (x.num = m.num)) then
    { f with waiting := f.waiting.map (fun x => if x.num = m.num then { x with flits := x.flits + m.flits } else x) }
  else { f with waiting := f.waiting ++ [m] }

def State.updFlow (s : State) (k : Nat) (f : Flow → Flow) : State :=
  { s with fab := { s.fab with flows := Tbl.upd {} s.fab.flows k f } }

/-- Bulk data bytes go over bridges, each with its direction: they are counted (R240), and their 64-byte flits wait at the
first bridge in the class of the access (R232). -/
def State.carry (s : State) (path : List (Nat × Nat)) (n : Nat) (response : Bool := false) : State :=
  let s := path.foldl (fun s e =>
    let s := s.updBridge e.1 (fun b =>
      if e.2 = 0 then { b with bytes0 := satAdd 64 b.bytes0 n } else { b with bytes1 := satAdd 64 b.bytes1 n })
    s.event (0x40 + e.2) (unitBridge e.1) none n) s
  match path.map flowKey with
  | [] => s
  | k :: rest =>
    let m : BulkMsg := { num := s.fab.bulkSent, cls := s.fab.cls, response := response, flits := ceilDiv n 64, rest := rest }
    { s.updFlow k (fun f => f.join m) with fab := { (s.updFlow k (fun f => f.join m)).fab with bulkSent := m.num + 1 } }

/-- Bulk data from one place to another: by its ROUTE between two dies, along the die's half to or from a quoin. Which half
joins the two quoins is not stated. -/
def State.bulk (s : State) (src dst n : Nat) (response : Bool := false) : State :=
  if src = dst ∨ n = 0 then s
  else if src < 8 ∧ dst < 8 then s.carry (pathOf (Tbl.get 0 s.fab.routes (8 * src + dst)) src dst) n response
  else if src < 8 then s.carry (quoinPath (decide (dst = 9)) src false) n response
  else if dst < 8 then s.carry (quoinPath (decide (src = 9)) dst true) n response
  else
    let (h, s) := s.drawChoice 2
    s.carry (if src = 8 then quoinPath false (4 * h + 3) true ++ [(12 + h, 0)]
      else quoinPath true (4 * h) true ++ [(10 + h, 1)]) n response

/-- From here on accesses are made in a priority class. -/
def State.inClass (s : State) (c : Nat) : State := { s with fab := { s.fab with cls := c } }

/-- From here on accesses are made for a command, in its class. -/
def State.onBehalf (s : State) (id : Nat) : State := s.inClass (dClass (s.cmd id).desc)

/-! ## Weighted round robin (R232) -/

/-- Whose turn it is among the classes `cs` that have flits waiting, and what is left of the turn: the class whose turn it
was, until it has had its weight; then the next one with flits. -/
def nextTurn (weight : Nat → Nat) (cs : List Nat) (turn left : Nat) : Nat × Nat :=
  if cs.contains turn ∧ 0 < left then (turn, left - 1)
  else
    let c := (((List.range 8).map (fun i => (turn + 1 + i) % 8)).find? (fun c => cs.contains c)).getD turn
    (c, weight c - 1)

/-- The class among `cs` that the next slot serves: ordinary classes first, BACKGROUND ones where none of those waits. -/
def Flow.pickOf (f : Flow) (cs : List Nat) (weight : Nat → Nat) (background : Nat → Bool) : Option (Nat × Flow) :=
  let ord := cs.filter (fun c => !background c)
  if ord ≠ [] then
    let t := nextTurn weight ord f.turn f.left
    some (t.1, { f with turn := t.1, left := t.2 })
  else if cs ≠ [] then
    let t := nextTurn weight cs f.bgTurn f.bgLeft
    some (t.1, { f with bgTurn := t.1, bgLeft := t.2 })
  else none

/-- The class that the next slot of a link serves. -/
def Flow.pick (f : Flow) (weight : Nat → Nat) (background : Nat → Bool) : Option (Nat × Flow) :=
  f.pickOf ((List.range 8).filter (fun c => f.waiting.any (fun m => decide (m.cls % 8 = c)))) weight background

/-- Slots beyond the first that a turn of a class has used. -/
def Flow.spend (f : Flow) (background : Bool) (n : Nat) : Flow :=
  if background then { f with bgLeft := f.bgLeft - n } else { f with left := f.left - n }

/-- Takes one flit of the oldest message of a class. -/
def takeFlit (c : Nat) : List BulkMsg → List BulkMsg → Option (BulkMsg × List BulkMsg)
  | _, [] => none
  | seen, m :: t =>
    if m.cls % 8 = c then
      some ({ m with flits := 1 }, seen ++ (if m.flits ≤ 1 then t else { m with flits := m.flits - 1 } :: t))
    else takeFlit c (seen ++ [m]) t

/-- The next flit that one direction of a bridge sends, and what waits behind it. -/
def Flow.next (f : Flow) (weight : Nat → Nat) (background : Nat → Bool) : Option (BulkMsg × Flow) :=
  match f.pick weight background with
  | none => none
  | some (c, g) => (takeFlit c [] g.waiting).map (fun e => (e.1, { g with waiting := e.2 }))

/-- A flit that has crossed a bridge goes on to its next one (R229: after the halves link in another buffer class). -/
def State.passFlit (s : State) (k : Nat) (m : BulkMsg) : State :=
  match m.rest with
  | [] => s
  | j :: rest =>
    let b := k / 2
    s.updFlow j (fun f => f.join { m with rest := rest, crossed := m.crossed || (decide (6 ≤ b) && decide (b ≤ 9)) })

/-- WEIGHT[b][c] of the running image, and whether a class is BACKGROUND. -/
def State.weight (s : State) (b c : Nat) : Nat := s.fab.weights.getD (8 * b + c) 1
def State.background (s : State) (c : Nat) : Bool := (s.whole.classes.getD c {}).background

/-! ## The control mesh (R234, R235) -/

/-- The channel of a control message (Table 10.3). -/
def CtrlKind.high : CtrlKind → Bool
  | .stop | .shield | .invalidate | .invalidateAck | .holdNotice => true
  | .ack | .releaseToken | .flagAdd | .grant | .completion | .report | .register => false

/-- The flit that a control link sends on an NCLK edge: HIGH, but NORMAL after 15 slots in a row that HIGH won while NORMAL
had a flit waiting. -/
def CtrlLink.slot (l : CtrlLink) : Option CtrlFlit × CtrlLink :=
  match l.high, l.normal with
  | [], [] => (none, { l with run := 0 })
  | [], n :: t => (some n, { l with normal := t, run := 0 })
  | h :: t, [] => (some h, { l with high := t, run := 0 })
  | h :: t, n :: u =>
    if l.run < 15 then (some h, { l with high := t, run := l.run + 1 }) else (some n, { l with normal := u, run := 0 })

def CtrlLink.put (l : CtrlLink) (f : CtrlFlit) : CtrlLink :=
  if f.kind.high then { l with high := l.high ++ [f] } else { l with normal := l.normal ++ [f] }

/-- A flit goes to the next control link of its path, or has arrived. -/
def Fab.send (v : Fab) (f : CtrlFlit) : Fab :=
  match f.rest with
  | [] => v
  | k :: t => { v with links := Tbl.upd {} v.links k (fun l => l.put { f with rest := t }) }

/-- A control message of one to four flits, how many is not stated (notes/assumptions/2.md), leaves on a path. -/
def Fab.control (v : Fab) (kind : CtrlKind) (path : List Nat) : Fab :=
  let n := v.ctrlSent
  let w := (List.range (Config.controlFlits n % 4 + 1)).foldl (fun v _ => v.send { msg := n, kind := kind, rest := path }) v
  { w with ctrlSent := n + 1 }

def State.control (s : State) (kind : CtrlKind) (src dst : Nat) : State :=
  { s with fab := s.fab.control kind (meshPath src dst) }

/-- A control message between two units. -/
def State.signalUnits (s : State) (kind : CtrlKind) (src dst : Nat) : State :=
  s.control kind (unitNode src (unitNode dst 0)) (unitNode dst (unitNode src 0))

/-- One NCLK edge of the control mesh: every link that has a flit sends one, and all of them move on together. -/
def Fab.ctrlEdge (v : Fab) : Fab :=
  let sent := v.links.map (fun e => (e.1, e.2.slot))
  let links := (sent.map (fun e => (e.1, e.2.2))).filter (fun e => decide (e.2 ≠ ({} : CtrlLink)))
  (sent.filterMap (fun e => e.2.1)).foldl Fab.send { v with links := links }

/-! ## The dies' TIME (R236, R238) -/

/-- A die's TIME: the package's, of which it is never more than 1 ns off, so that no two differ by more than 2 ns. -/
def State.dieTime (s : State) (d : Nat) : Nat := ((s.time : Int) + Tbl.get 0 s.fab.skew d).toNat

/-- A die's TIME is steered by a nanosecond: it stands still or moves on by two, and never steps back. -/
def steered (skew target : Int) : Int := if target < skew then skew - 1 else if skew < target then skew + 1 else skew

/-- One nanosecond of the dies' TIME. -/
def State.tickSkew (s : State) : State :=
  { s with fab := { s.fab with
      skew := (List.range 8).foldl (fun t d =>
        Tbl.set 0 t d (steered (Tbl.get 0 t d) (Tbl.get 0 s.fab.target d))) s.fab.skew } }

/-- TIME_BEACON: quoin 0's beacon, every 1 µs, sets how far from its TIME each die comes to rest. How far is not stated but
for the bound of 2 ns between any two: a free choice of -1, 0 or 1 ns. -/
def State.alignDies (s : State) : State :=
  (List.range 8).foldl (fun s d =>
    let (k, s) := s.drawChoice 3
    { s with fab := { s.fab with target := Tbl.set 0 s.fab.target d ((k : Int) - 1) } }) s

/-! ## The broadcast bus (R237) -/

/-- Nanoseconds that n bytes take on a die's broadcast bus: 128 bytes in each NCLK. -/
def busNs (n : Nat) : Nat := ceilDiv (ceilDiv n 128 * 5) 8

/-- A transfer takes the bus of a die, unless it is busy; the answer says whether it did. -/
def State.takeBus (s : State) (d n : Nat) : State × Bool :=
  if s.dev.ticks < Tbl.get 0 s.fab.busUntil d then (s, false)
  else ({ s with fab := { s.fab with
    busUntil := Tbl.set 0 s.fab.busUntil d (s.dev.ticks + busNs n)
    transfers := Tbl.upd 0 s.fab.transfers d (satAdd 32 · 1) } }, true)

/-- Deliveries made point to point because the bus was busy are counted. -/
def State.countFallbacks (s : State) (d n : Nat) : State :=
  { s with fab := { s.fab with fallbacks := Tbl.upd 0 s.fab.fallbacks d (satAdd 32 · n) } }

end Sys2Proof.Machine
end

