-- ==== Sys2Proof/Machine/Faults.lean ====
section
/-! DEFINITION. Faults: detection and its actions (spec/13 R300 to R306), reporters and collectors (R307 to R314), buckets
(R316) and ERR_N (R317). -/

namespace Sys2Proof.Machine

/-! ## Stopping a command -/

/-- A dispatched command that has not completed. -/
def Cmd.live (c : Cmd) : Bool :=
  match c.phase with
  | .running | .preempted | .finishing => true
  | _ => false

/-- A command whose engines still run, some of them perhaps saved. -/
def Cmd.runs (c : Cmd) : Bool :=
  (decide (c.phase = .running) || decide (c.phase = .preempted)) && c.stop.isNone

/-- Stops a dispatched command once (R324): the first stop decides its outcome. -/
def State.stopCmd (s : State) (id : Nat) (st : Stop) : State :=
  let c := s.cmd id
  if c.live && c.stop.isNone then s.setCmd id { c with stop := some st, phase := .finishing } else s

/-! ## The package collector (R310 to R316) -/

/-- A fault ring's place for one more record beyond those already held. -/
def State.fltCanPost (s : State) : Bool :=
  s.flt.ring.enable && decide (s.flt.held.length < s.flt.ring.free) && (s.ringPort s.flt.ring).isSome

/-- The tenant copy of a record (R312): posted, or not posted and counted. The record shows which. A write lost with a
downed port counts in LOST_RECORDS (Table 4.19). -/
def State.tenantCopyPost (s : State) (r : FaultRec) : State × FaultRec :=
  match r.slice with
  | some sl =>
    if tenantCopy r.code then
      let v := s.slice sl
      if v.fq.enable && decide (0 < v.fq.free) && decide (v.state ≠ .frozen) && !s.linkUp v.fq.port then
        (s.updSlice sl (fun v => { v with fq := { v.fq with lost := satAdd 16 v.fq.lost 1 } }), r)
      else if v.fq.enable && decide (0 < v.fq.free) && decide (v.state ≠ .frozen) then
        let (s, fq) := s.postTenant sl v.fq 0x0B { bytes := r.tenantBytes, notify := true }
        (s.updSlice sl (fun v => { v with fq := fq }), r)
      else
        let s := s.updSlice sl (fun v => { v with tqDropped := satAdd 16 v.tqDropped 1 })
        ({ s with flt := { s.flt with tqDropped := satAdd 16 s.flt.tqDropped 1 } }, { r with tqDropped := true })
    else (s, r)
  | none => (s, r)

/-- A record at the package collector (R310, R314, R317, R333): its SEQ, its tenant copy, the open set, FLT_LAST and
the hold buffer. -/
def State.assignSeq (s : State) (r : FaultRec) : State :=
  let (s, r) := s.tenantCopyPost { r with seq := s.flt.nextSeq }
  let cls := faultClass r.code
  let can := s.fltCanPost
  let dropC := cls == 0 && decide (r.code ≠ fcBucket)
  let full := decide (256 ≤ s.flt.held.length)
  let s := if cls == 1 || cls == 2 || decide (r.code = fcStateSplit) then s.signal else s
  let drop := dropC && ((!r.early && !can) || full)
  let lose := !dropC && full
  { s with flt := { s.flt with
      nextSeq := s.flt.nextSeq + 1
      lastSeq := r.seq
      openRecs := if cls < 3 then s.flt.openRecs ++ [(r.seq, cls)] else s.flt.openRecs
      last := (r :: s.flt.last).take 16
      held := if drop || lose then s.flt.held else s.flt.held ++ [r]
      cDropped := if drop then satAdd 16 s.flt.cDropped 1 else s.flt.cDropped
      ufLost := if lose then satAdd 16 s.flt.ufLost 1 else s.flt.ufLost } }

/-- Adds class C events to a unit's bucket (R316), at detection (R300, R301); the crossing creates one BUCKET_THRESHOLD
record, which the package collector makes itself (DEDUCED, notes/assumptions/45.md). -/
def State.fillBucket (s : State) (r : FaultRec) : State :=
  if faultClass r.code = 0 ∧ r.code ≠ fcBucket then
    let old := Tbl.get 0 s.flt.buckets r.unit
    let new := min 255 (old + r.count)
    let s := { s with flt := { s.flt with buckets := Tbl.set 0 s.flt.buckets r.unit new } }
    if old < s.flt.threshold ∧ s.flt.threshold ≤ new then
      s.assignSeq { time := s.time, code := fcBucket, unit := r.unit, info0 := BitVec.ofNat 64 new
                    info1 := BitVec.ofNat 64 r.code, early := r.early }
    else s
  else s

/-! ## Detection -/

/-- The part of ACTION that a code fixes (Tables 13.1, 13.2). -/
def codeAction (code : Nat) (stopped : Bool) : Nat :=
  (if 0x1001 ≤ code ∧ code ≤ 0x1007 then actCorrected else 0)
    + (if stopped then actStopped else 0)
    + (if code = fcDoubleFree ∨ code = fcForeignFree ∨ code = fcPoisonWrite then actRefused else 0)
    + (if code = fcDescBad then actQuiesced else 0)
    + (if code = fcReporterPath ∨ code = fcChannelDown ∨ code = fcUnitFailed then actOffline else 0)
    + (if code = fcDieStop then actDieStop else 0)
    + (if code = fcPackageStop then actPackageStop else 0)

/-- Puts a record into its reporter's syndrome queue (R309): a fifth record adds 1 to the newest of the same code and
unit, or is lost. The reporter drives (1,0) while it holds a record (R307). -/
def State.queueRecord (s : State) (u : Nat) (r : FaultRec) : State :=
  let rep := s.reporter u
  if rep.queue.length < 4 then
    s.updReporter u (fun v => { v with
      queue := v.queue ++ [{ r with lost := v.lostNext }], lostNext := false, err := true, errN := false })
  else
    match rep.queue.getLast? with
    | some e =>
      if e.code = r.code ∧ e.unit = r.unit then
        s.updReporter u (fun v => { v with
          queue := v.queue.dropLast ++ [{ e with count := min 65535 (e.count + 1) }] })
      else
        let s := s.updReporter u (fun v => { v with lostNext := true })
        { s with flt := { s.flt with reportsLost := satAdd 16 s.flt.reportsLost 1 } }
    | none => s

/-- A record of its own: its reporter's syndrome queue has room for it (R309). -/
def State.ownRecord (s : State) (u : Nat) : Bool := decide ((s.reporter u).queue.length < 4)

/-- Whether a record would be merged or lost in its reporter's queue, and the SLICE_SEQ of the entry that takes it. -/
def State.mergeSeq (s : State) (u : Nat) (r : FaultRec) : Option Nat :=
  let rep := s.reporter u
  if rep.queue.length < 4 then some r.sliceSeq.toNat
  else
    match rep.queue.getLast? with
    | some e => if e.code = r.code ∧ e.unit = r.unit ∧ e.slice = r.slice then some e.sliceSeq.toNat else none
    | none => none

/-- A tenant reset is asked for (R73, R113, R306): it is held until it begins, or merges with one held or in progress
(R74). -/
def State.askTenantReset (s : State) (slice : Nat) : State :=
  if (s.slice slice).reset = .none then s.updSlice slice (fun v => { v with reset := .held })
  else { s with dev := { s.dev with resetMerged := true } }

/-- The masks of R306 acting on a class U record that names a slice: a tenant reset is asked for (at once, or once the
command has completed), and an ACTIVE slice enters DRAINING. -/
def State.escalate (s : State) (slice code : Nat) (cmd : Option Nat) : State × Nat :=
  let v := s.slice slice
  let g := faultGroup code
  let esc := faultClass code == 1 && bitAt v.defn.escalate g
  let qui := faultClass code == 1 && bitAt v.defn.quiesce g && decide (v.state = .active)
  let s := if qui then s.updSlice slice (fun v => { v with state := .draining }) else s
  let s := if esc then
      let s := match cmd with
        | some id => if s.hasCmd id then s.updCmd id (fun c => { c with escalate := true }) else s
        | none => s
      s.askTenantReset slice
    else s
  (s, (if esc then actReset else 0) + (if qui then actQuiesced else 0))

/-- What a fault reports beside its code. -/
structure FaultInfo where
  /-- Reporter and unit named (R305). -/
  unit : Nat
  slice : Option Nat := none
  cmd : Option Nat := none
  /-- The line's DPA, or the TVA where `addrTva`. -/
  addr : Option Nat := none
  addrTva : Bool := false
  tva : Option Nat := none
  info0 : Nat := 0
  info1 : Nat := 0
  count : Nat := 1
  /-- The command stops under this fault. -/
  stops : Bool := false
  /-- A write of the command was refused at this line's address (R300, R106). -/
  refuses : Option Nat := none
  /-- The reporter whose pair carries the record, where it is not the unit (bridges, R305). -/
  reporter : Option Nat := none

/-- The reporter that carries a unit's records (R305): bridges report through the die collector of their west die, or of
their north die; the two bridges east of quoin 0 through the package collector. -/
def reporterOf (u : Nat) : Nat :=
  match unitKind u with
  | .bridge _ => match dieOfUnit u with
    | some d => unitDieCollector d
    | none => 0xF6
  | _ => u

/-- The counts of a record that names a slice: SLICE_SEQ of its tenant copy (R312) and the class U count (R332). -/
def State.countFault (s : State) (code : Nat) (f : FaultInfo) : State :=
  match f.slice with
  | some i => s.updSlice i (fun v => { v with
      sliceSeq := if tenantCopy code then v.sliceSeq + 1 else v.sliceSeq
      uCount := if faultClass code = 1 then satAdd 32 v.uCount 1 else v.uCount })
  | none => s

/-- The masks act on a fault that names a slice (R306); the answer is their part of ACTION. -/
def State.maskFault (s : State) (code : Nat) (f : FaultInfo) : State × Nat :=
  match f.slice with
  | some i => s.escalate i code f.cmd
  | none => (s, 0)

/-- The SLICE_SEQ that a fault takes (R312). -/
def State.faultSeq (s : State) (code : Nat) (f : FaultInfo) : W32 :=
  match f.slice with
  | some i => if tenantCopy code then (s.slice i).sliceSeq else 0
  | none => 0

/-- The record of a fault (Table 13.5). -/
def FaultInfo.record (f : FaultInfo) (s : State) (code act : Nat) (seq : W32) : FaultRec :=
  { time := s.time, code := code, action := codeAction code f.stops ||| act, slice := f.slice, unit := f.unit
    sliceSeq := seq, addr := f.addr, addrTva := f.addrTva, tva := f.tva
    cmd := f.cmd.map (fun id =>
      let d := (s.cmd id).desc
      (BitVec.ofNat 64 (dTag d), BitVec.ofNat 32 (dSeq d), (s.cmd id).sq))
    cmdId := f.cmd, early := decide (s.dev.state ≠ .ready) && decide (s.dev.state ≠ .fatal), count := f.count, info0 := BitVec.ofNat 64 f.info0, info1 := BitVec.ofNat 64 f.info1 }

/-- The command that met a fault stops, or holds that a write was refused (R300, R323). -/
def State.endFault (s : State) (f : FaultInfo) (st : Stop) : State :=
  match f.cmd with
  | none => s
  | some id =>
    if f.stops then s.stopCmd id st
    else match f.refuses with
      | some line => if (s.cmd id).live then s.updCmd id (fun c => { c with
          refusal := if c.refusal.isNone && c.stop.isNone then some st else c.refusal
          refusedLines := line :: c.refusedLines }) else s
      | none => s

/-- The reporter that carries a fault's record. -/
def FaultInfo.carrier (f : FaultInfo) : Nat := f.reporter.getD (reporterOf f.unit)

/-- A fault is found (R301): its record with its SLICE_SEQ (R312), its escalation (R306), its bucket (R316) and, where it
stops a command, the stop with PARTIAL FAULT (R323). An event that merges into another record or is lost (R309) has no copy
and takes no SLICE_SEQ; the command it stops names the record that took it, or 0 (DEDUCED, notes/assumptions/45.md). -/
def State.raise (s : State) (code : Nat) (f : FaultInfo) : State :=
  let own := s.ownRecord f.carrier
  let seq := if own then s.faultSeq code f else 0
  let e := (if own then s.countFault code f else s).maskFault code f
  let r := f.record e.1 code e.2 seq
  let merged := e.1.mergeSeq f.carrier r
  ((e.1.queueRecord f.carrier r).fillBucket r).endFault f
    { outcome := ocPartial, detail := 1, arg := merged.getD 0, awaitSeq := merged }

/-- A contained fault of operation scope met by a command (Table 13.1). -/
def State.cmdFault (s : State) (id unit code : Nat) (f : FaultInfo) : State :=
  s.raise code { f with unit := unit, slice := some (s.cmd id).slice, cmd := some id, stops := true }

/-! ## Units taken offline (R302, R303, R70) -/

/-- The records of gangs, arrays and engines of a bay: every command with work on it. -/
def State.cmdsOnBay (s : State) (b : Nat) : List Nat :=
  let v := s.bay b
  ((v.cores.map (·.2)) ++ (v.arrays.filterMap (fun e => e.2.cmd)) ++ v.hod.toList ++ v.riddle.toList).eraseDups

/-- A request is answered by the shield of a closed domain (R77): its answer waits for SHIELD_ANSWER. -/
def Req.shielded (r : Req) (detail arg : Nat) : Req :=
  match r.answer with
  | none => { r with answer := some (.shield detail arg) }
  | some _ => r

/-- A shield closes on a unit (R77, R78): its epoch advances and every outstanding request into it is answered
ABORTED_BY_RESET with the detail and number given; a command whose reply is under way is aborted too, since the reply is
now stale (R76). -/
def State.closeShield (s : State) (u detail arg : Nat) : State :=
  let s := (s.bumpEpoch u).signalUnits .shield (unitQueue false) u
  let s := s.reqs.foldl (fun s e =>
    if e.2.responder = u ∧ e.2.host = none ∧ e.2.answer.isSome then
      s.stopCmd e.2.cmd { outcome := ocAborted, detail := detail, arg := arg } else s) s
  { s with reqs := Tbl.mapVals s.reqs (fun _ r => if r.responder = u ∧ r.host = none then r.shielded detail arg else r) }

/-- Aborts every command with work on a bay (R76), and takes its gangs off the cores. -/
def State.abortBay (s : State) (b detail arg : Nat) : State :=
  let s := (s.cmdsOnBay b).foldl (fun s id =>
    s.stopCmd id { outcome := ocAborted, detail := detail, arg := arg }) s
  { s with gangs := s.gangs.filter (fun e => decide (e.2.bay ≠ b) || e.2.saved) }

/-- Takes a unit DOWN (R302): its shield closes; a bay or port also shows FAILED. -/
def State.offline (s : State) (u : Nat) : State :=
  match unitKind u with
  | .bay b =>
    let s := s.abortBay b 2 b
    let s := s.closeShield u 2 b
    s.updBay b (fun v => { v.zeroed with holder := none, unit := .down, mgmt := .failed })
  | .chan c => (s.closeShield u 3 c).setUnitState u .down
  | .port p =>
    let s := s.closeShield u 5 p
    s.updPort p (fun v => { v with unit := .down, mgmt := .failed, state := .down })
  | .ucSlice x => { s with uc := { s.uc with wayOff := Tbl.set 0 s.uc.wayOff x 0xFFFF } }
  | _ => s

/-- A die stop (R303): die, bays and channels DOWN with their shields closed. -/
def State.stopDie (s : State) (d : Nat) : State :=
  let s := (baysOfDie d).foldl (fun s b => s.offline (unitBay b)) s
  let s := (chansOfDie d).foldl (fun s c => s.offline (unitChan c)) s
  { s with dev := { s.dev with dies := Tbl.set .up s.dev.dies d .down } }

/-- DIE_STOP (Table 13.2). -/
def State.dieStop (s : State) (d cause : Nat) : State :=
  let s := s.raise fcDieStop { unit := unitDieCollector d, info0 := cause }
  s.stopDie d

/-- The epochs of every bay, channel and Sweld port advance (R78). -/
def State.bumpAll (s : State) : State :=
  ((List.range 48).map unitBay ++ (List.range 128).map unitChan ++ (List.range 16).map unitPort).foldl
    State.bumpEpoch s

/-- PACKAGE_STOP (R70): a READY device enters FATAL; all dispatch stops and every shield closes, so that every request is
answered by one and every reply under way is stale (R77, R78). -/
def State.packageStop (s : State) (unit cause : Nat) : State :=
  let s := s.raise fcPackageStop { unit := unit, info0 := cause }
  if s.dev.state = .ready then
    let s := s.enterState .fatal
    let s := s.reqs.foldl (fun s e => s.stopCmd e.2.cmd { outcome := ocAborted, detail := 6, arg := 0 }) s
    { s.bumpAll with reqs := Tbl.mapVals s.reqs (fun _ r => r.shielded 6 0) }
  else s

/-! ## ERR_N (R317) -/

/-- A class bit of FLT_ERR_MASK. -/
def maskSelects (mask cls : Nat) : Bool := decide (cls < 3) && bitAt mask cls

/-- ERR_N is low: an open record's class is selected, or the device is FAILED or FATAL. -/
def State.errLow (s : State) : Bool :=
  s.pins.pwrGood && (s.flt.openRecs.any (fun e => maskSelects s.flt.mask e.2)
    || decide (s.dev.state = .failed) || decide (s.dev.state = .fatal))

/-- The level of ERR_N: true is released. -/
def State.errN (s : State) : Bool := !s.errLow

/-- An ACK_SEQ covers a SEQ (R317). -/
def ackCovers (ack seq : W32) : Bool :=
  decide ((seq - ack).toNat = 0) || decide (2 ^ 31 ≤ (seq - ack).toNat)

/-! ## Collectors (R310) -/

/-- The package collector takes a record (R310). -/
def State.collect (s : State) (r : FaultRec) : State := s.assignSeq r

/-- A tenant copy with this SLICE_SEQ is still on its way (R315). -/
def State.copyPending (s : State) (slice seq : Nat) : Bool :=
  let is := fun r : FaultRec => decide (r.slice = some slice) && decide (r.sliceSeq.toNat = seq)
  s.flt.reporters.any (fun e => e.2.queue.any is) || s.flt.collectors.any (fun e => e.2.any is)

end Sys2Proof.Machine
end

