-- ==== Sys2Proof/Machine/Rs.lean ====
section
/-! DEFINITION. The inline code RS(136,128) of LPDDR5X (spec/11 R245 to R248): field, encoder, the place of every symbol
on the pins, and the decoder of both layouts. -/

namespace Sys2Proof.Machine

/-- Multiplication by α = 0x02 in GF(2^8), primitive polynomial x^8 + x^4 + x^3 + x^2 + 1 (R245). -/
def gfDouble (a : Byte) : Byte := if a.getLsbD 7 then (a <<< 1) ^^^ 0x1D#8 else a <<< 1

/-- Product in GF(2^8): Horner's rule over the bits of `b`. -/
def gfMul (a b : Byte) : Byte :=
  [7, 6, 5, 4, 3, 2, 1, 0].foldl (fun r i => if b.getLsbD i then gfDouble r ^^^ a else gfDouble r) 0#8

/-- α^n. -/
def gfPow : Nat → Byte
  | 0 => 1
  | n + 1 => gfDouble (gfPow n)

/-- The inverse of a nonzero element, a^254. -/
def gfInv (a : Byte) : Byte :=
  (List.range 7).foldl (fun r _ => gfMul (gfMul r r) a) 1 |> fun r => gfMul r r

/-- Value of the polynomial with coefficients `p` (least power first) at `x`. -/
def gfEval (p : List Byte) (x : Byte) : Byte := p.foldr (fun c r => c ^^^ gfMul r x) 0

/-- Product of two polynomials. -/
def gfPolyMul (p q : List Byte) : List Byte :=
  p.foldr (fun c r =>
    let a := q.map (gfMul c)
    let b := (0#8) :: r
    (List.range (max a.length b.length)).map (fun i => a.getD i 0 ^^^ b.getD i 0)) []

/-- The generator g(x) = (x + α^0) … (x + α^7), least power first (R245). -/
def rsGen : List Byte := (List.range 8).foldl (fun g i => gfPolyMul g [gfPow i, 1]) [1]

/-- The check symbols c_0 to c_7 of the data symbols d_0 to d_127 (R245). -/
def rsChecks (d : List Byte) : List Byte :=
  d.foldr (fun x rem =>
    let f := x ^^^ rem.getD 7 0
    (List.range 8).map (fun i => (if i = 0 then 0 else rem.getD (i - 1) 0) ^^^ gfMul f (rsGen.getD i 0)))
    (List.replicate 8 0)

/-- The codeword, position k at power x^k: eight checks, then the data (R245). -/
def rsEncode (d : List Byte) : List Byte := rsChecks d ++ d

/-- The eight syndromes of a received word. -/
def rsSyndromes (v : List Byte) : List Byte := (List.range 8).map (fun j => gfEval v (gfPow j))

/-- State of the Berlekamp–Massey iteration: locator, previous locator, length, gap, previous discrepancy. -/
structure BmState where
  loc : List Byte
  prev : List Byte
  len : Nat
  gap : Nat
  disc : Byte

/-- One iteration on syndrome n. -/
def bmStep (s : List Byte) (b : BmState) (n : Nat) : BmState :=
  let d := (List.range (b.len + 1)).foldl
    (fun r i => if i ≤ n then r ^^^ gfMul (b.loc.getD i 0) (s.getD (n - i) 0) else r) 0
  if d = 0 then { b with gap := b.gap + 1 } else
  let shifted := List.replicate b.gap 0 ++ b.prev.map (gfMul (gfMul d (gfInv b.disc)))
  let loc := (List.range (max b.loc.length shifted.length)).map
    (fun i => b.loc.getD i 0 ^^^ shifted.getD i 0)
  if 2 * b.len ≤ n then { loc := loc, prev := b.loc, len := n + 1 - b.len, gap := 1, disc := d }
  else { b with loc := loc, gap := b.gap + 1 }

/-- Corrects the positions `pos` given the locator polynomial whose roots they are (Forney, first root α^0). -/
def rsForney (v s loc : List Byte) (pos : List Nat) : List Byte :=
  let omega := (gfPolyMul s loc).take 8
  let deriv := (List.range loc.length).map (fun i => if i % 2 = 0 then loc.getD (i + 1) 0 else 0)
  pos.foldl (fun v p =>
    let x := gfPow p
    let xi := gfInv x
    let e := gfMul x (gfMul (gfEval omega xi) (gfInv (gfEval deriv xi)))
    v.set p (v.getD p 0 ^^^ e)) v

/-- What a decode of a received word found. -/
inductive RsResult where
  /-- The word is a codeword: the data. -/
  | clean (data : List Byte)
  /-- Corrected to the one codeword in reach: the data and the positions corrected. -/
  | corrected (data : List Byte) (pos : List Nat)
  /-- No codeword in reach. -/
  | uncorrectable
deriving DecidableEq, Repr

/-- The bounded-distance decoder of radius four of the normal layout (R247). The corrected word is tested to be a
codeword at distance at most four, so the answer is never another word. -/
def rsDecode (v : List Byte) : RsResult :=
  let s := rsSyndromes v
  if s.all (· == 0) then .clean (v.drop 8) else
  let b := (List.range 8).foldl (bmStep s) { loc := [1], prev := [1], len := 0, gap := 1, disc := 1 }
  if 4 < b.len then .uncorrectable else
  let pos := (List.range 136).filter (fun p => gfEval b.loc (gfInv (gfPow p)) == 0)
  if pos.length ≠ b.len then .uncorrectable else
  let w := rsForney v s (b.loc.take (b.len + 1)) pos
  let changed := (List.range 136).filter (fun p => w.getD p 0 != v.getD p 0)
  if (rsSyndromes w).all (· == 0) && decide (changed.length ≤ 4) then .corrected (w.drop 8) changed
  else .uncorrectable

/-- The codeword positions of the eight data symbols on pin P (R245). -/
def pinPositions (p : Nat) : List Nat := (List.range 8).map (fun k => 8 + p + 16 * k)

/-- The decoder of the pin-kill layout: the eight symbols on the killed pin are erasures, and no word is ever found
uncorrectable (R247). -/
def rsDecodeKilled (p : Nat) (v : List Byte) : RsResult :=
  let pos := pinPositions p
  let v0 := pos.foldl (fun v i => v.set i 0) v
  let loc := pos.foldl (fun g i => gfPolyMul g [1, gfPow i]) [1]
  let w := rsForney v0 (rsSyndromes v0) loc pos
  .clean (w.drop 8)

/-- The 128 symbols of 128 bytes on the pins: bit b of symbol i is DQ (i mod 16) at beat 8u + b of burst i div 32, and
beat t carries bytes 2t and 2t + 1 of its burst (R245; the check area is laid out alike, R246). -/
def toSymbols (b : Bytes) : List Byte :=
  (List.range 128).map (fun i =>
    let j := i % 16
    let base := 32 * (i / 32) + 16 * (i % 32 / 16) + j / 8
    BitVec.ofNat 8 ((List.range 8).foldl
      (fun n k => n + ofBool (bitAt (byteAt b (base + 2 * k)) (j % 8)) * 2 ^ k) 0))

/-- The inverse of `toSymbols`. -/
def ofSymbols (d : List Byte) : Bytes :=
  (List.range 128).map (fun n =>
    let t := n % 32 / 2
    let base := 32 * (n / 32) + 16 * (t / 8) + 8 * (n % 2)
    BitVec.ofNat 8 ((List.range 8).foldl
      (fun a m => a + ofBool (bitAt ((d.getD (base + m) 0).toNat) (t % 8)) * 2 ^ m) 0))

/-- The check-area slot of check symbol k of line slot ℓ; with pin P killed, the slots on pin P are left out (R246). -/
def checkSlot (killed : Option Nat) (l k : Nat) : Nat :=
  let m := 8 * l + k
  match killed with
  | none => m
  | some p => let r := m % 15
              16 * (m / 15) + (if r < p then r else r + 1)

end Sys2Proof.Machine
end

