-- ==== Sys2Proof/Machine/Dram.lean ====
section
/-! DEFINITION. A channel's DRAM: line states, course map and fresh blocks (spec/11 R249 to R253), the inline code (R244
to R248), repair queues (R254) and check-bit injection (spec/13 R318). -/

namespace Sys2Proof.Machine

/-- The slice whose course range holds a DPA (R188, R30). -/
def State.ownerOf (s : State) (dpa : Nat) : Option Nat :=
  (List.find? (fun e : Nat × Slice => (findDpa e.2.defn.ranges dpa).isSome) s.slices).map (·.1)

/-- The TVA of a DPA in its owner's ranges (R312). -/
def State.tvaOf (s : State) (dpa : Nat) : Option Nat :=
  match s.ownerOf dpa with
  | some i => (findDpa (s.slice i).defn.ranges dpa).map (fun r => r.tva + (dpa - r.dpa))
  | none => none

/-- The DPA of a channel line. -/
def State.dpaOfLine (s : State) (c q : Nat) : Nat :=
  let (x, n) := lineOfChan c q
  dpaOf s.density x n

/-! ## Line states (Table 11.2) -/

inductive LineState where
  | unwritten | written | released | poisoned
deriving DecidableEq, Repr

/-- WRITTEN and MARK of line i of an entry, as a state. -/
def lineStateOf (e : W64) (i : Nat) : LineState :=
  match e.getLsbD i, e.getLsbD (32 + i) with
  | false, false => .unwritten
  | true, false => .written
  | false, true => .released
  | true, true => .poisoned

def LineState.bits : LineState → Bool × Bool
  | .unwritten => (false, false)
  | .written => (true, false)
  | .released => (false, true)
  | .poisoned => (true, true)

/-- An entry with one bit set or cleared. -/
def setEntryBit (e : W64) (i : Nat) (v : Bool) : W64 :=
  if v then e ||| (1#64 <<< i) else e &&& ~~~(1#64 <<< i)

def setLineStateOf (e : W64) (i : Nat) (st : LineState) : W64 :=
  setEntryBit (setEntryBit e i st.bits.1) (32 + i) st.bits.2

def freshKey (c β : Nat) : Nat := c * 2 ^ 21 + β
def mapKey (c l : Nat) : Nat := c * 2 ^ 20 + l

/-- The bit of a channel's fresh-block bitmap (R250). -/
def State.fresh (s : State) (c β : Nat) : Bool := !(Tbl.get false s.mem.notFresh (freshKey c β))

/-- The block of a channel line (R250). -/
def State.blockOfLine (s : State) (c q : Nat) : Nat :=
  let (x, n) := lineOfChan c q
  blockOf s.density x n

/-- Channel line q of a channel's layout lies in the data region, not in the course map behind it (R244). -/
def State.isData (s : State) (q : Nat) : Bool := decide (q < chanLines s.density)

/-! ## Injection (R318) -/

/-- The check bits that an armed injection inverts on this write, and the injection with one write less. -/
def State.injected (s : State) (checker unit : Nat) : Nat × State :=
  let i := s.flt.inject
  if i.armed && decide (i.checker = checker) && decide (i.unit = unit) then
    (i.mask, { s with flt := { s.flt with
      inject := { i with remaining := i.remaining - 1, armed := decide (1 < i.remaining) } } })
  else (0, s)

/-! ## The stored word (R244 to R246) -/

/-- A row's number for remaps and repair: its bank and row. -/
def rowKey (q : Nat) : Nat := bankOf q * 2 ^ 20 + rowOf q

/-- The raw course and half where a line's row stands: its own, or the remap spare of its row (R254). -/
def State.rowPlace (s : State) (c q : Nat) : Nat × Nat :=
  match Tbl.find? (s.chan c).remaps (rowKey q) with
  | some i => (spareCourse s.density i, rowHalf q)
  | none => (rawCourse q, rowHalf q)

/-- The killed pin of the layout in force for a line: rows from REPACK_ROW upward still have the old one (R248). -/
def State.layoutOf (s : State) (c q : Nat) : Option Nat :=
  let v := s.chan c
  if v.repacking && decide (v.repackRow ≤ rowOf q) then none else v.killed

def State.dramBytes (s : State) (addr n : Nat) : Bytes := (List.range n).map (fun i => Tbl.get 0 s.mem.dram (addr + i))

/-- Stores bytes in DRAM. -/
def dramPut (t : Tbl Byte) (addr : Nat) : Bytes → Tbl Byte
  | [] => t
  | x :: xs => dramPut (Tbl.set 0 t addr x) (addr + 1) xs

def State.dramStore (s : State) (addr : Nat) (b : Bytes) : State :=
  { s with mem := { s.mem with dram := dramPut s.mem.dram addr b } }

/-- The stored word of a line: eight check symbols, then the data symbols, under a layout. -/
def State.storedWord (s : State) (layout : Option Nat) (c q : Nat) : List Byte :=
  let (rc, h) := s.rowPlace c q
  let area := toSymbols (s.dramBytes (dramAddr c rc h 1920) 128)
  (List.range 8).map (fun k => area.getD (checkSlot layout (lineSlot q) k) 0)
    ++ toSymbols (s.dramBytes (dramAddr c rc h (128 * lineSlot q)) 128)

/-- Stores a word of a line under a layout: its data bursts, and its own check symbols alone (R246). -/
def State.storeWord (s : State) (layout : Option Nat) (c q : Nat) (w : List Byte) : State :=
  let (rc, h) := s.rowPlace c q
  let area := toSymbols (s.dramBytes (dramAddr c rc h 1920) 128)
  let area := (List.range 8).foldl (fun a k => a.set (checkSlot layout (lineSlot q) k) (w.getD k 0)) area
  (s.dramStore (dramAddr c rc h 1920) (ofSymbols area)).dramStore
    (dramAddr c rc h (128 * lineSlot q)) (ofSymbols (w.drop 8))

/-- Flips symbols of a word: codeword position and error value. -/
def withErrors (w : List Byte) (errs : List (Nat × Byte)) : List Byte :=
  errs.foldl (fun w e => w.set e.1 (w.getD e.1 0 ^^^ e.2)) w

/-- Bit errors that the DRAM has taken in a stored line. -/
def State.corruptLine (s : State) (c q : Nat) (errs : List (Nat × Byte)) : State :=
  if errs = [] then s
  else
    let l := s.layoutOf c q
    s.storeWord l c q (withErrors (s.storedWord l c q) errs)

/-- A step whose accesses can wait meets a hold of a channel (R256). -/
def State.holdAt (s : State) (c : Option Nat) : State :=
  if s.uc.mayWait && !s.uc.held then { s with uc := { s.uc with held := true, heldBy := c } } else s

/-- Bus bytes of an access to a channel line and its check burst, and their counters (Table 14.6, Table 14.7). An access to a
channel that is held for retraining waits. -/
def State.dramTraffic (s : State) (c q bytes : Nat) (isWrite : Bool) : State :=
  let s := if (s.chan c).retraining then s.holdAt (some c) else s
  let o := if s.isData q then s.ownerOf (s.dpaOfLine c q) else none
  let s := match o with
    | some i => s.count i 11 (bytes + 32)
    | none => s
  s.event (if isWrite then 0x31 else 0x30) (unitChan c) o (bytes + 32)

/-- Writes a whole line with its checks in the layout in force, inverting what an injection selects; `bytes` of its data
move. -/
def State.writeCoded (s : State) (c q : Nat) (data : Bytes) (bytes : Nat) : State :=
  let (m, s) := s.injected 0 (unitChan c)
  let w := rsEncode (toSymbols data)
  let w := (List.range 8).foldl (fun w k => if bitAt m k then w.set k (w.getD k 0 ^^^ 0xFF) else w) w
  (s.storeWord (s.layoutOf c q) c q w).dramTraffic c q bytes true

/-- Writes a whole data line. -/
def State.writeStored (s : State) (c q : Nat) (data : Bytes) : State := s.writeCoded c q data 128

/-- What the decoder of a layout finds in a word (R247). -/
def decodeWord (layout : Option Nat) (w : List Byte) : RsResult :=
  match layout with
  | some p => rsDecodeKilled p w
  | none => rsDecode w

/-! ## Repairs found in service (R248, R254) -/

/-- An automatic field-repair entry (R320): blown when a slot is free, otherwise REPAIR_FULL. -/
def State.autoRepair (s : State) (d : Nat) (entry : Nat) : State :=
  let used := (Tbl.get [] s.nv.repairs d).length + (s.flt.blowing.filter (fun e => e.1 == d)).length
  if used < 64 then
    { s with flt := { s.flt with
        blowing := s.flt.blowing ++ [(d, BitVec.ofNat 64 (repairEntryWithCrc entry), false)] } }
  else s.raise fcRepairFull { unit := unitDieCollector d, info0 := entry % 16 }

/-- Kills a pin (R248): the channel repacks, and a PIN_KILL entry is written; a second pin takes the channel DOWN. -/
def State.killPin (s : State) (c pin : Nat) : State :=
  match (s.chan c).killed with
  | some p =>
    if p = pin then s
    else (s.raise fcChannelDown { unit := unitChan c, info0 := 0 }).offline (unitChan c)
  | none =>
    let s := s.raise fcPinKill { unit := unitChan c, info0 := pin }
    let s := s.updChan c (fun v => { v.pauseScrub s.dev.ticks with killed := some pin, repacking := true, repackRow := 0 })
    s.autoRepair (dieOfChan c) (6 + field 4 (c % 16) + field 16 pin)

/-- Queues a row for repair (R254); a seventeenth row is dropped. -/
def State.queueRow (s : State) (c row : Nat) : State :=
  s.updChan c (fun v =>
    if v.pprQueue.contains row then v
    else if v.pprQueue.length < 16 then { v with pprQueue := v.pprQueue ++ [row] }
    else { v with pprDropped := true })

/-- The pin a codeword position lies on, for a line slot under a layout (R245, R246). -/
def pinOf (layout : Option Nat) (slot pos : Nat) : Nat :=
  if pos < 8 then checkSlot layout slot pos % 16 else (pos - 8) % 16

/-- The distinct lines among traces of one pin or row since a TIME. -/
def tracesSince (ts : List ErrTrace) (what since : Nat) : List Nat :=
  ((ts.filter (fun t => decide (t.what = what) && decide (since ≤ t.time))).map (·.line)).eraseDups

/-- A corrected line of data or of the course map (R247): DRAM_CORRECTED, the channel's count, and the traces toward pin-kill and repair. -/
def State.noteCorrected (s : State) (c q : Nat) (pos : List Nat) : State :=
  let s := s.raise fcDramCorrected
    { unit := unitChan c, addr := if s.isData q then some (s.dpaOfLine c q) else none, info0 := pos.length }
  let pins := (pos.map (pinOf none (lineSlot q))).eraseDups
  let now := s.time
  let s := s.updChan c (fun v => { v with
    corrected := satAdd 10 v.corrected 1
    pinErrs := (pins.map (fun p => { what := p, line := q, time := now }))
      ++ v.pinErrs.filter (fun t => decide (now < t.time + 1000000000))
    rowErrs := { what := rowKey q, line := lineSlot q, time := now }
      :: v.rowErrs.filter (fun t => decide (now < t.time + 86400000000000)) })
  let s := if 3 ≤ (tracesSince (s.chan c).rowErrs (rowKey q) 0).length then s.queueRow c (rowKey q) else s
  pins.foldl (fun s p => if 64 ≤ (tracesSince (s.chan c).pinErrs p 0).length then s.killPin c p else s) s

/-- A line found uncorrectable counts, and its row is queued for repair (R247, R254). -/
def State.noteBad (s : State) (c q : Nat) : State :=
  (s.updChan c (fun v => { v with uncorrected := satAdd 10 v.uncorrected 1 })).queueRow c (rowKey q)

/-! ## The course map (R249, R251, R253) -/

/-- The 16 entries of a map line's data, and their bytes. -/
def entriesOf (b : Bytes) : List W64 := (List.range 16).map (fun i => BitVec.ofNat 64 (leAt b (8 * i) 8))
def mapBytes (es : List W64) : Bytes := es.flatMap (fun e => leBytes 8 e.toNat)

/-- The channel line of map line l: 16 entries a line, in the raw courses behind the data (R244). -/
def State.mapPlace (s : State) (l : Nat) : Nat := mapLine s.density (16 * l)

/-- Every line of 16 entries is POISONED. -/
def poisonedEntries : List W64 := List.replicate 16 (BitVec.allOnes 64)

/-- A map line's entries as its stored word decodes. -/
def State.storedEntries (s : State) (c l : Nat) : List W64 :=
  let q := s.mapPlace l
  match decodeWord (s.layoutOf c q) (s.storedWord (s.layoutOf c q) c q) with
  | .clean d => entriesOf (ofSymbols d)
  | .corrected d _ => entriesOf (ofSymbols d)
  | .uncorrectable => poisonedEntries

/-- A map line's entries: those of the channel's cache, else those in DRAM. -/
def State.mapEntries (s : State) (c l : Nat) : List W64 :=
  match Tbl.find? s.mem.mapCache (mapKey c l) with
  | some es => es
  | none => s.storedEntries c l

def State.mapEntry (s : State) (c k : Nat) : W64 := (s.mapEntries c (k / 16)).getD (k % 16) 0

/-- A line's state: every line of a fresh share reads as UNWRITTEN (R250). -/
def State.lineState (s : State) (c q : Nat) : LineState :=
  if s.fresh c (s.blockOfLine c q) then .unwritten else lineStateOf (s.mapEntry c (q / 32)) (q % 32)

/-- The channel course lies in a fresh share. -/
def State.courseFresh (s : State) (c k : Nat) : Bool := s.fresh c (s.blockOfLine c (32 * k))

/-- Map lines of a channel that its cache holds. -/
def State.mapHeld (s : State) (c : Nat) : List Nat :=
  (s.mem.mapCache.filter (fun e => decide (e.1 / 2 ^ 20 = c))).map (·.1)

/-- A full cache drops one of its lines, freely chosen, for a new one: 32,768 entries a channel (R251,
notes/assumptions/30.md). -/
def State.mapRoom (s : State) (c l : Nat) : State :=
  if (Tbl.find? s.mem.mapCache (mapKey c l)).isSome || decide ((s.mapHeld c).length < 2048) then s
  else
    let (k, s) := s.drawChoice 2048
    { s with mem := { s.mem with mapCache := Tbl.del s.mem.mapCache ((s.mapHeld c).getD k 0) } }

/-- The channel's cache holds a map line's entries. -/
def State.cacheMap (s : State) (c l : Nat) (es : List W64) : State :=
  let s := s.mapRoom c l
  { s with mem := { s.mem with mapCache := Tbl.put s.mem.mapCache (mapKey c l) es } }

/-- Writes a map line through to DRAM: one masked burst of its data (R251). -/
def State.writeMap (s : State) (c l : Nat) (es : List W64) : State :=
  (s.writeCoded c (s.mapPlace l) (mapBytes es) 32).cacheMap c l es

/-- The owners of the lines of a channel course that is not fresh, each with its first line there. -/
def State.ownersOfCourse (s : State) (c k : Nat) : List (Nat × Nat) :=
  if s.courseFresh c k then []
  else ((List.range 32).filterMap (fun i =>
      (s.ownerOf (s.dpaOfLine c (32 * k + i))).map (fun o => (o, s.dpaOfLine c (32 * k + i))))).foldl
    (fun l e => if l.any (fun x => x.1 == e.1) then l else l ++ [e]) []

/-- An uncorrectable map line marks every line of its 16 entries POISONED and is rewritten so; each owner is told of each
channel course (R253). -/
def State.mapLost (s : State) (c l : Nat) : State :=
  let owners := (List.range 16).flatMap (fun i =>
    (s.ownersOfCourse c (16 * l + i)).map (fun e => (16 * l + i, e.1, e.2)))
  let s := (s.noteBad c (s.mapPlace l)).writeMap c l poisonedEntries
  owners.foldl (fun s e => s.raise fcPoisoned
    { unit := unitChan c, slice := some e.2.1, addr := some e.2.2, tva := s.tvaOf e.2.2, info0 := 4, info1 := e.1 }) s

/-- Reads a map line from DRAM and decodes it like data (R249, R247); the answer says whether it could be used. -/
def State.mapRead (s : State) (c l : Nat) : State × Bool :=
  let q := s.mapPlace l
  let w := s.storedWord (s.layoutOf c q) c q
  let r := decodeWord (s.layoutOf c q) w
  let s := s.dramTraffic c q 128 false
  match r with
  | .clean d => (s.cacheMap c l (entriesOf (ofSymbols d)), true)
  | .corrected d pos => ((s.cacheMap c l (entriesOf (ofSymbols d))).noteCorrected c q pos, true)
  | .uncorrectable => (s.mapLost c l, false)

/-- A lookup of channel course k's entry (R251): a miss in the channel's cache reads its map line. -/
def State.mapCheck (s : State) (c k : Nat) : State × Bool :=
  if (Tbl.find? s.mem.mapCache (mapKey c (k / 16))).isSome then (s, true) else s.mapRead c (k / 16)

/-- Writes one course-map entry that changes. -/
def State.setMapEntry (s : State) (c k : Nat) (e : W64) : State :=
  let s := (s.mapCheck c k).1
  if s.mapEntry c k = e then s
  else s.writeMap c (k / 16) ((s.mapEntries c (k / 16)).set (k % 16) e)

/-- Records a line's state in its course-map entry. -/
def State.setLineState (s : State) (c q : Nat) (st : LineState) : State :=
  let s := (s.mapCheck c (q / 32)).1
  s.setMapEntry c (q / 32) (setLineStateOf (s.mapEntry c (q / 32)) (q % 32) st)

/-- The courses of a share that lie in map line l read UNWRITTEN from now on. A map line all of whose courses are fresh is
written without a read; entries of fresh shares hold nothing (DEDUCED, notes/assumptions/30.md). -/
def State.clearCourses (s : State) (c l : Nat) (ks : List Nat) : State :=
  let blank := (List.range 16).all (fun i => s.courseFresh c (16 * l + i))
  let s := if blank then s else (s.mapCheck c (16 * l)).1
  let es := if blank then List.replicate 16 0 else s.mapEntries c l
  s.writeMap c l ((ks.filter (fun k => decide (k / 16 = l))).foldl (fun es k => es.set (k % 16) 0) es)

/-- A write of one word of the fresh-block bitmap, with the check bits that an injection inverts (R318 checker 7). Two
inverted check bits cannot be corrected: the channel goes DOWN (R250). -/
def State.bitmapWrite (s : State) (c : Nat) : State :=
  let (m, s) := s.injected 7 (unitChan c)
  if 2 ≤ popCount 8 m then (s.raise fcChannelDown { unit := unitChan c, info0 := 1 }).offline (unitChan c) else s

/-- The first write into a fresh share clears its entries and this channel's bit (R251). -/
def State.openShare (s : State) (c β : Nat) : State :=
  if s.fresh c β then
    let (first, n) := shareCourses s.density β
    let ks := (List.range n).map (first + ·)
    let s := ((ks.map (· / 16)).eraseDups).foldl (fun s l => s.clearCourses c l ks) s
    { s with mem := { s.mem with notFresh := Tbl.set false s.mem.notFresh (freshKey c β) true } }.bitmapWrite c
  else s

/-- A line found uncorrectable (R247): POISONED, its row queued for repair, and LINE_POISONED to its owner. -/
def State.poisonLine (s : State) (c q cause unit : Nat) : State :=
  let dpa := s.dpaOfLine c q
  let s := s.setLineState c q .poisoned
  s.raise fcPoisoned { unit := unit, slice := s.ownerOf dpa, addr := some dpa, tva := s.tvaOf dpa, info0 := cause }

/-! ## Reads and writes at the channel -/

/-- What a channel's read of a line found. -/
inductive ChanRead where
  | zeros
  | released
  | data (b : Bytes)
  /-- Uncorrectable: 0 DRAM decode, 1 POISONED line, 2 course-map line (Table 13.2). -/
  | bad (cause : Nat)
deriving DecidableEq, Repr

/-- Reads and decodes a WRITTEN line (R247), moving the given bytes of data. -/
def State.decodeLine (s : State) (c q : Nat) (bytes : Nat := 128) (cause : Nat := 0) : State × ChanRead :=
  let layout := s.layoutOf c q
  let w := s.storedWord layout c q
  let s := s.dramTraffic c q bytes false
  match decodeWord layout w with
  | .clean d => (s, .data (ofSymbols d))
  | .corrected d pos => (s.noteCorrected c q pos, .data (ofSymbols d))
  | .uncorrectable => ((s.noteBad c q).poisonLine c q cause (unitChan c), .bad 0)

/-- A channel's answer to a read of line q (R249, R250): only a WRITTEN line reaches DRAM data. -/
def State.chanRead (s : State) (c q : Nat) (bytes : Nat := 128) : State × ChanRead :=
  match s.lineState c q with
  | .unwritten => (s, .zeros)
  | .released => (s, .released)
  | .poisoned => (s, .bad 1)
  | .written => s.decodeLine c q bytes

/-- The 128 bytes with the masked ones replaced. -/
def mergeBytes (old new : Bytes) (mask : BitVec 128) : Bytes :=
  (List.range 128).map (fun i => if mask.getLsbD i then new.getD i 0 else old.getD i 0)

def zeroLine : Bytes := List.replicate 128 0

/-- A channel's write of the masked bytes of line q (R251, Table 11.3). The answer says whether it was refused. -/
def State.chanWrite (s : State) (c q : Nat) (data : Bytes) (mask : BitVec 128) : State × Bool :=
  if mask = 0 then (s, false)
  else
    let s := (s.openShare c (s.blockOfLine c q)).mapCheck c (q / 32) |>.1
    if mask = BitVec.allOnes 128 then
      ((s.writeStored c q data).setLineState c q .written, false)
    else
      match s.lineState c q with
      | .poisoned => (s, true)
      | .written =>
        match s.decodeLine c q with
        | (s, .data old) => (s.writeStored c q (mergeBytes old data mask), false)
        | (s, _) => (s, true)
      | _ => ((s.writeStored c q (mergeBytes zeroLine data mask)).setLineState c q .written, false)

end Sys2Proof.Machine
end

