-- ==== Sys2Proof/Machine/Cache.lean ====
section
/-! DEFINITION. The unified cache: ways, occupancy and replacement (spec/08 R188, R196), home reads and writes (R194,
R195), replicas of PAIRED lines (R192, R193), RELEASE of a line (R199) and array errors (R202, R318). -/

namespace Sys2Proof.Machine

/-! ## Ways -/

def wayKey (x set w : Nat) : Nat := (x * 1536 + set) * 16 + w

/-- The way holds data. -/
def Way.holds (w : Way) : Bool := decide (w.valid ≠ 0)

/-- The slice-local line number of a way's line (Table 8.1). -/
def Way.line (w : Way) (set : Nat) : Nat := w.tag * 1536 + set

def State.setWays (s : State) (x set : Nat) : List (Nat × Way) :=
  (List.range 16).map (fun w => (w, s.way (wayKey x set w)))

/-- A way is not disabled under R203. -/
def State.wayEnabled (s : State) (x w : Nat) : Bool := !(bitAt (Tbl.get 0 s.uc.wayOff x) w)

/-- All 16 ways disabled: the slice is OFFLINE (R203). -/
def State.ucOffline (s : State) (x : Nat) : Bool := decide (Tbl.get 0 s.uc.wayOff x = 0xFFFF)

/-- The way that holds a home line, or a replica, of line number n. -/
def State.findWay (s : State) (x n : Nat) (replica : Bool) : Option Nat :=
  ((s.setWays x (setOf n)).find? (fun e => e.2.holds && e.2.tag == n / 1536 && e.2.replica == replica)).map (·.1)

def State.updWay (s : State) (x set w : Nat) (f : Way → Way) : State :=
  s.setWay (wayKey x set w) (f (s.way (wayKey x set w)))

/-- Changes the age of every way of a set that holds data. -/
def State.mapAges (s : State) (x set : Nat) (f : Nat → Nat) : State :=
  (List.range 16).foldl (fun s w =>
    if (s.way (wayKey x set w)).holds then s.updWay x set w (fun y => { y with age := f y.age }) else s) s

/-- Marks a way most recently used: exact LRU ranks (R196). -/
def State.touchWay (s : State) (x set w : Nat) : State :=
  let a := (s.way (wayKey x set w)).age
  (s.mapAges x set (fun g => if g < a then g + 1 else g)).updWay x set w (fun y => { y with age := 0 })

/-- Empties a way: the older ways of the set move down one rank. -/
def State.dropWay (s : State) (x set w : Nat) : State :=
  let a := (s.way (wayKey x set w)).age
  (s.setWay (wayKey x set w) {}).mapAges x set (fun g => if a < g then g - 1 else g)

/-- A tag write: an armed injection inverts check bits of the tag copies (R318 checker 2). -/
def State.tagWrite (s : State) (x set w : Nat) : State :=
  let (m, s) := s.injected 2 (unitUcSlice x)
  let low := m % 128
  s.updWay x set w (fun y => { y with tagErr := low + (if bitAt m 7 then low * 128 else 0) })

/-- Installs a line in an empty way, most recently used. -/
def State.installWay (s : State) (x set w : Nat) (y : Way) : State :=
  let s := s.mapAges x set (· + 1)
  (s.setWay (wayKey x set w) { y with age := 0 }).tagWrite x set w

/-- The bytes of a set of sectors. -/
def sectorBytes (v : BitVec 4) : BitVec 128 :=
  BitVec.ofNat 128 ((List.range 4).foldl
    (fun n i => if v.getLsbD i then n + (2 ^ 32 - 1) * 2 ^ (32 * i) else n) 0)

/-- Sectors that a byte mask touches. -/
def touchedSectors (m : BitVec 128) : BitVec 4 :=
  BitVec.ofNat 4 ((List.range 4).foldl
    (fun n i => if bitsOf m.toNat (32 * i + 31) (32 * i) ≠ 0 then n + 2 ^ i else n) 0)

/-- Sectors that a byte mask covers whole. -/
def wholeSectors (m : BitVec 128) : BitVec 4 :=
  BitVec.ofNat 4 ((List.range 4).foldl
    (fun n i => if bitsOf m.toNat (32 * i + 31) (32 * i) = 2 ^ 32 - 1 then n + 2 ^ i else n) 0)

/-- The byte mask of `len` bytes from offset `off` of a line. -/
def maskOf (off len : Nat) : BitVec 128 := BitVec.ofNat 128 ((2 ^ len - 1) * 2 ^ off)

/-- The sectors of `len` bytes from offset `off`. -/
def sectorsOf (off len : Nat) : BitVec 4 := touchedSectors (maskOf off len)

/-- Writes sectors of a way: data, and the check bits an injection inverts (R318 checker 1). -/
def State.putSectors (s : State) (x set w : Nat) (secs : BitVec 4) (data : Bytes) : State :=
  let s := s.updWay x set w (fun y => { y with
    valid := y.valid ||| secs
    data := mergeBytes (bytesAt y.data 0 128) data (sectorBytes secs) })
  (bitList 4 secs.toNat).foldl (fun s j =>
    let (m, s) := s.injected 1 (unitUcSlice x)
    s.updWay x set w (fun y => { y with
      dataErr := y.dataErr - bitsOf y.dataErr (8 * j + 7) (8 * j) * 2 ^ (8 * j) + m * 2 ^ (8 * j) })) s

/-! ## Occupancy and replacement (R196) -/

/-- Lines that a tenant holds in a slice. -/
def State.occ (s : State) (x t : Nat) : Nat :=
  (s.uc.ways.filter (fun e => decide (e.1 / 24576 = x) && e.2.holds && decide (e.2.owner = t))).length

/-- Quota and floor of a tenant in lines of one slice. -/
def State.quotaLines (s : State) (t : Nat) : Nat := (s.slice t).defn.quotaMib * 16
def State.floorLines (s : State) (t : Nat) : Nat := (s.slice t).defn.floorMib * 16

/-- The home slice of a way's line. -/
def Way.home (y : Way) (x : Nat) : Nat := if y.replica then x ^^^ 256 else x

/-- A request has reached the domain of a line and waits there. -/
def State.lineWaited (s : State) (dpa : Nat) : Bool :=
  s.reqs.any (fun e => e.2.entered.isSome && e.2.answer.isNone && decide (e.2.dpa = dpa))

/-- A way may be claimed: enabled, holding data, no directory transition, and no request waiting on it (R196); its
write-back is never in flight between two steps. -/
def State.eligible (s : State) (x set w : Nat) (y : Way) : Bool :=
  s.wayEnabled x w && y.holds && decide (y.dir ≠ .filling) && decide (y.dir ≠ .invalidating)
    && !s.lineWaited (dpaOf s.density (y.home x) (y.line set))

/-- The way of the greatest age. -/
def oldestWay : List (Nat × Way) → Option Nat
  | [] => none
  | e :: t => some (t.foldl (fun b f => if b.2.age < f.2.age then f else b) e).1

/-- choose_way of R196. -/
def State.chooseWay (s : State) (x set t : Nat) : Option Nat :=
  let ws := s.setWays x set
  let can := ws.filter (fun e => s.eligible x set e.1 e.2)
  if s.quotaLines t ≤ s.occ x t then oldestWay (can.filter (fun e => e.2.owner == t))
  else
    match ws.find? (fun e => s.wayEnabled x e.1 && !e.2.holds) with
    | some e => some e.1
    | none => oldestWay (can.filter (fun e =>
        decide (e.2.owner = t) || decide (s.floorLines e.2.owner < s.occ x e.2.owner)))

/-- Drops any replica of a home line (R193). -/
def State.dropReplica (s : State) (x n : Nat) : State :=
  match s.findWay (x ^^^ 256) n true with
  | some w => s.dropWay (x ^^^ 256) (setOf n) w
  | none => s

/-- Counts a fill or write that claimed no way (R194, R206). -/
def State.countBypass (s : State) (x t : Nat) : State :=
  (s.updSlice t (fun v => { v with bypasses := satAdd 25 v.bypasses 1 })).event 0x22 (unitUcSlice x) (some t) 1

/-! ## Array errors (R197a, Table 8.6) -/

def State.cacheCorrected (s : State) (x what : Nat) : State :=
  let s := { s with uc := { s.uc with corrected := Tbl.set 0 s.uc.corrected x (satAdd 16 (Tbl.get 0 s.uc.corrected x) 1) } }
  s.raise fcCacheCorrected { unit := unitUcSlice x, info0 := what }

/-- Both tag copies of a set are lost: the die stops (Table 8.6). -/
def State.lostTags (s : State) (x set : Nat) : State :=
  let s := { s with uc := { s.uc with lostSets := s.uc.lostSets ++ [x * 1536 + set] } }
  s.dieStop (dieOfUcSlice x) 0

/-- An uncorrectable word in a sector: a clean sector is invalidated, a dirty one poisons the line. -/
def State.sectorLost (s : State) (x set w j : Nat) : State :=
  let y := s.way (wayKey x set w)
  if y.dirty.getLsbD j then
    let c := chanOfUcSlice x
    let q := chanLine x (y.line set)
    ((s.openShare c (s.blockOfLine c q)).poisonLine c q 2 (unitUcSlice x)).dropReplica x (y.line set)
      |>.dropWay x set w
  else
    let s := { s with uc := { s.uc with
      refetched := Tbl.set 0 s.uc.refetched x (satAdd 16 (Tbl.get 0 s.uc.refetched x) 1) } }
    let s := s.raise fcCacheCorrected { unit := unitUcSlice x, info0 := 2 }
    if y.valid &&& ~~~(1#4 <<< j) = 0 then
      (if y.replica then s else s.dropReplica x (y.line set)).dropWay x set w
    else s.updWay x set w (fun y => { y with
      valid := y.valid &&& ~~~(1#4 <<< j)
      dataErr := y.dataErr - bitsOf y.dataErr (8 * j + 7) (8 * j) * 2 ^ (8 * j) })

/-- Checks one sector as it is read. -/
def State.checkSector (s : State) (x set w j : Nat) : State :=
  let y := s.way (wayKey x set w)
  let m := bitsOf y.dataErr (8 * j + 7) (8 * j)
  if m = 0 || !(y.valid.getLsbD j) then s
  else if popCount 8 m = 1 then
    (s.updWay x set w (fun y => { y with dataErr := y.dataErr - m * 2 ^ (8 * j) })).cacheCorrected x 0
  else s.sectorLost x set w j

/-- Checks the named sectors of a way as they are read. -/
def State.checkSectors (s : State) (x set w : Nat) (secs : BitVec 4) : State :=
  (bitList 4 secs.toNat).foldl (fun s j => s.checkSector x set w j) s

/-- Checks both tag copies of every way of a set as it is looked up. -/
def State.checkTags (s : State) (x set : Nat) : State :=
  (List.range 16).foldl (fun s w =>
    let e := (s.way (wayKey x set w)).tagErr
    if e = 0 then s
    else if 2 ≤ popCount 7 (e % 128) ∧ 2 ≤ popCount 7 (e / 128) then s.lostTags x set
    else (s.updWay x set w (fun y => { y with tagErr := 0 })).cacheCorrected x 1) s

/-! ## Write-back and claims (R195, R196) -/

/-- Writes a dirty home line back as a whole line, its sectors checked as they are read (R195, R202, Table 11.3); a refused
one reports POISON_WRITE to its owner. -/
def State.writeBackWay (s : State) (x set w : Nat) : State :=
  let y := s.way (wayKey x set w)
  let s := if y.dirty = 0 then s else s.checkSectors x set w y.valid
  let y := s.way (wayKey x set w)
  if y.dirty = 0 then s
  else
    let c := chanOfUcSlice x
    let n := y.line set
    let q := chanLine x n
    let data := bytesAt y.data 0 128
    let (s, refused) :=
      if y.dirty = 15 then s.chanWrite c q data (BitVec.allOnes 128)
      else if s.lineState c q = .poisoned then (s, true)
      else if y.valid = 15 then
        (((s.openShare c (s.blockOfLine c q)).writeStored c q data).setLineState c q .written, false)
      else s.chanWrite c q data (sectorBytes y.valid)
    let s := s.updWay x set w (fun y => { y with dirty := 0 })
    if refused then
      let dpa := dpaOf s.density x n
      s.raise fcPoisonWrite { unit := unitUcSlice x, slice := some y.owner, addr := some dpa, tva := s.tvaOf dpa }
    else s

/-- Empties a way for reuse: write-back, then invalidation of any replica (R196). -/
def State.evictWay (s : State) (x set w : Nat) : State :=
  let s := s.writeBackWay x set w
  let y := s.way (wayKey x set w)
  let s := if y.replica then s else s.dropReplica x (y.line set)
  s.dropWay x set w

/-- Claims a way for a line of tenant t, emptying it; none is a bypass. -/
def State.claimWay (s : State) (x n t : Nat) : State × Option Nat :=
  match s.chooseWay x (setOf n) t with
  | some w =>
    if (s.way (wayKey x (setOf n) w)).holds then (s.evictWay x (setOf n) w, some w) else (s, some w)
  | none => (s.countBypass x t, none)

/-! ## Reads and writes at the home slice -/

/-- The answer of a home slice to a read. -/
inductive LineAns where
  /-- The line's bytes, the named sectors valid; whether it was a read-after-release (R201). -/
  | data (b : Bytes) (rar : Bool)
  /-- Uncorrectable, with the cause of UNCORRECTABLE_READ. -/
  | bad (cause : Nat)
  /-- A shield's answer: ABORTED_BY_RESET detail and number. -/
  | shield (detail arg : Nat)
deriving DecidableEq, Repr

/-- The answer of a home slice to a write. -/
inductive WriteAns where
  | ok
  /-- Refused on a POISONED line (Table 11.3). -/
  | poison
  | shield (detail arg : Nat)
deriving DecidableEq, Repr

/-- The closed shield in front of a home slice, if one is closed (R77, Table 3.5). -/
def State.homeShield (s : State) (x : Nat) : Option (Nat × Nat) :=
  if s.dev.state = .fatal then some (6, 0)
  else if s.dieState (dieOfUcSlice x) ≠ .up then some (4, dieOfUcSlice x)
  else if (s.chan (chanOfUcSlice x)).unit ≠ .up then some (3, chanOfUcSlice x)
  else none

/-- Fetches sectors of a home line from its channel (R194). -/
def State.lineFetch (s : State) (x n sectors : Nat) : State × ChanRead :=
  let c := chanOfUcSlice x
  let q := chanLine x n
  if s.fresh c (s.blockOfLine c q) then (s, .zeros)
  else
    match s.mapCheck c (q / 32) with
    | (s, true) => s.chanRead c q (32 * sectors)
    | (s, false) => (s, .bad 2)

/-- Counts sectors of a line read with and without LPDDR5X (Tables 14.6, 14.7). -/
def State.countSectors (s : State) (x owner hits misses : Nat) : State :=
  let s := (s.count owner 9 hits).count owner 10 misses
  let s := (s.event 0x20 (unitUcSlice x) (some owner) hits).event 0x21 (unitUcSlice x) (some owner) misses
  s.event 0x23 (unitUcSlice x) (some owner) (32 * (hits + misses))

/-- One read-after-release of a line of `owner` (R201). -/
def State.countRar (s : State) (owner : Nat) : State :=
  s.updSlice owner (fun v => { v with rarCount := satAdd 64 v.rarCount 1 })

/-- The way found, as a read or a write starts from it; a miss starts from an empty one with the line's tag. -/
def State.foundWay (s : State) (x n : Nat) : Way :=
  match s.findWay x n false with
  | some w => s.way (wayKey x (setOf n) w)
  | none => { tag := n / 1536, owner := (s.ownerOf (dpaOf s.density x n)).getD 0 }

/-- The ECC check of the sectors named, of a line held. -/
def State.checkFound (s : State) (x n : Nat) (secs : BitVec 4) : State :=
  match s.findWay x n false with
  | some w => s.checkSectors x (setOf n) w secs
  | none => s

/-- A read whose sectors are all valid. -/
def State.readHit (s : State) (x n : Nat) (secs : BitVec 4) : State × LineAns :=
  let owner := (s.ownerOf (dpaOf s.density x n)).getD 0
  let y := s.foundWay x n
  let s := match s.findWay x n false with
    | some w => s.touchWay x (setOf n) w
    | none => s
  let s := s.countSectors x owner (popCount 4 secs.toNat) 0
  let s := if y.released then s.countRar owner else s
  (s, .data (bytesAt y.data 0 128) y.released)

/-- The sectors a read fetched, installed in the way found or in one claimed for the line (R194). -/
def State.readInstall (s : State) (x n : Nat) (found : Option Nat) (y : Way) (owner : Nat) (miss : BitVec 4) (bytes : Bytes)
    (rel : Bool) : State :=
  let set := setOf n
  match found with
  | some w =>
    let s := (s.putSectors x set w miss bytes).updWay x set w (fun y => { y with released := y.released || rel })
    (s.tagWrite x set w).touchWay x set w
  | none =>
    match s.claimWay x n owner with
    | (s, some w) =>
      let s := s.installWay x set w { y with
        valid := miss, data := mergeBytes (bytesAt y.data 0 128) bytes (sectorBytes miss), released := rel }
      s.putSectors x set w miss bytes
    | (s, none) => s

/-- The answer of a read that fetched its missing sectors from the channel: their bytes, zeros of a RELEASED line. -/
def State.readFetched (s : State) (x n : Nat) (found : Option Nat) (y : Way) (owner : Nat) (secs miss : BitVec 4)
    (bytes : Bytes) (rel : Bool) (fetched : Nat) : State × LineAns :=
  let s := s.countSectors x owner (popCount 4 secs.toNat - fetched) fetched
  let rar := rel || y.released
  let s := if rar then s.countRar owner else s
  (s.readInstall x n found y owner miss bytes rel,
    .data (mergeBytes (bytesAt y.data 0 128) bytes (sectorBytes miss)) rar)

/-- A read that lacks sectors (R194, R201). -/
def State.readMiss (s : State) (x n : Nat) (secs miss : BitVec 4) : State × LineAns :=
  let owner := (s.ownerOf (dpaOf s.density x n)).getD 0
  let found := s.findWay x n false
  let y := s.foundWay x n
  match s.lineFetch x n (popCount 4 miss.toNat) with
  | (s, .bad cause) => (s, .bad cause)
  | (s, .data b) => s.readFetched x n found y owner secs miss b false (popCount 4 miss.toNat)
  -- a dirty way shows that the line has been written since its release (R201)
  | (s, .released) => s.readFetched x n found y owner secs miss zeroLine (decide (y.dirty = 0)) 0
  | (s, .zeros) => s.readFetched x n found y owner secs miss zeroLine false 0

/-- A read of sectors of line n at its home slice (R194, R201). -/
def State.ucRead (s : State) (x n : Nat) (secs : BitVec 4) : State × LineAns :=
  match s.homeShield x with
  | some (d, a) => (s, .shield d a)
  | none =>
    let s := s.checkTags x (setOf n)
    match s.homeShield x with
    | some (d, a) => (s, .shield d a)
    | none =>
      let s := s.checkFound x n secs
      let miss := secs &&& ~~~(s.foundWay x n).valid
      if miss = 0 then s.readHit x n secs else s.readMiss x n secs miss

/-- Drops the replica of a home line and settles its directory state at NONE (R193). -/
def State.settleDir (s : State) (x n : Nat) : State :=
  match s.findWay x n false with
  | some w =>
    if (s.way (wayKey x (setOf n) w)).dir = .none then s
    else (s.dropReplica x n).updWay x (setOf n) w (fun y => { y with dir := .none })
  | none => s

/-- The directory state of a DPA line settled, at its home. -/
def State.settleLine (s : State) (dpa : Nat) : State := s.settleDir (homeOf s.density dpa).1 (homeOf s.density dpa).2

/-! ## Waiting (R193, R256)

A command whose accesses are all made in one step waits as a whole: where one of them meets a channel held for retraining,
or a line whose directory state it must first see settle, the step changes nothing but the lines whose replica it asks to
invalidate, and the command is given again. -/

/-- The directory state of a home line. -/
def State.dirOf (s : State) (x n : Nat) : Dir :=
  match s.findWay x n false with
  | some w => (s.way (wayKey x (setOf n) w)).dir
  | none => .none

def State.setDir (s : State) (x n : Nat) (d : Dir) : State :=
  match s.findWay x n false with
  | some w => (s.updWay x (setOf n) w (fun y => { y with dir := d })).tagWrite x (setOf n) w
  | none => s

/-- An invalidate of a home line's replica is sent to the partner slice, on HIGH (R193, R234). -/
def State.askInvalidate (s : State) (x n : Nat) : State :=
  (s.setDir x n .invalidating).signalUnits .invalidate (unitUcSlice x) (unitUcSlice (x ^^^ 256))

/-- A read that finds FILLING or INVALIDATING waits (R193). -/
def State.holdRead (s : State) (x n : Nat) : State :=
  match s.dirOf x n with
  | .none | .replica => s
  | .filling | .invalidating => s.holdAt none

/-- A write waits for NONE; one that finds REPLICA has an invalidate sent (R193). -/
def State.holdWrite (s : State) (x n : Nat) : State :=
  match s.dirOf x n with
  | .none => s
  | .filling | .invalidating => s.holdAt none
  | .replica =>
    let s := s.holdAt none
    if s.uc.mayWait then { s with uc := { s.uc with wants := s.uc.wants ++ [(x, n)] } } else s

/-- A line released, flushed or evicted through an owner's step waits likewise; the DPA names it. -/
def State.holdLine (s : State) (dpa : Nat) : State :=
  s.holdWrite (homeOf s.density dpa).1 (homeOf s.density dpa).2

/-- No access is held, and none may wait: the state between steps. -/
def Uc.calm (u : Uc) : Uc := { u with mayWait := false, held := false, heldBy := none, wants := [] }

/-- The same waiting as before a step within this one. -/
def Uc.waitAs (u old : Uc) : Uc :=
  { u with mayWait := old.mayWait, held := old.held, heldBy := old.heldBy, wants := old.wants }

/-- Runs a step whose accesses can wait. -/
def State.trial (s : State) (f : State → State) : State := f { s with uc := { s.uc.calm with mayWait := true } }

/-- A step whose accesses can wait: all of it, or nothing but the invalidates it asks for. -/
def State.settled (s : State) (f : State → State) : State :=
  let t := s.trial f
  if t.uc.held then t.uc.wants.foldl (fun s e => s.askInvalidate e.1 e.2) s
  else { t with uc := t.uc.waitAs s.uc }

/-- The sectors that a write must make valid first, with the line's bytes: held, empty, or fetched (Table 11.3); none where
the fetch meets poison. -/
def State.writeBase (s : State) (x n : Nat) (y : Way) (owner : Nat) (full empty : Bool) (st : LineState)
    (need : BitVec 4) : State × Option (BitVec 4 × Bytes) :=
  let old := bytesAt y.data 0 128
  if y.valid = 15 ∨ full then (s, some (y.valid, old))
  else if empty then (s, some (15, mergeBytes zeroLine old (sectorBytes y.valid)))
  else if st = .poisoned then (s, none)
  else if need = 0 then (s, some (y.valid, old))
  else
    match s.lineFetch x n (popCount 4 need.toNat) with
    | (s, .data b) =>
      (s.countSectors x owner 0 (popCount 4 need.toNat),
        some (y.valid ||| need, mergeBytes old b (sectorBytes need)))
    | (s, _) => (s, none)

/-- The way a write goes to: the one found, or one claimed and filled with the line's bytes. -/
def State.writePlace (s : State) (x n : Nat) (found : Option Nat) (y : Way) (owner : Nat) (valid : BitVec 4)
    (bytes : Bytes) : State × Option Nat :=
  match found with
  | some w => (s, some w)
  | none => match s.claimWay x n owner with
    | (s, some w) => (s.installWay x (setOf n) w { y with data := bytes, valid := valid }, some w)
    | (s, none) => (s, none)

/-- The masked bytes written, to the way or, with none to be had, to the channel. Sectors that the way `had` and that no
byte touches are not written. -/
def State.writeInto (s : State) (x n : Nat) (place : Option Nat) (had valid touched : BitVec 4) (new data : Bytes)
    (mask : BitVec 128) : State × WriteAns :=
  let set := setOf n
  match place with
  | some w =>
    let s := s.putSectors x set w ((valid &&& ~~~had) ||| touched) new
    let s := s.updWay x set w (fun y => { y with dirty := y.dirty ||| touched, released := false })
    ((s.tagWrite x set w).touchWay x set w, .ok)
  | none =>
    let (s, refused) := s.chanWrite (chanOfUcSlice x) (chanLine x n) data mask
    (s, if refused then .poison else .ok)

/-- A write of some bytes of line n, its tags read and the sectors it reads checked. -/
def State.writeSectors (s : State) (x n : Nat) (data : Bytes) (mask : BitVec 128) (part : BitVec 4) (log : Bool) :
    State × WriteAns :=
  let dpa := dpaOf s.density x n
  let owner := (s.ownerOf dpa).getD 0
  let found := s.findWay x n false
  let y := s.foundWay x n
  let st := s.lineState (chanOfUcSlice x) (chanLine x n)
  let empty := y.released || decide (st = .unwritten) || decide (st = .released)
  match s.writeBase x n y owner (decide (mask = BitVec.allOnes 128)) empty st (part &&& ~~~y.valid) with
  | (s, none) => (s, .poison)
  | (s, some (valid, bytes)) =>
    let (s, place) := s.writePlace x n found y owner valid bytes
    let had : BitVec 4 := if found.isSome then y.valid else 0
    let (s, ans) := s.writeInto x n place had valid (touchedSectors mask) (mergeBytes bytes data mask) data mask
    if ans = .ok ∧ log then (s.logDevice owner x dpa, ans) else (s, ans)

/-- A write of the masked bytes of line n at its home slice (R195, Table 11.3), its replica already gone. -/
def State.ucWrite (s : State) (x n : Nat) (data : Bytes) (mask : BitVec 128) (log : Bool) : State × WriteAns :=
  match s.homeShield x with
  | some (d, a) => (s, .shield d a)
  | none =>
    let s := s.checkTags x (setOf n)
    match s.homeShield x with
    | some (d, a) => (s, .shield d a)
    | none =>
      if mask = 0 then (s, .ok)
      else
        let part := touchedSectors mask &&& ~~~(wholeSectors mask)
        (s.checkFound x n part).writeSectors x n data mask part log

/-! ## PAIRED lines (R192, R193) -/

/-- The line lies in a PAIRED range. -/
def State.pairedLine (s : State) (dpa : Nat) : Bool :=
  match s.ownerOf dpa with
  | some i => match findDpa (s.slice i).defn.ranges dpa with
    | some r => decide (r.policy = .paired)
    | none => false
  | none => false

/-- The requester stands in the other half from the home slice; quoin dies stand in neither. -/
def otherHalf (x : Nat) (half : Option Nat) : Bool :=
  match half with
  | some h => decide (h ≠ dieHalf (dieOfUcSlice x))
  | none => false

/-- Installs a replica of a home line at the partner slice with all the home's valid data; the answer says whether the
partner claimed a way. -/
def State.installReplica (s : State) (x n : Nat) : State × Bool :=
  let s := s.checkFound x n 15
  match s.findWay x n false with
  | none => (s, false)
  | some w =>
    let y := s.way (wayKey x (setOf n) w)
    let p := x ^^^ 256
    let set := setOf n
    -- the fill crosses the bridge of its own column (R231)
    let s := s.carry [(6 + dieCol (dieOfUcSlice x), dieHalf (dieOfUcSlice x))] (32 * popCount 4 y.valid.toNat)
    match s.findWay p n true with
    | some v => ((s.putSectors p set v y.valid (bytesAt y.data 0 128)).touchWay p set v, true)
    | none =>
      match s.claimWay p n y.owner with
      | (s, some v) =>
        let s := s.installWay p set v { tag := y.tag, owner := y.owner, valid := y.valid, replica := true }
        (s.putSectors p set v y.valid (bytesAt y.data 0 128), true)
      | (s, none) => (s, false)

/-- A read at the partner slice: a replica's hit. -/
def State.replicaHit (s : State) (x n : Nat) (secs : BitVec 4) : Option (State × Bytes) :=
  let p := x ^^^ 256
  let s := match s.findWay p n true with
    | some w => s.checkSectors p (setOf n) w secs
    | none => s
  match s.findWay p n true with
  | some w =>
    let y := s.way (wayKey p (setOf n) w)
    if secs &&& ~~~y.valid = 0 then
      some ((s.touchWay p (setOf n) w).countSectors p y.owner (popCount 4 secs.toNat) 0, bytesAt y.data 0 128)
    else none
  | none => none

/-- Data of a read goes from a slice's die to its requester. -/
def State.sendData (s : State) (x place : Nat) (secs : BitVec 4) : State :=
  s.bulk (dieOfUcSlice x) place (32 * popCount 4 secs.toNat) true

/-- Data of a read that missed at the partner slice, where no way of the home holds the line: it crosses to the partner in
its own column, and goes on from there (R192, R231). -/
def State.sendAcross (s : State) (x place : Nat) (secs : BitVec 4) : State :=
  (s.carry [(6 + dieCol (dieOfUcSlice x), dieHalf (dieOfUcSlice x))] (32 * popCount 4 secs.toNat) true).sendData (x ^^^ 256) place secs

/-- A read at the home slice for a requester at a place. -/
def State.homeRead (s : State) (x n : Nat) (secs : BitVec 4) (place : Nat) : State × LineAns :=
  match (s.holdRead x n).ucRead x n secs with
  | (s, .data b rar) => (s.sendData x place secs, .data b rar)
  | r => r

/-- A read at the partner slice that found no replica: the home slice answers, and its valid data become a replica unless
the line is RELEASED (R192). -/
def State.partnerRead (s : State) (x n : Nat) (secs : BitVec 4) (place : Nat) : State × LineAns :=
  match (s.holdRead x n).ucRead x n secs with
  | (s, .data b rar) =>
    match s.findWay x n false with
    | some w =>
      let y := s.way (wayKey x (setOf n) w)
      if !rar && (decide (y.dir = .none) || decide (y.dir = .replica)) && !y.released then
        let (s, installed) := s.installReplica x n
        let s := s.sendData (x ^^^ 256) place secs
        (if installed then s.updWay x (setOf n) w (fun y => { y with dir := .replica }) else s, .data b rar)
      else (s.sendData x place secs, .data b rar)
    | none => (if rar then s.sendData x place secs else s.sendAcross x place secs, .data b rar)
  | r => r

/-- A read at the partner slice of a line's home: its replica's answer, else the home's (R191, R192). -/
def State.otherRead (s : State) (x n : Nat) (secs : BitVec 4) (place : Nat) : State × LineAns :=
  match s.homeShield (x ^^^ 256) with
  | some (d, a) => (s, .shield d a)
  | none =>
    let s := s.checkTags (x ^^^ 256) (setOf n)
    match s.homeShield (x ^^^ 256) with
    | some (d, a) => (s, .shield d a)
    | none =>
      match s.replicaHit x n secs with
      | some (s, b) => (s.sendData (x ^^^ 256) place secs, .data b false)
      | none => s.partnerRead x n secs place

/-- A read of sectors of a DPA line for a requester at a place, all in one step: at its home slice, or at the partner slice
for a reader of the other half (R191, R192). `direct` is a read that bypasses replicas. -/
def State.lineRead (s : State) (dpa : Nat) (secs : BitVec 4) (place : Nat) (direct : Bool) : State × LineAns :=
  let h := homeOf s.density dpa
  if direct || !(otherHalf h.1 (halfOf place)) || !(s.pairedLine dpa) then s.homeRead h.1 h.2 secs place
  else s.otherRead h.1 h.2 secs place

/-- A write of masked bytes of a DPA line from a place, all in one step, with its replica invalidated first (R193). -/
def State.writeAt (s : State) (x n : Nat) (data : Bytes) (mask : BitVec 128) (log : Bool) (place : Nat) :
    State × WriteAns :=
  let s := s.bulk place (dieOfUcSlice x) (popCount 128 mask.toNat)
  match s.homeShield x with
  | some (d, a) => (s, .shield d a)
  | none => ((s.holdWrite x n).settleDir x n).ucWrite x n data mask log

/-- The write of masked bytes of a DPA line, at its home. -/
def State.lineWrite (s : State) (dpa : Nat) (data : Bytes) (mask : BitVec 128) (log : Bool) (place : Nat) :
    State × WriteAns :=
  s.writeAt (homeOf s.density dpa).1 (homeOf s.density dpa).2 data mask log place

/-! ## RELEASE, owner change and flush of a line -/

/-- Drops a home line and its replica without write-back. -/
def State.dropLine (s : State) (x n : Nat) : State :=
  let s := s.dropReplica x n
  match s.findWay x n false with
  | some w => s.dropWay x (setOf n) w
  | none => s

/-- The fresh blocks that a test selects lose their cache lines without write-back and become fresh (R45, R199, R251). -/
def State.freshenWhere (s : State) (sel : Nat → Bool) : State :=
  let d := s.density
  let hit := s.uc.ways.filter (fun e =>
    let x := e.1 / 24576
    e.2.holds && sel (dpaOf d (e.2.home x) (e.2.line (e.1 % 24576 / 16)) / 0x200000))
  let s := hit.foldl (fun s e => if e.2.replica then s
    else s.holdWrite (e.1 / 24576) (e.2.line (e.1 % 24576 / 16))) s
  let s := hit.foldl (fun s e => s.dropWay (e.1 / 24576) (e.1 % 24576 / 16) (e.1 % 16)) s
  let was := s.mem.notFresh.filter (fun e => sel (e.1 % 2 ^ 21))
  let s := { s with mem := { s.mem with notFresh := s.mem.notFresh.filter (fun e => !sel (e.1 % 2 ^ 21)) } }
  -- the bitmap words of the channels that set bits are written: 64 bits of it each (R251)
  ((was.map (fun e => (e.1 / 2 ^ 21, e.1 % 2 ^ 21 / 64))).eraseDups).foldl (fun s e => s.bitmapWrite e.1) s

/-- A RELEASE of one line (R199, R252): dropped at its home slice; one that held data becomes RELEASED. The answer says
whether it did. -/
def State.releaseAt (s : State) (x n : Nat) : State × Bool :=
  let c := chanOfUcSlice x
  let q := chanLine x n
  let s := s.holdWrite x n
  let dirty := match s.findWay x n false with
    | some w => decide ((s.way (wayKey x (setOf n) w)).dirty ≠ 0)
    | none => false
  let s := s.dropLine x n
  let st := s.lineState c q
  if dirty || decide (st = .written) || decide (st = .poisoned) then
    let s := if dirty then s.openShare c (s.blockOfLine c q) else s
    (s.setLineState c q .released, true)
  else (s, false)

/-- The RELEASE of one DPA line, at its home. -/
def State.releaseLine (s : State) (dpa : Nat) : State × Bool :=
  s.releaseAt (homeOf s.density dpa).1 (homeOf s.density dpa).2

/-- Writes a dirty home line to LPDDR5X and keeps it valid and clean (R224); the answer says whether it was dirty. -/
def State.flushAt (s : State) (x n : Nat) : State × Bool :=
  match s.findWay x n false with
  | some w =>
    if (s.way (wayKey x (setOf n) w)).dirty = 0 then (s, false) else (s.writeBackWay x (setOf n) w, true)
  | none => (s, false)

/-- The flush of one DPA line, at its home. -/
def State.flushLine (s : State) (dpa : Nat) : State × Bool :=
  s.flushAt (homeOf s.density dpa).1 (homeOf s.density dpa).2

end Sys2Proof.Machine
end

