-- ==== Sys2Proof/Machine/Flags.lean ====
section
/-! DEFINITION. The fifteen element formats, exact values, rounding and every conversion, with the flags a conversion
sets (spec/06 R137 to R143), and the binary32 primitives of spec/07 R166. -/

namespace Sys2Proof.Machine

/-- The element formats in code order (Table 6.1). -/
inductive Fmt where
  | i4 | f4 | f6a | f6b | i8 | u8 | f8a | f8b | i16 | h16 | b16 | f12q | i32 | f32 | i64
deriving DecidableEq, Repr

/-- The format of a code; code 0xF is reserved (R137). -/
def Fmt.ofCode (n : Nat) : Option Fmt :=
  [.i4, .f4, .f6a, .f6b, .i8, .u8, .f8a, .f8b, .i16, .h16, .b16, .f12q, .i32, .f32, .i64][n]?

/-- Width of an element in bits (Table 6.1). -/
def Fmt.bits : Fmt → Nat
  | .i4 | .f4 => 4 | .f6a | .f6b => 6 | .i8 | .u8 | .f8a | .f8b => 8 | .i16 | .h16 | .b16 => 16
  | .f12q => 12 | .i32 | .f32 => 32 | .i64 => 64

/-- The kind of a format is integer or float (R137). -/
def Fmt.isFloat : Fmt → Bool
  | .i4 | .i8 | .u8 | .i16 | .i32 | .i64 => false
  | _ => true

/-- May be a slab operand (Table 6.1). -/
def Fmt.slabOperand : Fmt → Bool
  | .i32 | .i64 => false
  | _ => true

/-- May be a slab output (Table 6.1). -/
def Fmt.slabOutput : Fmt → Bool
  | .i64 => false
  | _ => true

/-- Permits block scaling (R140). -/
def Fmt.blockable : Fmt → Bool
  | .f4 | .f6a | .f6b | .f8a | .f8b | .i8 => true
  | _ => false

/-- Largest element exponent of output block scaling (Table 6.4). -/
def Fmt.emax : Fmt → Int
  | .f4 => 2 | .f6a => 4 | .f6b => 2 | .f8a => 8 | .f8b => 15 | _ => 0

/-- Exponent bits, fraction bits and bias of a float format (Table 6.2). -/
def Fmt.layout : Fmt → Nat × Nat × Nat
  | .f4 => (2, 1, 1) | .f6a => (3, 2, 3) | .f6b => (2, 3, 1) | .f8a => (4, 3, 7) | .f8b => (5, 2, 15)
  | .h16 => (5, 10, 15) | .b16 => (8, 7, 127) | .f12q => (5, 6, 15) | .f32 => (8, 23, 127)
  | _ => (0, 0, 0)

/-- Has infinities, e all ones and f = 0 (Table 6.3). -/
def Fmt.hasInf : Fmt → Bool
  | .f8b | .h16 | .b16 | .f12q | .f32 => true
  | _ => false

/-- The canonical NaN of a format that has one (Table 6.3). -/
def Fmt.canonicalNan : Fmt → Option Nat
  | .f8a => some 0x7F | .f8b => some 0x7E | .h16 => some 0x7E00 | .b16 => some 0x7FC0 | .f12q => some 0x7E0
  | .f32 => some 0x7FC00000 | _ => none

/-- The encoding of the largest finite value (Table 6.3). -/
def Fmt.maxFinite : Fmt → Nat
  | .f4 => 0x7 | .f6a => 0x1F | .f6b => 0x1F | .f8a => 0x7E | .f8b => 0x7B | .h16 => 0x7BFF | .b16 => 0x7F7F
  | .f12q => 0x7BF | .f32 => 0x7F7FFFFF | .i4 => 7 | .i8 => 127 | .u8 => 255 | .i16 => 32767
  | .i32 => 2 ^ 31 - 1 | .i64 => 2 ^ 63 - 1

/-- The least value of an integer format. -/
def Fmt.minInt : Fmt → Int
  | .i4 => -8 | .i8 => -128 | .i16 => -32768 | .i32 => -2147483648 | .i64 => -9223372036854775808 | _ => 0

/-- An exact value: NaN, an infinity, or a signed exact rational num / den (den nonzero; zero keeps a sign). -/
inductive Val where
  | nan
  | inf (neg : Bool)
  | fin (neg : Bool) (num den : Nat)
deriving DecidableEq, Repr

/-- num × 2^e as an exact value. -/
def Val.dyadic (neg : Bool) (num : Nat) (e : Int) : Val :=
  if 0 ≤ e then .fin neg (num * 2 ^ e.toNat) 1 else .fin neg num (2 ^ (-e).toNat)

/-- An integer as an exact value. -/
def Val.ofInt (z : Int) : Val := .fin (decide (z < 0)) z.natAbs 1

/-- Zero of either sign. -/
def Val.isZero : Val → Bool
  | .fin _ n _ => n == 0
  | _ => false

/-- The value of an encoding (R138, Table 6.3). -/
def Fmt.decode (f : Fmt) (x : Nat) : Val :=
  if f.isFloat then
    let (eb, mb, bias) := f.layout
    let s := bitAt x (eb + mb)
    let e := bitsOf x (eb + mb - 1) mb
    let fr := x % 2 ^ mb
    if f = .f8a && e = 15 && fr = 7 then .nan
    else if f.hasInf && e = 2 ^ eb - 1 then (if fr = 0 then .inf s else .nan)
    else if e = 0 then Val.dyadic s fr (1 - (bias : Int) - mb)
    else Val.dyadic s (2 ^ mb + fr) ((e : Int) - bias - mb)
  else if f = .u8 then .fin false (x % 256) 1
  else Val.ofInt (signedOf f.bits (x % 2 ^ f.bits))

/-- floor(log2 (num / den)) of a positive rational. -/
def floorLog2 (num den : Nat) : Int :=
  let e : Int := (Nat.log2 num : Int) - Nat.log2 den
  let geq : Bool := if 0 ≤ e then decide (den * 2 ^ e.toNat ≤ num) else decide (den ≤ num * 2 ^ (-e).toNat)
  if geq then e else e - 1

/-- Rounding mode and draw: round to nearest even, or stochastic with the 16-bit draw of the element (R142, R143). -/
inductive Round where
  | rne
  | sr (draw : Nat)
deriving DecidableEq, Repr

/-- The quotient num / (den × 2^u), rounded to an integer by `mode`: round_mag of R142 in units of the ulp. -/
def roundMag (mode : Round) (num den : Nat) (u : Int) : Nat :=
  let n := if 0 ≤ u then num else num * 2 ^ (-u).toNat
  let d := if 0 ≤ u then den * 2 ^ u.toNat else den
  let lo := n / d
  let rem := n % d
  if rem = 0 then lo else
  match mode with
  | .rne => if d < 2 * rem || (d = 2 * rem && lo % 2 = 1) then lo + 1 else lo
  | .sr draw => if 65536 ≤ rem * 65536 / d + draw then lo + 1 else lo

/-- The stochastic draw of element i (R143). -/
def srDraw (seed i : Nat) : Nat :=
  let x : W64 := BitVec.ofNat 64 (seed + (i + 1) * 0x9E3779B97F4A7C15)
  let x := (x ^^^ (x >>> 30)) * 0xBF58476D1CE4E5B9#64
  let x := (x ^^^ (x >>> 27)) * 0x94D049BB133111EB#64
  let x := x ^^^ (x >>> 31)
  x.toNat % 65536

/-- The rounding of element i under ROUND and SEED (R143). -/
def roundOf (sr : Bool) (seed i : Nat) : Round := if sr then .sr (srDraw seed i) else .rne

/-- The flags a conversion sets (R141). -/
structure ConvFlags where
  saturated : Bool := false
  nanToZero : Bool := false
  infOut : Bool := false
  nanOut : Bool := false
deriving DecidableEq, Repr

/-- Flags are sticky over the outputs of a run (R153). -/
def ConvFlags.or (a b : ConvFlags) : ConvFlags :=
  { saturated := a.saturated || b.saturated, nanToZero := a.nanToZero || b.nanToZero,
    infOut := a.infOut || b.infOut, nanOut := a.nanOut || b.nanOut }

/-- The four flags in bit order (R153, R179). -/
def ConvFlags.toNat (f : ConvFlags) : Nat :=
  ofBool f.saturated + 2 * ofBool f.nanToZero + 4 * ofBool f.infOut + 8 * ofBool f.nanOut

/-- An encoding with a sign bit set on a float magnitude. -/
def Fmt.signed (f : Fmt) (neg : Bool) (mag : Nat) : Nat :=
  if neg then mag + 2 ^ (f.bits - 1) else mag

/-- What overflow gives under SAT = 0, by the overflow column of Table 6.3, and under SAT = 1 (R141 step 4). -/
def Fmt.overflow (f : Fmt) (sat neg : Bool) : Nat × ConvFlags :=
  if !sat && f.hasInf then
    let (eb, mb, _) := f.layout
    (f.signed neg ((2 ^ eb - 1) * 2 ^ mb), { infOut := true })
  else if !sat && f = .f8a then (0x7F, { nanOut := true })
  else (f.signed neg f.maxFinite, { saturated := true })

/-- Conversion of an exact value to a float format (R141). -/
def convertFloat (f : Fmt) (sat : Bool) (mode : Round) : Val → Nat × ConvFlags
  | .nan => match f.canonicalNan with
    | some n => (n, { nanOut := true })
    | none => (0, { nanToZero := true })
  | .inf neg => f.overflow sat neg
  | .fin neg num den =>
    if num = 0 then (f.signed neg 0, {}) else
    let (_, mb, bias) := f.layout
    let lowE : Int := 1 - (bias : Int)
    let e := max (floorLog2 num den) lowE
    let q := roundMag mode num den (e - mb)
    -- q counts units of 2^(e - mb); a carry to 2^(mb + 1) is the next exponent
    let mag := if q < 2 ^ mb then q else (e - lowE).toNat * 2 ^ mb + q
    if f.maxFinite < mag then f.overflow sat neg else (f.signed neg mag, {})

/-- Conversion of an exact value to an integer format (R141): NaN gives 0, everything clamps to the range. -/
def convertInt (f : Fmt) (mode : Round) : Val → Nat × ConvFlags
  | .nan => (0, { nanToZero := true })
  | .inf neg => (unsignedOf f.bits (if neg then f.minInt else f.maxFinite), { saturated := true })
  | .fin neg num den =>
    let q : Int := roundMag mode num den 0
    let z := if neg then -q else q
    if z < f.minInt then (unsignedOf f.bits f.minInt, { saturated := true })
    else if (f.maxFinite : Int) < z then (f.maxFinite, { saturated := true })
    else (unsignedOf f.bits z, {})

/-- Conversion of an exact value to any format (R141). -/
def convert (f : Fmt) (sat : Bool) (mode : Round) (v : Val) : Nat × ConvFlags :=
  if f.isFloat then convertFloat f sat mode v else convertInt f mode v

/-- Binary32 by RNE with overflow to infinities. -/
def toF32 (v : Val) : Nat := (convertFloat .f32 false .rne v).1

/-- The canonical NaN of F32. -/
def f32Nan : Nat := 0x7FC00000

/-- The exact value of an F32 word. -/
def ofF32 (x : Nat) : Val := Fmt.decode .f32 x

/-- The negation of an exact value. -/
def Val.neg : Val → Val
  | .nan => .nan
  | .inf s => .inf (!s)
  | .fin s n d => .fin (!s) n d

/-- Exact product; NaN for 0 × ∞. -/
def Val.mul : Val → Val → Val
  | .nan, _ => .nan
  | _, .nan => .nan
  | .inf s, .inf t => .inf (s != t)
  | .inf s, .fin t n _ => if n = 0 then .nan else .inf (s != t)
  | .fin s n _, .inf t => if n = 0 then .nan else .inf (s != t)
  | .fin s n d, .fin t m e => .fin (s != t) (n * m) (d * e)

/-- Exact sum; NaN for ∞ − ∞; an exact zero of unlike signs is +0, as RNE gives it. -/
def Val.add : Val → Val → Val
  | .nan, _ => .nan
  | _, .nan => .nan
  | .inf s, .inf t => if s = t then .inf s else .nan
  | .inf s, .fin _ _ _ => .inf s
  | .fin _ _ _, .inf t => .inf t
  | .fin s n d, .fin t m e =>
    let a : Int := (if s then -(n : Int) else n) * e
    let b : Int := (if t then -(m : Int) else m) * d
    let z := a + b
    if z = 0 then .fin (s && t) 0 1 else .fin (decide (z < 0)) z.natAbs (d * e)

/-- f32_add: binary32 addition by RNE; NaN results are canonical (R166). -/
def f32Add (a b : Nat) : Nat := toF32 ((ofF32 a).add (ofF32 b))

/-- f32_fma: binary32 fused multiply-add by RNE (R166). -/
def f32Fma (a b c : Nat) : Nat := toF32 (((ofF32 a).mul (ofF32 b)).add (ofF32 c))

/-- The comparison of values as real numbers, NaN below −∞ and NaNs equal (R171). -/
def Val.lt : Val → Val → Bool
  | .nan, .nan => false
  | .nan, _ => true
  | _, .nan => false
  | .inf s, .inf t => s && !t
  | .inf s, .fin _ _ _ => s
  | .fin _ _ _, .inf t => !t
  | .fin s n d, .fin t m e =>
    decide ((if s then -(n : Int) else n) * e < (if t then -(m : Int) else m) * d)

/-- NaN. -/
def Val.isNan : Val → Bool
  | .nan => true
  | _ => false

/-- acc / n exactly (n nonzero), rounded once; NaN and infinities pass through (R166). -/
def f32DivNat (a n : Nat) : Nat :=
  match ofF32 a with
  | .fin s num den => toF32 (.fin s num (den * n))
  | _ => a

/-- The scale exponent's power of two: multiplies an exact value by 2^e. -/
def Val.scale2 (v : Val) (e : Int) : Val :=
  match v with
  | .fin s n d => if 0 ≤ e then .fin s (n * 2 ^ e.toNat) d else .fin s n (d * 2 ^ (-e).toNat)
  | v => v

/-- Taylor sum of exp(−x) in units of 2^-400, x in units of 2^-400 below 2^400: alternating terms x^k / k!. -/
def expTaylor (x : Nat) : Nat → Nat → Int → Int → Int
  | 0, _, _, acc => acc
  | fuel + 1, k, term, acc =>
    let t := -(term * x) / (2 ^ 400 * (k + 1))
    expTaylor x fuel (k + 1) t (acc + t)

/-- exp(d) correctly rounded to F32 by RNE for an F32 d ≤ 0 (R175). The reduced argument d / 2^k lies in [0, 1); its
exponential is computed to about 390 bits and squared k times, far beyond the distance of exp of any F32 value from a
rounding boundary. -/
def f32Exp (d : Nat) : Nat :=
  match ofF32 d with
  | .nan => f32Nan
  | .inf true => 0
  | .inf false => 0x7F800000
  | .fin neg num den =>
    if num = 0 then 0x3F800000
    else if num / den ≥ 128 then (if neg then 0 else 0x7F800000) else
    let x := num * 2 ^ 392 / den
    -- x / 2^392 = |d|, so x / 2^400 = |d| / 256 < 1
    let e0 := expTaylor x 90 0 (2 ^ 400) (2 ^ 400)
    let e := (List.range 8).foldl (fun (a : Nat) _ => a * a / 2 ^ 400) e0.toNat
    if neg then toF32 (.fin false e (2 ^ 400)) else toF32 (.fin false (2 ^ 400) e)

end Sys2Proof.Machine
end

