-- ==== Sys2Proof/Machine/Access.lean ====
section
/-! DEFINITION. Accesses through the course ranges (spec/02 R30, spec/09 R210 to R212): requests of gangs at their home
slice, atomics (R216), and the reads and writes of whole-step engines. -/

namespace Sys2Proof.Machine

/-! ## Atomics (Table 9.3) -/

/-- The value of an integer operand of `w` bits under its kind. -/
def atomicVal (kind : AtomicKind) (w n : Nat) : Int :=
  match kind with
  | .i32 | .i64 => signedOf w n
  | _ => (n : Int)

/-- The new value of an atomic and whether it writes. -/
def atomicNew (op : AtomicOp) (kind : AtomicKind) (w old a cmp : Nat) : Nat × Bool :=
  match op with
  | .add => (if kind = .f32 then f32Add old a else (old + a) % 2 ^ w, true)
  | .min => (if atomicVal kind w a < atomicVal kind w old then a else old, true)
  | .max => (if atomicVal kind w old < atomicVal kind w a then a else old, true)
  | .and => (old &&& a, true)
  | .or => (old ||| a, true)
  | .xor => (old ^^^ a, true)
  | .exchange => (a, true)
  | .compareExchange => (a, old == cmp)

/-- An atomic at the home slice of its line (R216): the old value, or why it could not be read or written. -/
inductive AtomicAns where
  | old (v : Nat) (rar : Bool)
  | bad (cause : Nat)
  | poison
  | shield (detail arg : Nat)
deriving DecidableEq, Repr

/-- The write of an atomic's new value, answering with the old one. -/
def State.atomicWrite (s : State) (x n off w new old : Nat) (rar : Bool) : State × AtomicAns :=
  match s.ucWrite x n (List.replicate off 0 ++ leBytes w new) (maskOf off w) true with
  | (s, .ok) => (s, .old old rar)
  | (s, .poison) => (s, .poison)
  | (s, .shield d i) => (s, .shield d i)

/-- An atomic of w bytes at an offset of line n at its home slice: the read, the operation and the write. -/
def State.atomicHome (s : State) (x n off w : Nat) (op : AtomicOp) (kind : AtomicKind) (a cmp : Nat) : State × AtomicAns :=
  match s.ucRead x n (sectorsOf off w) with
  | (s, .bad c) => (s, .bad c)
  | (s, .shield d i) => (s, .shield d i)
  | (s, .data b rar) =>
    let old := leAt b off w
    let r := atomicNew op kind (8 * w) old (a % 2 ^ (8 * w)) (cmp % 2 ^ (8 * w))
    if r.2 then s.atomicWrite x n off w r.1 old rar else (s, .old old rar)

/-- Performs an atomic of `w` bytes at a DPA in one step; the line's directory state is already NONE. -/
def State.atomicAt (s : State) (dpa w : Nat) (op : AtomicOp) (kind : AtomicKind) (a cmp : Nat) : State × AtomicAns :=
  let h := homeOf s.density (dpa / 128 * 128)
  s.atomicHome h.1 h.2 (dpa % 128) w op kind a cmp

/-! ## Requests -/

/-- An instruction's lanes in ascending order. -/
def byLane (accs : List LaneAcc) : List LaneAcc :=
  (List.range 32).flatMap (fun l => accs.filter (fun a => decide (a.lane.val = l)))

/-- The bytes of a line that a request's lanes access: line offset and, for a store, the byte; higher lanes last (R211). -/
def reqBytes (tva : Nat) (accs : List LaneAcc) : List (Nat × Byte) :=
  let line := tva / 128 * 128
  (byLane accs).flatMap (fun a => (List.range a.size).filterMap (fun i =>
    let p := a.addr.toNat + i
    if line ≤ p ∧ p < line + 128 then some (p - line, a.data.getD i 0) else none))

def reqMask (tva : Nat) (accs : List LaneAcc) : BitVec 128 :=
  (reqBytes tva accs).foldl (fun m e => m ||| (1#128 <<< e.1)) 0

def reqData (tva : Nat) (accs : List LaneAcc) : Bytes :=
  (reqBytes tva accs).foldl (fun d e => d.set e.1 e.2) zeroLine

/-- Requests whose taker ends stay outstanding: their replies are discarded, or dropped as they come (R78). -/
def State.orphan (s : State) (sel : Req → Bool) : State :=
  { s with reqs := Tbl.mapVals s.reqs (fun _ r => if sel r then { r with dead := true, parked := false } else r) }

/-- Gives a request its answer, stamped with its responder's epoch (R78). -/
def State.answerReq (s : State) (rid : Nat) (a : Answer) : State :=
  match Tbl.find? s.reqs rid with
  | some r => s.setReq rid { r with answer := some a, respEpoch := s.unitEpoch r.responder, missed := false }
  | none => s

/-- A contained fault of a gang's request: its command stops, and the request's answer says so. -/
def State.faultReq (s : State) (rid : Nat) (r : Req) (code : Nat) (f : FaultInfo) : State :=
  (s.cmdFault r.cmd r.unit code f).answerReq rid .fault

/-- Delivers a home slice's data to a read request; a read-after-release with RAR_FAULT set stops its command (R201). -/
def State.answerRead (s : State) (rid : Nat) (r : Req) (b : Bytes) (rar : Bool) : State :=
  if rar && (s.slice r.slice).defn.rarFault then
    s.faultReq rid r fcRar { unit := r.unit, addr := some r.dpa, tva := some (r.tva / 128 * 128) }
  else s.answerReq rid (.data b)

/-- An uncorrectable read (R300, Table 13.2). -/
def State.badRead (s : State) (rid : Nat) (r : Req) (cause : Nat) : State :=
  s.faultReq rid r fcUncorrectable
    { unit := r.unit, addr := some r.dpa, tva := some (r.tva / 128 * 128), info0 := cause }

/-- A refused write to a POISONED line: reported to the writer, which goes on (Table 11.3, R300). -/
def State.poisonWrite (s : State) (slice cmd unit dpa tva : Nat) : State :=
  s.raise fcPoisonWrite { unit := unit, slice := some slice, cmd := some cmd, addr := some dpa, tva := some tva,
                          refuses := some tva }

/-- A request enters the domain of its home and waits there: the shield records it in this order (R77). -/
def State.enterReq (s : State) (rid : Nat) : State :=
  match Tbl.find? s.reqs rid with
  | some r =>
    if r.entered.isSome then s
    else { s.setReq rid { r with entered := some s.uc.arrivals } with uc := { s.uc with arrivals := s.uc.arrivals + 1 } }
  | none => s

/-- A request waits at the home slice behind the line's transition (R193). -/
def State.waitReq (s : State) (rid : Nat) : State :=
  if s.uc.waiting.contains rid then s
  else { s.enterReq rid with uc := { (s.enterReq rid).uc with waiting := s.uc.waiting ++ [rid] } }

def State.unwaitReq (s : State) (rid : Nat) : State :=
  { s with uc := { s.uc with waiting := s.uc.waiting.filter (· != rid) } }

/-- A read request at line n of its home slice, and its answer. -/
def State.applyRead (s : State) (rid : Nat) (r : Req) (x n : Nat) : State :=
  let secs := touchedSectors (reqMask r.tva r.accs)
  match s.ucRead x n secs with
  | (s, .data b rar) =>
    let place := placeOf r.unit
    let s := if !r.missed || rar then s.sendData x place secs
      else if (s.findWay x n false).isNone then s.sendAcross x place secs
      else s.sendData (x ^^^ 256) place secs
    s.answerRead rid r b rar
  | (s, .bad c) => s.badRead rid r c
  | (s, .shield d a) => s.answerReq rid (.shield d a)

/-- A write request at line n of its home slice. -/
def State.applyWrite (s : State) (rid : Nat) (r : Req) (x n : Nat) : State :=
  let s := s.bulk (placeOf r.unit) (dieOfUcSlice x) (popCount 128 (reqMask r.tva r.accs).toNat)
  match s.ucWrite x n (reqData r.tva r.accs) (reqMask r.tva r.accs) true with
  | (s, .ok) => (s.signalUnits .ack (unitUcSlice x) r.unit).answerReq rid .ack
  | (s, .poison) =>
    (s.poisonWrite r.slice r.cmd r.unit r.dpa (r.tva / 128 * 128)).answerReq rid .fault
  | (s, .shield d a) => s.answerReq rid (.shield d a)

/-- The bytes an atomic request operates on. -/
def Req.atomicSize (r : Req) : Nat :=
  match r.accs with
  | e :: _ => e.size
  | [] => 4

/-- An atomic request at its home slice. -/
def State.applyAtomic (s : State) (rid : Nat) (r : Req) (x : Nat) (op : AtomicOp) (kind : AtomicKind) (a cmp : W64) : State :=
  let s := s.bulk (placeOf r.unit) (dieOfUcSlice x) r.atomicSize
  match s.atomicAt (r.dpa + r.tva % 128) r.atomicSize op kind a.toNat cmp.toNat with
  | (s, .old v rar) =>
    if rar && (s.slice r.slice).defn.rarFault then
      s.faultReq rid r fcRar { unit := r.unit, addr := some r.dpa, tva := some (r.tva / 128 * 128) }
    else (s.signalUnits .ack (unitUcSlice x) r.unit).answerReq rid (.data (leBytes r.atomicSize v))
  | (s, .bad c) => s.badRead rid r c
  | (s, .poison) =>
    (s.poisonWrite r.slice r.cmd r.unit r.dpa (r.tva / 128 * 128)).answerReq rid .fault
  | (s, .shield d a) => s.answerReq rid (.shield d a)

/-- A request's effect at its home slice once no transition holds it (R194, R195, R216). -/
def State.applyReq (s : State) (rid : Nat) (r : Req) : State :=
  let s := s.onBehalf r.cmd
  let h := homeOf s.density r.dpa
  match r.kind with
  | .read => s.applyRead rid r h.1 h.2
  | .write => s.applyWrite rid r h.1 h.2
  | .atomic op kind a cmp => s.applyAtomic rid r h.1 op kind a cmp

/-- A request takes effect at its home slice at once, out of its wait, any replica of its line settled first. -/
def State.takeNow (s : State) (rid : Nat) (r : Req) : State :=
  (((s.unwaitReq rid).holdLine r.dpa).settleLine r.dpa).applyReq rid r

/-- A read request at the partner slice of its line's home (R192): answered by a replica, else noted as missed there. -/
def State.serveOther (s : State) (rid : Nat) (r : Req) (x n : Nat) (secs : BitVec 4) : State :=
  match s.homeShield (x ^^^ 256) with
  | some (d, a) => s.answerReq rid (.shield d a)
  | none =>
    let s := s.checkTags (x ^^^ 256) (setOf n)
    match s.homeShield (x ^^^ 256) with
    | some (d, a) => s.answerReq rid (.shield d a)
    | none =>
      match s.replicaHit x n secs with
      | some (s, b) => (s.sendData (x ^^^ 256) (placeOf r.unit) secs).answerRead rid r b false
      | none => (s.setReq rid { r with missed := true }).enterReq rid

/-- A request at its home slice: what the directory says of the line decides whether it proceeds (R193). -/
def State.serveHome (s : State) (rid : Nat) (r : Req) (x n : Nat) : State :=
  match s.homeShield x with
  | some (d, a) => s.answerReq rid (.shield d a)
  | none =>
    match s.dirOf x n with
    | .filling | .invalidating => s.waitReq rid
    | .replica =>
      if r.kind = .read then s.applyReq rid r
      else (s.askInvalidate x n).waitReq rid
    | .none => s.applyReq rid r

/-- A request reaches its home slice, or, for a read of a PAIRED line from the other half, the partner slice (R192,
R193). -/
def State.serveReq (s : State) (rid : Nat) : State :=
  match Tbl.find? s.reqs rid with
  | none => s
  | some r =>
    if r.answer.isSome || r.host.isSome || r.parked then s
    else if r.dead then s.answerReq rid (.data [])
    else
      let h := homeOf s.density r.dpa
      if decide (r.kind = .read) && !r.volatile && !r.missed && otherHalf h.1 (halfOf (placeOf r.unit)) && s.pairedLine r.dpa then
        (s.onBehalf r.cmd).serveOther rid r h.1 h.2 (touchedSectors (reqMask r.tva r.accs))
      else if r.missed then s
      else s.serveHome rid r h.1 h.2

/-- A request is served, or waits in the controller of the channel that is held for retraining, in arrival order (R256). -/
def State.serveOrQueue (s : State) (rid : Nat) : State :=
  let t := s.trial (fun s => s.serveReq rid)
  if t.uc.held then match t.uc.heldBy with
    | some c => (s.enterReq rid).updChan c (fun v =>
        if v.queued.contains (.req rid) then v else { v with queued := v.queued ++ [.req rid] })
    | none => s.waitReq rid
  else { t with uc := t.uc.waitAs s.uc }

/-- The waiting requests of a line, oldest first, proceed until one must wait again (R193). -/
def serveList (line : Nat) : List Nat → State → State
  | [], s => s
  | rid :: t, s =>
    match Tbl.find? s.reqs rid with
    | none => serveList line t (s.unwaitReq rid)
    | some r =>
      if r.dpa = line then
        let s' := (s.unwaitReq rid).serveOrQueue rid
        if s'.uc.waiting.contains rid then
          { s' with uc := { s'.uc with waiting := rid :: s'.uc.waiting.filter (· != rid) } }
        else serveList line t s'
      else serveList line t s

def State.serveWaiting (s : State) (line : Nat) : State := serveList line s.uc.waiting s

/-! ## Engines whose accesses are answered within the step -/

/-- Who makes an access: its command, its slice and the unit its faults name (R305). -/
structure Agent where
  cmd : Nat
  slice : Nat
  unit : Nat

/-- An engine of a bay. -/
def bayAgent (cmd slice b : Nat) : Agent :=
  { cmd := cmd, slice := slice, unit := unitBay b }

/-- The queue and DMA engine of a quoin. -/
def quoinAgent (cmd slice : Nat) (quoin : Bool) : Agent :=
  { cmd := cmd, slice := slice, unit := unitQueue quoin }

/-- A contained fault of an engine's access. -/
def State.agFault (s : State) (g : Agent) (code : Nat) (f : FaultInfo) : State := s.cmdFault g.cmd g.unit code f

/-- A shield's answer aborts the engine's command (R76). -/
def State.agAbort (s : State) (g : Agent) (detail arg : Nat) : State :=
  s.stopCmd g.cmd { outcome := ocAborted, detail := detail, arg := arg }

/-- The DPA of a TVA, or a TRANSLATION fault (R30): `need` is 0 read, 1 write. -/
def State.agDpa (s : State) (g : Agent) (tva need : Nat) : State × Option Nat :=
  match findRange (s.slice g.slice).defn.ranges tva with
  | some r =>
    if (if need = 0 then r.canRead else r.canWrite) then (s, some (r.toDpa tva))
    else (s.agFault g fcTranslation { unit := g.unit, addr := some tva, addrTva := true, tva := some tva, info0 := need }, none)
  | none =>
    (s.agFault g fcTranslation { unit := g.unit, addr := some tva, addrTva := true, tva := some tva, info0 := need }, none)

/-- One piece of an agent's read, within one line: its bytes, or none where the agent stops. -/
def State.agReadPiece (s : State) (g : Agent) (a n dpa : Nat) : State × Option Bytes :=
  match s.lineRead (dpa / 128 * 128) (sectorsOf (a % 128) n) (placeOf g.unit) false with
  | (s, .data b rar) =>
    if rar && (s.slice g.slice).defn.rarFault then
      (s.agFault g fcRar { unit := g.unit, addr := some (dpa / 128 * 128), tva := some (a / 128 * 128) }, none)
    else (s, some (bytesAt b (a % 128) n))
  | (s, .bad c) =>
    (s.agFault g fcUncorrectable
      { unit := g.unit, addr := some (dpa / 128 * 128), tva := some (a / 128 * 128), info0 := c }, none)
  | (s, .shield d i) => (s.agAbort g d i, none)

/-- One piece of an agent's write, within one line; the answer says whether the agent goes on. -/
def State.agWritePiece (s : State) (g : Agent) (log : Bool) (a n dpa : Nat) (b : Bytes) : State × Bool :=
  let line := dpa / 128 * 128
  match s.lineWrite line (List.replicate (a % 128) 0 ++ b) (maskOf (a % 128) n) log (placeOf g.unit) with
  | (s, .ok) => (s.serveWaiting line, true)
  | (s, .poison) => ((s.poisonWrite g.slice g.cmd g.unit line (a / 128 * 128)).serveWaiting line, true)
  | (s, .shield d i) => (s.agAbort g d i, false)

/-- Reads the pieces of an access (R212); none when the command met a fault or a shield. -/
def agReadPieces (g : Agent) : List (Nat × Nat) → Bytes → State → State × Option Bytes
  | [], acc, s => (s, some acc)
  | (a, n) :: t, acc, s =>
    match s.agDpa g a 0 with
    | (s, none) => (s, none)
    | (s, some dpa) =>
      match s.agReadPiece g a n dpa with
      | (s, some b) => agReadPieces g t (acc ++ b) s
      | (s, none) => (s, none)

/-- An engine's read of `len` bytes at a TVA. -/
def State.agRead (s : State) (g : Agent) (tva len : Nat) : State × Option Bytes :=
  agReadPieces g (linePieces tva len) [] (s.onBehalf g.cmd)

/-- Writes the pieces of an access (R212); false when the command met a fault or a shield. -/
def agWritePieces (g : Agent) (log : Bool) : List (Nat × Nat) → Bytes → State → State × Bool
  | [], _, s => (s, true)
  | (a, n) :: t, b, s =>
    match s.agDpa g a 1 with
    | (s, none) => (s, false)
    | (s, some dpa) =>
      match s.agWritePiece g log a n dpa (b.take n) with
      | (s, true) => agWritePieces g log t (b.drop n) s
      | (s, false) => (s, false)

/-- An engine's write at a TVA. -/
def State.agWrite (s : State) (g : Agent) (tva : Nat) (b : Bytes) : State × Bool :=
  agWritePieces g true (linePieces tva b.length) b (s.onBehalf g.cmd)

/-- The zero-length read that goes before a write on a port whose data went on the other (R222). -/
def State.orderRead (s : State) (port : Bool) : State :=
  { s with host := if port then { s.host with orderReads0 := s.host.orderReads0 + 1 }
                   else { s.host with orderReads1 := s.host.orderReads1 + 1 } }

/-- The port that a command's host writes use: its CQ's where the PASID permits it, otherwise the other (R222). -/
def State.hostPort (s : State) (id : Nat) (pasid : Nat) : Bool :=
  let c := s.cmd id
  let v := s.slice c.slice
  let p := (v.cq (dCq c.desc)).port
  if bitAt (v.defn.ports pasid) (portBit p) then p else !p

/-- A command's write to host memory; a downed link fails it (R73). The command remembers the use of the other port
(R222). -/
def State.agHostWrite (s : State) (g : Agent) (pasid addr : Nat) (b : Bytes) : State × Bool :=
  let port := s.hostPort g.cmd pasid
  if s.linkUp port then
    let c := s.cmd g.cmd
    let s := if port = ((s.slice c.slice).cq (dCq c.desc)).port then s else s.updCmd g.cmd (fun c => { c with otherPort := true })
    let s := (s.onBehalf g.cmd).bulk (placeOf g.unit) (8 + portBit port) b.length
    (s.tenantHostWrite g.slice port (BitVec.ofNat 20 pasid) addr b, true)
  else (s.agFault g fcHostAccess { unit := g.unit, info0 := 0xFF, info1 := addr }, false)

/-- A write to an output or other target: device or host memory. -/
def State.agStore (s : State) (g : Agent) (t : Target) (off : Nat) (b : Bytes) : State × Bool :=
  if t.host then s.agHostWrite g t.pasid (t.addr + off) b else s.agWrite g (t.addr + off) b

end Sys2Proof.Machine
end

