-- ==== Sys2Proof/Machine/Arrays.lean ====
section
/-! DEFINITION. The check bits of a bay's arrays: local store, register files and engine buffers (spec/13 R318 checker 3,
spec/14 R340). -/

namespace Sys2Proof.Machine

/-- INFO0 of an array fault names the array; the manual gives no coding of it (notes/assumptions/2.md). -/
def State.arrayInfo (s : State) : Nat × State := s.drawResult

/-- A single-bit error of a bay's array is corrected. -/
def State.arrayCorrected (s : State) (b : Nat) : State :=
  let (i, s) := s.arrayInfo
  s.raise fcArrayCorrected { unit := unitBay b, info0 := i }

/-- An uncorrectable word held the state of a command's operation, which stops. -/
def State.arrayLost (s : State) (id b : Nat) : State :=
  let (i, s) := s.arrayInfo
  s.cmdFault id (unitBay b) fcArrayUnc { unit := unitBay b, info0 := i }

/-- A command's work writes words of a bay's arrays: an armed injection inverts their check bits. -/
def State.bayWrite (s : State) (id b : Nat) : State :=
  let (m, s) := s.injected 3 (unitBay b)
  if m = 0 then s else s.updBay b (fun v => { v with errs := v.errs ++ [(id, m)] })

/-- A command's work reads the words it wrote: what was inverted is found (R318). -/
def State.bayCheck (s : State) (id b : Nat) : State :=
  let found := (s.bay b).errs.filter (fun e => decide (e.1 = id))
  let s := if found = [] then s
    else s.updBay b (fun v => { v with errs := v.errs.filter (fun e => decide (e.1 ≠ id)) })
  found.foldl (fun s e => if popCount 8 e.2 = 1 then s.arrayCorrected b else s.arrayLost id b) s

/-- A step of a command's work on a bay: the words it reads are checked, and it goes on unless one was lost. -/
def State.onBay (s : State) (id b : Nat) (f : State → State) : State :=
  let s := s.bayCheck id b
  if (s.cmd id).stop.isSome then s else (f s).bayWrite id b

end Sys2Proof.Machine
end

