-- ==== Sys2Proof/Machine/Blocks.lean ====
section
/-! DEFINITION. The argument blocks of commands and their fetch checks: the descriptor's own fields (spec/04 R97 step 2,
R412), then launch (spec/05 R123, R124), slab (spec/06 R145, R146), gather and select (spec/07 R162, R163, R169, R170),
RELEASE and FLUSH (spec/08 R198, spec/09 R224), HANDLE_SET and EPOCH_FLIP (R108) and Sweld (spec/12 R274, R275). -/

namespace Sys2Proof.Machine

/-- Why a command is REJECTED: DETAIL, DETAIL_ARG and RESULT (Table 4.8, R146). -/
structure Fail where
  detail : Nat
  arg : Nat
  result : Nat := 0
deriving DecidableEq, Repr

/-- The first failed check, in the order listed; `true` is a violation. -/
def firstFail : List (Bool × Fail) → Option Fail
  | [] => none
  | (bad, f) :: t => if bad then some f else firstFail t

/-- REJECTED ARGS at a field of the descriptor. -/
def atDesc (off : Nat) : Fail := { detail := rjArgs, arg := off }

/-- REJECTED ARGS at a field of the block (R124, R146). -/
def atBlock (off : Nat) : Fail := { detail := rjArgs, arg := 0x28, result := off }

/-- A field breaks R8: bits above a TVA's 57. -/
def badTva (n : Nat) : Bool := decide (2 ^ 57 ≤ n)

/-- A TVA field that must be a multiple of `al`. -/
def badTvaAl (n al : Nat) : Bool := badTva n || decide (n % al ≠ 0)

/-! ## Step 2 (R97, R412) -/

/-- A reserved span of the descriptor: its offset and size. -/
def reservedAt (d : Bytes) (off n : Nat) : Bool × Fail :=
  (decide (leAt d off n ≠ 0), { detail := rjReserved, arg := off })

/-- Reserved bits of one byte of the descriptor. -/
def reservedBits (d : Bytes) (off hi lo : Nat) : Bool × Fail :=
  (decide (bitsOf (byteAt d off) hi lo ≠ 0), { detail := rjReserved, arg := off })

/-- A TVA field of the descriptor. -/
def tvaAt (d : Bytes) (off : Nat) : Bool × Fail := (badTva (leAt d off 8), { detail := rjAddress, arg := off })

/-- ADDR and ATTR of an output or of a COPY's source, in offset order (Tables 4.3, 4.5). -/
def entryChecks (d : Bytes) (off : Nat) : List (Bool × Fail) :=
  let addr := leAt d off 8
  let attr := leAt d (off + 8) 8
  let host := bitAt attr 63
  [ (decide (addr % 128 ≠ 0) || (!host && badTva addr), { detail := rjAddress, arg := off }),
    (decide (bitsOf attr 39 37 ≠ 0) || decide (bitsOf attr 62 60 ≠ 0), { detail := rjReserved, arg := off + 8 }),
    (decide (attr % 2 ^ 37 = 0), { detail := rjRange, arg := off + 8 }),
    (!host && decide (bitsOf attr 59 40 ≠ 0), { detail := rjAddress, arg := off + 8 }) ]

/-- The reserved fields and address forms of an opcode's ARGS, in offset order. The ARGS of a NOP are taken as reserved: a
nonzero byte is judged here, RESERVED_NONZERO at 0x28, where ARGS in step 5 is as open (DESIGN CHOICE,
notes/assumptions/67.md). -/
def argsChecks (d : Bytes) : List (Bool × Fail) :=
  let op := dOpcode d
  if op = opNop then [reservedAt d 0x28 24]
  else if op = opCopy then entryChecks d 0x28 ++ [reservedAt d 0x38 8]
  else if op = opLaunch then [tvaAt d 0x28]
  else if op = opSlab then [tvaAt d 0x28, reservedAt d 0x3E 2]
  else if op = opGather then [tvaAt d 0x28, reservedAt d 0x3A 6]
  else if op = opSelect then [tvaAt d 0x28, reservedAt d 0x30 8, reservedAt d 0x3A 6]
  else if op = opRelease then [reservedBits d 0x28 7 1, reservedAt d 0x29 23]
  else if op = opFlush then [reservedBits d 0x28 7 4, reservedAt d 0x29 23]
  else if op = opHandleSet then [reservedBits d 0x2A 7 1, reservedAt d 0x2B 5]
  else if op = opEpochFlip then [reservedAt d 0x2A 1, reservedAt d 0x2B 5, reservedAt d 0x30 8, reservedAt d 0x38 8]
  else [tvaAt d 0x28, reservedAt d 0x30 16]

/-- The output fields, in offset order (Table 4.3, R95). Of two failures inside one ATTR the LENGTH goes before SPACE and
PASID (DESIGN CHOICE, notes/assumptions/67.md). -/
def outChecks (d : Bytes) : List (Bool × Fail) :=
  (List.range 4).flatMap (fun i =>
    let off := 0x40 + 16 * i
    if i < dOutCount d then
      (entryChecks d off).take 3
        ++ [ (decide (i = 0) && decide (2 ≤ dOutSlots d) && decide ((dOut d 0).len % (128 * dOutSlots d) ≠ 0),
              { detail := rjRange, arg := off + 8 }) ]
        ++ (entryChecks d off).drop 3
    else [reservedAt d off 8, reservedAt d (off + 8) 8])

/-- Step 2 of R97 for a descriptor of a slice with CLASS_MASK `classMask` (R412). -/
def step2 (classMask : Nat) (d : Bytes) : Option Fail :=
  firstFail (
    [ (decide (0x0B ≤ dOpcode d), { detail := rjOpcode, arg := 0 }),
      reservedBits d 0x01 7 3,
      reservedBits d 0x02 7 3,
      (!bitAt classMask (dClass d), { detail := rjClass, arg := 2 }),
      reservedBits d 0x03 7 4,
      tvaAt d 0x18,
      (decide (1024 < dHandleCount d) || (decide (dHandleCount d = 0) && decide (dHandleList d ≠ 0)),
        { detail := rjRange, arg := 0x20 }),
      (decide (512 < dOutSlots d), { detail := rjRange, arg := 0x22 }),
      (decide (4 < dOutCount d) || (decide (2 ≤ dOutSlots d) && decide (dOutCount d = 0)),
        { detail := rjRange, arg := 0x24 }),
      reservedAt d 0x25 3 ]
    ++ argsChecks d ++ outChecks d)

/-- Step 3 of R97: every output PASID is mapped. -/
def step3 (v : SliceDef) (d : Bytes) : Option Fail :=
  firstFail ((List.range (min 4 (dOutCount d))).map (fun i =>
    let o := dOut d i
    (o.host && (decide (o.pasid = 0) || decide (v.ports o.pasid = 0)), { detail := rjPasid, arg := 0x48 + 16 * i })))

/-! ## Ranges of a slice -/

/-- [addr, addr + len) lies in one course range with the accesses of `ok`. -/
def inRange (v : SliceDef) (addr len : Nat) (ok : Range → Bool) : Bool :=
  match coverRange v.ranges addr len with
  | some r => ok r
  | none => false

/-- The byte range of an output. -/
def Target.meets (o : Target) (addr len : Nat) : Bool := !o.host && overlap o.addr o.len addr len

/-! ## NOP and COPY (R96, Table 4.5) -/

def checkNop (d : Bytes) : Option Fail := firstFail [(decide (dOutCount d ≠ 0), atDesc 0x24)]

/-- The source of a COPY. -/
def copySource (d : Bytes) : Target := targetOf (leAt d 0x28 8) (leAt d 0x30 8)

/-- The step 5 checks of a COPY. R96 names no DETAIL for a source LENGTH other than OUT[0]'s (ARGS at 0x30) nor for a source
PASID that is not mapped (PASID_UNMAPPED at 0x30): DESIGN CHOICE, notes/assumptions/67.md. -/
def checkCopy (v : SliceDef) (d : Bytes) : Option Fail :=
  let src := copySource d
  firstFail
    [ (decide (dOutCount d ≠ 1), atDesc 0x24),
      (src.host && (decide (src.pasid = 0) || decide (v.ports src.pasid = 0)), { detail := rjPasid, arg := 0x30 }),
      (decide (src.len ≠ (dOut d 0).len), atDesc 0x30) ]

/-! ## LAUNCH (Tables 5.4, 5.5) -/

def laCode (b : Bytes) : Nat := leAt b 0x00 8
def laCodeLen (b : Bytes) : Nat := leAt b 0x08 4
def laRegs (b : Bytes) : Nat := byteAt b 0x0C
def laSteps (b : Bytes) : Nat := byteAt b 0x0D
def laSpill (b : Bytes) : Nat := byteAt b 0x0E
def laInvalidate (b : Bytes) : Bool := bitAt (byteAt b 0x0F) 0
def laScratch (b : Bytes) : Nat := leAt b 0x10 4
def laHome (b : Bytes) : Nat := byteAt b 0x14
def laConst (b : Bytes) : Nat := leAt b 0x18 8
def laConstLen (b : Bytes) : Nat := leAt b 0x20 4
def laGangs (d : Bytes) : Nat := leAt d 0x38 4
def laMin (d : Bytes) : Nat := leAt d 0x3C 2
def laPref (d : Bytes) : Nat := leAt d 0x3E 2
def laParam (d : Bytes) : Nat := leAt d 0x30 8

/-- The footprint of one gang (R121). -/
def laFoot (b : Bytes) : Nat := roundUp (laScratch b + 16 * laSpill b) 256

/-- regs_limit of R117. -/
def laRegsLimit (b : Bytes) : Nat := min 48 (65536 / (32 * laRegs b))

/-- A REGS value of R117. -/
def regsOk (n : Nat) : Bool := (decide (16 ≤ n) && decide (n ≤ 248) && decide (n % 8 = 0)) || decide (n = 255)

/-- HOME with its reserved bits (Tables 5.5, 6.7, 7.2, 7.6). -/
def badHome (h : Nat) : Bool := decide (bitsOf h 6 3 ≠ 0)

def checkLaunch (v : SliceDef) (d b : Bytes) : Option Fail :=
  firstFail
    [ (decide (laGangs d = 0), atDesc 0x38),
      (decide (laMin d = 0) || decide (18432 < laMin d) || decide (laGangs d < laMin d), atDesc 0x3C),
      (decide (laPref d < laMin d) || decide (18432 < laPref d), atDesc 0x3E),
      (badTvaAl (laCode b) 128, atBlock 0x00),
      (decide (laCodeLen b < 128) || decide (0x1000000 < laCodeLen b), atBlock 0x08),
      (!regsOk (laRegs b), atBlock 0x0C),
      (decide (16 < laSteps b), atBlock 0x0D),
      (decide (bitsOf (byteAt b 0x0F) 7 1 ≠ 0), atBlock 0x0F),
      (decide (laScratch b % 256 ≠ 0) || decide (0x200000 < laScratch b), atBlock 0x10),
      (badHome (laHome b), atBlock 0x14),
      (decide (leAt b 0x15 3 ≠ 0), atBlock 0x15),
      (badTvaAl (laConst b) 128 || (decide (laConstLen b = 0) && decide (laConst b ≠ 0)), atBlock 0x18),
      (decide (0x1000000 < laConstLen b), atBlock 0x20),
      (decide (leAt b 0x24 4 ≠ 0), atBlock 0x24),
      (badTvaAl (leAt b 0x28 8) 4096, atBlock 0x28),
      (decide (leAt b 0x38 72 ≠ 0), atBlock 0x38),
      (decide (leAt b 0x30 8 < laPref d * (384 + 128 * laRegs b + laFoot b)), atBlock 0x30),
      (!inRange v (laCode b) (laCodeLen b) Range.canExec, atBlock 0x00),
      (!inRange v (leAt b 0x28 8) (leAt b 0x30 8) (fun r => r.canRead && r.canWrite), atBlock 0x28) ]

/-! ## SLAB_RUN (Tables 6.6, 6.7) -/

def slM (d : Bytes) : Nat := leAt d 0x38 4
def slMin (d : Bytes) : Nat := byteAt d 0x3C
def slPref (d : Bytes) : Nat := byteAt d 0x3D
def slSeed (d : Bytes) : Nat := leAt d 0x30 8
def slA (b : Bytes) : Nat := leAt b 0x00 8
def slW (b : Bytes) : Nat := leAt b 0x08 8
def slAScale (b : Bytes) : Nat := leAt b 0x10 8
def slWScale (b : Bytes) : Nat := leAt b 0x18 8
def slAStride (b : Bytes) : Nat := leAt b 0x20 4
def slWStride (b : Bytes) : Nat := leAt b 0x24 4
def slCStride (b : Bytes) : Nat := leAt b 0x28 4
def slOutScale (b : Bytes) : Nat := leAt b 0x2C 4
def slN (b : Bytes) : Nat := leAt b 0x30 4
def slK (b : Bytes) : Nat := leAt b 0x34 4
/-- Formats of a format byte; an invalid code reads as the first format, and `fmtBad` says so. -/
def fmtOf (x : Nat) : Fmt := (Fmt.ofCode (x % 16)).getD .i4
def fmtBad (x : Nat) : Bool := (Fmt.ofCode (x % 16)).isNone
def slAFmt (b : Bytes) : Nat := byteAt b 0x38
def slWFmt (b : Bytes) : Nat := byteAt b 0x39
def slOFmt (b : Bytes) : Nat := byteAt b 0x3A
def slMode (b : Bytes) : Nat := byteAt b 0x3B
def slQuartered (b : Bytes) : Bool := bitAt (slMode b) 0
def slShared (b : Bytes) : Bool := bitAt (slMode b) 1
def slSr (b : Bytes) : Bool := bitAt (slMode b) 2
def slSat (b : Bytes) : Bool := bitAt (slMode b) 3
def slAccum (b : Bytes) : Bool := bitAt (slMode b) 4
def slRelu (b : Bytes) : Bool := bitAt (slMode b) 5
def slHandle (b : Bytes) : Nat := leAt b 0x3C 2
def slViaHandle (b : Bytes) : Bool := bitAt (byteAt b 0x3E) 0
def slHome (b : Bytes) : Nat := byteAt b 0x3F
def slBlocked (x : Nat) : Bool := bitAt x 4

/-- Bytes of a packed row of n elements (R138). -/
def rowBytes (n : Nat) (f : Fmt) : Nat := ceilDiv (n * f.bits) 8

/-- Bytes between the scale rows of an operand of n elements (R147). -/
def scaleStride (n : Nat) : Nat := roundUp (n / 32) 128

/-- The rate class of a format: 0 4-bit, 1 8-bit, 2 16-bit, 3 F32 (Table 6.5). -/
def rateClass : Fmt → Nat
  | .i4 | .f4 => 0
  | .f6a | .f6b | .i8 | .u8 | .f8a | .f8b => 1
  | .f32 => 3
  | _ => 2

/-- Rows of a chunk and the K and N of a tile (R150, Table 6.5). -/
def slChunk (b : Bytes) : Nat := if slQuartered b then 1024 else 2048
def slTileN (b : Bytes) : Nat := if slQuartered b then 128 else 256
def slTileK (b : Bytes) : Nat :=
  (if slQuartered b then 128 else 256)
    * (if max (rateClass (fmtOf (slAFmt b))) (rateClass (fmtOf (slWFmt b))) = 0 then 2 else 1)

/-- Chunks and N tiles of a run, and its work items. -/
def slChunks (d b : Bytes) : Nat := ceilDiv (slM d) (slChunk b)
def slNTiles (b : Bytes) : Nat := ceilDiv (slN b) (slTileN b)
def slItems (d b : Bytes) : Nat := slChunks d b * slNTiles b

/-- The byte range of the weights from their base (R147). -/
def slWLen (b : Bytes) : Nat := (slN b - 1) * slWStride b + rowBytes (slK b) (fmtOf (slWFmt b))

/-- The byte ranges of A, A_SCALE and W_SCALE, and of a directly addressed W. -/
def slRanges (d b : Bytes) : List (Nat × Nat) :=
  [(slA b, (slM d - 1) * slAStride b + rowBytes (slK b) (fmtOf (slAFmt b)))]
    ++ (if slBlocked (slAFmt b) then [(slAScale b, slM d * scaleStride (slK b))] else [])
    ++ (if slViaHandle b then [] else [(slW b, slWLen b)])
    ++ (if slBlocked (slWFmt b) then [(slWScale b, slN b * scaleStride (slK b))] else [])

/-- A scale array's address: a TVA where its operand is block-scaled, otherwise 0. -/
def badScale (addr fmt : Nat) : Bool := if slBlocked fmt then badTvaAl addr 128 else decide (addr ≠ 0)

/-- BLOCK set on a format that does not permit it. -/
def badBlock (x : Nat) : Bool := slBlocked x && !(fmtOf x).blockable

/-- Outputs that meet any of the ranges, each at its ADDR. -/
def overlapChecks (d : Bytes) (rs : List (Nat × Nat)) : List (Bool × Fail) :=
  (List.range (min 4 (dOutCount d))).map (fun i =>
    (rs.any (fun r => (dOut d i).meets r.1 r.2), atDesc (0x40 + 16 * i)))

def checkSlab (d b : Bytes) (hs : List Nat) : Option Fail :=
  let af := fmtOf (slAFmt b)
  let wf := fmtOf (slWFmt b)
  let of := fmtOf (slOFmt b)
  let oblock := slBlocked (slOFmt b)
  firstFail (
    [ (decide (slM d = 0) || decide (0x1000000 < slM d), atDesc 0x38),
      (decide (slMin d = 0) || decide (192 < slMin d) || decide (slPref d < slMin d), atDesc 0x3C),
      (decide (slPref d = 0) || decide (192 < slPref d), atDesc 0x3D),
      (badTvaAl (slA b) 128, atBlock 0x00),
      (if slViaHandle b then decide (slW b % 128 ≠ 0) else badTvaAl (slW b) 128, atBlock 0x08),
      (badScale (slAScale b) (slAFmt b), atBlock 0x10),
      (badScale (slWScale b) (slWFmt b), atBlock 0x18),
      (decide (slAStride b % 128 ≠ 0), atBlock 0x20),
      (decide (slWStride b % 128 ≠ 0), atBlock 0x24),
      (decide (slCStride b % 128 ≠ 0), atBlock 0x28),
      (decide (bitsOf (slOutScale b) 30 23 = 255), atBlock 0x2C),
      (decide (slN b = 0) || decide (0x100000 < slN b), atBlock 0x30),
      (decide (slK b = 0) || decide (0x100000 < slK b), atBlock 0x34),
      (decide (bitsOf (slAFmt b) 7 5 ≠ 0) || fmtBad (slAFmt b), atBlock 0x38),
      (decide (bitsOf (slWFmt b) 7 5 ≠ 0) || fmtBad (slWFmt b), atBlock 0x39),
      (decide (bitsOf (slOFmt b) 7 5 ≠ 0) || fmtBad (slOFmt b), atBlock 0x3A),
      (decide (bitsOf (slMode b) 7 6 ≠ 0), atBlock 0x3B),
      (decide (bitsOf (byteAt b 0x3E) 7 1 ≠ 0), atBlock 0x3E),
      (badHome (slHome b), atBlock 0x3F),
      (badTvaAl (leAt b 0x40 8) 4096, atBlock 0x40),
      (decide (leAt b 0x50 48 ≠ 0), atBlock 0x50),
      -- the listed checks
      (!af.slabOperand, atBlock 0x38),
      (!wf.slabOperand, atBlock 0x39),
      (af.isFloat != wf.isFloat, atBlock 0x38),
      (badBlock (slAFmt b), atBlock 0x38),
      (badBlock (slWFmt b), atBlock 0x39),
      (badBlock (slOFmt b), atBlock 0x3A),
      ((slBlocked (slAFmt b) || slBlocked (slWFmt b)) && decide (slK b % 32 ≠ 0), atBlock 0x34),
      (!of.slabOutput, atBlock 0x3A),
      (oblock && decide (slN b % 32 ≠ 0), atBlock 0x30),
      (decide (dOutCount d ≠ if oblock then 2 else 1), atDesc 0x24) ]
    ++ (List.range (min 4 (dOutCount d))).map (fun i => ((dOut d i).host, atDesc (0x48 + 16 * i)))
    ++ [ (slAccum b && (oblock || decide (of ≠ if af.isFloat then .f32 else .i32)), atBlock 0x3A),
         (slAccum b && decide (slOutScale b ≠ 0x3F800000), atBlock 0x2C),
         (slAccum b && slRelu b, atBlock 0x3B),
         (decide (slAStride b < rowBytes (slK b) af), atBlock 0x20),
         (decide (slWStride b < rowBytes (slK b) wf), atBlock 0x24),
         (decide (slCStride b < rowBytes (slN b) of), atBlock 0x28),
         (decide ((dOut d 0).len < slM d * slCStride b), atDesc 0x48),
         (oblock && decide ((dOut d 1).len < slM d * scaleStride (slN b)), atDesc 0x58),
         (slViaHandle b && !hs.contains (slHandle b), atBlock 0x3C),
         (decide (leAt b 0x48 8 < slPref d * if slQuartered b then 524544 else 2097408), atBlock 0x48) ]
    ++ overlapChecks d (slRanges d b)
    ++ [(decide (slItems d b < slMin d), atDesc 0x3C)])

/-! ## GATHER (Tables 7.1, 7.2) -/

def gaIndex (b : Bytes) : Nat := leAt b 0x00 8
def gaOffset (b : Bytes) : Nat := leAt b 0x08 8
def gaWeight (b : Bytes) : Nat := leAt b 0x10 8
def gaTable (b : Bytes) : Nat := leAt b 0x18 8
def gaRows (b : Bytes) : Nat := leAt b 0x20 8
def gaStride (b : Bytes) : Nat := leAt b 0x28 4
def gaElems (b : Bytes) : Nat := leAt b 0x2C 2
def gaHandle (b : Bytes) : Nat := leAt b 0x2E 2
def gaBags (b : Bytes) : Nat := leAt b 0x30 4
def gaOutStride (b : Bytes) : Nat := leAt b 0x34 4
def gaRowFmt (b : Bytes) : Fmt := fmtOf (byteAt b 0x38)
def gaOutFmt (b : Bytes) : Fmt := fmtOf (byteAt b 0x39)
def gaPool (b : Bytes) : Nat := byteAt b 0x3A % 8
def gaI64 (b : Bytes) : Bool := bitAt (byteAt b 0x3A) 3
def gaSkip (b : Bytes) : Bool := bitAt (byteAt b 0x3A) 4
def gaSr (b : Bytes) : Bool := bitAt (byteAt b 0x3A) 5
def gaSat (b : Bytes) : Bool := bitAt (byteAt b 0x3A) 6
def gaViaHandle (b : Bytes) : Bool := bitAt (byteAt b 0x3B) 0
def gaHome (b : Bytes) : Nat := byteAt b 0x3C
def gaMin (d : Bytes) : Nat := byteAt d 0x38
def gaPref (d : Bytes) : Nat := byteAt d 0x39
def gaRowBytes (b : Bytes) : Nat := rowBytes (gaElems b) (gaRowFmt b)
def gaOutBytes (b : Bytes) : Nat := rowBytes (gaElems b) (gaOutFmt b)
def gaItems (b : Bytes) : Nat := ceilDiv (gaBags b) 64
def gaTableLen (b : Bytes) : Nat := gaRows b * gaStride b
def gaIndexSize (b : Bytes) : Nat := if gaI64 b then 8 else 4

/-- The formats of a gather's rows: F32, H16, B16, F12Q, F8A or F8B, with [7:4] reserved. -/
def badRowFmt (x : Nat) : Bool :=
  decide (16 ≤ x) || !([Fmt.f32, .h16, .b16, .f12q, .f8a, .f8b].contains (fmtOf x)) || fmtBad x

/-- The ranges a gather's output may not meet; `n` is the number of list positions (offset[BAGS]). -/
def gaRanges (b : Bytes) (n : Nat) : List (Nat × Nat) :=
  [(gaIndex b, n * gaIndexSize b)]
    ++ (if gaPool b = 0 then [] else [(gaOffset b, 4 * (gaBags b + 1))])
    ++ (if gaPool b = 4 then [(gaWeight b, 4 * n)] else [])
    ++ [(leAt b 0x40 8, leAt b 0x48 8)]
    ++ (if gaViaHandle b then [] else [(gaTable b, gaTableLen b)])

def checkGather (d b : Bytes) (hs : List Nat) (n : Nat) : Option Fail :=
  let rb := gaRowBytes b
  firstFail (
    [ (decide (gaMin d = 0) || decide (48 < gaMin d) || decide (gaPref d < gaMin d), atDesc 0x38),
      (decide (gaPref d = 0) || decide (48 < gaPref d), atDesc 0x39),
      (badTvaAl (gaIndex b) 128, atBlock 0x00),
      (if gaPool b = 0 then decide (gaOffset b ≠ 0) else badTvaAl (gaOffset b) 128, atBlock 0x08),
      (if gaPool b = 4 then badTvaAl (gaWeight b) 128 else decide (gaWeight b ≠ 0), atBlock 0x10),
      (if gaViaHandle b then decide (gaTable b % 32 ≠ 0) else badTvaAl (gaTable b) 32, atBlock 0x18),
      (decide (gaRows b = 0) || decide (2 ^ 63 ≤ gaRows b), atBlock 0x20),
      (decide (gaStride b % 32 ≠ 0) || (!badRowFmt (byteAt b 0x38) && decide (gaStride b < rb)), atBlock 0x28),
      (!badRowFmt (byteAt b 0x38) && (decide (rb < 32) || decide (4096 < rb)), atBlock 0x2C),
      (decide (gaBags b = 0) || decide (0x1000000 < gaBags b), atBlock 0x30),
      (decide (gaOutStride b % 32 ≠ 0)
        || (!badRowFmt (byteAt b 0x39) && decide (gaOutStride b < gaOutBytes b)), atBlock 0x34),
      (badRowFmt (byteAt b 0x38), atBlock 0x38),
      (badRowFmt (byteAt b 0x39), atBlock 0x39),
      (decide (4 < gaPool b) || bitAt (byteAt b 0x3A) 7, atBlock 0x3A),
      (decide (bitsOf (byteAt b 0x3B) 7 1 ≠ 0), atBlock 0x3B),
      (badHome (gaHome b), atBlock 0x3C),
      (decide (leAt b 0x3D 3 ≠ 0), atBlock 0x3D),
      (badTvaAl (leAt b 0x40 8) 4096, atBlock 0x40),
      (decide (leAt b 0x48 8 < gaPref d * roundUp (64 + 4 * gaElems b) 128), atBlock 0x48),
      (decide (leAt b 0x50 48 ≠ 0), atBlock 0x50),
      (decide (dOutCount d ≠ 1), atDesc 0x24),
      (decide ((dOut d 0).len < gaBags b * gaOutStride b), atDesc 0x48),
      (gaViaHandle b && !hs.contains (gaHandle b), atBlock 0x2E) ]
    ++ overlapChecks d (gaRanges b n)
    ++ [(decide (gaItems b < gaMin d), atDesc 0x38)])

/-! ## SELECT (Tables 7.5, 7.6) -/

def seIn (b : Bytes) : Nat := leAt b 0x00 8
def seStride (b : Bytes) : Nat := leAt b 0x08 4
def seL (b : Bytes) : Nat := leAt b 0x0C 4
def seRows (b : Bytes) : Nat := leAt b 0x10 4
def seK (b : Bytes) : Nat := byteAt b 0x14
def seFmt (b : Bytes) : Fmt := fmtOf (byteAt b 0x15)
def seOp (b : Bytes) : Nat := byteAt b 0x16 % 4
def seSums (b : Bytes) : Bool := bitAt (byteAt b 0x16) 2
def seExp (b : Bytes) : Bool := bitAt (byteAt b 0x16) 3
def sePayload (b : Bytes) : Bool := bitAt (byteAt b 0x16) 4
def seLists (b : Bytes) : Nat := byteAt b 0x17
def seBase (b : Bytes) : Nat := leAt b 0x18 8
def seSeg (b : Bytes) : Nat := leAt b 0x20 4
def sePBase (b : Bytes) : Nat := leAt b 0x28 8
def sePStride (b : Bytes) : Nat := leAt b 0x30 4
def sePLen (b : Bytes) : Nat := leAt b 0x34 2
def sePHandle (b : Bytes) : Nat := leAt b 0x36 2
def sePRows (b : Bytes) : Nat := leAt b 0x38 8
def sePViaHandle (b : Bytes) : Bool := bitAt (byteAt b 0x40) 0
def seHome (b : Bytes) : Nat := byteAt b 0x41
def seMin (d : Bytes) : Nat := byteAt d 0x38
def sePref (d : Bytes) : Nat := byteAt d 0x39

/-- Segments of a row, S of R170. -/
def seS (b : Bytes) : Nat := if seSeg b = 0 then 1 else ceilDiv (seL b) (seSeg b)

/-- Pass-1 work items (R178). -/
def seItems (b : Bytes) : Nat := seRows b * seS b

/-- Bytes of one input row (R170, R174). -/
def seRowBytes (b : Bytes) : Nat :=
  if seOp b = 2 then seLists b * roundUp (16 * seL b) 128 else rowBytes (seL b) (seFmt b)

/-- Formats of a SELECT's input (Table 7.6). -/
def badInFmt (merge : Bool) (x : Nat) : Bool :=
  decide (16 ≤ x) || fmtBad x
    || !((if merge then [Fmt.f32, .i32] else [.i8, .u8, .f8a, .f8b, .i16, .h16, .b16, .f12q, .i32, .f32]).contains (fmtOf x))

def seInLen (b : Bytes) : Nat := (seRows b - 1) * seStride b + seRowBytes b
def sePTableLen (b : Bytes) : Nat := (sePRows b - 1) * sePStride b + sePLen b

/-- The number of the sums output and of the payload output. -/
def seSumsOut : Nat := 1
def sePayOut (b : Bytes) : Nat := 1 + ofBool (seSums b)

def seRanges (b : Bytes) : List (Nat × Nat) :=
  [(seIn b, seInLen b), (leAt b 0x48 8, leAt b 0x50 8)]
    ++ (if sePayload b && !sePViaHandle b then [(sePBase b, sePTableLen b)] else [])

/-- Two outputs of a SELECT share a byte: the later one's number. -/
def outPairs (d : Bytes) : List (Bool × Fail) :=
  (List.range (min 4 (dOutCount d))).flatMap (fun j => (List.range j).map (fun i =>
    let a := dOut d i
    let b := dOut d j
    (decide (a.host = b.host) && decide (a.pasid = b.pasid) && overlap a.addr a.len b.addr b.len,
      atDesc (0x40 + 16 * j))))

def checkSelect (d b : Bytes) (hs : List Nat) : Option Fail :=
  let merge := decide (seOp b = 2)
  let pay := sePayload b
  let fmtOk := !badInFmt merge (byteAt b 0x15)
  firstFail (
    [ (decide (seMin d = 0) || decide (48 < seMin d) || decide (sePref d < seMin d), atDesc 0x38),
      (decide (sePref d = 0) || decide (48 < sePref d), atDesc 0x39),
      (badTvaAl (seIn b) 128, atBlock 0x00),
      (decide (seStride b % 128 ≠ 0) || (fmtOk && !merge && decide (seStride b < seRowBytes b)), atBlock 0x08),
      (decide (seL b = 0) || decide ((if merge then 64 else 2 ^ 20) < seL b), atBlock 0x0C),
      (decide (seRows b = 0) || decide (0x10000 < seRows b), atBlock 0x10),
      (decide (seK b = 0) || decide (64 < seK b) || (decide (seOp b = 1) && decide (seK b ≠ 1)), atBlock 0x14),
      (!fmtOk, atBlock 0x15),
      (decide (seOp b = 3) || decide (bitsOf (byteAt b 0x16) 7 5 ≠ 0), atBlock 0x16),
      (if merge then decide (seLists b < 2) || decide (32 < seLists b) else decide (seLists b ≠ 0), atBlock 0x17),
      (decide (seSeg b ≠ 0) && (merge || decide (seSeg b < 64) || decide (2 ^ 20 < seSeg b)), atBlock 0x20),
      (decide (leAt b 0x24 4 ≠ 0), atBlock 0x24),
      (if !pay then decide (sePBase b ≠ 0)
        else if sePViaHandle b then decide (sePBase b % 32 ≠ 0) else badTvaAl (sePBase b) 32, atBlock 0x28),
      (if pay then decide (sePStride b % 32 ≠ 0) || decide (sePStride b < sePLen b) else decide (sePStride b ≠ 0),
        atBlock 0x30),
      (if pay then decide (sePLen b % 32 ≠ 0) || decide (sePLen b < 32) || decide (4096 < sePLen b)
        else decide (sePLen b ≠ 0), atBlock 0x34),
      (!pay && decide (sePHandle b ≠ 0), atBlock 0x36),
      (if pay then decide (sePRows b = 0) || decide (2 ^ 63 ≤ sePRows b) else decide (sePRows b ≠ 0), atBlock 0x38),
      (decide (bitsOf (byteAt b 0x40) 7 1 ≠ 0) || (!pay && sePViaHandle b), atBlock 0x40),
      (badHome (seHome b), atBlock 0x41),
      (decide (leAt b 0x42 6 ≠ 0), atBlock 0x42),
      (badTvaAl (leAt b 0x48 8) 4096, atBlock 0x48),
      (decide (leAt b 0x50 8 < 1280 * (sePref d + if 1 < seS b then seRows b * seS b else 0)), atBlock 0x50),
      (decide (leAt b 0x58 40 ≠ 0), atBlock 0x58),
      (decide (dOutCount d ≠ 1 + ofBool (seSums b) + ofBool pay), atDesc 0x24),
      (decide ((dOut d 0).len < 16 * seRows b * seK b), atDesc 0x48),
      (seSums b && decide ((dOut d 1).len < 16 * seRows b), atDesc 0x58),
      (pay && decide ((dOut d (sePayOut b)).len < seRows b * seK b * sePLen b), atDesc (0x48 + 16 * sePayOut b)),
      (seExp b && (!seSums b || !(seFmt b).isFloat), atBlock 0x16),
      (merge && (seSums b || seExp b), atBlock 0x16),
      (merge && decide (seStride b < seRowBytes b), atBlock 0x08),
      (pay && sePViaHandle b && !hs.contains (sePHandle b), atBlock 0x36) ]
    ++ overlapChecks d (seRanges b) ++ outPairs d
    ++ [(decide (seItems b < seMin d), atDesc 0x38)])

/-! ## RELEASE and FLUSH (R198, R224) -/

/-- The checks of range outputs; `write` asks for write permission. -/
def checkRanges (v : SliceDef) (d : Bytes) (write : Bool) : List (Bool × Fail) :=
  let n := min 4 (dOutCount d)
  (List.range n).map (fun i => ((dOut d i).host || decide ((dOut d i).len % 128 ≠ 0), atDesc (0x48 + 16 * i)))
    ++ outPairs d
    ++ (List.range n).map (fun i =>
        (!inRange v (dOut d i).addr (dOut d i).len (fun _ => true), { detail := rjAddress, arg := 0x40 + 16 * i }))
    ++ (List.range n).map (fun i =>
        (write && !inRange v (dOut d i).addr (dOut d i).len Range.canWrite, { detail := rjPermit, arg := 0x40 + 16 * i }))

def checkRelease (v : SliceDef) (d : Bytes) : Option Fail :=
  firstFail ((decide (dOutCount d = 0), atDesc 0x24) :: checkRanges v d true)

def checkFlush (v : SliceDef) (d : Bytes) : Option Fail :=
  firstFail ((decide (dOutCount d = 0) && decide (byteAt d 0x28 % 8 ≠ 0), atDesc 0x28) :: checkRanges v d false)

/-! ## HANDLE_SET and EPOCH_FLIP (R108, Table 4.9) -/

def haHandle (d : Bytes) : Nat := leAt d 0x28 2
def haCurrent (d : Bytes) : Bool := bitAt (byteAt d 0x2A) 0

def checkHandle (v : SliceDef) (d : Bytes) : Option Fail :=
  firstFail
    [ (decide (dOutCount d ≠ 0), atDesc 0x24),
      (decide (v.tableHandles ≤ haHandle d), { detail := rjHandle, arg := 0x28 }),
      (decide (dOpcode d = opHandleSet) && badTva (leAt d 0x30 8), { detail := rjAddress, arg := 0x30 }),
      (decide (dOpcode d = opHandleSet) && badTva (leAt d 0x38 8), { detail := rjAddress, arg := 0x38 }),
      (!v.tenantFlip, { detail := rjPermit, arg := 0xFFFFFFFF }) ]

/-! ## SWELD_STREAM (Table 12.2, R275) -/

def swExpect (b : Bytes) : Bool := decide (byteAt b 0x00 = 1)
def swPeer (b : Bytes) : Nat := byteAt b 0x01
def swArrival (b : Bytes) : Bool := bitAt (byteAt b 0x02) 0
def swFlag (b : Bytes) : Bool := bitAt (byteAt b 0x02) 1
def swFenceUs (b : Bytes) : Nat := leAt b 0x04 4
def swSrc (b : Bytes) : Nat := leAt b 0x08 8
def swLen (b : Bytes) : Nat := leAt b 0x10 8
def swDest (b : Bytes) : Nat := leAt b 0x18 8
def swFlagAddr (b : Bytes) : Nat := leAt b 0x20 8
def swTarget (b : Bytes) : Nat := leAt b 0x28 8
def swTag (b : Bytes) : Nat := leAt b 0x30 8

/-- Slots of an EXPECT (R275). -/
def swSlots (d : Bytes) : Nat := if 2 ≤ dOutSlots d then dOutSlots d else 1

def checkSweld (v : SliceDef) (d b : Bytes) : Option Fail :=
  let ex := swExpect b
  let arr := swArrival b
  firstFail (
    [ (decide (1 < byteAt b 0x00), atBlock 0x00),
      (if ex then decide (swPeer b ≠ 0) else decide (15 < swPeer b), atBlock 0x01),
      (if ex then decide (byteAt b 0x02 ≠ 0) else decide (3 < byteAt b 0x02), atBlock 0x02),
      (decide (byteAt b 0x03 ≠ 0), atBlock 0x03),
      (if ex then decide (swFenceUs b = 0) || decide (60000 < swFenceUs b) else decide (swFenceUs b ≠ 0), atBlock 0x04),
      (if ex then decide (swSrc b ≠ 0) else badTvaAl (swSrc b) 128, atBlock 0x08),
      (if ex then decide (swLen b ≠ 0)
        else decide (swLen b % 128 ≠ 0) || decide (swLen b < 128)
          || decide ((if arr then 2048 else 2 ^ 37) < swLen b), atBlock 0x10),
      (if ex || arr then decide (swDest b ≠ 0) else badTvaAl (swDest b) 128, atBlock 0x18),
      (if ex || swFlag b then badTvaAl (swFlagAddr b) 8 else decide (swFlagAddr b ≠ 0), atBlock 0x20),
      (!ex && decide (swTarget b ≠ 0), atBlock 0x28),
      ((ex || !arr) && decide (swTag b ≠ 0), atBlock 0x30),
      (decide (leAt b 0x38 72 ≠ 0), atBlock 0x38) ]
    ++ (if ex then
      [ (decide (dOutCount d ≠ 1), atDesc 0x24),
        ((dOut d 0).host, atDesc 0x48),
        (!inRange v (swFlagAddr b) (8 * swSlots d) Range.canRead, atBlock 0x20) ]
    else
      [ (decide (dOutCount d ≠ 0), atDesc 0x24),
        (!inRange v (swSrc b) (swLen b) Range.canRead, atBlock 0x08) ]))

/-! ## Step 5 -/

/-- The opcode has a block whose address lies in ARGS. -/
def hasBlock (op : Nat) : Bool := [opLaunch, opSlab, opGather, opSelect, opSweld].contains op

/-- The checks of step 5 once the block is read; `n` is the gather's number of list positions. -/
def step5 (v : SliceDef) (d b : Bytes) (hs : List Nat) (n : Nat) : Option Fail :=
  let op := dOpcode d
  if op = opNop then checkNop d
  else if op = opCopy then checkCopy v d
  else if op = opLaunch then checkLaunch v d b
  else if op = opSlab then checkSlab d b hs
  else if op = opGather then checkGather d b hs n
  else if op = opSelect then checkSelect d b hs
  else if op = opRelease then checkRelease v d
  else if op = opFlush then checkFlush v d
  else if op = opSweld then checkSweld v d b
  else checkHandle v d

/-! ## What a run writes, for final lines (R153, R168, R180) -/

/-- Work items of a command that claims them. -/
def workItems (d b : Bytes) : Nat :=
  let op := dOpcode d
  if op = opSlab then slItems d b
  else if op = opGather then gaItems b
  else if op = opSelect then seItems b
  else if op = opLaunch then laGangs d
  else 0

end Sys2Proof.Machine
end

