-- ==== Sys2Proof/Machine/L1.lean ====
section
/-! DEFINITION. A bay's local store: L1 lines with byte dirty marks (spec/05 R121, spec/09 R213 to R215), scratch (R121)
and the read-only caches (R122). -/

namespace Sys2Proof.Machine

/-! ## L1 -/

/-- Lines that fit in a bay's L1 under its split (R121). -/
def Bay.l1Lines (v : Bay) : Nat := (2097152 - 131072 * v.split) / 128

def State.setL1 (s : State) (b line : Nat) (l : L1Line) : State :=
  s.updBay b (fun v => { v with l1 := Tbl.put v.l1 line l })

def State.dropL1 (s : State) (b line : Nat) : State := s.updBay b (fun v => { v with l1 := Tbl.del v.l1 line })

/-- A command's agent on a bay. -/
def State.agentOn (s : State) (id b : Nat) : Agent := bayAgent id (s.cmd id).slice b

/-- The outstanding requests of a bay's gangs on one line take effect at its home slice, oldest first: a later write-back
never lands before them (R211). -/
def State.landLine (s : State) (b line : Nat) : State :=
  (s.reqs.filter (fun e => decide (e.2.unit = unitBay b) && decide (e.2.tva / 128 = line) && e.2.host.isNone
      && e.2.answer.isNone && !e.2.parked)).foldl
    (fun s e =>
      s.takeNow e.1 e.2) s

/-- How a write-back of an L1 line ended. -/
inductive PutBack where
  /-- The line has no such dirty byte. -/
  | clean
  | landed
  /-- A shield answered it, with its detail and number; the bytes did not land. -/
  | shield (detail arg : Nat)
deriving DecidableEq, Repr

/-- The dirty bytes of an L1 line written to a DPA line (R213); a refused write-back is told to every launch that dirtied the
line. -/
def State.l1PutBack (s : State) (b tva dpa : Nat) (l : L1Line) (mask : BitVec 128) : State × PutBack :=
  match s.lineWrite dpa l.data mask true (dieOfBay b) with
  | (s, .ok) => (s.serveWaiting dpa, .landed)
  | (s, .poison) =>
    (l.cmds.foldl (fun s id => s.poisonWrite (s.agentOn (l.cmds.headD 0) b).slice id (unitBay b) dpa tva) s, .landed)
  | (s, .shield d a) => (s, .shield d a)

/-- Writes back the dirty bytes of one L1 line among those of `mask`, as one piece (R213); the line stays. -/
def State.l1WritePart (s : State) (b line : Nat) (mask : BitVec 128) : State × PutBack :=
  match Tbl.find? (s.bay b).l1 line with
  | none => (s, .clean)
  | some l =>
    if l.dirty &&& mask = 0 then (s, .clean)
    else
      let tva := 128 * line
      let rest := l.dirty &&& ~~~mask
      let s := s.setL1 b line { l with dirty := rest, cmds := if rest = 0 then [] else l.cmds }
      let s := s.landLine b line
      let g := s.agentOn (l.cmds.headD 0) b
      match s.agDpa g tva 1 with
      | (s, none) => (s, .landed)
      | (s, some dpa) => (s.onBehalf g.cmd).l1PutBack b tva dpa l (l.dirty &&& mask)

/-- The same; a write-back that a shield answered aborts every launch that dirtied the line. The answer says whether there
were such bytes. -/
def State.l1WriteMask (s : State) (b line : Nat) (mask : BitVec 128) : State × Bool :=
  let ids := (Tbl.find? (s.bay b).l1 line).elim [] (·.cmds)
  match s.l1WritePart b line mask with
  | (s, .clean) => (s, false)
  | (s, .landed) => (s, true)
  | (s, .shield d a) => (ids.foldl (fun s id => s.agAbort (s.agentOn id b) d a) s, true)

/-- The same for the FLUSH command: bytes whose write-back a shield answered stay dirty, the line untouched (R224). -/
def State.l1Flush (s : State) (b line : Nat) (mask : BitVec 128) : State × PutBack :=
  let old := Tbl.find? (s.bay b).l1 line
  match s.l1WritePart b line mask, old with
  | (s, .shield d a), some l => (s.setL1 b line l, .shield d a)
  | r, _ => r

/-- Writes back every dirty byte of one L1 line. -/
def State.l1WriteBack (s : State) (b line : Nat) : State × Bool := s.l1WriteMask b line (BitVec.allOnes 128)

/-- Writes back the dirty lines among `lines` of a bay; the answer counts them. -/
def l1WriteBackAll (b : Nat) : List Nat → State → State × Nat
  | [], s => (s, 0)
  | l :: t, s =>
    let (s, d) := s.l1WriteBack b l
    let (s, n) := l1WriteBackAll b t s
    (s, n + ofBool d)

/-- The L1 lines of a bay that a command has dirtied. -/
def State.l1DirtyOf (s : State) (b id : Nat) : List Nat :=
  ((s.bay b).l1.filter (fun e => e.2.cmds.contains id)).map (·.1)

/-- A gang has stores or atomics not yet acknowledged. -/
def State.gangStores (s : State) (g : Nat) : Bool :=
  s.reqs.any (fun e => decide (e.2.gang = g) && decide (e.2.kind ≠ .read))

/-- The ended gangs of a bay whose stores have all been written back count for their commit slots (R128). -/
def State.landEnded (s : State) (id b : Nat) : State :=
  let c := s.cmd id
  let lands := fun e : Nat × Nat × Nat => decide (e.2.1 = b) && !s.gangStores e.2.2
  s.setCmd id { c with
    ended := c.ended.filter (fun e => !lands e)
    slotEnds := (c.ended.filter lands).foldl (fun t e => Tbl.upd 0 t e.1 (· + 1)) c.slotEnds }

/-- Writes back every dirty line of a launch in a bay's L1 (R121, R214). -/
def State.l1FlushCmd (s : State) (b id : Nat) : State :=
  ((l1WriteBackAll b (s.l1DirtyOf b id) s).1).landEnded id b

/-- Drops the clean lines of a bay's L1 (R215). -/
def State.l1DropClean (s : State) (b : Nat) : State :=
  s.updBay b (fun v => { v with l1 := v.l1.filter (fun e => decide (e.2.dirty ≠ 0)) })

/-- Makes room for one more line: a clean line, freely chosen, is dropped; with none, a dirty line, freely chosen, is
written back and dropped (notes/assumptions/2.md). -/
def State.l1Room (s : State) (b : Nat) : State :=
  let v := s.bay b
  if v.l1.length < v.l1Lines then s
  else
    let clean := (v.l1.filter (fun e => decide (e.2.dirty = 0))).map (·.1)
    if clean = [] then
      let lines := v.l1.map (·.1)
      let (k, s) := s.drawChoice lines.length
      let l := lines.getD k 0
      (s.l1WriteBack b l).1.dropL1 b l
    else
      let (k, s) := s.drawChoice clean.length
      s.dropL1 b (clean.getD k 0)

/-- Allocates or extends an L1 line with the bytes of `mask`; bytes already held stay (R213). -/
def State.l1Fill (s : State) (b line : Nat) (data : Bytes) (mask : BitVec 128) : State :=
  match Tbl.find? (s.bay b).l1 line with
  | some l => s.setL1 b line { l with
      data := mergeBytes l.data data (mask &&& ~~~l.valid), valid := l.valid ||| mask }
  | none =>
    if (s.bay b).l1Lines = 0 then s
    else (s.l1Room b).setL1 b line { data := data, valid := mask, dirty := 0, cmds := [] }

/-- A PLAIN store into L1 (R213): the written bytes are marked dirty for the launch. -/
def State.l1Store (s : State) (b line id : Nat) (data : Bytes) (mask : BitVec 128) : State :=
  match Tbl.find? (s.bay b).l1 line with
  | some l => s.setL1 b line { l with
      data := mergeBytes l.data data mask, valid := l.valid ||| mask, dirty := l.dirty ||| mask
      cmds := if l.cmds.contains id then l.cmds else l.cmds ++ [id] }
  | none => (s.l1Room b).setL1 b line { data := data, valid := mask, dirty := mask, cmds := [id] }

/-- A VOLATILE store or atomic updates an L1 copy and clears the dirty marks of the written bytes (R213, R216). -/
def State.l1Update (s : State) (b line : Nat) (data : Bytes) (mask : BitVec 128) : State :=
  match Tbl.find? (s.bay b).l1 line with
  | some l =>
    let dirty := l.dirty &&& ~~~mask
    s.setL1 b line { l with
      data := mergeBytes l.data data mask, valid := l.valid ||| mask, dirty := dirty
      cmds := if dirty = 0 then [] else l.cmds }
  | none => s

/-- An atomic that bypasses L1 leaves no older copy of its bytes there (R216, R211). -/
def State.l1Forget (s : State) (b line : Nat) (mask : BitVec 128) : State :=
  match Tbl.find? (s.bay b).l1 line with
  | some l =>
    let dirty := l.dirty &&& ~~~mask
    s.setL1 b line { l with valid := l.valid &&& ~~~mask, dirty := dirty, cmds := if dirty = 0 then [] else l.cmds }
  | none => s

/-- Bytes that return reach an L1 copy where it does not hold newer ones (R216, R211). -/
def State.l1Learn (s : State) (b line : Nat) (data : Bytes) (mask : BitVec 128) : State :=
  match Tbl.find? (s.bay b).l1 line with
  | some l => s.setL1 b line { l with
      data := mergeBytes l.data data (mask &&& ~~~l.valid), valid := l.valid ||| mask }
  | none => s

/-! ## Scratch -/

/-- Bytes of a bay's scratch are written. -/
def scratchPut (t : Tbl Byte) (addr : Nat) : Bytes → Tbl Byte
  | [] => t
  | x :: xs => scratchPut (Tbl.set 0 t addr x) (addr + 1) xs

def State.scratchWrite (s : State) (b addr : Nat) (x : Bytes) : State :=
  s.updBay b (fun v => { v with scratch := scratchPut v.scratch addr x })

/-- The place in scratch of an offset of a footprint. -/
def footPlace (feet : List Nat) (off : Nat) : Nat := 256 * feet.getD (off / 256) 8192 + off % 256

/-- Bytes of a footprint from an offset. -/
def State.footRead (s : State) (b : Nat) (feet : List Nat) (off n : Nat) : Bytes :=
  (List.range n).map (fun i => Tbl.get 0 (s.bay b).scratch (footPlace feet (off + i)))

/-- Writes bytes of a footprint from an offset. -/
def footPut (feet : List Nat) (t : Tbl Byte) (off : Nat) : Bytes → Tbl Byte
  | [] => t
  | x :: xs => footPut feet (Tbl.set 0 t (footPlace feet off) x) (off + 1) xs

def State.footWrite (s : State) (b : Nat) (feet : List Nat) (off : Nat) (x : Bytes) : State :=
  s.updBay b (fun v => { v with scratch := footPut feet v.scratch off x })

/-! ## Read-only caches (R122) -/

/-- Lines of an instruction cache, of the constant cache and of the descriptor cache: 32, 64 and 16 KiB. -/
def icacheLines : Nat := 256
def ccacheLines : Nat := 512
def dcacheLines : Nat := 128

/-- Room for one more line beside the lines `mine` of a read-only cache: a full one gives up a line by a free choice, which
the spec does not state. -/
def State.roRoom (s : State) (t : Tbl Bytes) (mine : Nat → Bool) (cap : Nat) : Tbl Bytes × State :=
  let keys := (t.map (·.1)).filter mine
  if keys.length < cap then (t, s)
  else
    let (k, s) := s.drawChoice keys.length
    (Tbl.del t (keys.getD k 0), s)

/-- Invalidates the three read-only caches of a bay. -/
def State.roInvalidate (s : State) (b : Nat) : State :=
  s.updBay b (fun v => { v with icache := [], ccache := [], dcache := [] })

end Sys2Proof.Machine
end

