-- ==== Sys2Proof/Machine/Cmds.lean ====
section
/-! DEFINITION. The end of a command: final lines and commit slots (spec/13 R322, spec/04 R105), RESULT, the completion
record (R104, R106), references and epochs (spec/11 R258, R259), the commands behind it (R102) and the resources it gives
back (spec/05 R116). -/

namespace Sys2Proof.Machine

/-! ## Which parts of a run write a line (R153, R167, R172) -/

/-- Rows of `rb` bytes at stride `st` that meet line L of an output. -/
def rowsMeeting (st rb m L : Nat) : List Nat :=
  let lo := 128 * L / st
  ((List.range (127 / st + 2)).map (lo + ·)).filter (fun r => decide (r < m) && overlap (r * st) rb (128 * L) 128)

/-- The tiles of a slab row of elements of `bits` bits that meet byte offsets o to e − 1 of the row. -/
def tilesMeeting (b : Bytes) (bits o e : Nat) : List Nat :=
  let lo := o * 8 / bits / slTileN b
  let hi := min ((e * 8 - 1) / bits) (slN b - 1) / slTileN b
  (List.range (hi + 1 - lo)).map (lo + ·)

/-- The number of a work item from its chunk and N tile (R150). -/
def slItemOf (d b : Bytes) (chunk tile : Nat) : Nat :=
  if slShared b then tile * slChunks d b + chunk else chunk * slNTiles b + tile

/-- The units of work that write bytes of line L of an output: work items, bags, rows or lines. -/
def lineUnits (d b : Bytes) (out L : Nat) : List Nat :=
  let op := dOpcode d
  if op = opSlab then
    let st := if out = 0 then slCStride b else scaleStride (slN b)
    let bits := if out = 0 then (fmtOf (slOFmt b)).bits else 8
    let n := if out = 0 then slN b else slN b / 32
    let rb := ceilDiv (n * bits) 8
    (rowsMeeting st rb (slM d) L).flatMap (fun r =>
      let o := 128 * L - r * st
      let e := min (o + 128) rb
      let tiles := if out = 0 then tilesMeeting b bits o e else tilesMeeting b 1 (o * 4) (e * 4)
      tiles.map (slItemOf d b (r / slChunk b)))
  else if op = opGather then rowsMeeting (gaOutStride b) (gaOutBytes b) (gaBags b) L
  else if op = opSelect then
    let rb := if out = 0 then 16 * seK b else if seSums b && decide (out = 1) then 16 else seK b * sePLen b
    rowsMeeting rb rb (seRows b) L
  else if op = opCopy then [L]
  else []

/-- A unit of work has been written whole. -/
def Cmd.unitDone (c : Cmd) (u : Nat) : Bool :=
  let op := dOpcode c.desc
  if op = opGather then decide (u % 64 < Tbl.get 0 c.done (u / 64))
  else if op = opCopy then decide (u < Tbl.get 0 c.done 0)
  else decide (0 < Tbl.get 0 c.done u)

/-- A line whose write was refused is not final (R300). -/
def Cmd.refusedLine (c : Cmd) (out L : Nat) : Bool :=
  let o := dOut c.desc out
  !o.host && c.refusedLines.contains (o.addr + 128 * L)

/-- Every byte of the line that the command writes has been written (R153, R168, R180). -/
def Cmd.lineFinal (c : Cmd) (out L : Nat) : Bool :=
  (lineUnits c.desc c.block out L).all c.unitDone && !c.refusedLine out L

/-- The command writes some byte of the line. -/
def Cmd.lineWritten (c : Cmd) (out L : Nat) : Bool := !(lineUnits c.desc c.block out L).isEmpty

/-- The final lines of an output that the command has written, ascending. -/
def Cmd.finalLines (c : Cmd) (out : Nat) : List Nat :=
  (List.range (ceilDiv (dOut c.desc out).len 128)).filter (fun L => c.lineWritten out L && c.lineFinal out L)

/-- The lines of slot i of OUT[0] (R95). -/
def slotLines (d : Bytes) (i : Nat) : List Nat :=
  let per := (dOut d 0).len / 128 / dOutSlots d
  (List.range per).map (i * per + ·)

/-- Gang indices of a launch assigned to slot i: g × n div GANGS = i (R128). -/
def slotGangs (d : Bytes) (i : Nat) : Nat :=
  ceilDiv ((i + 1) * laGangs d) (dOutSlots d) - ceilDiv (i * laGangs d) (dOutSlots d)

/-- Slot i is committed. -/
def Cmd.slotDone (c : Cmd) (committed : List Nat) (i : Nat) : Bool :=
  let op := dOpcode c.desc
  let clean := (slotLines c.desc i).all (fun L => !c.refusedLine 0 L)
  if op = opLaunch then decide (slotGangs c.desc i ≤ Tbl.get 0 c.slotEnds i) && clean
  else if op = opSweld then committed.contains i
  else (slotLines c.desc i).all (c.lineFinal 0)

/-- The committed work that a record reports (R105, R106, R128, R154, R180, R200, R224, R283). -/
def Cmd.commit (c : Cmd) (outcome : Nat) (committed : List Nat) : Commit :=
  let op := dOpcode c.desc
  if outcome ≠ ocPartial ∧ outcome ≠ ocAborted then .nothing
  else if op = opRelease ∨ op = opFlush ∨ dOutCount c.desc = 0 then .nothing
  else if 2 ≤ dOutSlots c.desc then .bitmap ((List.range (dOutSlots c.desc)).filter (c.slotDone committed))
  else if op = opLaunch ∨ op = opSweld then .nothing
  else .extents ((List.range (dOutCount c.desc)).flatMap (fun o => extentsOf o (c.finalLines o)))

/-! ## RESULT -/

/-- The RESULT of a dispatched command (R128, R153, R179, R200, R224, R108, R278, R283); none where the spec states
none. -/
def Cmd.result (c : Cmd) (outcome : Nat) : Option Nat :=
  let op := dOpcode c.desc
  let engines := c.granted % 65536
  if outcome ≠ ocDone ∧ outcome ≠ ocPartial then none
  else if op = opSlab then
    some (engines + field 16 c.bays.length + field 24 (c.flags % 16) + field 32 (c.saves % 2 ^ 32))
  else if op = opGather then
    some (engines + field 16 (c.flags % 16) + field 20 (min 4095 c.saves) + field 32 (min (2 ^ 32 - 1) c.skipped))
  else if op = opSelect then
    some (engines + field 16 (c.flags % 8) + field 20 (min 4095 c.saves))
  else if outcome ≠ ocDone then none
  else if op = opLaunch then some (engines + field 16 c.bays.length + field 32 (c.saves % 2 ^ 32))
  else if op = opRelease then some (c.resA % 2 ^ 40 + field 40 (c.resB % 2 ^ 24))
  else if op = opFlush ∨ op = opSweld then some (c.resA % 2 ^ 32 + field 32 (c.resB % 2 ^ 32))
  else if op = opHandleSet ∨ op = opEpochFlip then some (c.resA % 2)
  else none

/-- A RESULT, drawn free where the spec states none. -/
def State.resultOr (s : State) : Option Nat → Nat × State
  | some r => (r, s)
  | none => s.drawResult

/-! ## Waiting records (R92) -/

/-- A record without a reservation becomes due: it waits in its CQ's order. -/
def State.waitRecord (s : State) (slice cq : Nat) (r : Rec) : State :=
  s.updCq slice cq (fun q => { q with waiting := q.waiting ++ [r] })

/-! ## Epochs (R258, R259) -/

def Handle.refOf (h : Handle) (b : Bool) : Nat := if b then h.refB else h.refA

def Handle.addRef (h : Handle) (b : Bool) : Handle :=
  if b then { h with refB := h.refB + 1 } else { h with refA := h.refA + 1 }

def Handle.dropRef (h : Handle) (b : Bool) : Handle :=
  if b then { h with refB := h.refB - 1 } else { h with refA := h.refA - 1 }

/-- The EPOCH_RETIRED record of a flip (R109). -/
def Handle.retiredRecord (h : Handle) (n time : Nat) : Rec :=
  { bytes := completionRecord h.flipTag.toNat h.flipSeq.toNat ocDone kindRetired h.flipSq 0 0 0 time
      (n + field 16 (ofBool (!h.current))) .nothing
    notify := true, after := h.flipCmd }

/-- Retires a handle's old base once its count is zero (R259). -/
def State.retireHandle (s : State) (slice n : Nat) : State :=
  let v := s.slice slice
  let h := v.handle n
  if !h.flipPending || decide (h.refOf (!h.current) ≠ 0) then s
  else
    let s := s.updHandle slice n (fun h => { h with flipPending := false, flipCmd := none })
    if h.flipMgr then
      { s with dev := { s.dev with handleRetired := true, retiredHandle := n, retiredBase := !h.current
                                   retiredSlice := slice } }
    else if v.reset = .none ∧ (v.cq h.flipCq).enable then
      s.waitRecord slice h.flipCq (h.retiredRecord n s.time)
    else s

/-- Releases the epoch references of a command (R107, R258). -/
def State.releaseRefs (s : State) (id : Nat) : State :=
  let c := s.cmd id
  let s := c.captures.foldl (fun s e =>
    (s.updHandle c.slice e.1 (fun h => h.dropRef e.2)).retireHandle c.slice e.1) s
  s.updCmd id (fun c => { c with captures := [] })

/-! ## The commands behind a command (R102) -/

/-- A command that needs its earlier commands to have completed DONE. -/
def Cmd.needsEarlier (c : Cmd) : Bool := dOrdered c.desc || decide (dOpcode c.desc = opEpochFlip)

/-- Completions by outcome (Table 14.6). -/
def State.countOutcome (s : State) (slice outcome : Nat) : State :=
  let s := s.count slice (if outcome = ocDone then 0 else 1) 1
  if outcome = ocExpired then s.count slice 2 1 else s

/-- A command that was never dispatched completes: its record waits and keeps its window place (R92). -/
def State.finishUndispatched (s : State) (id outcome detail arg : Nat) (result : Option Nat) (await : Option Nat) :
    State :=
  let c := s.cmd id
  let (r, s) := s.resultOr result
  let s := (s.setCmd id { c with phase := .placed, outcome := outcome }).countOutcome c.slice outcome
  s.waitRecord c.slice (dCq c.desc)
    { bytes := completionRecord (dTag c.desc) (dSeq c.desc) outcome kindCommand c.sq detail arg 0 s.time r .nothing
      notify := dNotify c.desc, place := some id, awaitSeq := await }

/-- The windowed commands of an SQ, in ring order, learn which commands have completed and with which ring index of a
failure; those that then cannot be dispatched complete NOT_STARTED, which the later ones learn in turn. -/
def resolveWindow : List Nat → List (Nat × Option Nat) → State → State
  | [], _, s => s
  | id :: t, gone, s =>
    let c := s.cmd id
    if c.phase ≠ .windowed then resolveWindow t gone s
    else
      let met := gone.filter (fun e => c.earlier.contains e.1)
      let fail := match c.predFail with
        | some r => some r
        | none => (met.filterMap (·.2)).head?
      let s := s.setCmd id { c with
        earlier := c.earlier.filter (fun e => !(met.any (fun g => g.1 == e))), predFail := fail }
      match fail with
      | some r =>
        if c.needsEarlier then
          resolveWindow t (gone ++ [(id, some c.ring)])
            (s.finishUndispatched id ocNotStarted 2 r none none)
        else resolveWindow t gone s
      | none => resolveWindow t gone s

/-- A command of an SQ has completed (R102). -/
def State.resolveEarlier (s : State) (slice sq id : Nat) (fail : Option Nat) : State :=
  resolveWindow ((s.slice slice).sq sq).window [(id, fail)] s

/-! ## Resources -/

/-- Takes a command off every engine of a bay, which is unheld once no work remains on it. -/
def State.leaveBay (s : State) (id b : Nat) : State :=
  let s := s.updBay b (fun v => { v with
    cores := v.cores.filter (fun e => e.2 != id)
    arrays := v.arrays.filter (fun e => e.2.cmd != some id)
    hod := if v.hod = some id then none else v.hod
    hodPayload := if v.hod = some id then false else v.hodPayload
    riddle := if v.riddle = some id then none else v.riddle })
  s.unholdBay b

/-- Takes a command off every bay and ends its gangs; its requests still outstanding have no taker any more. -/
def State.leaveEngines (s : State) (id : Nat) : State :=
  let s := { s with
    gangs := s.gangs.filter (fun e => e.2.cmd != id) }.orphan (fun r => decide (r.cmd = id))
  (List.range 48).foldl (fun s b => s.leaveBay id b) s

/-! ## Completion -/

/-- The writes of a command have all landed or failed (R222). -/
def State.writesLanded (s : State) (id : Nat) : Bool :=
  !(s.reqs.any (fun e => decide (e.2.cmd = id) && decide (e.2.kind ≠ .read) && e.2.answer.isNone))
    && !(s.uc.capstones.any (fun e => decide (e.2.cmd = id) && !e.2.failed))

/-- A dispatched command completes: its record becomes due in its reserved slot, its references and engines are given
back, and a fault's escalation follows (R106, R222, R306). -/
def State.completeWith (s : State) (id : Nat) (st : Stop) (timeDone : Nat) (result : Option Nat) : State :=
  let c := s.cmd id
  let committed := match Tbl.find? s.sweld.expects id with
    | some e => e.committed
    | none => []
  let (res, s) := s.resultOr result
  let r : Rec := {
    bytes := completionRecord (dTag c.desc) (dSeq c.desc) st.outcome kindCommand c.sq st.detail st.arg c.timeDispatch
      timeDone res (c.commit st.outcome committed)
    notify := dNotify c.desc, cmd := some id, orderRead := c.otherPort, awaitSeq := st.awaitSeq }
  let s := s.updCq c.slice (dCq c.desc) (fun q => { q with due := q.due ++ [r] })
  let s := s.countOutcome c.slice st.outcome
  let s := if c.dispatched then s.count c.slice 4 (timeDone - c.timeDispatch) else s
  let s := s.releaseRefs id
  let s := s.leaveEngines id
  let s := { s with sweld := { s.sweld with expects := Tbl.del s.sweld.expects id }, cmds := Tbl.del s.cmds id }
  s.resolveEarlier c.slice c.sq id (if st.outcome = ocDone then none else some c.ring)

/-- A dispatched command completes with the RESULT of its opcode. -/
def State.completeCmd (s : State) (id : Nat) (st : Stop) (timeDone : Nat) : State :=
  s.completeWith id st timeDone ((s.cmd id).result st.outcome)

/-- How a finished command ends: its stop, a refused write, or DONE (R106, R300, R323). A fault that stopped it after a write
was refused is not the one detected first, which DETAIL_ARG names (R324). -/
def Cmd.ending (c : Cmd) : Stop :=
  match c.stop, c.refusal with
  | some st, some first =>
    if st.outcome = ocPartial ∧ st.detail = 1 then { st with arg := first.arg } else st
  | some st, none => st
  | none, some first => first
  | none, none => { outcome := ocDone, detail := 0, arg := 0 }

/-- The dirty L1 lines of a command are written back on every bay (R121, R129). -/
def State.flushCmdL1 (s : State) (id : Nat) : State :=
  (List.range 48).foldl (fun s b => if (s.l1DirtyOf b id).isEmpty then s.landEnded id b else s.l1FlushCmd b id) s

/-- The bays of a command report its end to its queue engine (R234). -/
def State.sendDone (s : State) (id : Nat) : State :=
  let c := s.cmd id
  c.bays.foldl (fun s b => s.signalUnits .completion (unitBay b) (unitQueue ((s.slice c.slice).sq c.sq).port)) s

/-- COMMAND_COMPLETE (R222): the engines of a command have finished or stopped, its writes have landed, and its record
becomes due. -/
def State.doCommandComplete (s : State) (id : Nat) : State :=
  if (s.cmd id).phase ≠ .finishing then s
  else
    let s := s.flushCmdL1 id
    if s.writesLanded id then (s.sendDone id).completeCmd id (s.cmd id).ending s.time else s

def execCommandComplete (c : Nat) (s : State) : Host.Outcome State Fault Refusal := .next (s.settled (fun s => s.doCommandComplete c))

/-! ## Posting (R92, R93, R315) -/

/-- A record may be posted: the tenant copy it waits for has been posted, and the record that goes before it too. -/
def State.recReady (s : State) (slice : Nat) (due : List Rec) (r : Rec) : Bool :=
  (match r.awaitSeq with
   | some q => !s.copyPending slice q
   | none => true)
  && (match r.after with
   | some id => !(due.any (fun e => e.cmd == some id)) && !s.hasCmd id
   | none => true)

/-- The first record of a list that may be posted, and the list without it. -/
def takeReady (ok : Rec → Bool) : List Rec → Option (Rec × List Rec)
  | [] => none
  | r :: t => if ok r then some (r, t) else match takeReady ok t with
    | some (x, u) => some (x, r :: u)
    | none => none

/-- A command's window place is freed when its record is posted (R92). -/
def State.freePlace (s : State) (id : Nat) : State :=
  let c := s.cmd id
  let s := s.updSq c.slice c.sq (fun q => { q with window := q.window.filter (· != id) })
  { s with cmds := Tbl.del s.cmds id }

/-- A zero-length read goes before a record (R222): data of its command, or the tenant copy that it follows (R315), went on
the other port. -/
def State.needsRead (s : State) (slice : Nat) (r : Ring) (x : Rec) : Bool :=
  x.orderRead || (x.awaitSeq.isSome && (s.slice slice).fq.enable && decide ((s.slice slice).fq.port ≠ r.port))

/-- POST_COMPLETION_RECORD: the oldest record that may go is written to its reserved slot. -/
def State.doPostCompletion (s : State) (slice q : Nat) : State :=
  let r := (s.slice slice).cq q
  if !s.linkUp r.port || !s.ready then s
  else match takeReady (s.recReady slice r.due) r.due with
    | none => s
    | some (x, rest) =>
      let s := if s.needsRead slice r x then s.orderRead r.port else s
      let (s, r) := s.postTenant slice { r with due := rest, reserved := r.reserved - 1 } 0x0D x
      s.updCq slice q (fun _ => r)

def execPostCompletionRecord (slice : BitVec 8) (q : BitVec 4) (s : State) : Host.Outcome State Fault Refusal :=
  .next (s.doPostCompletion slice.toNat q.toNat)

/-- POST_WAITING_RECORD: the oldest waiting record goes to a free slot. -/
def State.doPostWaiting (s : State) (slice q : Nat) : State :=
  let r := (s.slice slice).cq q
  match r.waiting with
  | [] => s
  | x :: rest =>
    if !s.linkUp r.port || !s.ready || !r.enable || decide (r.free = 0) || !s.recReady slice r.due x then s
    else
      let (s, r) := s.postTenant slice { r with waiting := rest } 0x0D x
      let s := s.updCq slice q (fun _ => r)
      match x.place with
      | some id => s.freePlace id
      | none => s

def execPostWaitingRecord (slice : BitVec 8) (q : BitVec 4) (s : State) : Host.Outcome State Fault Refusal :=
  .next (s.doPostWaiting slice.toNat q.toNat)

end Sys2Proof.Machine
end

