-- ==== Sys2Proof/Machine/Queues.lean ====
section
/-! DEFINITION. The doorbell page and the rings: tail and head doorbells (spec/04 R91, R92), queue configuration (R90,
R102), the buffer pool (R110, R111) and the tenant's reset request (R113). -/

namespace Sys2Proof.Machine

/-! ## The page (R88, R113) -/

/-- A write reaches a doorbell page: the page of a slice that is OFF drops it; one of a FROZEN slice drops and counts it
in LATE_WRITES; a doorbell during a tenant reset is dropped and counted. -/
def State.pageWrite (s : State) (slice : Nat) (doorbell : Bool) (f : State → State) : State :=
  let v := s.slice slice
  if !s.ready || decide (v.state = .off) then s
  else if v.state = .frozen then s.updSlice slice (fun v => { v with lateWrites := satAdd 32 v.lateWrites 1 })
  else if doorbell && decide (v.reset ≠ .none) then
    s.updSlice slice (fun v => { v with droppedDoorbells := satAdd 32 v.droppedDoorbells 1 })
  else f s

/-! ## The tail doorbell (R91) -/

/-- Entries from the head to a ring index. -/
def Sq.ahead (q : Sq) (v : Nat) : Nat := (v + 2 ^ q.sizeLog2.toNat - q.head) % 2 ^ q.sizeLog2.toNat

/-- A tail doorbell. -/
def Sq.tailDoorbell (q : Sq) (v : Nat) : Sq :=
  if !q.enable || decide (2 ^ q.sizeLog2.toNat ≤ v) || decide (q.ahead v < q.ahead q.tail) then
    { q with badDoorbell := true }
  else { q with tail := v, stopped := false }

def State.doSqTail (s : State) (slice q v : Nat) : State :=
  s.pageWrite slice true (fun s =>
    if q < (s.slice slice).defn.sqCount then s.updSq slice q (fun x => x.tailDoorbell (v % 65536)) else s)

def execSqTailDoorbell (slice : BitVec 8) (q : BitVec 4) (value : W32) (s : State) : Host.Outcome State Fault Refusal :=
  .next (s.doSqTail slice.toNat q.toNat value.toNat)

/-! ## Head doorbells (R92) -/

def State.doHead (s : State) (r : RingId) (v : Nat) : State :=
  match r with
  | .cq slice q => s.pageWrite slice.toNat true (fun s =>
      if q.toNat < (s.slice slice.toNat).defn.cqCount then
        s.updCq slice.toNat q.toNat (fun x => x.headDoorbell (v % 65536)) else s)
  | .fq slice => s.pageWrite slice.toNat true (fun s =>
      s.updSlice slice.toNat (fun x => { x with fq := x.fq.headDoorbell (v % 65536) }))
  | .flt => if s.stopRegs then { s with flt := { s.flt with ring := s.flt.ring.headDoorbell (v % 65536) } } else s
  | .tel => if s.ready then { s with tel := { s.tel with ring := s.tel.ring.headDoorbell (v % 65536) } } else s
  | .log => if s.ready then { s with mig := { s.mig with ring := s.mig.ring.headDoorbell (v % 2 ^ 20) } } else s

def execCqHeadDoorbell (ring : RingId) (value : W32) (s : State) : Host.Outcome State Fault Refusal :=
  .next (s.doHead ring value.toNat)

/-! ## The pool (R110, R111) -/

/-- Returns a buffer to the pool, zeroed. -/
def State.freeBuffer (s : State) (i : Nat) : State :=
  s.setBuffer i { s.buffer i with owner := none, data := [] }

/-- Buffers a slice holds. -/
def State.heldBuffers (s : State) (slice : Nat) : Nat :=
  (s.pool.filter (fun e => decide (e.2.owner = some slice))).length

/-- The quoin that holds a buffer. -/
def bufferQuoin (i : Nat) : Bool := decide (8192 ≤ i)

/-- A rejected free: counted, and reported on the freeing slice (R111). -/
def State.rejectFree (s : State) (slice id : Nat) (foreign : Bool) : State :=
  let s := s.updSlice slice (fun v =>
    if foreign then { v with foreignFrees := satAdd 16 v.foreignFrees 1 }
    else { v with doubleFrees := satAdd 16 v.doubleFrees 1 })
  s.raise (if foreign then fcForeignFree else fcDoubleFree)
    { unit := unitQueue (bufferQuoin (id % 16384)), slice := some slice, info0 := id }

/-- A write of a BUF_ID to QE_POOL_FREE (R111). -/
def State.doPoolFree (s : State) (slice id : Nat) : State :=
  s.pageWrite slice false (fun s =>
    let b := s.buffer (id % 16384)
    if bitsOf id 31 30 ≠ 0 then s.rejectFree slice id true
    else if b.owner.isNone || decide (b.gen.toNat ≠ bitsOf id 29 14) then s.rejectFree slice id false
    else if b.owner ≠ some slice then s.rejectFree slice id true
    else s.freeBuffer (id % 16384))

def execQePoolFree (slice : BitVec 8) (value : W32) (s : State) : Host.Outcome State Fault Refusal :=
  .next (s.doPoolFree slice.toNat value.toNat)

/-- A write to QE_TENANT_RESET (R113): the request is held until the reset is made. -/
def State.doTenantResetRequest (s : State) (slice v : Nat) : State :=
  s.pageWrite slice false (fun s =>
    if v % 256 = 0xC3 then s.askTenantReset slice else s)

def execQeTenantReset (slice : BitVec 8) (value : W32) (s : State) : Host.Outcome State Fault Refusal :=
  .next (s.doTenantResetRequest slice.toNat value.toNat)

/-! ## CFG and BASE registers (R90) -/

/-- The fields of a CFG write. -/
structure CfgVal where
  pasid : BitVec 20
  port : Bool
  enable : Bool
  sizeLog2 : BitVec 5
  notifyEn : Bool
  notifyValue : W32

/-- Table 4.17. -/
def tenantCfg (v : W64) : CfgVal :=
  { pasid := v.extractLsb' 0 20, port := v.getLsbD 20, enable := v.getLsbD 21, sizeLog2 := v.extractLsb' 22 5
    notifyEn := v.getLsbD 27, notifyValue := v.extractLsb' 32 32 }

/-- Table 13.11. -/
def managerCfg (v : W64) : CfgVal :=
  { pasid := 0, port := v.getLsbD 5, enable := v.getLsbD 6, sizeLog2 := v.extractLsb' 0 5, notifyEn := v.getLsbD 7
    notifyValue := v.extractLsb' 32 32 }

/-- ADDR of a BASE register. -/
def baseAddr (v : W64) : W64 := v &&& ~~~(0xFFF#64)

/-- Whether a tenant queue may be enabled (R90). -/
def SliceDef.mayEnable (d : SliceDef) (c : CfgVal) : Bool :=
  bitAt (d.ports c.pasid.toNat) (portBit c.port) && decide (6 ≤ c.sizeLog2.toNat) && decide (c.sizeLog2.toNat ≤ d.maxDepth)

/-- A CFG write to a ring that is not enabled. -/
def Ring.configure (r : Ring) (c : CfgVal) (ok : Bool) : Ring :=
  let r := { r with pasid := c.pasid, port := c.port, sizeLog2 := c.sizeLog2, notifyEn := c.notifyEn
                    notifyValue := c.notifyValue }
  if c.enable then
    if ok then { r with enable := true, head := 0, tail := 0, posted := 0, phase := true }
    else { r with cfgError := true }
  else r

/-- Every field of the write but ENABLE is what the ring holds. -/
def Ring.same (r : Ring) (c : CfgVal) : Bool :=
  decide (r.pasid = c.pasid) && decide (r.port = c.port) && decide (r.sizeLog2 = c.sizeLog2)
    && decide (r.notifyEn = c.notifyEn) && decide (r.notifyValue = c.notifyValue)

/-- A CFG write (R90): `ok` says whether an enable may take effect. Disabling is the caller's where records wait. -/
def Ring.cfgWrite (r : Ring) (c : CfgVal) (ok : Bool) : Ring :=
  if r.enable then
    if !c.enable then (if r.reserved = 0 then { r with enable := false } else { r with cfgError := true })
    else if r.same c then r else { r with cfgError := true }
  else r.configure c ok

/-- A BASE write (R90). -/
def Ring.baseWrite (r : Ring) (v : W64) : Ring :=
  if r.enable then { r with cfgError := true } else { r with base := baseAddr v }

/-- A waiting record of a CQ that is disabled is discarded and counted (R92, R279). -/
def State.discardRec (s : State) (slice q : Nat) (x : Rec) : State :=
  let s := s.updCq slice q (fun r => { r with lost := satAdd 16 r.lost 1 })
  let s := match x.buffer with
    | some i => (s.freeBuffer i).updSlice slice (fun v => { v with refusedArrivals := satAdd 16 v.refusedArrivals 1 })
    | none => s
  match x.place with
  | some id => s.freePlace id
  | none => s

/-- Discards the waiting records of a CQ. -/
def State.discardWaiting (s : State) (slice q : Nat) : State :=
  let ws := ((s.slice slice).cq q).waiting
  let s := s.updCq slice q (fun r => { r with waiting := [] })
  ws.foldl (fun s x => s.discardRec slice q x) s

/-- Disables an SQ: the commands in its window complete NOT_STARTED QUEUE_DISABLED (R102). -/
def State.disableSq (s : State) (slice q : Nat) : State :=
  let w := ((s.slice slice).sq q).window
  let s := s.updSq slice q (fun x => { x with enable := false })
  w.foldl (fun s id =>
    if (s.cmd id).phase = .windowed then s.finishUndispatched id ocNotStarted 1 0 none none else s) s

/-- A CFG write of an SQ. -/
def State.sqCfg (s : State) (slice q : Nat) (c : CfgVal) : State :=
  let x := (s.slice slice).sq q
  if x.enable then
    if !c.enable then s.disableSq slice q
    else if x.pasid = c.pasid ∧ x.port = c.port ∧ x.sizeLog2 = c.sizeLog2 then s
    else s.updSq slice q (fun x => { x with cfgError := true })
  else
    s.updSq slice q (fun x =>
      let x := { x with pasid := c.pasid, port := c.port, sizeLog2 := c.sizeLog2 }
      if !c.enable then x
      else if (s.slice slice).defn.mayEnable c then
        { x with enable := true, head := 0, tail := 0, stopped := false, seqEmpty := true, high := 0, seen := 0 }
      else { x with cfgError := true })

/-- A CFG write of a CQ. -/
def State.cqCfg (s : State) (slice q : Nat) (c : CfgVal) : State :=
  let v := s.slice slice
  let r := v.cq q
  let s := s.updCq slice q (fun r => r.cfgWrite c (v.defn.mayEnable c))
  if r.enable && !((s.slice slice).cq q).enable then s.discardWaiting slice q else s

/-- A manager ring may be enabled with SIZE_LOG2 from 6 to `top` (R327, R360, R373). -/
def managerMay (c : CfgVal) (top : Nat) : Bool := decide (6 ≤ c.sizeLog2.toNat) && decide (c.sizeLog2.toNat ≤ top)

/-- The write of a CFG or BASE register of a manager ring. -/
def State.onManagerRing (s : State) (r : RingId) (f : Ring → Nat → Ring) : State :=
  match r with
  | .flt => if s.stopRegs then { s with flt := { s.flt with ring := f s.flt.ring 16 } } else s
  | .tel => if s.ready then { s with tel := { s.tel with ring := f s.tel.ring 16 } } else s
  | .log => if s.ready then { s with mig := { s.mig with ring := f s.mig.ring 20 } } else s
  | _ => s

/-- QUEUE_CFG_WRITE (R90). -/
def State.doQueueCfg (s : State) (reg : QueueReg) (v : W64) : State :=
  match reg with
  | .sqCfg sl q => s.pageWrite sl.toNat false (fun s =>
      if q.toNat < (s.slice sl.toNat).defn.sqCount then s.sqCfg sl.toNat q.toNat (tenantCfg v) else s)
  | .sqBase sl q => s.pageWrite sl.toNat false (fun s =>
      if q.toNat < (s.slice sl.toNat).defn.sqCount then
        s.updSq sl.toNat q.toNat (fun x =>
          if x.enable then { x with cfgError := true } else { x with base := baseAddr v })
      else s)
  | .ringCfg (.cq sl q) => s.pageWrite sl.toNat false (fun s =>
      if q.toNat < (s.slice sl.toNat).defn.cqCount then s.cqCfg sl.toNat q.toNat (tenantCfg v) else s)
  | .ringBase (.cq sl q) => s.pageWrite sl.toNat false (fun s =>
      if q.toNat < (s.slice sl.toNat).defn.cqCount then s.updCq sl.toNat q.toNat (fun r => r.baseWrite v) else s)
  | .ringCfg (.fq sl) => s.pageWrite sl.toNat false (fun s =>
      s.updSlice sl.toNat (fun x => { x with fq := x.fq.cfgWrite (tenantCfg v) (x.defn.mayEnable (tenantCfg v)) }))
  | .ringBase (.fq sl) => s.pageWrite sl.toNat false (fun s =>
      s.updSlice sl.toNat (fun x => { x with fq := x.fq.baseWrite v }))
  | .ringCfg r => s.onManagerRing r (fun x top => x.cfgWrite (managerCfg v) (managerMay (managerCfg v) top))
  | .ringBase r => s.onManagerRing r (fun x _ => x.baseWrite v)

def execQueueCfgWrite (reg : QueueReg) (value : W64) (s : State) : Host.Outcome State Fault Refusal :=
  .next (s.doQueueCfg reg value)

end Sys2Proof.Machine
end

