-- ==== Sys2Proof/Machine/Fetch.lean ====
section
/-! DEFINITION. Fetching a descriptor (spec/04 R91): its checks in order (R97, R412) and the sequence window (R98). -/

namespace Sys2Proof.Machine

/-! ## The sequence window (R98) -/

/-- What the sequence check finds: acceptance, or a duplicate with its DETAIL. -/
inductive SeqAns where
  | accept
  | duplicate (detail : Nat)
deriving DecidableEq, Repr

/-- seq_check of R98. -/
def Sq.seqCheck (q : Sq) (n : W32) : Sq × SeqAns :=
  if q.seqEmpty then ({ q with seqEmpty := false, high := n, seen := 1 }, .accept)
  else
    let ahead := (n - q.high).toNat
    if 1 ≤ ahead ∧ ahead < 2 ^ 31 then ({ q with high := n, seen := (q.seen <<< ahead) ||| 1 }, .accept)
    else
      let back := (q.high - n).toNat
      if back ≤ 1023 then
        if q.seen.getLsbD back then (q, .duplicate 0) else ({ q with seen := q.seen ||| (1#1024 <<< back) }, .accept)
      else (q, .duplicate 1)

/-! ## The checks -/

/-- What the checks of a descriptor found. -/
inductive Checked where
  | pass
  | reject (f : Fail)
  /-- A fetch-time read met a fault, whose stop the command holds; the field holds the address read. -/
  | faulted (field : Nat)
deriving DecidableEq, Repr

/-- The handle numbers of a handle list. -/
def handlesOf (b : Bytes) (n : Nat) : List Nat := (List.range n).map (fun i => leAt b (2 * i) 2)

/-- Step 4 of R97: the handle list. -/
def State.fetchHandles (s : State) (id : Nat) (g : Agent) : State × Checked :=
  let d := (s.cmd id).desc
  let n := dHandleCount d
  if n = 0 then (s, .pass)
  else match s.agRead g (dHandleList d) (2 * n) with
    | (s, none) => (s, .faulted 0x18)
    | (s, some b) =>
      let hs := handlesOf b n
      let s := s.updCmd id (fun c => { c with handleList := hs })
      if hs.all (fun h => decide (h < (s.slice g.slice).defn.tableHandles)) then (s, .pass)
      else (s, .reject { detail := rjHandle, arg := 0x18 })

/-- The number of list positions of a gather: offset[BAGS], or BAGS for POOL NONE. R412 does not list
this read: where it fails the number is taken as 0, and its fault is dropped (DESIGN CHOICE, notes/assumptions/67.md). -/
def State.gatherLen (s : State) (g : Agent) (b : Bytes) : Nat :=
  if gaPool b = 0 then gaBags b
  else match (s.agRead g (gaOffset b + 4 * gaBags b) 4).2 with
    | some x => leVal x
    | none => 0

/-- Step 5 of R97: the block is read and the opcode's own checks are made. -/
def State.fetchBlock (s : State) (id : Nat) (g : Agent) : State × Checked :=
  let c := s.cmd id
  let d := c.desc
  let v := (s.slice g.slice).defn
  let judge : State → Bytes → Nat → State × Checked := fun s b n =>
    match step5 v d b c.handleList n with
    | some f => (s, .reject f)
    | none => (s, .pass)
  if hasBlock (dOpcode d) then
    if leAt d 0x28 8 % 128 ≠ 0 then (s, .reject (atDesc 0x28))
    else match s.agRead g (leAt d 0x28 8) 128 with
      | (s, none) => (s, .faulted 0x28)
      | (s, some b) =>
        let s := s.updCmd id (fun c => { c with block := b, items := workItems d b })
        judge s b (if dOpcode d = opGather then s.gatherLen g b else 0)
  else judge s [] 0

/-- Steps 2 to 5 in order (R97). -/
def State.fetchChecks (s : State) (id : Nat) (g : Agent) : State × Checked :=
  let d := (s.cmd id).desc
  let v := (s.slice g.slice).defn
  match step2 v.classMask d with
  | some f => (s, .reject f)
  | none =>
    match step3 v d with
    | some f => (s, .reject f)
    | none =>
      match s.fetchHandles id g with
      | (s, .pass) => s.fetchBlock id g
      | r => r

/-- The earlier commands of R102: accepted before on the same SQ, and not completed. -/
def State.earlierOf (s : State) (slice sq : Nat) : List Nat :=
  (s.cmds.filter (fun e => decide (e.2.slice = slice) && decide (e.2.sq = sq)
    && (e.2.live || decide (e.2.phase = .windowed)))).map (·.1)

/-- A command that its checks end completes without dispatch. -/
def State.fetchEnd (s : State) (id outcome detail arg : Nat) (result : Option Nat) (await : Option Nat) : State :=
  s.finishUndispatched id outcome detail arg result await

/-- The outcome of a fetched descriptor with a valid CQ. -/
def State.fetchJudge (s : State) (id : Nat) (g : Agent) : State :=
  -- while its checks read memory the command can be stopped by what they meet
  let before := s.earlierOf g.slice (s.cmd id).sq |>.filter (· != id)
  let s := s.updCmd id (fun c => { c with phase := .running })
  match s.fetchChecks id g with
  | (s, .reject f) =>
    s.fetchEnd id ocRejected f.detail f.arg (if f.arg = 0x28 ∧ f.detail = rjArgs then some f.result else none) none
  | (s, .faulted field) =>
    match (s.cmd id).stop with
    | some st =>
      if st.outcome = ocAborted then s.fetchEnd id ocAborted st.detail st.arg none none
      else s.fetchEnd id ocRejected rjAddress field none st.awaitSeq
    | none => s.fetchEnd id ocRejected rjAddress field none none
  | (s, .pass) =>
    let c := s.cmd id
    let (q, ans) := ((s.slice g.slice).sq c.sq).seqCheck (BitVec.ofNat 32 (dSeq c.desc))
    let s := s.updSq g.slice c.sq (fun _ => q)
    match ans with
    | .accept => s.updCmd id (fun c => { c with phase := .windowed, earlier := before })
    | .duplicate k => s.fetchEnd id ocDuplicate k q.high.toNat none none

/-- The entry at the head has been read. -/
def State.fetched (s : State) (slice q : Nat) (d : Bytes) : State :=
  let x := (s.slice slice).sq q
  let ring := x.head
  let s := s.updSq slice q (fun x => { x with head := (x.head + 1) % 2 ^ x.sizeLog2.toNat })
  let cq := (s.slice slice).cq (dCq d)
  let s := s.count slice 12 128
  if (s.slice slice).defn.cqCount ≤ dCq d ∨ !cq.enable then
    s.raise fcBadCq { unit := unitQueue x.port, slice := some slice, info0 := q + field 16 ring }
  else
    let id := s.arb.nextCmd
    let s := { s with arb := { s.arb with nextCmd := id + 1 } }
    let s := s.setCmd id { slice := slice, sq := q, ring := ring, desc := d, fetchTime := s.time }
    let s := s.updSq slice q (fun x => { x with window := x.window ++ [id] })
    s.fetchJudge id (quoinAgent id slice x.port)

/-- A descriptor read failed (R91): HOST_ACCESS, and fetching stops until the next tail doorbell. -/
def State.fetchFailed (s : State) (slice q status : Nat) : State :=
  let x := (s.slice slice).sq q
  let s := s.updSq slice q (fun x => { x with stopped := true })
  s.raise fcHostAccess { unit := unitQueue x.port, slice := some slice, info0 := status
                         info1 := x.base.toNat + 128 * x.head }

/-- FETCH_DESCRIPTOR (R91). -/
def State.doFetch (s : State) (slice q : Nat) (reply : HostReply) : State :=
  let v := s.slice slice
  let x := v.sq q
  if !s.ready || decide (v.state ≠ .active) || decide (v.reset = .running) || !x.enable || x.stopped
      || decide (x.head = x.tail) || decide (64 ≤ x.window.length) || decide (v.defn.sqCount ≤ q) then s
  else if !s.linkUp x.port then s.fetchFailed slice q 0xFF
  else match reply with
    | .ok d => s.fetched slice q (bytesAt d 0 128)
    | .error st => s.fetchFailed slice q st
    | .linkDown => s.fetchFailed slice q 0xFF

def execFetchDescriptor (slice : BitVec 8) (q : BitVec 4) (reply : HostReply) (s : State) :
    Host.Outcome State Fault Refusal :=
  .next (s.settled (fun s => s.doFetch slice.toNat q.toNat reply))

end Sys2Proof.Machine
end

