-- ==== Sys2Proof/Machine/Handles.lean ====
section
/-! DEFINITION. Table handles (spec/04 R108, spec/11 R257 to R260, R266): HANDLE_SET and EPOCH_FLIP take effect, and the
manager's operations. -/

namespace Sys2Proof.Machine

/-- The base that a handle's epoch selects. -/
def Handle.base (h : Handle) (b : Bool) : Nat := (if b then h.baseB else h.baseA).toNat

/-- HANDLE_SET is busy: an epoch reference or a flip not yet retired (R108). -/
def Handle.setBusy (h : Handle) : Bool := decide (h.refA ≠ 0) || decide (h.refB ≠ 0) || h.flipPending

/-- Sets a handle (R257). -/
def Handle.set (h : Handle) (a b : W64) (current : Bool) : Handle :=
  { h with baseA := a, baseB := b, current := current }

/-- A tenant's flip (R257, R259). -/
def Handle.flip (h : Handle) (c : Cmd) (id : Nat) : Handle :=
  { h with
    current := !h.current, flipPending := true, flipMgr := false, flipCq := dCq c.desc, flipSq := c.sq
    flipTag := BitVec.ofNat 64 (dTag c.desc), flipSeq := BitVec.ofNat 32 (dSeq c.desc), flipCmd := some id }

/-- The effect of a dispatched HANDLE_SET or EPOCH_FLIP, which completes DONE (R108). -/
def State.handleEffect (s : State) (id : Nat) : State :=
  let c := s.cmd id
  let d := c.desc
  let n := haHandle d
  let done : Stop := { outcome := ocDone, detail := 0, arg := 0 }
  if dOpcode d = opHandleSet then
    let s := s.updHandle c.slice n (fun h =>
      h.set (BitVec.ofNat 64 (leAt d 0x30 8)) (BitVec.ofNat 64 (leAt d 0x38 8)) (haCurrent d))
    (s.updCmd id (fun c => { c with resA := ofBool (haCurrent d) })).completeCmd id done s.time
  else
    let s := s.updHandle c.slice n (fun h => h.flip c id)
    let s := s.updCmd id (fun c' => { c' with resA := ofBool (((s.slice c.slice).handle n).current) })
    (s.completeCmd id done s.time).retireHandle c.slice n

/-- A HANDLE_SET or EPOCH_FLIP that has been dispatched and has not yet taken effect. -/
def Cmd.handleOpPending (c : Cmd) (op : Nat) : Bool :=
  decide (dOpcode c.desc = op) && decide (c.phase = .running) && c.stop.isNone

/-- Handle operations that take effect on this edge: all but the command dispatched on it (R108). -/
def State.handleEffects (s : State) (butNot : Option Nat) : State :=
  (s.cmds.filter (fun e => decide (some e.1 ≠ butNot)
      && (e.2.handleOpPending opHandleSet || e.2.handleOpPending opEpochFlip))).foldl
    (fun s e => s.handleEffect e.1) s

def State.doHandleOp (s : State) (id op : Nat) : State :=
  if (s.cmd id).handleOpPending op then s.handleEffect id else s

def execHandleSet (c : Nat) (s : State) : Host.Outcome State Fault Refusal := .next (s.doHandleOp c opHandleSet)

def execEpochFlip (c : Nat) (s : State) : Host.Outcome State Fault Refusal := .next (s.doHandleOp c opEpochFlip)

/-! ## The manager's operations (R260, R266) -/

/-- RESULT codes of CFG_HANDLE_STATUS (Table 11.10). -/
def hrRange : Nat := 1
def hrSetBusy : Nat := 2
def hrFlipBusy : Nat := 3
def hrState : Nat := 4
def hrAddress : Nat := 5

/-- The checks of a manager operation in order; 0 is OK. -/
def State.managerCheck (s : State) (slice n : Nat) (set : Option Bool) (a b : W64) : Nat :=
  let v := s.slice slice
  let h := v.handle n
  if v.state ≠ .active ∧ v.state ≠ .draining ∧ v.state ≠ .drained then hrState
  else if v.defn.tableHandles ≤ n then hrRange
  else if set.isSome && (badTva a.toNat || badTva b.toNat) then hrAddress
  else if set.isSome then (if h.setBusy then hrSetBusy else 0)
  else if h.flipPending then hrFlipBusy
  else 0

/-- The held manager operation takes effect (R260). -/
def State.managerEffect (s : State) : State :=
  match s.dev.handleOp with
  | none => s
  | some (slice, n, set, a, b) =>
    let r := s.managerCheck slice n set a b
    let s := { s with dev := { s.dev with handleOp := none, handleBusy := false, handleDone := true, handleResult := r } }
    if r ≠ 0 then s
    else match set with
      | some cur => s.updHandle slice n (fun h => h.set a b cur)
      | none =>
        (s.updHandle slice n (fun h => { h with
          current := !h.current, flipPending := true, flipMgr := true, flipCmd := none })).retireHandle slice n

/-- MANAGER_HANDLE_EFFECT: an NCLK edge without a dispatch. What was dispatched before takes effect on it first, so that the
manager's operation is the second of two that conflict (R108, R260). -/
def State.doManagerHandleEffect (s : State) : State :=
  if s.ready && s.dev.handleOp.isSome then (s.handleEffects none).managerEffect else s

def execManagerHandleEffect (s : State) : Host.Outcome State Fault Refusal := .next s.doManagerHandleEffect

/-- A write to CFG_HANDLE_CTL with OP SET or FLIP (R266). -/
def State.startHandleOp (s : State) (slice n : Nat) (set : Option Bool) : State :=
  if !s.ready then s
  else if s.dev.handleBusy then { s with dev := { s.dev with handleOverrun := true } }
  else { s with dev := { s.dev with
      handleBusy := true, handleOp := some (slice, n, set, s.dev.handleBaseA, s.dev.handleBaseB) } }

def execCfgHandleSet (slice : BitVec 8) (handle : BitVec 10) (current : Bool) (s : State) :
    Host.Outcome State Fault Refusal :=
  .next (s.startHandleOp slice.toNat handle.toNat (some current))

def execCfgHandleFlip (slice : BitVec 8) (handle : BitVec 10) (s : State) : Host.Outcome State Fault Refusal :=
  .next (s.startHandleOp slice.toNat handle.toNat none)

end Sys2Proof.Machine
end

