-- ==== Sys2Proof/Machine/Place.lean ====
section
/-! DEFINITION. Fit and placement: entitlement (spec/05 R125), usable bays and the grant (R126, R127), NOFIT, and the same
for arrays (spec/06 R152) and for hod engines and riddle units (spec/07 R178); zeroing as a bay changes hands (R132). -/

namespace Sys2Proof.Machine

/-! ## Sorting -/

/-- Inserts a number into a list ordered by a key. -/
def insertBy (key : Nat → Nat) (x : Nat) : List Nat → List Nat
  | [] => [x]
  | y :: t => if key x < key y then x :: y :: t else y :: insertBy key x t

/-- Orders a list by a key, equal keys in the order given. -/
def sortBy (key : Nat → Nat) (l : List Nat) : List Nat := l.foldl (fun acc x => insertBy key x acc) []

/-! ## The pool (R116) -/

/-- The bay belongs to the common pool (R28). -/
def State.isPool (s : State) (b : Nat) : Bool := (s.dedicatedTo b).isNone

/-- Pool bays that a slice holds. -/
def State.poolHeld (s : State) (i : Nat) : Nat :=
  ((List.range 48).filter (fun b => s.isPool b && decide ((s.bay b).holder = some i))).length

/-- UP pool bays, P of R127. -/
def State.upPool (s : State) : Nat := ((List.range 48).filter (fun b => s.isPool b && s.bayUsable b)).length

/-- An opcode whose work runs on bays. -/
def usesBays (op : Nat) : Bool := [opLaunch, opSlab, opGather, opSelect].contains op

/-- A command some of whose work is saved (R103). -/
def Cmd.hasSaved (c : Cmd) : Bool := c.runs && (!c.images.isEmpty || !c.savedGangs.isEmpty)

/-- A candidate of the arbiter but for its CQ slot and its resources (R99). -/
def State.isCandidate (s : State) (c : Cmd) : Bool :=
  let v := s.slice c.slice
  let q := v.cq (dCq c.desc)
  decide (v.reset ≠ .running)
  && ((decide (c.phase = .windowed) && decide (v.state = .active) && (!c.needsEarlier || c.earlier.isEmpty)
        && q.enable && decide (q.waiting.length < q.free))
      || (c.hasSaved && (decide (v.state = .active) || decide (v.state = .draining))))

/-! ## Visiting bays (R126) -/

/-- Bays in the order of R126 for a slice and a HOME field. -/
def State.visitOrder (s : State) (i home : Nat) : List Nat :=
  let key := fun b =>
    (if s.isPool b then 2 ^ 20 else 0) + (if bitAt home 7 then 64 * distance (home % 8) (dieOfBay b) else 0) + b
  sortBy key ((List.range 48).filter (fun b =>
    s.bayUsable b && (s.isPool b || decide (s.dedicatedTo b = some i))))

/-- The bay is one of those a command may use at all. -/
def State.mayUse (s : State) (c : Cmd) (b : Nat) : Bool :=
  s.bayUsable b && (s.isPool b || decide (s.dedicatedTo b = some c.slice))

/-- Units placed in all. -/
def grantSize (g : List (Nat × Nat)) : Nat := (g.map (·.2)).foldl (· + ·) 0

/-! ## What a bay offers -/

/-- Scratch bytes of the gangs that launches hold places for on a bay. -/
def State.scratchUsed (s : State) (b : Nat) : Nat :=
  ((s.bay b).cores.map (·.2)).eraseDups.foldl (fun n id =>
    let c := s.cmd id
    n + ((c.grant.filter (fun e => decide (e.1 / 8 = b))).map (·.2)).foldl (· + ·) 0 * laFoot c.block) 0

/-- Idle mason cores of a bay. -/
def Bay.idleCores (v : Bay) : List Nat := (List.range 8).filter (fun k => (Tbl.find? v.cores k).isNone)

/-- A bay's split suits a launch (R121). -/
def Bay.splitFits (v : Bay) (steps : Nat) : Bool := v.cores.isEmpty || decide (v.split = steps)

/-- The gangs that a bay takes for a launch and their cores (R126). -/
def State.launchSlots (s : State) (blk : Bytes) (b want : Nat) : List (Nat × Nat) :=
  let v := s.bay b
  let idle := v.idleCores
  let foot := laFoot blk
  let free := 131072 * laSteps blk - s.scratchUsed b
  if idle = [] || !v.splitFits (laSteps blk) || decide (free < foot) then []
  else
    let g := min (min (idle.length * laRegsLimit blk) want) (if foot = 0 then want else free / foot)
    let n := idle.length
    ((List.range n).map (fun i => (8 * b + idle.getD i 0, g / n + (if i < g % n then 1 else 0)))).filter
      (fun e => e.2 != 0)

/-- Idle arrays of a bay of the run's mode (R152). -/
def State.slabSlots (s : State) (quartered : Bool) (b want : Nat) : List (Nat × Nat) :=
  let v := s.bay b
  if v.quartered = quartered then
    (((List.range (if quartered then 4 else 1)).filter (fun q => (Tbl.get {} v.arrays q).cmd.isNone)).map
      (fun q => (4 * b + q, 1))).take want
  else []

/-- An idle hod engine (R178). -/
def State.hodSlots (s : State) (b want : Nat) : List (Nat × Nat) :=
  if (s.bay b).hod.isNone && decide (0 < want) then [(b, 1)] else []

/-- An idle riddle unit, with its bay's hod engine idle for PAYLOAD (R178). -/
def State.riddleSlots (s : State) (payload : Bool) (b want : Nat) : List (Nat × Nat) :=
  if (s.bay b).riddle.isNone && (!payload || (s.bay b).hod.isNone) && decide (0 < want) then [(b, 1)] else []

/-- The places that a bay offers a command. -/
def State.slotsFor (s : State) (c : Cmd) (b want : Nat) : List (Nat × Nat) :=
  let op := dOpcode c.desc
  if op = opLaunch then s.launchSlots c.block b want
  else if op = opSlab then s.slabSlots (slQuartered c.block) b want
  else if op = opGather then s.hodSlots b want
  else s.riddleSlots (sePayload c.block) b want

/-! ## Fit (R125, R152, R178) -/

/-- The HOME field of a command's block. -/
def Cmd.home (c : Cmd) : Nat :=
  let op := dOpcode c.desc
  if op = opLaunch then laHome c.block else if op = opSlab then slHome c.block
  else if op = opGather then gaHome c.block else seHome c.block

/-- Entitled bays of a slice, over the bays that `ok` admits. -/
def State.entitled (s : State) (i : Nat) (ok : Nat → Bool) : Nat :=
  let up := (List.range 48).filter (fun b => s.bayUsable b && ok b)
  (up.filter (fun b => decide (s.dedicatedTo b = some i))).length
    + min (s.slice i).defn.poolMax (up.filter s.isPool).length

/-- The least and the preferred units of a command. -/
def Cmd.minUnits (c : Cmd) : Nat :=
  let op := dOpcode c.desc
  if op = opLaunch then laMin c.desc else if op = opSlab then slMin c.desc
  else if op = opGather then gaMin c.desc else seMin c.desc

def Cmd.prefUnits (c : Cmd) : Nat :=
  let op := dOpcode c.desc
  if op = opLaunch then laPref c.desc else if op = opSlab then slPref c.desc
  else if op = opGather then gaPref c.desc else sePref c.desc

/-- Gangs of a launch that one idle bay could hold by scratch, and in all (R125). -/
def byScratch (blk : Bytes) : Nat := if laFoot blk = 0 then 384 else 131072 * laSteps blk / laFoot blk
def perBay (blk : Bytes) : Nat := min (8 * laRegsLimit blk) (byScratch blk)

/-- The arrays of a bay in the run's mode. -/
def Cmd.arraysPerBay (c : Cmd) : Nat := if slQuartered c.block then 4 else 1

/-- Entitled bays for a command. -/
def State.entitledFor (s : State) (c : Cmd) : Nat :=
  s.entitled c.slice (fun b => decide (dOpcode c.desc ≠ opSlab) || decide ((s.bay b).quartered = slQuartered c.block))

/-- fit of R125, R152 and R178. -/
def State.fitOf (s : State) (c : Cmd) : Nat :=
  let op := dOpcode c.desc
  let e := s.entitledFor c
  if op = opLaunch then min (min c.prefUnits c.items) (perBay c.block * e)
  else if op = opSlab then min (min c.prefUnits c.items) (c.arraysPerBay * e)
  else min (min c.prefUnits c.items) e

/-- The short resource of a LAUNCH (R125). -/
def shortOf (blk : Bytes) (entitled : Nat) : Nat :=
  if entitled = 0 ∨ perBay blk = 384 then 1
  else if 8 * laRegsLimit blk ≤ byScratch blk then 2 else 3

/-- RESULT of a NOFIT completion (R125, R152, R178). -/
def State.nofitResult (s : State) (c : Cmd) : Nat :=
  let op := dOpcode c.desc
  let e := s.entitledFor c
  let f := s.fitOf c
  if op = opLaunch then f + field 16 (laRegsLimit c.block) + field 24 (perBay c.block) + field 40 e
  else if op = opSlab then f + field 16 c.arraysPerBay + field 24 (c.arraysPerBay * e)
  else f + field 16 e

/-- DETAIL of a NOFIT completion. -/
def State.nofitDetail (s : State) (c : Cmd) : Nat :=
  if dOpcode c.desc = opLaunch then shortOf c.block (s.entitledFor c) else 1

/-! ## Saved images of a launch (R131) -/

/-- The saved gangs of an image. -/
def State.imageGangs (s : State) (c : Cmd) (image : Nat) : List (Nat × Gang) :=
  (c.savedGangs.filter (fun e => decide (e.1 = image))).map (fun e => (e.2, s.gang e.2))

/-- The cores that an image held, ascending. -/
def State.imageCores (s : State) (c : Cmd) (image : Nat) : List Nat :=
  sortBy id (((s.imageGangs c image).map (fun e => e.2.core)).eraseDups)

/-- A bay offers what an image needs: idle cores, its split, and scratch. -/
def State.takesImage (s : State) (c : Cmd) (image b : Nat) : Bool :=
  let v := s.bay b
  decide ((s.imageCores c image).length ≤ v.idleCores.length) && v.splitFits (laSteps c.block)
    && decide ((s.imageGangs c image).length * laFoot c.block ≤ 131072 * laSteps c.block - s.scratchUsed b)

/-! ## Sharing the pool (R127) -/

/-- A slice may use a bay without taking an unheld pool bay. -/
def State.ownsBay (s : State) (i b : Nat) : Bool := !s.isPool b || decide ((s.bay b).holder = some i)

/-- The units that a command could have of such bays. -/
def State.ownUnits (s : State) (c : Cmd) (want : Nat) : Nat :=
  ((s.visitOrder c.slice c.home).filter (s.ownsBay c.slice)).foldl (fun n b => n + grantSize (s.slotsFor c b want)) 0

/-- A candidate waits for pool bays: its slice may hold more of them, and it cannot go without (R127). -/
def State.waitsForPool (s : State) (c : Cmd) : Bool :=
  usesBays (dOpcode c.desc) && s.isCandidate c && decide (s.poolHeld c.slice < (s.slice c.slice).defn.poolMax)
    && if c.hasSaved then
        if dOpcode c.desc = opLaunch then
          !(c.savedGangs.any (fun e => (List.range 48).any (fun b =>
            s.mayUse c b && s.ownsBay c.slice b && s.takesImage c e.1 b)))
        else decide (s.ownUnits c 1 = 0)
      else !(dExpire c.desc && decide (dDeadline c.desc < s.time)) && decide (c.minUnits ≤ s.fitOf c)
        && decide (s.ownUnits c c.minUnits < c.minUnits)

/-- Slices with a candidate that waits for pool bays, and slice i itself (R127). -/
def State.poolWaiters (s : State) (i : Nat) : List Nat :=
  (i :: (s.cmds.filter (fun e => s.waitsForPool e.2)).map (fun e => e.2.slice)).eraseDups

def State.poolWeight (s : State) (i : Nat) : Nat := (s.slice i).defn.poolWeight

/-- W of R127: the weights of the slices that hold pool bays or wait for them. -/
def State.weightSum (s : State) (i : Nat) : Nat :=
  let holders := (List.range 48).filterMap (fun b => if s.isPool b then (s.bay b).holder else none)
  (((s.poolWaiters i) ++ holders).eraseDups.map s.poolWeight).foldl (· + ·) 0

/-- A slice that holds `held` pool bays is below its share. -/
def State.belowShare (s : State) (i w held : Nat) : Bool := decide (held * w < s.poolWeight i * s.upPool)

/-- Whether slice i, which would then hold more than `held` pool bays, may take an unheld one (R126, R127). -/
def State.mayTake (s : State) (i held : Nat) : Bool :=
  let w := s.weightSum i
  decide (held < (s.slice i).defn.poolMax)
    && (decide (0 < w) && decide (held < ceilDiv (s.poolWeight i * s.upPool) w)
      || !((s.poolWaiters i).any (fun t => decide (t ≠ i) && s.belowShare t w (s.poolHeld t))))

/-! ## The grant -/

/-- The grant: at each bay that may be used, the places that `slots` offers, until `want` units are placed. -/
def placeWalk (s : State) (i : Nat) (slots : Nat → Nat → List (Nat × Nat)) :
    List Nat → Nat → Nat → List (Nat × Nat)
  | [], _, _ => []
  | b :: t, held, want =>
    if want = 0 then []
    else
      let own := s.ownsBay i b
      if own || ((s.bay b).holder.isNone && s.mayTake i held) then
        let g := slots b want
        let n := (g.map (·.2)).foldl (· + ·) 0
        g ++ placeWalk s i slots t (if own || decide (n = 0) then held else held + 1) (want - n)
      else placeWalk s i slots t held want

/-- The grant a command could take now: up to its fit, or up to PREF_OCC or GANGS for a launch (R126). -/
def State.grantFor (s : State) (c : Cmd) : List (Nat × Nat) :=
  let want := if dOpcode c.desc = opLaunch then min c.prefUnits c.items else s.fitOf c
  placeWalk s c.slice (s.slotsFor c) (s.visitOrder c.slice c.home) (s.poolHeld c.slice) want

/-! ## Taking places -/

/-- The bay of a placed unit. -/
def Cmd.bayOf (c : Cmd) (u : Nat) : Nat :=
  let op := dOpcode c.desc
  if op = opLaunch then u / 8 else if op = opSlab then u / 4 else u

/-- A bay must be zeroed before work of slice i: another slice held it last, or the same one before an owner change
(R132). -/
def Bay.mustZero (v : Bay) (i : Nat) : Bool :=
  match v.lastHolder with
  | some j => decide (j ≠ i) || v.ownerGone
  | none => false

/-- Work of a slice is granted on a bay: it is held, and zeroed where it must be (R116, R132, R157, R183). -/
def State.holdBay (s : State) (b i : Nat) : State :=
  s.updBay b (fun v =>
    let v := if v.mustZero i then { v.zeroed with zeroings := satAdd 24 v.zeroings 1, ownerGone := false } else v
    { v with holder := some i, lastHolder := some i })

/-- Puts a command on one granted unit. -/
def State.takeUnit (s : State) (id u : Nat) : State :=
  let c := s.cmd id
  let op := dOpcode c.desc
  let b := c.bayOf u
  let s := s.holdBay b c.slice
  s.updBay b (fun v =>
    if op = opLaunch then { v with cores := Tbl.put v.cores (u % 8) id, split := laSteps c.block }
    else if op = opSlab then { v with arrays := Tbl.put v.arrays (u % 4) { cmd := some id } }
    else if op = opGather then { v with hod := some id }
    else { v with riddle := some id
                  hod := if sePayload c.block then some id else v.hod
                  hodPayload := v.hodPayload || sePayload c.block })

/-- The descriptor cache of a bay holds the block of a command it runs, unless it holds that line already (R122). -/
def State.cacheBlock (s : State) (id b : Nat) : State :=
  let c := s.cmd id
  let line := leAt c.desc 0x28 8 / 128
  if (Tbl.find? (s.bay b).dcache line).isSome then s
  else
    let (t, s) := s.roRoom (s.bay b).dcache (fun _ => true) dcacheLines
    s.updBay b (fun v => { v with dcache := Tbl.put t line c.block })

/-! ## Context save areas -/

/-- CTX_SAVE of a command's block. -/
def Cmd.ctxSave (c : Cmd) : Nat :=
  let op := dOpcode c.desc
  if op = opLaunch then leAt c.block 0x28 8 else if op = opSelect then leAt c.block 0x48 8 else leAt c.block 0x40 8

/-- Bytes of one saved image: of one gang, array, engine or unit (R124, R146, Tables 7.2, 7.6). -/
def Cmd.imageBytes (c : Cmd) : Nat :=
  let op := dOpcode c.desc
  if op = opLaunch then 384 + 128 * laRegs c.block + laFoot c.block
  else if op = opSlab then (if slQuartered c.block then 524544 else 2097408)
  else if op = opGather then roundUp (64 + 4 * gaElems c.block) 128
  else 1280

/-- Writes n bytes of saved state; the bytes are the device's own (notes/assumptions/17.md). -/
def State.writeSaved (s : State) (g : Agent) (addr n : Nat) : State × Bool :=
  let r := s.agWrite g addr ((List.range n).map (Config.saveByte s.free))
  ({ r.1 with free := r.1.free + 1 }, r.2)

/-- Image `k` of a command is written to CTX_SAVE by the bay it leaves. -/
def State.writeImage (s : State) (id b k : Nat) : State :=
  let c := s.cmd id
  (s.writeSaved (s.agentOn id b) (c.ctxSave + k * c.imageBytes) c.imageBytes).1

/-- Images are read back by the bay they resume on, until a read stops the command (R131, R156, R182). -/
def readImages (id : Nat) : List (Nat × Nat) → State → State
  | [], s => s
  | (b, k) :: t, s =>
    let c := s.cmd id
    match s.agRead (s.agentOn id b) (c.ctxSave + k * c.imageBytes) c.imageBytes with
    | (s, some _) => readImages id t s
    | (s, none) => s

/-- The lowest place of CTX_SAVE that holds no image. -/
def freeSlot (used : List Nat) : Nat := ((List.range (used.length + 1)).find? (fun k => !used.contains k)).getD 0

/-- A command takes its grant (R126, R152, R178): for a launch, clean L1 lines are dropped (R215) and INVALIDATE_RO acts
(R122). -/
def State.takeGrant (s : State) (id : Nat) (g : List (Nat × Nat)) : State :=
  let bays := (g.map (fun e => (s.cmd id).bayOf e.1)).eraseDups
  let s := g.foldl (fun s e => s.takeUnit id e.1) s
  let c := s.cmd id
  let s := if dOpcode c.desc = opLaunch then
      bays.foldl (fun s b =>
        let s := s.l1DropClean b
        if laInvalidate c.block then s.roInvalidate b else s) s
    else s
  let s := bays.foldl (fun s b => s.cacheBlock id b) s
  s.updCmd id (fun c => { c with grant := g, granted := grantSize g, bays := bays })

end Sys2Proof.Machine
end

