-- ==== Sys2Proof/Machine/Gangs.lean ====
section
/-! DEFINITION. Gangs: residence (spec/05 R118, R119, R128), the mask stack (R120), scratch (R121), the read-only caches
(R122), memory instructions (spec/09 R213 to R216), streams and capstones (R218 to R221), and replies (spec/03 R78). -/

namespace Sys2Proof.Machine

/-! ## Residence -/

/-- A gang as it becomes resident (R118). -/
def newGang (c : Cmd) (id index b core age : Nat) (feet : List Nat) : Gang :=
  let p := laParam c.desc
  let lane := fun (l : Nat) =>
    [(256 * l, BitVec.ofNat 32 index), (256 * l + 1, BitVec.ofNat 32 l), (256 * l + 2, BitVec.ofNat 32 p),
     (256 * l + 3, BitVec.ofNat 32 (p / 2 ^ 32))]
  { cmd := id, index := index, bay := b, core := core, age := age, feet := feet
    regs := ((List.range 32).flatMap lane).foldl (fun t e => Tbl.set 0 t e.1 e.2) [] }

/-- The gangs resident on a mason core. -/
def State.gangsOn (s : State) (b core : Nat) : List (Nat × Gang) :=
  s.gangs.filter (fun e => decide (e.2.bay = b) && decide (e.2.core = core) && !e.2.saved)

/-- A pending gang is ready: its next instruction waits neither on a load nor on room in a stream (R119, R218). -/
def Gang.ready (g : Gang) : Bool :=
  !g.loads.any g.waits.contains
    && match g.room with
      | some (n, k) => decide ((Tbl.get [] g.members n).length + k ≤ 256)
      | none => true

/-- The oldest of a list of gangs. -/
def oldestGang : List (Nat × Gang) → Option Nat
  | [] => none
  | e :: t => some (t.foldl (fun b f => if f.2.age < b.2.age then f else b) e).1

/-- Free places of the active set are taken by the oldest ready pending gangs (R119). -/
def promote : Nat → Nat → Nat → State → State
  | 0, _, _, s => s
  | n + 1, b, core, s =>
    let on := s.gangsOn b core
    if 8 ≤ (on.filter (fun e => e.2.active)).length then s
    else match oldestGang (on.filter (fun e => !e.2.active && e.2.ready)) with
      | none => s
      | some g => promote n b core (s.updGang g (fun v => { v with active := true }))

def State.fillActive (s : State) (b core : Nat) : State := promote 8 b core s

/-- An active gang that must wait, for some loads or for room in a stream, leaves its place when the pending set holds a
ready gang (R119). -/
def State.demote (s : State) (g : Nat) (waits : List Nat) (room : Option (Nat × Nat)) : State :=
  let v := s.gang g
  if v.active && (s.gangsOn v.bay v.core).any (fun e => !e.2.active && e.2.ready) then
    (s.updGang g (fun v => { v with active := false, waits := waits, room := room })).fillActive v.bay v.core
  else s

/-- The blocks of 256 bytes of a bay's scratch that its resident gangs occupy. -/
def State.feetOn (s : State) (b : Nat) : List Nat :=
  (s.gangs.filter (fun e => decide (e.2.bay = b) && !e.2.saved)).flatMap (fun e => e.2.feet)

/-- The lowest `n` blocks from `k` on that no footprint uses; `fuel` bounds the blocks looked at. -/
def takeBlocks (used : List Nat) : Nat → Nat → Nat → List Nat
  | 0, _, _ => []
  | _, 0, _ => []
  | fuel + 1, n + 1, k =>
    if used.contains k then takeBlocks used fuel (n + 1) (k + 1) else k :: takeBlocks used fuel n (k + 1)

/-- The footprint of the next gang of a launch on a bay: the lowest free blocks, which need not lie together
(notes/assumptions/12.md). -/
def State.nextFeet (s : State) (b id : Nat) : List Nat :=
  takeBlocks (s.feetOn b) 8192 (laFoot (s.cmd id).block / 256) 0

/-- Makes gang index `index` of a launch resident (R118). -/
def State.addGang (s : State) (id index b core : Nat) (feet : List Nat) : State :=
  let g := s.nextGang
  { s with gangs := Tbl.put s.gangs g (newGang (s.cmd id) id index b core g feet), nextGang := g + 1 }

/-- Makes `n` gangs resident on a core. -/
def addGangs (id b core : Nat) : Nat → State → State
  | 0, s => s
  | n + 1, s =>
    let i := (s.cmd id).next
    addGangs id b core n
      ((s.addGang id i b core (s.nextFeet b id)).updCmd id (fun c => { c with next := i + 1 }))

/-- LAUNCH (R128): the first fit indices become resident. -/
def State.doLaunch (s : State) (id : Nat) : State :=
  let c := s.cmd id
  if dOpcode c.desc ≠ opLaunch || !c.runs || decide (c.next ≠ 0) then s
  else c.grant.foldl (fun s e =>
    (addGangs id (e.1 / 8) (e.1 % 8) e.2 s).fillActive (e.1 / 8) (e.1 % 8)) s

def execLaunch (c : Nat) (s : State) : Host.Outcome State Fault Refusal := .next (s.doLaunch c)

/-- A gang may issue: resident, in the active set, on a running launch and a bay that is up. -/
def State.issues (s : State) (g : Nat) : Bool :=
  let v := s.gang g
  s.ready && s.hasGang g && !v.saved && v.active && (s.cmd v.cmd).runs && decide ((s.bay v.bay).unit = .up)

/-- An issue edge takes one more instruction: at most two, of different gangs, one of them lane arithmetic (R119). -/
def Edge.takes (e : Edge) (g : Nat) (lane : Bool) : Bool :=
  decide (e.gangs.length < 2) && !e.gangs.contains g && !(e.lane && lane)

/-- An instruction issues on the core's latest edge where that takes it, and on a new one otherwise. -/
def Edge.add (e : Edge) (g : Nat) (lane : Bool) : Edge :=
  if e.takes g lane then { gangs := e.gangs ++ [g], lane := e.lane || lane } else { gangs := [g], lane := lane }

/-- An instruction issues (R119, Table 14.7). -/
def State.countInstr (s : State) (g : Nat) (lane : Bool := false) : State :=
  let v := s.gang g
  let s := s.event 0x10 (unitBay v.bay) (some (s.cmd v.cmd).slice) 1
  { s with tel := { s.tel with edges := Tbl.upd {} s.tel.edges (8 * v.bay + v.core) (fun e => e.add g lane) } }

/-- The effect of an instruction that issues; otherwise nothing happens. -/
def State.issue (s : State) (g : Nat) (f : State → State) (lane : Bool := false) : State :=
  let v := s.gang g
  if s.issues g then (s.countInstr g lane).onBay v.cmd v.bay f else s

/-- The same for an instruction whose accesses can wait (R193, R256). -/
def State.issueMem (s : State) (g : Nat) (f : State → State) : State := s.settled (fun s => s.issue g f)

/-- The registers that a gang's outstanding load fills, as lane and register. -/
def Req.fills (r : Req) : List (Nat × Nat) :=
  r.accs.flatMap (fun a => [(a.lane.val, a.reg), (a.lane.val, a.reg + (a.size - 1) / 4)])

/-- The registers that a gang's outstanding loads will fill. -/
def State.awaited (s : State) (g : Nat) : List (Nat × Nat) :=
  (s.gang g).loads.flatMap (fun rid => match Tbl.find? s.reqs rid with
    | some r => r.fills
    | none => [])

/-- The outstanding loads of a gang that fill a register of a set. -/
def State.loadsInto (s : State) (g : Nat) (used : Nat × Nat → Bool) : List Nat :=
  (s.gang g).loads.filter (fun rid => match Tbl.find? s.reqs rid with
    | some r => r.fills.any used
    | none => false)

/-- An instruction with a source that waits on a load does not issue: its gang is demoted when a pending gang is ready
(R119). -/
def State.awaiting (s : State) (g : Nat) (used : Nat × Nat → Bool) (f : State → State) : State :=
  if (s.awaited g).any used then (if s.issues g then s.demote g (s.loadsInto g used) none else s) else f s

/-- A contained fault of a gang stops its launch (R129). -/
def State.gangFault (s : State) (g code : Nat) (f : FaultInfo) : State :=
  let v := s.gang g
  s.cmdFault v.cmd (unitBay v.bay) code f

/-! ## The end of a gang (R128) -/

/-- The commit slot of a gang index, where the launch reports by bitmap. -/
def gangSlot (d : Bytes) (index : Nat) : Nat := index * dOutSlots d / laGangs d

/-- One place fewer on a core of a launch's grant. -/
def Cmd.dropPlace (c : Cmd) (u : Nat) : Cmd :=
  { c with grant := (c.grant.map (fun e => if e.1 = u then (e.1, e.2 - 1) else e)).filter (fun e => e.2 != 0) }

/-- A launch has no gang resident or saved and no index left (R128). -/
def State.launchOver (s : State) (id : Nat) : Bool :=
  decide ((s.cmd id).items ≤ (s.cmd id).next) && !(s.gangs.any (fun e => decide (e.2.cmd = id)))

/-- GANG_EXIT: a gang ends, and the next unstarted index becomes resident in its place (R128). -/
def State.doGangExit (s : State) (g : Nat) : State :=
  let v := s.gang g
  let id := v.cmd
  let c := s.cmd id
  let b := v.bay
  let s := s.dropGang g
  let s := s.orphan (fun r => decide (r.gang = g) && decide (r.kind = ReqKind.read))
  let s := if 2 ≤ dOutSlots c.desc
    then s.updCmd id (fun c => { c with ended := c.ended ++ [(gangSlot c.desc v.index, b, g)] }) else s
  if c.next < c.items then
    ((s.addGang id c.next b v.core v.feet).updCmd id (fun c => { c with next := c.next + 1 })).fillActive b v.core
  else
    let s := s.updCmd id (fun c => c.dropPlace (8 * b + v.core))
    let s := if (s.gangsOn b v.core).isEmpty then s.updBay b (fun x => { x with cores := Tbl.del x.cores v.core }) else s
    let s := if s.gangs.any (fun e => decide (e.2.cmd = id) && decide (e.2.bay = b) && !e.2.saved) then s
      else s.l1FlushCmd b id
    let s := (s.unholdBay b).fillActive b v.core
    if s.launchOver id && (s.cmd id).runs then s.updCmd id (fun c => { c with phase := .finishing }) else s

def execGangExit (g : Nat) (s : State) : Host.Outcome State Fault Refusal :=
  .next (s.issueMem g (fun s => s.doGangExit g))

/-! ## Registers -/

/-- A lane register. -/
def Gang.reg (g : Gang) (lane r : Nat) : W32 := Tbl.get 0 g.regs (256 * lane + r)

/-- Writes a lane register that the launch has (R117). -/
def State.setReg (s : State) (g lane r : Nat) (x : W32) : State :=
  if r < laRegs (s.cmd (s.gang g).cmd).block then
    s.updGang g (fun v => { v with regs := Tbl.set 0 v.regs (256 * lane + r) x })
  else s

/-- A register with byte k replaced. -/
def putByte (x : W32) (k : Nat) (b : Byte) : W32 :=
  (x &&& ~~~(0xFF#32 <<< (8 * k))) ||| (b.setWidth 32 <<< (8 * k))

/-- A loaded byte reaches its register: byte i of the access (R213). -/
def State.setRegByte (s : State) (g : Nat) (a : LaneAcc) (i : Nat) (x : Byte) : State :=
  let r := a.reg + i / 4
  s.setReg g a.lane.val r (putByte ((s.gang g).reg a.lane.val r) (i % 4) x)

/-- A load of fewer than 4 bytes leaves the register's other bytes free (notes/assumptions/2.md). -/
def State.freeReg (s : State) (g : Nat) (a : LaneAcc) : State :=
  if a.size < 4 then
    { s.setReg g a.lane.val a.reg (Config.freeWord s.free) with free := s.free + 1 }
  else s

/-- Delivers the bytes of one line to the registers of a load's lanes, in lane order. -/
def State.deliver (s : State) (g tva : Nat) (accs : List LaneAcc) (line : Bytes) : State :=
  let base := tva / 128 * 128
  accs.foldl (fun s a =>
    let s := if base ≤ a.addr.toNat ∧ a.addr.toNat < base + 128 then s.freeReg g a else s
    (List.range a.size).foldl (fun s i =>
      let p := a.addr.toNat + i
      if base ≤ p ∧ p < base + 128 then s.setRegByte g a i (line.getD (p - base) 0) else s) s) s

/-! ## Requests of a gang -/

/-- The lines that an instruction's lanes touch, ascending (R212). -/
def linesOf (accs : List LaneAcc) : List Nat :=
  sortBy id ((accs.flatMap (fun a => (linePieces a.addr.toNat a.size).map (fun p => p.1 / 128))).eraseDups)

/-- The translation of a gang's line: the DPA, or the fault of R30. `need` is 0 read, 1 write, 3 atomic. -/
def State.gangDpa (s : State) (g line need : Nat) : State × Option Nat :=
  let v := s.gang g
  let tva := 128 * line
  let ok := match findRange (s.slice (s.cmd v.cmd).slice).defn.ranges tva with
    | some r => if (need ≠ 0 || r.canRead) && (need ≠ 1 || r.canWrite) && (need ≠ 3 || (r.canRead && r.canWrite))
        then some (r.toDpa tva) else none
    | none => none
  match ok with
  | some d => (s, some d)
  | none => (s.gangFault g fcTranslation
      { unit := unitBay v.bay, addr := some tva, addrTva := true, tva := some tva, info0 := need }, none)

/-- The unit that answers for a device line: its channel (R78, Table 3.5). -/
def State.homeUnit (s : State) (dpa : Nat) : Nat := unitChan (chanOfUcSlice (homeOf s.density dpa).1)

/-- Issues one line piece as a request (R78, R212); the answer is its number. -/
def State.newReq (s : State) (g : Nat) (kind : ReqKind) (line dpa : Nat) (accs : List LaneAcc) (vol : Bool)
    (stream : Option Nat) : State :=
  let v := s.gang g
  let c := s.cmd v.cmd
  let rid := s.nextReq
  let u := unitBay v.bay
  let s := s.setReq rid {
    kind := kind, gang := g, cmd := v.cmd, slice := c.slice, tenantEpoch := (s.slice c.slice).tenantEpoch, unit := u
    unitEpoch := s.unitEpoch u, responder := s.homeUnit dpa, issued := s.time, tva := 128 * line, dpa := dpa
    accs := accs, volatile := vol, stream := stream }
  let s := { s with nextReq := rid + 1 }
  let s := s.updGang g (fun v =>
    if kind = .read then { v with loads := v.loads ++ [rid] } else { v with stores := v.stores ++ [rid] })
  match stream with
  | some n => s.updGang g (fun v => { v with members := Tbl.upd [] v.members n (· ++ [rid]) })
  | none => s

/-- A read of host memory by a gang (R213): its answer is READ_REPLY's operand. -/
def State.newHostReq (s : State) (g : Nat) (pasid : BitVec 20) (line : Nat) (accs : List LaneAcc) : State :=
  let v := s.gang g
  let c := s.cmd v.cmd
  let rid := s.nextReq
  let u := unitBay v.bay
  let s := s.setReq rid {
    gang := g, cmd := v.cmd, slice := c.slice, tenantEpoch := (s.slice c.slice).tenantEpoch, unit := u
    unitEpoch := s.unitEpoch u, responder := unitQueue (s.hostPort v.cmd pasid.toNat), issued := s.time
    tva := 128 * line, host := some pasid, accs := accs, volatile := true }
  let s := { s with nextReq := rid + 1 }
  s.updGang g (fun v => { v with loads := v.loads ++ [rid] })

/-- A PASID that is not mapped to the slice cannot be used (R31). -/
def State.pasidOk (s : State) (g : Nat) (pasid : BitVec 20) : Bool :=
  decide ((s.slice (s.cmd (s.gang g).cmd).slice).defn.ports pasid.toNat ≠ 0)

/-- Runs the pieces of an instruction until one faults: the launch then stops (R129). -/
def overLines (g : Nat) (f : State → Nat → State) : List Nat → State → State
  | [], s => s
  | l :: t, s => if (s.cmd (s.gang g).cmd).stop.isSome then s else overLines g f t (f s l)

/-! ## Loads (R213) -/

/-- The bytes of a line that an instruction's lanes name. -/
def lineMask (line : Nat) (accs : List LaneAcc) : BitVec 128 := reqMask (128 * line) accs

/-- The part of an instruction that touches one line. -/
def accsOn (line : Nat) (accs : List LaneAcc) : List LaneAcc :=
  accs.filter (fun a => overlap a.addr.toNat a.size (128 * line) 128)

/-- One line of a load of device memory. A PLAIN load is served by L1 where it holds the bytes; a VOLATILE load first
writes back what this bay's L1 holds dirty of them (R211). -/
def State.loadLine (s : State) (g : Nat) (vol : Bool) (accs : List LaneAcc) (line : Nat) : State :=
  let b := (s.gang g).bay
  let mask := lineMask line accs
  let on := accsOn line accs
  match s.gangDpa g line 0 with
  | (s, none) => s
  | (s, some dpa) =>
    if vol then (s.l1WriteMask b line mask).1.newReq g .read line dpa on true none
    else match Tbl.find? (s.bay b).l1 line with
      | some l =>
        if mask &&& ~~~l.valid = 0 then s.deliver g (128 * line) on l.data
        else s.newReq g .read line dpa on false none
      | none => s.newReq g .read line dpa on false none

/-- An access of the gang to host memory, issued before number `upTo`, has yet to take effect and meets these bytes
(R211). -/
def State.hostBusy (s : State) (g upTo : Nat) (pasid : BitVec 20) (addr len : Nat) : Bool :=
  s.reqs.any (fun e => decide (e.1 < upTo) && decide (e.2.gang = g) && decide (e.2.host = some pasid) && !e.2.parked
      && e.2.accs.any (fun a => overlap a.addr.toNat a.size addr len))
    || s.uc.capstones.any (fun e => decide (e.1 < upTo) && decide (e.2.gang = g) && decide (e.2.host = some pasid)
      && !e.2.failed && overlap e.2.hostAddr e.2.data.length addr len)

/-- An instruction may access host memory: no earlier access of its gang to the same bytes is outstanding, but that reads
may follow reads (R211). -/
def State.hostClear (s : State) (g : Nat) (sp : Space) (accs : List LaneAcc) (isRead : Bool) : Bool :=
  match sp with
  | .tva => true
  | .host pasid => accs.all (fun a =>
      if isRead then !(s.uc.capstones.any (fun e => decide (e.2.gang = g) && decide (e.2.host = some pasid)
        && !e.2.failed && overlap e.2.hostAddr e.2.data.length a.addr.toNat a.size))
      else !s.hostBusy g s.nextReq pasid a.addr.toNat a.size)

def State.doLoad (s : State) (g : Nat) (vol : Bool) (sp : Space) (accs : List LaneAcc) : State :=
  match sp with
  | .tva => overLines g (fun s l => s.loadLine g vol accs l) (linesOf accs) s
  | .host pasid =>
    if s.pasidOk g pasid then
      (linesOf accs).foldl (fun s l => s.newHostReq g pasid l (accsOn l accs)) s
    else s.gangFault g fcTranslation { unit := unitBay (s.gang g).bay, info0 := 0 }

/-- A load issues once its gang's earlier host accesses allow it. -/
def State.issueLoad (s : State) (g : Nat) (vol : Bool) (sp : Space) (accs : List LaneAcc) : State :=
  if s.hostClear g sp accs true then s.issueMem g (fun s => s.doLoad g vol sp accs) else s

def execLoadPlain (g : Nat) (sp : Space) (accs : List LaneAcc) (s : State) : Host.Outcome State Fault Refusal :=
  .next (s.issueLoad g false sp accs)

/-- A load that is not PLAIN, by its attribute: STREAM n acts as VOLATILE, and CAPSTONE n is not permitted (Table 9.2). -/
def State.loadFrom (s : State) (g : Nat) (l : LoadFrom) (accs : List LaneAcc) : State :=
  match l.attr with
  | .volatile | .stream _ => s.issueLoad g true l.space accs
  | .capstone _ => s.issue g (fun s =>
      s.gangFault g fcBadAttribute { unit := unitBay (s.gang g).bay, info0 := (s.gang g).index })

def execLoadVolatile (g : Nat) (source : LoadFrom) (accs : List LaneAcc) (s : State) : Host.Outcome State Fault Refusal :=
  .next (s.loadFrom g source accs)

/-! ## Stores (R213) -/

/-- What a gang's stream remembers of a host store: the port it went on, or that it failed (R220, R221). -/
def Gang.noteHost (v : Gang) (stream : Option Nat) (port ok : Bool) : Gang :=
  match stream with
  | some n =>
    if ok then { v with hostPorts := Tbl.upd 0 v.hostPorts n (fun m => setBit m (portBit port) true) }
    else { v with failed := setBit v.failed n true }
  | none => v

/-- A gang's host store goes out in pieces, in lane order (R211, R212, R220). -/
def State.hostStore (s : State) (g : Nat) (stream : Option Nat) (pasid : BitVec 20) (accs : List LaneAcc) : State :=
  let v := s.gang g
  let port := s.hostPort v.cmd pasid.toNat
  if s.pasidOk g pasid then
    (byLane accs).foldl (fun s a =>
      let r := s.agHostWrite (s.agentOn v.cmd v.bay) pasid.toNat a.addr.toNat a.data
      r.1.updGang g (fun v => v.noteHost stream port r.2)) s
  else (s.gangFault g fcTranslation { unit := unitBay v.bay, info0 := 1 }).updGang g (fun v => v.noteHost stream port false)

/-- A store reads the registers it stores. -/
def storedRegs (accs : List LaneAcc) (r : Nat × Nat) : Bool :=
  accs.any (fun a => decide (r = (a.lane.val, a.reg)) || decide (r = (a.lane.val, a.reg + (a.size - 1) / 4)))

/-- A store issues once the registers it stores are filled and its gang's earlier host accesses allow it. -/
def State.issueStore (s : State) (g : Nat) (sp : Space) (accs : List LaneAcc) (f : State → State) : State :=
  s.awaiting g (storedRegs accs) (fun s => if s.hostClear g sp accs false then s.issueMem g f else s)

/-- One line of a PLAIN store: into L1, or, where the bay has none, to the home slice (R121). -/
def State.plainLine (s : State) (g : Nat) (accs : List LaneAcc) (line : Nat) : State :=
  let v := s.gang g
  match s.gangDpa g line 1 with
  | (s, none) => s
  | (s, some dpa) =>
    if (s.bay v.bay).l1Lines = 0 then s.newReq g .write line dpa (accsOn line accs) true none
    else s.l1Store v.bay line v.cmd (reqData (128 * line) accs) (lineMask line accs)

/-- One line of a VOLATILE or STREAM store. -/
def State.volatileLine (s : State) (g : Nat) (stream : Option Nat) (accs : List LaneAcc) (line : Nat) : State :=
  let v := s.gang g
  match s.gangDpa g line 1 with
  | (s, none) => match stream with
    | some n => s.updGang g (fun v => { v with failed := setBit v.failed n true })
    | none => s
  | (s, some dpa) =>
    let s := s.l1Update v.bay line (reqData (128 * line) accs) (lineMask line accs)
    s.newReq g .write line dpa (accsOn line accs) true stream

def State.doStorePlain (s : State) (g : Nat) (sp : Space) (accs : List LaneAcc) : State :=
  match sp with
  | .tva => overLines g (fun s l => s.plainLine g accs l) (linesOf accs) s
  | .host pasid => s.hostStore g none pasid accs

def execStorePlain (g : Nat) (sp : Space) (accs : List LaneAcc) (s : State) : Host.Outcome State Fault Refusal :=
  .next (s.issueStore g sp accs (fun s => s.doStorePlain g sp accs))

def State.doStoreVolatile (s : State) (g : Nat) (stream : Option Nat) (sp : Space) (accs : List LaneAcc) : State :=
  match sp with
  | .tva => overLines g (fun s l => s.volatileLine g stream accs l) (linesOf accs) s
  | .host pasid => s.hostStore g stream pasid accs

def execStoreVolatile (g : Nat) (sp : Space) (accs : List LaneAcc) (s : State) : Host.Outcome State Fault Refusal :=
  .next (s.issueStore g sp accs (fun s => s.doStoreVolatile g none sp accs))

/-- STREAM n store (R218): one that would exceed 256 outstanding members waits in the gang, which is demoted. -/
def State.doStoreStream (s : State) (g n : Nat) (sp : Space) (accs : List LaneAcc) : State :=
  if 256 < (Tbl.get [] (s.gang g).members n).length + (linesOf accs).length then
    s.demote g [] (some (n, (linesOf accs).length))
  else s.doStoreVolatile g (some n) sp accs

def execStoreStream (g : Nat) (n : Fin 4) (sp : Space) (accs : List LaneAcc) (s : State) :
    Host.Outcome State Fault Refusal :=
  .next (s.issueStore g sp accs (fun s => s.doStoreStream g n.val sp accs))

/-! ## Program order at the point of coherence (R211) -/

/-- Two masks of bytes meet. -/
def masksMeet (a b : BitVec 128) : Bool := decide (a &&& b ≠ 0)

/-- The bytes of a capstone to device memory, as a line's DPA and a mask. -/
def Capstone.mask (c : Capstone) : BitVec 128 := maskOf (c.dpa % 128) c.data.length

/-- An earlier access of the gang to some of these bytes has not yet taken effect at the home slice (R211). -/
def State.mustWait (s : State) (id gang line : Nat) (mask : BitVec 128) : Bool :=
  s.reqs.any (fun e => decide (e.1 < id) && decide (e.2.gang = gang) && e.2.host.isNone && e.2.answer.isNone
      && !e.2.parked && decide (e.2.dpa = line) && masksMeet (reqMask e.2.tva e.2.accs) mask)
    || s.uc.capstones.any (fun e => decide (e.1 < id) && decide (e.2.gang = gang) && e.2.host.isNone
      && !e.2.failed && decide (e.2.dpa / 128 * 128 = line) && masksMeet e.2.mask mask)

/-! ## Capstones (R219 to R221) -/

/-- The home slice of a capstone; none for one to host memory. -/
def State.capSlice (s : State) (c : Capstone) : Option Nat :=
  if c.host.isSome then none else some (homeOf s.density c.dpa).1

/-- Capstones that a home slice holds. -/
def State.capsHeld (s : State) (x : Option Nat) : Nat :=
  (s.uc.capstones.filter (fun e => e.2.held && decide (s.capSlice e.2 = x))).length

/-- HELD: the capstones held by all slices; those of the quoins are not counted (Table 9.7). -/
def State.heldTotal (s : State) : Nat := (s.uc.capstones.filter (fun e => e.2.held && e.2.host.isNone)).length

def State.setCap (s : State) (id : Nat) (c : Capstone) : State :=
  let s := { s with uc := { s.uc with capstones := Tbl.put s.uc.capstones id c } }
  { s with uc := { s.uc with heldMax := min 65535 (max s.uc.heldMax s.heldTotal) } }

/-- Removes a capstone; the oldest one that waits at its bay takes the place (R219). -/
def State.dropCap (s : State) (id : Nat) (x : Option Nat) : State :=
  let s := { s with uc := { s.uc with capstones := Tbl.del s.uc.capstones id } }
  let s := { s with gangs := Tbl.mapVals s.gangs (fun _ g => { g with stores := g.stores.filter (· != id) }) }
  if x.isNone then s
  else match (s.uc.capstones.filter (fun e => !e.2.held && decide (s.capSlice e.2 = x))).head? with
    | some e => if s.capsHeld x < 64 then s.setCap e.1 { e.2 with held := true, arrived := s.time } else s
    | none => s

/-- The capstone goes, with the place it holds, whatever its destination. -/
def State.endCap (s : State) (id : Nat) : State :=
  match Tbl.find? s.uc.capstones id with
  | some c => s.dropCap id (s.capSlice c)
  | none => s

/-- CAPSTONE n store. -/
def State.doStoreCapstone (s : State) (g n : Nat) (sp : Space) (a : LaneAcc) (flag : Option W64) : State :=
  let v := s.gang g
  let c := s.cmd v.cmd
  let addr := a.addr.toNat
  let len := a.data.length
  if len < 4 ∨ 128 < addr % 128 + len then
    s.gangFault g fcBadAttribute { unit := unitBay v.bay, info0 := v.index }
  else
    let cap : Capstone := {
      gang := g, cmd := v.cmd, slice := c.slice, stream := n, waits := Tbl.get [] v.members n
      failed := bitAt v.failed n, ports := Tbl.get 0 v.hostPorts n, data := a.data, flag := flag, arrived := s.time
      held := true }
    let id := s.nextReq
    let start : State → Capstone → State := fun s cap =>
      let s := { s with nextReq := id + 1 }
      let s := s.updGang g (fun v => { v with
        members := Tbl.set [] v.members n [], failed := setBit v.failed n false
        hostPorts := Tbl.set 0 v.hostPorts n 0, stores := v.stores ++ [id] })
      s.setCap id cap
    match sp with
    | .host pasid =>
      if s.pasidOk g pasid then start s { cap with host := some pasid, hostAddr := addr }
      else s.gangFault g fcTranslation { unit := unitBay v.bay, info0 := 1 }
    | .tva =>
      match s.gangDpa g (addr / 128) 1 with
      | (s, none) => s
      | (s, some line) =>
        let x := (homeOf s.density line).1
        match s.homeShield x with
        | some (d, i) => s.stopCmd v.cmd { outcome := ocAborted, detail := d, arg := i }
        | none => start s { cap with dpa := line + addr % 128, tva := addr, held := decide (s.capsHeld (some x) < 64) }

def execStoreCapstone (g : Nat) (n : Fin 4) (sp : Space) (acc : LaneAcc) (flag : Option W64) (s : State) :
    Host.Outcome State Fault Refusal :=
  .next (s.issue g (fun s => s.doStoreCapstone g n.val sp acc flag))

/-- The addition of 1 to a flag's eight bytes at its home. -/
def State.bumpAt (s : State) (ag : Agent) (dpa flag : Nat) : State :=
  let h := homeOf s.density (dpa / 128 * 128)
  match (((s.onBehalf ag.cmd).holdWrite h.1 h.2).settleDir h.1 h.2).atomicAt dpa 8 .add .u64 1 0 with
  | (s, .old _ rar) =>
    if rar && (s.slice ag.slice).defn.rarFault then
      s.agFault ag fcRar { unit := ag.unit, addr := some (dpa / 128 * 128), tva := some (flag / 128 * 128) } else s
  | (s, .bad c) => s.agFault ag fcUncorrectable
      { unit := ag.unit, addr := some (dpa / 128 * 128), tva := some (flag / 128 * 128), info0 := c }
  | (s, .poison) => s.poisonWrite ag.slice ag.cmd ag.unit (dpa / 128 * 128) (flag / 128 * 128)
  | (s, .shield d a) => s.agAbort ag d a

/-- A flag is bumped by an atomic ADD of 1 (R219, R216). -/
def State.bumpFlag (s : State) (ag : Agent) (flag : Nat) : State :=
  match findRange (s.slice ag.slice).defn.ranges flag with
  | some r =>
    if r.canRead && r.canWrite then s.bumpAt ag (r.toDpa flag) flag
    else s.agFault ag fcTranslation { unit := ag.unit, addr := some flag, addrTva := true, tva := some flag, info0 := 3 }
  | none => s.agFault ag fcTranslation { unit := ag.unit, addr := some flag, addrTva := true, tva := some flag, info0 := 3 }

/-- The unit that holds a capstone: its home slice, or the queue engine of the quoin whose port will carry it. -/
def State.capUnit (s : State) (c : Capstone) : Nat :=
  match c.host with
  | none => unitUcSlice (homeOf s.density (c.dpa / 128 * 128)).1
  | some pasid => unitQueue (s.hostPort c.cmd pasid.toNat)

/-- The addition to a flag leaves the holder of its capstone for the flag's home slice (R234). -/
def State.sendFlag (s : State) (c : Capstone) (flag : Nat) : State :=
  match findRange (s.slice c.slice).defn.ranges flag with
  | some r => s.signalUnits .flagAdd (s.capUnit c) (unitUcSlice (homeOf s.density (r.toDpa flag / 128 * 128)).1)
  | none => s

/-- The flag of a capstone that has been written is bumped (R219). -/
def State.capFlag (s : State) (ag : Agent) (c : Capstone) : State :=
  match c.flag with
  | some f => (s.sendFlag c f.toNat).bumpFlag ag f.toNat
  | none => s

/-- A released capstone of host memory is written through its port (R220). Where earlier members of its stream went on the
other port, a zero-length read goes there first (R222). -/
def State.releaseHost (s : State) (id : Nat) (x : Option Nat) (ag : Agent) (c : Capstone) (pasid : BitVec 20) : State :=
  let port := s.hostPort ag.cmd pasid.toNat
  let s := if bitAt c.ports (portBit (!port)) then s.orderRead port else s
  let (s, ok) := s.agHostWrite ag pasid.toNat c.hostAddr c.data
  if ok then (s.dropCap id x).capFlag ag c else s.dropCap id x

/-- A released capstone of device memory is written at its home slice (R219). -/
def State.releaseDevice (s : State) (id : Nat) (x : Option Nat) (ag : Agent) (c : Capstone) : State :=
  let line := c.dpa / 128 * 128
  let off := c.dpa % 128
  match (s.onBehalf ag.cmd).lineWrite line (List.replicate off 0 ++ c.data) (maskOf off c.data.length) true
      (placeOf ag.unit) with
  | (s, .ok) => ((s.serveWaiting line).dropCap id x).capFlag ag c
  | (s, .poison) => (s.poisonWrite c.slice c.cmd ag.unit line (c.tva / 128 * 128)).dropCap id x
  | (s, .shield d a) => (s.agAbort ag d a).dropCap id x

/-- The release token reaches a held capstone whose earlier members are all acknowledged (R219, R220). -/
def State.doRelease (s : State) (id : Nat) : State :=
  match Tbl.find? s.uc.capstones id with
  | none => s
  | some c =>
    if !s.ready || !c.held || c.failed || decide (c.waits ≠ [])
        || (match c.host with
          | none => s.mustWait id c.gang (c.dpa / 128 * 128) c.mask
          | some pasid => s.hostBusy c.gang id pasid c.hostAddr c.data.length) then s
    else
      let ag : Agent := { cmd := c.cmd, slice := c.slice, unit := unitBay (s.gang c.gang).bay }
      let s := s.signalUnits .releaseToken ag.unit (s.capUnit c)
      match c.host with
      | some pasid => s.releaseHost id (s.capSlice c) ag c pasid
      | none => s.releaseDevice id (s.capSlice c) ag c

def execCapstoneReleaseToken (id : Nat) (s : State) : Host.Outcome State Fault Refusal :=
  .next (s.settled (fun s => s.doRelease id))

/-- A held capstone is discarded 64 ms after it arrived (R221). -/
def State.doDiscard (s : State) (id : Nat) : State :=
  match Tbl.find? s.uc.capstones id with
  | none => s
  | some c =>
    if s.powered && c.held && decide (c.arrived + 64000000 ≤ s.time) then
      let s := s.dropCap id (s.capSlice c)
      { s with uc := { s.uc with discarded := satAdd 32 s.uc.discarded 1 } }
    else s

def execCapstoneDiscard (id : Nat) (s : State) : Host.Outcome State Fault Refusal := .next (s.doDiscard id)

/-! ## Atomics (R216) -/

def State.doAtomic (s : State) (g : Nat) (sp : Space) (a : LaneAcc) (op : AtomicOp) (kind : AtomicKind)
    (x cmp : W64) : State :=
  let v := s.gang g
  match sp with
  | .host _ => s.gangFault g fcAtomicSpace { unit := unitBay v.bay, info0 := v.index, info1 := a.addr.toNat }
  | .tva =>
    let line := a.addr.toNat / 128
    match s.gangDpa g line 3 with
    | (s, none) => s
    | (s, some dpa) =>
      let s := (s.l1WriteMask v.bay line (lineMask line [a])).1.l1Forget v.bay line (lineMask line [a])
      let s := s.newReq g (.atomic op kind x cmp) line dpa [a] true none
      -- the request's TVA is the operand's, so that its offset in the line is known
      match Tbl.find? s.reqs (s.nextReq - 1) with
      | some r => s.setReq (s.nextReq - 1) { r with tva := a.addr.toNat }
      | none => s

def execAtomic (g : Nat) (sp : Space) (acc : LaneAcc) (op : AtomicOp) (kind : AtomicKind) (operand comparand : W64)
    (s : State) : Host.Outcome State Fault Refusal :=
  .next (s.issueMem g (fun s => s.doAtomic g sp acc op kind operand comparand))

/-! ## Ordering instructions (R214) -/

/-- FENCE retires when the gang's stores have landed and its atomics returned; until then nothing happens. -/
def State.fenced (s : State) (g : Nat) : Bool := (s.gang g).stores.isEmpty

def execFence (g : Nat) (s : State) : Host.Outcome State Fault Refusal :=
  .next (if s.fenced g then s.issue g (fun s => s) else s)

def execFlushAll (g : Nat) (s : State) : Host.Outcome State Fault Refusal :=
  .next (s.issueMem g (fun s => s.l1FlushCmd (s.gang g).bay (s.gang g).cmd))

/-- L1 lines of a bay that lie in a range of addresses. -/
def State.l1In (s : State) (b addr len : Nat) : List Nat :=
  ((s.bay b).l1.filter (fun e => overlap (128 * e.1) 128 addr len)).map (·.1)

/-- Drops the clean L1 lines of a range. -/
def State.l1Inv (s : State) (b addr len : Nat) : State :=
  s.updBay b (fun v => { v with
    l1 := v.l1.filter (fun e => !(overlap (128 * e.1) 128 addr len) || decide (e.2.dirty ≠ 0)) })

def State.doFlushRange (s : State) (g addr len : Nat) (mode : FlushMode) : State :=
  let v := s.gang g
  let b := v.bay
  if !inRange (s.slice (s.cmd v.cmd).slice).defn addr len (fun _ => true) then
    s.gangFault g fcTranslation { unit := unitBay b, addr := some addr, addrTva := true, tva := some addr, info0 := 1 }
  else
    let s := match mode with
      | .inv => s
      | _ => (l1WriteBackAll b (s.l1In b addr len) s).1
    match mode with
    | .wb => s
    | _ => s.l1Inv b addr len

/-- FLUSH range: an address of scratch raises SCRATCH_RANGE (R214). -/
def State.flushFrom (s : State) (g : Nat) (start : FlushStart) (len : Nat) (mode : FlushMode) : State :=
  match start with
  | .tva addr => s.doFlushRange g addr.toNat len mode
  | .scratch off => s.gangFault g fcScratchRange
      { unit := unitBay (s.gang g).bay, info0 := (s.gang g).index, info1 := off.toNat }

def execFlushRange (g : Nat) (start : FlushStart) (len : Nat) (mode : FlushMode) (s : State) :
    Host.Outcome State Fault Refusal :=
  .next (s.issueMem g (fun s => s.flushFrom g start len mode))

/-! ## The mask stack (R120) -/

/-- A spilled entry (Table 5.3). -/
def MaskEntry.bytes (e : MaskEntry) : Bytes :=
  leBytes 4 e.active.toNat ++ leBytes 4 e.pending.toNat ++ leBytes 6 e.rpc.toNat ++ [0, 0]

def MaskEntry.ofBytes (b : Bytes) : MaskEntry :=
  { active := BitVec.ofNat 32 (leAt b 0 4), pending := BitVec.ofNat 32 (leAt b 4 4), rpc := BitVec.ofNat 48 (leAt b 8 6) }

/-- The offset of a spill slot in its gang's footprint. -/
def State.spillAddr (s : State) (v : Gang) (slot : Nat) : Nat := laScratch (s.cmd v.cmd).block + 16 * slot

/-- A push: the taken lanes run first. -/
def State.doMaskPush (s : State) (g : Nat) (taken : W32) (rpc : BitVec 48) : State :=
  let v := s.gang g
  let e : MaskEntry := { active := v.mask, pending := v.mask &&& ~~~taken, rpc := rpc }
  if 16 + laSpill (s.cmd v.cmd).block ≤ v.stack.length + v.spilled then
    s.gangFault g fcMaskOverflow { unit := unitBay v.bay, info0 := v.index }
  else
    let (s, stack, spilled) := if v.stack.length < 16 then (s, v.stack, v.spilled)
      else
        match v.stack.getLast? with
        | some old => (s.footWrite v.bay v.feet (s.spillAddr v v.spilled) old.bytes, v.stack.dropLast, v.spilled + 1)
        | none => (s, v.stack, v.spilled)
    s.updGang g (fun v => { v with mask := v.mask &&& taken, stack := e :: stack, spilled := spilled })

def execMaskPush (g : Nat) (taken : W32) (rpc : BitVec 48) (s : State) : Host.Outcome State Fault Refusal :=
  .next (s.issue g (fun s => s.doMaskPush g taken rpc))

/-- Reconvergence: the lanes still to run go next; with none left the entry is popped and its mask restored. -/
def State.doReconverge (s : State) (g : Nat) : State :=
  let v := s.gang g
  match v.stack with
  | [] => s
  | e :: t =>
    if e.pending ≠ 0 then
      s.updGang g (fun v => { v with mask := e.pending, stack := { e with pending := 0 } :: t })
    else if t = [] ∧ 0 < v.spilled then
      let f := MaskEntry.ofBytes (s.footRead v.bay v.feet (s.spillAddr v (v.spilled - 1)) 16)
      s.updGang g (fun v => { v with mask := e.active, stack := [f], spilled := v.spilled - 1 })
    else s.updGang g (fun v => { v with mask := e.active, stack := t })

def execMaskReconverge (g : Nat) (s : State) : Host.Outcome State Fault Refusal :=
  .next (s.issue g (fun s => s.doReconverge g))

/-! ## Lane arithmetic, scratch, instruction fetch -/

/-- Writes one value to a register of every active lane. -/
def State.setLanes (s : State) (g dst : Nat) (f : State → Nat → W32) : State :=
  (bitList 32 (s.gang g).mask.toNat).foldl (fun s l => s.setReg g l dst (f s l)) s

/-- Writes free values to a register of every active lane (notes/assumptions/2.md). -/
def State.freeLanes (s : State) (g dst : Nat) : State :=
  (bitList 32 (s.gang g).mask.toNat).foldl (fun s l =>
    { s.setReg g l dst (Config.freeWord s.free) with free := s.free + 1 }) s

/-- A line enters a bay's constant cache (R122). -/
def State.fillConst (s : State) (b line : Nat) (x : Bytes) : State :=
  let (t, s) := s.roRoom (s.bay b).ccache (fun _ => true) ccacheLines
  s.updBay b (fun v => { v with ccache := Tbl.put t line x })

/-- The bays of a die that hold gangs of a launch. -/
def State.launchBays (s : State) (id d : Nat) : List Nat :=
  (List.range 48).filter (fun b => decide (dieOfBay b = d)
    && (s.bay b).cores.any (fun e => decide (e.2 = id)))

/-- A constant line is read through the port of each bay in turn (R237, Fallback). -/
def readConst (id line : Nat) : List Nat → State → State
  | [], s => s
  | b :: t, s =>
    match s.agRead (s.agentOn id b) (128 * line) 128 with
    | (s, some x) => readConst id line t (s.fillConst b line x)
    | (s, none) => s

/-- A miss of the constant cache (R122): a launch on several bays of the die is filled once, over the broadcast bus; while
that is busy the line is read for each bay. -/
def State.constMiss (s : State) (id b line : Nat) : State :=
  let bays := s.launchBays id (dieOfBay b)
  if bays.length < 2 then readConst id line [b] s
  else match s.takeBus (dieOfBay b) 128 with
    | (s, true) =>
      match s.agRead (s.agentOn id b) (128 * line) 128 with
      | (s, some x) => bays.foldl (fun s p => s.fillConst p line x) s
      | (s, none) => s
    | (s, false) => readConst id line bays (s.countFallbacks (dieOfBay b) bays.length)

/-- Four bytes of the CONST block reach a register of every active lane, through the constant cache. What lies behind
CONST_LEN is not stated: a free value. -/
def State.doConst (s : State) (g dst offset : Nat) : State :=
  let v := s.gang g
  let blk := (s.cmd v.cmd).block
  if laConstLen blk < offset + 4 then s.freeLanes g dst
  else
    let a := laConst blk + offset
    let s := if (Tbl.find? (s.bay v.bay).ccache (a / 128)).isSome then s else s.constMiss v.cmd v.bay (a / 128)
    match Tbl.find? (s.bay v.bay).ccache (a / 128) with
    | some x => s.setLanes g dst (fun _ _ => BitVec.ofNat 32 (leAt x (a % 128) 4))
    | none => s

def State.doLane (s : State) (g : Nat) (op : LaneOp) : State :=
  match op with
  | .fma d a b c =>
    s.setLanes g d (fun s l =>
      let v := s.gang g
      BitVec.ofNat 32 (f32Fma (v.reg l a).toNat (v.reg l b).toNat (v.reg l c).toNat))
  | .lane d _ => s.freeLanes g d
  | .scalar d =>
    { s.updGang g (fun v => { v with scalars := Tbl.set 0 v.scalars d (Config.freeWord s.free) }) with free := s.free + 1 }
  | .constant d offset => s.doConst g d offset.toNat

/-- The registers an operation reads. -/
def laneSources : LaneOp → List Nat
  | .fma _ a b c => [a, b, c]
  | .lane _ sources => sources
  | .scalar _ | .constant _ _ => []

/-- The operation is lane arithmetic, of which an edge takes one (R119). -/
def isArithmetic : LaneOp → Bool
  | .fma _ _ _ _ | .lane _ _ => true
  | .scalar _ | .constant _ _ => false

def State.doLaneArithmetic (s : State) (g : Nat) (op : LaneOp) : State :=
  s.awaiting g (fun e => (laneSources op).contains e.2) (fun s =>
    let run := fun s : State => s.issue g (fun s => s.doLane g op) (isArithmetic op)
    match op with
    | .constant _ _ => s.settled run
    | _ => run s)

def execLaneArithmetic (g : Nat) (op : LaneOp) (s : State) : Host.Outcome State Fault Refusal :=
  .next (s.doLaneArithmetic g op)

/-- A load or store of scratch (R121). -/
def State.doScratch (s : State) (g offset size : Nat) (lane : Fin 32) (op : ScratchOp) : State :=
  let v := s.gang g
  if laScratch (s.cmd v.cmd).block < offset + size then
    s.gangFault g fcScratchRange { unit := unitBay v.bay, info0 := v.index, info1 := offset }
  else match op with
    | .load reg =>
      let a : LaneAcc := { lane := lane, addr := 0, size := size, reg := reg }
      let b := s.footRead v.bay v.feet offset size
      (List.range size).foldl (fun s i => s.setRegByte g a i (b.getD i 0)) (s.freeReg g a)
    | .store data => s.footWrite v.bay v.feet offset (bytesAt data 0 size)

def execScratchAccess (g offset size : Nat) (lane : Fin 32) (op : ScratchOp) (s : State) :
    Host.Outcome State Fault Refusal :=
  .next (s.issue g (fun s => s.doScratch g offset size lane op))

/-- Code is fetched into the instruction cache of a gang's core; a line held is not read again (R122). -/
def State.doInstrFetch (s : State) (g offset : Nat) : State :=
  let v := s.gang g
  let c := s.cmd v.cmd
  let tva := (laCode c.block + offset) / 128 * 128
  let key := v.core * 2 ^ 50 + tva / 128
  if (Tbl.find? (s.bay v.bay).icache key).isSome then s
  else match findRange (s.slice c.slice).defn.ranges tva with
    | none => s.gangFault g fcTranslation
        { unit := unitBay v.bay, addr := some tva, addrTva := true, tva := some tva, info0 := 2 }
    | some r =>
      if !r.canExec then
        s.gangFault g fcExec { unit := unitBay v.bay, addr := some tva, addrTva := true, tva := some tva }
      else
        let ag := s.agentOn v.cmd v.bay
        match (s.onBehalf v.cmd).lineRead (r.toDpa tva) 15 (placeOf ag.unit) false with
        | (s, .data b rar) =>
          if rar && (s.slice c.slice).defn.rarFault then
            s.agFault ag fcRar { unit := ag.unit, addr := some (r.toDpa tva), tva := some tva }
          else
            let (t, s) := s.roRoom (s.bay v.bay).icache (fun k => decide (k / 2 ^ 50 = v.core)) icacheLines
            s.updBay v.bay (fun x => { x with icache := Tbl.put t key b })
        | (s, .bad k) => s.agFault ag fcUncorrectable
            { unit := ag.unit, addr := some (r.toDpa tva), tva := some tva, info0 := k }
        | (s, .shield d a) => s.agAbort ag d a

def execInstructionFetch (g : Nat) (offset : W32) (s : State) : Host.Outcome State Fault Refusal :=
  .next (s.issueMem g (fun s => s.doInstrFetch g offset.toNat))

/-! ## Replies and acknowledgements (R78) -/

/-- A shield made the answer itself. -/
def Req.byShield (r : Req) : Bool :=
  match r.answer with
  | some (.shield _ _) => true
  | _ => false

/-- A reply is stale (R78). A shield answers in its unit's place, after the unit's epoch has changed. -/
def State.stale (s : State) (r : Req) : Bool :=
  decide (r.tenantEpoch ≠ (s.slice r.slice).tenantEpoch) || decide (r.unitEpoch ≠ s.unitEpoch r.unit)
    || (r.answer.isSome && !r.byShield && decide (r.respEpoch ≠ s.unitEpoch r.responder))
    || decide (r.issued + 64000000 < s.time)

/-- A request leaves its gang's and its stream's books; a failed member fails the capstones that wait on it (R221). -/
def State.settleReq (s : State) (rid : Nat) (failed : Bool) : State :=
  match Tbl.find? s.reqs rid with
  | none => s
  | some r =>
    let s := s.dropReq rid
    let s := if s.hasGang r.gang then
        s.updGang r.gang (fun v => { v with
          loads := v.loads.filter (· != rid)
          stores := v.stores.filter (· != rid)
          members := match r.stream with
            | some n => Tbl.upd [] v.members n (fun l => l.filter (· != rid))
            | none => v.members
          failed := match r.stream with
            | some n => if failed && (Tbl.get [] v.members n).contains rid then setBit v.failed n true else v.failed
            | none => v.failed })
      else s
    let s := { s with uc := { s.uc with capstones := Tbl.mapVals s.uc.capstones (fun _ c =>
        if c.waits.contains rid then
          { c with waits := c.waits.filter (· != rid), failed := c.failed || failed } else c) } }
    let s := if failed then s.updCmd r.cmd (fun c => { c with ended := c.ended.filter (fun e => e.2.2 != r.gang) }) else s
    let v := s.gang r.gang
    if s.hasGang r.gang && !v.saved then s.fillActive v.bay v.core else s

/-- Data returns to a load: the registers of its lanes, and L1 for a PLAIN load (R213). -/
def State.deliverLoad (s : State) (rid : Nat) (r : Req) (b : Bytes) : State :=
  let v := s.gang r.gang
  let s := if r.volatile || !s.hasGang r.gang then s
    else s.l1Fill v.bay (r.tva / 128) b (sectorBytes (touchedSectors (reqMask r.tva r.accs)))
  -- what this bay holds dirty of the line is newer than what the home slice sent (R211)
  let b := if r.volatile then b else match Tbl.find? (s.bay v.bay).l1 (r.tva / 128) with
    | some l => mergeBytes b l.data l.valid
    | none => b
  let s := if s.hasGang r.gang then s.deliver r.gang r.tva r.accs b else s
  s.settleReq rid false

/-- The old value returns to an atomic; an L1 copy takes the new one (R216). -/
def State.deliverAtomic (s : State) (rid : Nat) (r : Req) (op : AtomicOp) (kind : AtomicKind) (x cmp : W64)
    (old : Bytes) : State :=
  let a := r.accs.headD { lane := 0, addr := 0, size := 4 }
  let w := 8 * a.size
  let made := atomicNew op kind w (leVal old) (x.toNat % 2 ^ w) (cmp.toNat % 2 ^ w)
  let new := if made.2 then made.1 else leVal old
  let off := r.tva % 128
  let s := if s.hasGang r.gang then
      let s := s.l1Learn (s.gang r.gang).bay (r.tva / 128) (List.replicate off 0 ++ leBytes a.size new) (maskOf off a.size)
      (List.range a.size).foldl (fun s i => s.setRegByte r.gang a i (old.getD i 0)) s
    else s
  s.settleReq rid false

/-- READ_REPLY: the answer of a read or an atomic reaches its gang. -/
def State.doReadReply (s : State) (rid : Nat) (reply : HostReply) : State :=
  match Tbl.find? s.reqs rid with
  | none => s
  | some r =>
    if !s.powered || s.stale r || r.parked then s
    else if r.dead then (if r.host.isSome || r.answer.isSome then s.dropReq rid else s)
    else if r.host.isSome then
      let bad : Nat → State := fun st =>
        (s.cmdFault r.cmd r.unit fcHostAccess { unit := r.unit, info0 := st, info1 := r.tva }).settleReq rid true
      if !s.linkUp (decide (r.responder = unitQueue true)) then bad 0xFF
      else match reply with
        | .ok b =>
          let n := popCount 128 (reqMask r.tva r.accs).toNat
          (((s.count r.slice 12 n).onBehalf r.cmd).bulk (placeOf r.responder) (placeOf r.unit) n true).deliverLoad rid r
            (bytesAt b 0 128)
        | .error st => bad st
        | .linkDown => bad 0xFF
    else match r.answer with
      | some (.data b) => match r.kind with
        | .read => s.deliverLoad rid r b
        | .atomic op kind x cmp => s.deliverAtomic rid r op kind x cmp b
        | .write => s
      | some .fault => if r.kind = .write then s else s.settleReq rid true
      | _ => s

def execReadReply (rid : Nat) (reply : HostReply) (s : State) : Host.Outcome State Fault Refusal :=
  .next (s.settled (fun s => s.doReadReply rid reply))

/-- WRITE_ACKNOWLEDGEMENT: a store's acknowledgement reaches its bay (R219). -/
def State.doWriteAck (s : State) (rid : Nat) : State :=
  match Tbl.find? s.reqs rid with
  | none => s
  | some r =>
    if !s.powered || s.stale r || decide (r.kind ≠ .write) then s
    else if r.dead then (if r.answer.isSome then s.dropReq rid else s)
    else match r.answer with
      | some .ack => s.settleReq rid false
      | some .fault => s.settleReq rid true
      | _ => s

def execWriteAcknowledgement (rid : Nat) (s : State) : Host.Outcome State Fault Refusal := .next (s.doWriteAck rid)

/-- What a closed shield answers a request: what it has answered, or will once the request, which has not reached its home
slice, does so. -/
def State.shieldAns (s : State) (r : Req) : Option (Nat × Nat) :=
  match r.answer with
  | some (.shield d a) => some (d, a)
  | none => if r.host.isSome then none else s.homeShield (homeOf s.density r.dpa).1
  | _ => none

/-- The order in which a shield answers: entries of its record as they entered, then the requests that arrive after it
closed, by their numbers (R77). -/
def Req.shieldRank (r : Req) (rid : Nat) : Nat × Nat :=
  match r.entered with
  | some k => (0, k)
  | none => (1, rid)

def rankLess (a b : Nat × Nat) : Bool := decide (a.1 < b.1) || (decide (a.1 = b.1) && decide (a.2 < b.2))

/-- A request is the next that its shield answers. -/
def State.shieldFirst (s : State) (rid : Nat) (r : Req) : Bool :=
  !(s.reqs.any (fun e => decide (e.2.responder = r.responder) && !e.2.parked && (s.shieldAns e.2).isSome
      && rankLess (e.2.shieldRank e.1) (r.shieldRank rid)))

/-- A shield's answer takes effect at the requester: its command is aborted (R76). A stale one is left to
STALE_REPLY_DISCARD, and one whose taker has gone ends the request. -/
def State.takeShield (s : State) (rid : Nat) : State :=
  match Tbl.find? s.reqs rid with
  | none => s
  | some r =>
    match s.shieldAns r with
    | some (d, a) =>
      if !s.powered || r.parked then s
      else if s.stale r then s.setReq rid { r with answer := some (.shield d a) }
      else if r.dead then s.dropReq rid
      else (s.stopCmd r.cmd { outcome := ocAborted, detail := d, arg := a }).settleReq rid true
    | none => s

/-- SHIELD_ANSWER: a closed shield's answer reaches the requester, one after another in their order (R77). -/
def State.doShieldAnswer (s : State) (rid : Nat) : State :=
  match Tbl.find? s.reqs rid with
  | none => s
  | some r => if s.shieldFirst rid r then s.takeShield rid else s

def execShieldAnswer (rid : Nat) (s : State) : Host.Outcome State Fault Refusal := .next (s.doShieldAnswer rid)

/-- STALE_REPLY_DISCARD: the shield that finds a reply stale discards and counts it (R78, R84). -/
def State.doStaleDiscard (s : State) (rid : Nat) : State :=
  match Tbl.find? s.reqs rid with
  | none => s
  | some r =>
    if s.powered && (r.answer.isSome || r.host.isSome) && s.stale r && !r.parked then
      let s := s.settleReq rid true
      { s with dev := { s.dev with staleCount := (s.dev.staleCount + 1) % 2 ^ 64 } }
    else s

def execStaleReplyDiscard (rid : Nat) (s : State) : Host.Outcome State Fault Refusal := .next (s.doStaleDiscard rid)

/-! ## What is in flight when a gang stops (R130, R222) -/

/-- Lands the outstanding device stores and atomics of a gang's command at their home slices, and delivers them. -/
def State.landReqs (s : State) (sel : Req → Bool) : State :=
  (s.reqs.filter (fun e => sel e.2 && decide (e.2.kind ≠ ReqKind.read))).foldl (fun s e =>
    let s := if e.2.answer.isNone then
        s.takeNow e.1 e.2
      else s
    match e.2.kind with
    | .write => (s.doWriteAck e.1).takeShield e.1
    | _ => (s.doReadReply e.1 .linkDown).takeShield e.1) s

end Sys2Proof.Machine
end

