-- ==== Sys2Proof/Machine/CacheOps.lean ====
section
/-! DEFINITION. The unified cache's own commands: requests at the home slice (spec/08 R194, R195), the replica protocol of
PAIRED lines (R192, R193) and the disabling of ways (R203, R208). -/

namespace Sys2Proof.Machine

/-! ## Requests at their home slice (R194, R195) -/

/-- A request waits in the controller of a channel that is held for retraining (R256). -/
def State.queuedAtChan (s : State) (rid : Nat) : Bool := s.mem.chans.any (fun e => e.2.queued.contains (.req rid))

/-- A request reaches its home slice. Nothing happens while an earlier access of its gang to the same bytes has yet to
take effect (R211). -/
def State.reachHome (s : State) (rid : Nat) (isRead : Bool) : State :=
  match Tbl.find? s.reqs rid with
  | none => s
  | some r =>
    if !s.powered || (decide (r.kind = .read) != isRead) || r.host.isSome || r.parked
        || s.uc.waiting.contains rid || s.queuedAtChan rid
        || s.mustWait rid r.gang r.dpa (reqMask r.tva r.accs) then s
    else s.serveOrQueue rid

def execCacheRead (rid : Nat) (s : State) : Host.Outcome State Fault Refusal := .next (s.reachHome rid true)

def execCacheWrite (rid : Nat) (s : State) : Host.Outcome State Fault Refusal := .next (s.reachHome rid false)

/-! ## The replica protocol (R192, R193) -/

/-- The reads of a line that missed at the partner slice and wait for its home slice. -/
def State.missedReads (s : State) (line : Nat) : List Nat :=
  (s.reqs.filter (fun e => e.2.missed && e.2.answer.isNone && !e.2.parked && !e.2.dead && decide (e.2.dpa = line))).map (·.1)

/-- The home slice may send a fill: the line is in NONE or REPLICA and holds no released zeros. -/
def State.mayReplicate (s : State) (x n : Nat) : Bool :=
  match s.findWay x n false with
  | some w =>
    let y := s.way (wayKey x (setOf n) w)
    !y.released && (decide (y.dir = .none) || decide (y.dir = .replica))
  | none => false

/-- A requester's request, taken again, at its home slice. -/
def State.applyAgain (s : State) (rid : Nat) : State :=
  match Tbl.find? s.reqs rid with
  | some r => s.applyReq rid r
  | none => s

/-- The reads that missed at the partner slice, answered by the line's home, which then may install a replica. -/
def State.fillFrom (s : State) (missed : List Nat) (x n : Nat) : State :=
  let s := missed.foldl State.applyAgain s
  if s.mayReplicate x n then
    let r := s.installReplica x n
    if r.2 then r.1.setDir x n .filling else r.1
  else s

/-- REPLICA_FILL: a partner slice's miss reaches the home slice, which answers the reads that wait for it and sends the
line's valid data to the partner. -/
def State.doReplicaFill (s : State) (line : Nat) : State :=
  let h := homeOf s.density line
  let missed := s.missedReads line
  if !s.powered || decide (missed = []) || decide (s.dirOf h.1 h.2 = .filling) || decide (s.dirOf h.1 h.2 = .invalidating) then s
  else match s.homeShield (h.1 ^^^ 256) with
    | some (d, a) => missed.foldl (fun s rid => s.answerReq rid (.shield d a)) s
    | none => s.fillFrom missed h.1 h.2

/-- The line of a DPA operand. -/
def lineOf (dpa : BitVec 44) : Nat := dpa.toNat / 128 * 128

def execReplicaFill (dpa : BitVec 44) (s : State) : Host.Outcome State Fault Refusal := .next (s.settled (fun s => s.doReplicaFill (lineOf dpa)))

/-- REPLICA_INSTALL_ACK: FILLING becomes REPLICA, and the requests that wait behind it proceed. -/
def State.doInstallAck (s : State) (line : Nat) : State :=
  let h := homeOf s.density line
  if s.powered && decide (s.dirOf h.1 h.2 = .filling) then (s.setDir h.1 h.2 .replica).serveWaiting line else s

def execReplicaInstallAck (dpa : BitVec 44) (s : State) : Host.Outcome State Fault Refusal :=
  .next (s.doInstallAck (lineOf dpa))

/-- REPLICA_INVALIDATE: an invalidate reaches the partner slice, which drops any replica. -/
def State.invalidateAt (s : State) (x n : Nat) : State :=
  if s.powered && decide (s.dirOf x n = .invalidating) then
    (s.dropReplica x n).signalUnits .invalidateAck (unitUcSlice (x ^^^ 256)) (unitUcSlice x)
  else s

/-- REPLICA_INVALIDATE of a line, at its home slice and index. -/
def State.doInvalidate (s : State) (line : Nat) : State :=
  s.invalidateAt (homeOf s.density line).1 (homeOf s.density line).2

def execReplicaInvalidate (dpa : BitVec 44) (s : State) : Host.Outcome State Fault Refusal :=
  .next (s.doInvalidate (lineOf dpa))

/-- INVALIDATE_ACK: INVALIDATING becomes NONE once the replica is gone, and the waiting requests proceed. -/
def State.doInvalidateAck (s : State) (line : Nat) : State :=
  let h := homeOf s.density line
  if s.powered && decide (s.dirOf h.1 h.2 = .invalidating) && (s.findWay (h.1 ^^^ 256) h.2 true).isNone then
    (s.setDir h.1 h.2 .none).serveWaiting line
  else s

def execInvalidateAck (dpa : BitVec 44) (s : State) : Host.Outcome State Fault Refusal :=
  .next (s.doInvalidateAck (lineOf dpa))

/-! ## Ways (R203, R208) -/

/-- A write to UC_WAY_CTL: ignored, with OVERRUN, while an operation runs. -/
def State.wayCtl (s : State) (f : State → State) : State :=
  if !s.ready then s
  else if s.uc.wayBusy then { s with uc := { s.uc with wayOverrun := true } }
  else f s

/-- WAY_DISABLE: the operation starts. -/
def execWayDisable (x : BitVec 9) (way : Fin 16) (s : State) : Host.Outcome State Fault Refusal :=
  .next (s.wayCtl (fun s => { s with uc := { s.uc with wayBusy := true, wayOp := some (x.toNat, way.val, true) } }))

/-- WAY_ENABLE: the way serves again, but for an OFFLINE slice, whose ways only a die reset restores (R203); a write for a
slice whose die is not UP is ignored (R208). -/
def State.doWayEnable (s : State) (x way : Nat) : State :=
  s.wayCtl (fun s =>
    if s.dieState (dieOfUcSlice x) ≠ .up then s
    else if s.ucOffline x then { s with uc := { s.uc with wayDone := true } }
    else { s with uc := { s.uc with
      wayOff := Tbl.upd 0 s.uc.wayOff x (fun m => setBit m way false), wayDone := true } })

def execWayEnable (x : BitVec 9) (way : Fin 16) (s : State) : Host.Outcome State Fault Refusal :=
  .next (s.doWayEnable x.toNat way.val)

/-- The sets of a slice in which a way holds data. -/
def State.setsHeld (s : State) (x way : Nat) : List Nat :=
  (s.uc.ways.filter (fun e => decide (e.1 / 24576 = x) && decide (e.1 % 16 = way) && e.2.holds)).map
    (fun e => e.1 % 24576 / 16)

/-- A way can be emptied of a set: no directory transition runs, and a write-back can be made. -/
def State.canEmpty (s : State) (x way set : Nat) : Bool :=
  let y := s.way (wayKey x set way)
  decide (y.dir ≠ .filling) && decide (y.dir ≠ .invalidating)
    && (decide (y.dirty = 0) || decide ((s.chan (chanOfUcSlice x)).unit = .up))
    && !s.lineWaited (dpaOf s.density (y.home x) (y.line set))

/-- WAY_OPERATION_DONE: the disable's write-backs and invalidations are finished, and the way is excluded. -/
def State.doWayDone (s : State) : State :=
  match s.uc.wayOp with
  | none => s
  | some (x, way, _) =>
    let sets := s.setsHeld x way
    if !s.powered || !(sets.all (s.canEmpty x way)) then s
    else
      let s := sets.foldl (fun s set => s.evictWay x set way) s
      { s with uc := { s.uc with
          wayOff := Tbl.upd 0 s.uc.wayOff x (fun m => setBit m way true)
          wayOp := none, wayBusy := false, wayDone := true } }

def execWayOperationDone (s : State) : Host.Outcome State Fault Refusal := .next (s.settled (fun s => s.doWayDone))

end Sys2Proof.Machine
end

