-- ==== Sys2Proof/Machine/Channels.lean ====
section
/-! DEFINITION. The LPDDR5X channels' own commands (spec/11): reads and writes with the errors that the DRAM has added, the
retraining schedule (R256), pin-kill and its repack (R248), row repair (R254) and the DRAM scrubber (spec/14 R336 to R338). -/

namespace Sys2Proof.Machine

/-- A channel that serves requests: UP and trained. -/
def State.chanServes (s : State) (c : Nat) : Bool :=
  s.powered && decide ((s.chan c).unit = .up) && (s.chan c).trained

/-! ## Reads and writes -/

/-- A line that is not fresh is looked up in the course map, with the errors that the DRAM has taken in its map line. -/
def State.mapLookup (s : State) (c q : Nat) (mapErrs : List (Nat × Byte)) : State × Bool :=
  if s.fresh c (s.blockOfLine c q) then (s, true)
  else (s.corruptLine c (s.mapPlace (q / 512)) mapErrs).mapCheck c (q / 32)

/-- The errors that the DRAM has taken in a WRITTEN line. -/
def State.addErrors (s : State) (c q : Nat) (errs : List (Nat × Byte)) : State :=
  if s.lineState c q = .written then s.corruptLine c q errs else s

/-- A request waits for this line at its channel. -/
def State.requestFor (s : State) (c q rid : Nat) : Bool :=
  match Tbl.find? s.reqs rid with
  | some r =>
    let h := homeOf s.density r.dpa
    r.answer.isNone && r.host.isNone && !r.parked && decide (chanOfUcSlice h.1 = c) && decide (chanLine h.1 h.2 = q)
  | none => false

/-- CHANNEL_READ (R247): line q is read with its check burst and decoded, for a request or for none. -/
def State.doChannelRead (s : State) (c q : Nat) (errs mapErrs : List (Nat × Byte)) (rid : Option Nat) : State :=
  if !s.chanServes c || decide (chanLines s.density ≤ q) then s
  else match rid with
    | none =>
      if (s.chan c).retraining then s.updChan c (fun v => { v with queued := v.queued ++ [.read q] })
      else match s.mapLookup c q mapErrs with
        | (s, true) => ((s.addErrors c q errs).chanRead c q).1
        | (s, false) => s
    | some id =>
      if !s.requestFor c q id then s
      else
        let isRead := match Tbl.find? s.reqs id with
          | some r => decide (r.kind = .read)
          | none => true
        if (s.chan c).retraining then s.reachHome id isRead
        else match s.mapLookup c q mapErrs with
          | (s, true) => (s.addErrors c q errs).reachHome id isRead
          | (s, false) => match Tbl.find? s.reqs id with
            | some r => s.badRead id r 2
            | none => s

def execChannelRead (c : Fin 128) (q : Nat) (errs mapErrs : List (Nat × Byte)) (rid : Option Nat) (s : State) :
    Host.Outcome State Fault Refusal := .next (s.doChannelRead c.val q errs mapErrs rid)

/-- A write reaches the channel (R251); a refused one is reported to the line's owner (Table 11.3). -/
def State.writeLine (s : State) (c q : Nat) (data : Bytes) (mask : BitVec 128) : State :=
  match s.chanWrite c q data mask with
  | (s, false) => s
  | (s, true) =>
    let dpa := s.dpaOfLine c q
    s.raise fcPoisonWrite
      { unit := unitUcSlice (lineOfChan c q).1, slice := s.ownerOf dpa, addr := some dpa, tva := s.tvaOf dpa }

/-- CHANNEL_WRITE (R251). -/
def State.doChannelWrite (s : State) (c q : Nat) (data : Bytes) (mask : BitVec 128) : State :=
  if !s.chanServes c || decide (chanLines s.density ≤ q) then s
  else if (s.chan c).retraining then s.updChan c (fun v => { v with queued := v.queued ++ [.write q data mask] })
  else s.writeLine c q data mask

def execChannelWrite (c : Fin 128) (q : Nat) (data : Bytes) (mask : BitVec 128) (s : State) :
    Host.Outcome State Fault Refusal := .next (s.doChannelWrite c.val q data mask)

/-- REFRESH (R255): the bank's rows keep what they hold, and only requests to that bank wait, for less than the model's
step (notes/assumptions/40.md). -/
def State.doRefresh (s : State) (_c _bank : Nat) : State := s

def execRefresh (c : Fin 128) (bank : Fin 16) (s : State) : Host.Outcome State Fault Refusal :=
  .next (s.doRefresh c.val bank.val)

/-! ## Retraining (R256) -/

/-- A TIME of the channel's schedule. -/
def retrainPoint (c time : Nat) : Bool := decide (((time : Int) - 781250 * (c : Int)) % 100000000 = 0)

/-- Only a trained channel that is UP and does not repack retrains. -/
def State.mayRetrain (s : State) (c : Nat) : Bool :=
  s.chanServes c && !(s.chan c).repacking && !(s.chan c).retraining

def State.retrainingNow (s : State) : Nat := (s.mem.chans.filter (fun e => e.2.retraining)).length

/-- RETRAIN_START: a hold begins at a point of the schedule, or once a deferred one may. -/
def State.doRetrainStart (s : State) (c : Nat) : State :=
  if !s.mayRetrain c || !(retrainPoint c s.time || (s.chan c).deferred) then s
  else if s.whole.retrainMax ≤ s.retrainingNow then s.updChan c (fun v => { v with deferred := true })
  else s.updChan c (fun v => { v with retraining := true, retrainFrom := s.time, deferred := false, notice := false })

def execRetrainStart (c : Fin 128) (s : State) : Host.Outcome State Fault Refusal := .next (s.doRetrainStart c.val)

/-- One request that waited in the controller is issued. -/
def State.issueQueued (s : State) (c : Nat) : ChanReq → State
  | .req rid => s.serveOrQueue rid
  | .read q => s.doChannelRead c q [] [] none
  | .write q data mask => s.doChannelWrite c q data mask

/-! ## BACKGROUND requests (spec/14 R341) -/

/-- A waiting request is BACKGROUND-class work (R33); an access made for no command is none. -/
def State.isBackground (s : State) : ChanReq → Bool
  | .req rid => match Tbl.find? s.reqs rid with
    | some r => s.background (dClass (s.cmd r.cmd).desc)
    | none => false
  | _ => false

/-- The data rates of R18, in MT/s. -/
def dataRate (code : Nat) : Nat := [6400, 7500, 8533, 9600].getD code 9600

/-- The bus time in ps of a line's four bursts and its check burst, of 16 transfers each. -/
def State.burstPs (s : State) : Nat := ceilDiv (5 * 16 * 1000000) (dataRate s.dev.memRate)

/-- What a channel's streaming meter has earned by now: the budget's share of the time, at most four accesses. -/
def State.earnStream (s : State) (c : Nat) : State :=
  s.updChan c (fun v => { v with
    streamCredit := min (4 * s.burstPs) (v.streamCredit + (s.dev.ticks - v.streamTime) * s.whole.stream)
    streamTime := s.dev.ticks })

/-- The waiting requests of a channel are issued in arrival order; but a BACKGROUND request, while another waits, only from
the streaming meter's credit: without that it is left behind the others, for `later`, where it costs nothing. -/
def issueWaiting (c : Nat) : List ChanReq → List ChanReq → State → State
  | [], later, s => later.foldl (fun s r => s.issueQueued c r) s
  | r :: t, later, s =>
    if s.isBackground r && t.any (fun q => !s.isBackground q) then
      let s := s.earnStream c
      if s.burstPs ≤ (s.chan c).streamCredit then
        issueWaiting c t later
          ((s.updChan c (fun v => { v with streamCredit := v.streamCredit - s.burstPs })).issueQueued c r)
      else issueWaiting c t (later ++ [r]) s
    else issueWaiting c t later (s.issueQueued c r)

/-- RETRAIN_END: the hold is recorded, and the queued requests are issued in arrival order (R256), BACKGROUND ones as R341
allows. -/
def State.doRetrainEnd (s : State) (c : Nat) : State :=
  let v := s.chan c
  if !v.retraining then s
  else
    let ns := s.time - v.retrainFrom
    let s := s.updChan c (fun v => { v with retraining := false, queued := [] })
    let s := { s with mem := { s.mem with
      holds := satAdd 32 s.mem.holds 1, worstHold := max s.mem.worstHold (min ns (2 ^ 32 - 1)) } }
    let s := s.event 0x33 (unitChan c) none ns
    issueWaiting c v.queued [] s

def execRetrainEnd (c : Fin 128) (s : State) : Host.Outcome State Fault Refusal := .next (s.doRetrainEnd c.val)

/-- HOLD_NOTICE: the HIGH notice goes out 1 µs before a hold of the schedule. -/
def State.doHoldNotice (s : State) (c : Nat) : State :=
  if s.mayRetrain c && retrainPoint c (s.time + 1000) then
    (s.updChan c (fun v => { v with notice := true })).signalUnits .holdNotice (unitChan c) (unitQueue false)
  else s

def execHoldNotice (c : Fin 128) (s : State) : Host.Outcome State Fault Refusal := .next (s.doHoldNotice c.val)

/-! ## Pin-kill (R248, R265) -/

def State.memDone (s : State) : State := { s with mem := { s.mem with ctlDone := true } }

def State.memRefused (s : State) : State := { s with mem := { s.mem with ctlRefused := true } }

/-- KILL_PIN through MC_MEM_CTL. -/
def State.doKillPin (s : State) (c pin : Nat) : State :=
  if !s.ready then s
  else if (s.chan c).killed.isSome then s.memRefused else (s.killPin c pin).memDone

def execKillPin (c : Fin 128) (pin : Fin 16) (s : State) : Host.Outcome State Fault Refusal :=
  .next (s.doKillPin c.val pin.val)

/-- Rows of a channel: data, course map and spares (R244). -/
def rowsOfChan (density : Nat) : Nat := ceilDiv (dataCourses density + mapCourses density + 64) 8

/-- The lines of one row number in the data region, one raw course after another. -/
def linesOfRow (density row : Nat) : List Nat :=
  ((List.range 240).map (240 * row + ·)).filter (fun q => decide (q < chanLines density))

/-- Reads the WRITTEN lines of a row under the old layout: each good line's data. -/
def repackReads (c : Nat) : List Nat → State → State × List (Nat × Bytes)
  | [], s => (s, [])
  | q :: t, s =>
    if s.lineState c q = .written then
      match s.decodeLine c q 128 1 with
      | (s, .data b) =>
        let (s, r) := repackReads c t s
        (s, (q, b) :: r)
      | (s, _) => repackReads c t s
    else repackReads c t s

/-- The map lines of one row number. -/
def mapLinesOfRow (density row : Nat) : List Nat :=
  ((List.range 240).filterMap (fun i =>
    let q := 240 * row + i
    let first := mapLine density 0
    if first ≤ q ∧ q < first + 30 * mapCourses density then some (q - first) else none))

/-- The entries of a row's map lines under the old layout. A map line of fresh shares alone holds nothing; one that cannot
be decoded is POISONED (R253). -/
def repackMaps (c : Nat) : List Nat → State → State × List (Nat × List W64)
  | [], s => (s, [])
  | l :: t, s =>
    if (List.range 16).all (fun i => s.courseFresh c (16 * l + i)) then repackMaps c t s
    else
      let s := (s.mapRead c l).1
      let (s, r) := repackMaps c t s
      (s, (l, s.mapEntries c l) :: r)

/-- REPACK_ROW (R248): the next row, of data or of the course map, is read under the normal layout and rewritten in the
pin-kill layout. -/
def State.doRepackRow (s : State) (c : Nat) (errs : List (Nat × Nat × Byte)) : State :=
  let v := s.chan c
  if !s.chanServes c || !v.repacking then s
  else
    let row := v.repackRow
    let s := errs.foldl (fun s e => if 240 * row + e.1 < chanLines s.density
      then s.addErrors c (240 * row + e.1) [(e.2.1, e.2.2)] else s) s
    let (s, good) := repackReads c (linesOfRow s.density row) s
    let (s, maps) := repackMaps c (mapLinesOfRow s.density row) s
    let last := decide (rowsOfChan s.density ≤ row + 1)
    let s := s.updChan c (fun v =>
      { v with repackRow := if last then v.repackRow else row + 1, repacking := !last })
    let s := good.foldl (fun s e => s.writeStored c e.1 e.2) s
    let s := maps.foldl (fun s e => s.writeMap c e.1 e.2) s
    s.updChan c (fun v => v.goOnScrub s.dev.ticks)

def execRepackRow (c : Fin 128) (errs : List (Nat × Nat × Byte)) (s : State) : Host.Outcome State Fault Refusal :=
  .next (s.doRepackRow c.val errs)

/-! ## Row repair (R254) -/

/-- APPLY_PPR arms the channel's next reset. -/
def execApplyPpr (c : Fin 128) (s : State) : Host.Outcome State Fault Refusal :=
  .next (if s.ready then (s.updChan c.val (fun v => { v with pprArmed := true })).memDone else s)

/-- The lowest remap spare of a channel that is not in use. -/
def Chan.freeSpare (v : Chan) : Option Nat :=
  (List.range 64).find? (fun i => !(v.remaps.any (fun e => e.2 == i)))

/-- The DRAM address of a row: its own place, or the spare it is mapped to. -/
def State.rowAddr (s : State) (c row : Nat) : Nat :=
  let bank := row / 2 ^ 20
  match Tbl.find? (s.chan c).remaps row with
  | some i => dramAddr c (spareCourse s.density i) (bank / 8) 0
  | none => dramAddr c (row % 2 ^ 20 * 8 + bank % 8) (bank / 8) 0

/-- A row stays mapped to a spare for good: its 2 KiB are copied there, and a DRAM_REMAP entry is written (R320). -/
def State.remapRow (s : State) (c row spare : Nat) : State :=
  let b := s.dramBytes (s.rowAddr c row) 2048
  let bank := row / 2 ^ 20
  let s := s.dramStore (dramAddr c (spareCourse s.density spare) (bank / 8) 0) b
  let s := s.updChan c (fun v => { v with remaps := Tbl.put v.remaps row spare })
  s.autoRepair (dieOfChan c)
    (5 + field 4 (c % 16) + field 10 spare + field 16 bank + field 20 (row % 2 ^ 20))

/-- One queued row is repaired: by hPPR, or for good on a spare; with every spare mapped it stays queued. -/
def State.repairRow (s : State) (c row : Nat) (byHppr : Bool) : State :=
  match (s.chan c).freeSpare with
  | none => s
  | some i =>
    let s := s.updChan c (fun v => { v with pprQueue := v.pprQueue.filter (· != row) })
    if byHppr then s else s.remapRow c row i

/-- HPPR_TIMEOUT: the hPPR of the row in hand is abandoned, and the row stays on its spare. -/
def State.doHpprTimeout (s : State) (c : Nat) : State :=
  let v := s.chan c
  match v.pprRun with
  | row :: rest =>
    if s.powered ∧ v.unit = .resetting then
      (s.updChan c (fun v => { v with pprRun := rest })).repairRow c row false
    else s
  | [] => s

def execHpprTimeout (c : Fin 128) (s : State) : Host.Outcome State Fault Refusal := .next (s.doHpprTimeout c.val)

/-- The rows that a reset still has to repair: whether a bank group has a repair resource left is open
(notes/assumptions/2.md). -/
def State.repairRest (s : State) (c : Nat) : State :=
  let rows := (s.chan c).pprRun
  let s := s.updChan c (fun v => { v with pprRun := [] })
  rows.foldl (fun s row =>
    let (k, s) := s.drawChoice 2
    s.repairRow c row (k == 1)) s

/-! ## The DRAM scrubber (R334, R336 to R338) -/

/-- What the scrub meter has earned by now: the budget's share of the time, at most four accesses. -/
def State.earnScrub (s : State) (c : Nat) : State :=
  let v := s.chan c
  let got := v.scrubCredit + (s.dev.ticks - v.meterTime) * s.whole.scrubDram
  s.updChan c (fun v => { v with scrubCredit := min 160000 got, meterTime := s.dev.ticks })

/-- Nanoseconds of SCRUB_PASS_H. -/
def State.passNs (s : State) : Nat := s.whole.scrubPassH * 3600000000000

/-- The pass's steady pace has reached the next position. -/
def State.scrubDue (s : State) (c : Nat) : Bool :=
  let v := s.chan c
  decide (0 < s.passNs) && decide (v.scrubPos * s.passNs ≤ (s.dev.ticks - v.scrubStart) * chanLines s.density)

/-- The scrubber moves to the next position; behind the last the pass ends and the next begins at 0. -/
def State.scrubMove (s : State) (c : Nat) : State :=
  let v := s.chan c
  let late := decide (s.passNs < s.dev.ticks - v.scrubStart)
  if v.scrubPos + 1 < chanLines s.density then
    s.updChan c (fun v => { v with scrubPos := v.scrubPos + 1, scrubLate := v.scrubLate || late })
  else s.updChan c (fun v => { v with
    scrubPos := 0, scrubLate := late, scrubPasses := satAdd 16 v.scrubPasses 1, scrubStart := s.dev.ticks })

/-- One scrub of a WRITTEN line, as one step (R337): corrected data is written back. -/
def State.scrubLine (s : State) (c q : Nat) (errs : List (Nat × Byte)) : State :=
  let s := s.addErrors c q errs
  let layout := s.layoutOf c q
  let clean := match decodeWord layout (s.storedWord layout c q) with
    | .clean _ => true
    | _ => false
  let s := s.event 0x32 (unitChan c) none 1
  match s.decodeLine c q with
  | (s, .data b) => if clean then s else s.writeStored c q b
  | (s, _) => s

/-- SCRUB_DRAM_LINE: the scrubber consults its next position (R336). -/
def State.doScrubDram (s : State) (c : Nat) (errs : List (Nat × Byte)) : State :=
  let v := s.chan c
  if !s.chanServes c || v.repacking || v.retraining || !s.scrubDue c then s
  else
    let q := v.scrubPos
    if s.fresh c (s.blockOfLine c q) then s.scrubMove c
    else
      let s := (s.mapCheck c (q / 32)).1
      if s.lineState c q = .written then
        let s := s.earnScrub c
        if (s.chan c).scrubCredit < 40000 then s
        else
          let s := s.updChan c (fun v => { v with scrubCredit := v.scrubCredit - 40000 })
          (s.scrubLine c q errs).scrubMove c
      else s.scrubMove c

def execScrubDramLine (c : Fin 128) (errs : List (Nat × Byte)) (s : State) : Host.Outcome State Fault Refusal :=
  .next (s.doScrubDram c.val errs)

end Sys2Proof.Machine
end

