-- ==== Sys2Proof/Machine/Arbiter.lean ====
section
/-! DEFINITION. The arbiter's edge (spec/04 R99 to R101): candidates and their rank, the choice of a class by share
credits, dispatch with the capture of epochs (R107, R108), expiry, NOFIT, and the resumption of preempted work (R103, R131,
R156, R182). -/

namespace Sys2Proof.Machine

/-! ## Rank (R99) -/

/-- Candidate a ranks before candidate b. -/
def ranksBefore (a b : Cmd) : Bool :=
  let key := fun c : Cmd => [dDeadline c.desc, c.fetchTime, c.slice, c.sq, c.ring]
  List.lex (key a) (key b)

/-- Inserts a command by rank; equal ranks stay in command order. -/
def insertRank (x : Nat × Cmd) : List (Nat × Cmd) → List (Nat × Cmd)
  | [] => [x]
  | y :: t => if ranksBefore x.2 y.2 then x :: y :: t else y :: insertRank x t

/-- The candidates of a class in rank order. -/
def State.ranked (s : State) (cls : Nat) : List (Nat × Cmd) :=
  (s.cmds.filter (fun e => decide (dClass e.2.desc = cls) && s.isCandidate e.2)).foldl (fun l e => insertRank e l) []

/-! ## Epochs at dispatch (R107) -/

/-- HANDLE_SET and EPOCH_FLIP. -/
def isHandleOp (op : Nat) : Bool := decide (op = opHandleSet) || decide (op = opEpochFlip)

/-- The handles whose epochs a command captures, once each. -/
def Cmd.captureList (c : Cmd) : List Nat := if isHandleOp (dOpcode c.desc) then [] else c.handleList.eraseDups

/-- The base that a command's handle selects: captured, or as it would be captured now. -/
def State.baseOf (s : State) (c : Cmd) (h : Nat) : Nat :=
  let x := (s.slice c.slice).handle h
  match c.captures.find? (fun e => e.1 == h) with
  | some e => x.base e.2
  | none => x.base x.current

/-- The weight base of a slab run (R147), the table base of a gather (R165), the payload base of a selection (R176). -/
def State.wBase (s : State) (c : Cmd) : Nat :=
  if slViaHandle c.block then s.baseOf c (slHandle c.block) + slW c.block else slW c.block
def State.tableBase (s : State) (c : Cmd) : Nat :=
  if gaViaHandle c.block then s.baseOf c (gaHandle c.block) + gaTable c.block else gaTable c.block
def State.payBase (s : State) (c : Cmd) : Nat :=
  if sePViaHandle c.block then s.baseOf c (sePHandle c.block) + sePBase c.block else sePBase c.block

/-- The checks made at dispatch against captured bases (R146, R163, R170). -/
def State.dispatchChecks (s : State) (c : Cmd) : Option Fail :=
  let d := c.desc
  let b := c.block
  let op := dOpcode d
  if op = opSlab ∧ slViaHandle b then firstFail (overlapChecks d [(s.wBase c, slWLen b)])
  else if op = opGather ∧ gaViaHandle b then
    firstFail ((decide (s.tableBase c % 32 ≠ 0), atBlock 0x18) :: overlapChecks d [(s.tableBase c, gaTableLen b)])
  else if op = opSelect ∧ sePayload b ∧ sePViaHandle b then
    firstFail ((decide (s.payBase c % 32 ≠ 0), atBlock 0x28) :: overlapChecks d [(s.payBase c, sePTableLen b)])
  else none

/-- A flip of this handle has been dispatched and has not taken effect. -/
def State.flipOnItsWay (s : State) (slice n : Nat) : Bool :=
  s.cmds.any (fun e => decide (e.2.slice = slice) && e.2.handleOpPending opEpochFlip && decide (haHandle e.2.desc = n))

/-- The busy rules of R108. -/
def State.handleBusy (s : State) (c : Cmd) : Option Fail :=
  let n := haHandle c.desc
  let h := (s.slice c.slice).handle n
  let way := s.flipOnItsWay c.slice n
  if dOpcode c.desc = opHandleSet then
    if h.setBusy || way then some { detail := rjHandleBusy, arg := 0x28 } else none
  else if dOpcode c.desc = opEpochFlip then
    if h.flipPending || way then some { detail := rjEpochBusy, arg := 0x28 } else none
  else none

/-! ## Expect places (R283) -/

/-- A SWELD_STREAM EXPECT. -/
def Cmd.isExpect (c : Cmd) : Bool := decide (dOpcode c.desc = opSweld) && swExpect c.block

/-- An expect place is free in the slice and in the package. -/
def State.expectPlace (s : State) (slice : Nat) : Bool :=
  decide ((s.sweld.expects.filter (fun e => decide (e.2.slice = slice))).length < 16)
    && decide (s.sweld.expects.length < 256)

/-- FENCE_END. -/
def fenceEnd (c : Cmd) (time : Nat) : Nat :=
  let f := time + 1000 * swFenceUs c.block
  if dExpire c.desc ∧ dDeadline c.desc < f then dDeadline c.desc else f

/-! ## What an edge would do with a candidate -/

/-- A saved bay image of a launch placed on a bay: its number, the bay, and its cores with their new places. -/
structure ImagePlace where
  image : Nat
  bay : Nat
  cores : List (Nat × Nat)
deriving DecidableEq, Repr

/-- The first bay of the visiting order that can take an image whole (R131). -/
def State.imageBay (s : State) (c : Cmd) (image : Nat) : Option ImagePlace :=
  let held := s.poolHeld c.slice
  let bay := (s.visitOrder c.slice c.home).find? (fun k =>
    (s.ownsBay c.slice k || ((s.bay k).holder.isNone && s.mayTake c.slice held)) && s.takesImage c image k)
  match bay with
  | none => none
  | some k => some { image := image, bay := k, cores := (s.imageCores c image).zip ((s.bay k).idleCores) }

/-- What the arbiter would do with a candidate. -/
inductive Act where
  | expired
  | nofit
  | reject (f : Fail)
  | go (grant : List (Nat × Nat))
  /-- Saved images of a run resume on these units. -/
  | resume (units : List (Nat × Nat))
  /-- A saved bay image resumes (R131). -/
  | resumeBay (p : ImagePlace)
deriving DecidableEq, Repr

/-- The units on which saved images of a run could resume. -/
def State.resumeUnits (s : State) (c : Cmd) : List (Nat × Nat) :=
  placeWalk s c.slice (s.slotsFor c) (s.visitOrder c.slice c.home) (s.poolHeld c.slice) c.images.length

/-- The action that R99 would take on a candidate; none where it cannot go. -/
def State.actOn (s : State) (c : Cmd) : Option Act :=
  if c.hasSaved then
    if dOpcode c.desc = opLaunch then
      (sortBy id ((c.savedGangs.map (·.1)).eraseDups)).findSome? (fun i => (s.imageBay c i).map Act.resumeBay)
    else match s.resumeUnits c with
      | [] => none
      | g => some (.resume g)
  else if dExpire c.desc && decide (dDeadline c.desc < s.time) then some .expired
  else if usesBays (dOpcode c.desc) then
    if s.fitOf c < c.minUnits then some .nofit
    else
      let g := s.grantFor c
      if grantSize g < c.minUnits then none
      else match s.dispatchChecks c with
        | some f => some (.reject f)
        | none => some (.go g)
  else if isHandleOp (dOpcode c.desc) then
    match s.handleBusy c with
    | some f => some (.reject f)
    | none => some (.go [])
  else if c.isExpect && !s.expectPlace c.slice then none
  else some (.go [])

/-- The first candidate of a class that the arbiter can act on; a candidate that cannot go holds back its slice (R99). -/
def scanClass (s : State) : List (Nat × Cmd) → List Nat → Option (Nat × Act)
  | [], _ => none
  | e :: t, held =>
    if held.contains e.2.slice then scanClass s t held
    else match s.actOn e.2 with
      | some a => some (e.1, a)
      | none => scanClass s t (e.2.slice :: held)

def State.classAct (s : State) (cls : Nat) : Option (Nat × Act) := scanClass s (s.ranked cls) []

/-! ## The class of an edge (R100) -/

def State.prio (s : State) (cls : Nat) : PrioClass := s.whole.classes.getD cls {}

/-- Step 1: the credits of ready classes grow, and the others become 0. -/
def State.addCredits (s : State) (ready : List Nat) : List Nat :=
  (List.range 8).map (fun c =>
    if ready.contains c then min 4000 (s.arb.credits.getD c 0 + (s.prio c).share) else 0)

/-- Steps 2 to 4: the class chosen, and the credits after the choice. -/
def State.chooseClass (s : State) (ready : List Nat) : Option Nat × List Nat :=
  let credits := s.addCredits ready
  let front := ready.filter (fun c => !(s.prio c).background)
  let considered := if front = [] then ready else front
  match considered.find? (fun c => decide (1000 ≤ credits.getD c 0)) with
  | some c => (some c, credits.set c (credits.getD c 0 - 1000))
  | none => (considered.head?, credits)

/-! ## Acting -/

/-- A command leaves its fetch window and reserves a slot of its CQ (R92). -/
def State.leaveWindow (s : State) (id : Nat) : State :=
  let c := s.cmd id
  let s := s.updSq c.slice c.sq (fun q => { q with window := q.window.filter (· != id) })
  s.updCq c.slice (dCq c.desc) (fun q => { q with reserved := q.reserved + 1 })

/-- A candidate completes on this edge without dispatch (R101, R125). -/
def State.endAtArbiter (s : State) (id outcome detail arg : Nat) (result : Option Nat) : State :=
  (s.leaveWindow id).completeWith id { outcome := outcome, detail := detail, arg := arg } s.time result

/-- A command captures its epochs (R107, R258). -/
def State.capture (s : State) (id : Nat) : State :=
  let c := s.cmd id
  c.captureList.foldl (fun s h =>
    let b := ((s.slice c.slice).handle h).current
    (s.updHandle c.slice h (fun x => x.addRef b)).updCmd id (fun c => { c with captures := c.captures ++ [(h, b)] })) s

/-- The grants of a dispatch go from its queue engine to its bays (R234). -/
def State.sendGrants (s : State) (id : Nat) : State :=
  let c := s.cmd id
  c.bays.foldl (fun s b => s.signalUnits .grant (unitQueue ((s.slice c.slice).sq c.sq).port) (unitBay b)) s

/-- A command is dispatched. -/
def State.begin (s : State) (id : Nat) (grant : List (Nat × Nat)) : State :=
  let s := s.leaveWindow id
  let c := s.cmd id
  let s := s.setCmd id { c with
    phase := .running, dispatched := true, timeDispatch := s.time, tenantEpoch := (s.slice c.slice).tenantEpoch }
  let s := s.count c.slice 3 (s.time - c.fetchTime)
  let s := s.event 0x02 0 (some c.slice) 1
  let s := s.capture id
  let s := if grant = [] then s else (s.takeGrant id grant).sendGrants id
  if c.isExpect then
    { s with sweld := { s.sweld with
        expects := Tbl.put s.sweld.expects id { slice := c.slice, fenceEnd := fenceEnd c s.time } } }
  else s

/-- The saved images of a run resume on units, oldest first, and their accumulators are read back from CTX_SAVE (R156,
R182). -/
def State.resumeImages (s : State) (id : Nat) (units : List (Nat × Nat)) : State :=
  let c := s.cmd id
  let pairs := (units.map (·.1)).zip c.images
  let s := pairs.foldl (fun s p => (s.takeUnit id p.1).cacheBlock id (c.bayOf p.1)) s
  let s := s.updCmd id (fun c => { c with
    images := c.images.drop pairs.length
    phase := .running
    grant := c.grant ++ pairs.map (fun p => (p.1, 1))
    busy := pairs.foldl (fun t p =>
      if p.2.phase = 0 then t else Tbl.put t p.1 { p.2 with engine := p.1 }) c.busy })
  readImages id ((pairs.filter (fun p => decide (p.2.phase ≠ 0))).map (fun p => (c.bayOf p.1, p.2.slot))) s

/-- The parked loads of a gang are issued again from its new bay (R130). -/
def State.reissue (s : State) (g : Nat) : State :=
  let v := s.gang g
  { s with reqs := Tbl.mapVals s.reqs (fun _ r =>
      if r.gang = g ∧ r.parked then
        { r with parked := false, answer := none, missed := false, unit := unitBay v.bay
                 unitEpoch := s.unitEpoch (unitBay v.bay), issued := s.time }
      else r) }

/-- One saved gang becomes resident again with exactly its saved state (R131). -/
def State.resumeGang (s : State) (id g bay core : Nat) : State :=
  let v := s.gang g
  let feet := s.nextFeet bay id
  let s := s.setGang g { v with bay := bay, core := core, feet := feet, saved := false, active := false, image := [] }
  (s.footWrite bay feet 0 v.image).reissue g

/-- A saved bay image resumes as one unit (R131), read back from CTX_SAVE. -/
def State.resumeBay (s : State) (id : Nat) (p : ImagePlace) : State :=
  let c := s.cmd id
  let gs := s.imageGangs c p.image
  let s := p.cores.foldl (fun s e => s.takeUnit id (8 * p.bay + e.2)) s
  let s := (s.l1DropClean p.bay).cacheBlock id p.bay
  let s := p.cores.foldl (fun s e =>
    (gs.filter (fun g => decide (g.2.core = e.1))).foldl (fun s g => s.resumeGang id g.1 p.bay e.2) s) s
  let s := s.updCmd id (fun c => { c with
    savedGangs := c.savedGangs.filter (fun e => e.1 != p.image)
    phase := .running
    grant := c.grant ++ p.cores.map (fun e =>
      (8 * p.bay + e.2, (gs.filter (fun g => decide (g.2.core = e.1))).length)) })
  let s := p.cores.foldl (fun s e => s.fillActive p.bay e.2) s
  readImages id (gs.map (fun g => (p.bay, g.2.slot))) s

/-- The arbiter acts on a candidate; the answer is the command it dispatched, if it did. -/
def State.perform (s : State) (id : Nat) (a : Act) : State × Option Nat :=
  let c := s.cmd id
  match a with
  | .expired => (s.endAtArbiter id ocExpired 0 0 none, none)
  | .nofit => (s.endAtArbiter id ocNofit (s.nofitDetail c) (c.minUnits - s.fitOf c) (some (s.nofitResult c)), none)
  | .reject f =>
    ((s.begin id []).completeWith id { outcome := ocRejected, detail := f.detail, arg := f.arg } s.time
      (if f.arg = 0x28 ∧ f.detail = rjArgs then some f.result else none), some id)
  | .go g => (s.begin id g, some id)
  | .resume g => (s.settled (fun s => s.resumeImages id g), none)
  | .resumeBay p => (s.settled (fun s => s.resumeBay id p), none)

/-- The held manager operation takes effect on an edge with no dispatch for its slice (R260). -/
def State.managerOnEdge (s : State) (dispatched : Option Nat) : State :=
  match s.dev.handleOp with
  | none => s
  | some (slice, _) => if dispatched = some slice then s else s.managerEffect

/-- One NCLK edge (R99, R100, R108). -/
def State.arbEdge (s : State) : State :=
  let acts := (List.range 8).filterMap (fun c => (s.classAct c).map (fun a => (c, a)))
  let (choice, credits) := s.chooseClass (acts.map (·.1))
  let s := { s with arb := { s.arb with credits := credits, edge := s.arb.edge + 1 } }
  let picked := choice.bind (fun c => (acts.find? (fun e => e.1 == c)).map (·.2))
  let slice := picked.map (fun p => (s.cmd p.1).slice)
  let (s, did) := match picked with
    | some (id, a) => s.perform id a
    | none => (s, none)
  let s := s.handleEffects did
  s.managerOnEdge (if did.isSome then slice else none)

def execDispatch (s : State) : Host.Outcome State Fault Refusal := .next (if s.ready then s.arbEdge else s)

end Sys2Proof.Machine
end

