-- ==== Sys2Proof/Machine/Preempt.lean ====
section
/-! DEFINITION. Preemption (spec/04 R103): which work stops, and how launches (spec/05 R130), slab runs (spec/06 R155) and
gathers and selections (spec/07 R181) are saved. -/

namespace Sys2Proof.Machine

/-! ## Saving -/

/-- One saved image more for a slice's work, with the time its stop took (Table 14.7). -/
def State.noteImage (s : State) (op slice ns : Nat) : State :=
  let s := s.event 0x03 0 (some slice) 1
  let d := s.dev
  if op = opLaunch then
    { s with dev := { d with preempts := satAdd 32 d.preempts 1, preemptWorst := max d.preemptWorst (min ns (2 ^ 32 - 1)) } }
  else if op = opSlab then
    { s with dev := { d with slabPreempts := satAdd 32 d.slabPreempts 1, slabWorst := max d.slabWorst (min ns (2 ^ 32 - 1)) } }
  else
    { s with dev := { d with hodImages := satAdd 32 d.hodImages 1, hodWorst := max d.hodWorst (min ns (2 ^ 32 - 1)) } }

/-- A command's phase when nothing of it is left on an engine. -/
def State.settlePhase (s : State) (id : Nat) : State :=
  s.updCmd id (fun c => if c.grant.isEmpty ∧ c.phase = .running then { c with phase := .preempted } else c)

/-- The next number for a saved bay image of a launch. -/
def Cmd.nextImage (c : Cmd) : Nat := (c.savedGangs.map (·.1)).foldl max 0 + 1

/-- A launch's bay image is saved (R130): stores and atomics are completed, loads discarded to be issued again, dirty L1
lines written back, and the gangs' state kept. Gangs of a grant that are not resident yet become so first (R128). -/
def State.saveBay (s : State) (id b ns : Nat) : State :=
  let s := if (s.cmd id).next = 0 then s.doLaunch id else s
  let mine := fun g : Nat × Gang => decide (g.2.cmd = id) && decide (g.2.bay = b) && !g.2.saved
  let gs := (s.gangs.filter mine).map (·.1)
  let s := s.landReqs (fun r => gs.contains r.gang)
  let s := { s with reqs := Tbl.mapVals s.reqs (fun _ r =>
      if gs.contains r.gang ∧ r.kind = ReqKind.read then { r with parked := true, answer := none, missed := false } else r) }
  let s := s.l1FlushCmd b id
  let image := (s.cmd id).nextImage
  let foot := laFoot (s.cmd id).block
  let s := gs.foldl (fun s g =>
    let bytes := s.footRead b (s.gang g).feet 0 foot
    let k := freeSlot ((s.cmd id).savedGangs.map (fun e => (s.gang e.2).slot))
    let s := s.updGang g (fun v => { v with saved := true, active := false, image := bytes, slot := k })
    let s := s.writeImage id b k
    s.updCmd id (fun c => { c with savedGangs := c.savedGangs ++ [(image, g)] })) s
  let s := s.updCmd id (fun c => { c with grant := c.grant.filter (fun e => decide (e.1 / 8 ≠ b)) })
  let s := s.leaveBay id b
  (s.noteImage opLaunch (s.cmd id).slice ns).settlePhase id

/-- Work items that no engine has taken, or later phases of rows, are left. -/
def Cmd.workLeft (c : Cmd) : Bool :=
  decide (c.next < c.items) || !c.rows.isEmpty

/-- An array, engine or unit is stopped and its image saved (R155, R181); an idle one only leaves, with a mark that work is
left for it. -/
def State.saveUnit (s : State) (id u ns : Nat) : State :=
  let c := s.cmd id
  let b := c.bayOf u
  let s := match Tbl.find? c.busy u with
    | some it =>
      let k := freeSlot ((c.images.filter (fun i : Item => decide (i.phase ≠ 0))).map (fun i : Item => i.slot))
      let s := s.writeImage id b k
      let s := s.updCmd id (fun c => { c with images := c.images ++ [{ it with slot := k }], saves := c.saves + 1 })
      s.noteImage (dOpcode c.desc) c.slice ns
    | none => if c.workLeft
      then s.updCmd id (fun c => { c with images := c.images ++ [({ phase := 0, engine := u } : Item)] }) else s
  let s := s.updCmd id (fun c => { c with
    busy := Tbl.del c.busy u, grant := c.grant.filter (fun e => decide (e.1 ≠ u)) })
  let s := if dOpcode c.desc = opSlab then
      s.updBay b (fun v => { v with arrays := Tbl.del v.arrays (u % 4) })
    else if dOpcode c.desc = opGather then s.updBay b (fun v => { v with hod := none })
    else s.updBay b (fun v => { v with
      riddle := none, hod := if v.hod = some id then none else v.hod, hodPayload := false })
  (s.unholdBay b).settlePhase id

/-- A place where work of a command may be stopped: for a launch a bay, otherwise a unit. -/
structure StopAt where
  cmd : Nat
  unit : Nat
deriving DecidableEq, Repr

/-- A stop is carried out: its signal goes from the queue engine of quoin 0 to the bay on HIGH (R234). -/
def State.carryStop (s : State) (ns : Nat) (x : StopAt) : State :=
  let s := s.signalUnits .stop (unitQueue false)
    (unitBay (if dOpcode (s.cmd x.cmd).desc = opLaunch then x.unit else (s.cmd x.cmd).bayOf x.unit))
  if dOpcode (s.cmd x.cmd).desc = opLaunch then s.saveBay x.cmd x.unit ns else s.saveUnit x.cmd x.unit ns

/-! ## Which work stops (R103) -/

/-- The bay of a stop. -/
def State.stopBay (s : State) (x : StopAt) : Nat :=
  let c := s.cmd x.cmd
  if dOpcode c.desc = opLaunch then x.unit else c.bayOf x.unit

/-- A command's stops in reverse order of placement. -/
def Cmd.stops (c : Cmd) (id : Nat) : List StopAt :=
  let units := if dOpcode c.desc = opLaunch then (c.grant.map (fun e => e.1 / 8)).eraseDups else c.grant.map (·.1)
  units.reverse.map (fun u => { cmd := id, unit := u })

/-- A victim's work stands on what the candidate needs. -/
def sameEngines (c v : Cmd) : Bool :=
  let a := dOpcode c.desc
  let b := dOpcode v.desc
  decide (a = b) || (decide (a = opGather) && decide (b = opSelect) && sePayload v.block)
    || (decide (a = opSelect) && sePayload c.block && decide (b = opGather))

/-- A stop could help the candidate: the bay is one it may use, and the stop frees an engine of its kind or helps to empty
a pool bay of another slice. -/
def State.helps (s : State) (c : Cmd) (x : StopAt) : Bool :=
  let b := s.stopBay x
  let v := s.cmd x.cmd
  s.bayUsable b && (s.isPool b || decide (s.dedicatedTo b = some c.slice))
    && (decide (dOpcode c.desc ≠ opSlab) || decide ((s.bay b).quartered = slQuartered c.block))
    && (sameEngines c v || (s.isPool b && decide (v.slice ≠ c.slice)))

/-- Victim a is taken before victim b: the greater class, then the later deadline, then the later command. -/
def victimFirst (a b : Nat × Cmd) : Bool :=
  List.lex [dClass b.2.desc, dDeadline b.2.desc, b.1] [dClass a.2.desc, dDeadline a.2.desc, a.1]

def insertVictim (x : Nat × Cmd) : List (Nat × Cmd) → List (Nat × Cmd)
  | [] => [x]
  | y :: t => if victimFirst x y then x :: y :: t else y :: insertVictim x t

/-- The victims of a candidate in the order in which they are chosen. -/
def State.victims (s : State) (cls : Nat) : List (Nat × Cmd) :=
  (s.cmds.filter (fun e => e.2.runs && usesBays (dOpcode e.2.desc) && decide (cls < dClass e.2.desc))).foldl
    (fun l e => insertVictim e l) []

/-- A trial stop: the work leaves its engines and nothing is saved. -/
def State.tryStop (s : State) (x : StopAt) : State :=
  let c := s.cmd x.cmd
  if dOpcode c.desc = opLaunch then
    (s.updCmd x.cmd (fun c => { c with grant := c.grant.filter (fun e => decide (e.1 / 8 ≠ x.unit)) })).leaveBay x.cmd x.unit
  else
    let b := c.bayOf x.unit
    let s := s.updCmd x.cmd (fun c => { c with grant := c.grant.filter (fun e => decide (e.1 ≠ x.unit)) })
    let s := if dOpcode c.desc = opSlab then
        s.updBay b (fun v => { v with arrays := Tbl.del v.arrays (x.unit % 4) })
      else s.updBay b (fun v => { v with
        hod := if v.hod = some x.cmd then none else v.hod
        riddle := if v.riddle = some x.cmd then none else v.riddle })
    s.unholdBay b

/-- With these stops the candidate can go. -/
def State.wouldGo (s : State) (c : Cmd) (xs : List StopAt) : Bool := ((xs.foldl State.tryStop s).actOn c).isSome

/-- Stops taken in order until the candidate can go. -/
def gatherStops (s : State) (c : Cmd) : List StopAt → List StopAt → Option (List StopAt)
  | [], _ => none
  | x :: t, acc =>
    let acc := acc ++ [x]
    if s.wouldGo c acc then some acc else gatherStops s c t acc

/-- Of each victim only the first of its stops that the candidate's minimum needs, in reverse order of placement (R130, R155,
R181). -/
def pruneStops (s : State) (c : Cmd) : List (List StopAt) → List StopAt → List StopAt
  | [], kept => kept
  | g :: t, kept =>
    let n := ((List.range g.length).find? (fun k => s.wouldGo c (kept ++ g.take k ++ t.flatten))).getD g.length
    pruneStops s c t (kept ++ g.take n)

/-- The stops that R103 makes for a blocked candidate. -/
def State.preemptPlan (s : State) (c : Cmd) : List StopAt :=
  let all := (s.victims (dClass c.desc)).flatMap (fun v => (v.2.stops v.1).filter (s.helps c))
  match gatherStops s c all [] with
  | some xs => pruneStops s c (((xs.map (·.cmd)).eraseDups).map (fun v => xs.filter (fun x => decide (x.cmd = v)))) []
  | none => []

/-- The first candidate of each slice in a class. -/
def firstOfSlices : List (Nat × Cmd) → List Nat → List (Nat × Cmd)
  | [], _ => []
  | e :: t, seen => if seen.contains e.2.slice then firstOfSlices t seen else e :: firstOfSlices t (e.2.slice :: seen)

/-- The stops of one candidate, if it is blocked. Each launch stopped counts one preemption (R128). -/
def State.preemptFor (s : State) (ns id : Nat) : State :=
  let c := s.cmd id
  if !usesBays (dOpcode c.desc) || (s.actOn c).isSome then s
  else
    let plan := s.preemptPlan c
    let s := plan.foldl (fun s x => s.carryStop ns x) s
    ((plan.map (·.cmd)).eraseDups).foldl (fun s v =>
      if dOpcode (s.cmd v).desc = opLaunch then s.updCmd v (fun c => { c with saves := c.saves + 1 }) else s) s

/-- PREEMPTION (R103): every blocked first candidate of a class with PREEMPTS, lower classes and slices first. -/
def State.doPreemption (s : State) (ns : Nat) : State :=
  (List.range 8).foldl (fun s cls =>
    if (s.prio cls).preempts then
      let firsts := firstOfSlices (s.ranked cls) []
      (sortBy (fun id => (s.cmd id).slice) (firsts.map (·.1))).foldl (fun s id => s.preemptFor ns id) s
    else s) s

def execPreemption (ns : Nat) (s : State) : Host.Outcome State Fault Refusal :=
  .next (if s.ready then s.settled (fun s => s.doPreemption ns) else s)

end Sys2Proof.Machine
end

