-- ==== Sys2Proof/Machine/Tenant.lean ====
section
/-! DEFINITION. The commands that the queue engines run themselves: NOP and COPY (spec/04 R96), RELEASE (spec/08 R199, R200)
and FLUSH (spec/09 R224). -/

namespace Sys2Proof.Machine

/-- A dispatched command of an opcode whose work is still to be done. -/
def State.doing (s : State) (id op : Nat) : Bool :=
  let c := s.cmd id
  s.ready && decide (dOpcode c.desc = op) && decide (c.phase = .running) && c.stop.isNone

/-- The agent of a command's queue or DMA engine: the quoin of its SQ's port (R305). -/
def State.quoinOf (s : State) (id : Nat) : Agent :=
  let c := s.cmd id
  quoinAgent id c.slice ((s.slice c.slice).sq c.sq).port

/-- The command's own work is done: it completes once its writes have landed. -/
def State.workDone (s : State) (id : Nat) : State :=
  s.updCmd id (fun c => if c.stop.isNone then { c with phase := .finishing } else c)

def doneStop : Stop := { outcome := ocDone, detail := 0, arg := 0 }

/-! ## NOP -/

/-- NOP completes DONE at dispatch. -/
def State.doNop (s : State) (id : Nat) : State :=
  if s.doing id opNop then s.completeCmd id doneStop (s.cmd id).timeDispatch else s

def execNop (c : Nat) (s : State) : Host.Outcome State Fault Refusal := .next (s.doNop c)

/-! ## COPY -/

/-- The host's answer to the read of a copy's source: its bytes, or the completion status. -/
def State.hostSource (s : State) (id : Nat) (src : Target) (reply : HostReply) : Bytes ⊕ Nat :=
  if !s.linkUp (s.hostPort id src.pasid) then .inr 0xFF
  else match reply with
    | .ok d => .inl (bytesAt d 0 src.len)
    | .error st => .inr st
    | .linkDown => .inr 0xFF

/-- Copies lines from `i` on until the command stops; a copied line counts (R212). Lines go in ascending order, so that where
source and destination overlap a later source line may hold copied bytes; the spec gives no order (DESIGN CHOICE,
notes/assumptions/67.md). -/
def copyLines (g : Agent) (dst : Target) (read : State → Nat → Nat → State × Option Bytes) :
    List Nat → State → State
  | [], s => s
  | i :: t, s =>
    let n := min 128 (dst.len - 128 * i)
    match read s (128 * i) n with
    | (s, none) => s
    | (s, some b) =>
      match s.agStore g dst (128 * i) b with
      | (s, true) => copyLines g dst read t (s.updCmd g.cmd (fun c => { c with done := Tbl.set 0 c.done 0 (i + 1) }))
      | (s, false) => s

def State.doCopy (s : State) (id : Nat) (reply : HostReply) : State :=
  if !s.doing id opCopy then s
  else
    let d := (s.cmd id).desc
    let g := s.quoinOf id
    let src := copySource d
    let dst := dOut d 0
    let lines := List.range (ceilDiv dst.len 128)
    if src.host then
      match s.hostSource id src reply with
      | .inr st => s.agFault g fcHostAccess { unit := g.unit, info0 := st, info1 := src.addr }
      | .inl b =>
        let s := ((s.count g.slice 12 src.len).onBehalf id).bulk (8 + portBit (s.hostPort id src.pasid)) (placeOf g.unit) src.len
          true
        (copyLines g dst (fun s off n => (s, some (bytesAt b off n))) lines s).workDone id
    else
      (copyLines g dst (fun s off n => s.agRead g (src.addr + off) n) lines s).workDone id

def execCopy (c : Nat) (reply : HostReply) (s : State) : Host.Outcome State Fault Refusal := .next (s.settled (fun s => s.doCopy c reply))

/-! ## RELEASE -/

/-- The requests that wait on a line proceed, unless its directory is in a transition. -/
def State.serveSettled (s : State) (line : Nat) : State :=
  let h := homeOf s.density line
  if s.dirOf h.1 h.2 = .none ∨ s.dirOf h.1 h.2 = .replica then s.serveWaiting line else s

/-- Requests that waited behind a directory transition that has ended proceed. -/
def State.serveAllWaiting (s : State) : State :=
  ((s.uc.waiting.filterMap (fun rid => (Tbl.find? s.reqs rid).map (·.dpa))).eraseDups).foldl
    (fun s line =>
      s.serveSettled line) s

/-- Drops the cache lines of a block and makes it fresh (R199, R251). -/
def State.freshenBlock (s : State) (β : Nat) : State := s.freshenWhere (· == β)

/-- The first closed shield in front of the channels of a block. -/
def State.blockShield (s : State) (β : Nat) : Option (Nat × Nat) :=
  (hostsOf s.density β).findSome? (fun c => s.homeShield (4 * c))

/-- The lines of a released block are logged at their home slices (R362). -/
def State.logBlock (s : State) (slice β : Nat) : State :=
  if (s.slice slice).logging then
    (List.range 16384).foldl (fun s i =>
      let dpa := 0x200000 * β + 128 * i
      s.logDevice slice (homeOf s.density dpa).1 dpa) s
  else s

/-- What a range of lines is cut into: whole fresh blocks where BLOCKS is set, and single lines. -/
inductive RelPart where
  | block (β : Nat)
  | line (dpa : Nat)
deriving DecidableEq, Repr

/-- The parts of the DPA range [lo, hi). -/
def relParts (blocks : Bool) (lo hi : Nat) : List RelPart :=
  let lines := fun a b : Nat => (List.range ((b - a) / 128)).map (fun i => RelPart.line (a + 128 * i))
  let b0 := ceilDiv lo 0x200000
  let b1 := hi / 0x200000
  if blocks ∧ b0 < b1 then
    lines lo (b0 * 0x200000) ++ (List.range (b1 - b0)).map (fun i => RelPart.block (b0 + i)) ++ lines (b1 * 0x200000) hi
  else lines lo hi

/-- One line of a RELEASE: its course-map line checked, the line dropped, and counted if it held data. -/
def State.releasePart (s : State) (g : Agent) (dpa : Nat) : State :=
  let h := homeOf s.density dpa
  let c := chanOfUcSlice h.1
  let q := chanLine h.1 h.2
  let s := if s.fresh c (s.blockOfLine c q) then s else (s.mapCheck c (q / 32)).1
  let (s, held) := s.releaseLine dpa
  let s := s.logDevice g.slice h.1 dpa
  if held then s.updCmd g.cmd (fun c => { c with resA := c.resA + 1 }) else s

/-- Releases parts in order until a shield stops the command. -/
def releaseParts (g : Agent) : List RelPart → State → State
  | [], s => s
  | .block β :: t, s =>
    match s.blockShield β with
    | some (d, a) => s.agAbort g d a
    | none =>
      releaseParts g t (((s.freshenBlock β).logBlock g.slice β).updCmd g.cmd (fun c => { c with resA := c.resA + 16384, resB := c.resB + 1 }))
  | .line dpa :: t, s =>
    match s.homeShield (homeOf s.density dpa).1 with
    | some (d, a) => s.agAbort g d a
    | none => releaseParts g t (s.releasePart g dpa)

/-- The outputs of a RELEASE in order. -/
def releaseOuts (g : Agent) (blocks : Bool) : List Target → State → State
  | [], s => s
  | o :: t, s =>
    match s.agDpa g o.addr 1 with
    | (s, none) => s
    | (s, some dpa) =>
      let s := releaseParts g (relParts blocks dpa (dpa + o.len)) s
      if (s.cmd g.cmd).stop.isSome then s else releaseOuts g blocks t s

def State.doReleaseCmd (s : State) (id : Nat) : State :=
  if !s.doing id opRelease then s
  else
    let d := (s.cmd id).desc
    ((releaseOuts (s.quoinOf id) (bitAt (byteAt d 0x28) 0) (dOuts d) s).serveAllWaiting).workDone id

def execRelease (c : Nat) (s : State) : Host.Outcome State Fault Refusal := .next (s.settled (fun s => s.doReleaseCmd c))

/-! ## FLUSH -/

/-- The bays a slice holds. -/
def State.baysHeld (s : State) (slice : Nat) : List Nat :=
  (List.range 48).filter (fun b => decide (s.bayHolder b = some slice))

/-- The dirty home lines of the cache whose DPA lies in a range. -/
def State.dirtyIn (s : State) (lo hi : Nat) : List Nat :=
  s.uc.ways.filterMap (fun e =>
    if e.2.dirty = 0 ∨ e.2.replica then none
    else
      let dpa := dpaOf s.density (e.1 / 24576) (e.2.line (e.1 % 24576 / 16))
      if lo ≤ dpa ∧ dpa < hi then some dpa else none)

/-- The dirty lines of the ranges of a FLUSH with DRAM set. -/
def State.flushLines (s : State) (slice : Nat) (outs : List Target) : List Nat :=
  outs.flatMap (fun o => match coverRange (s.slice slice).defn.ranges o.addr o.len with
    | some r => s.dirtyIn (r.toDpa o.addr) (r.toDpa o.addr + o.len)
    | none => [])

def State.chanOfDpa (s : State) (dpa : Nat) : Nat := chanOfUcSlice (homeOf s.density dpa).1

/-- Writes dirty lines to LPDDR5X in turn; a channel that is DOWN answers with its shield. -/
def flushDram (g : Agent) : List Nat → State → State
  | [], s => s
  | dpa :: t, s =>
    match s.homeShield (homeOf s.density dpa).1 with
    | some (d, a) => s.agAbort g d a
    | none =>
      let (s, did) := s.flushLine dpa
      flushDram g t (if did then s.updCmd g.cmd (fun c => { c with resB := c.resB + 1 }) else s)

/-- Writes back the dirty lines among `lines` of a bay for a FLUSH, which counts them; a shield's answer aborts it. -/
def flushL1 (g : Agent) (b : Nat) : List Nat → State → State
  | [], s => s
  | l :: t, s =>
    match s.l1Flush b l (BitVec.allOnes 128) with
    | (s, .clean) => flushL1 g b t s
    | (s, .landed) => flushL1 g b t (s.updCmd g.cmd (fun c => { c with resA := c.resA + 1 }))
    | (s, .shield d a) => s.agAbort g d a

/-- The L1 part of a FLUSH on one bay. -/
def State.flushBay (s : State) (id b : Nat) (wb inv : Bool) (outs : List Target) : State :=
  let s := if wb then outs.foldl (fun s o => flushL1 (s.quoinOf id) b (s.l1In b o.addr o.len) s) s else s
  if inv then outs.foldl (fun s o => s.l1Inv b o.addr o.len) s else s

/-- FLUSH (R224). A write-back whose channel is resetting waits for it: nothing happens yet. -/
def State.doFlush (s : State) (id : Nat) : State :=
  if !s.doing id opFlush then s
  else
    let c := s.cmd id
    let fl := byteAt c.desc 0x28
    let outs := dOuts c.desc
    if fl = 0 then s.completeCmd id doneStop c.timeDispatch
    else
      let bays := s.baysHeld c.slice
      let s1 := bays.foldl (fun s b => s.flushBay id b (bitAt fl 0) (bitAt fl 1) outs) s
      let lines := if bitAt fl 2 then s1.flushLines c.slice outs else []
      if lines.any (fun a => decide ((s1.chan (s1.chanOfDpa a)).unit = .resetting)) then s
      else
        let s := flushDram (s1.quoinOf id) lines s1
        let s := if bitAt fl 3 then bays.foldl (fun s b => s.roInvalidate b) s else s
        s.workDone id

def execFlush (c : Nat) (s : State) : Host.Outcome State Fault Refusal := .next (s.settled (fun s => s.doFlush c))

end Sys2Proof.Machine
end

