-- ==== Sys2Proof/Machine/Slab.lean ====
section
/-! DEFINITION. SLAB_RUN (spec/06): operands in memory (R147), the arithmetic of an output element (R148), block scaling
(R140) and the tiles of a work item (R150, R153). -/

namespace Sys2Proof.Machine

/-! ## Packed elements (R138) -/

/-- Element i of a packed row. -/
def elemAt (row : Bytes) (f : Fmt) (i : Nat) : Nat :=
  let p := i * f.bits
  leAt row (p / 8) 9 / 2 ^ (p % 8) % 2 ^ f.bits

/-- The first n elements of a packed row. -/
def unpackRow (row : Bytes) (f : Fmt) (n : Nat) : List Nat := (List.range n).map (elemAt row f)

/-- The little-endian number of a row's elements. -/
def packNat (bits : Nat) : List Nat → Nat
  | [] => 0
  | x :: t => x % 2 ^ bits + 2 ^ bits * packNat bits t

/-- Elements packed into bytes, the last byte filled with zeros. -/
def packRow (f : Fmt) (codes : List Nat) : Bytes := leBytes (rowBytes codes.length f) (packNat f.bits codes)

/-! ## Operands of one tile -/

/-- Where a row of an operand lies: its first byte, and its first scale byte. -/
structure OpPlace where
  fmt : Fmt
  blocked : Bool
  addr : Nat
  scale : Nat

/-- Reads elements k0 to k0 + n − 1 of an operand row. -/
def State.readOp (s : State) (g : Agent) (p : OpPlace) (k0 n : Nat) : State × Option OpRow :=
  match s.agRead g (p.addr + k0 * p.fmt.bits / 8) (rowBytes n p.fmt) with
  | (s, none) => (s, none)
  | (s, some b) =>
    let codes := unpackRow b p.fmt n
    if p.blocked then
      match s.agRead g (p.scale + k0 / 32) (ceilDiv n 32) with
      | (s, none) => (s, none)
      | (s, some x) => (s, some { codes := codes, scales := x.map (·.toNat) })
    else (s, some { codes := codes, scales := [] })

/-- Reads the same elements of several rows, in order. -/
def readOps (g : Agent) (k0 n : Nat) : List OpPlace → State → State × Option (List OpRow)
  | [], s => (s, some [])
  | p :: t, s =>
    match s.readOp g p k0 n with
    | (s, none) => (s, none)
    | (s, some r) =>
      match readOps g k0 n t s with
      | (s, some rs) => (s, some (r :: rs))
      | (s, none) => (s, none)

/-! ## Arithmetic (R148) -/

/-- The exponent of the scale of block j; none for the byte 0xFF (R140). -/
def OpRow.scaleExp (r : OpRow) (j : Nat) : Option Int :=
  if r.scales = [] then some 0
  else
    let x := r.scales.getD j 0
    if x = 255 then none else some ((x : Int) - 127)

/-- Units of an exact sum: 2^−600 is finer than every product of two scaled elements. -/
def sumUnit : Nat := 600

/-- A finite value in units of 2^−600. -/
def unitsOf (neg : Bool) (num den : Nat) : Int :=
  let u : Int := (num * 2 ^ sumUnit / den : Nat)
  if neg then -u else u

/-- Adds one product to a group's sum. -/
def SumAcc.addVal (a : SumAcc) (v : Val) : SumAcc :=
  match v with
  | .nan => { a with nans := a.nans + 1 }
  | .inf true => { a with negInf := a.negInf + 1 }
  | .inf false => { a with posInf := a.posInf + 1 }
  | .fin neg n d => { a with units := a.units + unitsOf neg n d }

/-- A group's sum as F32: NaN, an infinity, or the exact sum scaled by 2^e and rounded once. -/
def SumAcc.group (a : SumAcc) (e : Int) : Nat :=
  if 0 < a.nans ∨ (0 < a.posInf ∧ 0 < a.negInf) then f32Nan
  else if 0 < a.posInf then 0x7F800000
  else if 0 < a.negInf then 0xFF800000
  else toF32 ((Val.fin (decide (a.units < 0)) a.units.natAbs (2 ^ sumUnit)).scale2 e)

/-- The sum of group j of two rows. -/
def groupSum (fa fw : Fmt) (a w : OpRow) (j : Nat) : Nat :=
  match a.scaleExp j, w.scaleExp j with
  | some ea, some ew =>
    let xs := (a.codes.drop (32 * j)).take 32
    let ys := (w.codes.drop (32 * j)).take 32
    ((xs.zip ys).foldl (fun (acc : SumAcc) p => acc.addVal ((fa.decode p.1).mul (fw.decode p.2))) {}).group (ea + ew)
  | _, _ => f32Nan

/-- A float accumulator after one tile: each group sum is added in ascending order. -/
def floatAcc (fa fw : Fmt) (a w : OpRow) (acc : Nat) : Nat :=
  (List.range (ceilDiv a.codes.length 32)).foldl (fun acc j => f32Add acc (groupSum fa fw a w j)) acc

/-- Units of an exact integer accumulator: block-scaled I8 elements are multiples of 2^−133 (R140). -/
def intUnit : Nat := 266

/-- The exponent of an I8 block: its scale and the 2^−6 of its elements. -/
def OpRow.intExp (r : OpRow) (j : Nat) : Option Int :=
  if r.scales = [] then some 0 else (r.scaleExp j).map (· - 6)

/-- The value of an integer element. -/
def intElem (f : Fmt) (x : Nat) : Int := if f = .u8 then (x : Int) else signedOf f.bits x

/-- The exact sum of group j of two integer rows, in units of 2^−266; none where a scale byte is 0xFF. -/
def intGroup (fa fw : Fmt) (a w : OpRow) (j : Nat) : Option Int :=
  match a.intExp j, w.intExp j with
  | some ea, some ew =>
    let xs := (a.codes.drop (32 * j)).take 32
    let ys := (w.codes.drop (32 * j)).take 32
    let z := (xs.zip ys).foldl (fun z p => z + intElem fa p.1 * intElem fw p.2) (0 : Int)
    some (z * 2 ^ ((intUnit : Int) + ea + ew).toNat)
  | _, _ => none

/-- An integer accumulator after one tile; none once a NaN has entered it. -/
def intAcc (fa fw : Fmt) (a w : OpRow) (acc : Option Int) : Option Int :=
  (List.range (ceilDiv a.codes.length 32)).foldl
    (fun acc j => match acc, intGroup fa fw a w j with
      | some x, some y => some (x + y)
      | _, _ => none) acc

/-- max(v, +0) (RELU). -/
def Val.relu : Val → Val
  | .inf true => .fin false 0 1
  | .fin true _ _ => .fin false 0 1
  | v => v

/-- The value v of an output element from its accumulator. -/
def outValue (relu : Bool) (scale : Nat) (acc : Val) : Val :=
  let v := acc.mul (ofF32 scale)
  if relu then v.relu else v

/-- The magnitude's exponent of a nonzero finite value. -/
def Val.topExp : Val → Int
  | .fin _ n d => floorLog2 n d
  | _ => 0

/-- A block of 32 outputs with its scale byte (R148). -/
def blockOut (f : Fmt) (vs : List (Val × Round)) : Nat × List Nat × ConvFlags :=
  let special := fun v : Val => match v with
    | .fin _ _ _ => false
    | _ => true
  if vs.any (fun v => special v.1) then (0xFF, vs.map (fun _ => 0), { nanOut := true })
  else
    let zero := vs.all (fun v => v.1.isZero)
    let top := (vs.filter (fun v => !v.1.isZero)).foldl (fun m v => max m v.1.topExp) (-(10 ^ 6 : Int))
    let x : Int := max (-127) (min 127 (top - f.emax))
    let shift : Int := (if zero then 0 else -x) + if f = .i8 then 6 else 0
    let cs := vs.map (fun v => convert f true v.2 (v.1.scale2 shift))
    (if zero then 0 else (x + 127).toNat, cs.map (·.1), cs.foldl (fun a c => a.or c.2) {})

/-! ## A work item (R150) -/

/-- The rows and columns of a work item: first row, rows, first column, columns. -/
def itemSpan (d b : Bytes) (item : Nat) : Nat × Nat × Nat × Nat :=
  let chunk := if slShared b then item % slChunks d b else item / slNTiles b
  let tile := if slShared b then item / slChunks d b else item % slNTiles b
  let r0 := chunk * slChunk b
  let n0 := tile * slTileN b
  (r0, min (slChunk b) (slM d - r0), n0, min (slTileN b) (slN b - n0))

def slKTiles (b : Bytes) : Nat := ceilDiv (slK b) (slTileK b)

/-- The rows of A and the columns of W of a work item. -/
def aPlaces (b : Bytes) (r0 rows : Nat) : List OpPlace :=
  (List.range rows).map (fun i =>
    { fmt := fmtOf (slAFmt b), blocked := slBlocked (slAFmt b), addr := slA b + (r0 + i) * slAStride b
      scale := slAScale b + (r0 + i) * scaleStride (slK b) })

def wPlaces (b : Bytes) (base n0 cols : Nat) : List OpPlace :=
  (List.range cols).map (fun j =>
    { fmt := fmtOf (slWFmt b), blocked := slBlocked (slWFmt b), addr := base + (n0 + j) * slWStride b
      scale := slWScale b + (n0 + j) * scaleStride (slK b) })

/-- The accumulators of a float item as F32 words. -/
def Item.word (it : Item) (i : Nat) : Nat := (it.acc.getD i 0).toNat

/-- An exact accumulator; none for NaN. -/
def Item.exact (it : Item) (i : Nat) : Option Int :=
  if it.nanAt.contains i then none else some (it.acc.getD i 0)

/-- The old values of ACCUM, row by row (R148). -/
def readOld (g : Agent) (d b : Bytes) (n0 cols : Nat) : List Nat → State → State × Option (List Int)
  | [], s => (s, some [])
  | r :: t, s =>
    match s.agRead g ((dOut d 0).addr + r * slCStride b + 4 * n0) (4 * cols) with
    | (s, none) => (s, none)
    | (s, some x) =>
      let old := (List.range cols).map (fun j =>
        let w := leAt x (4 * j) 4
        if (fmtOf (slAFmt b)).isFloat then (w : Int) else signedOf 32 w * 2 ^ intUnit)
      match readOld g d b n0 cols t s with
      | (s, some rest) => (s, some (old ++ rest))
      | (s, none) => (s, none)

/-- The accumulators as an item starts. -/
def State.startAcc (s : State) (g : Agent) (d b : Bytes) (it : Item) : State × Option (List Int) :=
  let (r0, rows, n0, cols) := itemSpan d b it.item
  if it.pos ≠ 0 then (s, some it.acc)
  else if slAccum b then readOld g d b n0 cols ((List.range rows).map (r0 + ·)) s
  else (s, some (List.replicate (rows * cols) 0))

/-- The item after one K tile of its operands. -/
def Item.tile (it : Item) (fa fw : Fmt) (as ws : List OpRow) : Item :=
  let cols := ws.length
  let pairs := as.flatMap (fun a => ws.map (fun w => (a, w)))
  if fa.isFloat then
    { it with acc := (pairs.zip (List.range (as.length * cols))).map (fun e =>
        ((floatAcc fa fw e.1.1 e.1.2 (it.word e.2) : Nat) : Int)) }
  else
    let xs := (pairs.zip (List.range (as.length * cols))).map (fun e => intAcc fa fw e.1.1 e.1.2 (it.exact e.2))
    { it with
      acc := xs.map (fun x => x.getD 0)
      nanAt := (List.range xs.length).filter (fun i => (xs.getD i none).isNone) }

/-- An accumulator as an exact value. -/
def Item.value (it : Item) (float : Bool) (i : Nat) : Val :=
  if float then ofF32 (it.word i)
  else match it.exact i with
    | some z => .fin (decide (z < 0)) z.natAbs (2 ^ intUnit)
    | none => .nan

/-- The 32-wide groups of a list. -/
def groups32 {α : Type} (l : List α) : List (List α) :=
  (List.range (ceilDiv l.length 32)).map (fun j => (l.drop (32 * j)).take 32)

/-- One output row of a finished item: its elements, its scale bytes and its flags. -/
def outRow (d b : Bytes) (it : Item) (row : Nat) : Bytes × Bytes × ConvFlags :=
  let (r0, _, n0, cols) := itemSpan d b it.item
  let f := fmtOf (slOFmt b)
  let float := (fmtOf (slAFmt b)).isFloat
  let vs : List (Val × Round) := (List.range cols).map (fun j =>
    (outValue (slRelu b) (slOutScale b) (it.value float (row * cols + j)),
      roundOf (slSr b) (slSeed d) ((r0 + row) * slN b + n0 + j)))
  if slBlocked (slOFmt b) then
    let bs := (groups32 vs).map (blockOut f)
    (packRow f (bs.flatMap (·.2.1)), bs.map (fun x => BitVec.ofNat 8 x.1), bs.foldl (fun a x => a.or x.2.2) {})
  else
    let cs := vs.map (fun v => convert f (slSat b) v.2 v.1)
    (packRow f (cs.map (·.1)), [], cs.foldl (fun a c => a.or c.2) {})

/-- Writes the rows of a finished item (R147); false when the command stopped. -/
def writeRows (g : Agent) (d b : Bytes) (it : Item) : List Nat → State → State × Bool
  | [], s => (s, true)
  | row :: t, s =>
    let (r0, _, n0, _) := itemSpan d b it.item
    let (x, sc, fl) := outRow d b it row
    let r := r0 + row
    let s := s.updCmd g.cmd (fun c => { c with flags := c.flags ||| fl.toNat })
    match s.agWrite g ((dOut d 0).addr + r * slCStride b + n0 * (fmtOf (slOFmt b)).bits / 8) x with
    | (s, false) => (s, false)
    | (s, true) =>
      match (if sc = [] then (s, true) else s.agWrite g ((dOut d 1).addr + r * scaleStride (slN b) + n0 / 32) sc) with
      | (s, false) => (s, false)
      | (s, true) => writeRows g d b it t s

/-- A command that claims work items has none left: not started, in progress or saved; an image of phase 0 is only the
mark of an engine that stopped between two items. -/
def Cmd.itemsOver (c : Cmd) : Bool :=
  decide (c.items ≤ c.next) && c.busy.isEmpty && c.images.all (fun i => decide (i.phase = 0))

/-- The tile's counts: its multiply-accumulates, the tile, and the array's place in the K tiles. -/
def State.countTile (s : State) (id u : Nat) (it : Item) (last : Bool) (macs : Nat) : State :=
  let bay := u / 4
  let s := (s.count (s.cmd id).slice 6 macs).event 0x11 (unitBay bay) (some (s.cmd id).slice) macs
  s.updBay bay (fun v => { v with
    tiles := satAdd 48 v.tiles 1
    arrays := Tbl.put v.arrays (u % 4)
      { cmd := some id, active := some (it.pos - 1), shadow := if last then none else some it.pos } })

/-- The last K tile of an item: its rows are written and the item is done. -/
def State.endItem (s : State) (g : Agent) (id u : Nat) (it : Item) (rows : Nat) : State :=
  match writeRows g (s.cmd id).desc (s.cmd id).block it (List.range rows) s with
  | (s, false) => s
  | (s, true) =>
    let s := s.updCmd id (fun c => { c with busy := Tbl.del c.busy u, done := Tbl.set 0 c.done it.item 1 })
    if (s.cmd id).itemsOver then s.workDone id else s

/-- The place in W of the tile that an item is due: its columns and its K tile. -/
def Item.tileKey (it : Item) (d b : Bytes) : Nat := (itemSpan d b it.item).2.2.1 * slKTiles b + it.pos

/-- The other arrays of a run on a die that are due a tile and do not hold it, on bays that the run's slice holds (R151,
R237). -/
def State.tilePeers (s : State) (id u key : Nat) : List Nat :=
  let c := s.cmd id
  (c.busy.filter (fun e => decide (e.1 ≠ u) && decide (dieOfBay (e.1 / 4) = dieOfBay (u / 4))
    && decide (e.2.tileKey c.desc c.block = key) && decide ((s.bay (e.1 / 4)).holder = some c.slice)
    && !(((Tbl.get {} (s.bay (e.1 / 4)).arrays (e.1 % 4)).latched.map (·.1)) == some key))).map (·.1)

/-- A tile is delivered to an array. -/
def State.latchTile (s : State) (id key : Nat) (ws : List OpRow) (u : Nat) : State :=
  s.updBay (u / 4) (fun v => { v with
    arrays := Tbl.upd {} v.arrays (u % 4) (fun a => { a with cmd := some id, latched := some (key, ws) }) })

/-- A tile is read through the port of each bay in turn and delivered to the arrays of that bay (R237, Fallback); the answer
is the last one read. -/
def readEach (id k0 n key : Nat) (places : List OpPlace) (units : List Nat) :
    List Nat → State → State × Option (List OpRow)
  | [], s => (s, none)
  | b :: t, s =>
    match readOps (s.agentOn id b) k0 n places s with
    | (s, none) => (s, none)
    | (s, some ws) =>
      let s := (units.filter (fun u => decide (u / 4 = b))).foldl (fun s u => s.latchTile id key ws u) s
      if t = [] then (s, some ws) else readEach id k0 n key places units t s

/-- The columns of W of the tile that array `u` is due: latched, or read. Where other arrays of its run and die are due the
same tile it is read once and delivered to all of them over the broadcast bus; while the bus is busy it is read for each
receiving bay instead (R151, R237). -/
def State.weightTile (s : State) (id u key k0 n : Nat) (places : List OpPlace) : State × Option (List OpRow) :=
  let held := (Tbl.get {} (s.bay (u / 4)).arrays (u % 4)).latched
  match held.filter (fun e => decide (e.1 = key)) with
  | some e => (s, some e.2)
  | none =>
    let peers := s.tilePeers id u key
    let size := (places.map (fun p => rowBytes n p.fmt + if p.blocked then ceilDiv n 32 else 0)).foldl (· + ·) 0
    let d := dieOfBay (u / 4)
    if peers = [] then readOps (s.agentOn id (u / 4)) k0 n places s
    else match s.takeBus d size with
      | (s, true) =>
        match readOps (s.agentOn id (u / 4)) k0 n places s with
        | (s, none) => (s, none)
        | (s, some ws) => (peers.foldl (fun s p => s.latchTile id key ws p) s, some ws)
      | (s, false) =>
        let bays := ((peers ++ [u]).map (· / 4)).eraseDups
        readEach id k0 n key places peers ((bays.filter (· != u / 4)) ++ [u / 4]) (s.countFallbacks d bays.length)

/-- One K tile's operands, read in the order W, A and the old values; none where the agent stops. -/
def State.tileReads (s : State) (id u : Nat) (g : Agent) (it : Item) : State × Option (List OpRow × List OpRow × List Int) :=
  let c := s.cmd id
  let b := c.block
  let (r0, rows, n0, cols) := itemSpan c.desc b it.item
  let k0 := it.pos * slTileK b
  let n := min (slTileK b) (slK b - k0)
  match s.weightTile id u (it.tileKey c.desc b) k0 n (wPlaces b (s.wBase c) n0 cols) with
  | (s, none) => (s, none)
  | (s, some ws) =>
    match readOps g k0 n (aPlaces b r0 rows) s with
    | (s, none) => (s, none)
    | (s, some as) =>
      match s.startAcc g c.desc b it with
      | (s, none) => (s, none)
      | (s, some acc) => (s, some (ws, as, acc))

/-- One K tile on an array: loads, accumulates and, behind the last tile, converts and writes its rows. -/
def State.slabTile (s : State) (id u : Nat) (it : Item) : State :=
  let b := (s.cmd id).block
  let g := s.agentOn id (u / 4)
  let (_, rows, _, cols) := itemSpan (s.cmd id).desc b it.item
  let n := min (slTileK b) (slK b - it.pos * slTileK b)
  match s.tileReads id u g it with
  | (s, none) => s
  | (s, some (ws, as, acc)) =>
    let it := ({ it with acc := acc }).tile (fmtOf (slAFmt b)) (fmtOf (slWFmt b)) as ws
    let it := { it with pos := it.pos + 1 }
    let last := decide (slKTiles b ≤ it.pos)
    let s := s.countTile id u it last (rows * cols * n)
    if last then s.endItem g id u it rows
    else s.updCmd id (fun c => { c with busy := Tbl.put c.busy u it })

/-- SLAB_RUN: array `a` of a run works through the next K tile of its work item. -/
def State.doSlabRun (s : State) (id a : Nat) : State :=
  if !s.doing id opSlab then s
  else match Tbl.find? (s.cmd id).busy a with
    | some it => s.onBay id (a / 4) (fun s => s.slabTile id a it)
    | none => s

def execSlabRun (c a : Nat) (s : State) : Host.Outcome State Fault Refusal := .next (s.settled (fun s => s.doSlabRun c a))

/-! ## Claims (R236) -/

/-- A free engine takes the next unstarted work item. -/
def State.claimItem (s : State) (id u : Nat) : State :=
  let c := s.cmd id
  if c.grant.any (fun e => e.1 == u) && (Tbl.find? c.busy u).isNone && decide (c.next < c.items) then
    s.updCmd id (fun c => { c with busy := Tbl.put c.busy u { item := c.next, engine := u }, next := c.next + 1 })
  else s

end Sys2Proof.Machine
end

