-- ==== Sys2Proof/Machine/Hod.lean ====
section
/-! DEFINITION. GATHER (spec/07 R162 to R168): a hod engine pools one index, or writes one finished bag, a step. -/

namespace Sys2Proof.Machine

/-- An element of a row converted exactly to F32 (R166). -/
def f32Of (f : Fmt) (code : Nat) : Nat := toF32 (f.decode code)

/-- The greater of two F32 values under MAX: a NaN gives the canonical NaN, and +0 ranks above −0 (R166). -/
def f32Max (a x : Nat) : Nat :=
  let va := ofF32 a
  let vx := ofF32 x
  if va.isNan || vx.isNan then f32Nan
  else if va.lt vx then x
  else if vx.lt va then a
  else if a = 0x80000000 then x else a

/-- One element of the pooling buffer after one more kept row (R166): 0 NONE, 1 SUM, 2 MEAN, 3 MAX, 4 WSUM. -/
def poolStep (mode kept w acc x : Nat) : Nat :=
  if mode = 0 then x
  else if mode = 3 then (if kept = 0 then f32Max x x else f32Max acc x)
  else if mode = 4 then f32Fma w x acc
  else f32Add acc x

/-- The pooled value as it is converted (R166). -/
def poolEnd (mode kept acc : Nat) : Nat := if mode = 2 ∧ kept ≠ 0 then f32DivNat acc kept else acc

/-- The number of the bag an item works on. -/
def Item.bagNumber (it : Item) : Nat := 64 * it.item + it.bag

/-- The list positions of a bag: offsets as they are needed (R164). -/
def State.bagSpan (s : State) (g : Agent) (b : Bytes) (bag : Nat) : State × Option (Nat × Nat) :=
  if gaPool b = 0 then (s, some (bag, bag + 1))
  else match s.agRead g (gaOffset b + 4 * bag) 8 with
    | (s, none) => (s, none)
    | (s, some x) =>
      let lo := leAt x 0 4
      let hi := leAt x 4 4
      if (bag = 0 ∧ lo ≠ 0) ∨ hi < lo then (s.agFault g fcHodOffsets { unit := g.unit, info0 := bag }, none)
      else (s, some (lo, hi))

/-- A bag begins: its accumulators start at +0 (R183). -/
def State.beginBag (s : State) (g : Agent) (u : Nat) (b : Bytes) (it : Item) : State :=
  match s.bagSpan g b it.bagNumber with
  | (s, none) => s
  | (s, some (lo, hi)) =>
    let it := { it with phase := 2, pos := lo, bagEnd := hi, kept := 0, acc := List.replicate (gaElems b) 0 }
    s.updCmd g.cmd (fun c => { c with busy := Tbl.put c.busy u it })

/-- Rows pooled or copied by a bay's hod engine, and the sectors it read (R185, Tables 14.6 and 14.7). -/
def State.countRows (s : State) (bay slice rows sectors : Nat) : State :=
  let s := s.updBay bay (fun v => { v with rowsPooled := satAdd 48 v.rowsPooled rows })
  (s.count slice 7 rows).event 0x12 (unitBay bay) (some slice) sectors

/-- The weight of a list position; only WSUM reads one. -/
def State.weightAt (s : State) (g : Agent) (b : Bytes) (pos : Nat) : State × Option Nat :=
  if gaPool b ≠ 4 then (s, some 0)
  else match s.agRead g (gaWeight b + 4 * pos) 4 with
    | (s, some w) => (s, some (leVal w))
    | (s, none) => (s, none)

/-- A kept index: its row is read in whole sectors and enters the pooling buffer (R165, R166). -/
def State.poolRow (s : State) (g : Agent) (u : Nat) (c : Cmd) (it : Item) (x : Nat) : State :=
  let b := c.block
  match s.weightAt g b it.pos with
  | (s, none) => s
  | (s, some w) =>
    let len := roundUp (gaRowBytes b) 32
    match s.agRead g (s.tableBase c + x * gaStride b) len with
    | (s, none) => s
    | (s, some row) =>
      let xs := (unpackRow row (gaRowFmt b) (gaElems b)).map (f32Of (gaRowFmt b))
      let acc := (it.acc.zip xs).map (fun e => ((poolStep (gaPool b) it.kept w e.1.toNat e.2 : Nat) : Int))
      let s := s.countRows u c.slice 1 (len / 32)
      let it := { it with pos := it.pos + 1, kept := it.kept + 1, acc := acc }
      s.updCmd g.cmd (fun c => { c with busy := Tbl.put c.busy u it })

/-- One list position: an index out of range is skipped or is a fault (R164). -/
def State.poolIndex (s : State) (g : Agent) (u : Nat) (c : Cmd) (it : Item) : State :=
  let b := c.block
  let n := gaIndexSize b
  match s.agRead g (gaIndex b + n * it.pos) n with
  | (s, none) => s
  | (s, some raw) =>
    let x := signedOf (8 * n) (leVal raw)
    if 0 ≤ x ∧ x < gaRows b then s.poolRow g u c it x.toNat
    else if gaSkip b then
      s.updCmd g.cmd (fun c => { c with
        skipped := c.skipped + 1, busy := Tbl.put c.busy u { it with pos := it.pos + 1 } })
    else s.agFault g fcHodIndex { unit := g.unit, info0 := it.pos, info1 := unsignedOf 64 x }

/-- Bags of a work item (R168). -/
def itemBags (b : Bytes) (item : Nat) : Nat := min 64 (gaBags b - 64 * item)

/-- A bag's row is converted and written; behind the last bag the item ends (R166 to R168). -/
def State.writeBag (s : State) (g : Agent) (u : Nat) (c : Cmd) (it : Item) : State :=
  let b := c.block
  let d := c.desc
  let f := gaOutFmt b
  let cs := (List.range (gaElems b)).map (fun e =>
    convert f (gaSat b) (roundOf (gaSr b) (leAt d 0x30 8) (it.bagNumber * gaElems b + e))
      (ofF32 (poolEnd (gaPool b) it.kept (it.word e))))
  let fl := cs.foldl (fun (a : ConvFlags) x => a.or x.2) {}
  let s := s.updCmd g.cmd (fun c => { c with flags := c.flags ||| fl.toNat })
  match s.agStore g (dOut d 0) (it.bagNumber * gaOutStride b) (packRow f (cs.map (·.1))) with
  | (s, false) => s
  | (s, true) =>
    let next := it.bag + 1
    let last := decide (itemBags b it.item ≤ next)
    let s := s.updCmd g.cmd (fun c => { c with
      done := Tbl.set 0 c.done it.item next
      busy := if last then Tbl.del c.busy u
        else Tbl.put c.busy u { it with phase := 1, bag := next, kept := 0, acc := [] } })
    if last && (s.cmd g.cmd).itemsOver then s.workDone g.cmd else s

/-- The next step of an item on a hod engine. -/
def State.gatherStep (s : State) (id u : Nat) (it : Item) : State :=
  let c := s.cmd id
  let g := s.agentOn id u
  if it.phase = 1 then s.beginBag g u c.block it
  else if it.pos < it.bagEnd then s.poolIndex g u c it
  else s.writeBag g u c it

/-- GATHER: the hod engine of a bay pools the next index of its work item, or writes a finished bag. -/
def State.doGather (s : State) (id u : Nat) : State :=
  if !s.doing id opGather then s
  else match Tbl.find? (s.cmd id).busy u with
    | some it => s.onBay id u (fun s => s.gatherStep id u it)
    | none => s

def execGather (c bay : Nat) (s : State) : Host.Outcome State Fault Refusal := .next (s.settled (fun s => s.doGather c bay))

end Sys2Proof.Machine
end

