-- ==== Sys2Proof/Machine/Riddle.lean ====
section
/-! DEFINITION. SELECT (spec/07 R169 to R177): a riddle unit examines one group of elements, or finishes one row, a step;
and the claims of work items (R173, spec/10 R236). -/

namespace Sys2Proof.Machine

/-! ## Order (R171) and entries (R172) -/

/-- The value of an entry. -/
def Entry.val (float : Bool) (e : Entry) : Val := if float then ofF32 e.value.toNat else Val.ofInt e.value.toInt

/-- Entry a ranks above entry b. -/
def Entry.above (float : Bool) (a b : Entry) : Bool :=
  let x := a.val float
  let y := b.val float
  y.lt x || (!x.lt y && decide (a.order < b.order))

/-- An entry takes its rank in a list in descending order. -/
def insertEntry (float : Bool) (e : Entry) : List Entry → List Entry
  | [] => [e]
  | x :: t => if x.above float e then x :: insertEntry float e t else if e.above float x then e :: x :: t
    else x :: insertEntry float e t

/-- The k greatest of a list and of more entries. -/
def selectInto (float : Bool) (k : Nat) (l more : List Entry) : List Entry :=
  more.foldl (fun l e => (insertEntry float e l).take k) l

/-- VALUE of an element: exact F32 of a float, I32 of an integer (Table 7.7). -/
def valueWord (f : Fmt) (code : Nat) : W32 :=
  BitVec.ofNat 32 (if f.isFloat then f32Of f code else if f = .u8 then code else unsignedOf 32 (signedOf f.bits code))

/-- The element at a position of a row as an entry. -/
def elemEntry (b : Bytes) (pos code : Nat) : Entry :=
  { index := BitVec.ofNat 64 (seBase b + pos), value := valueWord (seFmt b) code, source := 0, order := pos }

/-- The 16 bytes of an entry; none is the empty entry (R172). -/
def entryBytes : Option Entry → Bytes
  | some e => leBytes 8 e.index.toNat ++ leBytes 4 e.value.toNat ++ [e.source, 0, 0, 0]
  | none => List.replicate 8 0xFF ++ leBytes 4 f32Nan ++ [0xFF, 1, 0, 0]

/-! ## Terms and sums (R175) -/

/-- The exp term of a value under the row's greatest value. -/
def expTerm (top x : Val) : Val :=
  if x.isNan then .nan
  else if !x.lt top && !top.lt x then .fin false 1 1
  else ofF32 (f32Exp (toF32 (x.add top.neg)))

def SumAcc.plus (a b : SumAcc) : SumAcc :=
  { units := a.units + b.units, posInf := a.posInf + b.posInf, negInf := a.negInf + b.negInf, nans := a.nans + b.nans }

def SumAcc.minus (a b : SumAcc) : SumAcc :=
  { units := a.units - b.units, posInf := a.posInf - b.posInf, negInf := a.negInf - b.negInf, nans := a.nans - b.nans }

/-- The exact sum of terms. -/
def sumTerms (l : List Val) : SumAcc := l.foldl (fun (a : SumAcc) v => a.addVal v) {}

/-- The greatest non-NaN value of a row, from its merged list: the head, which is NaN only where every element is. -/
def topOf (float : Bool) (l : List Entry) : Option Entry :=
  match l with
  | e :: _ => if (e.val float).isNan then none else some e
  | [] => none

/-! ## Reading groups -/

def seLastPos (b : Bytes) (seg : Nat) : Nat := if seSeg b = 0 then seL b else min (seL b) ((seg + 1) * seSeg b)

/-- Elements examined in one step: 16, 32 or 4 (R173, R174). -/
def seGroup (b : Bytes) : Nat := if seOp b = 1 then 32 else if seOp b = 2 then 4 else 16

/-- Reads elements p to p + n − 1 of a row (R138). -/
def State.readElems (s : State) (g : Agent) (b : Bytes) (row p n : Nat) : State × Option (List Nat) :=
  let f := seFmt b
  let lo := p * f.bits / 8
  match s.agRead g (seIn b + row * seStride b + lo) (ceilDiv ((p + n) * f.bits) 8 - lo) with
  | (s, none) => (s, none)
  | (s, some x) =>
    -- 12-bit elements may start inside a byte
    let skip := p * f.bits - lo * 8
    let whole := leVal x / 2 ^ skip
    (s, some ((List.range n).map (fun i => whole / 2 ^ (i * f.bits) % 2 ^ f.bits)))

/-- Reads entries of one list of a MERGE row; empty ones are left out (R174). -/
def State.readEntries (s : State) (g : Agent) (b : Bytes) (row list first n : Nat) : State × Option (List Entry) :=
  let start := seIn b + row * seStride b + list * roundUp (16 * seL b) 128 + 16 * first
  match s.agRead g start (16 * n) with
  | (s, none) => (s, none)
  | (s, some x) =>
    let es := (List.range n).filterMap (fun i =>
      let e := bytesAt x (16 * i) 16
      let ix := leAt e 0 8
      if bitAt (byteAt e 13) 0 then none
      else some ({ index := BitVec.ofNat 64 ix, value := valueWord (seFmt b) (leAt e 8 4)
                   source := BitVec.ofNat 8 list, order := ix * 32 + list } : Entry))
    (s, some es)

/-! ## The rows of a selection -/

def State.updRow (s : State) (id row : Nat) (f : RowAcc → RowAcc) : State :=
  s.updCmd id (fun c => { c with rows := Tbl.put c.rows row (f (Tbl.get {} c.rows row)) })

def State.setBusy (s : State) (id u : Nat) (it : Item) : State :=
  s.updCmd id (fun c => { c with busy := Tbl.put c.busy u it })

def State.freeEngine (s : State) (id u : Nat) : State := s.updCmd id (fun c => { c with busy := Tbl.del c.busy u })

/-- Elements and entries examined on a bay (R186, Tables 14.6 and 14.7). -/
def State.countElems (s : State) (bay slice n : Nat) : State :=
  let s := s.updBay bay (fun v => { v with elements := satAdd 48 v.elements n })
  (s.count slice 8 n).event 0x13 (unitBay bay) (some slice) n

/-! ### Partial lists and totals (R173) -/

/-- The place in CTX_SAVE of the partial list and totals of a segment, behind the images (Table 7.6). -/
def Cmd.partAddr (c : Cmd) (row seg : Nat) : Nat := c.ctxSave + 1280 * (sePref c.desc + row * seS c.block + seg)

/-- A segment's partial state is written to CTX_SAVE, where a row has several segments; false where that stops the
command. -/
def State.savePart (s : State) (g : Agent) (row seg : Nat) : State × Bool :=
  let c := s.cmd g.cmd
  if seS c.block ≤ 1 then (s, true) else s.writeSaved g (c.partAddr row seg) 1280

/-- Partial states of a row are read from CTX_SAVE. -/
def readParts (g : Agent) (row : Nat) : List Nat → State → State × Bool
  | [], s => (s, true)
  | k :: t, s =>
    match s.agRead g ((s.cmd g.cmd).partAddr row k) 1280 with
    | (s, some _) => readParts g row t s
    | (s, none) => (s, false)

def State.loadParts (s : State) (g : Agent) (row : Nat) (segs : List Nat) : State × Bool :=
  if seS (s.cmd g.cmd).block ≤ 1 then (s, true) else readParts g row segs s

/-- A step that ends an item, once its partial state is saved. -/
def State.afterSave (s : State) (g : Agent) (row seg : Nat) (f : State → State) : State :=
  match s.savePart g row seg with
  | (s, true) => f s
  | (s, false) => s

/-- A step that begins an item, once the partial states it needs are read; later steps of the item hold them. -/
def State.afterLoad (s : State) (g : Agent) (it : Item) (segs : List Nat) (f : State → State) : State :=
  match (if it.pos = 0 then s.loadParts g it.row segs else (s, true)) with
  | (s, true) => f s
  | (s, false) => s

/-- An item of pass 1 has ended: its list, total and NaNs are held; the unit that ends the row's last one merges (R173). -/
def State.endPass1 (s : State) (id u : Nat) (b : Bytes) (it : Item) : State :=
  let s := s.updRow id it.row (fun r => { r with
    lists := Tbl.put r.lists it.seg it.list, sum := r.sum.plus it.sum, nanCount := r.nanCount + it.nanCount
    pass1Left := r.pass1Left - 1 })
  if (Tbl.get {} (s.cmd id).rows it.row).pass1Left = 0 ∧ 1 < seS b then
    s.setBusy id u { it with phase := 2, seg := 0, pos := 0, list := [], sum := {}, nanCount := 0 }
  else s.freeEngine id u

/-- One group of pass 1. -/
def State.pass1Step (s : State) (g : Agent) (u : Nat) (c : Cmd) (it : Item) : State :=
  let b := c.block
  let fl := (seFmt b).isFloat
  let first := it.seg * seSeg b + it.pos
  let (s, got, n, last) : State × Option (List Entry) × Nat × Bool :=
    if seOp b = 2 then
      let k := it.pos / seL b
      let n := min (seGroup b) (seL b - it.pos % seL b)
      let (s, x) := s.readEntries g b it.row k (it.pos % seL b) n
      (s, x, n, decide (seLists b * seL b ≤ it.pos + n))
    else
      let n := min (seGroup b) (seLastPos b it.seg - first)
      let (s, x) := s.readElems g b it.row first n
      (s, x.map (fun cs => (cs.zip (List.range n)).map (fun e => elemEntry b (first + e.2) e.1)), n,
        decide (seLastPos b it.seg ≤ first + n))
  match got with
  | none => s
  | some es =>
    let s := s.countElems u c.slice n
    let vs := es.map (Entry.val fl)
    let it := { it with
      pos := it.pos + n
      list := selectInto fl (seK b) it.list es
      sum := if seSums b && !seExp b then it.sum.plus (sumTerms vs) else it.sum
      nanCount := it.nanCount + (vs.filter Val.isNan).length }
    if last then s.afterSave g it.row it.seg (fun s => s.endPass1 g.cmd u b it) else s.setBusy g.cmd u it

/-- One group of the merge: four entries of the partial lists, taken in segment order. -/
def State.mergeStep (s : State) (g : Agent) (u : Nat) (c : Cmd) (it : Item) : State :=
  let b := c.block
  let all := (Tbl.get {} c.rows it.row).lists.flatMap (·.2)
  let es := (all.drop it.pos).take 4
  let s := s.countElems u c.slice es.length
  let it := { it with pos := it.pos + es.length, list := selectInto (seFmt b).isFloat (seK b) it.list es }
  if all.length ≤ it.pos then
    s.afterSave g it.row 0 (fun s =>
      (s.updRow g.cmd it.row (fun r => { r with lists := [(0, it.list)] })).freeEngine g.cmd u)
  else s.setBusy g.cmd u it

/-- The list of a row whose passes have ended. -/
def RowAcc.list (r : RowAcc) : List Entry := Tbl.get [] r.lists 0

/-- The greatest value of a row for the exp transform; NaN where the row has none. -/
def RowAcc.topVal (r : RowAcc) (b : Bytes) : Val :=
  match topOf (seFmt b).isFloat r.list with
  | some e => e.val (seFmt b).isFloat
  | none => .nan

/-- One group of pass 2. -/
def State.pass2Step (s : State) (g : Agent) (u : Nat) (c : Cmd) (it : Item) : State :=
  let b := c.block
  let first := it.seg * seSeg b + it.pos
  let n := min (seGroup b) (seLastPos b it.seg - first)
  match s.readElems g b it.row first n with
  | (s, none) => s
  | (s, some cs) =>
    let s := s.countElems u c.slice n
    let top := (Tbl.get {} c.rows it.row).topVal b
    let ts := cs.map (fun x => expTerm top ((elemEntry b 0 x).val true))
    let it := { it with pos := it.pos + n, sum := it.sum.plus (sumTerms ts) }
    if seLastPos b it.seg ≤ first + n then
      s.afterSave g it.row it.seg (fun s =>
        (s.updRow g.cmd it.row (fun r => { r with sum := r.sum.plus it.sum, pass2Left := r.pass2Left - 1 })).freeEngine
          g.cmd u)
    else s.setBusy g.cmd u it

/-! ## The finish of a row -/

/-- The 16 sum bytes of a row (R175). -/
def sumBytes (b : Bytes) (r : RowAcc) : Bytes :=
  let fl := (seFmt b).isFloat
  let vs := r.list.map (Entry.val fl)
  let sel := sumTerms (if seExp b then vs.map (expTerm (r.topVal b)) else vs)
  let m := if !fl then 0 else match topOf fl r.list with
    | some e => e.value.toNat
    | none => f32Nan
  leBytes 4 (sel.group 0) ++ leBytes 4 ((r.sum.minus sel).group 0) ++ leBytes 4 m ++ leBytes 4 r.nanCount

/-- The payload rows of the entries of a row, the rows copied, and whether some INDEX was out of range (R176). -/
def readPayload (g : Agent) (b : Bytes) (base : Nat) :
    List (Option Entry) → State → State × Option (Bytes × Nat × Bool)
  | [], s => (s, some ([], 0, false))
  | e :: t, s =>
    let inRange := match e with
      | some x => decide (x.index.toNat < sePRows b)
      | none => false
    let ix := match e with
      | some x => x.index.toNat
      | none => 0
    match (if inRange then s.agRead g (base + ix * sePStride b) (sePLen b)
           else (s, some (List.replicate (sePLen b) 0))) with
    | (s, none) => (s, none)
    | (s, some x) =>
      match readPayload g b base t s with
      | (s, none) => (s, none)
      | (s, some (rest, n, oor)) => (s, some (x ++ rest, n + ofBool inRange, oor || (e.isSome && !inRange)))

/-- Writes parts of outputs in order: output, offset, bytes. -/
def storeParts (g : Agent) (d : Bytes) : List (Nat × Nat × Bytes) → State → State × Bool
  | [], s => (s, true)
  | (o, off, x) :: t, s =>
    match s.agStore g (dOut d o) off x with
    | (s, true) => storeParts g d t s
    | (s, false) => (s, false)

/-- Every row has been finished. -/
def Cmd.rowsOver (c : Cmd) : Bool := c.itemsOver && c.rows.isEmpty

/-- Finish (R173): the payload is read, and entries, sums and payload are written. -/
def State.finishStep (s : State) (g : Agent) (u : Nat) (c : Cmd) (it : Item) : State :=
  let b := c.block
  let r := Tbl.get {} c.rows it.row
  let k := seK b
  let es : List (Option Entry) := (List.range k).map (fun j => r.list[j]?)
  match (if sePayload b then readPayload g b (s.payBase c) es s else (s, some ([], 0, false))) with
  | (s, none) => s
  | (s, some (pay, rows, oor)) =>
    let s := if sePayload b then s.countRows u c.slice rows (rows * sePLen b / 32) else s
    let parts := [(0, 16 * it.row * k, es.flatMap entryBytes)]
      ++ (if seSums b then [(seSumsOut, 16 * it.row, sumBytes b r)] else [])
      ++ (if sePayload b then [(sePayOut b, it.row * k * sePLen b, pay)] else [])
    match storeParts g c.desc parts s with
    | (s, false) => s
    | (s, true) =>
      let fl := ofBool (decide (0 < r.nanCount)) + 2 * ofBool oor + 4 * ofBool (decide (r.list.length < k))
      let s := s.updCmd g.cmd (fun c => { c with
        busy := Tbl.del c.busy u, done := Tbl.set 0 c.done it.row 1, rows := Tbl.del c.rows it.row
        flags := c.flags ||| fl })
      if (s.cmd g.cmd).rowsOver then s.workDone g.cmd else s

/-- The next step of an item on a riddle unit. -/
def State.selectStep (s : State) (id u : Nat) (it : Item) : State :=
  let c := s.cmd id
  let g := s.agentOn id u
  let all := List.range (seS c.block)
  if it.phase = 1 then s.pass1Step g u c it
  else if it.phase = 2 then s.afterLoad g it all (fun s => s.mergeStep g u c it)
  else if it.phase = 3 then s.afterLoad g it [0] (fun s => s.pass2Step g u c it)
  else s.afterLoad g it all (fun s => s.finishStep g u c it)

/-- SELECT: the riddle unit of a bay examines its next group, or finishes its row. -/
def State.doSelect (s : State) (id u : Nat) : State :=
  if !s.doing id opSelect then s
  else match Tbl.find? (s.cmd id).busy u with
    | some it => s.onBay id u (fun s => s.selectStep id u it)
    | none => s

def execSelect (c bay : Nat) (s : State) : Host.Outcome State Fault Refusal := .next (s.settled (fun s => s.doSelect c bay))

/-! ## Claims (R173, R236) -/

/-- Items of a phase of a row that are in progress or saved. -/
def Cmd.inPhase (c : Cmd) (row phase : Nat) : Nat :=
  let is := fun it : Item => decide (it.row = row) && decide (it.phase = phase)
  (c.busy.filter (fun e => is e.2)).length + (c.images.filter is).length

/-- The ready item of an unfinished row that comes first by phase and segment. -/
def Cmd.readyIn (c : Cmd) (row : Nat) (r : RowAcc) : Option Item :=
  let n := seS c.block
  if c.next < c.items ∧ c.next / n = row then some { item := c.next, row := row, seg := c.next % n }
  else if r.pass1Left ≠ 0 ∨ c.inPhase row 2 ≠ 0 then none
  else
    let claimed := n - r.pass2Left + c.inPhase row 3
    if seExp c.block ∧ claimed < n then some { phase := 3, row := row, seg := claimed }
    else if r.pass2Left = 0 ∧ c.inPhase row 4 = 0 then some { phase := 4, row := row }
    else none

/-- The lowest-numbered ready item of a selection: by row, then phase, then segment. -/
def Cmd.readyItem (c : Cmd) : Option Item :=
  match c.rows.findSome? (fun e => c.readyIn e.1 e.2) with
  | some it => some it
  | none =>
    let n := seS c.block
    if c.next < c.items then some { item := c.next, row := c.next / n, seg := c.next % n } else none

/-- A free riddle unit takes the lowest-numbered ready item. -/
def State.claimSelect (s : State) (id u : Nat) : State :=
  let c := s.cmd id
  if c.grant.any (fun e => e.1 == u) && (Tbl.find? c.busy u).isNone then
    match c.readyItem with
    | none => s
    | some it =>
      let n := seS c.block
      let s := if it.phase = 1 then s.updCmd id (fun c => { c with next := c.next + 1 }) else s
      let s := if (Tbl.find? c.rows it.row).isSome then s
        else s.updRow id it.row (fun r => { r with pass1Left := n, pass2Left := if seExp c.block then n else 0 })
      s.setBusy id u { it with engine := u }
  else s

/-- WORK_ITEM_CLAIM: a free engine of a slab run, gather or selection takes its next item. -/
def State.doClaim (s : State) (id u : Nat) : State :=
  if s.doing id opSlab || s.doing id opGather then s.claimItem id u
  else if s.doing id opSelect then s.claimSelect id u
  else s

def execWorkItemClaim (c engine : Nat) (s : State) : Host.Outcome State Fault Refusal := .next (s.settled (fun s => s.doClaim c engine))

end Sys2Proof.Machine
end

