-- ==== Sys2Proof/Machine/Sweld.lean ====
section
/-! DEFINITION. The Sweld link layer (spec/12 R268 to R272) and its messages (R282): flits, credits, retry, and TIME across
a tray (R284). -/

namespace Sys2Proof.Machine

/-! ## Ports -/

/-- A port that carries traffic. -/
def State.portUp (s : State) (p : Nat) : Bool :=
  s.powered && decide ((s.port p).state = .up) && decide ((s.port p).unit = .up)

def portQuoin (p : Nat) : Bool := decide (8 ≤ p)

/-- The TIME master (R284): the lowest PKG_ID over the UP ports where it is below this package's own. -/
def State.remaster (s : State) : State :=
  let ids := ((List.range 16).filter (fun p => s.portUp p && (s.port p).remoteValid)).map (fun p => (s.port p).remotePkg)
  let own := s.pins.pkgId.toNat
  let m := ids.foldl min own
  if m = s.sweld.masterPkg ∧ s.sweld.master = decide (m = own) then s
  else { s with sweld := { s.sweld with
      masterPkg := m, master := decide (m = own), aligned := false, slewing := false, offset := 0 } }

/-- A link starts with empty buffers, LSEQ 0 and the credit of the receive buffers of Table 12.1. -/
def Port.freshLink (v : Port) : Port :=
  { v with txSeq := 0, rxSeq := 0, nakSent := false, replay := [], creditData := 512, creditCtrl := 64, freedData := 0
           freedCtrl := 0, ctrlRun := 0, outCtrl := [], outData := [], inCtrl := [], inData := [], wire := [] }

/-- The lanes a port runs on (R268): eight, or four when a lane of either half failed. -/
def Port.setLanes (v : Port) (lanes : Byte) : Port := { v with lanes := lanes, x4 := decide (lanes ≠ 0xFF) }

/-! ## The streams of a port -/

def streamKey (p n : Nat) : Nat := p * 65536 + n

def State.outStream (s : State) (p n : Nat) : Option OutStream := Tbl.find? s.sweld.outs (streamKey p n)
def State.inStream (s : State) (p n : Nat) : Option InStream := Tbl.find? s.sweld.ins (streamKey p n)

def State.setOut (s : State) (p n : Nat) (o : OutStream) : State :=
  { s with sweld := { s.sweld with outs := Tbl.put s.sweld.outs (streamKey p n) o } }
def State.setIn (s : State) (p n : Nat) (i : InStream) : State :=
  { s with sweld := { s.sweld with ins := Tbl.put s.sweld.ins (streamKey p n) i } }

/-- The outbound and inbound streams of a port: numbers and streams. -/
def State.outsOn (s : State) (p : Nat) : List (Nat × OutStream) :=
  (s.sweld.outs.filter (fun e => decide (e.1 / 65536 = p))).map (fun e => (e.1 % 65536, e.2))
def State.insOn (s : State) (p : Nat) : List (Nat × InStream) :=
  (s.sweld.ins.filter (fun e => decide (e.1 / 65536 = p))).map (fun e => (e.1 % 65536, e.2))

/-- A drained port is powered off (R289): management shows OFF and data DOWN. -/
def State.cutPort (s : State) (p : Nat) : State :=
  let s := s.closeShield (unitPort p) 5 p
  let s := s.updPort p (fun v => { v.freshLink with
    state := .off, unit := .down, mgmt := .off, draining := none, x4 := false, lanes := 0
    remotePkg := 0, remotePort := 0, remoteValid := false, aborts := [], rr := {} })
  { s with plb := { s.plb with unitDone := true } }.remaster

/-- A port that drains for POWER_OFF is powered off once its streams have closed. -/
def State.settlePort (s : State) (p : Nat) : State :=
  let v := s.port p
  if v.draining.isSome && decide (v.unit = .up) && (s.outsOn p).isEmpty && (s.insOn p).isEmpty then s.cutPort p else s

def State.delOut (s : State) (p n : Nat) : State :=
  { s with sweld := { s.sweld with outs := Tbl.del s.sweld.outs (streamKey p n) } }.settlePort p
def State.delIn (s : State) (p n : Nat) : State :=
  { s with sweld := { s.sweld with ins := Tbl.del s.sweld.ins (streamKey p n) } }.settlePort p

/-! ## Sending flits (R270) -/

/-- Fills a payload with waiting messages, back to back; a message may go on in the next flit. The answer holds the messages
that end in it. -/
def fillPayload : Nat → List Msg → Bytes × List Msg × List Msg
  | _, [] => ([], [], [])
  | room, m :: t =>
    if m.bytes.length ≤ room then
      let (b, c, r) := fillPayload (room - m.bytes.length) t
      (m.bytes ++ b, m :: c, r)
    else (m.bytes.take room, [], { m with bytes := m.bytes.drop room } :: t)

/-- The 256 bytes of a flit (Table 12.1); the CRC's inverted bits are those of an injection. -/
def flitBytes (lseq ftype ack nak freedData freedCtrl : Nat) (payload : Bytes) (inv : Nat) : Bytes :=
  let b := leBytes 2 (lseq + field 12 ftype) ++ leBytes 2 (ack + field 12 1 + field 13 nak) ++ leBytes 2 freedData
    ++ leBytes 1 (min 255 freedCtrl) ++ List.replicate 5 0 ++ bytesAt payload 0 240
  b ++ leBytes 4 ((crc32c b).toNat ^^^ inv)

/-- Puts a flit on the wire, with the acknowledgement and the credits it carries. -/
def State.putFlit (s : State) (p lseq ftype nak : Nat) (payload : Bytes) : State :=
  let (m, s) := if ftype = 0 then (0, s) else s.injected 5 (unitPort p)
  s.updPort p (fun v => { v with
    wire := flitBytes lseq ftype ((v.rxSeq - 1).toNat) nak v.freedData v.freedCtrl payload m
    freedData := 0, freedCtrl := v.freedCtrl - min 255 v.freedCtrl })

/-- An IDLE flit, which carries an acknowledgement or a NAK. -/
def State.sendIdle (s : State) (p : Nat) (nak : Bool) : State := s.putFlit p 0 0 (ofBool nak) []

/-- The channel that the next flit serves: true is CTRL (R270). -/
def Port.nextChannel (v : Port) : Option Bool :=
  let ctrl := !v.outCtrl.isEmpty && decide (0 < v.creditCtrl)
  let data := !v.outData.isEmpty && decide (0 < v.creditData)
  if 1024 ≤ v.replay.length then none
  else if ctrl && !(data && decide (15 ≤ v.ctrlRun)) then some true
  else if data then some false
  else none

/-- Sends the flits that credit and the replay buffer allow. -/
def pumpFlits (p : Nat) : Nat → State → State
  | 0, s => s
  | fuel + 1, s =>
    let v := s.port p
    match v.nextChannel with
    | none => s
    | some ctrl =>
      let (b, ended, rest) := fillPayload 240 (if ctrl then v.outCtrl else v.outData)
      let f : SentFlit := { lseq := v.txSeq, ctrl := ctrl, payload := b, closes := ended.filterMap (·.close)
                            aborts := ended.filterMap (·.abort) }
      let s := s.updPort p (fun v => { v with
        txSeq := v.txSeq + 1
        progress := if v.replay.isEmpty then s.time else v.progress
        replay := v.replay ++ [f]
        ctrlRun := if ctrl && !v.outData.isEmpty then v.ctrlRun + 1 else 0
        outCtrl := if ctrl then rest else v.outCtrl
        outData := if ctrl then v.outData else rest
        creditCtrl := if ctrl then v.creditCtrl - 1 else v.creditCtrl
        creditData := if ctrl then v.creditData else v.creditData - 1 })
      pumpFlits p fuel (s.putFlit p f.lseq.toNat (if ctrl then 2 else 1) 0 b)

/-- Flits go out while they can: at most one for each credit. -/
def State.pump (s : State) (p : Nat) : State := if s.portUp p then pumpFlits p 576 s else s

/-! ## Messages (R282) -/

def mtOpen : Nat := 1
def mtOpenAck : Nat := 2
def mtRefuse : Nat := 3
def mtMember : Nat := 4
def mtCapstone : Nat := 5
def mtLanded : Nat := 6
def mtCapDone : Nat := 7
def mtClose : Nat := 8
def mtAbort : Nat := 9
def mtBeacon : Nat := 10

/-- The bytes of a message (Table 12.5). -/
def msgBytes (mtype stream value : Nat) (body : Bytes) : Bytes :=
  leBytes 2 mtype ++ leBytes 2 body.length ++ leBytes 2 stream ++ leBytes 2 0 ++ leBytes 4 value ++ leBytes 4 0 ++ body

/-- Queues a message on its channel and sends what can be sent. -/
def State.sendMsg (s : State) (p mtype stream value : Nat) (body : Bytes) : State :=
  let m : Msg := { bytes := msgBytes mtype stream value body, close := if mtype = mtClose then some stream else none
                   abort := if mtype = mtAbort then some (stream, value) else none }
  let s := s.updPort p (fun v =>
    if mtype = mtMember ∨ mtype = mtCapstone then { v with outData := v.outData ++ [m] }
    else { v with outCtrl := v.outCtrl ++ [m]
                  aborts := v.aborts.filter (fun e => !m.abort.toList.contains e) ++ m.abort.toList })
  s.pump p

/-- The OPEN body (R282). -/
def openBytes (b : OpenBody) : Bytes :=
  leBytes 1 b.src.toNat ++ leBytes 1 b.dst.toNat ++ leBytes 1 (ofBool b.arrival + 2 * ofBool b.flag) ++ leBytes 5 0
    ++ leBytes 8 b.dest.toNat ++ leBytes 8 b.len.toNat ++ leBytes 8 b.flagAddr.toNat ++ leBytes 8 b.tag.toNat
    ++ leBytes 8 0

/-- What an OPEN body says. -/
def openOf (b : Bytes) : OpenBody :=
  { src := BitVec.ofNat 8 (byteAt b 0), dst := BitVec.ofNat 8 (byteAt b 1), arrival := bitAt (byteAt b 2) 0
    flag := bitAt (byteAt b 2) 1, dest := BitVec.ofNat 64 (leAt b 8 8), len := BitVec.ofNat 64 (leAt b 0x10 8)
    flagAddr := BitVec.ofNat 64 (leAt b 0x18 8), tag := BitVec.ofNat 64 (leAt b 0x20 8) }

/-- A message with a reserved MTYPE or a reserved field that is not zero is discarded, counted and reported (R282). -/
def State.malformed (s : State) (p mtype : Nat) : State :=
  let s := { s with sweld := { s.sweld with malformed := satAdd 16 s.sweld.malformed 1 } }
  s.raise fcMalformed { unit := unitPort p, info0 := mtype }

def execMalformedMessage (p : Fin 16) (mtype : Byte) (s : State) : Host.Outcome State Fault Refusal :=
  .next (if s.portUp p.val then s.malformed p.val mtype.toNat else s)

/-- A message as received: type, stream, value, body. -/
structure RxMsg where
  mtype : Nat
  stream : Nat
  value : Nat
  body : Bytes
deriving DecidableEq, Repr

/-- The length of the body of a message type, where it is fixed. -/
def bodyOk (mtype len : Nat) : Bool :=
  if mtype = mtOpen then len == 48
  else if mtype = mtBeacon then len == 16
  else if mtype = mtCapstone then len == 128
  else if mtype = mtMember then decide (0 < len)
  else len == 0

/-- The reserved fields of a header and of an OPEN body are zero. -/
def reservedOk (h body : Bytes) (mtype : Nat) : Bool :=
  byteAt h 1 == 0 && leAt h 6 2 == 0 && leAt h 12 4 == 0
    && (mtype != mtOpen || (leAt body 3 5 == 0 && leAt body 0x28 8 == 0 && decide (byteAt body 2 < 4)))

/-- What the received bytes of a channel begin with. -/
inductive Parsed where
  /-- Nothing whole. -/
  | none
  /-- Zeros fill the rest of the flit (notes/assumptions/41.md). -/
  | padding
  | bad (mtype : Nat) (rest : Bytes)
  | msg (m : RxMsg) (rest : Bytes)

def parseMsg (b : Bytes) : Parsed :=
  if b.length < 16 then .none
  else
    let mtype := byteAt b 0
    let len := leAt b 2 2
    if allZero b then .padding
    else if 512 < len ∨ len % 16 ≠ 0 then .bad mtype []
    else if b.length < 16 + len then .none
    else
      let body := bytesAt b 16 len
      let rest := b.drop (16 + len)
      if mtype = 0 ∨ 10 < mtype ∨ !bodyOk mtype len ∨ !reservedOk (b.take 16) body mtype then .bad mtype rest
      else .msg { mtype := mtype, stream := leAt b 4 2, value := leAt b 8 4, body := body } rest

/-! ## Link recovery (R272) -/

/-- A port enters RECOVERING: replay buffers are discarded, and stream state is kept. -/
def State.recover (s : State) (p : Nat) : State :=
  let s := s.updPort p (fun v => { v.freshLink with
    state := .recovering, recoverFrom := s.time, recoveries := satAdd 16 v.recoveries 1 })
  s.remaster

def execLinkRecovery (p : Fin 16) (s : State) : Host.Outcome State Fault Refusal :=
  .next (if s.portUp p.val then s.recover p.val else s)

/-! ## Acknowledgement and retry (R271) -/

/-- An ACK_SEQ covers an LSEQ. -/
def ackCovered (ack lseq : BitVec 12) : Bool := decide ((ack - lseq).toNat < 2048)

/-- Flits acknowledged leave the replay buffer; a stream whose CLOSE they carried has its number free again (R278), and an
ABORT need not go again. -/
def State.takeAck (s : State) (p : Nat) (ack : BitVec 12) : State :=
  let v := s.port p
  let gone := v.replay.filter (fun f => ackCovered ack f.lseq)
  if gone = [] then s
  else
    let s := s.updPort p (fun v => { v with
      replay := v.replay.filter (fun f => !ackCovered ack f.lseq), progress := s.time
      aborts := v.aborts.filter (fun e => !(gone.flatMap (·.aborts)).contains e) })
    (gone.flatMap (·.closes)).foldl (fun s n => s.delOut p n) s

/-- The sender resends from the oldest unacknowledged flit; a flit resent eight times in a row brings link recovery. -/
def State.resend (s : State) (p : Nat) : State :=
  let v := s.port p
  let s := s.updPort p (fun v => { v with
    replay := v.replay.map (fun f => { f with resends := f.resends + 1 })
    replays := satAdd 16 v.replays v.replay.length, progress := s.time })
  if v.replay.any (fun f => decide (7 ≤ f.resends)) then s.recover p
  else v.replay.foldl (fun s f => s.putFlit p f.lseq.toNat (if f.ctrl then 2 else 1) 0 f.payload) s

/-- REPLAY_TIMEOUT: 2 µs without ACK progress while flits are unacknowledged. -/
def State.doReplayTimeout (s : State) (p : Nat) : State :=
  let v := s.port p
  if s.portUp p && !v.replay.isEmpty && decide (v.progress + 2000 ≤ s.time) then s.resend p else s

def execReplayTimeout (p : Fin 16) (s : State) : Host.Outcome State Fault Refusal := .next (s.doReplayTimeout p.val)

/-- The acknowledgement, credits and NAK that a flit carries. -/
def State.takeHeader (s : State) (p : Nat) (flit : Bytes) : State :=
  let a := leAt flit 2 2
  let ack : BitVec 12 := BitVec.ofNat 12 a
  let s := s.updPort p (fun v => { v with
    creditData := min 512 (v.creditData + leAt flit 4 2), creditCtrl := min 64 (v.creditCtrl + byteAt flit 6) })
  let s := if bitAt a 12 then s.takeAck p ack else s
  if bitAt a 13 && !(s.port p).replay.isEmpty then s.resend p else s

/-- A discarded or early flit is answered with NAK once (R271). -/
def State.nakOnce (s : State) (p : Nat) : State :=
  if (s.port p).nakSent then s
  else (s.sendIdle p true).updPort p (fun v => { v with nakSent := true })

/-! ## TIME across a tray (R284) -/

/-- BEACON_SEND: a BEACON on every UP port. -/
def State.doBeaconSend (s : State) : State :=
  (List.range 16).foldl (fun s p =>
    if s.portUp p then
      let v := s.port p
      let s := s.updPort p (fun v => { v with beaconTx := s.time })
      s.sendMsg p mtBeacon 0 0 (leBytes 8 s.time ++ leBytes 8 v.lastRx)
    else s) s

def execBeaconSend (s : State) : Host.Outcome State Fault Refusal := .next s.doBeaconSend

/-- TIME steps forward, and with it the stamps that round trips are measured from. -/
def State.stepTime (s : State) (d : Nat) : State :=
  let moved := fun t : Nat => if t = 0 then 0 else t + d
  let s := { s with time := (s.time + d) % 2 ^ 64 }
  (List.range 16).foldl (fun s p =>
    s.updPort p (fun v => { v with beaconTx := moved v.beaconTx, lastRx := moved v.lastRx })) s

/-- A received BEACON: half the measured round trip gives the neighbour's TIME now, and TIME is stepped or slewed. -/
def State.rxBeacon (s : State) (p time lastRx : Nat) : State :=
  let v := s.port p
  let delay := if lastRx = 0 ∨ v.beaconTx = 0 then 0 else ((s.time - v.beaconTx) - (time - lastRx)) / 2
  let off : Int := (time : Int) + delay - s.time
  let s := s.updPort p (fun v => { v with lastRx := s.time })
  let fromMaster := !s.sweld.master && decide (v.remotePkg = s.sweld.masterPkg)
  if 1000 < off then
    { s.stepTime off.toNat with
      sweld := { (s.stepTime off.toNat).sweld with
        steps := satAdd 16 s.sweld.steps 1, aligned := false, slewing := false, offset := 0
        measured := if fromMaster then off else s.sweld.measured } }
  else if fromMaster then
    { s with sweld := { s.sweld with
        measured := off, offset := off, slewing := decide (2 < off.natAbs), aligned := decide (off.natAbs ≤ 20) } }
  else if s.sweld.master then { s with sweld := { s.sweld with aligned := true, measured := 0 } }
  else s

def execBeacon (p : Fin 16) (time lastRx : W64) (s : State) : Host.Outcome State Fault Refusal :=
  .next (if s.portUp p.val then s.rxBeacon p.val time.toNat lastRx.toNat else s)

/-- TIME_BEACON (R236): quoin 0's beacon, every 1 µs, steers every die's TIME. -/
def State.doTimeBeacon (s : State) : State :=
  if !s.powered || s.fab.beaconAt.any (fun t => decide (s.dev.ticks < t + 1000)) then s
  else ({ s with fab := { s.fab with beaconAt := some s.dev.ticks } }).alignDies

def execTimeBeacon (s : State) : Host.Outcome State Fault Refusal := .next s.doTimeBeacon

/-! ## Training (R268) -/

/-- PORT_TRAINED: the port comes UP and records what the far end sent. -/
def State.doPortTrained (s : State) (p : Nat) (lanes : Byte) (pkg rport : Nat) : State :=
  if s.powered && decide ((s.port p).state = .training) && decide ((s.port p).unit = .up) then
    (s.updPort p (fun v => { (v.freshLink).setLanes lanes with
      state := .up, remotePkg := pkg, remotePort := rport, remoteValid := true })).remaster
  else s

def execPortTrained (p : Fin 16) (lanes : Byte) (remotePkg remotePort : BitVec 4) (s : State) :
    Host.Outcome State Fault Refusal := .next (s.doPortTrained p.val lanes remotePkg.toNat remotePort.toNat)

end Sys2Proof.Machine
end

