-- ==== Sys2Proof/Machine/Streams.lean ====
section
/-! DEFINITION. Sweld streams (spec/12 R273 to R283): SWELD_STREAM SEND and EXPECT, what each message does, and how streams
break. -/

namespace Sys2Proof.Machine

/-! ## Breaking (R281) -/

def State.countBroken (s : State) : State :=
  { s with sweld := { s.sweld with broken := satAdd 16 s.sweld.broken 1 } }

/-- An outbound stream breaks: its SEND stops as given. -/
def State.breakOut (s : State) (p n : Nat) (st : Stop) : State :=
  match s.outStream p n with
  | some o => ((s.stopCmd o.cmd st).delOut p n).countBroken
  | none => s

/-- An inbound stream breaks: its capstone is discarded, and an ARRIVAL buffer goes back to the pool. -/
def State.breakIn (s : State) (p n : Nat) : State :=
  match s.inStream p n with
  | some i =>
    let s := match i.buffer with
      | some b => if i.applied then s else s.freeBuffer b
      | none => s
    (s.delIn p n).countBroken
  | none => s

/-- The receiver breaks an inbound stream and tells the sender. -/
def State.abortIn (s : State) (p n reason : Nat) : State := (s.breakIn p n).sendMsg p mtAbort n reason []

/-- The sender breaks an outbound stream and tells the receiver. -/
def State.abortOut (s : State) (p n : Nat) (st : Stop) : State := (s.breakOut p n st).sendMsg p mtAbort n 0 []

/-- Every stream of a port breaks, as at a port reset (Table 12.4). -/
def State.breakPort (s : State) (p : Nat) : State :=
  let s := (s.outsOn p).foldl (fun s e => s.breakOut p e.1 { outcome := ocAborted, detail := 5, arg := p }) s
  (s.insOn p).foldl (fun s e => s.breakIn p e.1) s

/-- Every inbound stream of a slice breaks on the receiver's account; the senders end with SHIELD_ANSWER. -/
def State.breakInbound (s : State) (slice : Nat) : State :=
  (s.sweld.ins.filter (fun e => decide (e.2.dst = slice))).foldl
    (fun s e => s.abortIn (e.1 / 65536) (e.1 % 65536) 4) s

/-- Every outbound stream of a slice's commands is aborted. -/
def State.abortSends (s : State) (slice : Nat) (st : Stop) : State :=
  (s.sweld.outs.filter (fun e => decide ((s.cmd e.2.cmd).slice = slice) && s.hasCmd e.2.cmd)).foldl
    (fun s e => s.abortOut (e.1 / 65536) (e.1 % 65536) st) s

/-! ## SEND -/

/-- Members of a stream of `len` bytes (R277). -/
def membersOf (len : Nat) : Nat := ceilDiv (len - 128) 512

/-- The bytes of member k. -/
def memberLen (len k : Nat) : Nat := min 512 (len - 128 - 512 * k)

/-- Bytes waiting to go out on a port. -/
def Port.queued (v : Port) : Nat := ((v.outCtrl ++ v.outData).map (fun m => m.bytes.length)).foldl (· + ·) 0

/-- A port on which new streams may open. -/
def State.portOpens (s : State) (p pkg : Nat) : Bool :=
  let v := s.port p
  s.portUp p && decide (v.mgmt = .on) && v.remoteValid && decide (v.remotePkg = pkg)
    && decide ((s.outsOn p).length < 256)

/-- The port of a new stream: the fewest bytes queued, then the lower port (R276). -/
def State.choosePort (s : State) (pkg : Nat) : Option Nat :=
  ((List.range 16).filter (fun p => s.portOpens p pkg)).foldl
    (fun (best : Option Nat) p => match best with
      | some q => if (s.port p).queued < (s.port q).queued then some p else best
      | none => some p) none

/-- A SEND ends REJECTED NOT_PERMITTED with a reason of Table 12.3. -/
def State.refuseSend (s : State) (id reason : Nat) : State :=
  s.completeWith id { outcome := ocRejected, detail := rjPermit, arg := reason } s.time none

def sendOpen (b : Bytes) (slice remote : Nat) : OpenBody :=
  { src := BitVec.ofNat 8 slice, dst := BitVec.ofNat 8 remote, arrival := swArrival b, flag := swFlag b
    dest := BitVec.ofNat 64 (swDest b), len := BitVec.ofNat 64 (swLen b), flagAddr := BitVec.ofNat 64 (swFlagAddr b)
    tag := BitVec.ofNat 64 (swTag b) }

/-- The peer entry that a SEND names. -/
def State.peerOf (s : State) (c : Cmd) : Peer := Tbl.get {} (s.slice c.slice).peers (swPeer c.block)

/-- Sends the OPEN of a SEND. -/
def State.sendOpenMsg (s : State) (p n id remote : Nat) : State :=
  let c := s.cmd id
  s.sendMsg p mtOpen n 0 (openBytes (sendOpen c.block c.slice remote))

/-- The lowest stream number of a port that no stream holds and no ABORT still names. -/
def State.freeStream (s : State) (p : Nat) : Nat :=
  let used := (s.outsOn p).map (·.1) ++ (s.port p).aborts.map (·.1)
  ((List.range (used.length + 1)).find? (fun n => !used.contains n)).getD 0

/-- A SEND opens its stream (R276). -/
def State.openSend (s : State) (id : Nat) : State :=
  let c := s.cmd id
  let e := s.peerOf c
  if !e.valid then s.refuseSend id 1
  else match s.choosePort e.pkg with
    | none => s.refuseSend id 2
    | some p =>
      let n := s.freeStream p
      (s.setOut p n { cmd := id, slice := c.slice, remote := e.remote, firstOpen := s.time }).sendOpenMsg p n id e.remote

/-- Bytes of a member or capstone sent or received for a slice (Tables 14.6, 14.7). -/
def State.countSweld (s : State) (p slice n : Nat) (tx : Bool) : State :=
  (s.count slice 13 n).event (if tx then 0x50 else 0x51) (unitPort p) (some slice) n

/-- Reads part of the source and sends it; a fault of the read aborts the stream (Table 12.4). -/
def State.sendPart (s : State) (id p n off len mtype sseq : Nat) (o : OutStream) : State :=
  let c := s.cmd id
  match s.agRead (s.quoinOf id) (swSrc c.block + off) len with
  | (s, none) => s.abortOut p n { outcome := ocPartial, detail := 1, arg := 0 }
  | (s, some b) => ((s.setOut p n o).countSweld p c.slice len true).sendMsg p mtype n sseq b

/-- The next member, or the capstone, of an open stream (R277). -/
def State.sendNext (s : State) (id p n : Nat) (o : OutStream) : State :=
  let len := swLen (s.cmd id).block
  let m := membersOf len
  let k := o.sent
  if k < m then
    if o.landed + 1024 ≤ k then s
    else s.sendPart id p n (512 * k) (memberLen len k) mtMember k { o with
      sent := k + 1, top := max o.top (k + 1), resends := if k < o.top then o.resends + 1 else o.resends }
  else if o.capSent then s
  else s.sendPart id p n (len - 128) 128 mtCapstone m { o with capSent := true, capTop := true }

/-! ### Port arbitration (R277) -/

/-- A stream has a member or its capstone to send now. -/
def State.sendable (s : State) (o : OutStream) : Bool :=
  let m := membersOf (swLen (s.cmd o.cmd).block)
  s.doing o.cmd opSweld && o.opened && !o.closing
    && (if o.sent < m then decide (o.sent < o.landed + 1024) else !o.capSent)

def State.outClass (s : State) (o : OutStream) : Nat := dClass (s.cmd o.cmd).desc

/-- A SEND goes before another of its class: the earlier DEADLINE, then the older command; no DEADLINE is the latest. -/
def State.sendsBefore (s : State) (a b : OutStream) : Bool :=
  let due := fun o : OutStream => let d := dDeadline (s.cmd o.cmd).desc; if d = 0 then 2 ^ 64 else d
  decide (due a < due b) || (decide (due a = due b) && decide (a.cmd < b.cmd))

/-- The class whose turn it is on a port, by the weights of bridge 10 or 12, with the round robin that follows. -/
def State.portTurn (s : State) (p : Nat) : Option (Nat × Flow) :=
  let cs := ((s.outsOn p).filter (fun e => s.sendable e.2)).map (fun e => s.outClass e.2)
  (s.port p).rr.pickOf ((List.range 8).filter cs.contains) (s.weight (if portQuoin p then 12 else 10)) s.background

/-- The next stream that a port serves, and the round robin that follows. -/
def State.nextStream (s : State) (p : Nat) : Option (Nat × Flow) :=
  match s.portTurn p with
  | none => none
  | some (c, f) =>
    let here := (s.outsOn p).filter (fun e => s.sendable e.2 && decide (s.outClass e.2 = c))
    match here with
    | [] => none
    | e :: t => some ((t.foldl (fun b e => if s.sendsBefore e.2 b.2 then e else b) e).1, f)

/-- Flits of a message with a body of n bytes. -/
def msgFlits (n : Nat) : Nat := ceilDiv (16 + n) 240

/-- A stream sends when its port's arbitration comes to it; until then nothing happens. -/
def State.sendTurn (s : State) (id p n : Nat) (o : OutStream) : State :=
  match s.nextStream p with
  | none => s
  | some (k, f) =>
    if k ≠ n then s
    else
      let len := swLen (s.cmd id).block
      let body := if o.sent < membersOf len then memberLen len o.sent else 128
      (s.updPort p (fun v => { v with
        rr := f.spend (s.background (s.outClass o)) (msgFlits body - 1) })).sendNext id p n o

/-- The stream of a SEND: port, number and state. -/
def State.streamOf (s : State) (id : Nat) : Option (Nat × Nat × OutStream) :=
  (List.find? (fun e : Nat × OutStream => decide (e.2.cmd = id) && !e.2.closing) s.sweld.outs).map
    (fun e => (e.1 / 65536, e.1 % 65536, e.2))

/-- SWELD_SEND: a dispatched SEND opens its stream, or sends its next member or its capstone. -/
def State.doSweldSend (s : State) (id : Nat) : State :=
  if !s.doing id opSweld || swExpect (s.cmd id).block then s
  else match s.streamOf id with
    | none => s.openSend id
    | some (p, n, o) => if o.opened && s.portUp p then s.sendTurn id p n o else s

def execSweldSend (c : Nat) (s : State) : Host.Outcome State Fault Refusal := .next (s.settled (fun s => s.doSweldSend c))

/-- OPEN_ACK. -/
def State.rxOpenAck (s : State) (p n : Nat) : State :=
  match s.outStream p n with
  | some o => if o.opened then s else s.setOut p n { o with opened := true, busyAt := none }
  | none => s

/-- REFUSE: BUSY is retried, any other reason ends the SEND. -/
def State.rxRefuse (s : State) (p n reason : Nat) : State :=
  match s.outStream p n with
  | some o =>
    if o.opened then s
    else if reason = 9 then s.setOut p n { o with busyAt := some s.time }
    else (s.delOut p n).refuseSend o.cmd reason
  | none => s

/-- BUSY_RETRY: the OPEN goes again 10 µs after a BUSY, and 1 ms after the first OPEN the SEND ends. -/
def State.doBusyRetry (s : State) (id : Nat) : State :=
  match s.streamOf id with
  | some (p, n, o) =>
    match o.busyAt with
    | some t =>
      if !s.portUp p then s
      else if o.firstOpen + 1000000 ≤ s.time then (s.delOut p n).refuseSend id 9
      else if t + 10000 ≤ s.time then (s.setOut p n { o with busyAt := none }).sendOpenMsg p n id o.remote
      else s
    | none => s
  | none => s

def execBusyRetry (c : Nat) (s : State) : Host.Outcome State Fault Refusal := .next (s.doBusyRetry c)

/-- LANDED advances the sender's record of the landed prefix; members below it are not sent again (R280). -/
def State.rxLanded (s : State) (p n upTo : Nat) : State :=
  match s.outStream p n with
  | some o =>
    let l := max o.landed (min upTo o.top)
    s.setOut p n { o with landed := l, sent := max o.sent l }
  | none => s

/-- CAP_DONE: the SEND completes DONE and CLOSE is sent (R278). -/
def State.rxCapDone (s : State) (p n : Nat) : State :=
  match s.outStream p n with
  | some o =>
    if o.closing || !o.capTop then s
    else
      let s := s.updCmd o.cmd (fun c => { c with resA := p, resB := o.resends })
      let s := s.completeCmd o.cmd doneStop s.time
      (s.setOut p n { o with closing := true }).sendMsg p mtClose n 0 []
  | none => s

/-! ## The receiver -/

/-- An accept entry for the sending package and slice (R273). -/
def State.acceptFor (s : State) (p : Nat) (b : OpenBody) : Option Peer :=
  ((s.slice b.dst.toNat).accepts.map (·.2)).find? (fun e =>
    e.valid && decide (e.pkg = (s.port p).remotePkg) && decide (e.remote = b.src.toNat))

/-- Buffers of a slice's streams and of the slice. -/
def State.poolFull (s : State) (slice : Nat) : Bool :=
  decide ((s.slice slice).defn.payloadBuffers ≤ s.heldBuffers slice)

/-- The buffer that an allocation takes, which R110 leaves open: the lowest free one of the port's quoin, or else of the other
(DESIGN CHOICE, notes/assumptions/67.md). -/
def State.freeBufferFor (s : State) (p : Nat) : Option Nat :=
  let free := fun i : Nat => (s.buffer i).owner.isNone
  let lo := (List.range 8192).find? free
  let hi := ((List.range 8192).map (8192 + ·)).find? free
  if portQuoin p then hi.or lo else lo.or hi

/-- A range with write permission covers the bytes. -/
def State.mayLand (s : State) (slice addr len : Nat) : Bool :=
  match coverRange (s.slice slice).defn.ranges addr len with
  | some r => r.canWrite
  | none => false

/-- The CQ of an ARRIVAL cannot take its record (NO_CQ). -/
def State.noCq (s : State) (slice cq : Nat) : Bool :=
  decide ((s.slice slice).defn.cqCount ≤ cq) || !((s.slice slice).cq cq).enable

/-- The open checks of Table 12.3 at the receiver, in order. -/
def State.openReason (s : State) (p : Nat) (b : OpenBody) (e : Option Peer) : Option Nat :=
  let sl := b.dst.toNat
  let v := s.slice sl
  match e with
  | none => some 3
  | some e =>
    if v.state = .off ∨ v.state = .applying ∨ v.state = .frozen ∨ v.freezing.isSome then some 4
    else if !b.arrival && !s.mayLand sl b.dest.toNat b.len.toNat then some 5
    else if b.flag && !s.mayLand sl b.flagAddr.toNat 8 then some 6
    else if b.arrival && s.poolFull sl then some 7
    else if b.arrival && (s.freeBufferFor p).isNone then some 8
    else if 256 ≤ (s.insOn p).length then some 9
    else if b.arrival && s.noCq sl e.cq then some 10
    else none

/-- A refused open or arrival is counted (R276, R110). -/
def State.countRefused (s : State) (slice : Nat) (arrival : Bool) : State :=
  let s := { s with sweld := { s.sweld with refused := satAdd 16 s.sweld.refused 1 } }
  if arrival then s.updSlice slice (fun v => { v with refusedArrivals := satAdd 16 v.refusedArrivals 1 }) else s

/-- A buffer is allocated to a slice: its GEN advances (R110). -/
def State.allocBuffer (s : State) (i slice : Nat) : State :=
  s.setBuffer i { owner := some slice, gen := (s.buffer i).gen + 1, data := [] }

/-- OPEN (R276): an OPEN for a stream already held is acknowledged again (R280); a port that drains for POWER_OFF refuses
new ones with NO_PATH (R289). -/
def State.rxOpen (s : State) (p n : Nat) (b : OpenBody) : State :=
  if (s.inStream p n).isSome then s.sendMsg p mtOpenAck n 0 []
  else
    let e := s.acceptFor p b
    match (if (s.port p).mgmt = .on then s.openReason p b e else some 2) with
    | some r => (s.countRefused b.dst.toNat (r == 7 || r == 8)).sendMsg p mtRefuse n r []
    | none =>
      let buf := if b.arrival then s.freeBufferFor p else none
      let s := match buf with
        | some i => s.allocBuffer i b.dst.toNat
        | none => s
      let a := e.getD {}
      (s.setIn p n {
        src := b.src.toNat, dst := b.dst.toNat, arrival := b.arrival, flag := b.flag, dest := b.dest, len := b.len
        flagAddr := b.flagAddr, tag := b.tag, cls := a.cls, cq := a.cq, buffer := buf
        reportTime := s.time }).sendMsg p mtOpenAck n 0 []

/-- Writes pieces of a remote write at their home slices (R217); a closed shield ends it. -/
def landPieces (p slice : Nat) : List (Nat × Nat) → Bytes → State → State × Bool
  | [], _, s => (s, true)
  | (a, n) :: t, b, s =>
    match findRange (s.slice slice).defn.ranges a with
    | none => landPieces p slice t (b.drop n) s
    | some r =>
      let line := r.toDpa a / 128 * 128
      match s.lineWrite line (List.replicate (a % 128) 0 ++ b.take n) (maskOf (a % 128) n) true (placeOf (unitPort p)) with
      | (s, .ok) => landPieces p slice t (b.drop n) (s.serveWaiting line)
      | (s, .poison) =>
        landPieces p slice t (b.drop n) ((s.raise fcPoisonWrite
          { unit := unitPort p, slice := some slice, addr := some line, tva := some (a / 128 * 128) }).serveWaiting line)
      | (s, .shield _ _) => (s, false)

/-- Lands stream bytes: in the slice's memory, or in its pool buffer. -/
def State.landBytes (s : State) (p : Nat) (i : InStream) (off : Nat) (b : Bytes) : State × Bool :=
  match i.buffer with
  | some k =>
    let x := s.buffer k
    (s.setBuffer k { x with data := putBytes (bytesAt x.data 0 2048) off b }, true)
  | none => landPieces p i.dst (linePieces (i.dest.toNat + off) b.length) b (s.inClass i.cls)

/-- The landed prefix moves over the members marked behind it. -/
def advancePrefix : Nat → InStream → InStream
  | 0, i => i
  | fuel + 1, i =>
    if i.marks.getLsbD 0 then advancePrefix fuel { i with landed := i.landed + 1, marks := i.marks >>> 1 } else i

/-- MEMBER (R277): a duplicate is dropped; otherwise the member lands. -/
def State.rxMember (s : State) (p n sseq : Nat) (data : Bytes) : State :=
  match s.inStream p n with
  | none => s
  | some i =>
    let k := sseq - i.landed
    if sseq < i.landed ∨ i.marks.getLsbD k then
      { s with sweld := { s.sweld with duplicates := satAdd 16 s.sweld.duplicates 1 } }
    else if 1024 ≤ k ∨ membersOf i.len.toNat ≤ sseq ∨ data.length ≠ memberLen i.len.toNat sseq then s
    else
      let s := s.countSweld p i.dst data.length false
      match s.landBytes p i (512 * sseq) data with
      | (s, true) => s.setIn p n (advancePrefix 1025 { i with marks := i.marks ||| (1#1024 <<< k) })
      | (s, false) => s.abortIn p n 4

/-- LANDED_REPORT: the prefix is reported once it has advanced by 64 members or 2 µs have passed (R277). -/
def State.doLandedReport (s : State) (p n : Nat) : State :=
  match s.inStream p n with
  | some i =>
    if s.portUp p && (decide (i.reported + 64 ≤ i.landed) || decide (i.reportTime + 2000 ≤ s.time)) then
      (s.setIn p n { i with reported := i.landed, reportTime := s.time }).sendMsg p mtLanded n i.landed []
    else s
  | none => s

def execLandedReport (p : Fin 16) (stream : BitVec 16) (s : State) : Host.Outcome State Fault Refusal :=
  .next (s.doLandedReport p.val stream.toNat)

/-- CAPSTONE (R278): it is held until the prefix reaches m; a duplicate of one applied is answered again (R280). -/
def State.rxCapstone (s : State) (p n sseq : Nat) (data : Bytes) : State :=
  match s.inStream p n with
  | none => s
  | some i =>
    if i.applied then s.sendMsg p mtCapDone n 0 []
    else if i.capstone.isSome ∨ sseq ≠ membersOf i.len.toNat then s
    else (s.countSweld p i.dst 128 false).setIn p n { i with capstone := some data }

/-! ## EXPECT (R283) -/

/-- The slots of an EXPECT's command. -/
def expectSlots (c : Cmd) : List Nat := List.range (swSlots c.desc)

/-- Reads flag i with a VOLATILE read; the slot is committed when it is at or above TARGET. -/
def State.readFlag (s : State) (id i : Nat) : State :=
  let c := s.cmd id
  match s.agRead (s.quoinOf id) (swFlagAddr c.block + 8 * i) 8 with
  | (s, none) => s
  | (s, some b) =>
    match Tbl.find? s.sweld.expects id with
    | some e =>
      if swTarget c.block ≤ leVal b ∧ !e.committed.contains i then
        { s with sweld := { s.sweld with
            expects := Tbl.put s.sweld.expects id { e with committed := e.committed ++ [i] } } }
      else s
    | none => s

def State.committedOf (s : State) (id : Nat) : List Nat :=
  match Tbl.find? s.sweld.expects id with
  | some e => e.committed
  | none => []

/-- The EXPECT completes DONE once every slot is committed. -/
def State.expectDone (s : State) (id : Nat) : State :=
  let c := s.cmd id
  if s.doing id opSweld && (expectSlots c).all (fun i => (s.committedOf id).contains i) then
    (s.updCmd id (fun c => { c with resA := (expectSlots c).length % 65536, resB := 0 })).completeCmd id doneStop s.time
  else s

/-- Reads flags of an EXPECT. -/
def State.readFlags (s : State) (id : Nat) (slots : List Nat) : State :=
  (slots.foldl (fun s i => if (s.cmd id).stop.isSome then s else s.readFlag id i) s).expectDone id

/-- An inbound capstone of the slice has bumped a flag: every EXPECT that has it as a slot's flag reads it again. -/
def State.flagBumped (s : State) (slice flag : Nat) : State :=
  (s.sweld.expects.filter (fun e => decide (e.2.slice = slice))).foldl (fun s e =>
    let c := s.cmd e.1
    s.readFlags e.1 ((expectSlots c).filter (fun i => decide (swFlagAddr c.block + 8 * i = flag)))) s

/-- SWELD_EXPECT: the queue engine reads every flag at dispatch. -/
def State.doSweldExpect (s : State) (id : Nat) : State :=
  if !s.doing id opSweld || !swExpect (s.cmd id).block then s
  else match Tbl.find? s.sweld.expects id with
    | some e =>
      if e.read then s
      else
        let s := { s with sweld := { s.sweld with expects := Tbl.put s.sweld.expects id { e with read := true } } }
        s.readFlags id (expectSlots (s.cmd id))
    | none => s

def execSweldExpect (c : Nat) (s : State) : Host.Outcome State Fault Refusal := .next (s.settled (fun s => s.doSweldExpect c))

/-- FENCE_TIMEOUT: past FENCE_END the flags are read a last time, and the command ends. -/
def State.doFenceTimeout (s : State) (id : Nat) : State :=
  match Tbl.find? s.sweld.expects id with
  | some e =>
    if !s.doing id opSweld || decide (s.time ≤ e.fenceEnd) then s
    else
      let s := s.readFlags id (expectSlots (s.cmd id))
      if s.doing id opSweld && s.hasCmd id then
        let left := (expectSlots (s.cmd id)).length - (s.committedOf id).length
        s.completeCmd id { outcome := ocPartial, detail := 2, arg := left } s.time
      else s
  | none => s

def execFenceTimeout (c : Nat) (s : State) : Host.Outcome State Fault Refusal := .next (s.doFenceTimeout c)

/-! ## The capstone of a stream (R278, R279) -/

/-- A fault that a stream's flag meets, reported for the receiving slice. -/
def State.flagFault (s : State) (slice code flag : Nat) (f : FaultInfo) : State :=
  s.raise code { f with slice := some slice, tva := some (flag / 128 * 128) }

/-- The atomic ADD of 1 to a flag at its home slice (R216); false when a closed shield answered. -/
def State.remoteAdd (s : State) (p slice flag dpa : Nat) : State × Bool :=
  let line := dpa / 128 * 128
  let h := homeOf s.density line
  match ((s.holdWrite h.1 h.2).settleDir h.1 h.2).atomicAt dpa 8 .add .u64 1 0 with
  | (s, .old _ rar) =>
    let s := if rar && (s.slice slice).defn.rarFault then s.flagFault slice fcRar flag { unit := unitPort p, addr := some line } else s
    ((s.serveWaiting line).flagBumped slice flag, true)
  | (s, .bad c) => (s.flagFault slice fcUncorrectable flag { unit := unitPort p, addr := some line, info0 := c }, true)
  | (s, .poison) => (s.flagFault slice fcPoisonWrite flag { unit := unitPort p, addr := some line }, true)
  | (s, .shield _ _) => (s, false)

/-- The flag of a stream's capstone is bumped (R278), where its range grants read and write permission (R219, R216). -/
def State.remoteBump (s : State) (p slice flag : Nat) : State × Bool :=
  match findRange (s.slice slice).defn.ranges flag with
  | some r =>
    if r.canRead && r.canWrite then s.remoteAdd p slice flag (r.toDpa flag)
    else (s.flagFault slice fcTranslation flag { unit := unitPort p, addr := some flag, addrTva := true, info0 := 3 }, true)
  | none => (s.flagFault slice fcTranslation flag { unit := unitPort p, addr := some flag, addrTva := true, info0 := 3 }, true)

/-- The ARRIVAL record (R110): BUF_ID in RESULT, the payload length in DETAIL_ARG. -/
def State.arrivalRecord (s : State) (i : InStream) (k : Nat) : Rec :=
  { bytes := completionRecord i.tag.toNat 0 ocDone kindArrival 0 0 i.len.toNat 0 s.time
      (k + field 14 (s.buffer k).gen.toNat) .nothing
    notify := true, buffer := some k }

/-- The stream's own end at the receiver: its ARRIVAL record and CAP_DONE. -/
def State.capstoneSaid (s : State) (p n : Nat) (i : InStream) : State :=
  let s := s.setIn p n { i with applied := true, capstone := none }
  let s := match i.buffer with
    | some k => s.waitRecord i.dst i.cq (s.arrivalRecord i k)
    | none => s
  s.sendMsg p mtCapDone n 0 []

/-- Its flag goes before that; one that meets a closed shield breaks the stream (Table 12.4). -/
def State.capstoneDone (s : State) (p n : Nat) (i : InStream) : State :=
  if i.flag then
    match (s.inClass i.cls).remoteBump p i.dst i.flagAddr.toNat with
    | (s, true) => s.capstoneSaid p n i
    | (s, false) => s.abortIn p n 4
  else s.capstoneSaid p n i

/-- CAPSTONE_APPLY. -/
def State.doCapstoneApply (s : State) (p n : Nat) : State :=
  match s.inStream p n with
  | none => s
  | some i =>
    match i.capstone with
    | none => s
    | some data =>
      if !s.powered || i.applied || decide (i.landed ≠ membersOf i.len.toNat) then s
      else if i.arrival && s.noCq i.dst i.cq then (s.countRefused i.dst true).abortIn p n 10
      else match s.landBytes p i (i.len.toNat - 128) data with
        | (s, true) => s.capstoneDone p n i
        | (s, false) => s.abortIn p n 4

def execCapstoneApply (p : Fin 16) (stream : BitVec 16) (s : State) : Host.Outcome State Fault Refusal :=
  .next (s.settled (fun s => s.doCapstoneApply p.val stream.toNat))

/-- CLOSE: the receiver frees the stream; one it does not hold is ignored (R280). -/
def State.rxClose (s : State) (p n : Nat) : State :=
  match s.inStream p n with
  | some i => if i.applied then s.delIn p n else s.breakIn p n
  | none => s

/-- ABORT (R281): from the receiver it ends the SEND; from the sender it breaks the inbound stream. One of reason 0 is a
sender's (notes/assumptions/41.md). -/
def State.rxAbort (s : State) (p n reason : Nat) : State :=
  if reason = 0 then s.breakIn p n
  else match s.outStream p n with
    | some o =>
      if o.closing then s
      else if reason = 10 then ((s.delOut p n).countBroken).refuseSend o.cmd 10
      else s.breakOut p n { outcome := ocAborted, detail := 6, arg := 0 }
    | none => s

/-! ## The messages as commands, and flits received (R271) -/

/-- A message at an UP port. -/
def State.atPort (s : State) (p : Nat) (f : State → State) : State := if s.portUp p then f s else s

def execSweldOpen (p : Fin 16) (stream : BitVec 16) (body : OpenBody) (s : State) : Host.Outcome State Fault Refusal :=
  .next (s.atPort p.val (fun s => s.rxOpen p.val stream.toNat body))

def execOpenAck (p : Fin 16) (stream : BitVec 16) (s : State) : Host.Outcome State Fault Refusal :=
  .next (s.atPort p.val (fun s => s.rxOpenAck p.val stream.toNat))

def execRefuse (p : Fin 16) (stream : BitVec 16) (reason : W32) (s : State) : Host.Outcome State Fault Refusal :=
  .next (s.atPort p.val (fun s => s.rxRefuse p.val stream.toNat reason.toNat))

def execMember (p : Fin 16) (stream : BitVec 16) (sseq : W32) (data : Bytes) (s : State) :
    Host.Outcome State Fault Refusal :=
  .next (s.settled (fun s => s.atPort p.val (fun s => s.rxMember p.val stream.toNat sseq.toNat data)))

def execLanded (p : Fin 16) (stream : BitVec 16) (upTo : W32) (s : State) : Host.Outcome State Fault Refusal :=
  .next (s.atPort p.val (fun s => s.rxLanded p.val stream.toNat upTo.toNat))

def execCapstone (p : Fin 16) (stream : BitVec 16) (sseq : W32) (data : Bytes) (s : State) :
    Host.Outcome State Fault Refusal :=
  .next (s.atPort p.val (fun s => s.rxCapstone p.val stream.toNat sseq.toNat data))

def execCapDone (p : Fin 16) (stream : BitVec 16) (s : State) : Host.Outcome State Fault Refusal :=
  .next (s.atPort p.val (fun s => s.rxCapDone p.val stream.toNat))

def execClose (p : Fin 16) (stream : BitVec 16) (s : State) : Host.Outcome State Fault Refusal :=
  .next (s.atPort p.val (fun s => s.rxClose p.val stream.toNat))

def execAbort (p : Fin 16) (stream : BitVec 16) (reason : W32) (s : State) : Host.Outcome State Fault Refusal :=
  .next (s.atPort p.val (fun s => s.rxAbort p.val stream.toNat reason.toNat))

/-- A received message takes its effect. -/
def State.rxMsg (s : State) (p : Nat) (m : RxMsg) : State :=
  if m.mtype = mtOpen then s.rxOpen p m.stream (openOf m.body)
  else if m.mtype = mtOpenAck then s.rxOpenAck p m.stream
  else if m.mtype = mtRefuse then s.rxRefuse p m.stream m.value
  else if m.mtype = mtMember then s.rxMember p m.stream m.value m.body
  else if m.mtype = mtCapstone then s.rxCapstone p m.stream m.value m.body
  else if m.mtype = mtLanded then s.rxLanded p m.stream m.value
  else if m.mtype = mtCapDone then s.rxCapDone p m.stream
  else if m.mtype = mtClose then s.rxClose p m.stream
  else if m.mtype = mtAbort then s.rxAbort p m.stream m.value
  else s.rxBeacon p (leAt m.body 0 8) (leAt m.body 8 8)

/-- The messages that the received bytes of a channel hold, in order, and the bytes that are left. -/
def takeMsgs (p : Nat) : Nat → Bytes → State → State × Bytes
  | 0, b, s => (s, b)
  | fuel + 1, b, s =>
    match parseMsg b with
    | .none => (s, b)
    | .padding => (s, [])
    | .bad t rest => takeMsgs p fuel rest (s.malformed p t)
    | .msg m rest => takeMsgs p fuel rest (s.rxMsg p m)

/-- An accepted flit: its payload joins the channel's bytes, and whole messages take effect. -/
def State.acceptFlit (s : State) (p : Nat) (ctrl : Bool) (payload : Bytes) : State :=
  let v := s.port p
  let s := s.updPort p (fun v => { v with
    rxSeq := v.rxSeq + 1, nakSent := false
    freedCtrl := v.freedCtrl + ofBool ctrl, freedData := v.freedData + ofBool (!ctrl) })
  let (s, rest) := takeMsgs p 64 ((if ctrl then v.inCtrl else v.inData) ++ payload) s
  s.updPort p (fun v => if ctrl then { v with inCtrl := rest } else { v with inData := rest })

/-- FLIT_RECEIVED (R270, R271). -/
def State.doFlit (s : State) (p : Nat) (flit : Bytes) (fecOk : Bool) (fecSyms : Nat) : State :=
  if !s.portUp p then s
  else
    let s := s.updPort p (fun v => { v with fecCorrected := satAdd 32 v.fecCorrected fecSyms })
    if !fecOk || decide (leAt flit 252 4 ≠ (crc32c (flit.take 252)).toNat) then s.nakOnce p
    else
      let t := leAt flit 0 2
      let ftype := t / 4096
      let s := s.takeHeader p flit
      if !s.portUp p then s
      else if ftype = 0 then s.pump p
      else if 2 < ftype then s
      else
        let ahead := (BitVec.ofNat 12 t - (s.port p).rxSeq).toNat
        if ahead = 0 then
          let s := (s.acceptFlit p (ftype == 2) (bytesAt flit 12 240)).pump p
          if s.portUp p then s.sendIdle p false else s
        else if ahead < 2048 then s.nakOnce p
        else s.sendIdle p false

def execFlitReceived (p : Fin 16) (flit : Bytes) (fecOk : Bool) (fecSyms : Nat) (s : State) :
    Host.Outcome State Fault Refusal := .next (s.doFlit p.val flit fecOk fecSyms)

/-! ## After a link recovery (R280) -/

/-- What a port sends again for one inbound stream. -/
def State.resyncIn (s : State) (p : Nat) (e : Nat × InStream) : State :=
  let s := (s.setIn p e.1 { e.2 with reported := e.2.landed, reportTime := s.time }).sendMsg p mtLanded e.1 e.2.landed []
  if e.2.applied then s.sendMsg p mtCapDone e.1 0 [] else s

/-- What a port sends again for one outbound stream; members and capstone follow with SWELD_SEND. -/
def State.resyncOut (s : State) (p : Nat) (e : Nat × OutStream) : State :=
  let o := e.2
  if o.closing then s.sendMsg p mtClose e.1 0 []
  else if !o.opened then (s.setOut p e.1 { o with busyAt := none }).sendOpenMsg p e.1 o.cmd o.remote
  else s.setOut p e.1 { o with sent := o.landed, capSent := false }

/-- LINK_RECOVERED: the port is UP again; ABORTs that no acknowledgement covers go again, and its streams resynchronise. -/
def State.doLinkRecovered (s : State) (p : Nat) (lanes : Byte) : State :=
  let v := s.port p
  if !s.powered || decide (v.state ≠ .recovering) || decide (v.unit ≠ .up) then s
  else
    let s := (s.updPort p (fun v => { (v.freshLink).setLanes lanes with state := .up })).remaster
    let s := v.aborts.foldl (fun s e => s.sendMsg p mtAbort e.1 e.2 []) s
    let s := (s.insOn p).foldl (fun s e => s.resyncIn p e) s
    (s.outsOn p).foldl (fun s e => s.resyncOut p e) s

def execLinkRecovered (p : Fin 16) (lanes : Byte) (s : State) : Host.Outcome State Fault Refusal :=
  .next (s.doLinkRecovered p.val lanes)

/-! ## Peers (R273, R293) -/

/-- The end of a write to SWD_PEER_CTL. -/
def State.peerResult (s : State) (r : Nat) : State :=
  { s with sweld := { s.sweld with peerDone := true, peerResult := r } }

/-- PEER. -/
def State.doPeer (s : State) (slice index pkg remote : Nat) (valid : Bool) : State :=
  if !s.ready then s
  else if (s.slice slice).state = .off then s.peerResult 1
  else
    let e : Peer := if valid then { pkg := pkg, remote := remote, valid := true } else {}
    (s.updSlice slice (fun v => { v with peers := Tbl.set {} v.peers index e })).peerResult 0

def execPeer (slice : BitVec 8) (index : Fin 16) (pkg : BitVec 4) (remote : BitVec 8) (valid : Bool) (s : State) :
    Host.Outcome State Fault Refusal := .next (s.doPeer slice.toNat index.val pkg.toNat remote.toNat valid)

/-- ACCEPT. -/
def State.doAccept (s : State) (slice index pkg remote : Nat) (valid : Bool) (cls cq : Nat) : State :=
  let v := s.slice slice
  if !s.ready then s
  else if v.state = .off then s.peerResult 1
  else if !bitAt v.defn.classMask cls then s.peerResult 2
  else if valid && v.accepts.any (fun e => decide (e.1 ≠ index) && e.2.valid && decide (e.2.pkg = pkg)
      && decide (e.2.remote = remote)) then s.peerResult 3
  else
    let e : Peer := if valid then { pkg := pkg, remote := remote, valid := true, cls := cls, cq := cq } else {}
    (s.updSlice slice (fun v => { v with accepts := Tbl.set {} v.accepts index e })).peerResult 0

def execAccept (slice : BitVec 8) (index : Fin 16) (pkg : BitVec 4) (remote : BitVec 8) (valid : Bool) (cls : Fin 8)
    (cq : BitVec 4) (s : State) : Host.Outcome State Fault Refusal :=
  .next (s.doAccept slice.toNat index.val pkg.toNat remote.toNat valid cls.val cq.toNat)

end Sys2Proof.Machine
end

