-- ==== Sys2Proof/Machine/Repairs.lean ====
section
/-! DEFINITION. Field-repair entries as they are applied (spec/13 R319, R320): at bring-up step 2 and at a die reset. -/

namespace Sys2Proof.Machine

def kindRemap : Nat := 5
def kindPinKill : Nat := 6
def kindWayOff : Nat := 7

/-- UNIT, SPARE and ADDR of an entry (R319). -/
def entryUnit (e : Nat) : Nat := bitsOf e 9 4
def entrySpare (e : Nat) : Nat := bitsOf e 15 10
def entryAddr (e : Nat) : Nat := bitsOf e 47 16

/-- The row key of a DRAM_REMAP entry. -/
def entryRow (e : Nat) : Nat := bitsOf e 19 16 * 2 ^ 20 + bitsOf e 38 20

/-- What an entry names: its kind, its unit and the row, column, pin or way. -/
def entryNames (e : Nat) : Nat × Nat × Nat :=
  (e % 16, entryUnit e,
    if e % 16 = kindRemap then entryRow e
    else if e % 16 = kindPinKill ∨ e % 16 = kindWayOff then entryAddr e % 16 else entryAddr e)

/-- An entry whose CRC checks. -/
def entryGood (e : Nat) : Bool := decide (e = repairEntryWithCrc (e % 2 ^ 56))

/-- A later good entry names the same thing and supersedes this one (R320). -/
def superseded (e : Nat) (later : List W64) : Bool :=
  later.any (fun x => decide (x ≠ 0) && entryGood x.toNat && decide (entryNames x.toNat = entryNames e))

/-- A remap comes into force; at a die reset the row's contents, which DRAM has kept, go to the spare first (R254). -/
def State.applyRemap (s : State) (c e : Nat) (keep : Bool) : State :=
  let row := entryRow e
  if Tbl.find? (s.chan c).remaps row = some (entrySpare e) then s
  else
    let s := if keep then
        s.dramStore (dramAddr c (spareCourse s.density (entrySpare e)) (row / 2 ^ 20 / 8) 0) (s.dramBytes (s.rowAddr c row) 2048)
      else s
    s.updChan c (fun v => { v with remaps := Tbl.put v.remaps row (entrySpare e) })

/-- A pin kill comes into force; where DRAM has kept its contents the channel repacks (R248). -/
def State.applyPinKill (s : State) (c e : Nat) (keep : Bool) : State :=
  if keep then
    if (s.chan c).killed.isSome then s
    else s.updChan c (fun v => { v.pauseScrub s.dev.ticks with
      killed := some (entryAddr e % 16), repacking := true, repackRow := 0 })
  else s.updChan c (fun v => { v with killed := some (entryAddr e % 16) })

/-- One entry of a die is applied; an entry whose CRC fails is reported. Rows and columns of arrays carry no state that the
model shows. -/
def State.applyEntry (s : State) (d slot : Nat) (entry : W64) (keep : Bool) : State :=
  let e := entry.toNat
  if e = 0 then s
  else if !entryGood e then
    s.raise fcRepairBad { unit := unitDieCollector d, info0 := slot }
  else if e % 16 = kindRemap then s.applyRemap (16 * d + entryUnit e % 16) e keep
  else if e % 16 = kindPinKill then s.applyPinKill (16 * d + entryUnit e % 16) e keep
  else if e % 16 = kindWayOff then
    { s with uc := { s.uc with
        wayOff := Tbl.upd 0 s.uc.wayOff (64 * d + entryUnit e) (fun m => setBit m (entryAddr e % 16) true) } }
  else s

/-- Applies entries from a slot on, in slot order; a superseded one is left out (R320). -/
def applyEntries (d : Nat) (keep : Bool) : Nat → List W64 → State → State
  | _, [], s => s
  | slot, e :: t, s =>
    applyEntries d keep (slot + 1) t (if entryGood e.toNat && superseded e.toNat t then s else s.applyEntry d slot e keep)

/-- A die's entries are applied; `keep` says that DRAM contents are kept (a die reset). -/
def State.applyRepairs (s : State) (d : Nat) (keep : Bool) : State :=
  applyEntries d keep 0 (Tbl.get [] s.nv.repairs d) s

end Sys2Proof.Machine
end

