-- ==== Sys2Proof/Machine/Resets.lean ====
section
/-! DEFINITION. Reset domains (spec/03 R71 to R79, R82, R83): tenant, bay, channel, die and Sweld port resets, their
merging, and their ends. -/

namespace Sys2Proof.Machine

/-! ## Codes and progress -/

/-- DOMAIN codes of Table 3.13. -/
def domTenant : Nat := 1
def domBay : Nat := 2
def domChan : Nat := 3
def domDie : Nat := 4
def domPort : Nat := 5
def domPackage : Nat := 6

def resetKey (dom n : Nat) : Nat := 256 * dom + n

/-- A request merges into the reset in progress (R74). -/
def State.mergeReset (s : State) : State := { s with dev := { s.dev with resetMerged := true } }

/-- A request by the manager whose UNLOCK is wrong, or otherwise not carried out, sets REFUSED (R82). -/
def State.refuseReset (s : State) : State := { s with dev := { s.dev with resetRefused := true } }

/-- Whether a source is the manager. -/
def isManager : ResetSource → Bool
  | .manager _ => true
  | _ => false

/-- A reset begins: when, and whether CFG_RESET_CTL started it. -/
def State.noteStart (s : State) (dom n : Nat) (byManager : Bool) : State :=
  let k := resetKey dom n
  { s with dev := { s.dev with
      resetFrom := Tbl.put s.dev.resetFrom k s.dev.ticks
      started := if byManager then s.dev.started ++ [k] else s.dev.started } }

/-- A reset has lasted the least time, 2 µs (R78). -/
def State.resetLasted (s : State) (dom n : Nat) : Bool :=
  match Tbl.find? s.dev.resetFrom (resetKey dom n) with
  | some t => decide (t + 2000 ≤ s.dev.ticks)
  | none => false

/-- A reset finishes (R83): LAST_DOMAIN and LAST_INSTANCE, and DONE where CFG_RESET_CTL started it or one inside it. -/
def State.noteEnd (s : State) (dom n : Nat) (inside : List Nat) : State :=
  let ks := resetKey dom n :: inside
  { s with dev := { s.dev with
      resetFrom := s.dev.resetFrom.filter (fun e => !ks.contains e.1)
      resetDone := s.dev.resetDone || s.dev.started.any ks.contains
      started := s.dev.started.filter (fun k => !ks.contains k)
      lastDomain := dom, lastInst := n } }

/-- The units whose checkers lie in a domain. -/
def unitsOfBay (b : Nat) : List Nat := [unitBay b]
def unitsOfChan (c : Nat) : List Nat := unitChan c :: (ucSlicesOfChan c).map unitUcSlice
def unitsOfDie (d : Nat) : List Nat :=
  unitDieCollector d :: (baysOfDie d).flatMap unitsOfBay ++ (chansOfDie d).flatMap unitsOfChan

/-- A reset of a checker's domain disarms its injection (R318). -/
def State.disarmIn (s : State) (units : List Nat) : State :=
  let i := s.flt.inject
  if i.armed && units.contains i.unit then
    { s with flt := { s.flt with inject := { i with armed := false, disarmed := true, remaining := 0 } } }
  else s

/-- A reset that brings a unit UP restarts its reporter's pair (R308). -/
def State.restartPairs (s : State) (units : List Nat) : State :=
  units.foldl (fun s u => s.updReporter u (fun r => { r with
    err := !r.queue.isEmpty, errN := r.queue.isEmpty, equalEdges := 0, emptyEdges := 0, forced := 0 })) s

/-! ## Capstones of a domain (R77, R221) -/

/-- Held capstones that stand in front of a closed shield are answered ABORTED_BY_RESET: their commands are aborted, and
capstones that wait at their bays take the places that get free (R219). -/
def State.abortCapstones (s : State) (sel : Capstone → Bool) (detail arg : Nat) : State :=
  let hit := s.uc.capstones.filter (fun e => e.2.held && sel e.2)
  hit.foldl (fun s e => (s.stopCmd e.2.cmd { outcome := ocAborted, detail := detail, arg := arg }).endCap e.1) s

/-- The issuer's stream state is cleared: capstones not yet held are dropped; held ones are discarded once they time
out. -/
def State.clearStreams (s : State) (sel : Capstone → Bool) : State :=
  { s with uc := { s.uc with
      capstones := Tbl.mapVals (s.uc.capstones.filter (fun e => e.2.held || !sel e.2))
        (fun _ c => if sel c then { c with failed := true } else c) } }

/-- A capstone's home slice lies in a channel. -/
def State.capOnChan (s : State) (c : Nat) (x : Capstone) : Bool :=
  x.host.isNone && decide (chanOfUcSlice (homeOf s.density (x.dpa / 128 * 128)).1 = c)

/-! ## Tenant reset (R75) -/

/-- The tenant's shield may close: a slice in APPLYING or FROZEN holds its reset (R74), and a fault's escalation waits for
the command that met it (R306). -/
def State.mayResetTenant (s : State) (i : Nat) : Bool :=
  decide ((s.slice i).state ≠ .applying) && decide ((s.slice i).state ≠ .frozen)
    && !(s.cmds.any (fun e => decide (e.2.slice = i) && e.2.escalate && e.2.live))

/-- The record of a command that had no reservation takes a free slot of its CQ, or is dropped and counted where the queue is
full (R75). With a disabled CQ there is no record to drop, and none is counted (DESIGN CHOICE, notes/assumptions/52.md). -/
def State.abortUndispatched (s : State) (id : Nat) : State :=
  let c := s.cmd id
  let q := (s.slice c.slice).cq (dCq c.desc)
  let (res, s) := s.drawResult
  let r : Rec := {
    bytes := completionRecord (dTag c.desc) (dSeq c.desc) ocAborted kindCommand c.sq 1 c.slice 0 s.time res .nothing
    notify := dNotify c.desc }
  let s := s.countOutcome c.slice ocAborted
  let s := if q.enable then
      if 0 < q.free then s.updCq c.slice (dCq c.desc) (fun q => { q with reserved := q.reserved + 1, due := q.due ++ [r] })
      else s.updSlice c.slice (fun v => { v with resetDropped := v.resetDropped + 1 })
    else s
  s.freePlace id

/-- The stop of a command that a tenant reset ends: a reset that stopped it before decides its detail (R75, R76), and
the copy of a fault that did is still posted first (R315). -/
def Cmd.resetStop (c : Cmd) : Stop :=
  match c.stop with
  | some st => if st.outcome = ocAborted then st
    else { outcome := ocAborted, detail := 1, arg := c.slice, awaitSeq := st.awaitSeq }
  | none => { outcome := ocAborted, detail := 1, arg := c.slice }

/-- The local store of every bay the slice holds is zeroed, and its gangs' scratch. -/
def State.zeroBaysOf (s : State) (i : Nat) : State :=
  (List.range 48).foldl (fun s b =>
    if s.bayHolder b = some i then s.updBay b (fun v => { v with l1 := [], scratch := [] }) else s) s

/-- A tenant reset begins (R75): its commands stop with what they have written, and complete ABORTED_BY_RESET. -/
def State.beginTenantReset (s : State) (i : Nat) (byManager : Bool) : State :=
  let s := s.noteStart domTenant i byManager
  let mine := s.cmds.filter (fun e => decide (e.2.slice = i))
  let live := (mine.filter (fun e => e.2.live)).map (·.1)
  let wait := (mine.filter (fun e => decide (e.2.phase = .windowed))).map (·.1)
  -- what has been issued lands before the records go
  let s := s.landReqs (fun r => live.contains r.cmd)
  let s := live.foldl (fun s id => s.flushCmdL1 id) s
  let s := s.updSlice i (fun v => { v with
    reset := .running, tenantEpoch := v.tenantEpoch + 1, resetDropped := 0, resetAborted := live.length + wait.length })
  let s := s.abortSends i { outcome := ocAborted, detail := 1, arg := i }
  let s := s.clearStreams (fun c => decide (c.slice = i))
  let s := wait.foldl (fun s id => s.abortUndispatched id) s
  let s := s.zeroBaysOf i
  live.foldl (fun s id => s.completeWith id (s.cmd id).resetStop s.time none) s

/-- TENANT_RESET. The manager's request begins it, is held, or merges; a request that is held begins once it may. -/
def State.doTenantReset (s : State) (i : Nat) (src : ResetSource) : State :=
  let v := s.slice i
  match src with
  | .manager _ =>
    if !s.stopRegs then s
    else if v.reset ≠ .none then s.mergeReset
    else if s.mayResetTenant i then s.beginTenantReset i true
    else { s.updSlice i (fun v => { v with reset := .held }) with
           dev := { s.dev with started := s.dev.started ++ [resetKey domTenant i] } }
  | .management => s
  | _ => if s.powered && decide (v.reset = .held) && s.mayResetTenant i then s.beginTenantReset i false else s

def execTenantReset (slice : BitVec 8) (src : ResetSource) (s : State) : Host.Outcome State Fault Refusal :=
  .next (s.doTenantReset slice.toNat src)

/-- The records of aborted commands that are still due are posted, behind their data, before the queues are reset. -/
def State.postDue (s : State) (i q : Nat) : State :=
  ((s.slice i).cq q).due.foldl (fun s x =>
    let r := (s.slice i).cq q
    if s.linkUp r.port then
      let s := if s.needsRead i r x then s.orderRead r.port else s
      let (s, r) := s.postTenant i { r with due := r.due.drop 1, reserved := r.reserved - 1 } 0x0D x
      s.updCq i q (fun _ => r)
    else s.updCq i q (fun r => { r with due := r.due.drop 1, reserved := r.reserved - 1 })) s

/-- Waiting records are dropped and counted, with the window places and the buffers they hold. -/
def State.dropWaiting (s : State) (i q : Nat) : State :=
  let n := ((s.slice i).cq q).waiting.length
  (s.discardWaiting i q).updSlice i (fun v => { v with resetDropped := v.resetDropped + n })

/-- Buffers in which a stream of the slice still lands stay with the stream (R281). -/
def State.streamBuffer (s : State) (k : Nat) : Bool :=
  s.sweld.ins.any (fun e => decide (e.2.buffer = some k) && !e.2.applied)

/-- Every pool buffer that the slice holds goes back, zeroed. -/
def State.returnBuffers (s : State) (i : Nat) (all : Bool) : State :=
  ((s.pool.filter (fun e => decide (e.2.owner = some i))).map (·.1)).foldl
    (fun s k => if !all && s.streamBuffer k then s else s.freeBuffer k) s

/-- A tenant reset ends: the record TENANT_RESET_DONE, the queues reset and the shield open. -/
def State.endTenantReset (s : State) (i : Nat) : State :=
  let qs := List.range 16
  let s := qs.foldl (fun s q => s.postDue i q) s
  let s := qs.foldl (fun s q => s.dropWaiting i q) s
  let s := s.returnBuffers i false
  let v := s.slice i
  let s := s.raise fcResetDone
    { unit := unitQueue false, slice := some i, info0 := v.resetDropped, info1 := v.resetAborted }
  let s := s.updSlice i (fun v => { v with sqs := [], cqs := [], reset := .none, resetDropped := 0, resetAborted := 0 })
  s.noteEnd domTenant i []

/-- No due record of the slice waits for a tenant copy any more (R315). -/
def State.copiesPosted (s : State) (i : Nat) : Bool :=
  (List.range 16).all (fun q => ((s.slice i).cq q).due.all (fun r => match r.awaitSeq with
    | some n => !s.copyPending i n
    | none => true))

/-! ## Physical domains -/

/-- A bay's reset takes everything on it (Table 3.5): its commands are aborted with the detail given, and its state is
zeroed, which counts (R132). -/
def State.startBay (s : State) (b detail arg : Nat) : State :=
  let onBay := fun c : Capstone => decide ((s.gang c.gang).bay = b) && s.hasGang c.gang
  let s := s.clearStreams onBay
  let s := s.abortBay b detail arg
  let s := s.closeShield (unitBay b) detail arg
  let s := s.updBay b (fun v => { v.zeroed with
    holder := none, zeroings := satAdd 24 v.zeroings 1, unit := .resetting, errs := [] })
  s.disarmIn (unitsOfBay b)

/-- A channel's reset clears its controller; DRAM goes into self-refresh (Table 3.5, Table 3.7). -/
def State.startChan (s : State) (c detail arg : Nat) : State :=
  let s := s.closeShield (unitChan c) detail arg
  let s := s.abortCapstones (s.capOnChan c) detail arg
  let s := (s.setUnitState (unitChan c) .resetting).updChan c (fun v => { v with trained := false })
  s.disarmIn (unitsOfChan c)

/-- A port's reset: every stream on it breaks and its link state is cleared (Table 3.5, Table 12.4). -/
def State.startPort (s : State) (p : Nat) (byManager : Bool) : State :=
  let s := s.noteStart domPort p byManager
  let s := s.breakPort p
  let s := s.closeShield (unitPort p) 5 p
  let s := s.updPort p (fun v => { v.freshLink with
    state := .down, unit := .resetting, x4 := false, lanes := 0, remotePkg := 0, remotePort := 0, remoteValid := false
    aborts := [], rr := {}, beaconTx := 0, lastRx := 0 })
  (s.disarmIn [unitPort p]).remaster

def State.resettingDie (s : State) (d : Nat) : Bool := decide (s.dieState d = .resetting)

/-- What a physical reset's source may ask for. -/
def mayAsk (s : State) (src : ResetSource) : Bool :=
  match src with
  | .manager _ => s.stopRegs
  | .tenant => false
  | _ => s.powered

/-- BAY_RESET. -/
def State.doBayReset (s : State) (b : Nat) (src : ResetSource) : State :=
  if !mayAsk s src then s
  else if (s.bay b).unit = .resetting ∨ s.resettingDie (dieOfBay b) then s.mergeReset
  else (s.noteStart domBay b (isManager src)).startBay b 2 b

def execBayReset (b : Fin 48) (src : ResetSource) (s : State) : Host.Outcome State Fault Refusal :=
  .next (s.doBayReset b.val src)

/-- CHANNEL_RESET. One that CFG_RESET_CTL asks for carries out an armed row repair (R254). -/
def State.doChannelReset (s : State) (c : Nat) (src : ResetSource) : State :=
  if !mayAsk s src then s
  else if (s.chan c).unit = .resetting ∨ s.resettingDie (dieOfChan c) then s.mergeReset
  else
    let s := (s.noteStart domChan c (isManager src)).startChan c 3 c
    if isManager src && (s.chan c).pprArmed then
      s.updChan c (fun v => { v with pprRun := v.pprQueue, pprArmed := false })
    else s

def execChannelReset (c : Fin 128) (src : ResetSource) (s : State) : Host.Outcome State Fault Refusal :=
  .next (s.doChannelReset c.val src)

/-- SWELD_PORT_RESET. -/
def State.doPortReset (s : State) (p : Nat) (src : ResetSource) : State :=
  if !mayAsk s src then s
  else if (s.port p).unit = .resetting then s.mergeReset
  else s.startPort p (isManager src)

def execSweldPortReset (p : Fin 16) (src : ResetSource) (s : State) : Host.Outcome State Fault Refusal :=
  .next (s.doPortReset p.val src)

/-- RECOVERY_TIMEOUT: a recovery of 20 ms turns into a port reset (R272). -/
def State.doRecoveryTimeout (s : State) (p : Nat) : State :=
  let v := s.port p
  if s.powered && decide (v.state = .recovering) && decide (v.recoverFrom + 20000000 ≤ s.time)
      && decide (v.unit ≠ .resetting) then s.startPort p false else s

def execRecoveryTimeout (p : Fin 16) (s : State) : Host.Outcome State Fault Refusal := .next (s.doRecoveryTimeout p.val)

/-! ## Die reset (R72, R303) -/

/-- The sets of a die's slices that lost both tag copies: slice and set. -/
def State.lostOf (s : State) (d : Nat) : List (Nat × Nat) :=
  (s.uc.lostSets.map (fun k => (k / 1536, k % 1536))).filter (fun e => decide (dieOfUcSlice e.1 = d))

/-- The dirty home ways of a die's slices that are not in a lost set: slice, set and way. -/
def State.dirtyOfDie (s : State) (d : Nat) : List (Nat × Nat × Nat) :=
  s.uc.ways.filterMap (fun e =>
    let x := e.1 / 24576
    let set := e.1 % 24576 / 16
    if dieOfUcSlice x = d ∧ e.2.dirty ≠ 0 ∧ e.2.replica = false ∧ !(s.uc.lostSets.contains (x * 1536 + set))
    then some (x, set, e.1 % 16) else none)

/-- A dirty line is written back before the arrays are cleared, or is marked poisoned and its owner told (R72). -/
def State.saveDirty (s : State) (lost : Bool) (e : Nat × Nat × Nat) : State :=
  let (x, set, w) := e
  let c := chanOfUcSlice x
  if lost || (decide (s.dieState (dieOfUcSlice x) = .up) && decide ((s.chan c).unit = .down)) then
    let n := (s.way (wayKey x set w)).line set
    (s.openShare c (s.blockOfLine c (chanLine x n))).poisonLine c (chanLine x n) 3 (unitUcSlice x)
  else s.writeBackWay x set w

/-- The WRITTEN lines of a lost set: channel and channel line (R303). -/
def State.writtenOfSet (s : State) (x set : Nat) : List (Nat × Nat) :=
  let c := chanOfUcSlice x
  let opened := s.mem.notFresh.filter (fun e => e.2 && decide (e.1 / 2 ^ 21 = c))
  opened.flatMap (fun e =>
    let (first, n) := shareCourses s.density (e.1 % 2 ^ 21)
    (List.range (32 * n)).filterMap (fun i =>
      let q := 32 * first + i
      if (lineOfChan c q).1 = x ∧ setOf (lineOfChan c q).2 = set ∧ s.lineState c q = .written then some (c, q) else none))

/-- Every WRITTEN line of the lost sets becomes POISONED, and each owner gets one record with the count of its lines. -/
def State.poisonLost (s : State) (d : Nat) : State :=
  let lines := (s.lostOf d).flatMap (fun e => s.writtenOfSet e.1 e.2)
  let owned := lines.filterMap (fun l => (s.ownerOf (s.dpaOfLine l.1 l.2)).map (fun o => (o, s.dpaOfLine l.1 l.2)))
  let s := lines.foldl (fun s l => s.setLineState l.1 l.2 .poisoned) s
  ((owned.map (·.1)).eraseDups).foldl (fun s o =>
    let ds := (owned.filter (fun e => e.1 == o)).map (·.2)
    s.raise fcPoisoned { unit := unitDieCollector d, slice := some o, addr := ds.head?, tva := ds.head?.bind s.tvaOf
                         info0 := 5, count := min 65535 ds.length }) s

/-- The bed-die arrays of a die are cleared, with the replicas elsewhere of the lines they held and the registers of its
slices (R205). -/
def State.clearArrays (s : State) (d : Nat) : State :=
  { s with uc := { s.uc with
      ways := s.uc.ways.filter (fun e =>
        let x := e.1 / 24576
        decide (dieOfUcSlice x ≠ d) && !(e.2.replica && decide (dieOfUcSlice (x ^^^ 256) = d)))
      wayOff := s.uc.wayOff.filter (fun e => decide (dieOfUcSlice e.1 ≠ d))
      corrected := s.uc.corrected.filter (fun e => decide (dieOfUcSlice e.1 ≠ d))
      refetched := s.uc.refetched.filter (fun e => decide (dieOfUcSlice e.1 ≠ d))
      lostSets := s.uc.lostSets.filter (fun k => decide (dieOfUcSlice (k / 1536) ≠ d))
      waiting := s.uc.waiting.filter (fun rid => match Tbl.find? s.reqs rid with
        | some r => decide (dieOfUcSlice (homeOf s.density r.dpa).1 ≠ d)
        | none => false)
      wayOp := match s.uc.wayOp with
        | some (x, w, e) => if dieOfUcSlice x = d then none else some (x, w, e)
        | none => none
      wayBusy := match s.uc.wayOp with
        | some (x, _, _) => s.uc.wayBusy && decide (dieOfUcSlice x ≠ d)
        | none => s.uc.wayBusy } }

/-- A die's reset begins. -/
def State.startDie (s : State) (d : Nat) (lost : Bool) (byManager : Bool) : State :=
  let inner := (baysOfDie d).any (fun b => decide ((s.bay b).unit = .resetting))
    || (chansOfDie d).any (fun c => decide ((s.chan c).unit = .resetting))
  let s := if inner then s.mergeReset else s
  let s := s.noteStart domDie d byManager
  let s := (s.dirtyOfDie d).foldl (fun s e => s.saveDirty lost e) s
  let s := s.poisonLost d
  let s := { s with dev := { s.dev with dies := Tbl.set .up s.dev.dies d .resetting } }
  let s := (baysOfDie d).foldl (fun s b => s.startBay b 4 d) s
  let s := (chansOfDie d).foldl (fun s c => s.startChan c 4 d) s
  (s.clearArrays d).disarmIn (unitsOfDie d)

/-- DIE_RESET. -/
def State.doDieReset (s : State) (d : Nat) (lost : Bool) (src : ResetSource) : State :=
  if !mayAsk s src then s
  else if s.resettingDie d then s.mergeReset
  else s.startDie d lost (isManager src)

def execDieReset (d : Fin 8) (lost : Bool) (src : ResetSource) (s : State) : Host.Outcome State Fault Refusal :=
  .next (s.doDieReset d.val lost src)

/-! ## Ends -/

/-- A bay is back: UP and ON, but one that the management path has powered off, or found without power, stays DOWN (R289,
R302, Table 12.9). -/
def State.finishBay (s : State) (b : Nat) : State :=
  let v := s.bay b
  let s := if v.mgmt = .off ∨ v.unpowered then s.updBay b (fun v => { v with unit := .down })
    else if v.mgmt = .draining then s.cutBay b
    else
      let s := s.updBay b (fun v => { v with unit := .up, mgmt := .on, powering := false })
      if v.powering then { s with plb := { s.plb with unitDone := true } } else s
  s.restartPairs [unitBay b]

/-- A channel is back, trained; the rows its reset still had to repair are repaired first (R254). -/
def State.finishChan (s : State) (c : Nat) : State :=
  let s := (s.repairRest c).updChan c (fun v => { v with trained := true })
  (s.setUnitState (unitChan c) .up).restartPairs (unitsOfChan c)

/-- A port is back and trains again (R268). -/
def State.finishPort (s : State) (p : Nat) : State :=
  let v := s.port p
  let s := if v.mgmt = .off ∨ v.unpowered then s.updPort p (fun v => { v with unit := .down, state := .off })
    else if v.mgmt = .draining then s.cutPort p
    else
      let s := s.updPort p (fun v => { v with unit := .up, mgmt := .on, state := .training, powering := false })
      if v.powering then { s with plb := { s.plb with unitDone := true } } else s
  s.restartPairs [unitPort p]

/-- The resets inside a die's. -/
def insideDie (d : Nat) : List Nat :=
  (baysOfDie d).map (resetKey domBay) ++ (chansOfDie d).map (resetKey domChan)

/-- A die's reset ends: its field repairs are applied, and it is back with its bays and channels. -/
def State.finishDie (s : State) (d : Nat) : State :=
  let s := s.applyRepairs d true
  let s := { s with dev := { s.dev with dies := Tbl.set .up s.dev.dies d .up } }
  let s := (baysOfDie d).foldl (fun s b => s.finishBay b) s
  let s := (chansOfDie d).foldl (fun s c => s.finishChan c) s
  s.restartPairs [unitDieCollector d]

/-- A channel whose retraining fails stays DOWN, with CHANNEL_DOWN cause 2. -/
def State.failChan (s : State) (c : Nat) : State :=
  ((s.raise fcChannelDown { unit := unitChan c, info0 := 2 }).updChan c (fun v => { v with pprRun := [] })).setUnitState
    (unitChan c) .down

/-- A die whose self-test exhausts the spares stays DOWN, with DIE_STOP cause 3. -/
def State.failDie (s : State) (d : Nat) : State :=
  let s := s.raise fcDieStop { unit := unitDieCollector d, info0 := 3 }
  let s := (baysOfDie d).foldl (fun s b => s.updBay b (fun v => { v with
    unit := .down, mgmt := if v.mgmt = .off then .off else .failed })) s
  let s := (chansOfDie d).foldl (fun s c => s.setUnitState (unitChan c) .down) s
  { s with dev := { s.dev with dies := Tbl.set .up s.dev.dies d .down } }

/-- A domain's shield opens (R77): the message goes out over the control mesh (R234). -/
def State.openShield (s : State) (u : Nat) : State := s.signalUnits .shield (unitQueue false) u

/-- RESET_COMPLETE: the reset of a domain finishes. A package reset ends with bring-up (Table 3.1). -/
def State.doResetComplete (s : State) (dom : Domain) (n : Nat) (ok : Bool) : State :=
  if !s.powered then s
  else match dom with
  | .tenant =>
    if decide ((s.slice n).reset = .running) && s.resetLasted domTenant n && s.copiesPosted n then s.endTenantReset n else s
  | .bay =>
    if decide ((s.bay n).unit = .resetting) && s.resetLasted domBay n && !s.resettingDie (dieOfBay n) then
      ((s.finishBay n).openShield (unitBay n)).noteEnd domBay n [] else s
  | .channel =>
    if decide ((s.chan n).unit = .resetting) && s.resetLasted domChan n && !s.resettingDie (dieOfChan n) then
      (if ok then (s.finishChan n).openShield (unitChan n) else s.failChan n).noteEnd domChan n [] else s
  | .die =>
    if s.resettingDie n && s.resetLasted domDie n then
      (if ok then (s.finishDie n).openShield (unitDieCollector n) else s.failDie n).noteEnd domDie n (insideDie n) else s
  | .port =>
    if decide ((s.port n).unit = .resetting) && s.resetLasted domPort n then ((s.finishPort n).openShield (unitPort n)).noteEnd domPort n [] else s
  | .package => s

def execResetComplete (dom : Domain) (n : Nat) (ok : Bool) (s : State) : Host.Outcome State Fault Refusal :=
  .next (s.doResetComplete dom n ok)

end Sys2Proof.Machine
end

