-- ==== Sys2Proof/Machine/Images.lean ====
section
/-! DEFINITION. Image and firmware operations (spec/02 R42 to R50, R53 to R61; spec/03 R67 to R69, R85), the stored copies
(R50), the flash and its journal (spec/14 R343 to R345), the key fuses (R39, R60) and the slice states (R42, R43). -/

namespace Sys2Proof.Machine

/-! ## Flash and journal -/

/-- The first `n` bytes of a slot area; erased flash reads as ones. -/
def Nv.areaBytes (nv : Nv) (area n : Nat) : Bytes :=
  let b := (Tbl.get [] nv.flash area).take n
  b ++ List.replicate (n - b.length) 0xFF

/-- An image read from a slot: its header, then as many bytes as its IMAGE_LEN says (R49). -/
def Nv.slotImage (nv : Nv) (area : Nat) (badLen : Nat → Bool) : Bytes :=
  let n := imgLen (nv.areaBytes area 128)
  nv.areaBytes area (if badLen n then 128 else n)

/-- Whether a slot area is worn out (R345). -/
def Journal.worn (j : Journal) (area : Nat) : Bool := decide (90000 ≤ j.erases.getD area 0)

/-- A journal record (Table 14.4). -/
def Journal.bytes (j : Journal) : Bytes :=
  let b := leBytes 4 0x4C4E524A ++ leBytes 4 j.jseq.toNat ++ (List.range 10).map (fun d => BitVec.ofNat 8 (j.guardMv.getD d 0))
    ++ leBytes 2 0 ++ leBytes 4 j.boots.toNat ++ (List.range 4).flatMap (fun a => leBytes 4 (j.erases.getD a 0))
    ++ List.replicate 20 0
  b ++ leBytes 4 (crc32c b).toNat

/-- The record that stands at a place of the log, where its MAGIC and CRC check. -/
def journalAt (slot : Nat) (b : Bytes) : Option Journal :=
  if b.length = 64 ∧ leAt b 0 4 = 0x4C4E524A ∧ leAt b 0x3C 4 = (crc32c (b.take 60)).toNat then
    some { valid := true, jseq := BitVec.ofNat 32 (leAt b 4 4), guardMv := (List.range 10).map (fun d => byteAt b (8 + d))
           boots := BitVec.ofNat 32 (leAt b 0x14 4), erases := (List.range 4).map (fun a => leAt b (0x18 + 4 * a) 4)
           slot := slot }
  else none

/-- The current record: the valid one with the greatest JSEQ; none of them valid, an empty journal (R344). -/
def Nv.journal (nv : Nv) : Journal :=
  (nv.log.filterMap (fun e : Nat × Bytes => journalAt e.1 e.2)).foldl
    (fun a j => if a.valid && decide (j.jseq.toNat ≤ a.jseq.toNat) then a else j) {}

/-- The place of the next record: the one behind the current record, or a later one of its sector where that one is not
erased. A sector that the log enters is erased first. -/
def nextRecord (log : Tbl Bytes) : Nat → Nat → Nat
  | 0, n => n
  | fuel + 1, n => if n % 64 = 0 ∨ (Tbl.find? log n).isNone then n else nextRecord log fuel ((n + 1) % 16384)

/-- Appends a journal record that carries the current value of every field (R344): those of `j`, and the guard-bands. -/
def State.appendJournal (s : State) (j : Journal) : State :=
  let old := s.nv.journal
  let n := if old.valid then nextRecord s.nv.log 64 ((old.slot + 1) % 16384) else 0
  let log := if n % 64 = 0 then s.nv.log.filter (fun e : Nat × Bytes => decide (e.1 / 64 ≠ n / 64)) else s.nv.log
  let j := { j with
    jseq := if old.valid then old.jseq + 1 else 1
    guardMv := (List.range 10).map (fun d => (Tbl.get ({} : Aging) s.tel.aging d).guardMv) }
  { s with nv := { s.nv with log := Tbl.put log n j.bytes }, dev := { s.dev with journalAt := some s.dev.ticks } }

/-- The record written last fails its check: power was lost while it was written (R344). -/
def State.spoilRecord (s : State) : State :=
  { s with nv := { s.nv with log := Tbl.put s.nv.log s.nv.journal.slot [] } }

/-- A slot area whose store was cut off holds no valid image (R345). -/
def State.spoilSlot (s : State) (area : Nat) : State :=
  { s with nv := { s.nv with flash := Tbl.del s.nv.flash area } }

/-- The slot after a store: the new image, erased bytes up to the end of its last sector, and what lay beyond (R345). -/
def storedArea (old new : Bytes) : Bytes :=
  let stop := roundUp new.length 4096
  new ++ List.replicate (stop - new.length) 0xFF ++ old.drop stop

/-- Bytes that nothing fixes. -/
def State.drawBytes (s : State) (n : Nat) : Bytes × State :=
  ((List.range n).map (fun i => Config.freeByte (s.free + i)), { s with free := s.free + n })

/-- Writes an image to a slot area (R345): the answer says whether it is there. A failed write leaves bytes of no stated
value. -/
def State.storeFlash (s : State) (area : Nat) (b : Bytes) (flashOk : Bool) : State × Bool :=
  if s.nv.journal.worn area then (s, false)
  else
    let j := s.nv.journal
    let s := s.appendJournal { j with erases := j.erases.set area (j.erases.getD area 0 + 1) }
    let (new, s) := if flashOk then (b, s) else s.drawBytes b.length
    ({ s with nv := { s.nv with
        flash := Tbl.set [] s.nv.flash area (storedArea (Tbl.get [] s.nv.flash area) new) } }, flashOk)

/-! ## The stored copies (R50) -/

def rangeBytes (slice : Nat) (r : Range) : Bytes :=
  let pol := match r.policy with
    | .spread => 0
    | .locale => 1
    | .paired => 2
  leBytes 1 slice ++ leBytes 1 pol ++ leBytes 1 r.homeDie ++ leBytes 1 r.access ++ leBytes 4 0 ++ leBytes 8 r.tva
    ++ leBytes 8 r.dpa ++ leBytes 4 r.courses

def pasidBytes (slice : Nat) (p : Pasid) : Bytes := leBytes 4 p.pasid ++ leBytes 1 slice ++ leBytes 1 p.ports ++ leBytes 2 0

/-- The records of Table 2.19 in front of RANGE_FIRST. -/
def recordBytes (slice : Nat) (d : SliceDef) : Bytes :=
  let flags := ofBool d.enabled + field 1 (ofBool d.rarFault) + field 2 (ofBool d.tenantFlip)
  leBytes 1 slice ++ leBytes 1 flags ++ leBytes 1 d.classMask ++ leBytes 1 0 ++ leBytes 2 d.tableHandles
    ++ leBytes 2 d.payloadBuffers ++ leBytes 4 d.ownerTag.toNat ++ leBytes 4 0
    ++ (if d.enabled then
      leBytes 2 slice ++ leBytes 2 d.poolWeight ++ leBytes 4 d.poolMax ++ leBytes 8 d.dedicated
        ++ leBytes 2 slice ++ leBytes 2 d.quotaMib ++ leBytes 4 d.floorMib
        ++ leBytes 1 slice ++ leBytes 1 d.sqCount ++ leBytes 1 d.cqCount ++ leBytes 1 d.maxDepth ++ leBytes 4 0
        ++ leBytes 4 slice ++ leBytes 4 d.escalate ++ leBytes 4 d.quiesce ++ leBytes 4 0
      else List.replicate 48 0)

/-- The stored descriptor, without its CRC. -/
def descriptorBytes (slice : Nat) (d : SliceDef) (first quarters : Nat) : Bytes :=
  recordBytes slice d ++ leBytes 2 first ++ leBytes 1 d.ranges.length ++ leBytes 1 d.pasids.length
    ++ leBytes 8 d.applySerial.toNat ++ leBytes 4 0 ++ leBytes 8 quarters ++ List.replicate 36 0

/-- The items of a stored copy, each to be followed by its CRC: descriptor, range entries, PASID entries. -/
def copyItems (slice : Nat) (d : SliceDef) (first quarters : Nat) : List Bytes :=
  descriptorBytes slice d first quarters :: d.ranges.map (rangeBytes slice) ++ d.pasids.map (pasidBytes slice)

/-- Writes the items of one quoin's copy with their CRCs, inverting what an injection selects (R318 checker 6). -/
def writeItems (quoin : Bool) : List Bytes → State → State × Bytes
  | [], s => (s, [])
  | x :: t, s =>
    let (m, s) := s.injected 6 (unitQueue quoin)
    let (s, r) := writeItems quoin t s
    (s, x ++ leBytes 4 ((crc32c x).toNat ^^^ m) ++ r)

/-- The dedicated bays of a slice that are QUARTERED. -/
def State.quarterMask (s : State) (d : SliceDef) : Nat :=
  (List.range 48).foldl (fun m b => setBit m b (bitAt d.dedicated b && (s.bay b).quartered)) 0

/-- Both copies of a slice are written. Where the range entries lie in the stored table is not stated. -/
def State.writeCopies (s : State) (i : Nat) : State :=
  let d := (s.slice i).defn
  let (first, s) := s.drawChoice 4096
  let items := copyItems i d first (s.quarterMask d)
  let (s, c0) := writeItems false items s
  let (s, c1) := writeItems true items s
  s.updSlice i (fun v => { v with copy0 := c0, copy1 := c1 })

/-! ## Installing a slice (R44, R45, R47) -/

/-- OWNER_TAG or ENABLED changes. -/
def ownerChange (old new : SliceDef) : Bool := decide (old.ownerTag ≠ new.ownerTag) || (old.enabled != new.enabled)

/-- A fresh block lies in the DPA ranges. -/
def inBlocks (rs : List Range) (β : Nat) : Bool := (findDpa rs (β * 0x200000)).isSome

/-- Unfetched commands, or commands that have been fetched and not dispatched: those that ended at their fetch count until
their record posts and frees their window place (R92). -/
def State.sqWork (s : State) (i q : Nat) : Bool :=
  let x := (s.slice i).sq q
  x.enable && (decide (x.head ≠ x.tail) || x.window.any (fun id => decide ((s.cmd id).phase = .windowed) || decide ((s.cmd id).phase = .placed)))

/-- Reservations held, or records that wait to be posted. -/
def Ring.work (r : Ring) : Bool :=
  r.enable && (decide (r.reserved ≠ 0) || !r.waiting.isEmpty || !r.due.isEmpty)

/-- A copy for the slice's fault queue has not been posted. -/
def State.fqWork (s : State) (i : Nat) : Bool :=
  let is := fun r : FaultRec => decide (r.slice = some i) && tenantCopy r.code
  (s.slice i).fq.enable && (s.flt.reporters.any (fun e => e.2.queue.any is) || s.flt.collectors.any (fun e => e.2.any is))

/-- PASID and PORT of every enabled queue of a slice that has work. -/
def State.busyQueues (s : State) (i : Nat) : List (Nat × Bool) :=
  let v := s.slice i
  ((List.range 16).filter (s.sqWork i)).map (fun q => ((v.sq q).pasid.toNat, (v.sq q).port))
    ++ ((List.range 16).filter (fun q => (v.cq q).work)).map (fun q => ((v.cq q).pasid.toNat, (v.cq q).port))
    ++ (if s.fqWork i then [(v.fq.pasid.toNat, v.fq.port)] else [])

/-- The handles a slice holds: the highest that differs from reset, plus 1 (R411). -/
def Slice.handlesHeld (v : Slice) : Nat :=
  (v.handles.filter (fun e => decide (e.2.baseA ≠ 0) || decide (e.2.baseB ≠ 0) || e.2.current || decide (e.2.refA ≠ 0)
    || decide (e.2.refB ≠ 0) || e.2.flipPending)).foldl (fun n e => max n (e.1 + 1)) 0

/-- The step 8 check of busy resources that concerns one record. -/
def State.busyCheck (s : State) (i : Nat) (b : Bytes) (t o : Nat) : Option Bad :=
  let v := s.slice i
  let new := defOf b i
  let judged := !ownerChange v.defn new
  match t with
  | 1 => firstBad [(judged && decide (new.tableHandles < v.handlesHeld), ⟨irHandlesBusy, o + 4⟩)]
  | 2 => firstBad [((List.range 48).any (fun y => bitAt new.dedicated y && !bitAt v.defn.dedicated y
      && (s.bay y).holder.isSome && decide ((s.bay y).holder ≠ some i)), ⟨irBayBusy, o + 8⟩)]
  | 5 => firstBad [(judged && new.enabled && (s.busyQueues i).any (fun e =>
      decide (e.1 = (pasidAt b o).pasid) && !bitAt (pasidAt b o).ports (portBit e.2)), ⟨irPasidBusy, o + 5⟩)]
  | 6 => firstBad
    [ (judged && (List.range 16).any (fun q => decide (new.sqCount ≤ q) && s.sqWork i q), ⟨irQueueBusy, o + 1⟩),
      (judged && (List.range 16).any (fun q => decide (new.cqCount ≤ q) && (v.cq q).work), ⟨irQueueBusy, o + 2⟩) ]
  | _ => none

/-- Steps 2 to 8 of an APPLY_SLICE; a PASID removed outright has no field. -/
def State.applyCheck (s : State) (i : Nat) (b : Bytes) (fetched : Nat) : Option Bad :=
  match imageCheck s.nv s.density b (some i) (some fetched) with
  | some e => some e
  | none =>
    let defs := s.slices.map (fun e => (e.1, e.2.defn))
    match conflicts s.density b (s.busyCheck i b) (heldBy defs i) (allRecs b) with
    | some e => some e
    | none =>
      let new := defOf b i
      firstBad [(!ownerChange (s.slice i).defn new && new.enabled
        && (s.busyQueues i).any (fun e => !(new.pasids.any (fun p => p.pasid == e.1))), ⟨irPasidBusy, 0xFFFFFFFF⟩)]

/-- What an owner change resets beside memory (R45, R273, R347, R363, R410). -/
def State.clearOwner (s : State) (i : Nat) : State :=
  let s := s.returnBuffers i true
  let s := { s with cmds := s.cmds.filter (fun e => decide (e.2.slice ≠ i)) }
  let s := s.updSlice i (fun v =>
    { defn := v.defn, state := v.state, prior := v.prior, reset := v.reset, resetDropped := v.resetDropped
      resetAborted := v.resetAborted, tenantEpoch := v.tenantEpoch })
  (List.range 48).foldl (fun s b =>
    if (s.bay b).lastHolder = some i then s.updBay b (fun v => { v with ownerGone := true }) else s) s

/-- A queue above a lowered count returns to its reset state; one whose PASID or PORT has gone is disabled (R47). -/
def Ring.trim (r : Ring) (d : SliceDef) (beyond : Bool) : Ring :=
  if !r.enable then r
  else if beyond then {}
  else if bitAt (d.ports r.pasid.toNat) (portBit r.port) then r
  else { r with enable := false, cfgError := true }

def Sq.trim (x : Sq) (d : SliceDef) (beyond : Bool) : Sq :=
  if !x.enable then x
  else if beyond then {}
  else if bitAt (d.ports x.pasid.toNat) (portBit x.port) then x
  else { x with enable := false, cfgError := true }

def Slice.trimQueues (v : Slice) : Slice :=
  let d := v.defn
  let v := (List.range 16).foldl (fun v q => v.setSq q ((v.sq q).trim d (decide (d.sqCount ≤ q)))) v
  let v := (List.range 16).foldl (fun v q => v.setCq q ((v.cq q).trim d (decide (d.cqCount ≤ q)))) v
  { v with fq := v.fq.trim d false }

/-- A bay's slab mode; a change of mode empties its arrays. -/
def Bay.setMode (v : Bay) (quartered : Bool) : Bay :=
  if v.quartered = quartered then v else { v with quartered := quartered, arrays := [] }

/-- The slab modes of an apply (R34): its dedicated bays take the image's, bays that leave the slice the WHOLE image's. -/
def State.applyModes (s : State) (old new : SliceDef) (quarters : Nat) : State :=
  (List.range 48).foldl (fun s b =>
    if bitAt new.dedicated b then s.updBay b (fun v => v.setMode (bitAt quarters b))
    else if bitAt old.dedicated b then s.updBay b (fun v => v.setMode (bitAt s.whole.quartered b))
    else s) s

/-- Installs a slice definition as one step (R44, R45, R47). `drop_ats_translations` of R44 drops nothing: the device of the
manual asks for no address translation anywhere else, so the model holds none (DESIGN CHOICE, notes/assumptions/55.md). -/
def State.installSlice (s : State) (i : Nat) (b : Bytes) : State :=
  let old := (s.slice i).defn
  let new := defOf b i
  let owner := ownerChange old new
  let s := s.freshenWhere (fun β => if inBlocks old.ranges β then owner || !inBlocks new.ranges β
    else inBlocks new.ranges β)
  let s := if owner then s.clearOwner i else s
  let s := s.applyModes old new (quartersOf b)
  let s := s.updSlice i (fun v =>
    let moved := v.logging && (decide (new.ranges ≠ old.ranges) || decide (new.pasids ≠ old.pasids))
    let v := { v with
      defn := new, descBad := false, state := if new.enabled then .drained else .off
      logInvalid := v.logInvalid || moved }
    if owner then v else v.trimQueues)
  s.writeCopies i

/-! ## Image operations (R44, R46, R48, R49) -/

/-- The image and firmware registers act from the start of bring-up to READY (R66, R402). -/
def State.imageRegs (s : State) : Bool :=
  s.powered && decide (s.dev.state ≠ .failed) && decide (s.dev.state ≠ .fatal)

/-- An image operation ends: RESULT, OFFSET and DONE. -/
def State.imageDone (s : State) (op slice : Nat) (bad : Option Bad) : State :=
  { s with dev := { s.dev with
      imageBusy := false, imageDone := true, imageOp := none, imageLastOp := op
      imageLastSlice := if op = 1 then slice else s.dev.imageLastSlice
      imageResult := (bad.map (·.code)).getD 0, imageOffset := (bad.map (·.off)).getD 0xFFFFFFFF } }

/-- An operation ends in failure; the slice of an apply returns to its prior state. -/
def State.imageFail (s : State) (op slice : Nat) (bad : Bad) : State :=
  let s := if op = 1 then s.updSlice slice (fun v => { v with state := v.prior }) else s
  s.imageDone op slice (some bad)

/-- An accepted operation. -/
def State.imageBegin (s : State) (o : ImageOp) : State :=
  let s := { s with dev := { s.dev with imageBusy := true, imageOp := some o } }
  let s := if o.op = 1 then
      (s.updSlice o.slice (fun v => { v with prior := v.state, state := .applying })).breakInbound o.slice
    else s
  if badImgLen o.len then s.imageFail o.op o.slice { code := irFetch } else s

/-- Whether an operation suits the state of the device and the slice: step 1. -/
def State.imageSuits (s : State) (op slice : Nat) : Bool :=
  if op = 1 then s.ready && (decide ((s.slice slice).state = .off) || decide ((s.slice slice).state = .drained))
  else if op = 2 then decide (s.dev.state = .imageWait)
  else true

/-- A write to CFG_IMAGE_CTL with an operation (R56). -/
def State.startImage (s : State) (op slice : Nat) (slotB port : Bool) : State :=
  if !s.imageRegs then s
  else if s.dev.imageBusy then { s with dev := { s.dev with imageOverrun := true } }
  else if s.imageSuits op slice then
    s.imageBegin { op := op, slice := slice, slotB := slotB, port := port, addr := s.dev.imageAddr, len := s.dev.imageLen }
  else s.imageDone op slice (some { code := irWrongState })

def execApplySlice (slice : BitVec 8) (port : Bool) (s : State) : Host.Outcome State Fault Refusal :=
  .next (s.startImage 1 slice.toNat false port)

def execLoadWhole (port : Bool) (s : State) : Host.Outcome State Fault Refusal := .next (s.startImage 2 0 false port)

def execStoreSlot (slotB port : Bool) (s : State) : Host.Outcome State Fault Refusal :=
  .next (s.startImage 3 0 slotB port)

/-- The bytes an operation fetched; none where the read failed (R49, R54). -/
def State.fetchedBytes (s : State) (o : ImageOp) (reply : HostReply) : Option Bytes :=
  if !s.linkUp o.port then none
  else match reply with
    | .ok d => some (bytesAt d 0 o.len)
    | _ => none

/-- A WHOLE image becomes the running configuration (R40, R58, R59). -/
def State.loadImage (s : State) (b : Bytes) (loadedFrom : Nat) : State := { s with whole := wholeOf b loadedFrom }

/-- Bring-up goes on at a step. -/
def State.beginStep (s : State) (n : Nat) : State :=
  { s with dev := { s.dev with step := n, stepTime := s.dev.ticks, stepWaited := 0 } }.enterState .bringup

/-- A STORE_SLOT whose image has passed: it is written to flash (step 9), unless it names the running image's slot. -/
def State.imageStore (s : State) (o : ImageOp) (b : Bytes) (flashOk : Bool) : State :=
  if s.whole.loadedFrom = portBit o.slotB then s.imageFail o.op o.slice { code := irActiveSlot }
  else match s.storeFlash (2 + portBit o.slotB) b flashOk with
    | (s, true) => s.imageDone o.op o.slice none
    | (s, false) => s.imageFail o.op o.slice { code := irFlash }

/-- The checks and the effect of an operation on the image it fetched. -/
def State.imageEffect (s : State) (o : ImageOp) (b : Bytes) (flashOk : Bool) : State :=
  if o.op = 1 then
    match s.applyCheck o.slice b o.len with
    | some e => s.imageFail 1 o.slice e
    | none => (s.installSlice o.slice b).imageDone 1 o.slice none
  else
    match wholeCheck s.nv s.density b (some o.len) with
    | some e => s.imageFail o.op o.slice e
    | none =>
      if o.op = 2 then ((s.loadImage b 2).beginStep 7).imageDone 2 o.slice none
      else s.imageStore o b flashOk

/-- IMAGE_OPERATION_FINISH. -/
def State.doImageFinish (s : State) (reply : HostReply) (flashOk : Bool) : State :=
  match s.dev.imageOp with
  | none => s
  | some o =>
    if !s.imageRegs then s
    else match s.fetchedBytes o reply with
      | none => s.imageFail o.op o.slice { code := irFetch }
      | some b => s.imageEffect o b flashOk

def execImageOperationFinish (reply : HostReply) (flashOk : Bool) (s : State) : Host.Outcome State Fault Refusal :=
  .next (s.doImageFinish reply flashOk)

/-! ## Firmware operations (R67 to R69, R85) -/

def State.fwDone (s : State) (code : Nat) : State :=
  { s with dev := { s.dev with fwBusy := false, fwDone := true, fwOp := none, fwResult := code } }

/-- A write to CFG_FW_CTL with an operation: 1 LOAD, 2 STORE_SLOT. R69 accepts STORE_SLOT in READY only and does not say how
another one ends; here it ends WRONG_STATE, as an unaccepted LOAD does (DESIGN CHOICE, notes/assumptions/49.md). -/
def State.startFw (s : State) (op : Nat) (slotB port : Bool) : State :=
  if !s.imageRegs then s
  else if s.dev.fwBusy then { s with dev := { s.dev with fwOverrun := true } }
  else if !(if op = 1 then decide (s.dev.state = .fwWait) else s.ready) then s.fwDone irWrongState
  else if badFwLen s.dev.fwLen then s.fwDone irFetch
  else { s with dev := { s.dev with
      fwBusy := true
      fwOp := some { op := op, slice := 0, slotB := slotB, port := port, addr := s.dev.fwAddr, len := s.dev.fwLen } } }

def execFwLoad (port : Bool) (s : State) : Host.Outcome State Fault Refusal := .next (s.startFw 1 false port)

def execFwStoreSlot (slotB port : Bool) (s : State) : Host.Outcome State Fault Refusal :=
  .next (s.startFw 2 slotB port)

/-- The firmware that runs. -/
def State.runFirmware (s : State) (version : Nat) (host slotB : Bool) : State :=
  { s with dev := { s.dev with fwRunning := true, fwHost := host, fwSlotB := slotB, fwVersion := BitVec.ofNat 64 version } }

/-- Whether a firmware slot is the one from which the running firmware came. -/
def State.fwActive (s : State) (slotB : Bool) : Bool :=
  s.dev.fwRunning && !s.dev.fwHost && decide (s.dev.fwSlotB = slotB)

/-- Of two valid slots, the one with the greater first number, then the greater second; slot A where both are equal
(R40, R68). -/
def pickSlot (a b : Option (Nat × Nat)) : Option Bool :=
  match a, b with
  | some (x, y), some (u, v) => some (decide (x < u) || (decide (x = u) && decide (y < v)))
  | some _, none => some false
  | none, some _ => some true
  | none, none => none

/-- SEC_VERSION and IMAGE_SERIAL of a valid WHOLE image in a slot. -/
def State.slotWhole (s : State) (slotB : Bool) : Option (Nat × Nat) :=
  let b := s.nv.slotImage (2 + portBit slotB) badImgLen
  if wholeCheck s.nv s.density b none = none then some (imgSecVersion b, imgSerial b) else none

/-- SEC_VERSION and FW_VERSION of valid firmware in a slot. -/
def State.slotFw (s : State) (slotB : Bool) : Option (Nat × Nat) :=
  let b := s.nv.slotImage (portBit slotB) badFwLen
  if firmwareCheck s.nv b none = none then some (leAt b 0x10 4, fwVersionOf b) else none

/-- CFG_IMAGE_STATUS after the start-up load (R57); an operation of the manager that runs goes on. -/
def State.startupStatus (s : State) : State :=
  { s with dev := { s.dev with imageDone := true, imageLastOp := 2, imageResult := 0, imageOffset := 0xFFFFFFFF } }

/-- Step 6 reads the image slots (R40, R57): it loads one, or waits for the manager. -/
def State.pickImage (s : State) : State :=
  match pickSlot (s.slotWhole false) (s.slotWhole true) with
  | some slotB =>
    ((s.loadImage (s.nv.slotImage (2 + portBit slotB) badImgLen) (portBit slotB)).startupStatus).beginStep 7
  | none => s.enterState .imageWait

/-- The effect of a firmware operation on what it fetched. -/
def State.fwEffect (s : State) (o : ImageOp) (b : Bytes) (flashOk : Bool) : State :=
  match firmwareCheck s.nv b (some o.len) with
  | some e => s.fwDone e.code
  | none =>
    if o.op = 1 then
      let s := (s.runFirmware (fwVersionOf b) true false).fwDone 0
      (s.enterState .bringup).pickImage
    else if s.fwActive o.slotB then s.fwDone irActiveSlot
    else match s.storeFlash (portBit o.slotB) b flashOk with
      | (s, true) => s.fwDone 0
      | (s, false) => s.fwDone irFlash

/-- FIRMWARE_OPERATION_FINISH. -/
def State.doFwFinish (s : State) (reply : HostReply) (flashOk : Bool) : State :=
  match s.dev.fwOp with
  | none => s
  | some o =>
    if !s.imageRegs then s
    else match s.fetchedBytes o reply with
      | none => s.fwDone irFetch
      | some b => s.fwEffect o b flashOk

def execFirmwareOperationFinish (reply : HostReply) (flashOk : Bool) (s : State) : Host.Outcome State Fault Refusal :=
  .next (s.doFwFinish reply flashOk)

/-! ## Key fuses (R39, R60) -/

/-- The usable key slots: programmed and not revoked. -/
def Nv.usableKeys (nv : Nv) : Nat :=
  (List.range 4).foldl (fun m k => setBit m k ((Tbl.find? nv.keys k).isSome && !bitAt nv.revoked k)) 0

/-- A write to CFG_SEC_CTL with REVOKE: refused where it would leave no usable slot. -/
def State.doRevoke (s : State) (unlock mask : Nat) : State :=
  let gone := s.dev.secRevoke ||| mask % 16
  if s.ready && decide (unlock = 0xA5) && (List.range 4).any (fun k => bitAt s.nv.usableKeys k && !bitAt gone k) then
    { s with dev := { s.dev with secRevoke := gone } }
  else s

def execRevoke (unlock : Byte) (mask : BitVec 4) (s : State) : Host.Outcome State Fault Refusal :=
  .next (s.doRevoke unlock.toNat mask.toNat)

/-- A write to CFG_SEC_CTL with RAISE_FLOOR. -/
def State.doRaiseFloor (s : State) (unlock : Nat) : State :=
  if s.ready && decide (unlock = 0xA5) then
    { s with dev := { s.dev with secFloor := max s.dev.secFloor (min 64 s.whole.secVersion.toNat) } }
  else s

def execRaiseFloor (unlock : Byte) (s : State) : Host.Outcome State Fault Refusal :=
  .next (s.doRaiseFloor unlock.toNat)

/-! ## Slice states (R42, R43, R61) -/

def State.wrongState (s : State) : State := { s with dev := { s.dev with sliceWrong := true } }

/-- DRAIN. -/
def State.doDrain (s : State) (i : Nat) : State :=
  if !s.ready then s
  else if (s.slice i).state = .active then s.updSlice i (fun v => { v with state := .draining })
  else s.wrongState

def execDrain (slice : BitVec 8) (s : State) : Host.Outcome State Fault Refusal := .next (s.doDrain slice.toNat)

/-- RESUME, refused while the stored descriptor is bad (R321). -/
def State.doResume (s : State) (i : Nat) : State :=
  if !s.ready then s
  else if (s.slice i).state = .drained ∧ !(s.slice i).descBad then
    s.updSlice i (fun v => { v with state := .active, freezing := none })
  else s.wrongState

def execResume (slice : BitVec 8) (s : State) : Host.Outcome State Fault Refusal := .next (s.doResume slice.toNat)

/-- None of a slice's commands is dispatched and incomplete, so none of its gangs, operations or DMA is left, and every
stream that it opened has closed. -/
def State.quiescent (s : State) (i : Nat) : Bool :=
  !(s.cmds.any (fun e => decide (e.2.slice = i) && e.2.live))
    && !(s.sweld.outs.any (fun e => decide (e.2.slice = i)))

/-- SLICE_DRAINED (R43). -/
def State.doSliceDrained (s : State) (i : Nat) : State :=
  if s.ready && decide ((s.slice i).state = .draining) && s.quiescent i then
    s.updSlice i (fun v => { v with state := .drained })
  else s

def execSliceDrained (slice : BitVec 8) (s : State) : Host.Outcome State Fault Refusal :=
  .next (s.doSliceDrained slice.toNat)

end Sys2Proof.Machine
end

