-- ==== Sys2Proof/Machine/Bringup.lean ====
section
/-! DEFINITION. Bring-up (spec/03 R63 to R66, R70), package resets (R73, R74) and the pins that start them (spec/16 R376,
R377), and the PCIe links (R66, R73). -/

namespace Sys2Proof.Machine

/-! ## Package resets -/

/-- RESET_CAUSE codes (Table 3.11). -/
def causeCold : Nat := 0
def causePerst : Nat := 1
def causeManager : Nat := 2
def causePlinth : Nat := 3

/-- A package reset begins (R65, R71, R74): everything but fuses, flash, TIME and the pins returns to its reset value. The
queue of commands, the host's memory and the draw counter are not the device's. While PERST_N is low the steps are held;
while PROCHOT_N is low the throttle level is 32 (R386). -/
def State.beginPackage (s : State) (cause : Nat) (hold : Bool) : State :=
  let t := s.dev.ticks
  let s' : State := { State.reset with
    pending := s.pending, free := s.free, time := s.time, nv := s.nv, host := s.host
    pins := { s.pins with memResetN := 0 }
    sweld := { masterPkg := s.pins.pkgId.toNat }
    plb := { level := if s.pins.prochotN then 0 else 32 }
    dev := { resetCause := cause, ticks := t, resetTime := t, stepTime := t, perstHold := hold || !s.pins.perstN } }
  if s.dev.state = .bringup then s' else s'.signal

/-- PACKAGE_RESET: by the manager with UNLOCK 0x5A (R82), or by the Plinth controller; ignored after THERMTRIP (R389). -/
def State.doPackageReset (s : State) (src : ResetSource) : State :=
  match src with
  | .manager u =>
    if !s.stopRegs then s
    else if u ≠ 0x5A then s.refuseReset
    else if s.powered then s.beginPackage causeManager false else s
  | .management => if s.powered then s.beginPackage causePlinth false else s
  | _ => s

def execPackageReset (src : ResetSource) (s : State) : Host.Outcome State Fault Refusal := .next (s.doPackageReset src)

/-- COLD_START (R376, R377): the straps are sampled and TIME starts from zero; while PERST_N is low it waits. -/
def State.doColdStart (s : State) (pkgId : BitVec 4) (traySel : Bool) : State :=
  if s.pins.pwrGood || !s.pins.perstN then s
  else
    { State.reset with
      pending := s.pending, free := s.free, nv := s.nv, host := s.host
      pins := { pwrGood := true, prochotN := s.pins.prochotN, pkgId := pkgId, traySel := traySel }
      plb := { level := if s.pins.prochotN then 0 else 32 }
      sweld := { masterPkg := pkgId.toNat } }

def execColdStart (pkgId : BitVec 4) (traySel : Bool) (s : State) : Host.Outcome State Fault Refusal :=
  .next (s.doColdStart pkgId traySel)

/-- What the loss of power does to the flash: a slot whose store is under way is left invalid (R345), and a journal record
that was being written fails its check (R344). A record is written within 1 s, when is not stated: a free choice. -/
def State.cutFlash (s : State) : State :=
  let s := match s.dev.imageOp with
    | some o => if o.op = 3 ∧ s.whole.loadedFrom ≠ portBit o.slotB then s.spoilSlot (2 + portBit o.slotB) else s
    | none => s
  let s := match s.dev.fwOp with
    | some o => if o.op = 2 ∧ !s.fwActive o.slotB then s.spoilSlot (portBit o.slotB) else s
    | none => s
  match s.dev.journalAt with
  | some t =>
    let (k, s) := s.drawChoice 2
    if k = 1 ∧ s.powered ∧ s.dev.ticks ≤ t + 1000000000 then s.spoilRecord else s
  | none => s

/-- PWR_GOOD falls (R377): no device state survives. -/
def State.doPwrGoodFall (s : State) : State :=
  let s := s.cutFlash
  { State.reset with
    pending := s.pending, free := s.free, nv := s.nv, host := s.host
    pins := { pwrGood := false, perstN := s.pins.perstN, prochotN := s.pins.prochotN } }

def execPwrGoodFall (s : State) : Host.Outcome State Fault Refusal := .next s.doPwrGoodFall

/-- PERST_N has been low for 100 ns (R377): a package reset begins, and is held. After a thermal trip it is ignored
(R389). -/
def State.doPerstAssert (s : State) : State :=
  let s := { s with pins := { s.pins with perstN := false } }
  if s.powered then s.beginPackage causePerst true else s

def execPerstNAssert (s : State) : Host.Outcome State Fault Refusal := .next s.doPerstAssert

/-- PERST_N rises (R377): the held reset's steps run from here. -/
def State.doPerstRelease (s : State) : State :=
  let s := { s with pins := { s.pins with perstN := true } }
  if s.powered && s.dev.perstHold then
    { s with dev := { s.dev with perstHold := false, stepTime := s.dev.ticks } }
  else s

def execPerstNRelease (s : State) : Host.Outcome State Fault Refusal := .next s.doPerstRelease

/-! ## Bring-up steps (Table 3.1) -/

/-- FAIL_CODE values of Table 3.12. -/
def failFuse : Nat := 1
def failRepair : Nat := 2
def failTrain : Nat := 3
def failDensity : Nat := 4
def failTimeout : Nat := 5

/-- Bring-up ends in FAILED. -/
def State.failBringup (s : State) (code unit : Nat) : State :=
  { s with dev := { s.dev with failCode := code, failUnit := unit } }.enterState .failed

/-- The least number of a list. -/
def least : List Nat → Option Nat
  | [] => none
  | x :: t => match least t with
    | some y => some (min x y)
    | none => some x

/-- The guard-band domains that each adjustable supply feeds (Table 16.6), by regulator (R385): VDD_CORE_N, VDD_CORE_S,
VDD_SRAM_N, VDD_SRAM_S, VDD_Q. -/
def railDomains (reg : Nat) : List Nat :=
  if reg = 4 then [8, 9] else if reg % 2 = 0 then [0, 1, 2, 3] else [4, 5, 6, 7]

/-- The guard-band a supply must carry: the largest among its domains (R342). -/
def State.railGuard (s : State) (reg : Nat) : Nat :=
  ((railDomains reg).map (fun d => (Tbl.get {} s.tel.aging d).guardMv)).foldl max 0

/-- A set point is written (R385), unless the regulator has been given up. -/
def State.writeSetPoint (s : State) (reg : Nat) : State :=
  if bitAt s.plb.vrDead reg then s
  else { s with plb := { s.plb with setPoint := Tbl.set 0 s.plb.setPoint reg (s.railGuard reg) } }

/-- One transaction with a regulator (R385): three in a row without an acknowledge give it up. -/
def State.vrTransaction (s : State) (reg : Nat) (acked : Bool) : State :=
  let n := if acked then 0 else Tbl.get 0 s.plb.vrMissed reg + 1
  let gone := decide (3 ≤ n)
  { s with plb := { s.plb with
      vrMissed := Tbl.set 0 s.plb.vrMissed reg n
      vrDead := if gone then setBit s.plb.vrDead reg true else s.plb.vrDead
      vrFault := s.plb.vrFault || gone } }

/-- The step-2 transactions with one regulator: VOUT_TRANSITION_RATE at 1 mV per µs, then VOUT_COMMAND. -/
def State.startRegulator (s : State) (answers : List Bool) (reg : Nat) : State :=
  let s := s.vrTransaction reg (answers.getD (2 * reg) false)
  let s := if answers.getD (2 * reg) false then { s with plb := { s.plb with slewRate := Tbl.set 0 s.plb.slewRate reg 1 } } else s
  let s := s.vrTransaction reg (answers.getD (2 * reg + 1) false)
  if answers.getD (2 * reg + 1) false then s.writeSetPoint reg else s

/-- The guard-bands of the journal come back (R342, R344), and the regulators are set (R385). -/
def State.restoreGuards (s : State) (answers : List Bool) : State :=
  let j := s.nv.journal
  let s := if j.valid then
      (List.range 10).foldl (fun s d => { s with tel := { s.tel with
        aging := Tbl.upd {} s.tel.aging d (fun a => { a with guardMv := j.guardMv.getD d 0 }) } }) s
    else s
  (List.range 5).foldl (fun s reg => s.startRegulator answers reg) s

/-- A journal record that counts one more package reset (R344). -/
def State.journalBoot (s : State) : State :=
  let j := s.nv.journal
  s.appendJournal { j with boots := if j.valid then j.boots + 1 else 1 }

/-- Step 2 ends: fuses loaded, field repairs in force, guard-bands restored. -/
def State.endStep2 (s : State) (crcOk : Bool) (answers : List Bool) : State :=
  let s := { s with nv := { s.nv with fusesOk := crcOk } }
  let s := (s.restoreGuards answers).journalBoot
  if crcOk then ((List.range 8).foldl (fun s d => s.applyRepairs d false) s).beginStep 3
  else s.failBringup failFuse 0

/-- Step 3 ends: the self-test of the bed dies. -/
def State.endStep3 (s : State) (exhausted : List Nat) : State :=
  match least exhausted with
  | some d => s.failBringup failRepair d
  | none => { s with pins := { s.pins with memResetN := BitVec.allOnes 32 } }.beginStep 4

/-- Every channel's memory trained. -/
def State.trainAll (s : State) : State :=
  (List.range 128).foldl (fun (s : State) (c : Nat) => s.updChan c (fun v => { v with trained := true })) s

/-- What step 4 finds wrong, with the channel it names: an unsupported type, then a density that differs, then a channel
that did not train. -/
def badMemory (failed unsupported density : List Nat) : Option (Nat × Nat) :=
  match least unsupported with
  | some p => some (failTrain, 4 * p)
  | none =>
    match least ((List.range 32).filter (fun p => decide (density.getD p (density.getD 0 0) ≠ density.getD 0 0))) with
    | some p => some (failDensity, 4 * p)
    | none => (least failed).map (fun c => (failTrain, c))

/-- The highest rate of R18 that every package supports (R243). -/
def commonRate (rates : List (List Nat)) : Nat :=
  ((List.range 4).filter (fun r => rates.all (fun p => p.contains r))).foldl max 0

/-- Step 4 ends: mode registers and densities, then training (R64, R243). -/
def State.endStep4 (s : State) (failed unsupported : List Nat) (rates : List (List Nat)) (density : List Nat) : State :=
  match badMemory failed unsupported density with
  | some (f, c) => s.failBringup f c
  | none =>
    let s := s.trainAll
    { s with dev := { s.dev with memRate := commonRate rates, memDensity := density.getD 0 0 } }.beginStep 5

/-- Step 5 ends: all memory is fresh, and MEM_VALID is set (Table 3.1). R22 lets it rise as training completes, at the end
of step 4; the model follows the table (DEDUCED, notes/assumptions/48.md). -/
def State.endStep5 (s : State) : State :=
  { s with mem := { s.mem with notFresh := [] }, dev := { s.dev with memValid := true } }.beginStep 6

/-- Step 6 ends: firmware (R68), then the image (R40). -/
def State.endStep6 (s : State) : State :=
  match pickSlot (s.slotFw false) (s.slotFw true) with
  | none => s.enterState .fwWait
  | some slotB =>
    (s.runFirmware (fwVersionOf (s.nv.slotImage (portBit slotB) badFwLen)) false slotB).pickImage

/-- Step 7 ends: the FABRIC_ROUTE record is in every router and bridge (R35, R242). -/
def State.endStep7 (s : State) : State :=
  let routes : Tbl Nat := ((List.range 64).map (fun i => (i, s.whole.routes.getD i 0))).filter (fun e => decide (e.2 ≠ 0))
  { s with fab := { s.fab with routes := routes, weights := s.whole.weights } }.beginStep 8

/-- A slice comes to life from the WHOLE image (R40, R50). -/
def State.startSlice (s : State) (i : Nat) : State :=
  let d := Tbl.get {} s.whole.slices i
  (s.updSlice i (fun v => { v with defn := d, state := if d.enabled then .active else .off })).writeCopies i

/-- A package reset that was asked for finishes (R83): LAST_DOMAIN names it, and DONE is set where CFG_RESET_CTL started it
(notes/assumptions/52.md). -/
def State.notePackageEnd (s : State) : State :=
  if s.dev.resetCause = causeCold then s
  else { s with dev := { s.dev with
    lastDomain := domPackage, lastInst := 0, resetDone := s.dev.resetDone || decide (s.dev.resetCause = causeManager) } }

/-- The first pass of every channel's scrubber begins (R338). -/
def State.startScrubs (s : State) : State :=
  (List.range 128).foldl (fun s c => s.updChan c (fun v => { v with scrubStart := s.dev.ticks, meterTime := s.dev.ticks, streamTime := s.dev.ticks })) s

/-- Step 8 ends in READY: slab modes, slices with both copies, the start-up values of mask and buckets (R36), and ports that
train. -/
def State.endStep8 (s : State) : State :=
  let w := s.whole
  let s := (List.range 48).foldl (fun s b => s.updBay b (fun v => v.setMode (bitAt w.quartered b))) s
  let s := (List.range 256).foldl State.startSlice s
  let s := (List.range 16).foldl (fun s p => s.updPort p (fun v => { v with state := .training })) s
  let s := s.startScrubs
  { s with
    flt := { s.flt with mask := w.errMaskInit, threshold := w.bucketThreshold, leak := w.bucketLeak }
    dev := { s.dev with readyMs := (s.dev.ticks - s.dev.resetTime) / 1000000 } }.notePackageEnd.enterState .ready

/-- The limit of a step in ns (Table 3.1). -/
def stepLimit (step : Nat) : Nat :=
  1000000 * (match step with
    | 2 => 100
    | 3 => 2000
    | 4 => 5000
    | 5 => 10
    | 6 => 5000
    | _ => 100)

/-- The present step has run past its limit, waiting for the manager apart (R63). -/
def State.overdue (s : State) : Bool :=
  decide (stepLimit s.dev.step < s.dev.ticks - s.dev.stepTime - s.dev.stepWaited)

/-- BRINGUP_STEP_END: the work of the present step ends; past the step's limit it ends bring-up instead (R63). -/
def State.doStepEnd (s : State) (x : StepInput) : State :=
  if !s.powered || decide (s.dev.state ≠ .bringup) || s.dev.perstHold then s
  else if s.overdue then s.failBringup failTimeout s.dev.step
  else match x with
  | .fuses ok answers => if s.dev.step = 2 then s.endStep2 ok answers else s
  | .selfTest ds => if s.dev.step = 3 then s.endStep3 (ds.map (·.val)) else s
  | .training failed unsupported rates density =>
    if s.dev.step = 4 then
      s.endStep4 (failed.map (·.val)) (unsupported.map (·.val)) (rates.map (fun p => p.map (·.val)))
        (density.map (·.val))
    else s
  | .plain =>
    if s.dev.step = 5 then s.endStep5
    else if s.dev.step = 6 then s.endStep6
    else if s.dev.step = 7 then s.endStep7
    else if s.dev.step = 8 then s.endStep8
    else s

def execBringupStepEnd (input : StepInput) (s : State) : Host.Outcome State Fault Refusal := .next (s.doStepEnd input)

/-- BRINGUP_STEP_TIMEOUT: a step that runs past its limit (R63). -/
def State.doStepTimeout (s : State) : State :=
  if s.powered && decide (s.dev.state = .bringup) && !s.dev.perstHold && s.overdue then
    s.failBringup failTimeout s.dev.step
  else s

def execBringupStepTimeout (s : State) : Host.Outcome State Fault Refusal := .next s.doStepTimeout

/-! ## PCIe links (R66, R73) -/

def State.setLink (s : State) (port up : Bool) : State :=
  { s with dev := if port then { s.dev with linkUp1 := up } else { s.dev with linkUp0 := up } }

/-- PCIE_LINK_UP: a port has trained, in step 2 or after its link went down. -/
def State.doLinkUp (s : State) (port : Bool) : State :=
  if s.powered && !s.dev.perstHold then s.setLink port true else s

def execPcieLinkUp (port : Bool) (s : State) : Host.Outcome State Fault Refusal := .next (s.doLinkUp port)

/-- A record whose write was lost with the link (Table 4.19). -/
def State.lostRecord (s : State) (port : Bool) : RingId → State
  | .cq sl q => s.updCq sl.toNat q.toNat (fun r => if r.port = port then { r with lost := satAdd 16 r.lost 1 } else r)
  | .fq sl => s.updSlice sl.toNat (fun v =>
      if v.fq.port = port then { v with fq := { v.fq with lost := satAdd 16 v.fq.lost 1 } } else v)
  | _ => s

/-- Outstanding reads of host memory on a port end with a host-access error (R73). -/
def State.failHostReads (s : State) (port : Bool) : State :=
  (s.reqs.filter (fun e => e.2.host.isSome && decide (e.2.kind = ReqKind.read) && decide (e.2.responder = unitQueue port))).foldl
    (fun s e => s.doReadReply e.1 .linkDown) s

/-- An operation of the manager that still reads through the port ends with FETCH_ERROR or HOST_ERROR (R54). -/
def State.failOps (s : State) (port : Bool) : State :=
  let s := match s.dev.imageOp with
    | some o => if o.port = port then s.imageFail o.op o.slice { code := irFetch } else s
    | none => s
  match s.dev.fwOp with
  | some o => if o.port = port then s.fwDone irFetch else s
  | none => s

end Sys2Proof.Machine
end

