-- ==== Sys2Proof/Machine/Collect.lean ====
section
/-! DEFINITION. The reporting path (spec/13 R307 to R317), check-bit injection (R318, R330), field repair (R319, R320,
R331), the descriptor scrubber (R321), bridge replays (spec/10 R233) and faults of logic (R303, R304). -/

namespace Sys2Proof.Machine

/-! ## Reporters and their collectors (R305, R307) -/

/-- A unit with a pair of its own: all of Table 13.3 but the bridges (R305). -/
def hasPair (u : Nat) : Bool :=
  match unitKind u with
  | .bridge _ | .reserved => false
  | _ => true

/-- The collector that samples a unit's pair. -/
def collectorOf (u : Nat) : Nat :=
  match unitKind u with
  | .dieCollector _ | .quoinCollector _ => 0xF6
  | .queue q | .plumb q | .pcie q => 0xF6 + q
  | .port p => 0xF6 + ofBool (decide (8 ≤ p))
  | _ => match dieOfUnit u with
    | some d => unitDieCollector d
    | none => 0xF6

/-! ## Records on their way (R310, R314) -/

/-- A collector takes the oldest record of a reporter whose pair last showed an error (R307): a die collector with room for
it, or a quoin's collector, which passes it to the package collector. Without a record left the reporter goes back to
(0,1). -/
def State.takeRecord (s : State) (u : Nat) : State :=
  match (s.reporter u).queue with
  | [] => s
  | r :: rest =>
    let drop := fun s : State => (s.updReporter u (fun v => { v with
      queue := rest, err := !rest.isEmpty, errN := rest.isEmpty })).signalUnits .report u (collectorOf u)
    if hasPair u && !(s.reporter u).err then s else
    match dieOfUnit u with
    | some d =>
      let held := Tbl.get [] s.flt.collectors d
      if held.length < 64 then
        let s := drop s
        { s with flt := { s.flt with collectors := Tbl.set [] s.flt.collectors d (held ++ [r]) } }
      else s
    | none => (drop s).collect r

/-- A die collector forwards its oldest record to the package collector. -/
def State.forwardRecord (s : State) (d : Nat) : State :=
  match Tbl.get [] s.flt.collectors d with
  | [] => s
  | r :: rest => ({ s with flt := { s.flt with collectors := Tbl.set [] s.flt.collectors d rest } }).collect r

/-- FAULT_RECORD_COLLECT. The service plane runs while PWR_GOOD is high (R389). -/
def State.doCollect (s : State) (u : Nat) (forward : Bool) : State :=
  if !s.pins.pwrGood then s
  else
    let s := s.takeRecord u
    match forward, dieOfUnit u with
    | true, some d => s.forwardRecord d
    | _, _ => s

def execFaultRecordCollect (unit : BitVec 12) (forward : Bool) (s : State) : Host.Outcome State Fault Refusal :=
  .next (s.doCollect unit.toNat forward)

/-- Records of class U or F and BUCKET_THRESHOLD notify (R313). -/
def notifies (code : Nat) : Bool := faultClass code == 1 || faultClass code == 2 || decide (code = fcBucket)

/-- FAULT_RECORD_POST: the oldest held record goes to the fault ring. -/
def State.doFaultPost (s : State) : State :=
  match s.flt.held with
  | [] => s
  | r :: rest =>
    let ring := s.flt.ring
    if s.pins.pwrGood && ring.enable && decide (0 < ring.free) && (s.ringPort ring).isSome then
      let (s, ring) := s.postManager ring 0x0B { bytes := r.bytes, notify := notifies r.code }
      { s with flt := { s.flt with held := rest, ring := ring } }
    else s

def execFaultRecordPost (s : State) : Host.Outcome State Fault Refusal := .next s.doFaultPost

/-! ## Reporter pairs (R307, R308) -/

/-- A cache slice becomes OFFLINE (R203, R302): its ways are written back and disabled. -/
def State.offlineSlice (s : State) (x : Nat) : State :=
  let s := (List.range 16).foldl (fun s w =>
    (s.setsHeld x w).foldl (fun s set => if s.canEmpty x w set then s.evictWay x set w else s) s) s
  s.offline (unitUcSlice x)

/-- A reporter's pair is stuck: REPORTER_PATH, and the reporter goes offline (R308). -/
def State.pathFault (s : State) (u info : Nat) : State :=
  let s := s.raise fcReporterPath { unit := u, info0 := info, reporter := some (collectorOf u) }
  match unitKind u with
  | .ucSlice x => s.offlineSlice x
  | .dieCollector d => s.stopDie d
  | .queue _ | .plumb _ | .pcie _ | .quoinCollector _ => s.packageStop u 2
  | _ => s.offline u

/-- One SCLK edge of a pair. -/
def State.doSample (s : State) (u : Nat) (err errN : Bool) : State :=
  if !s.pins.pwrGood || !hasPair u then s
  else
    let r := s.reporter u
    let e := err || decide (0 < r.forced)
    let n := errN || decide (0 < r.forced)
    let r := { r with forced := r.forced - 1 }
    if e = n then
      let k := min 5 (r.equalEdges + 1)
      let s := s.updReporter u (fun _ => { r with equalEdges := k, emptyEdges := 0 })
      if k = 4 then s.pathFault u (if e then 3 else 0) else s
    else if e && r.queue.isEmpty then
      let k := min 65 (r.emptyEdges + 1)
      let s := s.updReporter u (fun _ => { r with err := e, errN := n, equalEdges := 0, emptyEdges := k })
      if k = 64 then s.pathFault u 2 else s
    else s.updReporter u (fun _ => { r with err := e, errN := n, equalEdges := 0, emptyEdges := 0 })

def execReporterPath (unit : BitVec 12) (err errN : Bool) (s : State) : Host.Outcome State Fault Refusal :=
  .next (s.doSample unit.toNat err errN)

/-! ## Buckets and acknowledgement (R316, R317) -/

/-- BUCKET_LEAK: at a multiple of LEAK_S seconds. -/
def State.doLeak (s : State) : State :=
  if s.powered && decide (0 < s.flt.leak) && decide (s.time % (s.flt.leak * 1000000000) = 0)
      && decide (s.time ≠ s.flt.lastLeak) then
    { s with flt := { s.flt with
        lastLeak := s.time
        buckets := (Tbl.mapVals s.flt.buckets (fun _ n => n - 1)).filter (fun e : Nat × Nat => decide (e.2 ≠ 0)) } }
  else s

def execBucketLeak (s : State) : Host.Outcome State Fault Refusal := .next s.doLeak

/-- FLT_ACK: a value beyond the last SEQ assigned is clamped to it; the records it covers close. -/
def State.doAck (s : State) (v : W32) : State :=
  if !s.stopRegs then s
  else
    let ack := if ackCovers s.flt.lastSeq v then v else s.flt.lastSeq
    { s with flt := { s.flt with
        ack := ack, openRecs := s.flt.openRecs.filter (fun e : W32 × Nat => !ackCovers ack e.1) } }

def execFltAck (value : W32) (s : State) : Host.Outcome State Fault Refusal := .next (s.doAck value)

/-! ## Check-bit injection (R318, R330) -/

def injectUnlock : Nat := 0x3C

def State.refuseInject (s : State) : State :=
  { s with flt := { s.flt with inject := { s.flt.inject with refused := true } } }

/-- A checker suits a unit (Table 13.6). -/
def checkerSuits (checker u : Nat) : Bool :=
  match unitKind u with
  | .chan _ => checker == 0 || checker == 7
  | .ucSlice _ => checker == 1 || checker == 2
  | .bay _ => checker == 3
  | .bridge _ => checker == 4
  | .port _ => checker == 5
  | .queue _ => checker == 6
  | _ => false

/-- ARM. -/
def State.doArm (s : State) (unlock u checker mask count : Nat) : State :=
  if !s.ready then s
  else if unlock ≠ injectUnlock || decide (count = 0) || !checkerSuits checker u || s.flt.inject.armed then s.refuseInject
  else { s with flt := { s.flt with inject := { s.flt.inject with
      armed := true, checker := checker, unit := u, mask := mask, remaining := count } } }

def execArm (unlock : Byte) (unit : BitVec 12) (checker : Fin 8) (mask : Byte) (count : BitVec 16) (s : State) :
    Host.Outcome State Fault Refusal :=
  .next (s.doArm unlock.toNat unit.toNat checker.val mask.toNat count.toNat)

/-- DISARM. -/
def State.doDisarm (s : State) (unlock : Nat) : State :=
  if !s.ready then s
  else if unlock ≠ injectUnlock then s.refuseInject
  else { s with flt := { s.flt with inject := { s.flt.inject with armed := false, remaining := 0 } } }

def execDisarm (unlock : Byte) (s : State) : Host.Outcome State Fault Refusal := .next (s.doDisarm unlock.toNat)

/-- The kinds of unit whose pair FORCE_PATH may drive. -/
def forceable (u : Nat) : Bool :=
  match unitKind u with
  | .bay _ | .chan _ | .port _ | .ucSlice _ => true
  | _ => false

/-- FORCE_PATH: the pair is (1,1) for 8 SCLK. -/
def State.doForcePath (s : State) (unlock u : Nat) : State :=
  if !s.ready then s
  else if unlock ≠ injectUnlock || !forceable u then s.refuseInject
  else s.updReporter u (fun r => { r with forced := 8 })

def execForcePath (unlock : Byte) (unit : BitVec 12) (s : State) : Host.Outcome State Fault Refusal :=
  .next (s.doForcePath unlock.toNat unit.toNat)

/-! ## Fuses (R60, R320, R331) -/

/-- Field-repair slots of a die that are used, or that blows in progress will use. -/
def State.repairSlots (s : State) (d : Nat) : Nat :=
  (Tbl.get [] s.nv.repairs d).length + (s.flt.blowing.filter (fun e : Nat × W64 × Bool => e.1 == d)).length

/-- A GO write to FLT_REPAIR_CTL; ignored while BUSY. -/
def State.doRepairGo (s : State) (unlock d : Nat) : State :=
  if !s.ready || decide (unlock ≠ 0xC5) || s.flt.repairBusy then s
  else if 64 ≤ s.repairSlots d then { s with flt := { s.flt with repairFull := true } }
  else
    let e := BitVec.ofNat 64 (repairEntryWithCrc (s.flt.repairEntry.toNat % 2 ^ 56))
    { s with flt := { s.flt with repairBusy := true, blowing := s.flt.blowing ++ [(d, e, true)] } }

def execFltRepairGo (unlock : Byte) (die : Fin 8) (s : State) : Host.Outcome State Fault Refusal :=
  .next (s.doRepairGo unlock.toNat die.val)

/-- FUSE_BLOW_DONE: the first repair blow in progress, or else the key fuses. A failed blow uses its slot up. -/
def State.doBlowDone (s : State) (ok : Bool) : State :=
  if !s.powered then s
  else match s.flt.blowing with
  | (d, e, byManager) :: rest =>
    let e := if ok then e else e ^^^ 0xFF00000000000000#64
    { s with
      nv := { s.nv with repairs := Tbl.upd [] s.nv.repairs d (· ++ [e]) }
      flt := { s.flt with
        blowing := rest
        repairBusy := s.flt.repairBusy && !byManager
        repairDone := s.flt.repairDone || (byManager && ok)
        repairFailed := s.flt.repairFailed || !ok } }
  | [] =>
    let nv := if ok then
        { s.nv with revoked := s.nv.revoked ||| s.dev.secRevoke, floor := max s.nv.floor s.dev.secFloor }
      else s.nv
    { s with nv := nv, dev := { s.dev with secRevoke := 0, secFloor := 0 } }

def execFuseBlowDone (ok : Bool) (s : State) : Host.Outcome State Fault Refusal := .next (s.doBlowDone ok)

/-! ## The descriptor scrubber (R321) -/

/-- The items of a stored copy: descriptor, range entries, PASID entries, each with its CRC. -/
def splitItems (d : SliceDef) (b : Bytes) : List Bytes :=
  let r := 128 + 32 * d.ranges.length
  bytesAt b 0 128 :: (List.range d.ranges.length).map (fun i => bytesAt b (128 + 32 * i) 32)
    ++ (List.range d.pasids.length).map (fun i => bytesAt b (r + 12 * i) 12)

/-- An item whose last four bytes are its CRC-32C. -/
def itemOk (x : Bytes) : Bool := decide ((crc32c (x.take (x.length - 4))).toNat = leAt x (x.length - 4) 4)

def copyOk (d : SliceDef) (b : Bytes) : Bool := (splitItems d b).all itemOk

/-- The first byte in which two copies differ. -/
def firstDiff : Bytes → Bytes → Nat → Option Nat
  | [], [], _ => none
  | a :: as, b :: bs, i => if a = b then firstDiff as bs (i + 1) else some i
  | _, _, i => some i

/-- One copy is rewritten from the other. -/
def State.rewriteCopy (s : State) (i : Nat) (quoin : Bool) (diff : Nat) : State :=
  let v := s.slice i
  let good := if quoin then v.copy0 else v.copy1
  let (s, b) := writeItems quoin ((splitItems v.defn good).map (fun x => x.take (x.length - 4))) s
  let s := s.updSlice i (fun v => if quoin then { v with copy1 := b } else { v with copy0 := b })
  s.raise fcDescMismatch { unit := unitQueue quoin, slice := some i, info0 := diff, info1 := portBit quoin }

/-- DESC_BAD: an ACTIVE slice enters DRAINING whatever its masks. The first differing byte of identical copies is not
stated. -/
def State.descBad (s : State) (i : Nat) (diff : Option Nat) : State :=
  let (info, s) : Nat × State := match diff with
    | some k => (k, s)
    | none => s.drawResult
  let s := s.raise fcDescBad { unit := unitQueue false, slice := some i, info0 := info }
  s.updSlice i (fun v => { v with descBad := true, state := if v.state = .active then .draining else v.state })

/-- DESCRIPTOR_SCRUB of one slice; a slice in APPLYING is skipped. -/
def State.doDescScrub (s : State) (i : Nat) : State :=
  let v := s.slice i
  if !s.ready || decide (v.state = .applying) then s
  else
    let diff := firstDiff v.copy0 v.copy1 0
    match diff, copyOk v.defn v.copy0, copyOk v.defn v.copy1 with
    | none, true, _ => s
    | some k, true, false => s.rewriteCopy i true k
    | some k, false, true => s.rewriteCopy i false k
    | _, _, _ => s.descBad i diff

def execDescriptorScrub (slice : BitVec 8) (s : State) : Host.Outcome State Fault Refusal :=
  .next (s.doDescScrub slice.toNat)

/-! ## Bridges (spec/10 R233, R240) -/

/-- A link has caused 16 retries within a second: a spare replaces it, or the bridge goes on without it; too few links
stop the package. -/
def State.failLink (s : State) (b link : Nat) : State :=
  let s := s.updBridge b (fun v => { v with recent := v.recent.filter (fun e : Nat × Nat => decide (e.1 ≠ link)) })
  let v := s.bridge b
  if 0 < v.spares then
    (s.updBridge b (fun v => { v with spares := v.spares - 1 })).raise fcLinkSpared
      { unit := unitBridge b, info0 := link }
  else
    let left := v.linksGood - 1
    let s := s.updBridge b (fun v => { v with linksGood := left, degraded := true })
    let s := s.raise fcBridgeDegraded { unit := unitBridge b, info0 := left }
    if left < 8 ∧ b ≤ 9 ∨ left = 0 then s.packageStop (unitBridge b) 0 else s

/-- BRIDGE_FLIT_REPLAY: the flit is sent again and counted. -/
def State.doFlitReplay (s : State) (b link : Nat) : State :=
  if !s.powered then s
  else
    let s := s.updBridge b (fun v => { v with
      retries := satAdd 32 v.retries 1
      recent := (link, s.time) :: v.recent.filter (fun e : Nat × Nat => decide (s.time < e.2 + 1000000000)) })
    if 16 ≤ ((s.bridge b).recent.filter (fun e : Nat × Nat => decide (e.1 = link))).length then s.failLink b link else s

def execBridgeFlitReplay (b : Fin 14) (link : BitVec 7) (s : State) : Host.Outcome State Fault Refusal :=
  .next (s.doFlitReplay b.val link.toNat)

/-! ## Faults of logic (R303, Table 13.2) -/

/-- LOGIC_FAULT_DETECTED. -/
def State.doLogicFault (s : State) (f : LogicFault) : State :=
  if !s.powered then s
  else match f with
  | .bothTags x set => if s.dieState (dieOfUcSlice x.toNat) = .up then s.lostTags x.toNat (set % 1536) else s
  | .onDieLinkBit d router => s.raise fcLinkCorrected { unit := unitDieCollector d.val, info0 := router.val }
  | .onDieLink d => if s.dieState d.val = .up then s.dieStop d.val 1 else s
  | .dieLogic d => if s.dieState d.val = .up then s.dieStop d.val 2 else s
  | .bridgeLost b => s.packageStop (unitBridge b.val) 0
  | .quoinLogic => s.packageStop 0xF6 1
  | .noPlumb => s.packageStop (unitPlumb false) 4

def execLogicFaultDetected (f : LogicFault) (s : State) : Host.Outcome State Fault Refusal := .next (s.doLogicFault f)

end Sys2Proof.Machine
end

