-- ==== Sys2Proof/Machine/Clock.lean ====
section
/-! DEFINITION. What a nanosecond without a command does (notes/assumptions/3.md): TIME (spec/00 R3, spec/12 R284) and the
counts of time. -/

namespace Sys2Proof.Machine

/-- How far TIME moves on the next tick: 1 ns, but 2 or 0 on one tick in every 16 of a slew (R284). -/
def State.tickStep (s : State) : Nat :=
  if s.sweld.slewing ∧ s.dev.ticks % 16 = 15 then
    (if 2 < s.sweld.offset then 2 else if s.sweld.offset < -2 then 0 else 1)
  else 1

/-- TIME after the next tick, and the offset from the master that remains. -/
def State.tickTime (s : State) : State :=
  let k := s.tickStep
  let off := s.sweld.offset - ((k : Int) - 1)
  { s with
    time := (s.time + k) % 2 ^ 64
    dev := { s.dev with
      ticks := s.dev.ticks + 1
      stepWaited := if s.dev.state = .fwWait ∨ s.dev.state = .imageWait then s.dev.stepWaited + 1 else s.dev.stepWaited }
    sweld := { s.sweld with offset := off, slewing := s.sweld.slewing && decide (2 < off.natAbs) } }

/-- Nanoseconds of bay holding, for each slice that holds bays (Table 14.6, R116). -/
def State.tickBays (s : State) : State :=
  (List.range 48).foldl (fun s b => match s.bayHolder b with
    | some i => s.count i 5 1
    | none => s) s

/-- SCLK edges that fall in the next nanosecond: 400 MHz (Table 1.4, Table 14.7). -/
def State.tickEdges (s : State) : Nat := (s.dev.ticks + 1) * 2 / 5 - s.dev.ticks * 2 / 5

/-- NCLK edges that fall in the next nanosecond: 1.6 GHz (Table 1.4). -/
def State.nclkEdges (s : State) : Nat := (s.dev.ticks + 1) * 8 / 5 - s.dev.ticks * 8 / 5

/-- One slot of a bridge: the flit whose turn it is crosses (R232), unless an injection has inverted bits of its CRC: then it
is sent again from the replay buffer, and its retry counts against a link, which one is free (R233, R318). -/
def State.bridgeSlot (s : State) (k : Nat) (out : List BulkMsg) : State × List BulkMsg × Bool :=
  let b := k / 2
  let f := Tbl.get ({} : Flow) s.fab.flows k
  match f.next (s.weight b) s.background with
  | none => (s, out, false)
  | some (m, g) =>
    let (bad, s) := s.injected 4 (unitBridge b)
    if bad = 0 then (s.updFlow k (fun _ => g), out ++ [m], true)
    else
      let (link, s) := s.drawChoice (max 1 (s.bridge b).linksGood)
      (s.doFlitReplay b link, out, true)

/-- The slots of one direction of a bridge on an NCLK edge, one for each working link. -/
def bridgeSlots (k : Nat) : Nat → List BulkMsg → State → State × List BulkMsg
  | 0, out, s => (s, out)
  | n + 1, out, s =>
    match s.bridgeSlot k out with
    | (s, out, true) => bridgeSlots k n out s
    | (s, out, false) => (s, out)

/-- One NCLK edge of the fabric: every direction of every bridge sends flits, which move on together, and so does every
control link. -/
def State.fabricEdge (s : State) : State :=
  let r := (s.fab.flows.map (·.1)).foldl (fun (e : State × List (Nat × BulkMsg)) k =>
    let (t, out) := bridgeSlots k (e.1.bridge (k / 2)).linksGood [] e.1
    (t, e.2 ++ out.map (fun m => (k, m)))) (s, [])
  let s := r.2.foldl (fun s e => s.passFlit e.1 e.2) r.1
  { s with fab := s.fab.ctrlEdge }

/-- The fabric's NCLK edges in a nanosecond. -/
def State.tickFabric (s : State) : State :=
  ((List.range s.nclkEdges).foldl (fun s _ => s.fabricEdge) s).tickSkew

/-- What NCLK does in a nanosecond: bays held are counted, the fabric moves on, and the time under a throttle counts. -/
def State.tickCounts (s : State) : State :=
  let s := s.tickBays.tickFabric
  if 0 < s.plb.level then { s with plb := { s.plb with throttleNs := s.plb.throttleNs + 1 } } else s

/-- One nanosecond in which no command comes. After THERMTRIP, SCLK and TIME run on (R389). -/
def State.idle (s : State) : State :=
  if s.pins.pwrGood then
    let s := s.event 0x01 0 none s.tickEdges
    let s := if s.powered then s.tickCounts else s
    s.tickTime
  else s

end Sys2Proof.Machine
end

