-- ==== Sys2Proof/Machine/Services.lean ====
section
/-! DEFINITION. Background services (spec/14 R339, R340, R342) and telemetry (R346 to R354). -/

namespace Sys2Proof.Machine

/-! ## The cache scrubber (R339) -/

/-- Adds to the errors that cache scrubbing has corrected (R357). -/
def State.scrubFixed (s : State) (n : Nat) : State :=
  { s with uc := { s.uc with scrubCorrected := satAdd 32 s.uc.scrubCorrected n } }

/-- Single-bit errors in the valid sectors of a way, as an injection left them. -/
def Way.singles (y : Way) : Nat :=
  ((List.range 4).filter (fun j => y.valid.getLsbD j && popCount 8 (bitsOf y.dataErr (8 * j + 7) (8 * j)) == 1)).length

/-- Ways of a set of which one tag copy is bad. -/
def State.tagSingles (s : State) (x set : Nat) : Nat :=
  ((s.setWays x set).filter (fun e : Nat × Way =>
    e.2.tagErr ≠ 0 && !(decide (2 ≤ popCount 7 (e.2.tagErr % 128)) && decide (2 ≤ popCount 7 (e.2.tagErr / 128))))).length

/-- An error of its own that the array shows in a sector. -/
def State.sectorErr (s : State) (x set : Nat) : Option (Fin 16 × Fin 4 × ArrayErr) → State
  | some (w, j, e) =>
    if !((s.way (wayKey x set w.val)).valid.getLsbD j.val) then s
    else match e with
      | .none => s
      | .single => (s.cacheCorrected x 0).scrubFixed 1
      | .uncorrectable => s.sectorLost x set w.val j.val
  | none => s

/-- The sectors of every way that holds data are checked. -/
def State.scrubData (s : State) (x set : Nat) (dataErr : Option (Fin 16 × Fin 4 × ArrayErr)) : State :=
  let s := (List.range 16).foldl (fun s w =>
    let y := s.way (wayKey x set w)
    if y.holds && s.wayEnabled x w then (s.checkSectors x set w y.valid).scrubFixed y.singles else s) s
  s.sectorErr x set dataErr

/-- Both tag copies of a set are checked; the answer is false where the die stops. -/
def State.scrubTags (s : State) (x set : Nat) (tag0 tag1 : ArrayErr) : State × Bool :=
  let n := s.tagSingles x set
  let s := (s.checkTags x set).scrubFixed n
  if s.dieState (dieOfUcSlice x) ≠ .up then (s, false)
  else if tag0 = .uncorrectable ∧ tag1 = .uncorrectable then (s.lostTags x set, false)
  else
    let one := fun (s : State) (e : ArrayErr) => if e = .none then s else (s.cacheCorrected x 1).scrubFixed 1
    (one (one s tag0) tag1, true)

/-- The scrubber goes on to the next set. -/
def State.scrubNext (s : State) (x : Nat) : State :=
  let n := Tbl.get 0 s.uc.scrubSet x + 1
  if n < 1536 then { s with uc := { s.uc with scrubSet := Tbl.set 0 s.uc.scrubSet x n } }
  else { s with uc := { s.uc with
    scrubSet := Tbl.set 0 s.uc.scrubSet x 0, scrubPasses := satAdd 32 s.uc.scrubPasses 1 } }

/-- What the meter of a cache slice holds by now, in units of 10^−4 access slots (R334): the budget's share of the slots of
CCLK at 2.2 GHz, at most four. -/
def State.cacheCredit (s : State) (x : Nat) : Int :=
  min 40000 (Tbl.get 0 s.uc.scrubCredit x + ((s.dev.ticks - Tbl.get 0 s.uc.meterTime x) * s.whole.scrubCache * 22 : Nat))

/-- The access slots that a set takes (R339): one for the tags, one for each way that holds data. -/
def State.setSlots (s : State) (x set : Nat) : Nat :=
  1 + ((List.range 16).filter (fun w => (s.way (wayKey x set w)).holds && s.wayEnabled x w)).length

/-- The meter pays for a set. A set is scrubbed in one step once the meter holds the cost of its first access; the others
are earned before the next set (DESIGN CHOICE, notes/assumptions/34.md). -/
def State.paySet (s : State) (x set : Nat) : State :=
  { s with uc := { s.uc with
    scrubCredit := Tbl.set 0 s.uc.scrubCredit x (s.cacheCredit x - (10000 * s.setSlots x set : Nat))
    meterTime := Tbl.set 0 s.uc.meterTime x s.dev.ticks } }

/-- SCRUB_CACHE_SET. An OFFLINE slice is skipped. -/
def State.doScrubCache (s : State) (x : Nat) (tag0 tag1 : ArrayErr) (dataErr : Option (Fin 16 × Fin 4 × ArrayErr)) :
    State :=
  if !s.ready || decide (s.dieState (dieOfUcSlice x) ≠ .up) || s.ucOffline x || decide (s.cacheCredit x < 10000) then s
  else
    let set := Tbl.get 0 s.uc.scrubSet x
    let s := s.paySet x set
    match s.scrubTags x set tag0 tag1 with
    | (s, false) => s
    | (s, true) => (s.scrubData x set dataErr).scrubNext x

def execScrubCacheSet (x : BitVec 9) (tag0 tag1 : ArrayErr) (dataErr : Option (Fin 16 × Fin 4 × ArrayErr)) (s : State) :
    Host.Outcome State Fault Refusal := .next (s.doScrubCache x.toNat tag0 tag1 dataErr)

/-! ## The local-store and register-file scrubber (R340) -/

/-- What a word of a bay's arrays holds. -/
inductive WordUse where
  /-- Registers, scratch or a buffer of a running operation of a command. -/
  | work (id : Nat)
  /-- A byte of an L1 line. -/
  | l1 (line : Nat)
  | other
deriving DecidableEq, Repr

/-- The commands whose running engines have buffers on a bay. -/
def Bay.engineCmds (v : Bay) : List Nat :=
  ((v.arrays.filterMap (fun e : Nat × Array => e.2.cmd)) ++ v.hod.toList ++ v.riddle.toList).eraseDups

/-- The commands whose gangs are resident on a bay; on one core where it is named. -/
def State.gangCmds (s : State) (b : Nat) (core : Option Nat) : List Nat :=
  ((s.gangs.filter (fun e : Nat × Gang => decide (e.2.bay = b) && !e.2.saved
      && (match core with
        | some k => decide (e.2.core = k)
        | none => true))).map (fun e : Nat × Gang => e.2.cmd)).eraseDups

/-- What the words of a row may hold: rows 0 to 8,191 are the local store, then 1,024 rows for each core's register file.
Where in an array a thing lies is not stated. -/
def State.rowUses (s : State) (b row : Nat) : List WordUse :=
  if row < 8192 then
    ((s.gangCmds b none ++ (s.bay b).engineCmds).eraseDups).map WordUse.work
      ++ (s.bay b).l1.map (fun e : Nat × L1Line => WordUse.l1 e.1) ++ [.other]
  else (s.gangCmds b (some ((row - 8192) / 1024))).map WordUse.work ++ [.other]

/-- The word of an L1 line at a byte is lost: a dirty byte stops the launches that wrote the line, and leaves with what
they wrote there; a clean line is dropped. Of a line that is dirty elsewhere only the word goes (DEDUCED,
notes/assumptions/34.md). -/
def State.l1Lost (s : State) (b line off : Nat) : State :=
  match Tbl.find? (s.bay b).l1 line with
  | none => s
  | some l =>
    let word := maskOf (off / 8 * 8) 8
    if l.dirty = 0 then (s.dropL1 b line).arrayCorrected b
    else if l.dirty &&& word = 0 then (s.setL1 b line { l with valid := l.valid &&& ~~~word }).arrayCorrected b
    else
      let dirty := l.dirty &&& ~~~word
      let s := s.setL1 b line { l with valid := l.valid &&& ~~~word, dirty := dirty, cmds := if dirty = 0 then [] else l.cmds }
      l.cmds.foldl (fun s id => s.arrayLost id b) s

/-- A word of scratch belongs to the footprint of a gang that is resident on the bay. -/
def State.footed (s : State) (b word : Nat) : Bool :=
  (s.feetOn b).contains (word / 256)

/-- A word that holds nothing of a running operation is rewritten as zero. It may be a word of scratch that no resident gang
holds: which one is a free choice. -/
def State.zeroWord (s : State) (b : Nat) : State :=
  let (k, s) := s.drawChoice 262145
  let s := if k < 262144 ∧ !s.footed b (8 * k) then s.scratchWrite b (8 * k) (List.replicate 8 0) else s
  { s with tel := { s.tel with lsZeroed := satAdd 32 s.tel.lsZeroed 1 } }.arrayCorrected b

/-- An uncorrectable word: its use is a free choice among those of its row. -/
def State.wordLost (s : State) (b row off : Nat) : State :=
  let uses := s.rowUses b row
  let (k, s) := s.drawChoice uses.length
  match uses.getD k .other with
  | .work id => s.arrayLost id b
  | .l1 line => s.l1Lost b line (off % 128)
  | .other => s.zeroWord b

/-- A word whose check bits an injection inverted may lie in the row: then it is found. Where the command whose state it held
has left the bay, it holds nothing of a running operation. -/
def State.foundErr (s : State) (b : Nat) : State :=
  let errs := (s.bay b).errs
  if errs = [] then s
  else
    let (k, s) := s.drawChoice (errs.length + 1)
    match errs[k]? with
    | some e =>
      let s := s.updBay b (fun v => { v with errs := v.errs.eraseIdx k })
      if popCount 8 e.2 = 1 then s.arrayCorrected b
      else if (s.gangCmds b none ++ (s.bay b).engineCmds).contains e.1 then s.arrayLost e.1 b
      else s.zeroWord b
    | none => s

/-- What the meter of a bay holds by now, in units of 10^−3 access slots (R334): the budget's share of the slots of KCLK at
2.0 GHz, at most four. -/
def State.rowCredit (s : State) (b : Nat) : Nat :=
  min 4000 ((s.bay b).scrubCredit + (s.dev.ticks - (s.bay b).meterTime) * s.whole.scrubLs * 2)

/-- SCRUB_LS_ROW: one row, paid for from the bay's meter; a bay that management has switched OFF is not scrubbed. -/
def State.doScrubLs (s : State) (b : Nat) (err : ArrayErr) (off : Nat) : State :=
  let v := s.bay b
  if !s.ready || decide (v.mgmt = .off) || decide (v.unit = .resetting) || decide (s.rowCredit b < 1000) then s
  else
    let k := s.rowCredit b
    let s := s.updBay b (fun v => { v with scrubCredit := k - 1000, meterTime := s.dev.ticks })
    let s := s.foundErr b
    let s := match err with
      | .none => s
      | .single => s.arrayCorrected b
      | .uncorrectable => s.wordLost b v.scrubRow off
    if v.scrubRow + 1 < 16384 then s.updBay b (fun v => { v with scrubRow := v.scrubRow + 1 })
    else { s.updBay b (fun v => { v with scrubRow := 0 }) with
           tel := { s.tel with lsPasses := satAdd 32 s.tel.lsPasses 1 } }

def execScrubLsRow (b : Fin 48) (err : ArrayErr) (byteOff : Fin 256) (s : State) : Host.Outcome State Fault Refusal :=
  .next (s.doScrubLs b.val err byteOff.val)

/-! ## Aging (R342, R385) -/

def State.updAging (s : State) (d : Nat) (f : Aging → Aging) : State :=
  { s with tel := { s.tel with aging := Tbl.upd {} s.tel.aging d f } }

/-- The supplies of a guard-band domain. -/
def domainRails (d : Nat) : List Nat := (List.range 5).filter (fun r => (railDomains r).contains d)

/-- A domain is judged once it has 60 samples and its wait is over: its guard-band rises by 5 mV, or it is exhausted. -/
def State.judgeAging (s : State) (d : Nat) : State :=
  let a := Tbl.get {} s.tel.aging d
  if a.samples.length < 60 ∨ s.dev.ticks < a.waitUntil ∨ 12 * 60 ≤ a.samples.foldl (· + ·) 0 then s
  else if 40 ≤ a.guardMv then s.updAging d (fun a => { a with exhausted := true })
  else if (domainRails d).all (bitAt s.plb.vrDead) then s
  else (s.updAging d (fun a => { a with
      guardMv := min 40 (a.guardMv + 5), raises := satAdd 32 a.raises 1, waitUntil := s.dev.ticks + 60000000000 })).appendJournal s.nv.journal

/-- A supply whose set point is not what its domains need is written. -/
def State.adjustRail (s : State) (reg : Nat) (acked : Bool) : State :=
  if bitAt s.plb.vrDead reg || decide (Tbl.get 0 s.plb.setPoint reg = s.railGuard reg) then s
  else (if acked then s.writeSetPoint reg else s).vrTransaction reg acked

/-- AGING_SAMPLE: once per second (R342); a domain's margin is the least that any of its monitors reports. -/
def State.doAging (s : State) (monitors : List (List Nat)) (answers : List Bool) : State :=
  if !s.powered || s.plb.failover || s.tel.agingAt.any (fun t => decide (s.dev.ticks < t + 1000000000)) then s
  else
    let s := { s with tel := { s.tel with agingAt := some s.dev.ticks } }
    let s := (List.range 10).foldl (fun s d =>
      let m := (least (monitors.getD d [])).getD 255
      (s.updAging d (fun a => { a with
        marginPs := min 255 m, samples := (m :: a.samples).take 60 })).judgeAging d) s
    (List.range 5).foldl (fun s r => s.adjustRail r (answers.getD r true)) s

def execAgingSample (monitors : List (List Nat)) (answers : List Bool) (s : State) : Host.Outcome State Fault Refusal :=
  .next (s.doAging monitors answers)

/-! ## The telemetry ring (R346, R347) -/

/-- Codes of Table 2.17. -/
def SliceState.code : SliceState → Nat
  | .off => 0
  | .active => 1
  | .draining => 2
  | .drained => 3
  | .applying => 4
  | .frozen => 5

/-- A telemetry record (Table 14.5). -/
def State.telRecord (s : State) (i : Nat) : Bytes :=
  let v := s.slice i
  leBytes 8 s.time ++ leBytes 4 s.tel.tickSeq.toNat ++ leBytes 1 i ++ leBytes 1 (field 1 v.state.code)
    ++ leBytes 2 v.ovf ++ (List.range 14).flatMap (fun k => leBytes 8 (Tbl.get 0 v.counters k))

/-- The records of one tick go into the ring, the last with a notify. -/
def postTick : List Nat → Ring → State → State × Ring
  | [], r, s => (s, r)
  | i :: t, r, s =>
    let (s, r) := s.postManager r 0x0D { bytes := s.telRecord i, notify := t.isEmpty }
    postTick t r s

/-- TELEMETRY_TICK: at a multiple of 1 ms of TIME. -/
def State.doTick (s : State) : State :=
  if !s.powered || decide (s.time % 1000000 ≠ 0) || decide (s.tel.lastTick = some s.time) then s
  else
    let who := (List.range 256).filter (fun i => decide ((s.slice i).state ≠ .off))
    let r := s.tel.ring
    let go := r.enable && decide (who.length ≤ r.free) && (s.ringPort r).isSome
    let (s, r) := if go then postTick who r s else (s, r)
    { s with tel := { s.tel with
        ring := r, lastTick := some s.time, tickSeq := s.tel.tickSeq + 1
        droppedTicks := if r.enable && !go then satAdd 32 s.tel.droppedTicks 1 else s.tel.droppedTicks } }

def execTelemetryTick (s : State) : Host.Outcome State Fault Refusal := .next s.doTick

/-! ## Counter groups (R349 to R354) -/

/-- Counters of the groups that a mask names. -/
def State.mapGroups (s : State) (mask : Nat) (f : Counter → Counter) : State :=
  { s with tel := { s.tel with
      counters := Tbl.mapVals s.tel.counters (fun k c => if bitAt mask (k / 8) then f c else c) } }

/-- Values and overflow bits of a group become zero (R354). -/
def State.clearGroups (s : State) (mask : Nat) : State := s.mapGroups mask (fun c => { c with value := 0, ovf := false })

/-- A snapshot, then the clear of the same write (R351). -/
def State.doSnap (s : State) (groups clear : Nat) : State :=
  if !s.ready then s
  else
    let s := s.mapGroups groups (fun c => { c with snap := c.value, snapOvf := c.ovf })
    let s := { s with tel := { s.tel with
      snapTime := (bitList 16 groups).foldl (fun t g => Tbl.set 0 t g s.time) s.tel.snapTime } }
    s.clearGroups clear

def execSnap (groups clearGroups : BitVec 16) (s : State) : Host.Outcome State Fault Refusal :=
  .next (s.doSnap groups.toNat clearGroups.toNat)

/-- CLEAR. -/
def State.doClear (s : State) (groups : Nat) : State := if s.ready then s.clearGroups groups else s

def execClear (groups : BitVec 16) (s : State) : Host.Outcome State Fault Refusal := .next (s.doClear groups.toNat)

/-- A write to TEL_SEL (R353): the value and overflow bit stay. -/
def State.doTelSel (s : State) (g i : Nat) (value : W64) : State :=
  if !s.ready then s
  else { s with tel := { s.tel with
    counters := Tbl.upd {} s.tel.counters (8 * g + i) (fun c => { c with sel := BitVec.ofNat 64 (value.toNat % 2 ^ 29) }) } }

def execTelSelWrite (g : Fin 16) (i : Fin 8) (value : W64) (s : State) : Host.Outcome State Fault Refusal :=
  .next (s.doTelSel g.val i.val value)

end Sys2Proof.Machine
end

