-- ==== Sys2Proof/Machine/Fills.lean ====
section
/-! DEFINITION. The manager's copies: fills of slice memory (spec/11 R261, R267) and MIG_COPY (spec/15 R366, R373). -/

namespace Sys2Proof.Machine

/-- The place of a port's quoin on the mesh. -/
def portPlace (port : Bool) : Nat := 8 + portBit port

/-- The 128 bytes at index `i` of a host's data. -/
def lineOfData (b : Bytes) (i : Nat) : Bytes := bytesAt b (128 * i) 128

/-- Why a copy by the manager ends early. -/
inductive CopyEnd where
  | ok
  | shield
deriving DecidableEq, Repr

/-- Writes whole lines from a DPA on, `count` of them, until a shield answers. -/
def writeLines (place : Nat) (log : Bool) (b : Bytes) (dpa : Nat) : Nat → Nat → State → State × CopyEnd
  | 0, _, s => (s, .ok)
  | n + 1, i, s =>
    let line := dpa + 128 * i
    match s.lineWrite line (lineOfData b i) (BitVec.allOnes 128) log place with
    | (s, .shield _ _) => (s, .shield)
    | (s, _) => writeLines place log b dpa n (i + 1) (s.serveWaiting line)

/-- A read of a whole line at its home slice that no R201 count sees. -/
def State.quietRead (s : State) (dpa place : Nat) : State × LineAns :=
  let o := (s.ownerOf dpa).getD 0
  let n := (s.slice o).rarCount
  match s.lineRead dpa 15 place true with
  | (s, .data b true) => (s.updSlice o (fun v => { v with rarCount := n }), .data b true)
  | r => r

/-- The bytes that a host read brought; none where it failed. -/
def State.hostData (s : State) (port : Bool) (reply : HostReply) : Option Bytes :=
  if !s.linkUp port then none
  else match reply with
    | .ok d => some d
    | _ => none

/-! ## CFG_FILL -/

/-- LEN, CLASS and SLICE of CFG_FILL_CTL. -/
def fillLen (v : Nat) : Nat := bitsOf v 36 0
def fillClass (v : Nat) : Nat := bitsOf v 39 37
def fillSlice (v : Nat) : Nat := bitsOf v 47 40

/-- The RESULT with which a fill fails its checks, or the DPA to which it writes. -/
def State.fillCheck (s : State) (v dst : Nat) : Nat ⊕ Nat :=
  let d := (s.slice (fillSlice v)).defn
  if fillLen v = 0 ∨ fillLen v % 128 ≠ 0 ∨ dst % 128 ≠ 0 then .inl 1
  else match coverRange d.ranges dst (fillLen v) with
    | none => .inl 1
    | some r =>
      if !r.canWrite then .inl 2
      else if !bitAt d.classMask (fillClass v) then .inl 3
      else .inr (r.toDpa dst)

def State.fillEnd (s : State) (result : Nat) : State :=
  { s with dev := { s.dev with fillBusy := false, fillDone := true, fillResult := result } }

/-- A write to CFG_FILL_CTL. -/
def State.doFill (s : State) (value : Nat) (port : Bool) : State :=
  if !s.ready || !bitAt value 63 then s
  else if s.dev.fillBusy then { s with dev := { s.dev with fillOverrun := true } }
  else
    match s.fillCheck value s.dev.fillDst.toNat with
    | .inl r => s.fillEnd r
    | .inr _ => { s with dev := { s.dev with
        fillBusy := true, fillCtl := BitVec.ofNat 64 value, fillPort := port
        fillFrom := (s.dev.fillSrc.toNat, s.dev.fillDst.toNat) } }

def execCfgFill (value : W64) (port : Bool) (s : State) : Host.Outcome State Fault Refusal :=
  .next (s.doFill value.toNat port)

/-- FILL_DONE: the writes have landed. -/
def State.doFillDone (s : State) (reply : HostReply) : State :=
  if !s.ready || !s.dev.fillBusy then s
  else
    let v := s.dev.fillCtl.toNat
    match s.fillCheck v s.dev.fillFrom.2 with
    | .inl r => s.fillEnd r
    | .inr dpa =>
      match s.hostData s.dev.fillPort reply with
      | none => s.fillEnd 4
      | some b =>
        match writeLines (portPlace s.dev.fillPort) true b dpa (fillLen v / 128) 0 (s.inClass (fillClass v)) with
        | (s, .ok) => s.fillEnd 0
        | (s, .shield) => s.fillEnd 5

def execFillDone (reply : HostReply) (s : State) : Host.Outcome State Fault Refusal := .next (s.settled (fun s => s.doFillDone reply))

/-! ## MIG_COPY -/

/-- Fields of MIG_COPY_CTL. -/
def mcLen (v : Nat) : Nat := bitsOf v 36 0
def mcToDevice (v : Nat) : Bool := bitAt v 37
def mcElide (v : Nat) : Bool := bitAt v 38
def mcPoison (v : Nat) : Bool := bitAt v 39
def mcSlice (v : Nat) : Nat := bitsOf v 47 40

/-- A DPA range lies within one course range. -/
def inOneRange (rs : List Range) (dpa len : Nat) : Bool :=
  match findDpa rs dpa with
  | some r => decide (dpa + len ≤ r.dpa + r.courses * 4096)
  | none => false

/-- The device address of a copy is acceptable. -/
def State.copyOk (s : State) (v src dst : Nat) : Bool :=
  decide (mcLen v ≠ 0) && decide (mcLen v % 128 = 0)
    && inOneRange (s.slice (mcSlice v)).defn.ranges (if mcPoison v || mcToDevice v then dst else src) (mcLen v)

def State.copyEnd (s : State) (result : Nat) : State :=
  { s with mig := { s.mig with copyBusy := false, copyDone := true, copyResult := result } }

/-- A write to MIG_COPY_CTL. -/
def State.doMigCopy (s : State) (value : Nat) (port : Bool) : State :=
  if !s.ready then s
  else if s.mig.copyBusy then { s with mig := { s.mig with copyOverrun := true } }
  else if !bitAt value 63 then s
  else
    let src := s.mig.copySrc.toNat
    let dst := s.mig.copyDst.toNat
    let s := { s with mig := { s.mig with copyPoisoned := 0 } }
    if !s.copyOk value src dst then s.copyEnd 1
    else { s with mig := { s.mig with
        copyBusy := true, copyCtl := BitVec.ofNat 64 value, copyPort := port, copyFrom := (src, dst) } }

def execMigCopy (value : W64) (port : Bool) (s : State) : Host.Outcome State Fault Refusal :=
  .next (s.doMigCopy value.toNat port)

/-- A line that cannot be read is copied as zeros, counted, and named in the log ring whether or not logging is on. -/
def State.copyBad (s : State) (slice dpa : Nat) : State :=
  let s := { s with mig := { s.mig with copyPoisoned := satAdd 32 s.mig.copyPoisoned 1 } }
  s.postLog slice (dpa / 128 + field 45 3 + field 52 slice)

/-- Device to host. -/
def copyOut (slice : Nat) (port : Bool) (src dst : Nat) : Nat → Nat → State → State × CopyEnd
  | 0, _, s => (s, .ok)
  | n + 1, i, s =>
    let dpa := src + 128 * i
    match s.quietRead dpa (portPlace port) with
    | (s, .data b _) => copyOut slice port src dst n (i + 1) (s.hostWrite none (dst + 128 * i) b)
    | (s, .bad _) => copyOut slice port src dst n (i + 1) ((s.copyBad slice dpa).hostWrite none (dst + 128 * i) zeroLine)
    | (s, .shield _ _) => (s, .shield)

/-- Whether a line of zeros is left out because the destination already reads as zeros. -/
def State.elided (s : State) (port elide : Bool) (dpa : Nat) (line : Bytes) : State × Bool :=
  if elide && allZero line then
    match s.quietRead dpa (portPlace port) with
    | (s, .data old _) => (s, allZero old)
    | (s, _) => (s, false)
  else (s, false)

/-- Host to device; with ELIDE a line of zeros is not written where zeros are read already. -/
def copyIn (port elide : Bool) (b : Bytes) (dst : Nat) : Nat → Nat → State → State × CopyEnd
  | 0, _, s => (s, .ok)
  | n + 1, i, s =>
    let dpa := dst + 128 * i
    let e := s.elided port elide dpa (lineOfData b i)
    if e.2 then copyIn port elide b dst n (i + 1) e.1
    else match e.1.lineWrite dpa (lineOfData b i) (BitVec.allOnes 128) false (portPlace port) with
      | (s, .shield _ _) => (s, .shield)
      | (s, _) => copyIn port elide b dst n (i + 1) (s.serveWaiting dpa)

/-- A line marked POISONED, its cached copies dropped. -/
def State.markPoisoned (s : State) (x n : Nat) : State :=
  let c := chanOfUcSlice x
  let q := chanLine x n
  ((s.dropLine x n).openShare c (s.blockOfLine c q)).setLineState c q .poisoned

/-- POISON: the lines are marked POISONED (Table 11.3). -/
def copyPoison (dst : Nat) : Nat → Nat → State → State × CopyEnd
  | 0, _, s => (s, .ok)
  | n + 1, i, s =>
    let dpa := dst + 128 * i
    let h := homeOf s.density dpa
    match s.homeShield h.1 with
    | some _ => (s, .shield)
    | none => copyPoison dst n (i + 1) ((s.markPoisoned h.1 h.2).serveWaiting dpa)

/-- The work of the copy that runs, in priority class 7 (R371). -/
def State.copyWork (s : State) (reply : HostReply) : State :=
  let s := s.inClass 7
  let v := s.mig.copyCtl.toNat
  let lines := mcLen v / 128
  let finish := fun r : State × CopyEnd => r.1.copyEnd (if r.2 = .ok then 0 else 3)
  if mcPoison v then finish (copyPoison s.mig.copyFrom.2 lines 0 s)
  else match s.hostData s.mig.copyPort reply with
    | none => s.copyEnd 2
    | some b =>
      if mcToDevice v then finish (copyIn s.mig.copyPort (mcElide v) b s.mig.copyFrom.2 lines 0 s)
      else finish (copyOut (mcSlice v) s.mig.copyPort s.mig.copyFrom.1 s.mig.copyFrom.2 lines 0 s)

/-- MIG_COPY_DONE. -/
def State.doMigCopyDone (s : State) (reply : HostReply) : State :=
  if !s.ready || !s.mig.copyBusy then s
  else if !s.copyOk s.mig.copyCtl.toNat s.mig.copyFrom.1 s.mig.copyFrom.2 then s.copyEnd 1
  else s.copyWork reply

def execMigCopyDone (reply : HostReply) (s : State) : Host.Outcome State Fault Refusal := .next (s.settled (fun s => s.doMigCopyDone reply))

end Sys2Proof.Machine
end

