-- ==== Sys2Proof/Machine/Migration.lean ====
section
/-! DEFINITION. Tenant migration (spec/15 R362 to R370, R373): logging, marks, freeze, and the state blob. -/

namespace Sys2Proof.Machine

/-- RESULT codes of MIG_STATUS. -/
def mrOk : Nat := 0
def mrWrongState : Nat := 1
def mrLogSlots : Nat := 2
def mrPoolHeld : Nat := 3
def mrRecords : Nat := 4
def mrFetch : Nat := 5
def mrBadBlob : Nat := 6
def mrGrantShort : Nat := 7
def mrQueues : Nat := 8

/-- A migration operation ends. -/
def State.migEnd (s : State) (op slice result : Nat) : State :=
  { s with mig := { s.mig with
      busy := false, done := true, op := none, result := result, lastSlice := slice, lastOp := op } }

/-- A write to MIG_CTL: ignored with OVERRUN while BUSY. -/
def State.migCtl (s : State) (f : State → State) : State :=
  if !s.ready then s
  else if s.mig.busy then { s with mig := { s.mig with overrun := true } }
  else f s

/-- An operation that goes on. -/
def State.migBegin (s : State) (op slice : Nat) (port : Bool) : State :=
  { s with mig := { s.mig with busy := true, op := some (op, slice, port, s.mig.blobAddr.toNat) } }

/-! ## Logging (R362, R363, R367) -/

/-- The filter entries of a slice leave every logging point. -/
def State.clearFilters (s : State) (i : Nat) : State :=
  { s with mig := { s.mig with
      filters := (Tbl.mapVals s.mig.filters (fun _ f => f.filter (fun e : Nat × Nat => decide (e.1 ≠ i)))).filter
        (fun e : Nat × List (Nat × Nat) => !e.2.isEmpty) } }

/-- LOG_ON. -/
def State.doLogOn (s : State) (i : Nat) : State :=
  s.migCtl (fun s =>
    let v := s.slice i
    if v.logging || !(decide (v.state = .active) || decide (v.state = .draining) || decide (v.state = .drained)) then
      s.migEnd 1 i mrWrongState
    else if 4 ≤ (s.slices.filter (fun e : Nat × Slice => e.2.logging)).length then s.migEnd 1 i mrLogSlots
    else ((s.updSlice i (fun v => { v with logging := true, logLost := false, logInvalid := false })).clearFilters i).migEnd
      1 i mrOk)

def execLogOn (slice : BitVec 8) (s : State) : Host.Outcome State Fault Refusal := .next (s.doLogOn slice.toNat)

/-- LOG_OFF. -/
def State.doLogOff (s : State) (i : Nat) : State :=
  s.migCtl (fun s =>
    if (s.slice i).logging then (s.updSlice i (fun v => { v with logging := false })).migEnd 2 i mrOk
    else s.migEnd 2 i mrWrongState)

def execLogOff (slice : BitVec 8) (s : State) : Host.Outcome State Fault Refusal := .next (s.doLogOff slice.toNat)

/-- The log ring takes an entry. -/
def State.logRoom (s : State) : Bool :=
  s.mig.ring.enable && decide (0 < s.mig.ring.free) && (s.ringPort s.mig.ring).isSome

/-- MARK: the filters are cleared, and the MARK entry is posted with the next serial. Entries are posted as their writes
land, so no logging point holds any. -/
def State.doMark (s : State) (i : Nat) : State :=
  s.migCtl (fun s =>
    if !(s.slice i).logging then s.migEnd 3 i mrWrongState
    else
      let s := s.clearFilters i
      let serial := s.mig.markSerial + 1
      let posted := s.logRoom
      let s := s.postLog i (serial.toNat + field 45 2 + field 52 i)
      let s := if posted then { s with mig := { s.mig with markSerial := serial } } else s
      s.migEnd 3 i mrOk)

def execMark (slice : BitVec 8) (s : State) : Host.Outcome State Fault Refusal := .next (s.doMark slice.toNat)

/-! ## Freeze and thaw (R367, R368) -/

/-- A pool buffer is held. -/
def State.holdsBuffer (s : State) (i : Nat) : Bool := s.pool.any (fun e : Nat × Buffer => decide (e.2.owner = some i))

/-- A record of one of the slice's CQs waits to be posted. -/
def Slice.recordsWait (v : Slice) : Bool := v.cqs.any (fun e : Nat × Ring => !e.2.due.isEmpty || !e.2.waiting.isEmpty)

/-- FREEZE: new opens are refused from now on. -/
def State.doFreeze (s : State) (i : Nat) : State :=
  s.migCtl (fun s =>
    let v := s.slice i
    if v.state ≠ .drained then s.migEnd 4 i mrWrongState
    else if s.holdsBuffer i then s.migEnd 4 i mrPoolHeld
    else if v.recordsWait then s.migEnd 4 i mrRecords
    else (s.updSlice i (fun v => { v with freezing := some s.time })).migBegin 4 i false)

def execFreeze (slice : BitVec 8) (s : State) : Host.Outcome State Fault Refusal := .next (s.doFreeze slice.toNat)

/-- The slice's inbound streams are closed. -/
def State.noInbound (s : State) (i : Nat) : Bool := !(s.sweld.ins.any (fun e : Nat × InStream => decide (e.2.dst = i)))

/-- SLICE_FROZEN: the inbound streams are closed, or 64 ms have passed and those left break. A slice that has left DRAINED
meanwhile is not frozen. -/
def State.doSliceFrozen (s : State) (i : Nat) : State :=
  let v := s.slice i
  if !s.ready then s
  else match s.mig.op with
  | some (4, j, _, _) =>
    if j ≠ i then s
    else match v.state, v.freezing with
    | .drained, some t =>
      if v.reset = .running ∨ (!s.noInbound i ∧ s.time < t + 64000000) then s
      else ((s.breakInbound i).updSlice i (fun v => { v with
        state := .frozen, freezing := none, timeFrozen := s.time })).migEnd 4 i mrOk
    | _, _ => (s.updSlice i (fun v => { v with freezing := none })).migEnd 4 i mrWrongState
  | _ => s

def execSliceFrozen (slice : BitVec 8) (s : State) : Host.Outcome State Fault Refusal :=
  .next (s.doSliceFrozen slice.toNat)

/-- THAW. -/
def State.doThaw (s : State) (i : Nat) : State :=
  s.migCtl (fun s =>
    if (s.slice i).state = .frozen then (s.updSlice i (fun v => { v with state := .drained })).migEnd 6 i mrOk
    else s.migEnd 6 i mrWrongState)

def execThaw (slice : BitVec 8) (s : State) : Host.Outcome State Fault Refusal := .next (s.doThaw slice.toNat)

/-! ## The blob (R369) -/

/-- Bytes made up with zeros to a length. -/
def padTo (n : Nat) (b : Bytes) : Bytes := b ++ List.replicate (n - b.length) 0

def boolBits (bs : List (Nat × Bool)) : Nat := bs.foldl (fun m e => m + field e.1 (ofBool e.2)) 0

/-- An SQ's registers and the number of commands in its window: 24 bytes. -/
def sqState (x : Sq) : Bytes :=
  leBytes 8 x.base.toNat
    ++ leBytes 8 (x.pasid.toNat + boolBits [(20, x.port), (21, x.enable), (27, x.badDoorbell), (28, x.cfgError),
        (29, x.stopped)] + field 22 x.sizeLog2.toNat + field 32 x.window.length)
    ++ leBytes 4 x.head ++ leBytes 4 x.tail

/-- A CQ's or the fault queue's registers: 40 bytes. -/
def ringState (r : Ring) : Bytes :=
  leBytes 8 r.base.toNat
    ++ leBytes 8 (r.pasid.toNat + boolBits [(20, r.port), (21, r.enable), (27, r.notifyEn), (28, r.phase),
        (29, r.badDoorbell), (30, r.cfgError)] + field 22 r.sizeLog2.toNat + field 32 r.lost)
    ++ leBytes 4 r.notifyValue.toNat ++ leBytes 8 r.notifyAddr.toNat ++ leBytes 4 r.head ++ leBytes 4 r.tail
    ++ leBytes 4 r.posted

/-- Tenant status, pool counters, slice counters and serials: 162 bytes. -/
def countState (v : Slice) : Bytes :=
  leBytes 8 v.droppedDoorbells ++ leBytes 8 v.doubleFrees ++ leBytes 8 v.foreignFrees ++ leBytes 8 v.refusedArrivals
    ++ (List.range 14).flatMap (fun k => leBytes 8 (Tbl.get 0 v.counters k)) ++ leBytes 2 v.ovf ++ leBytes 8 v.rarCount
    ++ leBytes 8 v.sliceSeq.toNat

/-- The windowed command at place `k` of SQ `q`. -/
def State.winCmd (s : State) (v : Slice) (q k : Nat) : Option Cmd := ((v.sq q).window[k]?).map s.cmd

/-- The 1,024 places of the fetch windows, 64 for each SQ. -/
def winPlaces : List (Nat × Nat) := (List.range 16).flatMap (fun q => (List.range 64).map (fun k => (q, k)))

/-- The regions behind the header, in the order of Table 15.3. -/
def State.blobRegions (s : State) (i : Nat) : Bytes :=
  let v := s.slice i
  let win := winPlaces.map (fun e => s.winCmd v e.1 e.2)
  padTo 3840 ((List.range 16).flatMap (fun q => sqState (v.sq q)) ++ (List.range 16).flatMap (fun q => ringState (v.cq q))
      ++ ringState v.fq ++ countState v
      ++ win.flatMap (fun c : Option Cmd => leBytes 2 ((c.map (fun c => c.fetchTime / 2 ^ 48)).getD 0)))
    ++ (List.range 16).flatMap (fun q =>
      padTo 256 (leBytes 1 (ofBool (v.sq q).seqEmpty) ++ leBytes 4 (v.sq q).high.toNat ++ leBytes 128 (v.sq q).seen.toNat))
    ++ (List.range 1024).flatMap (fun h =>
      padTo 32 (leBytes 8 (v.handle h).baseA.toNat ++ leBytes 8 (v.handle h).baseB.toNat
        ++ leBytes 1 (ofBool (v.handle h).current)))
    ++ win.flatMap (fun c : Option Cmd =>
      leBytes 8 ((c.map (fun c => c.ring % 2 ^ 16 + field 16 (c.fetchTime % 2 ^ 48))).getD 0))
    ++ win.flatMap (fun c : Option Cmd => padTo 128 ((c.map (fun c => c.desc)).getD []))

/-- The device's own layout of those regions (notes/assumptions/2.md): each byte differs by a fixed one. -/
def scramble (b : Bytes) : Bytes := b.mapIdx (fun i x => x ^^^ Config.blobByte i)

/-- The highest enabled queue, plus 1; and the largest SIZE_LOG2. -/
def blobTop (l : List Nat) : Nat := l.foldl (fun n q => max n (q + 1)) 0

def State.sqUsed (s : State) (i : Nat) : List Nat := (List.range 16).filter (fun q => ((s.slice i).sq q).enable)
def State.cqUsed (s : State) (i : Nat) : List Nat := (List.range 16).filter (fun q => ((s.slice i).cq q).enable)

def State.depthUsed (s : State) (i : Nat) : Nat :=
  let v := s.slice i
  ((s.sqUsed i).map (fun q => (v.sq q).sizeLog2.toNat) ++ (s.cqUsed i).map (fun q => (v.cq q).sizeLog2.toNat)
    ++ (if v.fq.enable then [v.fq.sizeLog2.toNat] else [])).foldl max 0

def State.classUsed (s : State) (i : Nat) : Nat :=
  (s.cmds.filter (fun e : Nat × Cmd => decide (e.2.slice = i) && decide (e.2.phase = .windowed))).foldl
    (fun m e => setBit m (dClass e.2.desc) true) 0

def Slice.handlesUsed (v : Slice) : Nat :=
  blobTop ((v.handles.filter (fun e : Nat × Handle =>
    decide (e.2.baseA ≠ 0) || decide (e.2.baseB ≠ 0) || e.2.current)).map (·.1))

def blobMagic : Nat := 0x47494D51

/-- The blob's header without its CRC (Table 15.4). -/
def State.blobHeader (s : State) (i : Nat) : Bytes :=
  let v := s.slice i
  padTo 252 (leBytes 4 blobMagic ++ leBytes 2 1 ++ leBytes 1 i ++ leBytes 1 0 ++ leBytes 2 partNumber ++ leBytes 6 0
    ++ leBytes 8 v.timeFrozen ++ leBytes 4 v.defn.ownerTag.toNat ++ leBytes 4 v.lateWrites
    ++ leBytes 1 (blobTop (s.sqUsed i)) ++ leBytes 1 (blobTop (s.cqUsed i)) ++ leBytes 1 (s.depthUsed i)
    ++ leBytes 1 (s.classUsed i) ++ leBytes 2 v.handlesUsed)

/-- The whole blob. -/
def State.blobOf (s : State) (i : Nat) : Bytes :=
  let h := s.blobHeader i
  let r := scramble (s.blobRegions i) ++ List.replicate 0x14000 0
  h ++ leBytes 4 (crc32c (h ++ r)).toNat ++ r

/-! ## Import (R370) -/

/-- MAGIC, FORMAT, PART, CRC and the reserved bytes. -/
def blobGood (b : Bytes) : Bool :=
  decide (leAt b 0 4 = blobMagic) && decide (leAt b 4 2 = 1) && decide (leAt b 8 2 = partNumber)
    && decide (byteAt b 7 = 0) && allZero (bytesAt b 0x0A 6) && allZero (bytesAt b 0x26 214)
    && allZero (bytesAt b 0x2C000 0x14000)
    && decide ((crc32c (bytesAt b 0 252 ++ bytesAt b 256 0x3FF00)).toNat = leAt b 0xFC 4)

/-- An SQ from its 24 bytes and its sequence window. -/
def sqFrom (b w : Bytes) : Sq :=
  let f := leAt b 8 8
  { base := BitVec.ofNat 64 (leAt b 0 8), pasid := BitVec.ofNat 20 f, port := bitAt f 20, enable := bitAt f 21
    sizeLog2 := BitVec.ofNat 5 (f / 2 ^ 22), badDoorbell := bitAt f 27, cfgError := bitAt f 28, stopped := bitAt f 29
    head := leAt b 16 4, tail := leAt b 20 4
    seqEmpty := bitAt (byteAt w 0) 0, high := BitVec.ofNat 32 (leAt w 1 4), seen := BitVec.ofNat 1024 (leAt w 5 128) }

/-- The number of commands in the window of an SQ's 24 bytes. -/
def winCount (b : Bytes) : Nat := min 64 (bitsOf (leAt b 8 8) 38 32)

/-- A ring from its 40 bytes. -/
def ringFrom (b : Bytes) : Ring :=
  let f := leAt b 8 8
  { base := BitVec.ofNat 64 (leAt b 0 8), pasid := BitVec.ofNat 20 f, port := bitAt f 20, enable := bitAt f 21
    sizeLog2 := BitVec.ofNat 5 (f / 2 ^ 22), notifyEn := bitAt f 27, phase := bitAt f 28, badDoorbell := bitAt f 29
    cfgError := bitAt f 30, lost := bitsOf f 47 32, notifyValue := BitVec.ofNat 32 (leAt b 16 4)
    notifyAddr := BitVec.ofNat 64 (leAt b 20 8), head := leAt b 28 4, tail := leAt b 32 4, posted := leAt b 36 4 }

/-- The SQ numbered `q` in the regions. -/
def sqAtBlob (r : Bytes) (q : Nat) : Sq := sqFrom (bytesAt r (24 * q) 24) (bytesAt r (0xF00 + 256 * q) 256)
def ringAtBlob (r : Bytes) (q : Nat) : Ring := ringFrom (bytesAt r (384 + 40 * q) 40)

/-- The handle numbered `h`. -/
def handleAtBlob (r : Bytes) (h : Nat) : Handle :=
  let b := bytesAt r (0x1F00 + 32 * h) 32
  { baseA := BitVec.ofNat 64 (leAt b 0 8), baseB := BitVec.ofNat 64 (leAt b 8 8), current := bitAt (byteAt b 16) 0 }

/-- The windowed command at a place. -/
def cmdAtBlob (r : Bytes) (slice q k : Nat) : Cmd :=
  let i := 64 * q + k
  let m := leAt r (0x9F00 + 8 * i) 8
  let hi := leAt r (1226 + 2 * i) 2
  { slice := slice, sq := q, ring := m % 2 ^ 16, fetchTime := m / 2 ^ 16 + hi * 2 ^ 48
    desc := bytesAt r (0xBF00 + 128 * i) 128 }

/-- A restored queue meets the PASID and port conditions of R90. -/
def queueFits (d : SliceDef) (enable : Bool) (pasid : Nat) (port : Bool) : Bool :=
  !enable || bitAt (d.ports pasid) (portBit port)

/-- The target covers what the blob needs. -/
def blobFits (d : SliceDef) (b r : Bytes) : Bool :=
  decide (byteAt b 0x20 ≤ d.sqCount) && decide (byteAt b 0x21 ≤ d.cqCount) && decide (byteAt b 0x22 ≤ d.maxDepth)
    && (List.range 8).all (fun n => !bitAt (byteAt b 0x23) n || bitAt d.classMask n)
    && decide (leAt b 0x24 2 ≤ d.tableHandles)
    && (List.range 16).all (fun q => queueFits d (sqAtBlob r q).enable (sqAtBlob r q).pasid.toNat (sqAtBlob r q).port)
    && (List.range 17).all (fun q =>
      queueFits d (ringAtBlob r q).enable (ringAtBlob r q).pasid.toNat (ringAtBlob r q).port)

/-- Bytes at a TVA that the fetch has read before, read again without a fault; zeros where they cannot be read. -/
def State.rereadLines (s : State) (rs : List Range) (place tva : Nat) : Nat → State × Bytes
  | 0 => (s, [])
  | n + 1 =>
    let (s, b) := rereadLines s rs place tva n
    match findRange rs (tva / 128 * 128 + 128 * n) with
    | none => (s, b ++ zeroLine)
    | some r => match s.quietRead (r.toDpa (tva / 128 * 128 + 128 * n)) place with
      | (s, .data x _) => (s, b ++ x)
      | (s, _) => (s, b ++ zeroLine)

def State.reread (s : State) (slice place tva len : Nat) : State × Bytes :=
  let (s, b) := s.rereadLines (s.slice slice).defn.ranges place tva (ceilDiv (tva % 128 + len) 128)
  (s, bytesAt b (tva % 128) len)

/-- A windowed command comes back: its handle list and block are read again. -/
def State.restoreCmd (s : State) (c : Cmd) (place : Nat) : State :=
  let id := s.arb.nextCmd
  let s := { s with arb := { s.arb with nextCmd := id + 1 } }
  let n := dHandleCount c.desc
  let (s, hs) := if n = 0 then (s, []) else s.reread c.slice place (dHandleList c.desc) (2 * n)
  let (s, b) := if hasBlock (dOpcode c.desc) then s.reread c.slice place (leAt c.desc 0x28 8) 128 else (s, [])
  let before := s.earlierOf c.slice c.sq
  let s := s.setCmd id { c with
    earlier := before, handleList := handlesOf hs n, block := b, items := workItems c.desc b }
  s.updSq c.slice c.sq (fun x => { x with window := x.window ++ [id] })

/-- Installs the blob's state in one step. -/
def State.installBlob (s : State) (i : Nat) (r : Bytes) (place : Nat) : State :=
  let s := { s with cmds := s.cmds.filter (fun e : Nat × Cmd => decide (e.2.slice ≠ i)) }
  let n := 384 + 17 * 40
  let s := s.updSlice i (fun v =>
    let v := { v with
      fq := ringAtBlob r 16, droppedDoorbells := leAt r n 8, doubleFrees := leAt r (n + 8) 8
      foreignFrees := leAt r (n + 16) 8, refusedArrivals := leAt r (n + 24) 8, ovf := leAt r (n + 144) 2
      rarCount := leAt r (n + 146) 8, sliceSeq := BitVec.ofNat 32 (leAt r (n + 154) 8) }
    let v := (List.range 14).foldl (fun v k =>
      { v with counters := Tbl.set 0 v.counters k (leAt r (n + 32 + 8 * k) 8) }) v
    let v := (List.range 16).foldl (fun v q => (v.setSq q (sqAtBlob r q)).setCq q (ringAtBlob r q)) v
    (List.range 1024).foldl (fun v h => v.setHandle h (handleAtBlob r h)) v)
  (List.range 16).foldl (fun s q =>
    (List.range (winCount (bytesAt r (24 * q) 24))).foldl (fun s k => s.restoreCmd (cmdAtBlob r i q k) place) s) s

/-- No queue of the slice is enabled, and it holds no buffer. -/
def State.queuesOff (s : State) (i : Nat) : Bool :=
  (s.sqUsed i).isEmpty && (s.cqUsed i).isEmpty && !(s.slice i).fq.enable && !s.holdsBuffer i

/-- The condition under which IMPORT is accepted; the RESULT where it is not. -/
def State.importFails (s : State) (i : Nat) : Option Nat :=
  if (s.slice i).state ≠ .drained then some mrWrongState
  else if !s.queuesOff i then some mrQueues
  else none

/-- EXPORT. -/
def State.doMigExport (s : State) (i : Nat) (port : Bool) : State :=
  s.migCtl (fun s => if (s.slice i).state = .frozen then s.migBegin 5 i port else s.migEnd 5 i mrWrongState)

def execMigExport (slice : BitVec 8) (port : Bool) (s : State) : Host.Outcome State Fault Refusal :=
  .next (s.doMigExport slice.toNat port)

/-- IMPORT. -/
def State.doMigImport (s : State) (i : Nat) (port : Bool) : State :=
  s.migCtl (fun s => match s.importFails i with
    | some r => s.migEnd 7 i r
    | none => s.migBegin 7 i port)

def execMigImport (slice : BitVec 8) (port : Bool) (s : State) : Host.Outcome State Fault Refusal :=
  .next (s.doMigImport slice.toNat port)

/-- The checks of an import in order, and its effect. -/
def State.importBlob (s : State) (i : Nat) (b : Bytes) (port : Bool) : State :=
  let r := scramble (bytesAt b 0x100 0x2BF00)
  match s.importFails i with
  | some k => s.migEnd 7 i k
  | none =>
    if !blobGood b then s.migEnd 7 i mrBadBlob
    else if !blobFits (s.slice i).defn b r then s.migEnd 7 i mrGrantShort
    else (s.installBlob i r (portPlace port)).migEnd 7 i mrOk

/-- MIGRATION_BLOB_DONE. -/
def State.doBlobDone (s : State) (reply : HostReply) : State :=
  if !s.ready then s
  else match s.mig.op with
  | some (5, i, port, addr) =>
    if (s.hostData port reply).isNone then s.migEnd 5 i mrFetch
    else (s.hostWrite none addr (s.blobOf i)).migEnd 5 i mrOk
  | some (7, i, port, _) =>
    match s.hostData port reply with
    | none => s.migEnd 7 i mrFetch
    | some b => s.importBlob i (bytesAt b 0 0x40000) port
  | _ => s

def execMigrationBlobDone (reply : HostReply) (s : State) : Host.Outcome State Fault Refusal :=
  .next (s.doBlobDone reply)

end Sys2Proof.Machine
end

