-- ==== Sys2Proof/Machine/Power.lean ====
section
/-! DEFINITION. Management, power and temperature: unit power and state splits (spec/12 R288, R289, R297 to R299),
failover (spec/03 R79), the power loop (spec/16 R386, R391), sensors and THERMTRIP (R388, R389), regulators (R385). -/

namespace Sys2Proof.Machine

/-! ## Management operations and failover (R79) -/

/-- A management operation: while the plumb controller fails over it is held. -/
def State.mgmtOp (s : State) (i : HeldOp) (f : State → State) : State :=
  if s.plb.failover then { s with plb := { s.plb with heldOps := s.plb.heldOps ++ [i] } } else f s

/-! ## Unit power (R289, R298) -/

/-- Codes of CFG_UNIT_STATE (R86) and of PLB_UNIT_MGMT (R297). -/
def UnitState.code : UnitState → Nat
  | .up => 0
  | .resetting => 1
  | .down => 2

def MgmtState.code : MgmtState → Nat
  | .on => 0
  | .draining => 1
  | .off => 2
  | .failed => 3

/-- The management state of a bay or Sweld port; no other unit has one. -/
def State.mgmtState (s : State) (u : Nat) : Option MgmtState :=
  match unitKind u with
  | .bay b => some (s.bay b).mgmt
  | .port p => some (s.port p).mgmt
  | _ => none

def State.setMgmt (s : State) (u : Nat) (x : MgmtState) : State :=
  match unitKind u with
  | .bay b => s.updBay b (fun v => { v with mgmt := x })
  | .port p => s.updPort p (fun v => { v with mgmt := x })
  | _ => s

/-- The places on a bay where running work can be stopped. -/
def State.stopsOnBay (s : State) (b : Nat) : List StopAt :=
  s.cmds.flatMap (fun e : Nat × Cmd =>
    if e.2.runs && usesBays (dOpcode e.2.desc) then (e.2.stops e.1).filter (fun x => decide (s.stopBay x = b)) else [])

/-- A bay drains for POWER_OFF: its running work is stopped as preemption stops it, and it is powered off once no work is
left on it (R289). How long each stop took is not a command's operand: a free choice within the bound of R103. -/
def State.drainBay (s : State) (b : Nat) : State :=
  let s := s.updBay b (fun v => { v with mgmt := .draining })
  let plan := s.stopsOnBay b
  let s := plan.foldl (fun s x =>
    let (ns, s) := s.drawChoice 25001
    s.carryStop ns x) s
  let s := ((plan.map (·.cmd)).eraseDups).foldl (fun s v =>
    if dOpcode (s.cmd v).desc = opLaunch then s.updCmd v (fun c => { c with saves := c.saves + 1 }) else s) s
  if (s.bay b).mgmt = .draining ∧ (s.bay b).unit ≠ .resetting ∧ (s.bay b).idle then s.cutBay b else s

/-- A Sweld port drains for POWER_OFF: it waits up to 64 ms for its streams to close. -/
def State.drainPort (s : State) (p : Nat) : State :=
  let s := s.updPort p (fun v => { v with mgmt := .draining, draining := some s.time })
  if (s.port p).unit = .down then s.cutPort p else s.settlePort p

/-- A unit is powered, reset, and enters service when the reset ends (R289). -/
def State.powerUp (s : State) (u : Nat) : State :=
  match unitKind u with
  | .bay b => (s.updBay b (fun v => { v with mgmt := .on, powering := true, unpowered := false })).doBayReset b .management
  | .port p =>
    (s.updPort p (fun v => { v with mgmt := .on, powering := true, unpowered := false, draining := none })).doPortReset p .management
  | _ => s

/-- A power request that is carried out. -/
def State.powerNow (s : State) (u : Nat) (on : Bool) : State :=
  if on then s.powerUp u
  else match unitKind u with
    | .bay b => s.drainBay b
    | .port p => s.drainPort p
    | _ => s

def State.refuseUnit (s : State) : State := { s with plb := { s.plb with unitRefused := true } }

/-- A power request (R298): refused for other kinds of unit; held behind an unresolved split (R288); refused for a unit
already in the state asked for. -/
def State.powerRequest (s : State) (u : Nat) (on : Bool) : State :=
  match s.mgmtState u with
  | none => s.refuseUnit
  | some m =>
    if s.plb.openSplits.contains u then { s with plb := { s.plb with heldPower := s.plb.heldPower ++ [(u, on)] } }
    else if m = (if on then .on else .off) then s.refuseUnit
    else if !on && decide (m = .draining) then s
    else s.powerNow u on

/-- POWER_OFF. -/
def execPowerOff (unit : BitVec 12) (s : State) : Host.Outcome State Fault Refusal :=
  .next (if s.ready then s.mgmtOp (.power false unit) (fun s => s.powerRequest unit.toNat false) else s)

/-- POWER_ON. -/
def execPowerOn (unit : BitVec 12) (s : State) : Host.Outcome State Fault Refusal :=
  .next (if s.ready then s.mgmtOp (.power true unit) (fun s => s.powerRequest unit.toNat true) else s)

/-- PORT_DRAIN_TIMEOUT: streams still open after 64 ms break as at a port reset, and the port is powered off. -/
def State.doPortDrain (s : State) (p : Nat) : State :=
  match (s.port p).draining with
  | some t =>
    if s.powered && decide (t + 64000000 ≤ s.time) && decide ((s.port p).unit = .up) then
      let s := s.breakPort p
      if (s.port p).draining.isSome then s.cutPort p else s
    else s
  | none => s

def execPortDrainTimeout (p : Fin 16) (s : State) : Host.Outcome State Fault Refusal := .next (s.doPortDrain p.val)

/-! ## Splits (R288) -/

/-- The units that a split can strike: bays and Sweld ports. -/
def splitUnits : List Nat := List.range 48 ++ (List.range 16).map unitPort

/-- Exactly one of data UP and management ON; RESETTING and DRAINING never count. -/
def State.isSplit (s : State) (u : Nat) : Bool :=
  match s.mgmtState u with
  | some m =>
    decide (s.unitState u ≠ .resetting) && decide (m ≠ .draining)
      && (decide (s.unitState u = .up) != decide (m = .on))
  | none => false

/-- A split is found: STATE_SPLIT, and it is kept for the reprobe. -/
def State.findSplit (s : State) (u : Nat) : State :=
  let m := ((s.mgmtState u).map MgmtState.code).getD 0
  let d := (s.unitState u).code
  let s := s.raise fcStateSplit { unit := u, info0 := m, info1 := d }
  { s with plb := { s.plb with
      splits := satAdd 32 s.plb.splits 1, lastUnit := u, lastMgmt := m, lastData := d
      openSplits := s.plb.openSplits ++ [u] } }

/-- A split is resolved: the power requests held behind it are carried out. -/
def State.closeSplit (s : State) (u : Nat) : State :=
  let mine := s.plb.heldPower.filter (fun e : Nat × Bool => decide (e.1 = u))
  let s := { s with plb := { s.plb with
    openSplits := s.plb.openSplits.filter (fun x => decide (x ≠ u))
    heldPower := s.plb.heldPower.filter (fun e : Nat × Bool => decide (e.1 ≠ u)) } }
  mine.foldl (fun s e => s.powerRequest e.1 e.2) s

/-- SPLIT_CHECK: every bay and Sweld port is compared; a split that is gone is closed. -/
def State.doSplitCheck (s : State) : State :=
  if !s.ready || s.plb.failover then s
  else splitUnits.foldl (fun s u =>
    let known := s.plb.openSplits.contains u
    if s.isSplit u && !known then s.findSplit u
    else if known && !s.isSplit u then s.closeSplit u
    else s) s

def execSplitCheck (s : State) : Host.Outcome State Fault Refusal := .next s.doSplitCheck

/-- The reset of a unit's domain by the management path. -/
def State.resetUnit (s : State) (u : Nat) : State :=
  match unitKind u with
  | .bay b => s.doBayReset b .management
  | .port p => s.doPortReset p .management
  | _ => s

/-- A unit has no work left: nothing on a bay's engines, no stream on a port. -/
def State.unitIdle (s : State) (u : Nat) : Bool :=
  match unitKind u with
  | .bay b => (s.bay b).idle
  | .port p => (s.outsOn p).isEmpty && (s.insOn p).isEmpty
  | _ => true

/-- The reset of a unit that has no power ends DOWN. -/
def State.setUnpowered (s : State) (u : Nat) : State :=
  match unitKind u with
  | .bay b => s.updBay b (fun v => { v with unpowered := true })
  | .port p => s.updPort p (fun v => { v with unpowered := true })
  | _ => s

/-- SPLIT_REPROBE (Table 12.9). A unit without power is taken DOWN, its management state as it was, only once its work has
completed; until then the reprobe changes nothing. -/
def State.doReprobe (s : State) (u : Nat) (answers powered : Bool) : State :=
  if !s.ready || s.plb.failover || !s.plb.openSplits.contains u then s
  else if !s.isSplit u then s.closeSplit u
  else if s.mgmtState u = some .on then
    if answers then (s.resetUnit u).closeSplit u
    else ((s.setMgmt u .failed).raise fcUnitFailed { unit := u }).closeSplit u
  else if powered && answers then (s.setMgmt u .on).closeSplit u
  else if s.unitIdle u then
    (((s.setUnpowered u).raise fcUnitFailed { unit := u }).resetUnit u).closeSplit u
  else s

def execSplitReprobe (unit : BitVec 12) (answers powered : Bool) (s : State) : Host.Outcome State Fault Refusal :=
  .next (s.doReprobe unit.toNat answers powered)

/-! ## The power loop (R386, R391) -/

def maxLevel : Nat := 88

/-- The effective limit L. -/
def State.powerLimit (s : State) : Nat := min s.plb.mgrLimit s.plb.plinthLimit

/-- A limit lies in its range. -/
def limitOk (w : Nat) : Bool := decide (300 ≤ w) && decide (w ≤ 1150)

/-- A limit of the manager, and a TJ_THROTTLE, that lie in their ranges. -/
def State.setManagerLimit (s : State) (w : Nat) : State :=
  if limitOk w then { s with plb := { s.plb with mgrLimit := w } } else s

def State.setThrottle (s : State) (c : Nat) : State :=
  if 70 ≤ c ∧ c ≤ 100 then { s with plb := { s.plb with tjThrottle := c } } else s

/-- A write to PLB_POWER_LIMIT; held during a failover (R79). -/
def State.doPowerLimit (s : State) (value : Nat) : State :=
  let w := bitsOf value 10 0
  if s.ready then s.mgmtOp (.managerLimit w) (fun s => s.setManagerLimit w) else s

def execPlbPowerLimitWrite (value : W32) (s : State) : Host.Outcome State Fault Refusal :=
  .next (s.doPowerLimit value.toNat)

/-- The level that follows from an estimate. -/
def State.nextLevel (s : State) (watts : Nat) : Nat :=
  let p := s.plb
  let low := !s.pins.prochotN
  let k := if s.powerLimit < watts || p.thermal || low then min maxLevel (p.level + 1)
    else if watts + 25 < s.powerLimit then p.level - 1
    else p.level
  let k := if low then max 32 k else k
  if s.time < p.overCurrentUntil then maxLevel else k

/-- POWER_LOOP_TICK: at a multiple of 10 µs of TIME, with the level of PROCHOT_N at that time. -/
def State.doPowerLoop (s : State) (sense : PowerSense) : State :=
  let watts := sense.watts
  let s := { s with pins := { s.pins with prochotN := sense.prochotN } }
  if !s.powered || decide (s.time % 10000 ≠ 0) || decide (s.plb.lastLoop = some s.time) then s
  else
    let p := s.plb
    let k := s.nextLevel watts
    let n := if p.level = maxLevel ∧ s.powerLimit < watts then p.at88 + 1 else 0
    { s with plb := { p with
        estimates := (watts :: p.estimates).take 100, lastLoop := some s.time, level := k
        at88 := min 100 n, limitMissed := p.limitMissed || decide (100 ≤ n) } }

def execPowerLoopTick (sense : PowerSense) (s : State) : Host.Outcome State Fault Refusal :=
  .next (s.doPowerLoop sense)

/-- PROCHOT_ASSERT: the pin falls, and the level is at least 32. -/
def State.doProchot (s : State) : State :=
  let s := { s with pins := { s.pins with prochotN := false } }
  if s.powered then { s with plb := { s.plb with level := max 32 s.plb.level } } else s

def execProchotAssert (s : State) : Host.Outcome State Fault Refusal := .next s.doProchot

/-! ## Temperature (R388, R389, R394) -/

/-- The sensors of a guard-band domain in a reading: 12 for each die and its bed die, then 4 for each quoin. -/
def sensorsOf (d : Nat) : List Nat :=
  if d < 8 then (List.range 12).map (12 * d + ·) else (List.range 4).map (96 + 4 * (d - 8) + ·)

/-- Every sensor is read: MAX_C, PEAK_C and the thermal trigger. -/
def State.readSensors (s : State) (r : List Nat) : State :=
  let p := s.plb
  let tops := (List.range 10).map (fun d => ((sensorsOf d).map (fun i => min 255 (r.getD i 0))).foldl max 0)
  let any := r.any (fun t => decide (p.tjThrottle ≤ t))
  let cool := r.all (fun t => decide (t + 2 ≤ p.tjThrottle))
  { s with plb := { p with
      temps := (List.range 10).foldl (fun t d => Tbl.set 0 t d (tops.getD d 0)) p.temps
      peaks := (List.range 10).foldl (fun t d => Tbl.set 0 t d (max (Tbl.get 0 p.peaks d) (tops.getD d 0))) p.peaks
      thermal := any || (p.thermal && !cool) } }

/-- THERMTRIP: the clocks stop, every transmitter falls silent, and the device is FATAL. -/
def State.thermTrip (s : State) : State :=
  let s := (s.packageStop (unitPlumb false) 3).enterState .fatal
  { s with
    dev := { s.dev with linkUp0 := false, linkUp1 := false }
    plb := { s.plb with thermtrip := true } }

/-- THERMAL_READ. -/
def State.doThermal (s : State) (r : List Nat) : State :=
  if !s.powered then s
  else
    let hot := (List.range 104).filter (fun i => decide (115 ≤ r.getD i 0))
    let trip := hot.any (fun i => s.plb.hot.contains i)
    let s := s.readSensors r
    let s := { s with plb := { s.plb with hot := hot } }
    if trip then s.thermTrip else s

def execThermalRead (readings : List Nat) (s : State) : Host.Outcome State Fault Refusal := .next (s.doThermal readings)

/-! ## Regulators (R385) -/

/-- STATUS_WORD is read; an over-current sets the greatest throttle level for 10 ms. -/
def State.readStatusWord (s : State) (reg : Nat) (acked overCurrent : Bool) : State :=
  let s := s.vrTransaction reg acked
  if acked && overCurrent then
    { s with plb := { s.plb with level := maxLevel, overCurrentUntil := s.time + 10000000 } }
  else s

/-- VR_ALERT: STATUS_WORD is read, by the controller that takes over where a failover runs. -/
def State.doVrAlert (s : State) (reg : Fin 5) (acked overCurrent : Bool) : State :=
  if !s.powered then s
  else s.mgmtOp (.alert reg acked overCurrent) (fun s => s.readStatusWord reg.val acked overCurrent)

def execVrAlert (reg : Fin 5) (acked overCurrent : Bool) (s : State) : Host.Outcome State Fault Refusal :=
  .next (s.doVrAlert reg acked overCurrent)

/-- ENTDAA (R377): the plumb controller takes its dynamic address on I3C. -/
def State.doEntdaa (s : State) (addr : BitVec 7) : State :=
  if s.powered && !s.dev.perstHold then { s with plb := { s.plb with i3cAddr := some addr, ibiMissed := 0 } } else s

def execEntdaa (addr : BitVec 7) (s : State) : Host.Outcome State Fault Refusal := .next (s.doEntdaa addr)

end Sys2Proof.Machine
end

