-- ==== Sys2Proof/Machine/Regs.lean ====
section
/-! DEFINITION. The registers as they are read (spec/17 R396 to R410): the register map, each register's layout from the
rule that defines it, and what a read returns (R9, R11, R66, R398, R402). -/

namespace Sys2Proof.Machine

/-! ## The map (Tables 17.3 to 17.9) -/

/-- The BAR2 registers; a number is the register's index in its family. -/
inductive Reg where
  | deviceId | caps | time | accessErr
  | imageAddr | imageLen | imageCtl | imageStatus | imageSerial | secStatus | secCtl | sliceCtl | sliceState (k : Nat)
  | deviceState | resetCtl | resetStatus | staleCount | fwAddr | fwLen | fwCtl | fwStatus
  | unitStates (k : Nat) | tenantReset (k : Nat)
  | handleCtl | handleBaseA | handleBaseB | handleStatus | fillSrc | fillDst | fillCtl | fillStatus
  | bayStatus (b : Nat) | preemptStats | statsCtl | slabStatus (b : Nat) | slabPreempt | hodStatus (b : Nat)
  | riddleStatus (b : Nat) | hodPreempt | lsScrub | chanStatus (c : Nat) | retrainStats | memCtl | scrubStatus (c : Nat)
  | ucStatus (x : Nat) | occupancy (s : Nat) | rarCount (s : Nat) | wayCtl | capstoneStatus | ucScrub
  | bridgeStatus (b : Nat) | bridgeBytes (n : Nat) | bcastStatus (d : Nat) | route (s : Nat)
  | portStatus (p : Nat) | portCounts (p : Nat) | peerCtl | peerStatus | streamStats | timeStatus
  | unitMgmt (k : Nat) | unitCtl | splitStatus | flashStatus | powerLimit | powerStatus | thermalCfg | temp (k : Nat)
  | straps
  | fltBase | fltCfg | fltNotify | fltHead | fltRingStatus | errMask | ack | fltStatus | fltCounts | bucketCfg | inject
  | injectStatus | repairEntry | repairCtl | repairStatus | repairUsed | bucket (k : Nat) | sliceFaults (s : Nat)
  | fltLast (n : Nat)
  | telBase | telCfg | telNotify | telHead | telRingStatus | telSel (n : Nat) | snapVal (n : Nat) | groupStatus (g : Nat)
  | snapTime (g : Nat) | telCtl | aging (k : Nat)
  | migCtl | blobAddr | migStatus | migBase | migCfg | migNotify | migHead | migRingStatus | copySrc | copyDst | copyCtl
  | copyStatus | migSlice (s : Nat)
deriving DecidableEq, Repr

/-- The registers of a doorbell page. -/
inductive PageReg where
  | info | status | time | tenantReset | poolFree | poolStatus | fqBase | fqCfg | fqStatus | fqNotify
  | sqBase (q : Nat) | sqCfg (q : Nat) | sqStatus (q : Nat)
  | cqBase (q : Nat) | cqCfg (q : Nat) | cqNotify (q : Nat) | cqStatus (q : Nat)
  | sqTail (q : Nat) | cqHead (q : Nat) | fqHead
deriving DecidableEq, Repr

/-- A family of registers: first offset, distance, count, whether 64 bits wide, and its members. -/
structure Bank (α : Type) where
  base : Nat
  stride : Nat
  count : Nat
  wide : Bool
  reg : Nat → α

/-- One register. -/
def one {α : Type} (base : Nat) (wide : Bool) (r : α) : Bank α := ⟨base, 8, 1, wide, fun _ => r⟩

/-- The member of a family at an offset. -/
def Bank.at? {α : Type} (k : Bank α) (off : Nat) : Option (Bool × α) :=
  if k.base ≤ off ∧ (off - k.base) % k.stride = 0 ∧ (off - k.base) / k.stride < k.count then
    some (k.wide, k.reg ((off - k.base) / k.stride))
  else none

/-- The register at an offset, with its width. -/
def regAt {α : Type} (m : List (Bank α)) (off : Nat) : Option (Bool × α) := m.findSome? (fun k => k.at? off)

/-- Tables 17.3 and 17.4. -/
def mapCfgMc : List (Bank Reg) :=
  [ one 0x0000 false .deviceId, one 0x0008 true .caps, one 0x0010 true .time, one 0x0018 true .accessErr,
    one 0x0100 true .imageAddr, one 0x0108 false .imageLen, one 0x0110 false .imageCtl, one 0x0118 true .imageStatus,
    one 0x0120 true .imageSerial, one 0x0128 true .secStatus, one 0x0130 false .secCtl, one 0x0140 false .sliceCtl,
    ⟨0x0180, 8, 16, true, .sliceState⟩, one 0x0200 true .deviceState, one 0x0210 false .resetCtl,
    one 0x0218 true .resetStatus, one 0x0220 true .staleCount, one 0x0228 true .fwAddr, one 0x0230 false .fwLen,
    one 0x0234 false .fwCtl, one 0x0238 true .fwStatus, ⟨0x0240, 8, 8, true, .unitStates⟩,
    ⟨0x0280, 8, 4, true, .tenantReset⟩, one 0x0300 false .handleCtl, one 0x0308 true .handleBaseA,
    one 0x0310 true .handleBaseB, one 0x0318 true .handleStatus, one 0x0320 true .fillSrc, one 0x0328 true .fillDst,
    one 0x0330 true .fillCtl, one 0x0338 true .fillStatus ]
  ++ [ ⟨0x1000, 8, 48, true, .bayStatus⟩, one 0x1180 true .preemptStats, one 0x1188 false .statsCtl,
    ⟨0x1200, 8, 48, true, .slabStatus⟩, one 0x1380 true .slabPreempt, ⟨0x1400, 8, 48, true, .hodStatus⟩,
    ⟨0x1580, 8, 48, true, .riddleStatus⟩, one 0x1700 true .hodPreempt, one 0x1800 true .lsScrub,
    ⟨0x8000, 8, 128, true, .chanStatus⟩, one 0x8400 true .retrainStats, one 0x8408 false .memCtl,
    ⟨0x8800, 8, 128, true, .scrubStatus⟩ ]

/-- Tables 17.5 and 17.6. -/
def mapUcSwd : List (Bank Reg) :=
  [ ⟨0x4000, 8, 512, true, .ucStatus⟩, ⟨0x5000, 8, 256, true, .occupancy⟩, ⟨0x5800, 8, 256, true, .rarCount⟩,
    one 0x6000 false .wayCtl, one 0x6100 true .capstoneStatus, one 0x6200 true .ucScrub,
    ⟨0x7000, 8, 14, true, .bridgeStatus⟩, ⟨0x7080, 8, 28, true, .bridgeBytes⟩, ⟨0x7180, 8, 8, true, .bcastStatus⟩,
    ⟨0x71C0, 8, 8, true, .route⟩ ]
  ++ [ ⟨0x9000, 8, 16, true, .portStatus⟩, ⟨0x9080, 8, 16, true, .portCounts⟩, one 0x9100 true .peerCtl,
    one 0x9108 true .peerStatus, one 0x9110 true .streamStats, one 0x9118 true .timeStatus,
    ⟨0x9800, 8, 8, true, .unitMgmt⟩, one 0x9840 false .unitCtl, one 0x9848 true .splitStatus,
    one 0x9850 true .flashStatus, one 0x9900 false .powerLimit, one 0x9908 true .powerStatus,
    one 0x9910 false .thermalCfg, ⟨0x9920, 8, 10, true, .temp⟩, one 0x9970 false .straps ]

/-- Tables 17.7 and 17.8. -/
def mapFltMig : List (Bank Reg) :=
  [ one 0xA000 true .fltBase, one 0xA008 true .fltCfg, one 0xA010 true .fltNotify, one 0xA018 false .fltHead,
    one 0xA020 true .fltRingStatus, one 0xA028 false .errMask, one 0xA02C false .ack, one 0xA030 true .fltStatus,
    one 0xA038 true .fltCounts, one 0xA040 false .bucketCfg, one 0xA048 true .inject, one 0xA050 true .injectStatus,
    one 0xA058 true .repairEntry, one 0xA060 false .repairCtl, one 0xA068 false .repairStatus,
    one 0xA070 true .repairUsed, ⟨0xA400, 8, 128, true, .bucket⟩, ⟨0xA800, 8, 256, true, .sliceFaults⟩,
    ⟨0xB000, 8, 128, true, .fltLast⟩ ]
  ++ [ one 0xC000 true .telBase, one 0xC008 true .telCfg, one 0xC010 true .telNotify, one 0xC018 false .telHead,
    one 0xC020 true .telRingStatus, ⟨0xC100, 8, 128, true, .telSel⟩, ⟨0xC500, 8, 128, true, .snapVal⟩,
    ⟨0xC900, 8, 16, true, .groupStatus⟩, ⟨0xC980, 8, 16, true, .snapTime⟩, one 0xCA00 false .telCtl,
    ⟨0xCA80, 8, 10, true, .aging⟩ ]
  ++ [ one 0xD000 false .migCtl, one 0xD008 true .blobAddr, one 0xD010 true .migStatus, one 0xD020 true .migBase,
    one 0xD028 true .migCfg, one 0xD030 true .migNotify, one 0xD038 false .migHead, one 0xD040 true .migRingStatus,
    one 0xD048 true .copySrc, one 0xD050 true .copyDst, one 0xD058 true .copyCtl, one 0xD060 true .copyStatus,
    ⟨0xD400, 8, 256, true, .migSlice⟩ ]

/-- The registers of BAR2. -/
def bar2Map : List (Bank Reg) := mapCfgMc ++ mapUcSwd ++ mapFltMig

/-- The registers of a doorbell page (Table 17.9). -/
def pageMap : List (Bank PageReg) :=
  [ one 0x0000 true .info, one 0x0008 true .status, one 0x0010 true .time, one 0x0018 false .tenantReset,
    one 0x0020 false .poolFree, one 0x0028 true .poolStatus, one 0x0040 true .fqBase, one 0x0048 true .fqCfg,
    one 0x0050 true .fqStatus, one 0x0058 true .fqNotify,
    ⟨0x0100, 0x20, 16, true, .sqBase⟩, ⟨0x0108, 0x20, 16, true, .sqCfg⟩, ⟨0x0110, 0x20, 16, true, .sqStatus⟩,
    ⟨0x0400, 0x20, 16, true, .cqBase⟩, ⟨0x0408, 0x20, 16, true, .cqCfg⟩, ⟨0x0410, 0x20, 16, true, .cqNotify⟩,
    ⟨0x0418, 0x20, 16, true, .cqStatus⟩, ⟨0x1000, 8, 16, false, .sqTail⟩, ⟨0x1100, 8, 16, false, .cqHead⟩,
    one 0x1200 false .fqHead ]

/-! ## How an access matches (R11, R399) -/

/-- What an access covers. -/
inductive Match (α : Type) where
  /-- One register of the access's width. -/
  | whole (r : α)
  /-- A 64-bit access over two 32-bit places; one of them may hold no register. -/
  | halves (lo hi : Option α)
  /-- Neither: the access is counted. -/
  | bad
deriving DecidableEq, Repr

/-- The 32-bit register at an offset. -/
def reg32 {α : Type} (m : List (Bank α)) (off : Nat) : Option α :=
  match regAt m off with
  | some (false, r) => some r
  | _ => none

/-- An access of 32 or 64 bits at an offset. -/
def matchAccess {α : Type} (m : List (Bank α)) (off : Nat) (wide : Bool) : Match α :=
  if wide then
    if off % 8 ≠ 0 then .bad
    else match regAt m off with
      | some (true, r) => .whole r
      | _ => match reg32 m off, reg32 m (off + 4) with
        | none, none => .bad
        | lo, hi => .halves lo hi
  else
    match reg32 m off with
    | some r => .whole r
    | none => .bad

/-! ## Layouts -/

/-- Fields at their positions. -/
def word (fs : List (Nat × Nat)) : Nat := fs.foldl (fun n f => n + f.2 * 2 ^ f.1) 0

/-- A one-bit field. -/
def bitField (lo : Nat) (b : Bool) : Nat × Nat := (lo, ofBool b)

/-- Fields of `w` bits side by side. -/
def fieldsOf (w : Nat) (vs : List Nat) : Nat := word (vs.mapIdx (fun i v => (w * i, v)))

/-- Codes of Table 3.3. -/
def DevState.code : DevState → Nat
  | .bringup => 0
  | .fwWait => 1
  | .imageWait => 2
  | .ready => 3
  | .failed => 4
  | .fatal => 5

/-- CFG_CAPS (R22). -/
def capsWord (s : State) : Nat :=
  word [(0, 0x30), (8, 8), (12, 2), (16, if s.dev.memValid then s.dev.memRate else 0),
    (18, if s.dev.memValid then s.dev.memDensity else 0), bitField 20 s.pins.traySel, bitField 21 s.dev.memValid,
    (24, 16), (32, 0xFF)]

/-- CFG_DEVICE_STATE (R81). -/
def deviceStateWord (s : State) : Nat :=
  word [(0, s.dev.state.code), (4, s.dev.step), (8, s.dev.failCode), (16, s.dev.failUnit), (24, s.dev.resetCause),
    (32, s.dev.readyMs)]

/-- CFG_UNIT_STATEk (R86): a field of two bits for each unit. -/
def unitStateWord (s : State) (k : Nat) : Nat :=
  if k = 0 then fieldsOf 2 ((List.range 32).map (fun n => (s.bay n).unit.code))
  else if k = 1 then fieldsOf 2 ((List.range 16).map (fun n => (s.bay (32 + n)).unit.code))
  else if k < 6 then fieldsOf 2 ((List.range 32).map (fun n => (s.chan (32 * (k - 2) + n)).unit.code))
  else if k = 6 then
    fieldsOf 2 ((List.range 8).map (fun d => (s.dieState d).code))
      + 2 ^ 16 * fieldsOf 2 ((List.range 16).map (fun p => (s.port p).unit.code))
  else 0

/-- PLB_UNIT_MGMTk (R297). -/
def unitMgmtWord (s : State) (k : Nat) : Nat :=
  if k = 0 then fieldsOf 2 ((List.range 32).map (fun n => (s.bay n).mgmt.code))
  else if k = 1 then fieldsOf 2 ((List.range 16).map (fun n => (s.bay (32 + n)).mgmt.code))
  else if k = 6 then 2 ^ 16 * fieldsOf 2 ((List.range 16).map (fun p => (s.port p).mgmt.code))
  else 0

/-- CFG_SEC_STATUS (R59). -/
def secWord (s : State) : Nat :=
  word [(0, (List.range 4).foldl (fun m k => setBit m k (Tbl.find? s.nv.keys k).isSome) 0), (4, s.nv.revoked % 16),
    (8, s.whole.loadedFrom), (16, s.nv.floor), (32, s.whole.secVersion.toNat)]

/-- A slice's MC_BAY_STATUS fields (R134). -/
def bayWord (s : State) (b : Nat) : Nat :=
  let h := s.bayHolder b
  let v := s.bay b
  let gangs := (s.gangs.filter (fun e : Nat × Gang => decide (e.2.bay = b) && !e.2.saved)).length
  word [(0, h.getD 0), bitField 8 h.isSome, bitField 9 ((s.dedicatedTo b).isNone && decide (s.whole.loadedFrom ≠ 3)),
    (10, if gangs = 0 then 0 else v.split),
    (16, (List.range 8).foldl (fun m k => setBit m k (Tbl.find? v.cores k).isSome) 0), (24, gangs), (40, v.zeroings)]

/-- MC_SLAB_STATUS (R159). -/
def slabWord (s : State) (b : Nat) : Nat :=
  let v := s.bay b
  word [bitField 0 v.quartered,
    (1, (List.range 4).foldl (fun m q => setBit m q (Tbl.get {} v.arrays q).cmd.isSome) 0), (16, v.tiles)]

/-- MC_CHAN_STATUS (R263). -/
def chanWord (s : State) (c : Nat) : Nat :=
  let v := s.chan c
  word [bitField 0 v.killed.isSome, (1, v.killed.getD 0), bitField 5 v.repacking, (8, v.pprQueue.length),
    (16, v.remaps.length), bitField 23 v.pprDropped, (24, v.repackRow), (44, v.corrected), (54, v.uncorrected)]

/-- UC_SLICE_STATUS (R205). -/
def ucWord (s : State) (x : Nat) : Nat :=
  let off := Tbl.get 0 s.uc.wayOff x
  word [(0, off), bitField 16 (decide (off = 0xFFFF)), (32, Tbl.get 0 s.uc.corrected x), (48, Tbl.get 0 s.uc.refetched x)]

/-- UC_OCCUPANCY (R206). -/
def occupancyWord (s : State) (i : Nat) : Nat :=
  let ws := s.uc.ways.filter (fun e : Nat × Way => e.2.holds && decide (e.2.owner = i))
  let most := ((ws.map (fun e => e.1 / 24576)).eraseDups).foldl (fun n x => max n (s.occ x i)) 0
  word [(0, ws.length), (24, most), (39, (s.slice i).bypasses)]

/-- FAB_BRIDGE_STATUS (R239). -/
def bridgeWord (s : State) (b : Nat) : Nat :=
  let v := s.bridge b
  word [(0, v.linksGood), (7, v.spares), bitField 10 v.degraded, (32, v.retries)]

/-- Codes of SWD_PORT_STATUS.STATE (Table 12.12). -/
def PortState.code : PortState → Nat
  | .down => 0
  | .training => 1
  | .up => 2
  | .recovering => 3
  | .off => 4

/-- SWD_PORT_STATUS (R291). -/
def portWord (s : State) (p : Nat) : Nat :=
  let v := s.port p
  word [(0, v.state.code), bitField 3 v.x4, (4, v.remotePort), (8, v.remotePkg), bitField 12 v.remoteValid,
    (16, v.lanes.toNat), (32, (s.outsOn p).length), (48, (s.insOn p).length)]

/-- SWD_TIME_STATUS (R296): while this package is the master, MASTER_PKG is its own (R407). -/
def timeWord (s : State) : Nat :=
  word [(0, s.pins.pkgId.toNat), (4, if s.sweld.master then s.pins.pkgId.toNat else s.sweld.masterPkg),
    bitField 8 s.sweld.master, bitField 9 s.sweld.aligned, (16, s.sweld.steps), (32, unsignedOf 32 s.sweld.measured)]

/-- PLB_FLASH_STATUS (R359). -/
def flashWord (s : State) : Nat :=
  let j := s.nv.journal
  if j.valid then
    word [(0, j.slot / 64), bitField 8 true, (9, (List.range 4).foldl (fun m a => setBit m a (j.worn a)) 0),
      (32, j.boots.toNat)]
  else 0

/-- POWER_W (R392): the mean of the estimates of the last 1 ms. -/
def meanPower (s : State) : Nat := s.plb.estimates.foldl (· + ·) 0 / max 1 s.plb.estimates.length

/-- PLB_POWER_STATUS (R392). -/
def powerWord (s : State) : Nat :=
  let p := s.plb
  word [(0, min 2047 (meanPower s)), (16, p.level), bitField 23 (!s.pins.prochotN), bitField 24 p.thermal,
    bitField 25 p.limitMissed, bitField 26 p.vrFault, (32, min (2 ^ 32 - 1) (p.throttleNs / 1000000))]

/-- The layout of a manager ring's CFG register (Table 13.11). -/
def ringCfgWord (r : Ring) : Nat :=
  word [(0, r.sizeLog2.toNat), bitField 5 r.port, bitField 6 r.enable, bitField 7 r.notifyEn, (32, r.notifyValue.toNat)]

/-- The layout of a fault or telemetry ring's STATUS register (Table 13.12), with its upper field. -/
def ringStatusWord (r : Ring) (upper : Nat) : Nat :=
  word [(0, r.tail), bitField 16 r.phase, bitField 17 r.enable, bitField 18 r.badDoorbell, bitField 19 r.cfgError,
    (32, upper)]

/-- Records of a class are open (R317). -/
def State.openClass (s : State) (cls : Nat) : Bool := s.flt.openRecs.any (fun e : W32 × Nat => decide (e.2 = cls))

/-- FLT_STATUS (R329). -/
def fltStatusWord (s : State) : Nat :=
  word [bitField 0 s.errLow, bitField 1 (s.openClass 0), bitField 2 (s.openClass 1), bitField 3 (s.openClass 2),
    (32, s.flt.lastSeq.toNat)]

/-- FLT_COUNTS (R329). -/
def fltCountsWord (s : State) : Nat :=
  word [(0, s.flt.cDropped), (16, s.flt.ufLost), (32, s.flt.tqDropped), (48, s.flt.reportsLost)]

/-- MIG_SLICE_STATUS (R373). -/
def migSliceWord (s : State) (i : Nat) : Nat :=
  let v := s.slice i
  word [bitField 0 v.logging, bitField 1 v.logLost, bitField 2 v.logInvalid, bitField 3 (decide (v.lateWrites ≠ 0)),
    (16, s.heldBuffers i), (32, v.lateWrites)]

/-! ## The value of a register -/

/-- CFG_ registers (R404). -/
def State.readCfg (s : State) : Reg → Nat
  | .deviceId => 0x0D082100
  | .caps => capsWord s
  | .time => s.time
  | .accessErr => word [(0, s.dev.accessErr), (32, s.dev.lastOffset.toNat), bitField 56 s.dev.lastBar,
      bitField 57 s.dev.lastWrite]
  | .imageAddr => s.dev.imageAddr.toNat
  | .imageLen => s.dev.imageLen
  | .imageStatus => word [bitField 0 s.dev.imageBusy, bitField 1 s.dev.imageDone, bitField 2 s.dev.imageOverrun,
      (8, s.dev.imageResult), (16, s.dev.imageLastOp), (24, s.dev.imageLastSlice), (32, s.dev.imageOffset)]
  | .imageSerial => s.whole.serial.toNat
  | .secStatus => secWord s
  | .sliceCtl => word [bitField 24 s.dev.sliceWrong]
  | .sliceState k => fieldsOf 4 ((List.range 16).map (fun j => (s.slice (16 * k + j)).state.code))
  | .deviceState => deviceStateWord s
  | .resetStatus => word [bitField 0 s.dev.resetDone, bitField 1 s.dev.resetMerged, bitField 2 s.dev.resetRefused,
      (8, s.dev.lastDomain), (16, s.dev.lastInst)]
  | .staleCount => s.dev.staleCount
  | .fwAddr => s.dev.fwAddr.toNat
  | .fwLen => s.dev.fwLen
  | .fwStatus => word [bitField 0 s.dev.fwBusy, bitField 1 s.dev.fwDone, bitField 2 s.dev.fwOverrun,
      bitField 3 s.dev.fwHost, bitField 4 s.dev.fwSlotB, (8, s.dev.fwResult), (32, s.dev.fwVersion.toNat % 2 ^ 32)]
  | .unitStates k => unitStateWord s k
  | .tenantReset k => fieldsOf 1 ((List.range 64).map (fun j => ofBool (decide ((s.slice (64 * k + j)).reset ≠ .none))))
  | .handleBaseA => s.dev.handleBaseA.toNat
  | .handleBaseB => s.dev.handleBaseB.toNat
  | .handleStatus => word [bitField 0 s.dev.handleDone, bitField 1 s.dev.handleRetired, bitField 2 s.dev.handleBusy,
      bitField 3 s.dev.handleOverrun, (8, s.dev.handleResult), (16, s.dev.retiredHandle), bitField 26 s.dev.retiredBase,
      (32, s.dev.retiredSlice)]
  | .fillSrc => s.dev.fillSrc.toNat
  | .fillDst => s.dev.fillDst.toNat
  | .fillStatus => word [bitField 0 s.dev.fillBusy, bitField 1 s.dev.fillDone, bitField 2 s.dev.fillOverrun,
      (8, s.dev.fillResult)]
  | _ => 0

/-- MC_, UC_ and FAB_ registers (R405, R406). -/
def State.readMc (s : State) : Reg → Nat
  | .bayStatus b => bayWord s b
  | .preemptStats => word [(0, s.dev.preempts), (32, s.dev.preemptWorst)]
  | .slabStatus b => slabWord s b
  | .slabPreempt => word [(0, s.dev.slabPreempts), (32, s.dev.slabWorst)]
  | .hodStatus b => word [bitField 0 (s.bay b).hod.isSome, bitField 1 (s.bay b).hodPayload, (16, (s.bay b).rowsPooled)]
  | .riddleStatus b => word [bitField 0 (s.bay b).riddle.isSome, (16, (s.bay b).elements)]
  | .hodPreempt => word [(0, s.dev.hodImages), (32, s.dev.hodWorst)]
  | .lsScrub => word [(0, s.tel.lsPasses), (32, s.tel.lsZeroed)]
  | .chanStatus c => chanWord s c
  | .retrainStats => word [(0, s.mem.holds), (32, s.mem.worstHold)]
  | .memCtl => word [bitField 24 s.mem.ctlDone, bitField 25 s.mem.ctlRefused]
  | .scrubStatus c => word [(0, (s.chan c).scrubPos), bitField 27 (s.chan c).scrubLate, (32, (s.chan c).scrubPasses)]
  | .ucStatus x => ucWord s x
  | .occupancy i => occupancyWord s i
  | .rarCount i => (s.slice i).rarCount
  | .wayCtl => word [bitField 16 s.uc.wayBusy, bitField 17 s.uc.wayDone, bitField 18 s.uc.wayOverrun]
  | .capstoneStatus =>
    word [(0, (s.uc.capstones.filter (fun e : Nat × Capstone => e.2.held && e.2.host.isNone)).length), (16, s.uc.heldMax),
      (32, s.uc.discarded)]
  | .ucScrub => word [(0, s.uc.scrubPasses), (32, s.uc.scrubCorrected)]
  | .bridgeStatus b => bridgeWord s b
  | .bridgeBytes n => if n % 2 = 0 then (s.bridge (n / 2)).bytes0 else (s.bridge (n / 2)).bytes1
  | .bcastStatus d => word [(0, Tbl.get 0 s.fab.transfers d), (32, Tbl.get 0 s.fab.fallbacks d)]
  | .route i => fieldsOf 4 ((List.range 8).map (fun t => Tbl.get 0 s.fab.routes (8 * i + t)))
  | _ => 0

/-- SWD_ and PLB_ registers (R407). -/
def State.readPlb (s : State) : Reg → Nat
  | .portStatus p => portWord s p
  | .portCounts p => word [(0, (s.port p).fecCorrected), (32, (s.port p).replays), (48, (s.port p).recoveries)]
  | .peerStatus => word [bitField 0 s.sweld.peerDone, (4, s.sweld.peerResult)]
  | .streamStats => word [(0, s.sweld.broken), (16, s.sweld.refused), (32, s.sweld.duplicates), (48, s.sweld.malformed)]
  | .timeStatus => timeWord s
  | .unitMgmt k => unitMgmtWord s k
  | .unitCtl => word [bitField 24 s.plb.unitDone, bitField 25 s.plb.unitRefused]
  | .splitStatus => word [(0, s.plb.splits), (32, s.plb.lastUnit), (44, s.plb.lastMgmt), (46, s.plb.lastData)]
  | .flashStatus => flashWord s
  | .powerLimit => word [(0, s.plb.mgrLimit), (16, s.plb.plinthLimit)]
  | .powerStatus => powerWord s
  | .thermalCfg => s.plb.tjThrottle
  | .temp k => word [(0, Tbl.get 0 s.plb.temps k), (8, Tbl.get 0 s.plb.peaks k)]
  | .straps => word [(0, s.pins.pkgId.toNat), bitField 4 s.pins.traySel]
  | _ => 0

/-- FLT_ registers (R408). -/
def State.readFlt (s : State) : Reg → Nat
  | .fltBase => s.flt.ring.base.toNat
  | .fltCfg => ringCfgWord s.flt.ring
  | .fltNotify => s.flt.ring.notifyAddr.toNat
  | .fltRingStatus => ringStatusWord s.flt.ring s.flt.held.length
  | .errMask => s.flt.mask
  | .ack => s.flt.ack.toNat
  | .fltStatus => fltStatusWord s
  | .fltCounts => fltCountsWord s
  | .bucketCfg => word [(0, s.flt.threshold), (8, s.flt.leak)]
  | .injectStatus => word [(0, s.flt.inject.remaining), bitField 16 s.flt.inject.armed, bitField 17 s.flt.inject.disarmed,
      bitField 18 s.flt.inject.refused, (32, s.flt.inject.unit)]
  | .repairEntry => s.flt.repairEntry.toNat
  | .repairStatus => word [bitField 0 s.flt.repairBusy, bitField 1 s.flt.repairDone, bitField 2 s.flt.repairFailed,
      bitField 3 s.flt.repairFull]
  | .repairUsed => fieldsOf 8 ((List.range 8).map (fun d => (Tbl.get [] s.nv.repairs d).length))
  | .bucket k => fieldsOf 8 ((List.range 8).map (fun j => Tbl.get 0 s.flt.buckets (8 * k + j)))
  | .sliceFaults i => word [bitField 0 (s.slice i).descBad, (16, (s.slice i).tqDropped), (32, (s.slice i).uCount)]
  | .fltLast n => match s.flt.last[n / 8]? with
    | some r => leAt r.bytes (8 * (n % 8)) 8
    | none => 0
  | _ => 0

/-- TEL_ and MIG_ registers (R409). -/
def State.readTel (s : State) : Reg → Nat
  | .telBase => s.tel.ring.base.toNat
  | .telCfg => ringCfgWord s.tel.ring
  | .telNotify => s.tel.ring.notifyAddr.toNat
  | .telRingStatus => ringStatusWord s.tel.ring s.tel.droppedTicks
  | .telSel n => (Tbl.get {} s.tel.counters n).sel.toNat
  | .snapVal n => (Tbl.get {} s.tel.counters n).snap.toNat
  | .groupStatus g =>
    fieldsOf 1 ((List.range 8).map (fun i => ofBool (Tbl.get {} s.tel.counters (8 * g + i)).ovf)
      ++ (List.range 8).map (fun i => ofBool (Tbl.get {} s.tel.counters (8 * g + i)).snapOvf))
  | .snapTime g => Tbl.get 0 s.tel.snapTime g
  | .aging k =>
    let a := Tbl.get {} s.tel.aging k
    word [(0, a.guardMv), (8, a.marginPs), bitField 16 a.exhausted, (32, a.raises)]
  | .blobAddr => s.mig.blobAddr.toNat
  | .migStatus => word [bitField 0 s.mig.busy, bitField 1 s.mig.done, bitField 2 s.mig.overrun, (8, s.mig.result),
      (16, s.mig.lastSlice), (24, s.mig.lastOp), (32, s.mig.markSerial.toNat)]
  | .migBase => s.mig.ring.base.toNat
  | .migCfg => ringCfgWord s.mig.ring
  | .migNotify => s.mig.ring.notifyAddr.toNat
  | .migRingStatus => word [(0, s.mig.ring.tail), bitField 20 s.mig.ring.phase, bitField 21 s.mig.ring.enable,
      bitField 22 s.mig.ring.badDoorbell, bitField 23 s.mig.ring.cfgError, (32, s.mig.ring.lost)]
  | .copySrc => s.mig.copySrc.toNat
  | .copyDst => s.mig.copyDst.toNat
  | .copyStatus => word [bitField 0 s.mig.copyBusy, bitField 1 s.mig.copyDone, bitField 2 s.mig.copyOverrun,
      (8, s.mig.copyResult), (32, s.mig.copyPoisoned)]
  | .migSlice i => migSliceWord s i
  | _ => 0

/-- The current value of a BAR2 register; a write-only register reads zero (R9). Each register's layout stands in one of
the five functions. -/
def State.regValue (s : State) (r : Reg) : Nat :=
  s.readCfg r + s.readMc r + s.readPlb r + s.readFlt r + s.readTel r

/-- The registers that read their live values before READY (R66). -/
def Reg.live : Reg → Bool
  | .deviceId | .caps | .time | .secStatus | .deviceState | .imageAddr | .imageLen | .imageCtl | .imageStatus
  | .imageSerial | .fwAddr | .fwLen | .fwCtl | .fwStatus | .unitStates _ => true
  | _ => false

/-- BRINGUP, FW_WAIT or IMAGE_WAIT (R66). -/
def State.preReady (s : State) : Bool :=
  decide (s.dev.state = .bringup) || decide (s.dev.state = .fwWait) || decide (s.dev.state = .imageWait)

/-- The state whose registers hold their reset values (R401): what the fuses, straps and journal give stands. -/
def State.resetView (s : State) : State :=
  { State.reset with
    nv := s.nv
    pins := { pkgId := s.pins.pkgId, traySel := s.pins.traySel }
    mem := { chans := Tbl.mapVals s.mem.chans (fun _ v => { killed := v.killed, remaps := v.remaps }) }
    tel := { aging := Tbl.mapVals s.tel.aging (fun _ a => { guardMv := a.guardMv }) } }

/-- What a read of a BAR2 register returns (R66, R398, R402). -/
def State.readReg (s : State) (r : Reg) : Nat :=
  if s.preReady && !r.live then s.resetView.regValue r else s.regValue r

/-- A read of BAR2 at an offset. -/
def State.readBar2 (s : State) (off : Nat) (wide : Bool) : Nat :=
  match matchAccess bar2Map off wide with
  | .whole r => s.readReg r
  | .halves lo hi => ((lo.map s.readReg).getD 0) + 2 ^ 32 * ((hi.map s.readReg).getD 0)
  | .bad => 0

/-! ## The doorbell page (Tables 4.14 to 4.19) -/

/-- QE_SQ_CFG (Table 4.17). -/
def sqCfgWord (x : Sq) : Nat :=
  word [(0, x.pasid.toNat), bitField 20 x.port, bitField 21 x.enable, (22, x.sizeLog2.toNat)]

/-- QE_CQ_CFG and QE_FQ_CFG (Table 4.17). -/
def cqCfgWord (r : Ring) : Nat :=
  word [(0, r.pasid.toNat), bitField 20 r.port, bitField 21 r.enable, (22, r.sizeLog2.toNat), bitField 27 r.notifyEn,
    (32, r.notifyValue.toNat)]

/-- QE_CQ_STATUS and QE_FQ_STATUS (Table 4.19). -/
def cqStatusWord (r : Ring) : Nat :=
  word [(0, r.tail), bitField 16 r.enable, bitField 17 r.badDoorbell, bitField 18 r.cfgError, bitField 19 r.phase,
    (32, r.reserved), (48, r.lost)]

/-- Fetched, undispatched commands of an SQ (Table 4.18). -/
def State.windowLoad (s : State) (x : Sq) : Nat :=
  (x.window.filter (fun id => !(s.cmd id).dispatched)).length

/-- The value of a register of slice i's page; queue registers at or above the granted counts read zero (R90). -/
def State.pageValue (s : State) (i : Nat) (r : PageReg) : Nat :=
  let v := s.slice i
  let d := v.defn
  let sq := fun (q : Nat) (f : Sq → Nat) => if q < d.sqCount then f (v.sq q) else 0
  let cq := fun (q : Nat) (f : Ring → Nat) => if q < d.cqCount then f (v.cq q) else 0
  match r with
  | .info => word [(0, i), (8, d.sqCount), (13, d.cqCount), (18, d.maxDepth), (23, d.classMask), bitField 31 d.tenantFlip,
      (32, d.tableHandles), (43, d.payloadBuffers)]
  | .status => word [(0, v.state.code), bitField 4 (decide (v.reset ≠ .none)), (32, v.droppedDoorbells)]
  | .time => s.time
  | .poolStatus => word [(0, s.heldBuffers i), (16, v.doubleFrees), (32, v.foreignFrees), (48, v.refusedArrivals)]
  | .fqBase => v.fq.base.toNat
  | .fqCfg => cqCfgWord v.fq
  | .fqStatus => cqStatusWord v.fq
  | .fqNotify => v.fq.notifyAddr.toNat
  | .sqBase q => sq q (fun x => x.base.toNat)
  | .sqCfg q => sq q sqCfgWord
  | .sqStatus q => sq q (fun x => word [(0, x.head), bitField 16 x.enable, bitField 17 x.badDoorbell,
      bitField 18 x.cfgError, (32, s.windowLoad x)])
  | .cqBase q => cq q (fun x => x.base.toNat)
  | .cqCfg q => cq q cqCfgWord
  | .cqNotify q => cq q (fun x => x.notifyAddr.toNat)
  | .cqStatus q => cq q cqStatusWord
  | .tenantReset | .poolFree | .sqTail _ | .cqHead _ | .fqHead => 0

/-- A read of BAR0: zero but in READY (R66, R402). The page of an OFF slice reads zero (R88). -/
def State.readBar0 (s : State) (off : Nat) (wide : Bool) : Nat :=
  let i := off / 0x10000
  if !s.ready || decide ((s.slice i).state = .off) then 0
  else match matchAccess pageMap (off % 0x10000) wide with
    | .whole r => s.pageValue i r
    | .halves lo hi => ((lo.map (s.pageValue i)).getD 0) + 2 ^ 32 * ((hi.map (s.pageValue i)).getD 0)
    | .bad => 0

end Sys2Proof.Machine
end

