-- ==== Sys2Proof/Machine/RegWrites.lean ====
section
/-! DEFINITION. Register writes without a row of their own (spec/00 R9, R10; spec/17 R399, R402), the access-error counter
(R400) and the counters that a write clears (spec/05 R136). -/

namespace Sys2Proof.Machine

/-- A W1C bit after a write: a 1 clears it. -/
def w1c (v i : Nat) (old : Bool) : Bool := old && !bitAt v i

/-- A written value without its reserved bits below `lo`. -/
def fromBit (lo v : Nat) : W64 := BitVec.ofNat 64 (v / 2 ^ lo * 2 ^ lo)

/-! ## CFG_ -/

/-- The writes that act from the start of bring-up: the registers of images and firmware (R66). Any write of a CTL register
while its operation runs sets OVERRUN (R57, R85). -/
def State.writeImageReg (s : State) (r : Reg) (v : Nat) : State :=
  if !s.imageRegs then s
  else match r with
    | .imageAddr => { s with dev := { s.dev with imageAddr := fromBit 6 v } }
    | .imageLen => { s with dev := { s.dev with imageLen := v % 2 ^ 21 } }
    | .imageCtl => if s.dev.imageBusy then { s with dev := { s.dev with imageOverrun := true } } else s
    | .imageStatus => { s with dev := { s.dev with
        imageDone := w1c v 1 s.dev.imageDone, imageOverrun := w1c v 2 s.dev.imageOverrun } }
    | .fwAddr => { s with dev := { s.dev with fwAddr := fromBit 6 v } }
    | .fwLen => { s with dev := { s.dev with fwLen := v % 2 ^ 24 } }
    | .fwCtl => if s.dev.fwBusy then { s with dev := { s.dev with fwOverrun := true } } else s
    | .fwStatus => { s with dev := { s.dev with
        fwDone := w1c v 1 s.dev.fwDone, fwOverrun := w1c v 2 s.dev.fwOverrun } }
    | _ => s

/-- Whether CFG_RESET_CTL carries a reserved DOMAIN or an INSTANCE beyond its domain's count (R82). -/
def badDomain (v : Nat) : Bool :=
  let n := bitsOf v 15 8
  match v % 8 with
  | 2 => decide (48 ≤ n)
  | 3 => decide (128 ≤ n)
  | 4 => decide (8 ≤ n)
  | 5 => decide (16 ≤ n)
  | 6 => decide (1 ≤ n)
  | 7 => true
  | _ => false

/-- The other CFG_ registers. -/
def State.writeCfg (s : State) (r : Reg) (v : Nat) : State :=
  let d := s.dev
  match r with
  | .resetCtl => if s.stopRegs && badDomain v then s.refuseReset else s
  | _ =>
    if !s.ready then s
    else match r with
      | .sliceCtl => { s with dev := { d with sliceWrong := w1c v 24 d.sliceWrong } }
      | .resetStatus => { s with dev := { d with
          resetDone := w1c v 0 d.resetDone, resetMerged := w1c v 1 d.resetMerged
          resetRefused := w1c v 2 d.resetRefused } }
      | .handleBaseA => { s with dev := { d with handleBaseA := BitVec.ofNat 64 v } }
      | .handleBaseB => { s with dev := { d with handleBaseB := BitVec.ofNat 64 v } }
      | .handleCtl => if d.handleBusy then { s with dev := { d with handleOverrun := true } } else s
      | .handleStatus => { s with dev := { d with
          handleDone := w1c v 0 d.handleDone, handleRetired := w1c v 1 d.handleRetired
          handleOverrun := w1c v 3 d.handleOverrun } }
      | .fillSrc => { s with dev := { d with fillSrc := fromBit 7 v } }
      | .fillDst => { s with dev := { d with fillDst := BitVec.ofNat 64 v } }
      | .fillStatus => { s with dev := { d with
          fillDone := w1c v 1 d.fillDone, fillOverrun := w1c v 2 d.fillOverrun } }
      | _ => s

/-! ## MC_, UC_, SWD_, PLB_ -/

/-- MC_MEM_CTL, UC_WAY_CTL, SWD_PEER_STATUS, PLB_UNIT_CTL, PLB_POWER_STATUS and PLB_THERMAL_CFG. -/
def State.writePlb (s : State) (r : Reg) (v : Nat) : State :=
  if !s.ready then s
  else match r with
    | .memCtl => { s with mem := { s.mem with
        ctlDone := w1c v 24 s.mem.ctlDone
        ctlRefused := w1c v 25 s.mem.ctlRefused || decide (v % 4 = 3) } }
    | .wayCtl =>
      if s.uc.wayBusy then { s with uc := { s.uc with wayOverrun := true } }
      else if bitsOf v 14 13 = 3 then s
      else { s with uc := { s.uc with wayDone := w1c v 17 s.uc.wayDone, wayOverrun := w1c v 18 s.uc.wayOverrun } }
    | .peerStatus => { s with sweld := { s.sweld with peerDone := w1c v 0 s.sweld.peerDone } }
    | .unitCtl => { s with plb := { s.plb with
        unitDone := w1c v 24 s.plb.unitDone
        unitRefused := w1c v 25 s.plb.unitRefused || decide (v % 4 = 3) } }
    | .powerStatus => { s with plb := { s.plb with limitMissed := w1c v 25 s.plb.limitMissed } }
    | .thermalCfg => s.mgmtOp (.throttle (v % 128)) (fun s => s.setThrottle (v % 128))
    | _ => s

/-! ## FLT_, TEL_, MIG_ -/

/-- The notify address of a manager ring. -/
def Ring.setNotify (r : Ring) (v : Nat) : Ring := { r with notifyAddr := fromBit 2 v }

/-- W1C bits of a ring's STATUS register: BAD_DOORBELL and CFG_ERROR. -/
def Ring.clearStatus (r : Ring) (v bad cfg : Nat) : Ring :=
  { r with badDoorbell := w1c v bad r.badDoorbell, cfgError := w1c v cfg r.cfgError }

/-- FLT_ERR_MASK and the FLT_RING registers, which act in FAILED and FATAL too (R402). -/
def State.writeFltRing (s : State) (r : Reg) (v : Nat) : State :=
  if !s.stopRegs then s
  else match r with
    | .errMask => { s with flt := { s.flt with mask := v % 8 } }
    | .fltNotify => { s with flt := { s.flt with ring := s.flt.ring.setNotify v } }
    | .fltRingStatus => { s with flt := { s.flt with ring := s.flt.ring.clearStatus v 18 19 } }
    | _ => s

/-- The other FLT_ registers. -/
def State.writeFlt (s : State) (r : Reg) (v : Nat) : State :=
  if !s.ready then s
  else match r with
    | .bucketCfg =>
      if v % 256 = 0 ∨ bitsOf v 15 8 = 0 then s
      else { s with flt := { s.flt with threshold := v % 256, leak := bitsOf v 15 8 } }
    | .injectStatus => { s with flt := { s.flt with inject := { s.flt.inject with
        disarmed := w1c v 17 s.flt.inject.disarmed, refused := w1c v 18 s.flt.inject.refused } } }
    | .repairEntry => { s with flt := { s.flt with repairEntry := BitVec.ofNat 64 (v % 2 ^ 56) } }
    | .repairStatus => { s with flt := { s.flt with
        repairDone := w1c v 1 s.flt.repairDone, repairFailed := w1c v 2 s.flt.repairFailed
        repairFull := w1c v 3 s.flt.repairFull } }
    | _ => s

/-- TEL_ and MIG_ registers. -/
def State.writeTel (s : State) (r : Reg) (v : Nat) : State :=
  let m := s.mig
  if !s.ready then s
  else match r with
    | .telNotify => { s with tel := { s.tel with ring := s.tel.ring.setNotify v } }
    | .telRingStatus => { s with tel := { s.tel with ring := s.tel.ring.clearStatus v 18 19 } }
    | .migCtl => if m.busy then { s with mig := { m with overrun := true } } else s
    | .blobAddr => { s with mig := { m with blobAddr := fromBit 12 v } }
    | .migStatus => { s with mig := { m with done := w1c v 1 m.done, overrun := w1c v 2 m.overrun } }
    | .migNotify => { s with mig := { m with ring := m.ring.setNotify v } }
    | .migRingStatus => { s with mig := { m with ring := m.ring.clearStatus v 22 23 } }
    | .copySrc => { s with mig := { m with copySrc := fromBit 7 v } }
    | .copyDst => { s with mig := { m with copyDst := fromBit 7 v } }
    | .copyStatus => { s with mig := { m with
        copyDone := w1c v 1 m.copyDone, copyOverrun := w1c v 2 m.copyOverrun } }
    | _ => s

/-! ## Any register -/

/-- The group to which a register belongs. -/
inductive RegGroup where
  | image | cfg | plb | fltRing | flt | tel
deriving DecidableEq, Repr

/-- The group of a register that a write without a row can change. -/
def Reg.group : Reg → Option RegGroup
  | .imageAddr | .imageLen | .imageCtl | .imageStatus | .fwAddr | .fwLen | .fwCtl | .fwStatus => some .image
  | .sliceCtl | .resetCtl | .resetStatus | .handleBaseA | .handleBaseB | .handleCtl | .handleStatus | .fillSrc | .fillDst
  | .fillStatus => some .cfg
  | .memCtl | .wayCtl | .peerStatus | .unitCtl | .powerStatus | .thermalCfg => some .plb
  | .errMask | .fltNotify | .fltRingStatus => some .fltRing
  | .bucketCfg | .injectStatus | .repairEntry | .repairStatus => some .flt
  | .telNotify | .telRingStatus | .migCtl | .blobAddr | .migStatus | .migNotify | .migRingStatus | .copySrc | .copyDst
  | .copyStatus => some .tel
  | _ => none

/-- A write of a BAR2 register: its RW fields are set and its W1C bits cleared; read-only and reserved fields ignore it
(R9). Operations of CTL registers have rows of their own and are not started here. -/
def State.writeReg (s : State) (r : Reg) (v : Nat) : State :=
  match r.group with
  | some .image => s.writeImageReg r v
  | some .cfg => s.writeCfg r v
  | some .plb => s.writePlb r v
  | some .fltRing => s.writeFltRing r v
  | some .flt => s.writeFlt r v
  | some .tel => s.writeTel r v
  | none => s

/-- A write of a register of slice i's doorbell page: notify addresses and W1C bits (Tables 4.18 and 4.19). -/
def State.writePage (s : State) (i : Nat) (r : PageReg) (v : Nat) : State :=
  s.pageWrite i false (fun s =>
    match r with
    | .fqNotify => s.updSlice i (fun x => { x with fq := x.fq.setNotify v })
    | .fqStatus => s.updSlice i (fun x => { x with fq := x.fq.clearStatus v 17 18 })
    | .sqStatus q =>
      if q < (s.slice i).defn.sqCount then
        s.updSq i q (fun x => { x with badDoorbell := w1c v 17 x.badDoorbell, cfgError := w1c v 18 x.cfgError })
      else s
    | .cqNotify q => if q < (s.slice i).defn.cqCount then s.updCq i q (fun x => x.setNotify v) else s
    | .cqStatus q => if q < (s.slice i).defn.cqCount then s.updCq i q (fun x => x.clearStatus v 17 18) else s
    | _ => s)

/-- A counted access (R400); nothing is counted before READY (R399). -/
def State.countAccess (s : State) (bar0 : Bool) (off : BitVec 24) (isWrite : Bool) : State :=
  if !s.pins.pwrGood || s.preReady then s
  else { s with dev := { s.dev with
    accessErr := satAdd 32 s.dev.accessErr 1, lastOffset := off, lastBar := bar0, lastWrite := isWrite } }

/-- A write that matches no register: counted, and a write to the page of a FROZEN slice is late (R368). -/
def State.badWrite (s : State) (bar0 : Bool) (off : BitVec 24) : State :=
  let s := s.countAccess bar0 off true
  if bar0 then s.pageWrite (off.toNat / 0x10000) false (fun s => s) else s

/-- A write that matches registers in the map (R399). -/
def State.applyMatch {α : Type} (s : State) (m : Match α) (f : State → α → Nat → State) (bad : State → State)
    (v : Nat) : State :=
  match m with
  | .whole r => f s r v
  | .halves lo hi =>
    let s := match lo with
      | some r => f s r (v % 2 ^ 32)
      | none => s
    match hi with
    | some r => f s r (v / 2 ^ 32)
    | none => s
  | .bad => bad s

/-- A 32-bit half of a 64-bit write over two 32-bit registers acts as a write of its own (R399): FLT_ACK closes records
and CFG_FW_CTL starts its operation, although each has rows of its own. -/
def State.writeHalf (s : State) (port : Bool) (r : Reg) (v : Nat) : State :=
  match r with
  | .ack => s.doAck (BitVec.ofNat 32 v)
  | .fwCtl => match v % 4 with
    | 1 => s.startFw 1 false port
    | 2 => s.startFw 2 (bitAt v 2) port
    | _ => s.writeReg .fwCtl v
  | r => s.writeReg r v

/-- REGISTER_WRITE: 64 bits of the value where `wide`, else its low 32. A write of a FROZEN slice's page that matches no
register counts as late too (R368). -/
def State.doRegisterWrite (s : State) (w : Window) (off : BitVec 24) (wide : Bool) (value : Nat) : State :=
  let v := if wide then value else value % 2 ^ 32
  let bad := fun s : State => s.badWrite w.bar0 off
  if w.bar0 then
    s.applyMatch (matchAccess pageMap (off.toNat % 0x10000) wide) (fun s r v => s.writePage (off.toNat / 0x10000) r v) bad v
  else s.applyMatch (matchAccess bar2Map off.toNat wide) (fun s r v => if wide then s.writeHalf w.port r v else s.writeReg r v) bad v

def execRegisterWrite (window : Window) (offset : BitVec 24) (wide : Bool) (value : W64) (s : State) :
    Host.Outcome State Fault Refusal :=
  .next (s.doRegisterWrite window offset wide value.toNat)

/-- BAD_ACCESS: the access reads zero or is ignored, and is counted. -/
def execBadAccess (bar0 : Bool) (offset : BitVec 24) (isWrite : Bool) (s : State) : Host.Outcome State Fault Refusal :=
  .next (if isWrite then s.badWrite bar0 offset else s.countAccess bar0 offset false)

/-- CFG_ACCESS_ERR_CLEAR: COUNT is zero; LAST_* are kept. -/
def State.doClearAccess (s : State) : State :=
  if s.ready then { s with dev := { s.dev with accessErr := 0 } } else s

def execCfgAccessErrClear (s : State) : Host.Outcome State Fault Refusal := .next s.doClearAccess

/-- MC_STATS_CLEAR (R136). -/
def State.doClearStats (s : State) : State :=
  if s.ready then { s with dev := { s.dev with preempts := 0, preemptWorst := 0 } } else s

def execMcStatsClear (s : State) : Host.Outcome State Fault Refusal := .next s.doClearStats

end Sys2Proof.Machine
end

