-- ==== Sys2Proof/Machine/Plumb.lean ====
section
/-! DEFINITION. The plumb controller's command set (spec/12 R287, Table 12.8) and its failover (spec/03 R79), and a PCIe
link that goes down (R54, R73). The forms of the answers' payloads are the model's (notes/assumptions/35.md). -/

namespace Sys2Proof.Machine

/-! ## Answers -/

/-- The 7-bit address at which the plumb controller answers SMBus (R377). -/
def State.smbAddress (s : State) : Nat := 0x60 + s.pins.pkgId.toNat

/-- The low four bits of its provisional ID on I3C (R377). -/
def State.provisionalLow (s : State) : BitVec 4 := s.pins.pkgId

/-- The plumb controller's answer to a message: status and payload. -/
def State.answer (s : State) (status : Nat) (b : Bytes) : State :=
  if s.pins.pwrGood then { s with plb := { s.plb with answer := (status, b) } } else s

def execGetDeviceState (s : State) : Host.Outcome State Fault Refusal :=
  .next (s.answer 0 (leBytes 8 (deviceStateWord s)))

/-- The data state of every unit, then the management state (R86, R297). -/
def unitStateBytes (s : State) : Bytes :=
  (List.range 8).flatMap (fun k => leBytes 8 (unitStateWord s k)) ++ (List.range 8).flatMap (fun k => leBytes 8 (unitMgmtWord s k))

def execGetUnitState (s : State) : Host.Outcome State Fault Refusal := .next (s.answer 0 (unitStateBytes s))

/-- The latest record of a class; zeros where there is none among the last 16. -/
def State.latest (s : State) (cls : Nat) : Bytes :=
  match s.flt.last.find? (fun r => faultClass r.code == cls) with
  | some r => r.bytes
  | none => List.replicate 64 0

/-- READ_FAULT_SUMMARY: the counts, then the latest records of classes C, U and F. Answering it over SMBus releases
SMB_ALERT_N (R377). The row does not say over which bus the message came: without a dynamic address on I3C it can only
be SMBus, else it is a free choice (DESIGN CHOICE, notes/assumptions/35.md). -/
def State.doFaultSummary (s : State) : State :=
  let s := s.answer 0 (leBytes 8 (fltCountsWord s) ++ s.latest 0 ++ s.latest 1 ++ s.latest 2)
  let (pick, s) := s.drawChoice 2
  if s.pins.pwrGood && (s.plb.i3cAddr.isNone || decide (pick = 1)) then
    { s with plb := { s.plb with smbAlert := false } }
  else s

def execReadFaultSummary (s : State) : Host.Outcome State Fault Refusal := .next s.doFaultSummary

/-- READ_TELEMETRY: package power, the ten temperatures and TIME. -/
def telemetryBytes (s : State) : Bytes :=
  leBytes 2 (min 2047 (meanPower s)) ++ (List.range 10).flatMap (fun d => leBytes 1 (Tbl.get 0 s.plb.temps d))
    ++ leBytes 8 s.time

def execReadTelemetry (s : State) : Host.Outcome State Fault Refusal := .next (s.answer 0 (telemetryBytes s))

/-- A message that is not understood, or whose CRC is bad: status 0xFF and no effect. -/
def State.doUnknownPlumb (s : State) (code : Nat) (crcOk : Bool) : State :=
  if crcOk && decide (1 ≤ code) && decide (code ≤ 8) then s else s.answer 0xFF []

def execUnknownPlumbCommand (code : Byte) (crcOk : Bool) (s : State) : Host.Outcome State Fault Refusal :=
  .next (s.doUnknownPlumb code.toNat crcOk)

/-! ## Commands with an effect -/

/-- SET_POWER_LIMIT: a limit outside 300 to 1,150 W is not taken, and its status is not stated. -/
def State.setPlinthLimit (s : State) (w : Nat) : State :=
  if limitOk w then { (s.answer 0 []) with plb := { (s.answer 0 []).plb with plinthLimit := w } }
  else
    let (r, s) := s.drawChoice 256
    s.answer r []

def execSetPowerLimit (watts : BitVec 16) (s : State) : Host.Outcome State Fault Refusal :=
  .next (if s.powered then s.mgmtOp (.limit watts) (fun s => s.setPlinthLimit watts.toNat) else s)

/-- UNIT_POWER: as PLB_UNIT_CTL. -/
def State.plumbUnitPower (s : State) (on : Bool) (u : Nat) : State :=
  let s := s.answer 0 []
  if s.ready then s.powerRequest u on else s

def execUnitPower (on : Bool) (unit : BitVec 12) (s : State) : Host.Outcome State Fault Refusal :=
  .next (if s.powered then s.mgmtOp (.unitPower on unit) (fun s => s.plumbUnitPower on unit.toNat) else s)

/-- PACKAGE_RESET: the message is answered, and the reset begins. -/
def State.plumbReset (s : State) : State := (s.doPackageReset .management).answer 0 []

def execPlumbPackageReset (s : State) : Host.Outcome State Fault Refusal :=
  .next (if s.powered then s.mgmtOp .packageReset (fun s => s.plumbReset) else s)

/-- STAGE_FLASH of a WHOLE image, with the checks of STORE_SLOT in their order; the RESULT code. -/
def State.stageImage (s : State) (area : Nat) (b : Bytes) (flashOk : Bool) : State × Nat :=
  if !s.imageRegs then (s, irWrongState)
  else if badImgLen b.length then (s, irFetch)
  else match wholeCheck s.nv s.density b (some b.length) with
    | some e => (s, e.code)
    | none =>
      if s.whole.loadedFrom = area - 2 then (s, irActiveSlot)
      else match s.storeFlash area b flashOk with
        | (s, true) => (s, 0)
        | (s, false) => (s, irFlash)

/-- STAGE_FLASH of firmware. -/
def State.stageFirmware (s : State) (area : Nat) (b : Bytes) (flashOk : Bool) : State × Nat :=
  if !s.ready then (s, irWrongState)
  else if badFwLen b.length then (s, irFetch)
  else match firmwareCheck s.nv b (some b.length) with
    | some e => (s, e.code)
    | none =>
      if s.fwActive (decide (area = 1)) then (s, irActiveSlot)
      else match s.storeFlash area b flashOk with
        | (s, true) => (s, 0)
        | (s, false) => (s, irFlash)

/-- STAGE_FLASH: the status is the RESULT code of Table 2.18. -/
def State.doStage (s : State) (area : Nat) (b : Bytes) (flashOk : Bool) : State :=
  match (if area < 2 then s.stageFirmware area b flashOk else s.stageImage area b flashOk) with
  | (s, code) => s.answer code []

def execStageFlash (area : Fin 4) (data : Bytes) (flashOk : Bool) (s : State) : Host.Outcome State Fault Refusal :=
  .next (if s.powered then s.mgmtOp (.stage area data flashOk) (fun s => s.doStage area.val data flashOk) else s)

/-! ## Failover (R79) -/

/-- A management operation held during a failover, performed afterwards. -/
def State.performHeld (s : State) : HeldOp → State
  | .power on u => if s.ready then s.powerRequest u.toNat on else s
  | .limit w => s.setPlinthLimit w.toNat
  | .unitPower on u => s.plumbUnitPower on u.toNat
  | .packageReset => s.plumbReset
  | .managerLimit w => if s.ready then s.setManagerLimit w else s
  | .throttle c => if s.ready then s.setThrottle c else s
  | .alert reg acked oc => s.readStatusWord reg.val acked oc
  | .stage area b ok => s.doStage area.val b ok

/-- PLUMB_FAILOVER: quoin 1's controller takes over from quoin 0's; what was held meanwhile follows in order. -/
def State.doFailover (s : State) (ended : Bool) : State :=
  if !s.powered then s
  else if ended then
    if s.plb.failover then
      let ops := s.plb.heldOps
      ops.foldl State.performHeld { s with plb := { s.plb with failover := false, heldOps := [] } }
    else s
  else if s.plb.failover then s
  else { s with plb := { s.plb with failover := true } }.raise fcFailover { unit := unitPlumb false }

def execPlumbFailover (ended : Bool) (s : State) : Host.Outcome State Fault Refusal := .next (s.doFailover ended)

/-! ## A PCIe link goes down (R54, R73) -/

/-- The manager's copies and blobs that use the port end with HOST_ERROR, or FETCH_ERROR where they have that code. -/
def State.failCopies (s : State) (port : Bool) : State :=
  let s := if s.dev.fillBusy ∧ s.dev.fillPort = port then s.fillEnd 4 else s
  let s := if s.mig.copyBusy ∧ s.mig.copyPort = port ∧ !mcPoison s.mig.copyCtl.toNat then s.copyEnd 2 else s
  match s.mig.op with
  | some (op, i, p, _) => if (op = 5 ∨ op = 7) ∧ p = port then s.migEnd op i mrFetch else s
  | none => s

/-- PCIE_LINK_DOWN. -/
def State.doLinkDown (s : State) (port : Bool) (lost : List RingId) : State :=
  if s.linkUp port then
    let s := s.setLink port false
    let s := lost.foldl (fun s r => s.lostRecord port r) s
    ((s.failHostReads port).failOps port).failCopies port
  else s

def execPcieLinkDown (port : Bool) (lost : List RingId) (s : State) : Host.Outcome State Fault Refusal :=
  .next (s.doLinkDown port lost)

end Sys2Proof.Machine
end

