-- ==== Sys2Proof/Machine/Dispatch.lean ====
section
/-! DEFINITION. The dispatcher: one arm per command (spec/opcode_table.json), each a call of its meaning. -/

namespace Sys2Proof.Machine

def exec (i : Instr) (s : State) : Host.Outcome State Fault Refusal :=
  match i with
  | .nop c => Sys2Proof.Machine.execNop c s
  | .copy c reply => Sys2Proof.Machine.execCopy c reply s
  | .launch c => Sys2Proof.Machine.execLaunch c s
  | .slabRun c a => Sys2Proof.Machine.execSlabRun c a s
  | .gather c bay => Sys2Proof.Machine.execGather c bay s
  | .select c bay => Sys2Proof.Machine.execSelect c bay s
  | .release c => Sys2Proof.Machine.execRelease c s
  | .flush c => Sys2Proof.Machine.execFlush c s
  | .handleSet c => Sys2Proof.Machine.execHandleSet c s
  | .epochFlip c => Sys2Proof.Machine.execEpochFlip c s
  | .sweldSend c => Sys2Proof.Machine.execSweldSend c s
  | .sweldExpect c => Sys2Proof.Machine.execSweldExpect c s
  | .sqTailDoorbell slice q value => Sys2Proof.Machine.execSqTailDoorbell slice q value s
  | .cqHeadDoorbell ring value => Sys2Proof.Machine.execCqHeadDoorbell ring value s
  | .queueCfgWrite reg value => Sys2Proof.Machine.execQueueCfgWrite reg value s
  | .qeTenantReset slice value => Sys2Proof.Machine.execQeTenantReset slice value s
  | .qePoolFree slice value => Sys2Proof.Machine.execQePoolFree slice value s
  | .fetchDescriptor slice q reply => Sys2Proof.Machine.execFetchDescriptor slice q reply s
  | .dispatch => Sys2Proof.Machine.execDispatch s
  | .preemption ns => Sys2Proof.Machine.execPreemption ns s
  | .commandComplete c => Sys2Proof.Machine.execCommandComplete c s
  | .postCompletionRecord slice q => Sys2Proof.Machine.execPostCompletionRecord slice q s
  | .postWaitingRecord slice q => Sys2Proof.Machine.execPostWaitingRecord slice q s
  | .gangExit g => Sys2Proof.Machine.execGangExit g s
  | .workItemClaim c engine => Sys2Proof.Machine.execWorkItemClaim c engine s
  | .loadPlain g sp accs => Sys2Proof.Machine.execLoadPlain g sp accs s
  | .storePlain g sp accs => Sys2Proof.Machine.execStorePlain g sp accs s
  | .loadVolatile g source accs => Sys2Proof.Machine.execLoadVolatile g source accs s
  | .storeVolatile g sp accs => Sys2Proof.Machine.execStoreVolatile g sp accs s
  | .storeStream g n sp accs => Sys2Proof.Machine.execStoreStream g n sp accs s
  | .storeCapstone g n sp acc flag => Sys2Proof.Machine.execStoreCapstone g n sp acc flag s
  | .capstoneReleaseToken id => Sys2Proof.Machine.execCapstoneReleaseToken id s
  | .capstoneDiscard id => Sys2Proof.Machine.execCapstoneDiscard id s
  | .atomic g sp acc op kind operand comparand => Sys2Proof.Machine.execAtomic g sp acc op kind operand comparand s
  | .flushRange g start len mode => Sys2Proof.Machine.execFlushRange g start len mode s
  | .fence g => Sys2Proof.Machine.execFence g s
  | .flushAll g => Sys2Proof.Machine.execFlushAll g s
  | .maskPush g taken rpc => Sys2Proof.Machine.execMaskPush g taken rpc s
  | .maskReconverge g => Sys2Proof.Machine.execMaskReconverge g s
  | .cacheRead rid => Sys2Proof.Machine.execCacheRead rid s
  | .cacheWrite rid => Sys2Proof.Machine.execCacheWrite rid s
  | .replicaFill dpa => Sys2Proof.Machine.execReplicaFill dpa s
  | .replicaInstallAck dpa => Sys2Proof.Machine.execReplicaInstallAck dpa s
  | .replicaInvalidate dpa => Sys2Proof.Machine.execReplicaInvalidate dpa s
  | .invalidateAck dpa => Sys2Proof.Machine.execInvalidateAck dpa s
  | .channelRead c q errs mapErrs rid => Sys2Proof.Machine.execChannelRead c q errs mapErrs rid s
  | .channelWrite c q data mask => Sys2Proof.Machine.execChannelWrite c q data mask s
  | .refresh c bank => Sys2Proof.Machine.execRefresh c bank s
  | .retrainStart c => Sys2Proof.Machine.execRetrainStart c s
  | .retrainEnd c => Sys2Proof.Machine.execRetrainEnd c s
  | .hpprTimeout c => Sys2Proof.Machine.execHpprTimeout c s
  | .shieldAnswer rid => Sys2Proof.Machine.execShieldAnswer rid s
  | .staleReplyDiscard rid => Sys2Proof.Machine.execStaleReplyDiscard rid s
  | .tenantReset slice src => Sys2Proof.Machine.execTenantReset slice src s
  | .bayReset b src => Sys2Proof.Machine.execBayReset b src s
  | .channelReset c src => Sys2Proof.Machine.execChannelReset c src s
  | .dieReset d lost src => Sys2Proof.Machine.execDieReset d lost src s
  | .sweldPortReset p src => Sys2Proof.Machine.execSweldPortReset p src s
  | .packageReset src => Sys2Proof.Machine.execPackageReset src s
  | .resetComplete dom n ok => Sys2Proof.Machine.execResetComplete dom n ok s
  | .bringupStepTimeout => Sys2Proof.Machine.execBringupStepTimeout s
  | .coldStart pkgId traySel => Sys2Proof.Machine.execColdStart pkgId traySel s
  | .pwrGoodFall => Sys2Proof.Machine.execPwrGoodFall s
  | .perstNAssert => Sys2Proof.Machine.execPerstNAssert s
  | .pcieLinkDown port lost => Sys2Proof.Machine.execPcieLinkDown port lost s
  | .applySlice slice port => Sys2Proof.Machine.execApplySlice slice port s
  | .loadWhole port => Sys2Proof.Machine.execLoadWhole port s
  | .storeSlot slotB port => Sys2Proof.Machine.execStoreSlot slotB port s
  | .revoke unlock mask => Sys2Proof.Machine.execRevoke unlock mask s
  | .raiseFloor unlock => Sys2Proof.Machine.execRaiseFloor unlock s
  | .drain slice => Sys2Proof.Machine.execDrain slice s
  | .resume slice => Sys2Proof.Machine.execResume slice s
  | .sliceDrained slice => Sys2Proof.Machine.execSliceDrained slice s
  | .fwLoad port => Sys2Proof.Machine.execFwLoad port s
  | .fwStoreSlot slotB port => Sys2Proof.Machine.execFwStoreSlot slotB port s
  | .cfgHandleSet slice handle current => Sys2Proof.Machine.execCfgHandleSet slice handle current s
  | .cfgHandleFlip slice handle => Sys2Proof.Machine.execCfgHandleFlip slice handle s
  | .managerHandleEffect => Sys2Proof.Machine.execManagerHandleEffect s
  | .cfgFill value port => Sys2Proof.Machine.execCfgFill value port s
  | .cfgAccessErrClear => Sys2Proof.Machine.execCfgAccessErrClear s
  | .badAccess bar0 offset isWrite => Sys2Proof.Machine.execBadAccess bar0 offset isWrite s
  | .registerWrite window offset wide value => Sys2Proof.Machine.execRegisterWrite window offset wide value s
  | .mcStatsClear => Sys2Proof.Machine.execMcStatsClear s
  | .killPin c pin => Sys2Proof.Machine.execKillPin c pin s
  | .applyPpr c => Sys2Proof.Machine.execApplyPpr c s
  | .wayDisable x way => Sys2Proof.Machine.execWayDisable x way s
  | .wayEnable x way => Sys2Proof.Machine.execWayEnable x way s
  | .peer slice index pkg remote valid => Sys2Proof.Machine.execPeer slice index pkg remote valid s
  | .accept slice index pkg remote valid cls cq => Sys2Proof.Machine.execAccept slice index pkg remote valid cls cq s
  | .powerOff unit => Sys2Proof.Machine.execPowerOff unit s
  | .powerOn unit => Sys2Proof.Machine.execPowerOn unit s
  | .plbPowerLimitWrite value => Sys2Proof.Machine.execPlbPowerLimitWrite value s
  | .fltAck value => Sys2Proof.Machine.execFltAck value s
  | .arm unlock unit checker mask count => Sys2Proof.Machine.execArm unlock unit checker mask count s
  | .disarm unlock => Sys2Proof.Machine.execDisarm unlock s
  | .forcePath unlock unit => Sys2Proof.Machine.execForcePath unlock unit s
  | .fltRepairGo unlock die => Sys2Proof.Machine.execFltRepairGo unlock die s
  | .snap groups clearGroups => Sys2Proof.Machine.execSnap groups clearGroups s
  | .clear groups => Sys2Proof.Machine.execClear groups s
  | .telSelWrite g reg value => Sys2Proof.Machine.execTelSelWrite g reg value s
  | .logOn slice => Sys2Proof.Machine.execLogOn slice s
  | .logOff slice => Sys2Proof.Machine.execLogOff slice s
  | .mark slice => Sys2Proof.Machine.execMark slice s
  | .freeze slice => Sys2Proof.Machine.execFreeze slice s
  | .sliceFrozen slice => Sys2Proof.Machine.execSliceFrozen slice s
  | .migExport slice port => Sys2Proof.Machine.execMigExport slice port s
  | .thaw slice => Sys2Proof.Machine.execThaw slice s
  | .migImport slice port => Sys2Proof.Machine.execMigImport slice port s
  | .migCopy value port => Sys2Proof.Machine.execMigCopy value port s
  | .getDeviceState => Sys2Proof.Machine.execGetDeviceState s
  | .getUnitState => Sys2Proof.Machine.execGetUnitState s
  | .setPowerLimit watts => Sys2Proof.Machine.execSetPowerLimit watts s
  | .unitPower on unit => Sys2Proof.Machine.execUnitPower on unit s
  | .plumbPackageReset => Sys2Proof.Machine.execPlumbPackageReset s
  | .readFaultSummary => Sys2Proof.Machine.execReadFaultSummary s
  | .readTelemetry => Sys2Proof.Machine.execReadTelemetry s
  | .stageFlash area data flashOk => Sys2Proof.Machine.execStageFlash area data flashOk s
  | .unknownPlumbCommand code crcOk => Sys2Proof.Machine.execUnknownPlumbCommand code crcOk s
  | .portTrained p lanes remotePkg remotePort => Sys2Proof.Machine.execPortTrained p lanes remotePkg remotePort s
  | .flitReceived p flit fecOk fecSyms => Sys2Proof.Machine.execFlitReceived p flit fecOk fecSyms s
  | .replayTimeout p => Sys2Proof.Machine.execReplayTimeout p s
  | .linkRecovery p => Sys2Proof.Machine.execLinkRecovery p s
  | .linkRecovered p lanes => Sys2Proof.Machine.execLinkRecovered p lanes s
  | .recoveryTimeout p => Sys2Proof.Machine.execRecoveryTimeout p s
  | .sweldOpen p stream body => Sys2Proof.Machine.execSweldOpen p stream body s
  | .openAck p stream => Sys2Proof.Machine.execOpenAck p stream s
  | .refuse p stream reason => Sys2Proof.Machine.execRefuse p stream reason s
  | .busyRetry c => Sys2Proof.Machine.execBusyRetry c s
  | .member p stream sseq data => Sys2Proof.Machine.execMember p stream sseq data s
  | .landedReport p stream => Sys2Proof.Machine.execLandedReport p stream s
  | .landed p stream upTo => Sys2Proof.Machine.execLanded p stream upTo s
  | .capstone p stream sseq data => Sys2Proof.Machine.execCapstone p stream sseq data s
  | .capstoneApply p stream => Sys2Proof.Machine.execCapstoneApply p stream s
  | .capDone p stream => Sys2Proof.Machine.execCapDone p stream s
  | .close p stream => Sys2Proof.Machine.execClose p stream s
  | .abort p stream reason => Sys2Proof.Machine.execAbort p stream reason s
  | .beaconSend => Sys2Proof.Machine.execBeaconSend s
  | .beacon p time lastRx => Sys2Proof.Machine.execBeacon p time lastRx s
  | .malformedMessage p mtype => Sys2Proof.Machine.execMalformedMessage p mtype s
  | .fenceTimeout c => Sys2Proof.Machine.execFenceTimeout c s
  | .timeBeacon => Sys2Proof.Machine.execTimeBeacon s
  | .bridgeFlitReplay b link => Sys2Proof.Machine.execBridgeFlitReplay b link s
  | .faultRecordCollect unit forward => Sys2Proof.Machine.execFaultRecordCollect unit forward s
  | .faultRecordPost => Sys2Proof.Machine.execFaultRecordPost s
  | .reporterPath unit err errN => Sys2Proof.Machine.execReporterPath unit err errN s
  | .bucketLeak => Sys2Proof.Machine.execBucketLeak s
  | .descriptorScrub slice => Sys2Proof.Machine.execDescriptorScrub slice s
  | .scrubDramLine c errs => Sys2Proof.Machine.execScrubDramLine c errs s
  | .scrubCacheSet x tag0 tag1 dataErr => Sys2Proof.Machine.execScrubCacheSet x tag0 tag1 dataErr s
  | .scrubLsRow b err byteOff => Sys2Proof.Machine.execScrubLsRow b err byteOff s
  | .agingSample monitors answers => Sys2Proof.Machine.execAgingSample monitors answers s
  | .telemetryTick => Sys2Proof.Machine.execTelemetryTick s
  | .powerLoopTick sense => Sys2Proof.Machine.execPowerLoopTick sense s
  | .prochotAssert => Sys2Proof.Machine.execProchotAssert s
  | .thermalRead readings => Sys2Proof.Machine.execThermalRead readings s
  | .vrAlert reg acked overCurrent => Sys2Proof.Machine.execVrAlert reg acked overCurrent s
  | .splitCheck => Sys2Proof.Machine.execSplitCheck s
  | .splitReprobe unit answers powered => Sys2Proof.Machine.execSplitReprobe unit answers powered s
  | .plumbFailover ended => Sys2Proof.Machine.execPlumbFailover ended s
  | .bringupStepEnd input => Sys2Proof.Machine.execBringupStepEnd input s
  | .perstNRelease => Sys2Proof.Machine.execPerstNRelease s
  | .pcieLinkUp port => Sys2Proof.Machine.execPcieLinkUp port s
  | .imageOperationFinish reply flashOk => Sys2Proof.Machine.execImageOperationFinish reply flashOk s
  | .firmwareOperationFinish reply flashOk => Sys2Proof.Machine.execFirmwareOperationFinish reply flashOk s
  | .fillDone reply => Sys2Proof.Machine.execFillDone reply s
  | .migCopyDone reply => Sys2Proof.Machine.execMigCopyDone reply s
  | .migrationBlobDone reply => Sys2Proof.Machine.execMigrationBlobDone reply s
  | .wayOperationDone => Sys2Proof.Machine.execWayOperationDone s
  | .fuseBlowDone ok => Sys2Proof.Machine.execFuseBlowDone ok s
  | .repackRow c errs => Sys2Proof.Machine.execRepackRow c errs s
  | .portDrainTimeout p => Sys2Proof.Machine.execPortDrainTimeout p s
  | .holdNotice c => Sys2Proof.Machine.execHoldNotice c s
  | .writeAcknowledgement rid => Sys2Proof.Machine.execWriteAcknowledgement rid s
  | .readReply rid reply => Sys2Proof.Machine.execReadReply rid reply s
  | .laneArithmetic g op => Sys2Proof.Machine.execLaneArithmetic g op s
  | .instructionFetch g offset => Sys2Proof.Machine.execInstructionFetch g offset s
  | .scratchAccess g offset size lane op => Sys2Proof.Machine.execScratchAccess g offset size lane op s
  | .logicFaultDetected f => Sys2Proof.Machine.execLogicFaultDetected f s
  | .entdaa addr => Sys2Proof.Machine.execEntdaa addr s

end Sys2Proof.Machine
end

