-- ==== Sys2Proof/Machine/Package.lean ====
section
/-! DEFINITION. What the package shows from outside without a command: the levels of its output pins (spec/16 R375, R377,
R389) and the BAR registers of its PCIe functions (spec/17 R396). -/

namespace Sys2Proof.Machine

/-! ## Output pins (Table 16.3) -/

/-- The level of an output: `released` of an open-drain output, `highZ` of a three-state one. -/
inductive Level where
  | low | high | released | highZ
deriving DecidableEq, Repr

/-- The outputs of Table 16.3. -/
structure Outputs where
  i3cSda : Level
  smbSda : Level
  smbAlertN : Level
  vrScl : Level
  vrSda : Level
  spiClk : Level
  spiCsN : Level
  spiIo : Level
  errN : Level
  thermtripN : Level
  tdo : Level
  memResetN : BitVec 32
deriving DecidableEq, Repr

/-- Every output in its reset state, as from the service group's regulation on, and again once PWR_GOOD has fallen. -/
def Outputs.reset : Outputs :=
  { i3cSda := .released, smbSda := .released, smbAlertN := .released, vrScl := .released, vrSda := .released
    spiClk := .low, spiCsN := .high, spiIo := .highZ, errN := .released, thermtripN := .released, tdo := .highZ
    memResetN := 0 }

/-- An open-drain output. -/
def openDrain (drives : Bool) : Level := if drives then .low else .released

/-- The outputs between two steps. A transaction on the I3C, SMBus, PMBus or SPI bus lies within one step, so that between
steps those buses are at rest; TRST_N is held low in service, so that TDO is at high impedance. -/
def State.outputs (s : State) : Outputs :=
  if s.pins.pwrGood then
    { Outputs.reset with
      smbAlertN := openDrain s.plb.smbAlert, errN := openDrain (!s.errN), thermtripN := openDrain s.plb.thermtrip
      memResetN := s.pins.memResetN }
  else Outputs.reset

/-- Every Sweld and PCIe transmitter is squelched (R389), or without power. -/
def State.squelched (s : State) : Bool := s.plb.thermtrip || !s.pins.pwrGood

/-! ## The function's BARs (R396) -/

/-- The size in bytes of the BAR that begins at a BAR register; none where the function implements none. -/
def barSize (reg : Fin 6) : Option Nat :=
  if reg = 0 then some 0x1000000 else if reg = 2 then some 0x10000 else none

/-- What a BAR register reads, of a function whose BAR0 and BAR2 have been given these bases: a 64-bit BAR takes two
registers, its low four bits say memory, 64-bit, non-prefetchable (PRESUMED, the bits of the PCI standard,
notes/assumptions/8.md), and its base is a multiple of its size. -/
def barRead (base0 base2 : W64) (reg : Fin 6) : W32 :=
  let low := fun (b : W64) (size : Nat) => BitVec.ofNat 32 (b.toNat / size * size % 2 ^ 32 + 4)
  let high := fun b : W64 => BitVec.ofNat 32 (b.toNat / 2 ^ 32)
  if reg = 0 then low base0 0x1000000
  else if reg = 1 then high base0
  else if reg = 2 then low base2 0x10000
  else if reg = 3 then high base2
  else 0

/-- The expansion ROM's register reads as zero. -/
def romRead : W32 := 0

end Sys2Proof.Machine
end

