-- ==== Sys2Proof/Safety.lean ====
section
/-! DEFINITION. The terms in which the statements speak: which parts of the state a command leaves alone, when a page, a
gang or a request is served, and what holds in every state that a run can reach. -/

namespace Sys2Proof.Machine

/-! ## Frames -/

/-- The parts of the state, one for each field of `State`. -/
inductive Part where
  | pending | free | time | pins | nv | dev | whole | slices | cmds | arb | bays | gangs | nextGang
  | reqs | nextReq | uc | mem | pool | sweld | fab | flt | tel | mig | plb | host
deriving DecidableEq, Repr

/-- Two states agree in a part. -/
def State.agree (s t : State) : Part → Prop
  | .pending => t.pending = s.pending
  | .free => t.free = s.free
  | .time => t.time = s.time
  | .pins => t.pins = s.pins
  | .nv => t.nv = s.nv
  | .dev => t.dev = s.dev
  | .whole => t.whole = s.whole
  | .slices => t.slices = s.slices
  | .cmds => t.cmds = s.cmds
  | .arb => t.arb = s.arb
  | .bays => t.bays = s.bays
  | .gangs => t.gangs = s.gangs
  | .nextGang => t.nextGang = s.nextGang
  | .reqs => t.reqs = s.reqs
  | .nextReq => t.nextReq = s.nextReq
  | .uc => t.uc = s.uc
  | .mem => t.mem = s.mem
  | .pool => t.pool = s.pool
  | .sweld => t.sweld = s.sweld
  | .fab => t.fab = s.fab
  | .flt => t.flt = s.flt
  | .tel => t.tel = s.tel
  | .mig => t.mig = s.mig
  | .plb => t.plb = s.plb
  | .host => t.host = s.host

/-- Every part of the state but those named is unchanged. -/
def State.sameBut (s t : State) (ps : List Part) : Prop := ∀ p, p ∉ ps → s.agree t p

/-! ## When a command is served -/

/-- The doorbell page of a slice takes a write: the device is READY and the slice neither OFF nor FROZEN (spec/04 R88,
R113). -/
abbrev State.pageOpen (s : State) (i : Nat) : Prop :=
  s.ready = true ∧ (s.slice i).state ≠ .off ∧ (s.slice i).state ≠ .frozen

/-- A gang issues (spec/05 R119), no check bits of its bay's arrays are inverted, and no injection is armed (spec/13
R318). -/
abbrev State.runsGang (s : State) (g : Nat) : Prop :=
  s.issues g = true ∧ (s.bay (s.gang g).bay).errs = [] ∧ s.flt.inject.armed = false

/-- Only the registers of gang `g` differ. -/
def State.onlyRegs (s t : State) (g : Nat) : Prop :=
  s.sameBut t [.gangs, .free, .tel] ∧ t.gang g = { s.gang g with regs := (t.gang g).regs } ∧
    ∀ k, k ≠ g → t.gang k = s.gang k

/-- The request that a gang's instruction sends for one line (spec/03 R78, spec/09 R212). -/
def State.lineReq (s : State) (g : Nat) (kind : ReqKind) (line dpa : Nat) (accs : List LaneAcc) (vol : Bool)
    (stream : Option Nat) : Req :=
  let v := s.gang g
  let c := s.cmd v.cmd
  { kind := kind, gang := g, cmd := v.cmd, slice := c.slice, tenantEpoch := (s.slice c.slice).tenantEpoch
    unit := unitBay v.bay, unitEpoch := s.unitEpoch (unitBay v.bay), responder := s.homeUnit dpa, issued := s.time
    tva := 128 * line, dpa := dpa, accs := accsOn line accs, volatile := vol, stream := stream }

/-- The ranges of the gang's slice that hold the lines of an access. -/
abbrev State.mapsLines (s : State) (g : Nat) (ls : List Nat) (d : Nat → Range) : Prop :=
  ∀ l ∈ ls, findRange (s.slice (s.cmd (s.gang g).cmd).slice).defn.ranges (128 * l) = some (d l)

/-- Each line of an access has become one request, in order. -/
def State.sentLines (s t : State) (g : Nat) (kind : ReqKind) (d : Nat → Range) (accs : List LaneAcc) (vol : Bool)
    (stream : Option Nat) : Prop :=
  t.nextReq = s.nextReq + (linesOf accs).length ∧
  ∀ k l, (linesOf accs)[k]? = some l → Tbl.find? t.reqs (s.nextReq + k)
    = some (s.lineReq g kind l ((d l).toDpa (128 * l)) accs vol stream)

/-- The numbers of the requests of an access. -/
def State.sentIds (s : State) (accs : List LaneAcc) : List Nat :=
  (List.range (linesOf accs).length).map (s.nextReq + ·)

/-- The state in which a step whose accesses can wait runs: none is held yet. -/
abbrev State.begun (s : State) : State := { s with uc := { s.uc.calm with mayWait := true } }

/-- Every access of a step goes through: none meets a line whose replica must be settled first (spec/08 R193) or a channel
held for retraining (spec/11 R256). -/
abbrev State.goesThrough (s : State) (f : State → State) : Prop := (f s.begun).uc.held = false

/-- The state that a step leaves which has run to `u`. -/
abbrev State.ended (s u : State) : State := { u with uc := u.uc.waitAs s.uc }

/-- The state after a step whose accesses all go through. -/
abbrev State.through (s : State) (f : State → State) : State := s.ended (f s.begun)

/-- The completion records that are due in a CQ (spec/04 R92). -/
def State.dueOf (s : State) (i q : Nat) : List Rec := ((s.slice i).cq q).due

/-! ## What holds in every state that a run reaches -/

/-- The two addressed memories are in canonical form: DRAM with rising addresses and no byte that an unlisted address reads
as; the host's memory with rising keys. -/
def Memory.wf (s : State) : Bool := Tbl.wf 0 s.mem.dram && Tbl.rising 0 s.host.mem

/-- The power limits lie from 300 to 1,150 W, the throttle temperature from 70 to 100, the level at most 88 (spec/16 R386,
R391, R393). -/
abbrev State.powerInRange (s : State) : Prop :=
  300 ≤ s.plb.mgrLimit ∧ s.plb.mgrLimit ≤ 1150 ∧ 300 ≤ s.plb.plinthLimit ∧ s.plb.plinthLimit ≤ 1150 ∧
    70 ≤ s.plb.tjThrottle ∧ s.plb.tjThrottle ≤ 100 ∧ s.plb.level ≤ 88

end Sys2Proof.Machine

namespace Sys2Proof

/-- The commands that can begin a package reset (spec/03 R71, R82, spec/12 R287, spec/16 R377). -/
def Instr.resetsPackage : Instr → Bool
  | .packageReset _ | .plumbPackageReset | .plumbFailover _ | .perstNAssert | .coldStart .. | .pwrGoodFall => true
  | _ => false

/-- The commands that store nothing in DRAM or in the host's memory, in any state. -/
def Instr.storesNothing : Instr → Bool
  | .dispatch | .scrubCacheSet .. | .copy .. | .slabRun .. | .gather .. | .select .. | .release .. | .flush ..
  | .sweldSend .. | .sweldExpect ..
  | .fetchDescriptor .. | .preemption .. | .commandComplete .. | .postCompletionRecord .. | .postWaitingRecord ..
  | .gangExit .. | .loadPlain .. | .storePlain .. | .loadVolatile .. | .storeVolatile .. | .storeStream ..
  | .capstoneReleaseToken .. | .atomic .. | .flushRange .. | .flushAll .. | .cacheRead .. | .cacheWrite ..
  | .replicaFill .. | .replicaInstallAck .. | .invalidateAck .. | .laneArithmetic .. | .channelRead .. | .channelWrite .. | .retrainEnd ..
  | .hpprTimeout .. | .tenantReset .. | .dieReset .. | .packageReset .. | .resetComplete .. | .coldStart ..
  | .pwrGoodFall .. | .perstNAssert .. | .pcieLinkDown .. | .powerOff .. | .powerOn .. | .mark .. | .unitPower ..
  | .plumbPackageReset .. | .flitReceived .. | .member .. | .capstoneApply .. | .fenceTimeout ..
  | .faultRecordCollect .. | .faultRecordPost .. | .reporterPath .. | .scrubDramLine .. | .telemetryTick ..
  | .splitCheck .. | .splitReprobe .. | .plumbFailover .. | .bringupStepEnd .. | .fillDone .. | .migCopyDone ..
  | .migrationBlobDone .. | .wayOperationDone .. | .repackRow .. | .readReply .. | .instructionFetch .. => false
  | _ => true

/-- The register writes that a device in FAILED or FATAL ignores (spec/17 R402). -/
def Instr.ignoredWhenStopped : Instr → Bool
  | .sqTailDoorbell .. | .cqHeadDoorbell (.cq ..) _ | .cqHeadDoorbell (.fq _) _ | .cqHeadDoorbell .tel _
  | .cqHeadDoorbell .log _ | .queueCfgWrite (.sqCfg ..) _ | .queueCfgWrite (.sqBase ..) _
  | .queueCfgWrite (.ringCfg (.cq ..)) _ | .queueCfgWrite (.ringBase (.cq ..)) _ | .queueCfgWrite (.ringCfg (.fq _)) _
  | .queueCfgWrite (.ringBase (.fq _)) _ | .queueCfgWrite (.ringCfg .tel) _ | .queueCfgWrite (.ringBase .tel) _
  | .queueCfgWrite (.ringCfg .log) _ | .queueCfgWrite (.ringBase .log) _ | .qeTenantReset .. | .qePoolFree ..
  | .applySlice .. | .loadWhole _ | .storeSlot .. | .revoke .. | .raiseFloor _ | .drain _ | .resume _ | .fwLoad _
  | .fwStoreSlot .. | .cfgHandleSet .. | .cfgHandleFlip .. | .cfgFill .. | .cfgAccessErrClear | .mcStatsClear | .killPin ..
  | .applyPpr _ | .wayDisable .. | .wayEnable .. | .peer .. | .accept .. | .powerOff _ | .powerOn _ | .plbPowerLimitWrite _
  | .arm .. | .disarm _ | .forcePath .. | .fltRepairGo .. | .snap .. | .clear _ | .telSelWrite .. | .logOn _ | .logOff _
  | .mark _ | .freeze _ | .migExport .. | .thaw _ | .migImport .. | .migCopy .. => true
  | _ => false

end Sys2Proof
end

