-- ==== Sys2Proof/Certificates/Slice0/Obligations.lean ====
section
/-! DEFINITION. The statements for the provers. -/

open Sys2Proof Sys2Proof.Machine

/-! ## The whole block -/

/-- A step takes the command at the front of the queue and runs it with the queue's rest; on an empty queue a
nanosecond passes (the model's choice, notes/assumptions/3.md): TIME advances by 0, 1 or 2, and nothing moves while
the device has no power. -/
def Obligations.StepTakesFront : Prop :=
  (∀ (s : State) (c : Instr) (rest : List Instr), s.pending = c :: rest → step s = exec c { s with pending := rest }) ∧
  (∀ s : State, s.pending = [] → s.pins.pwrGood = false → step s = .next s) ∧
  (∀ s : State, s.pending = [] → s.pins.pwrGood = true → ∃ t k, step s = .next t ∧ k ≤ 2 ∧ t.time = (s.time + k) % 2 ^ 64 ∧
    (s.sweld.slewing = false → k = 1) ∧ t.dev.ticks = s.dev.ticks + 1 ∧ t.mem = s.mem ∧ t.host = s.host ∧ t.nv = s.nv)

/-- No command touches the queue, and the straps change only with power (R376). -/
def Obligations.QueueAndStraps : Prop :=
  ∀ (c : Instr) (s t : State), exec c s = .next t →
    t.pending = s.pending ∧
    ((∀ k b, c ≠ .coldStart k b) → c ≠ .pwrGoodFall → t.pins.pkgId = s.pins.pkgId ∧ t.pins.traySel = s.pins.traySel)

/-- Reset values that Tables 17.3 to 17.8 state (R401), read at `State.reset`, with the state in which bring-up
begins (R81). They are in range at reset, and the memories are in their canonical form there. -/
def Obligations.ResetState : Prop :=
  (let s := State.reset
   s.readReg .deviceId = 0x0D082100 ∧ s.readReg .caps = 0x000000FF10002830 ∧
   s.readReg .imageStatus = 0xFFFFFFFF00000000 ∧ s.readReg .deviceState = 0x20 ∧
   (∀ b, b < 14 → s.readReg (.bridgeStatus b) = if b ≤ 9 then 0x250 else 0x94) ∧
   s.readReg .powerLimit = 0x047E047E ∧ s.readReg .thermalCfg = 0x5F ∧ s.readReg .fltRingStatus = 0x10000 ∧
   s.readReg .errMask = 6 ∧ s.readReg .bucketCfg = 0x120 ∧ s.readReg .telRingStatus = 0x10000 ∧
   s.readReg .migRingStatus = 0x100000 ∧ s.readReg .accessErr = 0 ∧ s.readReg .time = 0 ∧ s.readReg .resetStatus = 0 ∧
   s.readReg .handleStatus = 0 ∧ s.readReg .migStatus = 0 ∧ s.dev.state = .bringup ∧ s.dev.step = 2 ∧ s.pending = []) ∧
  (State.reset.powerInRange ∧ Memory.wf State.reset = true)

/-- Registers whose contents are one piece of state (R23, R58, R62, R87, R391, R393, R395), read at their offsets
once the device has left bring-up; their read-only fields ignore writes, and a throttle temperature outside 70 to 100
is not taken. -/
def Obligations.RegisterReads : Prop :=
  ∀ s : State, s.preReady = false →
    s.readBar2 0x10 true = s.time ∧
    s.readBar2 0x120 true = s.whole.serial.toNat ∧
    (∀ k j, k < 16 → j < 16 →
      s.readBar2 (0x180 + 8 * k) true / 16 ^ j % 16 = (s.slice (16 * k + j)).state.code) ∧
    (∀ k j, k < 4 → j < 64 →
      (s.readBar2 (0x280 + 8 * k) true).testBit j = decide ((s.slice (64 * k + j)).reset ≠ .none)) ∧
    s.readBar2 0x9970 false = s.pins.pkgId.toNat + (if s.pins.traySel then 16 else 0) ∧
    s.readBar2 0x9910 false = s.plb.tjThrottle ∧ State.reset.readReg .thermalCfg = 0x5F ∧
    s.readBar2 0x9900 false = s.plb.mgrLimit + 2 ^ 16 * s.plb.plinthLimit ∧ State.reset.readReg .powerLimit = 0x047E047E ∧
    State.reset.readReg .time = 0 ∧ State.reset.readReg .imageSerial = 0 ∧
    (∀ k, k < 16 → State.reset.readReg (.sliceState k) = 0) ∧ (∀ k, k < 4 → State.reset.readReg (.tenantReset k) = 0) ∧
    (∀ v : W32,
      (s.ready = true → 300 ≤ v.toNat % 2048 → v.toNat % 2048 ≤ 1150 →
        exec (.plbPowerLimitWrite v) s = .next { s with plb := { s.plb with mgrLimit := v.toNat % 2048 } }) ∧
      (v.toNat % 2048 < 300 ∨ 1150 < v.toNat % 2048 → exec (.plbPowerLimitWrite v) s = .next s)) ∧
    (∀ (port : Bool) (v : W64), exec (.registerWrite ⟨false, port⟩ 0x10 true v) s = .next s ∧ exec (.registerWrite ⟨false, port⟩ 0x120 true v) s = .next s ∧
      exec (.registerWrite ⟨false, port⟩ 0x9970 false v) s = .next s ∧
      (s.ready = true → 70 ≤ v.toNat % 128 → v.toNat % 128 ≤ 100 → exec (.registerWrite ⟨false, port⟩ 0x9910 false v) s
        = .next { s with plb := { s.plb with tjThrottle := v.toNat % 128 } }) ∧
      (v.toNat % 128 < 70 ∨ 100 < v.toNat % 128 → exec (.registerWrite ⟨false, port⟩ 0x9910 false v) s = .next s)) ∧
    (∀ (k : Fin 16) (port : Bool) (v : W64),
      exec (.registerWrite ⟨false, port⟩ (0x180#24 + 8#24 * BitVec.ofNat 24 k.val) true v) s = .next s) ∧
    (∀ (k : Fin 4) (port : Bool) (v : W64),
      exec (.registerWrite ⟨false, port⟩ (0x280#24 + 8#24 * BitVec.ofNat 24 k.val) true v) s = .next s)

/-- Register accesses (R9, R11, R399, R400, R402): a write sets RW fields, clears the W1C bits written 1 and leaves
everything else; both halves of a 64-bit write over two 32-bit registers act; an access that matches nothing is
counted, but not before READY, and such a write to the page of a FROZEN slice is late (R368). COMPLETES:
REGISTER_WRITE, BAD_ACCESS, CFG_ACCESS_ERR_CLEAR, MC_STATS_CLEAR. Before READY (R66, R398, R399): a bad access is not
counted, and a register that does not live there reads its reset value; a write-only register and an access that
matches nothing read zero. -/
def Obligations.RegisterAccesses : Prop :=
  (∀ s : State, s.ready = true →
     (∀ (bar0 port : Bool) (off : BitVec 24) (isWrite : Bool),
       let i := off.toNat / 0x10000
       let late := isWrite && bar0 && decide ((s.slice i).state = .frozen)
       let n := { s with dev := { s.dev with
         accessErr := satAdd 32 s.dev.accessErr 1, lastOffset := off, lastBar := bar0, lastWrite := isWrite } }
       let t := if late then n.updSlice i fun v => { v with lateWrites := satAdd 32 v.lateWrites 1 } else n
       exec (.badAccess bar0 off isWrite) s = .next t ∧
       ∀ wide v, (if bar0 then matchAccess pageMap (off.toNat % 0x10000) wide = .bad
         else matchAccess bar2Map off.toNat wide = .bad) → isWrite = true →
         exec (.registerWrite { bar0 := bar0, port := port } off wide v) s = .next t) ∧
     exec .cfgAccessErrClear s = .next { s with dev := { s.dev with accessErr := 0 } } ∧
     exec .mcStatsClear s = .next { s with dev := { s.dev with preempts := 0, preemptWorst := 0 } } ∧
     (∀ (v : W64) (port : Bool),
       let go := fun off : BitVec 24 => exec (.registerWrite { bar0 := false, port := port } off true v) s
       let go32 := fun off : BitVec 24 => exec (.registerWrite { bar0 := false, port := port } off false v) s
       let n := v.toNat
       go 0x100 = .next { s with dev := { s.dev with imageAddr := v &&& ~~~(63#64) } } ∧
       go32 0x108 = .next { s with dev := { s.dev with imageLen := n % 2 ^ 21 } } ∧
       go 0x118 = .next { s with dev := { s.dev with
         imageDone := s.dev.imageDone && !v.getLsbD 1, imageOverrun := s.dev.imageOverrun && !v.getLsbD 2 } } ∧
       go 0x228 = .next { s with dev := { s.dev with fwAddr := v &&& ~~~(63#64) } } ∧
       go 0x218 = .next { s with dev := { s.dev with
         resetDone := s.dev.resetDone && !v.getLsbD 0, resetMerged := s.dev.resetMerged && !v.getLsbD 1
         resetRefused := s.dev.resetRefused && !v.getLsbD 2 } } ∧
       go 0x308 = .next { s with dev := { s.dev with handleBaseA := v } } ∧
       go 0x320 = .next { s with dev := { s.dev with fillSrc := v &&& ~~~(127#64) } } ∧
       go32 0xA028 = .next { s with flt := { s.flt with mask := n % 8 } } ∧
       go 0xA028 = .next ({ s with flt := { s.flt with mask := n % 2 ^ 32 % 8 } }.doAck (BitVec.ofNat 32 (n / 2 ^ 32))) ∧
       go 0xA010 = .next { s with flt := { s.flt with ring := { s.flt.ring with notifyAddr := v &&& ~~~(3#64) } } } ∧
       (n % 256 ≠ 0 → n / 256 % 256 ≠ 0 →
         go32 0xA040 = .next { s with flt := { s.flt with threshold := n % 256, leak := n / 256 % 256 } }) ∧
       (s.plb.failover = false → 70 ≤ n % 128 → n % 128 ≤ 100 →
         go32 0x9910 = .next { s with plb := { s.plb with tjThrottle := n % 128 } }) ∧
       (s.plb.failover = false → n % 128 < 70 ∨ 100 < n % 128 → go32 0x9910 = .next s) ∧
       (s.plb.failover = true →
         go32 0x9910 = .next { s with plb := { s.plb with heldOps := s.plb.heldOps ++ [.throttle (n % 2 ^ 32 % 128)] } }) ∧
       go 0xC010 = .next { s with tel := { s.tel with ring := { s.tel.ring with notifyAddr := v &&& ~~~(3#64) } } } ∧
       go 0xD008 = .next { s with mig := { s.mig with blobAddr := v &&& ~~~(0xFFF#64) } } ∧
       go 0x0000 = .next s ∧ go 0x0010 = .next s ∧
       (∀ i : BitVec 8, s.pageOpen i.toNat →
         exec (.registerWrite { bar0 := true, port := port } (i ++ 0x0058#16) true v) s
           = .next (s.updSlice i.toNat fun x => { x with fq := { x.fq with notifyAddr := v &&& ~~~(3#64) } })))) ∧
  (∀ s : State, s.preReady = true →
     (∀ bar0 off w, exec (.badAccess bar0 off w) s = .next s) ∧
     (∀ r, r.live = false → s.readReg r = s.resetView.regValue r) ∧
     (∀ off wide, s.readBar0 off wide = 0) ∧
     (∀ off, matchAccess bar2Map off true = .bad → s.readBar2 off true = 0))

/-- FAILED and FATAL (R402): every BAR2 register reads its current value; writes are ignored but to CFG_RESET_CTL,
FLT_ACK, FLT_ERR_MASK and the FLT_RING registers; BAR0 reads zero and drops writes. -/
def Obligations.StoppedDevice : Prop :=
  ∀ s : State, s.pins.pwrGood = true → (s.dev.state = .failed ∨ s.dev.state = .fatal) →
    (∀ r, s.readReg r = s.regValue r) ∧ (∀ off wide, s.readBar0 off wide = 0) ∧
    (∀ c : Instr, c.ignoredWhenStopped = true → exec c s = .next s) ∧
    (∀ (off : BitVec 24) port wide v r, matchAccess bar2Map off.toNat wide = .whole r → r.group ≠ some .fltRing →
      r ≠ .resetCtl → exec (.registerWrite ⟨false, port⟩ off wide v) s = .next s) ∧
    (∀ (off : BitVec 24) port wide v r, matchAccess pageMap (off.toNat % 0x10000) wide = .whole r →
      exec (.registerWrite ⟨true, port⟩ off wide v) s = .next s) ∧
    (∀ (port : Bool) (v : W64), exec (.registerWrite ⟨false, port⟩ 0xA028 false v) s
      = .next { s with flt := { s.flt with mask := v.toNat % 8 } }) ∧
    (∀ v, exec (.cqHeadDoorbell .flt v) s
      = .next { s with flt := { s.flt with ring := s.flt.ring.headDoorbell (v.toNat % 65536) } }) ∧
    (∀ v, ackCovers s.flt.lastSeq v = true → exec (.fltAck v) s = .next { s with flt := { s.flt with
      ack := v, openRecs := s.flt.openRecs.filter fun e : W32 × Nat => !ackCovers v e.1 } }) ∧
    (s.powered = true → ∃ t, exec (.packageReset (.manager 0x5A)) s = .next t ∧ t.dev.state = .bringup)

/-- Device states move only as Table 3.4 states (R70), but for THERMTRIP, which stops the device from any state
(R389): FAILED and FATAL are left only by a package reset, READY is entered at the end of step 8, FAILED from
bring-up. -/
def Obligations.DeviceStateMoves : Prop :=
  ∀ (c : Instr) (s t : State), exec c s = .next t → t.dev.state ≠ s.dev.state →
    (t.dev.state = .ready → s.dev.state = .bringup ∧ s.dev.step = 8 ∧ ∃ x, c = .bringupStepEnd x) ∧
    (t.dev.state = .failed → s.dev.state = .bringup ∧ (c = .bringupStepTimeout ∨ ∃ x, c = .bringupStepEnd x)) ∧
    (t.dev.state = .fwWait → s.dev.state = .bringup ∧ s.dev.step = 6 ∧ ∃ x, c = .bringupStepEnd x) ∧
    (t.dev.state = .imageWait → (s.dev.state = .bringup ∧ s.dev.step = 6 ∧ ∃ x, c = .bringupStepEnd x) ∨
      ∃ r ok, c = .firmwareOperationFinish r ok) ∧
    (t.dev.state = .fatal → s.dev.state = .ready ∨ ∃ r, c = .thermalRead r) ∧
    (t.dev.state = .bringup → c.resetsPackage = true ∨
      (s.dev.state ≠ .failed ∧ s.dev.state ≠ .fatal ∧
        ((∃ r ok, c = .firmwareOperationFinish r ok) ∨ ∃ r ok, c = .imageOperationFinish r ok)))

/-- What fuses hold is never undone (R39, R60, R319, R320): no step changes a key, unrevokes one, lowers the floor,
or alters or removes a field-repair entry. -/
def Obligations.FusesOneWay : Prop :=
  ∀ s t : State, step s = .next t →
    t.nv.keys = s.nv.keys ∧ (∀ k, bitAt s.nv.revoked k = true → bitAt t.nv.revoked k = true) ∧
    s.nv.floor ≤ t.nv.floor ∧ ∀ d, ∃ new, Tbl.get [] t.nv.repairs d = Tbl.get [] s.nv.repairs d ++ new

/-- The limits, the throttle temperature and the throttle level stay in their ranges (R386, R391, R393) in every
step. -/
def Obligations.PowerStaysInRange : Prop :=
  ∀ s t : State, s.powerInRange → step s = .next t → t.powerInRange

/-- The two addressed memories keep their canonical form in every step. -/
def Obligations.MemoryStaysCanonical : Prop :=
  ∀ s t : State, Memory.wf s = true → step s = .next t → Memory.wf t = true

/-- Stored bytes read back, and no other byte changes: DRAM, and the host's memory. -/
def Obligations.StoredBytesReadBack : Prop :=
  ∀ (s : State) (a : Nat) (b : Bytes),
    (s.dramStore a b).dramBytes a b.length = b ∧
    (∀ k, (k < a ∨ a + b.length ≤ k) → Tbl.get 0 (s.dramStore a b).mem.dram k = Tbl.get 0 s.mem.dram k) ∧
    ∀ sp, (∀ k, k < b.length → Tbl.find? (s.hostWrite sp a b).host.mem (hostKey sp a + k) = some (b.getD k 0)) ∧
      (∀ k, (k < hostKey sp a ∨ hostKey sp a + b.length ≤ k) →
        Tbl.find? (s.hostWrite sp a b).host.mem k = Tbl.find? s.host.mem k)

/-- Commands that store nothing leave every byte of DRAM and of the host's memory as it was. -/
def Obligations.MemoryUntouched : Prop :=
  ∀ (c : Instr) (s t : State), c.storesNothing = true → exec c s = .next t →
    t.mem.dram = s.mem.dram ∧ t.host.mem = s.host.mem

/-! ## Queues, doorbells and dispatch -/

/-- Tail doorbells (R91): accepted, rejected with BAD_DOORBELL, dropped during a tenant reset (R113), and on the page
of a slice that is OFF or FROZEN (R88). Each form leaves every other part of the state alone. COMPLETES:
SQ_TAIL_DOORBELL. Head doorbells of the five kinds of ring (R92): the head moves over posted records only. COMPLETES:
CQ_HEAD_DOORBELL. FETCH_DESCRIPTOR (R91): the entry at the head is read and the head moves on; a read that fails
stops fetching and is reported. COMPLETES: FETCH_DESCRIPTOR. -/
def Obligations.DoorbellsAndFetch : Prop :=
  (∀ (i : BitVec 8) (q : BitVec 4) (v : W32) (s : State), s.ready = true →
     let x := s.slice i.toNat
     let k := x.sq q.toNat
     let n := v.toNat % 65536
     let go := exec (.sqTailDoorbell i q v) s
     (x.state = .off → go = .next s) ∧
     (x.state = .frozen → go = .next (s.updSlice i.toNat fun y => { y with lateWrites := satAdd 32 y.lateWrites 1 })) ∧
     (s.pageOpen i.toNat →
       (x.reset ≠ .none →
         go = .next (s.updSlice i.toNat fun y => { y with droppedDoorbells := satAdd 32 y.droppedDoorbells 1 })) ∧
       (x.reset = .none → x.defn.sqCount ≤ q.toNat → go = .next s) ∧
       (x.reset = .none → q.toNat < x.defn.sqCount →
         (k.enable = false ∨ 2 ^ k.sizeLog2.toNat ≤ n ∨ k.ahead n < k.ahead k.tail) →
         go = .next (s.updSq i.toNat q.toNat fun y => { y with badDoorbell := true })) ∧
       (x.reset = .none → q.toNat < x.defn.sqCount → k.enable = true → n < 2 ^ k.sizeLog2.toNat →
         k.ahead k.tail ≤ k.ahead n →
         go = .next (s.updSq i.toNat q.toNat fun y => { y with tail := n, stopped := false })))) ∧
  ((∀ (r : Ring) (n : Nat),
     let delta := (n + r.size - r.head) % r.size
     (r.enable = false ∨ r.size ≤ n ∨ r.posted < delta → r.headDoorbell n = { r with badDoorbell := true }) ∧
     (r.enable = true → n < r.size → delta ≤ r.posted →
       r.headDoorbell n = { r with head := n, posted := r.posted - delta })) ∧
   ∀ (i : BitVec 8) (q : BitVec 4) (v : W32) (s : State),
     (s.pageOpen i.toNat → (s.slice i.toNat).reset = .none → q.toNat < (s.slice i.toNat).defn.cqCount →
       exec (.cqHeadDoorbell (.cq i q) v) s
         = .next (s.updCq i.toNat q.toNat fun r => r.headDoorbell (v.toNat % 65536))) ∧
     (s.pageOpen i.toNat → (s.slice i.toNat).reset = .none →
       exec (.cqHeadDoorbell (.fq i) v) s
         = .next (s.updSlice i.toNat fun x => { x with fq := x.fq.headDoorbell (v.toNat % 65536) })) ∧
     (s.stopRegs = true → exec (.cqHeadDoorbell .flt v) s
         = .next { s with flt := { s.flt with ring := s.flt.ring.headDoorbell (v.toNat % 65536) } }) ∧
     (s.ready = true → exec (.cqHeadDoorbell .tel v) s
         = .next { s with tel := { s.tel with ring := s.tel.ring.headDoorbell (v.toNat % 65536) } }) ∧
     (s.ready = true → exec (.cqHeadDoorbell .log v) s
         = .next { s with mig := { s.mig with ring := s.mig.ring.headDoorbell (v.toNat % 2 ^ 20) } })) ∧
  (∀ (i : BitVec 8) (q : BitVec 4) (s : State),
     let v := s.slice i.toNat
     let x := v.sq q.toNat
     s.ready = true → v.state = .active → v.reset ≠ .running → x.enable = true → x.stopped = false → x.head ≠ x.tail →
     x.window.length < 64 → q.toNat < v.defn.sqCount →
     let failed := fun status : Nat => (s.updSq i.toNat q.toNat fun y => { y with stopped := true }).raise fcHostAccess
       { unit := unitQueue x.port, slice := some i.toNat, info0 := status, info1 := x.base.toNat + 128 * x.head }
     (s.linkUp x.port = false → ∀ r, exec (.fetchDescriptor i q r) s = .next (failed 0xFF)) ∧
     (s.linkUp x.port = true → ∀ st, exec (.fetchDescriptor i q (.error st)) s = .next (failed st)) ∧
     (s.linkUp x.port = true → ∀ d : Bytes, d.length = 128 →
       let cq := dCq d
       let s1 := fun t : State => (t.updSq i.toNat q.toNat fun y =>
         { y with head := (y.head + 1) % 2 ^ y.sizeLog2.toNat }).count i.toNat 12 128
       ((v.defn.cqCount ≤ cq ∨ (v.cq cq).enable = false) →
         exec (.fetchDescriptor i q (.ok d)) s = .next ((s1 s).raise fcBadCq
           { unit := unitQueue x.port, slice := some i.toNat, info0 := q.toNat + field 16 x.head })) ∧
       (cq < v.defn.cqCount → (v.cq cq).enable = true →
         let f := fun t : State =>
           (((({ s1 t with arb := { (s1 t).arb with nextCmd := s.arb.nextCmd + 1 } }).setCmd s.arb.nextCmd
               { slice := i.toNat, sq := q.toNat, ring := x.head, desc := d, fetchTime := s.time }).updSq i.toNat q.toNat
             fun y => { y with window := y.window ++ [s.arb.nextCmd] }).fetchJudge s.arb.nextCmd
               (quoinAgent s.arb.nextCmd i.toNat x.port))
         s.goesThrough f → exec (.fetchDescriptor i q (.ok d)) s = .next (s.through f))))

/-- CFG and BASE writes (R90): what enabling starts from, what a disabled queue stores, and CFG_ERROR. COMPLETES:
QUEUE_CFG_WRITE. The pool (R110, R111) and the tenant's reset request (R113, R74). A rejected free leaves the pool
alone. COMPLETES: QE_TENANT_RESET, QE_POOL_FREE. -/
def Obligations.QueueRegisters : Prop :=
  ((∀ (r : Ring) (c : CfgVal) (ok : Bool) (v : W64),
     (r.enable = false → c.enable = true → ok = true → r.cfgWrite c ok = { r with
       pasid := c.pasid, port := c.port, sizeLog2 := c.sizeLog2, notifyEn := c.notifyEn, notifyValue := c.notifyValue
       enable := true, head := 0, tail := 0, posted := 0, phase := true }) ∧
     (r.enable = false → c.enable = true → ok = false → r.cfgWrite c ok = { r with
       pasid := c.pasid, port := c.port, sizeLog2 := c.sizeLog2, notifyEn := c.notifyEn, notifyValue := c.notifyValue
       cfgError := true }) ∧
     (r.enable = true → c.enable = false → r.reserved = 0 → r.cfgWrite c ok = { r with enable := false }) ∧
     (r.enable = true → c.enable = false → r.reserved ≠ 0 → r.cfgWrite c ok = { r with cfgError := true }) ∧
     (r.enable = true → r.baseWrite v = { r with cfgError := true }) ∧
     (r.enable = false → r.baseWrite v = { r with base := v &&& ~~~(0xFFF#64) })) ∧
   ∀ (i : BitVec 8) (q : BitVec 4) (v : W64) (s : State),
     let x := s.slice i.toNat
     let k := x.sq q.toNat
     let c := tenantCfg v
     let m := managerCfg v
     let sl := i.toNat
     let n := q.toNat
     (s.pageOpen sl → n < x.defn.sqCount →
       (k.enable = false → c.enable = true → x.defn.mayEnable c = true →
         exec (.queueCfgWrite (.sqCfg i q) v) s = .next (s.updSq sl n fun y => { y with
           pasid := c.pasid, port := c.port, sizeLog2 := c.sizeLog2, enable := true, head := 0, tail := 0
           stopped := false, seqEmpty := true, high := 0, seen := 0 })) ∧
       (k.enable = false → c.enable = true → x.defn.mayEnable c = false →
         exec (.queueCfgWrite (.sqCfg i q) v) s = .next (s.updSq sl n fun y => { y with
           pasid := c.pasid, port := c.port, sizeLog2 := c.sizeLog2, cfgError := true })) ∧
       (k.enable = false → c.enable = false →
         exec (.queueCfgWrite (.sqCfg i q) v) s = .next (s.updSq sl n fun y => { y with
           pasid := c.pasid, port := c.port, sizeLog2 := c.sizeLog2 })) ∧
       (k.enable = true → c.enable = false → k.window = [] →
         exec (.queueCfgWrite (.sqCfg i q) v) s = .next (s.updSq sl n fun y => { y with enable := false })) ∧
       (k.enable = false →
         exec (.queueCfgWrite (.sqBase i q) v) s = .next (s.updSq sl n fun y => { y with base := v &&& ~~~(0xFFF#64) })) ∧
       (k.enable = true →
         exec (.queueCfgWrite (.sqBase i q) v) s = .next (s.updSq sl n fun y => { y with cfgError := true }))) ∧
     (s.pageOpen sl → n < x.defn.cqCount →
       ((x.cq n).waiting = [] → exec (.queueCfgWrite (.ringCfg (.cq i q)) v) s
         = .next (s.updCq sl n fun r => r.cfgWrite c (x.defn.mayEnable c))) ∧
       exec (.queueCfgWrite (.ringBase (.cq i q)) v) s = .next (s.updCq sl n fun r => r.baseWrite v)) ∧
     (s.pageOpen sl →
       exec (.queueCfgWrite (.ringCfg (.fq i)) v) s = .next (s.updSlice sl fun y =>
         { y with fq := y.fq.cfgWrite c (x.defn.mayEnable c) }) ∧
       exec (.queueCfgWrite (.ringBase (.fq i)) v) s
         = .next (s.updSlice sl fun y => { y with fq := y.fq.baseWrite v })) ∧
     (s.stopRegs = true → exec (.queueCfgWrite (.ringCfg .flt) v) s
       = .next { s with flt := { s.flt with ring := s.flt.ring.cfgWrite m (managerMay m 16) } }) ∧
     (s.ready = true → exec (.queueCfgWrite (.ringCfg .tel) v) s
       = .next { s with tel := { s.tel with ring := s.tel.ring.cfgWrite m (managerMay m 16) } }) ∧
     (s.ready = true → exec (.queueCfgWrite (.ringCfg .log) v) s
       = .next { s with mig := { s.mig with ring := s.mig.ring.cfgWrite m (managerMay m 20) } })) ∧
  (∀ (i : BitVec 8) (v : W32) (s : State), s.pageOpen i.toNat →
     let n := v.toNat % 16384
     let b := s.buffer n
     let gen := v.extractLsb' 14 16
     let report := fun code : Nat => fun t : State => t.raise code
       { unit := unitQueue (bufferQuoin n), slice := some i.toNat, info0 := v.toNat }
     (v.extractLsb' 30 2 = 0 → b.owner = some i.toNat → b.gen = gen →
       exec (.qePoolFree i v) s = .next (s.setBuffer n { b with owner := none, data := [] })) ∧
     ((v.extractLsb' 30 2 ≠ 0 ∨ (b.gen = gen ∧ ∃ j, b.owner = some j ∧ j ≠ i.toNat)) →
       exec (.qePoolFree i v) s = .next (report fcForeignFree
         (s.updSlice i.toNat fun x => { x with foreignFrees := satAdd 16 x.foreignFrees 1 }))) ∧
     (v.extractLsb' 30 2 = 0 → (b.owner = none ∨ b.gen ≠ gen) →
       exec (.qePoolFree i v) s = .next (report fcDoubleFree
         (s.updSlice i.toNat fun x => { x with doubleFrees := satAdd 16 x.doubleFrees 1 }))) ∧
     (v.toNat % 256 = 0xC3 → (s.slice i.toNat).reset = .none →
       exec (.qeTenantReset i v) s = .next (s.updSlice i.toNat fun x => { x with reset := .held })) ∧
     (v.toNat % 256 = 0xC3 → (s.slice i.toNat).reset ≠ .none →
       exec (.qeTenantReset i v) s = .next { s with dev := { s.dev with resetMerged := true } }) ∧
     (v.toNat % 256 ≠ 0xC3 → exec (.qeTenantReset i v) s = .next s))

/-- The sequence window (R98): an accepted SEQ is not accepted again while the window stands within 2^31 of it,
however many others are checked in between. -/
def Obligations.SequenceOnce : Prop :=
  ∀ (q : Sq) (n : W32) (ms : List W32), (q.seqCheck n).2 = .accept → (∀ m ∈ ms, (m - n).toNat < 2 ^ 31) →
    ((ms.foldl (fun x m => (x.seqCheck m).1) (q.seqCheck n).1).seqCheck n).2 ≠ .accept

/-- The arbiter's edge (R99, R100): the class chosen by the share credits, the action on its first candidate that can
go, and after it the handle operations of earlier edges (R108, R260); what a dispatch records of a command (R104);
and PREEMPTION for a blocked first candidate (R103). COMPLETES: DISPATCH, PREEMPTION. -/
def Obligations.ArbiterEdge : Prop :=
  ∀ s : State, s.ready = true →
    let acts := (List.range 8).filterMap fun c => (s.classAct c).map fun a => (c, a)
    let choice := s.chooseClass (acts.map (·.1))
    let s1 := { s with arb := { s.arb with edge := s.arb.edge + 1, credits := choice.2 } }
    (choice.1 = none → exec .dispatch s = .next ((s1.handleEffects none).managerOnEdge none)) ∧
    (∀ c id a, choice.1 = some c → acts.find? (fun e => e.1 == c) = some (c, id, a) →
      let r := s1.perform id a
      exec .dispatch s = .next ((r.1.handleEffects r.2).managerOnEdge
        (if r.2.isSome then some (s.cmd id).slice else none))) ∧
    (∀ id g, let t := (s.perform id (.go g)).1
      (t.cmd id).phase = .running ∧ (t.cmd id).dispatched = true ∧ (t.cmd id).timeDispatch = s.time ∧
      (t.cmd id).desc = (s.cmd id).desc) ∧
    (∀ cls id ns, cls < 8 → (∀ c, c < 8 → (s.prio c).preempts = decide (c = cls)) →
      (firstOfSlices (s.ranked cls) []).map (·.1) = [id] → usesBays (dOpcode (s.cmd id).desc) = true →
      s.actOn (s.cmd id) = none →
      let f := fun t : State =>
        let plan := t.preemptPlan (t.cmd id)
        ((plan.map (·.cmd)).eraseDups).foldl (fun t v =>
          if dOpcode (t.cmd v).desc = opLaunch then t.updCmd v (fun c => { c with saves := c.saves + 1 }) else t)
          (plan.foldl (fun t x => t.carryStop ns x) t)
      s.goesThrough f → exec (.preemption ns) s = .next (s.through f))

/-- The share credits (R100): no credit exceeds 4,000, a class that is not ready has none, and the chosen class is
ready. -/
def Obligations.ShareCredits : Prop :=
  ∀ (s : State) (ready : List Nat),
    (∀ c, c < 8 → ((s.chooseClass ready).2.getD c 0 ≤ 4000) ∧
      (c ∉ ready → (s.chooseClass ready).2.getD c 0 = 0)) ∧
    (∀ c, (s.chooseClass ready).1 = some c → c ∈ ready) ∧
    (ready ≠ [] → (∀ c ∈ ready, c < 8) → ∃ c, (s.chooseClass ready).1 = some c)

/-! ## Commands and their completion -/

/-- NOP (R96), HANDLE_SET and EPOCH_FLIP (R108, R257) complete DONE: their record is due in their CQ (R104), other
CQs' due records and all memory unchanged; HANDLE_SET writes the handle's two bases and its current one. COMPLETES:
NOP, HANDLE_SET, EPOCH_FLIP. Handle operations of the manager (R260, R266): one is held at a time, with the bases of
the moment of the write; it takes effect under the checks of Table 11.10, behind the tenants' operations that were
dispatched before (R108). COMPLETES: CFG_HANDLE_SET, CFG_HANDLE_FLIP, MANAGER_HANDLE_EFFECT. -/
def Obligations.HandlesAndNop : Prop :=
  (∀ (s : State) (id : Nat),
     let c := s.cmd id
     let d := c.desc
     let q := dCq d
     let record := fun (res time : Nat) => completionRecord (dTag d) (dSeq d) ocDone kindCommand c.sq 0 0 c.timeDispatch time
       res .nothing
     let ends := fun (t : State) (bytes : Bytes) =>
       (∃ r : Rec, r.bytes = bytes ∧ r.notify = dNotify d ∧ t.dueOf c.slice q = s.dueOf c.slice q ++ [r]) ∧
       (∀ i k, (i, k) ≠ (c.slice, q) → t.dueOf i k = s.dueOf i k) ∧ t.mem = s.mem ∧ t.host = s.host
     (s.doing id opNop = true →
       ∃ t res, exec (.nop id) s = .next t ∧ ends t (record res c.timeDispatch)) ∧
     (c.handleOpPending opHandleSet = true →
       ∃ t, exec (.handleSet id) s = .next t ∧ ends t (record (ofBool (haCurrent d)) s.time) ∧
         let h := (t.slice c.slice).handle (haHandle d)
         h.baseA = BitVec.ofNat 64 (leAt d 0x30 8) ∧ h.baseB = BitVec.ofNat 64 (leAt d 0x38 8) ∧
         h.current = haCurrent d) ∧
     (c.handleOpPending opEpochFlip = true →
       let old := ((s.slice c.slice).handle (haHandle d)).current
       ∃ t, exec (.epochFlip id) s = .next t ∧ ends t (record (ofBool (!old)) s.time) ∧
         ((t.slice c.slice).handle (haHandle d)).current = !old)) ∧
  (∀ (s : State) (i : BitVec 8) (h : BitVec 10) (cur : Bool), s.ready = true →
     (s.dev.handleBusy = true →
       exec (.cfgHandleSet i h cur) s = .next { s with dev := { s.dev with handleOverrun := true } } ∧
       exec (.cfgHandleFlip i h) s = .next { s with dev := { s.dev with handleOverrun := true } }) ∧
     (s.dev.handleBusy = false →
       exec (.cfgHandleSet i h cur) s = .next { s with dev := { s.dev with
         handleBusy := true, handleOp := some (i.toNat, h.toNat, some cur, s.dev.handleBaseA, s.dev.handleBaseB) } } ∧
       exec (.cfgHandleFlip i h) s = .next { s with dev := { s.dev with
         handleBusy := true, handleOp := some (i.toNat, h.toNat, none, s.dev.handleBaseA, s.dev.handleBaseB) } }) ∧
     (s.dev.handleOp = none → exec .managerHandleEffect s = .next s) ∧
     (s.dev.handleOp.isSome = true →
       let u := s.handleEffects none
       ((∀ e ∈ s.cmds, e.2.handleOpPending opHandleSet = false ∧ e.2.handleOpPending opEpochFlip = false) → u = s) ∧
       ∀ k n set a b, u.dev.handleOp = some (k, n, set, a, b) →
       let r := u.managerCheck k n set a b
       let t := { u with dev := { u.dev with handleOp := none, handleBusy := false, handleDone := true
                                             handleResult := r } }
       (r ≠ 0 → exec .managerHandleEffect s = .next t) ∧
       (∀ c, r = 0 → set = some c → exec .managerHandleEffect s = .next (t.updHandle k n fun h =>
         { h with baseA := a, baseB := b, current := c })) ∧
       (r = 0 → set = none → exec .managerHandleEffect s = .next ((t.updHandle k n fun h =>
         { h with current := !h.current, flipPending := true, flipMgr := true, flipCmd := none }).retireHandle k n))))

/-- COMMAND_COMPLETE (R222, R106): once the writes of a finished command have landed, its record is due with the
outcome that its stop or refused write gives, DONE without one. COMPLETES: COMMAND_COMPLETE. -/
def Obligations.CommandCompletes : Prop :=
  ∀ (s : State) (id : Nat),
    let c := s.cmd id
    let d := c.desc
    let e := c.ending
    c.phase = .finishing → c.ended = [] → (∀ b l, b < 48 → l ∈ (s.bay b).l1 → id ∉ l.2.cmds) →
    (s.writesLanded id = true →
      ∃ t r res com, exec (.commandComplete id) s = .next t ∧ t.dueOf c.slice (dCq d) = s.dueOf c.slice (dCq d) ++ [r] ∧
        r.bytes = completionRecord (dTag d) (dSeq d) e.outcome kindCommand c.sq e.detail e.arg c.timeDispatch s.time res com ∧
        (e.outcome = ocDone → com = .nothing) ∧ (∀ n, c.result e.outcome = some n → res = n) ∧
        t.mem = s.mem ∧ t.host = s.host) ∧
    (s.writesLanded id = false → ∃ t, exec (.commandComplete id) s = .next t ∧ s.sameBut t [.cmds])

/-- The two ways a record reaches its ring (R92): in its reserved slot, or, without a reservation, in a free one. The
ring moves on by one slot, and PHASE inverts as it wraps. COMPLETES: POST_COMPLETION_RECORD, POST_WAITING_RECORD. -/
def Obligations.RecordsPosted : Prop :=
  (∀ r : Ring, r.advance.posted = r.posted + 1 ∧ r.advance.head = r.head ∧
    (r.tail + 1 = r.size → r.advance.tail = 0 ∧ r.advance.phase = !r.phase) ∧
    (r.tail + 1 ≠ r.size → r.advance.tail = r.tail + 1 ∧ r.advance.phase = r.phase)) ∧
  ∀ (i : BitVec 8) (q : BitVec 4) (s : State) (x : Rec) (rest : List Rec),
    let r := (s.slice i.toNat).cq q.toNat
    let place := (r.base.toNat + r.tail * x.bytes.length) % 2 ^ 64
    let bytes := withPhase x.bytes 0x0D 0 r.phase
    let there := fun t : State => ∀ k, k < bytes.length →
      Tbl.get 0 t.host.mem ((r.pasid.toNat + 1) * 2 ^ 64 + place + k) = bytes.getD k 0
    let elsewhere := fun t : State => ∀ a, (a < (r.pasid.toNat + 1) * 2 ^ 64 + place ∨
      (r.pasid.toNat + 1) * 2 ^ 64 + place + bytes.length ≤ a) → Tbl.get 0 t.host.mem a = Tbl.get 0 s.host.mem a
    s.ready = true → s.linkUp r.port = true →
    (takeReady (s.recReady i.toNat r.due) r.due = some (x, rest) →
      let p := (if s.needsRead i.toNat r x then s.orderRead r.port else s).postTenant i.toNat
        { r with due := rest, reserved := r.reserved - 1 } 0x0D x
      exec (.postCompletionRecord i q) s = .next (p.1.updCq i.toNat q.toNat fun _ => p.2)) ∧
    (r.waiting = x :: rest → r.enable = true → r.free ≠ 0 → s.recReady i.toNat r.due x = true →
      let p := s.postTenant i.toNat { r with waiting := rest } 0x0D x
      let t := p.1.updCq i.toNat q.toNat fun _ => p.2
      (x.place = none → exec (.postWaitingRecord i q) s = .next t) ∧
      (∀ id, x.place = some id → exec (.postWaitingRecord i q) s = .next (t.freePlace id))) ∧
    ((s.slice i.toNat).logging = false → r.notifyEn = false →
    (takeReady (s.recReady i.toNat r.due) r.due = some (x, rest) →
      ∃ t, exec (.postCompletionRecord i q) s = .next t ∧ there t ∧ elsewhere t ∧ t.mem = s.mem ∧
        (t.slice i.toNat).cq q.toNat = ({ r with due := rest, reserved := r.reserved - 1 }).advance) ∧
    (r.waiting = x :: rest → r.enable = true → r.free ≠ 0 → s.recReady i.toNat r.due x = true →
      ∃ t, exec (.postWaitingRecord i q) s = .next t ∧ there t ∧ elsewhere t ∧ t.mem = s.mem ∧
        (t.slice i.toNat).cq q.toNat = ({ r with waiting := rest }).advance))

/-- COPY (R96): a host source that cannot be read stops the command with HOST_ACCESS; a readable one is copied line
by line and the command finishes. COMPLETES: COPY. RELEASE (R199, R252) and FLUSH (R224): the parts of the outputs
released in order, and the lines written back in order; a FLUSH that names no action completes DONE at once.
COMPLETES: RELEASE, FLUSH. -/
def Obligations.CopyReleaseFlush : Prop :=
  (∀ (s : State) (id : Nat) (reply : HostReply), s.doing id opCopy = true →
     let d := (s.cmd id).desc
     let g := s.quoinOf id
     let src := copySource d
     let lines := List.range (ceilDiv (dOut d 0).len 128)
     (src.host = true → (s.linkUp (s.hostPort id src.pasid) = false ∨ reply = .linkDown) →
       exec (.copy id reply) s = .next (s.cmdFault id g.unit fcHostAccess
         { unit := g.unit, info0 := 0xFF, info1 := src.addr })) ∧
     (src.host = true → s.linkUp (s.hostPort id src.pasid) = true → ∀ b, reply = .ok b →
       let f := fun t : State => (copyLines g (dOut d 0) (fun t off n =>
         (t, some (bytesAt (bytesAt b 0 src.len) off n))) lines (((t.count g.slice 12 src.len).onBehalf id).bulk
           (8 + portBit (s.hostPort id src.pasid)) (placeOf g.unit) src.len true)).workDone id
       s.goesThrough f → exec (.copy id reply) s = .next (s.through f)) ∧
     (src.host = false →
       let f := fun t : State => (copyLines g (dOut d 0) (fun t off n => t.agRead g (src.addr + off) n) lines t).workDone id
       s.goesThrough f → exec (.copy id reply) s = .next (s.through f))) ∧
  (∀ (s : State) (id : Nat),
     let c := s.cmd id
     let flags := byteAt c.desc 0x28
     let bays := s.baysHeld c.slice
     (s.doing id opRelease = true →
       let f := fun t : State =>
         ((releaseOuts (s.quoinOf id) (bitAt flags 0) (dOuts c.desc) t).serveAllWaiting).workDone id
       s.goesThrough f → exec (.release id) s = .next (s.through f)) ∧
     (s.doing id opFlush = true → flags = 0 →
       ∃ t r res, exec (.flush id) s = .next t ∧ t.dueOf c.slice (dCq c.desc) = s.dueOf c.slice (dCq c.desc) ++ [r] ∧
         r.bytes = completionRecord (dTag c.desc) (dSeq c.desc) ocDone kindCommand c.sq 0 0 c.timeDispatch c.timeDispatch
           res .nothing ∧ t.mem = s.mem) ∧
     (s.doing id opFlush = true → flags ≠ 0 →
       let s1 := fun t : State => bays.foldl (fun t b => t.flushBay id b (bitAt flags 0) (bitAt flags 1) (dOuts c.desc)) t
       let lines := fun t : State => if bitAt flags 2 then t.flushLines c.slice (dOuts c.desc) else []
       let f := fun t : State =>
         let u := flushDram ((s1 t).quoinOf id) (lines (s1 t)) (s1 t)
         (if bitAt flags 3 then bays.foldl (fun t b => t.roInvalidate b) u else u).workDone id
       (∀ a ∈ lines (s1 s.begun), ((s1 s.begun).chan ((s1 s.begun).chanOfDpa a)).unit ≠ .resetting) →
       s.goesThrough f → exec (.flush id) s = .next (s.through f)))

/-! ## Engines -/

/-- WORK_ITEM_CLAIM and SLAB_RUN (R150, R236): an engine of the grant takes the next unstarted item; an array
accumulates one K tile, and behind the last one writes the item's rows. COMPLETES: WORK_ITEM_CLAIM, SLAB_RUN. -/
def Obligations.SlabItems : Prop :=
  ∀ (s : State) (id u : Nat),
    let c := s.cmd id
    ((s.doing id opSlab = true ∨ s.doing id opGather = true) → (∃ e ∈ c.grant, e.1 = u) → Tbl.find? c.busy u = none →
      c.next < c.items → exec (.workItemClaim id u) s = .next (s.updCmd id fun c => { c with
        busy := Tbl.put c.busy u { item := c.next, engine := u }, next := c.next + 1 })) ∧
    ((s.doing id opSlab = true ∨ s.doing id opGather = true) → c.items ≤ c.next →
      exec (.workItemClaim id u) s = .next s) ∧
    (∀ (it : Item) (t : State) (ws as : List OpRow) (acc : List Int),
      s.doing id opSlab = true → Tbl.find? c.busy u = some it → (s.bay (u / 4)).errs = [] →
      s.begun.tileReads id u (s.agentOn id (u / 4)) it = (t, some (ws, as, acc)) →
      let b := c.block
      let span := itemSpan c.desc b it.item
      let n := min (slTileK b) (slK b - it.pos * slTileK b)
      let done := { ({ it with acc := acc }).tile (fmtOf (slAFmt b)) (fmtOf (slWFmt b)) as ws with pos := it.pos + 1 }
      (it.pos + 1 < slKTiles b →
        let v := ((t.countTile id u done false (span.2.1 * span.2.2.2 * n)).updCmd id fun c =>
          { c with busy := Tbl.put c.busy u done }).bayWrite id (u / 4)
        v.uc.held = false → exec (.slabRun id u) s = .next (s.ended v)) ∧
      (slKTiles b ≤ it.pos + 1 →
        let v := ((t.countTile id u done true (span.2.1 * span.2.2.2 * n)).endItem
          (s.agentOn id (u / 4)) id u done span.2.1).bayWrite id (u / 4)
        v.uc.held = false → exec (.slabRun id u) s = .next (s.ended v)))

/-- One K tile of integers without block scales accumulates exactly (R148): the new accumulator is the old one plus
the sum of the products, whatever the groups they are taken in. -/
def Obligations.IntegerTileExact : Prop :=
  ∀ (a w : List Nat) (fa fw : Fmt) (acc : Int), a.length = w.length →
    intAcc fa fw { codes := a, scales := [] } { codes := w, scales := [] } (some acc)
      = some (acc + ((a.zip w).map fun e => intElem fa e.1 * intElem fw e.2).sum * 2 ^ intUnit)

/-- GATHER (R164 to R168): a bag begins, an index in range pools its row, one out of range is skipped or is a fault,
and a finished bag is written. COMPLETES: GATHER. SELECT (R173): each phase of an item, after the partial states that
a merge, a second pass or a finish begins with have been read, and the claim of a ready item. COMPLETES: SELECT. -/
def Obligations.GatherAndSelect : Prop :=
  (∀ (s : State) (id u : Nat) (it : Item),
     let c := s.cmd id
     let b := c.block
     let g := s.agentOn id u
     s.doing id opGather = true → Tbl.find? c.busy u = some it → (s.bay u).errs = [] →
     (it.phase = 1 →
       let f := fun t : State => (t.beginBag g u b it).bayWrite id u
       s.goesThrough f → exec (.gather id u) s = .next (s.through f)) ∧
     (it.phase ≠ 1 → it.bagEnd ≤ it.pos →
       let f := fun t : State => (t.writeBag g u c it).bayWrite id u
       s.goesThrough f → exec (.gather id u) s = .next (s.through f)) ∧
     (∀ (t : State) (raw : Bytes), it.phase ≠ 1 → it.pos < it.bagEnd →
       s.begun.agRead g (gaIndex b + gaIndexSize b * it.pos) (gaIndexSize b) = (t, some raw) →
       let x := signedOf (8 * gaIndexSize b) (leVal raw)
       let ends := fun v : State => v.uc.held = false → exec (.gather id u) s = .next (s.ended v)
       (0 ≤ x → x < gaRows b → ends ((t.poolRow g u c it x.toNat).bayWrite id u)) ∧
       ((x < 0 ∨ (gaRows b : Int) ≤ x) → gaSkip b = true → ends ((t.updCmd id fun c => { c with
           skipped := c.skipped + 1, busy := Tbl.put c.busy u { it with pos := it.pos + 1 } }).bayWrite id u)) ∧
       ((x < 0 ∨ (gaRows b : Int) ≤ x) → gaSkip b = false → ends ((t.cmdFault id g.unit fcHodIndex
           { unit := g.unit, info0 := it.pos, info1 := unsignedOf 64 x }).bayWrite id u)))) ∧
  (∀ (s : State) (id u : Nat),
     let c := s.cmd id
     let g := s.agentOn id u
     let all := List.range (seS c.block)
     (∀ it : Item, s.doing id opSelect = true → Tbl.find? c.busy u = some it → (s.bay u).errs = [] →
       let runs := fun f : State → State => s.goesThrough (fun t => (f t).bayWrite id u) →
         exec (.select id u) s = .next (s.through fun t => (f t).bayWrite id u)
       (it.phase = 1 → runs fun t => t.pass1Step g u c it) ∧
       (it.phase = 2 → runs fun t => t.afterLoad g it all fun t => t.mergeStep g u c it) ∧
       (it.phase = 3 → runs fun t => t.afterLoad g it [0] fun t => t.pass2Step g u c it) ∧
       (it.phase = 4 → runs fun t => t.afterLoad g it all fun t => t.finishStep g u c it)) ∧
     (∀ it : Item, s.doing id opSelect = true → (∃ e ∈ c.grant, e.1 = u) → Tbl.find? c.busy u = none →
       c.readyItem = some it →
       ∃ t, exec (.workItemClaim id u) s = .next t ∧ s.sameBut t [.cmds] ∧
         Tbl.find? (t.cmd id).busy u = some { it with engine := u } ∧
         (t.cmd id).next = c.next + (if it.phase = 1 then 1 else 0)))

/-- A selection's list (R171, R172): it holds as many entries as there are, up to K, each of them an old entry or a
new one. -/
def Obligations.SelectionList : Prop :=
  ∀ (fl : Bool) (k : Nat) (l es : List Entry), l.length ≤ k →
    (selectInto fl k l es).length = min k (l.length + es.length) ∧ ∀ e ∈ selectInto fl k l es, e ∈ l ∨ e ∈ es

/-! ## Gangs and their memory -/

/-- LAUNCH and GANG_EXIT (R118, R128). COMPLETES: LAUNCH, GANG_EXIT. -/
def Obligations.LaunchAndExit : Prop :=
  (∀ (s : State) (id : Nat), 
    let c := s.cmd id
    let n := (c.grant.map (·.2)).sum
    dOpcode c.desc = opLaunch → c.runs = true → c.next = 0 →
    ∃ t, exec (.launch id) s = .next t ∧ s.sameBut t [.gangs, .nextGang, .cmds] ∧
      t.cmd id = { c with next := n } ∧ t.nextGang = s.nextGang + n ∧
      ∀ k, k < n → (t.gang (s.nextGang + k)).cmd = id ∧ (t.gang (s.nextGang + k)).index = k) ∧
  (∀ (s : State) (g : Nat), s.runsGang g →
    let v := s.gang g
    let c := s.cmd v.cmd
    dOutSlots c.desc < 2 → c.next < c.items → s.hasGang s.nextGang = false →
    ∃ t, exec (.gangExit g) s = .next t ∧ s.sameBut t [.gangs, .nextGang, .cmds, .reqs, .tel] ∧
      (g ≠ s.nextGang → t.hasGang g = false) ∧ t.cmd v.cmd = { c with next := c.next + 1 } ∧
      t.nextGang = s.nextGang + 1 ∧
      let w := t.gang s.nextGang
      w.cmd = v.cmd ∧ w.index = c.next ∧ w.bay = v.bay ∧ w.core = v.core ∧ w.feet = v.feet ∧
      (∀ l, l < 32 → w.reg l 0 = BitVec.ofNat 32 c.next ∧ w.reg l 1 = BitVec.ofNat 32 l ∧
        w.reg l 2 = BitVec.ofNat 32 (laParam c.desc) ∧ w.reg l 3 = BitVec.ofNat 32 (laParam c.desc / 2 ^ 32)))

/-- Loads and stores of device memory that L1 does not hold (R211, R212, R213, R218): each line touched becomes one
request, in address order; a load waits for them, a store and a stream member are noted until acknowledged.
COMPLETES: LOAD_PLAIN, LOAD_VOLATILE, STORE_PLAIN, STORE_VOLATILE, STORE_STREAM. A load with the attribute CAPSTONE n
raises BAD_ATTRIBUTE. -/
def Obligations.LineRequests : Prop :=
  ∀ (s : State) (g : Nat) (accs : List LaneAcc) (d : Nat → Range), s.runsGang g → s.mapsLines g (linesOf accs) d →
    let v := s.gang g
    let parts : List Part := [.reqs, .nextReq, .gangs, .tel]
    (∀ l ∈ linesOf accs, Tbl.find? (s.bay v.bay).l1 l = none) →
    ((∀ l ∈ linesOf accs, (d l).canRead = true) →
      (∃ t, exec (.loadPlain g .tva accs) s = .next t ∧ s.sentLines t g .read d accs false none ∧ s.sameBut t parts ∧
        t.gang g = { v with loads := v.loads ++ s.sentIds accs }) ∧
      (∀ a : LoadAttr, (∀ n, a ≠ .capstone n) → ∃ t, exec (.loadVolatile g { space := .tva, attr := a } accs) s = .next t ∧
        s.sentLines t g .read d accs true none ∧ s.sameBut t parts ∧
        t.gang g = { v with loads := v.loads ++ s.sentIds accs })) ∧
    (∀ sp n, exec (.loadVolatile g { space := sp, attr := .capstone n } accs) s = .next (((s.countInstr g).gangFault g
        fcBadAttribute { unit := unitBay v.bay, info0 := v.index }).bayWrite v.cmd v.bay)) ∧
    ((∀ l ∈ linesOf accs, (d l).canWrite = true) → (∀ e ∈ s.awaited g, storedRegs accs e = false) →
      ((s.bay v.bay).l1Lines = 0 →
        ∃ t, exec (.storePlain g .tva accs) s = .next t ∧ s.sentLines t g .write d accs true none ∧ s.sameBut t parts ∧
          t.gang g = { v with stores := v.stores ++ s.sentIds accs }) ∧
      (∃ t, exec (.storeVolatile g .tva accs) s = .next t ∧ s.sentLines t g .write d accs true none ∧
        s.sameBut t parts ∧ t.gang g = { v with stores := v.stores ++ s.sentIds accs }) ∧
      (∀ n : Fin 4, (Tbl.get [] v.members n.val).length + (linesOf accs).length ≤ 256 →
        ∃ t, exec (.storeStream g n .tva accs) s = .next t ∧ s.sentLines t g .write d accs true (some n.val) ∧
          s.sameBut t parts ∧ (t.gang g).stores = v.stores ++ s.sentIds accs ∧
          Tbl.get [] (t.gang g).members n.val = Tbl.get [] v.members n.val ++ s.sentIds accs))

/-- PLAIN accesses that L1 serves (R213). -/
def Obligations.L1Accesses : Prop :=
  ∀ (s : State) (g : Nat) (accs : List LaneAcc) (line : Nat) (r : Range) (l : L1Line), s.runsGang g →
    linesOf accs = [line] → s.mapsLines g [line] (fun _ => r) →
    let v := s.gang g
    Tbl.find? (s.bay v.bay).l1 line = some l →
    (r.canWrite = true → 0 < (s.bay v.bay).l1Lines → (∀ e ∈ s.awaited g, storedRegs accs e = false) →
      let mask := reqMask (128 * line) accs
      exec (.storePlain g .tva accs) s = .next ((s.countInstr g).setL1 v.bay line
        { data := mergeBytes l.data (reqData (128 * line) accs) mask, valid := l.valid ||| mask
          dirty := l.dirty ||| mask, cmds := if l.cmds.contains v.cmd then l.cmds else l.cmds ++ [v.cmd] })) ∧
    (r.canRead = true → reqMask (128 * line) accs &&& ~~~l.valid = 0 → ∀ a, accs = [a] → a.size = 4 →
      a.reg < laRegs (s.cmd v.cmd).block → a.reg < 255 →
      ∃ t, exec (.loadPlain g .tva accs) s = .next t ∧ s.sameBut t [.gangs, .tel] ∧
        (∀ k, k ≠ g → t.gang k = s.gang k) ∧ t.gang g = { v with regs := (t.gang g).regs } ∧
        ∀ m q, q < 256 → (t.gang g).reg m q = if m = a.lane.val ∧ q = a.reg
          then BitVec.ofNat 32 (leVal (bytesAt l.data (a.addr.toNat % 128) 4)) else v.reg m q)

/-- Atomics, FENCE, FLUSH (R214, R216); a FLUSH of an address of scratch raises SCRATCH_RANGE. COMPLETES: ATOMIC,
FENCE, FLUSH_ALL, FLUSH_RANGE. Capstones (R219, R221). COMPLETES: STORE_CAPSTONE, CAPSTONE_RELEASE_TOKEN,
CAPSTONE_DISCARD. -/
def Obligations.AtomicsFencesCapstones : Prop :=
  (∀ (s : State) (g : Nat), s.runsGang g →
     let v := s.gang g
     let c := s.cmd v.cmd
     (∀ (a : LaneAcc) (op : AtomicOp) (kind : AtomicKind) (x y : W64) (r : Range),
       let line := a.addr.toNat / 128
       findRange (s.slice c.slice).defn.ranges (128 * line) = some r → r.canRead = true → r.canWrite = true →
       Tbl.find? (s.bay v.bay).l1 line = none → a.size ≠ 0 → a.addr.toNat % 128 + a.size ≤ 128 →
       exec (.atomic g .tva a op kind x y) s = .next
         { ((s.countInstr g).setReq s.nextReq { s.lineReq g (.atomic op kind x y) line (r.toDpa (128 * line)) [a] true none
               with tva := a.addr.toNat }).updGang g fun v => { v with stores := v.stores ++ [s.nextReq] }
           with nextReq := s.nextReq + 1 }) ∧
     (v.stores = [] → exec (.fence g) s = .next (s.countInstr g)) ∧
     (v.stores ≠ [] → exec (.fence g) s = .next s) ∧
     ((∀ e ∈ (s.bay v.bay).l1, v.cmd ∉ e.2.cmds) →
       ∃ t, exec (.flushAll g) s = .next t ∧ s.sameBut t [.tel, .cmds]) ∧
     (∀ (addr : W64) (len : Nat), inRange (s.slice c.slice).defn addr.toNat len (fun _ => true) = true →
       exec (.flushRange g (.tva addr) len .inv) s = .next ((s.countInstr g).updBay v.bay fun b =>
         { b with l1 := b.l1.filter fun e => !(overlap (128 * e.1) 128 addr.toNat len) || decide (e.2.dirty ≠ 0) })) ∧
     (∀ (off : W64) (len : Nat) (mode : FlushMode),
       exec (.flushRange g (.scratch off) len mode) s = .next (s.ended (((s.begun.countInstr g).gangFault g fcScratchRange
         { unit := unitBay v.bay, info0 := v.index, info1 := off.toNat }).bayWrite v.cmd v.bay)))) ∧
  ((∀ (s : State) (g : Nat) (n : Fin 4) (a : LaneAcc) (flag : Option W64) (r : Range), s.runsGang g →
     let v := s.gang g
     let c := s.cmd v.cmd
     let addr := a.addr.toNat
     let dpa := r.toDpa (128 * (addr / 128)) + addr % 128
     let x := (homeOf s.density (r.toDpa (128 * (addr / 128)))).1
     4 ≤ a.data.length → addr % 128 + a.data.length ≤ 128 →
     findRange (s.slice c.slice).defn.ranges (128 * (addr / 128)) = some r → r.canWrite = true → s.homeShield x = none →
     ∃ t, exec (.storeCapstone g n .tva a flag) s = .next t ∧ t.nextReq = s.nextReq + 1 ∧
       s.sameBut t [.tel, .nextReq, .gangs, .uc] ∧
       t.gang g = { v with members := Tbl.set [] v.members n.val [], failed := setBit v.failed n.val false
                           hostPorts := Tbl.set 0 v.hostPorts n.val 0, stores := v.stores ++ [s.nextReq] } ∧
       Tbl.find? t.uc.capstones s.nextReq = some { 
         gang := g, cmd := v.cmd, slice := c.slice, stream := n.val, waits := Tbl.get [] v.members n.val
         failed := bitAt v.failed n.val, ports := Tbl.get 0 v.hostPorts n.val, data := a.data, flag := flag, arrived := s.time, dpa := dpa, tva := addr
         held := decide (s.capsHeld (some x) < 64) }) ∧
   (∀ (s t : State) (id : Nat) (c : Capstone), s.ready = true → Tbl.find? s.uc.capstones id = some c → c.held = true →
     c.failed = false → c.waits = [] → c.host = none → 
     let line := c.dpa / 128 * 128
     let unit := unitBay (s.gang c.gang).bay
     let mask := maskOf (c.dpa % 128) c.data.length
     s.mustWait id c.gang line mask = false →
     ((s.begun.signalUnits .releaseToken unit (s.capUnit c)).onBehalf c.cmd).lineWrite line
       (List.replicate (c.dpa % 128) 0 ++ c.data) mask true (placeOf unit) = (t, .ok) →
     let v := ((t.serveWaiting line).dropCap id (some (homeOf s.density c.dpa).1)).capFlag
       { cmd := c.cmd, slice := c.slice, unit := unit } c
     v.uc.held = false → exec (.capstoneReleaseToken id) s = .next (s.ended v)) ∧
   (∀ (s : State) (id : Nat), (∀ c, Tbl.find? s.uc.capstones id = some c → c.waits ≠ [] ∨ c.failed = true) →
     exec (.capstoneReleaseToken id) s = .next s) ∧
   (∀ (s : State) (id : Nat) (c : Capstone), s.powered = true → Tbl.find? s.uc.capstones id = some c → c.held = true →
     c.arrived + 64000000 ≤ s.time →
     ∃ t, exec (.capstoneDiscard id) s = .next t ∧ s.sameBut t [.uc, .gangs] ∧ Tbl.find? t.uc.capstones id = none ∧
       t.uc.discarded = satAdd 32 s.uc.discarded 1 ∧ t.uc.ways = s.uc.ways))

/-- The mask stack (R120). COMPLETES: MASK_PUSH, MASK_RECONVERGE. Lane arithmetic, constants, scratch and instruction
fetch (R119, R121, R122, R117). What the operations other than the fused multiply-add compute, and what lies behind
CONST_LEN, are free values (notes/assumptions/2.md). COMPLETES: LANE_ARITHMETIC, SCRATCH_ACCESS, INSTRUCTION_FETCH. -/
def Obligations.GangInstructions : Prop :=
  (∀ (s : State) (g : Nat), s.runsGang g →
     let v := s.gang g
     let room := 16 + laSpill (s.cmd v.cmd).block
     (∀ (taken : W32) (rpc : BitVec 48),
       let e : MaskEntry := { active := v.mask, pending := v.mask &&& ~~~taken, rpc := rpc }
       (v.stack.length + v.spilled < room → v.stack.length < 16 →
         exec (.maskPush g taken rpc) s = .next ((s.countInstr g).updGang g fun v =>
           { v with mask := v.mask &&& taken, stack := e :: v.stack })) ∧
       (v.stack.length + v.spilled < room → 16 ≤ v.stack.length → ∀ old, v.stack.getLast? = some old →
         exec (.maskPush g taken rpc) s = .next (((s.countInstr g).footWrite v.bay v.feet
             (laScratch (s.cmd v.cmd).block + 16 * v.spilled)
             (leBytes 4 old.active.toNat ++ leBytes 4 old.pending.toNat ++ leBytes 6 old.rpc.toNat ++ [0, 0])).updGang g
           fun v => { v with mask := v.mask &&& taken, stack := e :: v.stack.dropLast, spilled := v.spilled + 1 }))) ∧
     (∀ e rest, v.stack = e :: rest →
       (e.pending ≠ 0 → exec (.maskReconverge g) s = .next ((s.countInstr g).updGang g fun v =>
         { v with mask := e.pending, stack := { e with pending := 0 } :: rest })) ∧
       (e.pending = 0 → (rest ≠ [] ∨ v.spilled = 0) → exec (.maskReconverge g) s =
         .next ((s.countInstr g).updGang g fun v => { v with mask := e.active, stack := rest })) ∧
       (e.pending = 0 → rest = [] → 0 < v.spilled →
         let b := s.footRead v.bay v.feet (laScratch (s.cmd v.cmd).block + 16 * (v.spilled - 1)) 16
         exec (.maskReconverge g) s = .next ((s.countInstr g).updGang g fun v =>
           { v with mask := e.active, spilled := v.spilled - 1, stack := [{ 
             active := BitVec.ofNat 32 (leAt b 0 4), pending := BitVec.ofNat 32 (leAt b 4 4)
             rpc := BitVec.ofNat 48 (leAt b 8 6) }] })))) ∧
  (∀ (s : State) (g : Nat), s.runsGang g →
     let v := s.gang g
     let c := s.cmd v.cmd
     (∀ (d x y z : Nat), d < laRegs c.block → d < 255 → x < 255 → y < 255 → z < 255 →
       (∀ e ∈ s.awaited g, e.2 ≠ x ∧ e.2 ≠ y ∧ e.2 ≠ z) →
       ∃ t, exec (.laneArithmetic g (.fma d x y z)) s = .next t ∧ s.sameBut t [.gangs, .tel] ∧
         t.gang g = { v with regs := (t.gang g).regs } ∧ (∀ k, k ≠ g → t.gang k = s.gang k) ∧
         ∀ l r, r < 256 → (t.gang g).reg l r =
           if l < 32 ∧ v.mask.getLsbD l = true ∧ r = d
           then BitVec.ofNat 32 (f32Fma (v.reg l x).toNat (v.reg l y).toNat (v.reg l z).toNat) else v.reg l r) ∧
     (∀ (d : Nat) (srcs : List Nat), d < laRegs c.block → d < 255 → (∀ e ∈ s.awaited g, e.2 ∉ srcs) →
       ∃ t, exec (.laneArithmetic g (.lane d srcs)) s = .next t ∧ s.onlyRegs t g ∧
         ∀ l r, r < 256 → (32 ≤ l ∨ v.mask.getLsbD l = false ∨ r ≠ d) → (t.gang g).reg l r = v.reg l r) ∧
     (∀ d : Nat, ∃ t, exec (.laneArithmetic g (.scalar d)) s = .next t ∧ s.sameBut t [.gangs, .tel, .free] ∧
       t.gang g = { v with scalars := (t.gang g).scalars } ∧ (∀ k, k ≠ g → t.gang k = s.gang k) ∧
       ∀ k, k ≠ d → Tbl.get 0 (t.gang g).scalars k = Tbl.get 0 v.scalars k) ∧
     (∀ (d : Nat) (offset : W32), d < laRegs c.block → d < 255 →
       let a := laConst c.block + offset.toNat
       (laConstLen c.block < offset.toNat + 4 → ∃ t, exec (.laneArithmetic g (.constant d offset)) s = .next t ∧
         s.onlyRegs t g ∧
         ∀ l r, r < 256 → (32 ≤ l ∨ v.mask.getLsbD l = false ∨ r ≠ d) → (t.gang g).reg l r = v.reg l r) ∧
       (offset.toNat + 4 ≤ laConstLen c.block → ∀ x, Tbl.find? (s.bay v.bay).ccache (a / 128) = some x →
         ∃ t, exec (.laneArithmetic g (.constant d offset)) s = .next t ∧ s.onlyRegs t g ∧
           ∀ l r, r < 256 → (t.gang g).reg l r =
             if l < 32 ∧ v.mask.getLsbD l = true ∧ r = d then BitVec.ofNat 32 (leAt x (a % 128) 4) else v.reg l r) ∧
       (offset.toNat + 4 ≤ laConstLen c.block → Tbl.find? (s.bay v.bay).ccache (a / 128) = none →
         let t := (s.begun.countInstr g).constMiss v.cmd v.bay (a / 128)
         ∀ x, Tbl.find? (t.bay v.bay).ccache (a / 128) = some x →
           let w := (t.setLanes g d fun _ _ => BitVec.ofNat 32 (leAt x (a % 128) 4)).bayWrite v.cmd v.bay
           w.uc.held = false → exec (.laneArithmetic g (.constant d offset)) s = .next (s.ended w))) ∧
     (∀ (offset size : Nat) (lane : Fin 32) (data : Bytes), offset + size ≤ laScratch c.block → data.length = size →
       exec (.scratchAccess g offset size lane (.store data)) s
         = .next ((s.countInstr g).footWrite v.bay v.feet offset data)) ∧
     (∀ (offset : Nat) (lane : Fin 32) (r : Nat), offset + 4 ≤ laScratch c.block → r < laRegs c.block → r < 255 →
       ∃ t, exec (.scratchAccess g offset 4 lane (.load r)) s = .next t ∧ s.sameBut t [.gangs, .tel] ∧
         t.gang g = { v with regs := (t.gang g).regs } ∧ (∀ k, k ≠ g → t.gang k = s.gang k) ∧
         ∀ l q, q < 256 → (t.gang g).reg l q =
           if l = lane.val ∧ q = r then BitVec.ofNat 32 (leVal (s.footRead v.bay v.feet offset 4))
           else v.reg l q) ∧
     (∀ offset : W32,
       let tva := (laCode c.block + offset.toNat) / 128 * 128
       let key := v.core * 2 ^ 50 + tva / 128
       ((Tbl.find? (s.bay v.bay).icache key).isSome = true →
         exec (.instructionFetch g offset) s = .next (s.countInstr g)) ∧
       (∀ r t b, Tbl.find? (s.bay v.bay).icache key = none → findRange (s.slice c.slice).defn.ranges tva = some r →
         r.canExec = true →
         ((s.begun.countInstr g).onBehalf v.cmd).lineRead (r.toDpa tva) 15 (placeOf (unitBay v.bay)) false
           = (t, .data b false) →
         let room := t.roRoom (t.bay v.bay).icache (fun k => decide (k / 2 ^ 50 = v.core)) icacheLines
         let w := (room.2.updBay v.bay fun x => { x with icache := Tbl.put room.1 key b }).bayWrite v.cmd v.bay
         w.uc.held = false → exec (.instructionFetch g offset) s = .next (s.ended w))))

/-- Replies (R78, R76, R119, R219). COMPLETES: READ_REPLY, WRITE_ACKNOWLEDGEMENT, SHIELD_ANSWER, STALE_REPLY_DISCARD. -/
def Obligations.Replies : Prop :=
  ∀ (s : State) (rid : Nat) (r : Req), s.powered = true → Tbl.find? s.reqs rid = some r →
    let parts : List Part := [.reqs, .gangs, .uc]
    (s.stale r = false → r.dead = false → r.kind = .write → r.answer = some .ack →
      ∃ t, exec (.writeAcknowledgement rid) s = .next t ∧ s.sameBut t parts ∧ Tbl.find? t.reqs rid = none ∧
        (s.hasGang r.gang = true → rid ∉ (t.gang r.gang).stores)) ∧
    (s.stale r = false → r.dead = false → s.shieldFirst rid r = true → r.parked = false → ∀ d a,
      r.answer = some (.shield d a) → (s.cmd r.cmd).live = true → (s.cmd r.cmd).stop = none →
      ∃ t, exec (.shieldAnswer rid) s = .next t ∧ s.sameBut t (.cmds :: parts) ∧ Tbl.find? t.reqs rid = none ∧
        (t.cmd r.cmd).stop = some { outcome := ocAborted, detail := d, arg := a } ∧ (t.cmd r.cmd).phase = .finishing) ∧
    (r.parked = false → r.answer.isSome = true → s.stale r = true →
      ∃ t, exec (.staleReplyDiscard rid) s = .next t ∧ s.sameBut t (.cmds :: .dev :: parts) ∧
        Tbl.find? t.reqs rid = none ∧ t.dev = { s.dev with staleCount := (s.dev.staleCount + 1) % 2 ^ 64 } ∧
        ∀ k, (t.gang k).regs = (s.gang k).regs) ∧
    (s.stale r = true → ∀ reply,
      exec (.readReply rid reply) s = .next s ∧ exec (.writeAcknowledgement rid) s = .next s) ∧
    (s.stale r = false → r.dead = false → r.parked = false → r.host = none → r.kind = .read → r.volatile = true →
      ∀ b a reply, r.answer = some (.data b) → r.accs = [a] → a.size = 4 → r.tva % 128 = 0 → r.tva ≤ a.addr.toNat →
      a.addr.toNat + 4 ≤ r.tva + 128 → s.hasGang r.gang = true → a.reg < 255 →
      a.reg < laRegs (s.cmd (s.gang r.gang).cmd).block →
      ∃ t, exec (.readReply rid reply) s = .next t ∧ s.sameBut t (.free :: parts) ∧ Tbl.find? t.reqs rid = none ∧
        rid ∉ (t.gang r.gang).loads ∧
        ∀ m q, q < 256 → (t.gang r.gang).reg m q = if m = a.lane.val ∧ q = a.reg
          then BitVec.ofNat 32 (leVal (bytesAt b (a.addr.toNat - r.tva) 4)) else (s.gang r.gang).reg m q)

/-! ## The unified cache and the channels -/

/-- The slice hash (R190) is one to one: each line of usable memory has one home slice and line number, from which
its address follows, and one place in its channel (R244). -/
def Obligations.SliceHashOneToOne : Prop :=
  ∀ density dpa : Nat, density < 3 → dpa < usable density → dpa % 128 = 0 →
    let h := homeOf density dpa
    h.1 < 512 ∧ dpaOf density h.1 h.2 = dpa ∧ chanOfUcSlice h.1 < 128 ∧ chanLine h.1 h.2 < chanLines density ∧
      lineOfChan (chanOfUcSlice h.1) (chanLine h.1 h.2) = h

/-- A request at its home slice (R194, R195): a read whose sectors the slice holds is answered with the line's bytes;
a write to a line it holds whole is acknowledged and marks its sectors dirty. The shield of a unit that is not UP
answers instead (R77), nothing happens to a request that must wait for an earlier access of its gang (R211), and what
the directory says of the line makes others wait (R193). COMPLETES: CACHE_READ, CACHE_WRITE. Ways (R203, R208): an
operation starts, a second one is ignored with OVERRUN, an enable acts at once but for an OFFLINE slice, and a
disable that has emptied its way of every set leaves it excluded. COMPLETES: WAY_DISABLE, WAY_ENABLE,
WAY_OPERATION_DONE. -/
def Obligations.HomeSlice : Prop :=
  (∀ (s : State) (rid : Nat) (r : Req) (w : Nat), s.powered = true → Tbl.find? s.reqs rid = some r → r.answer = none →
     r.host = none → r.parked = false → r.dead = false → r.missed = false → rid ∉ s.uc.waiting →
     s.queuedAtChan rid = false → s.pairedLine r.dpa = false →
     let h := homeOf s.density r.dpa
     let key := wayKey h.1 (setOf h.2) w
     let y := s.way key
     let mask := reqMask r.tva r.accs
     let arrives : State → Prop := fun t =>
       (r.kind = .read → exec (.cacheRead rid) s = .next t) ∧ (r.kind ≠ .read → exec (.cacheWrite rid) s = .next t)
     (s.mustWait rid r.gang r.dpa mask = true → arrives s) ∧
     (s.mustWait rid r.gang r.dpa mask = false →
       (∀ d a, s.homeShield h.1 = some (d, a) → arrives (s.answerReq rid (.shield d a))) ∧
       (s.homeShield h.1 = none → s.dirOf h.1 h.2 = .filling ∨ s.dirOf h.1 h.2 = .invalidating → arrives (s.waitReq rid)) ∧
       (s.homeShield h.1 = none → s.dirOf h.1 h.2 = .replica → r.kind ≠ .read →
         arrives ((s.askInvalidate h.1 h.2).waitReq rid)) ∧
       (s.homeShield h.1 = none → s.findWay h.1 h.2 false = some w → (∀ v, v < 16 → (s.way (wayKey h.1 (setOf h.2) v)).tagErr = 0) →
         y.dataErr = 0 → y.released = false → y.dir = .none →
         (r.kind = .read → touchedSectors mask &&& ~~~y.valid = 0 →
           ∃ t, exec (.cacheRead rid) s = .next t ∧ t.mem = s.mem ∧ t.host = s.host ∧
             (Tbl.find? t.reqs rid).map (·.answer) = some (some (.data (bytesAt y.data 0 128)))) ∧
         (r.kind = .write → y.valid = 15 → s.flt.inject.armed = false → mask ≠ 0 →
           (s.slice ((s.ownerOf (dpaOf s.density h.1 h.2)).getD 0)).logging = false →
           ∃ t, exec (.cacheWrite rid) s = .next t ∧ t.mem = s.mem ∧ t.host = s.host ∧
             (Tbl.find? t.reqs rid).map (·.answer) = some (some .ack) ∧
             (t.way key).dirty = y.dirty ||| touchedSectors mask)))) ∧
  (∀ (s : State) (x : BitVec 9) (way : Fin 16),
     (s.ready = true → s.uc.wayBusy = true →
       exec (.wayDisable x way) s = .next { s with uc := { s.uc with wayOverrun := true } } ∧
       exec (.wayEnable x way) s = .next { s with uc := { s.uc with wayOverrun := true } }) ∧
     (s.ready = true → s.uc.wayBusy = false →
       exec (.wayDisable x way) s = .next { s with uc := { s.uc with
         wayBusy := true, wayOp := some (x.toNat, way.val, true) } } ∧
       (s.dieState (dieOfUcSlice x.toNat) = .up → s.ucOffline x.toNat = false →
         exec (.wayEnable x way) s = .next { s with uc := { s.uc with
           wayOff := Tbl.upd 0 s.uc.wayOff x.toNat (fun m => setBit m way.val false), wayDone := true } }) ∧
       (s.dieState (dieOfUcSlice x.toNat) = .up → s.ucOffline x.toNat = true →
         exec (.wayEnable x way) s = .next { s with uc := { s.uc with wayDone := true } }) ∧
       (s.dieState (dieOfUcSlice x.toNat) ≠ .up → exec (.wayEnable x way) s = .next s)) ∧
     (s.powered = true → ∀ k, s.uc.wayOp = some (x.toNat, way.val, k) →
       let sets := s.setsHeld x.toNat way.val
       (sets.all (s.canEmpty x.toNat way.val) = false → exec .wayOperationDone s = .next s) ∧
       (sets.all (s.canEmpty x.toNat way.val) = true →
         let f : State → State := fun u =>
           let t := sets.foldl (fun a set => a.evictWay x.toNat set way.val) u
           { t with uc := { t.uc with wayOff := Tbl.upd 0 t.uc.wayOff x.toNat (fun m => setBit m way.val true)
                                      wayOp := none, wayBusy := false, wayDone := true } }
         s.goesThrough f → exec .wayOperationDone s = .next (s.through f))))

/-- The replica protocol (R192, R193): FILLING becomes REPLICA on the install's acknowledgement, an invalidate drops
the replica and is acknowledged, and INVALIDATING becomes NONE once it is gone; the requests that waited then
proceed. A fill answers the reads that missed at the partner slice, which may then take a copy. COMPLETES:
REPLICA_FILL, REPLICA_INSTALL_ACK, REPLICA_INVALIDATE, INVALIDATE_ACK. -/
def Obligations.ReplicaProtocol : Prop :=
  ∀ (s : State) (dpa : BitVec 44), s.powered = true →
    let line := dpa.toNat / 128 * 128
    let h := homeOf s.density line
    let partner := h.1 ^^^ 256
    let dir := s.dirOf h.1 h.2
    (dir = .filling →
      exec (.replicaInstallAck dpa) s = .next ((s.setDir h.1 h.2 .replica).serveWaiting line)) ∧
    (dir = .invalidating → exec (.replicaInvalidate dpa) s = .next
      ((s.dropReplica h.1 h.2).signalUnits .invalidateAck (unitUcSlice partner) (unitUcSlice h.1))) ∧
    (dir = .invalidating → s.findWay partner h.2 true = none →
      exec (.invalidateAck dpa) s = .next ((s.setDir h.1 h.2 .none).serveWaiting line)) ∧
    (dir ≠ .filling → dir ≠ .invalidating → s.missedReads line ≠ [] →
      (∀ d a, s.homeShield partner = some (d, a) →
        let f : State → State := fun u => (s.missedReads line).foldl (fun t rid => t.answerReq rid (.shield d a)) u
        s.goesThrough f → exec (.replicaFill dpa) s = .next (s.through f)) ∧
      (s.homeShield partner = none →
        let t := (s.missedReads line).foldl State.applyAgain s.begun
        let u := t.installReplica h.1 h.2
        (t.mayReplicate h.1 h.2 = false → t.uc.held = false → exec (.replicaFill dpa) s = .next (s.ended t)) ∧
        (t.mayReplicate h.1 h.2 = true → u.2 = true → (u.1.setDir h.1 h.2 .filling).uc.held = false →
          exec (.replicaFill dpa) s = .next (s.ended (u.1.setDir h.1 h.2 .filling))) ∧
        (t.mayReplicate h.1 h.2 = true → u.2 = false → u.1.uc.held = false →
          exec (.replicaFill dpa) s = .next (s.ended u.1))))

/-- CHANNEL_READ and CHANNEL_WRITE (R247, R251), with the errors that the DRAM has taken in the line and in its map
line: a channel that does not serve does nothing; in a retraining hold they wait in the controller (R256); otherwise
a read is looked up in the course map and decoded, for the request it serves or for none, and a write is made, or
refused and reported (Table 11.3). COMPLETES: CHANNEL_READ, CHANNEL_WRITE. -/
def Obligations.ChannelAccess : Prop :=
  ∀ (s : State) (c : Fin 128) (q : Nat) (errs mapErrs : List (Nat × Byte)) (data : Bytes) (mask : BitVec 128),
    q < chanLines s.density →
    let reads : Option Nat → State → Prop := fun rid t => exec (.channelRead c q errs mapErrs rid) s = .next t
    let writes : State → Prop := fun t => exec (.channelWrite c q data mask) s = .next t
    (s.chanServes c.val = false → (∀ rid, reads rid s) ∧ writes s) ∧
    (s.chanServes c.val = true → (s.chan c.val).retraining = true →
      reads none (s.updChan c.val fun v => { v with queued := v.queued ++ [.read q] }) ∧
      writes (s.updChan c.val fun v => { v with queued := v.queued ++ [.write q data mask] }) ∧
      ∀ id r, Tbl.find? s.reqs id = some r → s.requestFor c.val q id = true →
        reads (some id) (s.reachHome id (decide (r.kind = .read)))) ∧
    (s.chanServes c.val = true → (∀ id, s.requestFor c.val q id = false → reads (some id) s)) ∧
    (s.chanServes c.val = true → (s.chan c.val).retraining = false →
      let m := s.mapLookup c.val q mapErrs
      let u := m.1.addErrors c.val q errs
      (m.2 = false → reads none m.1) ∧
      (m.2 = true → reads none (u.chanRead c.val q).1) ∧
      (∀ id r, Tbl.find? s.reqs id = some r → s.requestFor c.val q id = true →
        (m.2 = true → reads (some id) (u.reachHome id (decide (r.kind = .read)))) ∧
        (m.2 = false → ∀ r', Tbl.find? m.1.reqs id = some r' → reads (some id) (m.1.badRead id r' 2))) ∧
      (∀ t, s.chanWrite c.val q data mask = (t, false) → writes t) ∧
      (∀ t, s.chanWrite c.val q data mask = (t, true) →
        let dpa := t.dpaOfLine c.val q
        writes (t.raise fcPoisonWrite
          { unit := unitUcSlice (lineOfChan c.val q).1, slice := t.ownerOf dpa, addr := some dpa, tva := t.tvaOf dpa })))

/-- Retraining (R256), refresh (R255) and the notice before a hold. The end of a hold is recorded, and the requests
that waited are issued. COMPLETES: REFRESH, RETRAIN_START, RETRAIN_END, HOLD_NOTICE. Pin-kill, row repair and
repacking (R248, R254, R265). COMPLETES: KILL_PIN, APPLY_PPR, HPPR_TIMEOUT, REPACK_ROW. -/
def Obligations.ChannelService : Prop :=
  (∀ (s : State) (c : Fin 128) (bank : Fin 16),
     let v := s.chan c.val
     exec (.refresh c bank) s = .next s ∧
     (s.mayRetrain c.val = true → (retrainPoint c.val s.time = true ∨ v.deferred = true) →
       (s.whole.retrainMax ≤ s.retrainingNow →
         exec (.retrainStart c) s = .next (s.updChan c.val fun v => { v with deferred := true })) ∧
       (s.retrainingNow < s.whole.retrainMax →
         exec (.retrainStart c) s = .next (s.updChan c.val fun v =>
           { v with retraining := true, retrainFrom := s.time, deferred := false, notice := false }))) ∧
     (v.retraining = true →
       ∃ t, exec (.retrainEnd c) s = .next (issueWaiting c.val v.queued [] t) ∧ s.sameBut t [.mem, .tel] ∧
         t.mem = { (s.updChan c.val fun v => { v with retraining := false, queued := [] }).mem with
           holds := satAdd 32 s.mem.holds 1
           worstHold := max s.mem.worstHold (min (s.time - v.retrainFrom) (2 ^ 32 - 1)) }) ∧
     (s.mayRetrain c.val = true → retrainPoint c.val (s.time + 1000) = true →
       exec (.holdNotice c) s = .next ((s.updChan c.val fun v => { v with notice := true }).signalUnits .holdNotice
         (unitChan c.val) (unitQueue false)))) ∧
  (∀ (s : State) (c : Fin 128) (pin : Fin 16),
     let v := s.chan c.val
     (s.ready = true → v.killed.isSome = true →
       exec (.killPin c pin) s = .next { s with mem := { s.mem with ctlRefused := true } }) ∧
     (s.ready = true → v.killed = none →
       ∃ t, exec (.killPin c pin) s = .next t ∧ (t.chan c.val).killed = some pin.val ∧
         (t.chan c.val).repacking = true ∧ (t.chan c.val).repackRow = 0 ∧ t.mem.ctlDone = true ∧
         t.mem.dram = s.mem.dram ∧ t.host = s.host ∧ ∀ k, k ≠ c.val → t.chan k = s.chan k) ∧
     (s.ready = true → exec (.applyPpr c) s = .next
       (let t := s.updChan c.val fun v => { v with pprArmed := true }
        { t with mem := { t.mem with ctlDone := true } })) ∧
     (∀ row rest i, s.powered = true → v.unit = .resetting → v.pprRun = row :: rest → v.freeSpare = some i →
       ∃ t, exec (.hpprTimeout c) s = .next t ∧ (t.chan c.val).pprRun = rest ∧
         Tbl.get 64 (t.chan c.val).remaps row = i ∧ row ∉ (t.chan c.val).pprQueue ∧ t.host = s.host) ∧
     (s.chanServes c.val = true → v.repacking = true → mapLinesOfRow s.density v.repackRow = [] →
       (∀ q ∈ linesOfRow s.density v.repackRow, s.lineState c.val q ≠ .written) →
       ∀ errs : List (Nat × Nat × Byte), (∀ e ∈ errs, e.1 < 240) →
       ∃ t, exec (.repackRow c errs) s = .next t ∧ t.mem.dram = s.mem.dram ∧
         (t.chan c.val).repackRow = (if rowsOfChan s.density ≤ v.repackRow + 1 then v.repackRow else v.repackRow + 1) ∧
         (t.chan c.val).repacking = !decide (rowsOfChan s.density ≤ v.repackRow + 1)))

/-! ## Resets and bring-up -/

/-- Bay, channel, die and port resets (R71, R76, R77, R78, R82): the unit shows RESETTING with its shield closed and
its epoch advanced, and what the domain holds is cleared; a request for a unit already resetting merges (R74), and a
source that may not ask changes nothing. COMPLETES: BAY_RESET, CHANNEL_RESET, DIE_RESET, SWELD_PORT_RESET. -/
def Obligations.PhysicalResets : Prop :=
  ∀ (s : State) (src : ResetSource),
    let merged := { s with dev := { s.dev with resetMerged := true } }
    (mayAsk s src = false → (∀ b, exec (.bayReset b src) s = .next s) ∧ (∀ c, exec (.channelReset c src) s = .next s) ∧
      (∀ d lost, exec (.dieReset d lost src) s = .next s) ∧ ∀ p, exec (.sweldPortReset p src) s = .next s) ∧
    (mayAsk s src = true →
    (∀ b : Fin 48, (s.bay b.val).unit ≠ .resetting → s.dieState (dieOfBay b.val) ≠ .resetting →
      ∃ t, exec (.bayReset b src) s = .next t ∧ t.bay b.val = { (s.bay b.val).zeroed with
          holder := none, zeroings := satAdd 24 (s.bay b.val).zeroings 1, unit := .resetting, errs := []
          epoch := (s.bay b.val).epoch + 1 } ∧
        (∀ k, k ≠ b.val → t.bay k = s.bay k) ∧ s.sameBut t [.dev, .uc, .cmds, .gangs, .bays, .reqs, .flt, .fab] ∧
        (∀ e ∈ t.gangs, e.2.bay = b.val → e.2.saved = true)) ∧
    (∀ b : Fin 48, ((s.bay b.val).unit = .resetting ∨ s.dieState (dieOfBay b.val) = .resetting) →
      exec (.bayReset b src) s = .next merged) ∧
    (∀ c : Fin 128, (s.chan c.val).unit ≠ .resetting → s.dieState (dieOfChan c.val) ≠ .resetting →
      ∃ t, exec (.channelReset c src) s = .next t ∧ (t.chan c.val).unit = .resetting ∧ (t.chan c.val).trained = false ∧
        (t.chan c.val).epoch = (s.chan c.val).epoch + 1 ∧ (t.chan c.val).queued = [] ∧ t.mem.dram = s.mem.dram ∧
        t.mem.notFresh = s.mem.notFresh ∧ t.mem.mapCache = s.mem.mapCache ∧ (∀ k, k ≠ c.val → t.chan k = s.chan k) ∧
        s.sameBut t [.dev, .mem, .uc, .cmds, .gangs, .reqs, .flt, .fab] ∧
        (isManager src = true → (s.chan c.val).pprArmed = true →
          (t.chan c.val).pprRun = (s.chan c.val).pprQueue ∧ (t.chan c.val).pprArmed = false)) ∧
    (∀ c : Fin 128, ((s.chan c.val).unit = .resetting ∨ s.dieState (dieOfChan c.val) = .resetting) →
      exec (.channelReset c src) s = .next merged) ∧
    (∀ (d : Fin 8) (lost : Bool), s.dieState d.val = .resetting → exec (.dieReset d lost src) s = .next merged) ∧
    (∀ (d : Fin 8) (lost : Bool), s.dieState d.val ≠ .resetting →
      ∃ t, exec (.dieReset d lost src) s = .next t ∧ t.dieState d.val = .resetting ∧
        (∀ b ∈ baysOfDie d.val, (t.bay b).unit = .resetting) ∧
        (∀ e ∈ t.uc.ways, dieOfUcSlice (e.1 / 24576) ≠ d.val)) ∧
    (∀ p : Fin 16, (s.port p.val).unit = .resetting → exec (.sweldPortReset p src) s = .next merged) ∧
    (∀ p : Fin 16, (s.port p.val).unit ≠ .resetting →
      ∃ t, exec (.sweldPortReset p src) s = .next t ∧ (t.port p.val).unit = .resetting ∧
        (t.port p.val).state = .down ∧ (t.port p.val).epoch = (s.port p.val).epoch + 1 ∧
        (t.port p.val).remoteValid = false))

/-- A tenant reset (R75, R74, R113): one that may begin advances TENANT_EPOCH and holds off the slice; while the
slice is APPLYING or FROZEN the manager's request is held; a request met by a reset merges. COMPLETES: TENANT_RESET. -/
def Obligations.TenantReset : Prop :=
  ∀ (s : State) (i : BitVec 8) (u : Byte),
    let v := s.slice i.toNat
    (s.stopRegs = true → v.reset ≠ .none →
      exec (.tenantReset i (.manager u)) s = .next { s with dev := { s.dev with resetMerged := true } }) ∧
    (s.stopRegs = true → v.reset = .none → s.mayResetTenant i.toNat = false →
      ∃ t, exec (.tenantReset i (.manager u)) s = .next t ∧ s.sameBut t [.slices, .dev] ∧
        t.slice i.toNat = { v with reset := .held } ∧ ∀ k, k ≠ i.toNat → t.slice k = s.slice k) ∧
    (s.stopRegs = true → v.reset = .none → s.mayResetTenant i.toNat = true →
      exec (.tenantReset i (.manager u)) s = .next (s.beginTenantReset i.toNat true)) ∧
    (s.powered = true → v.reset = .held → s.mayResetTenant i.toNat = true →
      exec (.tenantReset i .tenant) s = .next (s.beginTenantReset i.toNat false) ∧
      exec (.tenantReset i .fault) s = .next (s.beginTenantReset i.toNat false)) ∧
    (∀ m, s.cmds = [] → s.reqs = [] → s.sweld.outs = [] →
      let t := s.beginTenantReset i.toNat m
      (t.slice i.toNat).reset = .running ∧ (t.slice i.toNat).tenantEpoch = v.tenantEpoch + 1 ∧
      (∀ b, b < 48 → s.bayHolder b = some i.toNat → (t.bay b).l1 = [] ∧ (t.bay b).scratch = []) ∧
      ∀ k, k ≠ i.toNat → t.slice k = s.slice k)

/-- The end of a domain reset (R83, R86): the unit is back, LAST_DOMAIN and LAST_INSTANCE name it, and DONE is set
for a reset that CFG_RESET_CTL started. A tenant reset ends with an empty set of queues. COMPLETES: RESET_COMPLETE. -/
def Obligations.ResetCompletes : Prop :=
  ∀ (s : State) (n : Nat) (ok : Bool), s.powered = true →
    let last := fun (t : State) (dom : Nat) => t.dev.lastDomain = dom ∧ t.dev.lastInst = n ∧
      t.dev.resetDone = (s.dev.resetDone || s.dev.started.any fun k => k == resetKey dom n)
    ((s.bay n).unit = .resetting → s.resetLasted domBay n = true → s.dieState (dieOfBay n) ≠ .resetting →
      ∃ t, exec (.resetComplete .bay n ok) s = .next t ∧ last t domBay ∧
        ((s.bay n).mgmt = .on → (s.bay n).unpowered = false → (t.bay n).unit = .up ∧ (t.bay n).mgmt = .on) ∧
        ((s.bay n).mgmt = .off → (t.bay n).unit = .down)) ∧
    ((s.chan n).unit = .resetting → s.resetLasted domChan n = true → s.dieState (dieOfChan n) ≠ .resetting →
      (s.chan n).pprRun = [] → n < 128 →
      ∃ t, exec (.resetComplete .channel n ok) s = .next t ∧ last t domChan ∧ 
        (t.chan n).unit = (if ok then .up else .down) ∧ (ok = true → (t.chan n).trained = true)) ∧
    (s.dieState n = .resetting → s.resetLasted domDie n = true → Tbl.get [] s.nv.repairs n = [] →
      ∃ t, exec (.resetComplete .die n ok) s = .next t ∧ t.dieState n = (if ok then .up else .down) ∧
        t.dev.lastDomain = domDie ∧ t.dev.lastInst = n) ∧
    ((s.port n).unit = .resetting → s.resetLasted domPort n = true → (s.port n).mgmt = .on → (s.port n).unpowered = false → n < 16 →
      ∃ t, exec (.resetComplete .port n ok) s = .next t ∧ last t domPort ∧ (t.port n).unit = .up ∧
        (t.port n).state = .training) ∧
    ((s.slice n).reset = .running → s.resetLasted domTenant n = true → s.copiesPosted n = true →
      ∃ t, exec (.resetComplete .tenant n ok) s = .next t ∧ last t domTenant ∧ (t.slice n).reset = .none ∧
        (t.slice n).sqs = [] ∧ (t.slice n).cqs = [])

/-- Package resets (R65, R71, R73, R82, R287, R377): from the manager with UNLOCK 0x5A, the Plinth controller and
PERST_N. TIME, fuses, flash and straps stay; every tenant's state, every unit and every FLT, TEL and MIG register
starts again. A message of the plumb bus waits for the end of a failover (R79). COMPLETES: PACKAGE_RESET,
PLUMB_PACKAGE_RESET, PERST_N_ASSERT, PERST_N_RELEASE. The cold start (R376, R377): it waits for PERST_N; the straps
are sampled, TIME starts from zero, and nothing but fuses, flash and the PROCHOT pin comes through. PWR_GOOD low
leaves no device state, and a slot whose store it cuts off holds no valid image (R345). COMPLETES: COLD_START,
PWR_GOOD_FALL. -/
def Obligations.PackageResets : Prop :=
  (∀ s : State,
     let begun := fun (t : State) (cause : Nat) (hold : Bool) =>
       t.dev.state = .bringup ∧ t.dev.step = 2 ∧ t.dev.resetCause = cause ∧ t.dev.perstHold = hold ∧
       t.dev.memValid = false ∧ t.time = s.time ∧ t.nv = s.nv ∧ t.pins.pkgId = s.pins.pkgId ∧
       t.pins.traySel = s.pins.traySel ∧ t.pins.memResetN = 0 ∧ t.slices = [] ∧ t.cmds = [] ∧ t.gangs = [] ∧ t.bays = [] ∧
       t.reqs = [] ∧ t.pool = [] ∧ t.flt = {} ∧ t.tel = {} ∧ t.mig = {} ∧ t.mem = {} ∧ t.uc = {} ∧ t.whole = {} ∧
       (s.dev.state = .bringup → t.plb = { level := if s.pins.prochotN then 0 else 32 }) ∧ t.pending = s.pending
     let held := !s.pins.perstN
     (s.stopRegs = true → s.powered = true → ∃ t, exec (.packageReset (.manager 0x5A)) s = .next t ∧ begun t 2 held) ∧
     (s.powered = false →
       exec (.packageReset (.manager 0x5A)) s = .next s ∧ exec (.packageReset .management) s = .next s) ∧
     (s.stopRegs = true → ∀ u, u ≠ 0x5A →
       exec (.packageReset (.manager u)) s = .next s.refuseReset) ∧
     (s.powered = true → ∃ t, exec (.packageReset .management) s = .next t ∧ begun t 3 held) ∧
     (s.powered = true → s.plb.failover = false → ∃ t, exec .plumbPackageReset s = .next (t.answer 0 []) ∧ begun t 3 held) ∧
     (s.powered = true → s.plb.failover = true → exec .plumbPackageReset s
       = .next { s with plb := { s.plb with heldOps := s.plb.heldOps ++ [.packageReset] } }) ∧
     (s.powered = true → ∃ t, exec .perstNAssert s = .next t ∧ begun t 1 true ∧ t.pins.perstN = false) ∧
     (s.powered = false → exec .perstNAssert s = .next { s with pins := { s.pins with perstN := false } }) ∧
     (s.powered = true → s.dev.perstHold = true → exec .perstNRelease s = .next { s with
       pins := { s.pins with perstN := true }
       dev := { s.dev with perstHold := false, stepTime := s.dev.ticks } })) ∧
  (∀ (s : State) (k : BitVec 4) (tray : Bool),
     (s.pins.pwrGood = true ∨ s.pins.perstN = false → exec (.coldStart k tray) s = .next s) ∧
     (s.pins.pwrGood = false → s.pins.perstN = true → ∃ t, exec (.coldStart k tray) s = .next t ∧ t.time = 0 ∧ t.nv = s.nv ∧
       t.pins = { pwrGood := true, prochotN := s.pins.prochotN, pkgId := k, traySel := tray } ∧
       t.dev = {} ∧ t.slices = [] ∧ t.plb = { level := if s.pins.prochotN then 0 else 32 } ∧
       t.sweld = { masterPkg := k.toNat }) ∧
     (∃ t, exec .pwrGoodFall s = .next t ∧ t.powered = false ∧ t.dev = {} ∧ t.slices = [] ∧ t.mem = {} ∧
       t.plb = {} ∧ t.pins.pwrGood = false ∧ t.nv.keys = s.nv.keys ∧ t.nv.repairs = s.nv.repairs ∧
       (s.dev.imageOp = none → s.dev.fwOp = none → s.dev.journalAt = none → t.nv = s.nv) ∧
       (∀ o, s.dev.imageOp = some o → o.op = 3 → s.whole.loadedFrom ≠ portBit o.slotB →
         Tbl.find? t.nv.flash (2 + portBit o.slotB) = none)))

/-- Bring-up (R63, R64, R65, R243, Table 3.1): each step's end leads to the next, a failed check to FAILED with its
code, and a step past its limit to FAILED with code 5. A journal record counts the package reset (R344), the rate is
the highest that every memory package supports (R243), and the end of a package reset that the manager started sets
DONE (R83). COMPLETES: BRINGUP_STEP_END, BRINGUP_STEP_TIMEOUT. The PCIe links (R66, R73): a trained port is up; a
port whose link goes down ends the operations that use it. COMPLETES: PCIE_LINK_UP, PCIE_LINK_DOWN. -/
def Obligations.BringupAndLinks : Prop :=
  (∀ s : State, s.powered = true → s.dev.state = .bringup → s.dev.perstHold = false →
     let at_ := fun (t : State) (n : Nat) => t.dev.state = .bringup ∧ t.dev.step = n ∧ t.dev.stepTime = s.dev.ticks
     let failed := fun (t : State) (code unit : Nat) =>
       t.dev.state = .failed ∧ t.dev.failCode = code ∧ t.dev.failUnit = unit
     (s.overdue = false →
     (s.dev.step = 2 → ∀ ok answers, ∃ t, exec (.bringupStepEnd (.fuses ok answers)) s = .next t ∧ t.nv.fusesOk = ok ∧
       (if ok then at_ t 3 else failed t 1 0) ∧
       ∃ n j, Tbl.find? t.nv.log n = some (Journal.bytes j) ∧
         j.boots = (if s.nv.journal.valid then s.nv.journal.boots + 1 else 1)) ∧
     (s.dev.step = 3 → ∃ t, exec (.bringupStepEnd (.selfTest [])) s = .next t ∧ at_ t 4 ∧
       t.pins.memResetN = BitVec.allOnes 32) ∧
     (s.dev.step = 3 → ∀ d ds, (∀ e ∈ ds, d ≤ e) →
       ∃ t, exec (.bringupStepEnd (.selfTest (d :: ds))) s = .next t ∧ failed t 2 d.val) ∧
     (s.dev.step = 4 → ∀ failedChans unsupported rates density,
       let x := StepInput.training failedChans unsupported rates density
       let f := failedChans.map (·.val)
       let u := unsupported.map (·.val)
       let n := density.map (·.val)
       (∀ code unit, badMemory f u n = some (code, unit) →
         ∃ t, exec (.bringupStepEnd x) s = .next t ∧ failed t code unit) ∧
       (badMemory f u n = none → ∃ t, exec (.bringupStepEnd x) s = .next t ∧ at_ t 5 ∧ 
         t.dev.memRate = commonRate (rates.map fun p => p.map (·.val)) ∧ t.dev.memDensity = n.getD 0 0 ∧ ∀ c, c < 128 → (t.chan c).trained = true)) ∧
     (s.dev.step = 5 → ∃ t, exec (.bringupStepEnd .plain) s = .next t ∧ at_ t 6 ∧ t.dev.memValid = true ∧
       t.mem.dram = s.mem.dram) ∧
     (s.dev.step = 6 → pickSlot (s.slotFw false) (s.slotFw true) = none →
       ∃ t, exec (.bringupStepEnd .plain) s = .next t ∧ t.dev.state = .fwWait ∧ t.dev.step = 6) ∧
     (s.dev.step = 6 → pickSlot (s.slotFw false) (s.slotFw true) ≠ none →
       ∃ t, exec (.bringupStepEnd .plain) s = .next t ∧ t.dev.fwRunning = true ∧
         (pickSlot (s.slotWhole false) (s.slotWhole true) = none → t.dev.state = .imageWait) ∧
         (pickSlot (s.slotWhole false) (s.slotWhole true) ≠ none → at_ t 7)) ∧
     (s.dev.step = 7 → ∃ t, exec (.bringupStepEnd .plain) s = .next t ∧ at_ t 8 ∧
       ∀ i, i < 64 → Tbl.get 0 t.fab.routes i = s.whole.routes.getD i 0) ∧
     (s.dev.step = 8 → ∃ t, exec (.bringupStepEnd .plain) s = .next t ∧ t.dev.state = .ready ∧
       t.flt.mask = s.whole.errMaskInit ∧ (s.dev.resetCause = 2 → t.dev.resetDone = true ∧ t.dev.lastDomain = 6) ∧ ∀ i, i < 256 → (t.slice i).state =
         (if (Tbl.get {} s.whole.slices i).enabled then .active else .off))) ∧
     (stepLimit s.dev.step < s.dev.ticks - s.dev.stepTime - s.dev.stepWaited →
       (∃ t, exec .bringupStepTimeout s = .next t ∧ failed t 5 s.dev.step) ∧
       ∀ x, ∃ t, exec (.bringupStepEnd x) s = .next t ∧ failed t 5 s.dev.step)) ∧
  (∀ (s : State) (port : Bool),
     (s.powered = true → s.dev.perstHold = false →
       ∃ t, exec (.pcieLinkUp port) s = .next t ∧ t.linkUp port = true ∧ t.linkUp (!port) = s.linkUp (!port) ∧
         s.sameBut t [.dev]) ∧
     (∀ lost, s.linkUp port = true →
       ∃ t, exec (.pcieLinkDown port lost) s = .next t ∧ t.linkUp port = false ∧ t.linkUp (!port) = s.linkUp (!port) ∧
         (s.reqs = [] → lost = [] → t.mem = s.mem ∧ t.host = s.host ∧
           (∀ o, s.dev.imageOp = some o → o.port = port → t.dev.imageBusy = false ∧ t.dev.imageResult = irFetch) ∧
           (∀ o, s.dev.fwOp = some o → o.port = port → t.dev.fwBusy = false ∧ t.dev.fwResult = irFetch) ∧
           (s.dev.fillBusy = true → s.dev.fillPort = port → t.dev.fillBusy = false ∧ t.dev.fillResult = 4) ∧
           (s.mig.copyBusy = true → s.mig.copyPort = port → mcPoison s.mig.copyCtl.toNat = false →
             t.mig.copyBusy = false))))

/-! ## Images, firmware and fuses -/

/-- Image operations (R44, R46, R48, R49, R54): a write starts one at most; it fetches, checks and takes effect, or
fails with its RESULT and OFFSET, and the slice of a failed apply returns to its prior state. COMPLETES: APPLY_SLICE,
LOAD_WHOLE, STORE_SLOT, IMAGE_OPERATION_FINISH. -/
def Obligations.ImageOperations : Prop :=
  ∀ s : State, s.imageRegs = true →
    let fails := fun (t : State) (op slice : Nat) (bad : Bad) =>
      t.dev.imageBusy = false ∧ t.dev.imageDone = true ∧ t.dev.imageResult = bad.code ∧ t.dev.imageOffset = bad.off ∧
      t.dev.imageLastOp = op ∧ t.whole = s.whole ∧ t.nv.flash = s.nv.flash ∧
      (op = 1 → (t.slice slice) = { s.slice slice with state := (s.slice slice).prior }) ∧
      ∀ k, (op = 1 → k ≠ slice) → t.slice k = s.slice k
    let req := fun (op slice : Nat) (b port : Bool) => ({ op := op, slice := slice, slotB := b, port := port
                                                          addr := s.dev.imageAddr, len := s.dev.imageLen } : ImageOp)
    (s.dev.imageBusy = true → ∀ (i : BitVec 8) (b port : Bool),
      let overran := Host.Outcome.next { s with dev := { s.dev with imageOverrun := true } }
      exec (.applySlice i port) s = overran ∧ exec (.loadWhole port) s = overran ∧ exec (.storeSlot b port) s = overran) ∧
    (s.dev.imageBusy = false → badImgLen s.dev.imageLen = false →
      (∀ (i : BitVec 8) (port : Bool), s.ready = true →
        ((s.slice i.toNat).state = .off ∨ (s.slice i.toNat).state = .drained) →
        exec (.applySlice i port) s = .next (({ s with dev := { s.dev with
            imageBusy := true, imageOp := some (req 1 i.toNat false port) } }.updSlice i.toNat fun v =>
          { v with prior := v.state, state := .applying }).breakInbound i.toNat)) ∧
      (∀ port, s.dev.state = .imageWait → exec (.loadWhole port) s = .next { s with dev := { s.dev with
        imageBusy := true, imageOp := some (req 2 0 false port) } }) ∧
      (∀ b port, exec (.storeSlot b port) s = .next { s with dev := { s.dev with
        imageBusy := true, imageOp := some (req 3 0 b port) } })) ∧
    (s.dev.imageBusy = false → ∀ (i : BitVec 8) (port : Bool),
      (s.ready = false ∨ ((s.slice i.toNat).state ≠ .off ∧ (s.slice i.toNat).state ≠ .drained)) →
      exec (.applySlice i port) s = .next (s.imageDone 1 i.toNat (some { code := irWrongState }))) ∧
    (s.dev.imageBusy = false → s.dev.state ≠ .imageWait → ∀ port,
      exec (.loadWhole port) s = .next (s.imageDone 2 0 (some { code := irWrongState }))) ∧
    (∀ (o : ImageOp) (reply : HostReply) (ok : Bool), s.dev.imageOp = some o →
      let go := exec (.imageOperationFinish reply ok) s
      (s.fetchedBytes o reply = none → ∃ t, go = .next t ∧ fails t o.op o.slice { code := irFetch }) ∧
      (∀ b, s.fetchedBytes o reply = some b →
        (o.op = 1 → ∀ e, s.applyCheck o.slice b o.len = some e → ∃ t, go = .next t ∧ fails t 1 o.slice e) ∧
        (o.op = 1 → s.applyCheck o.slice b o.len = none → ∃ t, go = .next t ∧ t.dev.imageResult = 0 ∧
          t.dev.imageBusy = false ∧ t.dev.imageDone = true ∧ t.dev.imageOffset = 0xFFFFFFFF ∧
          (t.slice o.slice).defn = defOf b o.slice ∧ (t.slice o.slice).descBad = false ∧
          (t.slice o.slice).state = (if (defOf b o.slice).enabled then .drained else .off) ∧
          ∀ k, k ≠ o.slice → t.slice k = s.slice k) ∧
        (o.op ≠ 1 → ∀ e, wholeCheck s.nv s.density b (some o.len) = some e →
          ∃ t, go = .next t ∧ fails t o.op o.slice e) ∧
        (o.op = 2 → wholeCheck s.nv s.density b (some o.len) = none → ∃ t, go = .next t ∧ t.whole = wholeOf b 2 ∧
          t.dev.imageResult = 0 ∧ t.dev.state = .bringup ∧ t.dev.step = 7) ∧
        (o.op = 3 → wholeCheck s.nv s.density b (some o.len) = none → s.whole.loadedFrom = portBit o.slotB →
          ∃ t, go = .next t ∧ fails t 3 o.slice { code := irActiveSlot }) ∧
        (o.op = 3 → wholeCheck s.nv s.density b (some o.len) = none → s.whole.loadedFrom ≠ portBit o.slotB → ok = true →
          s.nv.journal.worn (2 + portBit o.slotB) = false →
          ∃ t, go = .next t ∧ t.dev.imageResult = 0 ∧ t.whole = s.whole ∧ t.nv.flash = Tbl.set [] s.nv.flash
            (2 + portBit o.slotB) (storedArea (Tbl.get [] s.nv.flash (2 + portBit o.slotB)) b))))

/-- Firmware operations (R67, R68, R69, R85). A STORE_SLOT outside READY ends WRONG_STATE by the model's choice
(notes/assumptions/49.md). COMPLETES: FW_LOAD, FW_STORE_SLOT, FIRMWARE_OPERATION_FINISH. -/
def Obligations.FirmwareOperations : Prop :=
  ∀ s : State, s.imageRegs = true →
    let ends := fun code : Nat => Host.Outcome.next (s.fwDone code)
    let req := fun (op : Nat) (b port : Bool) => ({ op := op, slice := 0, slotB := b, port := port
                                                    addr := s.dev.fwAddr, len := s.dev.fwLen } : ImageOp)
    (∀ b port, s.dev.fwBusy = true →
      exec (.fwLoad port) s = .next { s with dev := { s.dev with fwOverrun := true } } ∧
      exec (.fwStoreSlot b port) s = .next { s with dev := { s.dev with fwOverrun := true } }) ∧
    (∀ port, s.dev.fwBusy = false → s.dev.state ≠ .fwWait → exec (.fwLoad port) s = ends irWrongState) ∧
    (∀ b port, s.dev.fwBusy = false → s.ready = false → exec (.fwStoreSlot b port) s = ends irWrongState) ∧
    (s.dev.fwBusy = false → badFwLen s.dev.fwLen = false →
      (∀ port, s.dev.state = .fwWait → exec (.fwLoad port) s = .next { s with dev := { s.dev with
        fwBusy := true, fwOp := some (req 1 false port) } }) ∧
      (∀ b port, s.ready = true → exec (.fwStoreSlot b port) s = .next { s with dev := { s.dev with
        fwBusy := true, fwOp := some (req 2 b port) } })) ∧
    (∀ (o : ImageOp) (reply : HostReply) (ok : Bool), s.dev.fwOp = some o →
      let go := exec (.firmwareOperationFinish reply ok) s
      (s.fetchedBytes o reply = none → go = ends irFetch) ∧
      (∀ b, s.fetchedBytes o reply = some b →
        (∀ e, firmwareCheck s.nv b (some o.len) = some e → go = ends e.code) ∧
        (firmwareCheck s.nv b (some o.len) = none → o.op = 1 → ∃ t, go = .next t ∧ t.dev.fwRunning = true ∧
          t.dev.fwHost = true ∧ t.dev.fwVersion = BitVec.ofNat 64 (fwVersionOf b) ∧ t.dev.fwResult = 0 ∧
          t.dev.fwBusy = false ∧ (t.dev.state = .imageWait ∨ (t.dev.state = .bringup ∧ t.dev.step = 7))) ∧
        (firmwareCheck s.nv b (some o.len) = none → o.op ≠ 1 → s.fwActive o.slotB = true → go = ends irActiveSlot) ∧
        (firmwareCheck s.nv b (some o.len) = none → o.op ≠ 1 → s.fwActive o.slotB = false → ok = true →
          s.nv.journal.worn (portBit o.slotB) = false → ∃ t, go = .next t ∧ t.dev.fwResult = 0 ∧
            t.dev.fwBusy = false ∧ t.dev.fwRunning = s.dev.fwRunning ∧ t.nv.flash = Tbl.set [] s.nv.flash
              (portBit o.slotB) (storedArea (Tbl.get [] s.nv.flash (portBit o.slotB)) b))))

/-- Slice states (R42, R43, R321): DRAIN from ACTIVE, SLICE_DRAINED once nothing of the slice runs, RESUME from
DRAINED unless its descriptor is bad; WRONG_STATE otherwise. COMPLETES: DRAIN, RESUME, SLICE_DRAINED. Fuse writes
(R39, R60, R319, R331): revocations and the floor, the field-repair entries, and a failed blow that uses its slot up.
COMPLETES: REVOKE, RAISE_FLOOR, FUSE_BLOW_DONE, FLT_REPAIR_GO. -/
def Obligations.SliceStatesAndFuses : Prop :=
  (∀ (s : State) (i : BitVec 8), s.ready = true →
     let v := s.slice i.toNat
     let wrong := Host.Outcome.next { s with dev := { s.dev with sliceWrong := true } }
     (v.state = .active → exec (.drain i) s = .next (s.updSlice i.toNat fun v => { v with state := .draining })) ∧
     (v.state ≠ .active → exec (.drain i) s = wrong) ∧
     (v.state = .draining → s.quiescent i.toNat = true →
       exec (.sliceDrained i) s = .next (s.updSlice i.toNat fun v => { v with state := .drained })) ∧
     ((v.state ≠ .draining ∨ s.quiescent i.toNat = false) → exec (.sliceDrained i) s = .next s) ∧
     (v.state = .drained → v.descBad = false →
       exec (.resume i) s = .next (s.updSlice i.toNat fun v => { v with state := .active, freezing := none })) ∧
     ((v.state ≠ .drained ∨ v.descBad = true) → exec (.resume i) s = wrong)) ∧
  (∀ s : State, s.ready = true →
     (∀ mask : BitVec 4,
       let gone := s.dev.secRevoke ||| mask.toNat % 16
       ((∃ k, k < 4 ∧ bitAt s.nv.usableKeys k = true ∧ bitAt gone k = false) →
         exec (.revoke 0xA5 mask) s = .next { s with dev := { s.dev with secRevoke := gone } }) ∧
       ((∀ k, k < 4 → bitAt s.nv.usableKeys k = true → bitAt gone k = true) → exec (.revoke 0xA5 mask) s = .next s)) ∧
     (∀ u mask, u ≠ 0xA5 → exec (.revoke u mask) s = .next s ∧ exec (.raiseFloor u) s = .next s) ∧
     (exec (.raiseFloor 0xA5) s = .next { s with dev := { s.dev with
       secFloor := max s.dev.secFloor (min 64 s.whole.secVersion.toNat) } }) ∧
     (∀ u d, u ≠ 0xC5 → exec (.fltRepairGo u d) s = .next s) ∧
     (∀ d, s.flt.repairBusy = true → exec (.fltRepairGo 0xC5 d) s = .next s) ∧
     (∀ d : Fin 8, s.flt.repairBusy = false → 64 ≤ s.repairSlots d.val →
       exec (.fltRepairGo 0xC5 d) s = .next { s with flt := { s.flt with repairFull := true } }) ∧
     (∀ d : Fin 8, s.flt.repairBusy = false → s.repairSlots d.val < 64 →
       exec (.fltRepairGo 0xC5 d) s = .next { s with flt := { s.flt with
         repairBusy := true
         blowing := s.flt.blowing ++ [(d.val, BitVec.ofNat 64 (repairEntryWithCrc (s.flt.repairEntry.toNat % 2 ^ 56)),
           true)] } }) ∧
     (∀ d e rest ok, s.flt.blowing = (d, e, true) :: rest →
       ∃ t x, exec (.fuseBlowDone ok) s = .next t ∧ (ok = true → x = e) ∧ (ok = false → x ≠ e) ∧
         Tbl.get [] t.nv.repairs d = Tbl.get [] s.nv.repairs d ++ [x] ∧
         (∀ k, k ≠ d → Tbl.get [] t.nv.repairs k = Tbl.get [] s.nv.repairs k) ∧
         t.nv.keys = s.nv.keys ∧ t.nv.revoked = s.nv.revoked ∧ t.nv.floor = s.nv.floor ∧ t.flt.blowing = rest ∧
         t.flt.repairBusy = false ∧ (ok = true → t.flt.repairDone = true) ∧ (ok = false → t.flt.repairFailed = true)) ∧
     (s.flt.blowing = [] → ∃ t, exec (.fuseBlowDone true) s = .next t ∧
       t.nv.revoked = (s.nv.revoked ||| s.dev.secRevoke) ∧ t.nv.floor = max s.nv.floor s.dev.secFloor ∧
       t.nv.keys = s.nv.keys ∧ t.nv.repairs = s.nv.repairs))

/-- The manager's fills and copies (R261, R267, R366, R373): the checks, one at a time, the work at the end, and its
RESULT. COMPLETES: CFG_FILL, FILL_DONE, MIG_COPY, MIG_COPY_DONE. -/
def Obligations.FillsAndCopies : Prop :=
  ∀ (s : State) (v : W64) (port : Bool), s.ready = true →
    let go := bitAt v.toNat 63
    (go = false → exec (.cfgFill v port) s = .next s) ∧
    (go = true → s.dev.fillBusy = true →
      exec (.cfgFill v port) s = .next { s with dev := { s.dev with fillOverrun := true } }) ∧
    (go = true → s.dev.fillBusy = false → ∀ r, s.fillCheck v.toNat s.dev.fillDst.toNat = .inl r →
      exec (.cfgFill v port) s = .next (s.fillEnd r)) ∧
    (go = true → s.dev.fillBusy = false → ∀ d, s.fillCheck v.toNat s.dev.fillDst.toNat = .inr d →
      exec (.cfgFill v port) s = .next { s with dev := { s.dev with
        fillBusy := true, fillCtl := v, fillPort := port
        fillFrom := (s.dev.fillSrc.toNat, s.dev.fillDst.toNat) } }) ∧
    (s.dev.fillBusy = true → ∀ reply dpa, s.fillCheck s.dev.fillCtl.toNat s.dev.fillFrom.2 = .inr dpa →
      (s.hostData s.dev.fillPort reply = none → exec (.fillDone reply) s = .next (s.fillEnd 4)) ∧
      ∀ b, s.hostData s.dev.fillPort reply = some b →
        let f : State → State := fun u =>
          let w := writeLines (portPlace s.dev.fillPort) true b dpa (fillLen s.dev.fillCtl.toNat / 128) 0
            (u.inClass (fillClass s.dev.fillCtl.toNat))
          w.1.fillEnd (if w.2 = .ok then 0 else 5)
        s.goesThrough f → exec (.fillDone reply) s = .next (s.through f)) ∧
    (s.dev.fillBusy = true → ∀ reply r, s.fillCheck s.dev.fillCtl.toNat s.dev.fillFrom.2 = .inl r →
      exec (.fillDone reply) s = .next (s.fillEnd r)) ∧
    (s.mig.copyBusy = true →
      exec (.migCopy v port) s = .next { s with mig := { s.mig with copyOverrun := true } }) ∧
    (s.mig.copyBusy = false → go = false → exec (.migCopy v port) s = .next s) ∧
    (s.mig.copyBusy = false → go = true →
      let src := s.mig.copySrc.toNat
      let dst := s.mig.copyDst.toNat
      let z := { s with mig := { s.mig with copyPoisoned := 0 } }
      (s.copyOk v.toNat src dst = false → exec (.migCopy v port) s = .next (z.copyEnd 1)) ∧
      (s.copyOk v.toNat src dst = true → exec (.migCopy v port) s = .next { z with mig := { z.mig with
        copyBusy := true, copyCtl := v, copyPort := port, copyFrom := (src, dst) } })) ∧
    (s.mig.copyBusy = true → s.copyOk s.mig.copyCtl.toNat s.mig.copyFrom.1 s.mig.copyFrom.2 = false → ∀ reply,
      exec (.migCopyDone reply) s = .next (s.copyEnd 1)) ∧
    (s.mig.copyBusy = true → s.copyOk s.mig.copyCtl.toNat s.mig.copyFrom.1 s.mig.copyFrom.2 = true → ∀ reply,
      let c := s.mig.copyCtl.toNat
      let n := mcLen c / 128
      let works := fun work : State → State × CopyEnd =>
        let f : State → State := fun u => (work (u.inClass 7)).1.copyEnd (if (work (u.inClass 7)).2 = .ok then 0 else 3)
        s.goesThrough f → exec (.migCopyDone reply) s = .next (s.through f)
      (mcPoison c = true → works (copyPoison s.mig.copyFrom.2 n 0)) ∧
      (mcPoison c = false → s.hostData s.mig.copyPort reply = none →
        exec (.migCopyDone reply) s = .next ((s.inClass 7).copyEnd 2)) ∧
      (mcPoison c = false → ∀ b, s.hostData s.mig.copyPort reply = some b →
        (mcToDevice c = true → works (copyIn s.mig.copyPort (mcElide c) b s.mig.copyFrom.2 n 0)) ∧
        (mcToDevice c = false → works (copyOut (mcSlice c) s.mig.copyPort s.mig.copyFrom.1 s.mig.copyFrom.2 n 0))))

/-! ## Power and management -/

/-- Unit power (R289, R298, R288): a bay or port is drained and switched off, or powered and reset; other requests
are refused, and a request for a unit whose split is open is held. COMPLETES: POWER_ON, POWER_OFF, UNIT_POWER,
PORT_DRAIN_TIMEOUT. Splits (R288): SPLIT_CHECK reports a unit whose data and management state differ, once; the
reprobe ends it as Table 12.9 says, and carries out the requests held behind it. COMPLETES: SPLIT_CHECK,
SPLIT_REPROBE. -/
def Obligations.UnitPower : Prop :=
  (∀ (s : State) (u : BitVec 12) (on : Bool), s.ready = true →
     let go := fun p : Bool => if p then exec (.powerOn u) s else exec (.powerOff u) s
     (s.plb.failover = true → ∀ p, go p = .next { s with plb := { s.plb with heldOps := s.plb.heldOps ++ [.power p u] } }) ∧
     (s.plb.failover = false →
       (s.mgmtState u.toNat = none → ∀ p, go p = .next { s with plb := { s.plb with unitRefused := true } }) ∧
       (s.plb.openSplits.contains u.toNat = false → s.mgmtState u.toNat = some .on → go true = .next { s with plb := { s.plb with unitRefused := true } }) ∧
       (s.plb.openSplits.contains u.toNat = false → s.mgmtState u.toNat = some .off → go false = .next { s with plb := { s.plb with unitRefused := true } }) ∧
       (s.plb.openSplits.contains u.toNat = true → (s.mgmtState u.toNat).isSome = true →
         ∀ p, go p = .next { s with plb := { s.plb with heldPower := s.plb.heldPower ++ [(u.toNat, p)] } }) ∧
       (∀ b : Fin 48, u.toNat = b.val → s.plb.openSplits.contains u.toNat = false →
         ((s.bay b.val).mgmt = .off → s.powered = true → (s.bay b.val).unit ≠ .resetting →
           s.dieState (dieOfBay b.val) ≠ .resetting →
           ∃ t, go true = .next t ∧ (t.bay b.val).mgmt = .on ∧ (t.bay b.val).unit = .resetting ∧
             (t.bay b.val).powering = true) ∧
         ((s.bay b.val).mgmt = .on → (s.bay b.val).idle = true → (s.bay b.val).unit ≠ .resetting → s.cmds = [] →
           ∃ t, go false = .next t ∧ (t.bay b.val).mgmt = .off ∧ (t.bay b.val).unit = .down ∧
             (t.bay b.val).l1 = [] ∧ (t.bay b.val).scratch = [] ∧ t.plb.unitDone = true) ∧
         ((s.bay b.val).mgmt = .draining → go false = .next s)) ∧
       (∀ p : Fin 16, u.toNat = unitPort p.val → s.plb.openSplits.contains u.toNat = false →
         (s.port p.val).mgmt = .on → (s.port p.val).unit = .up → s.sweld.outs = [] → s.sweld.ins = [] →
         ∃ t, go false = .next t ∧ (t.port p.val).mgmt = .off ∧ (t.port p.val).unit = .down ∧
           (t.port p.val).state = .off ∧ t.plb.unitDone = true) ∧
       exec (.unitPower on u) s = .next ((s.answer 0 []).powerRequest u.toNat on)) ∧
     (∀ p : Fin 16, (s.port p.val).unit = .up → ∀ t0, (s.port p.val).draining = some t0 →
       (s.time < t0 + 64000000 → exec (.portDrainTimeout p) s = .next s) ∧
       (t0 + 64000000 ≤ s.time →
         ∃ t, exec (.portDrainTimeout p) s = .next t ∧ (t.port p.val).draining = none ∧
           (s.sweld.outs = [] → s.sweld.ins = [] → (t.port p.val).unit = .down ∧ (t.port p.val).mgmt = .off)))) ∧
  (∀ s : State, s.ready = true → s.plb.failover = false →
     ((∀ u ∈ splitUnits, s.isSplit u = false) → s.plb.openSplits = [] → exec .splitCheck s = .next s) ∧
     (∀ u, s.isSplit u = true →
       let t := s.findSplit u
       t.plb.openSplits = s.plb.openSplits ++ [u] ∧ t.plb.lastUnit = u ∧ t.plb.splits = satAdd 32 s.plb.splits 1) ∧
     (∀ (u : BitVec 12) (answers powered : Bool), s.plb.openSplits.contains u.toNat = false →
       exec (.splitReprobe u answers powered) s = .next s) ∧
     (∀ (u : BitVec 12), s.plb.openSplits.contains u.toNat = true → s.isSplit u.toNat = true →
       let n := u.toNat
       (s.mgmtState n = some .on → ∀ p,
         exec (.splitReprobe u true p) s = .next ((s.resetUnit n).closeSplit n) ∧
         exec (.splitReprobe u false p) s
           = .next (((s.setMgmt n .failed).raise fcUnitFailed { unit := n }).closeSplit n)) ∧
       (s.mgmtState n ≠ some .on →
         exec (.splitReprobe u true true) s = .next ((s.setMgmt n .on).closeSplit n) ∧
         (∀ a p, (a = false ∨ p = false) → s.unitIdle n = true → exec (.splitReprobe u a p) s
           = .next ((((s.setUnpowered n).raise fcUnitFailed { unit := n }).resetUnit n).closeSplit n)) ∧
         (∀ a p, (a = false ∨ p = false) → s.unitIdle n = false → exec (.splitReprobe u a p) s = .next s))))

/-- The plumb controller's reads (R86, R287, R297) answer and change nothing else, but that READ_FAULT_SUMMARY over
SMBus releases SMB_ALERT_N (over which bus a message comes is open where both serve, notes/assumptions/35.md); an
unknown message answers 0xFF; ENTDAA gives the I3C address (R377). COMPLETES: GET_DEVICE_STATE, GET_UNIT_STATE,
READ_TELEMETRY, READ_FAULT_SUMMARY, UNKNOWN_PLUMB_COMMAND, ENTDAA. STAGE_FLASH (R287): an image or firmware that
passes its checks is written to its area; one that fails them, or names the active slot, is not, and the status is
its RESULT code (the model's choice, notes/assumptions/35.md). COMPLETES: STAGE_FLASH. Failover (R79): management
operations given meanwhile are held, in order, and follow it. COMPLETES: PLUMB_FAILOVER. -/
def Obligations.PlumbCommands : Prop :=
  (∀ s : State, s.pins.pwrGood = true →
     let answers := fun (status : Nat) (b : Bytes) => { s with plb := { s.plb with answer := (status, b) } }
     exec .getDeviceState s = .next (answers 0 (leBytes 8 (deviceStateWord s))) ∧
     exec .getUnitState s = .next (answers 0 (unitStateBytes s)) ∧
     exec .readTelemetry s = .next (answers 0 (telemetryBytes s)) ∧
     (∃ t, exec .readFaultSummary s = .next t ∧ s.sameBut t [.plb, .free] ∧
       (t.plb = { s.plb with smbAlert := t.plb.smbAlert, answer :=
         (0, leBytes 8 (fltCountsWord s) ++ s.latest 0 ++ s.latest 1 ++ s.latest 2) }) ∧
       (s.plb.i3cAddr = none → t.plb.smbAlert = false) ∧ (s.plb.smbAlert = false → t.plb.smbAlert = false)) ∧
     (∀ code ok, (ok = false ∨ code.toNat = 0 ∨ 8 < code.toNat) →
       exec (.unknownPlumbCommand code ok) s = .next (answers 0xFF [])) ∧
     (∀ a, s.powered = true → s.dev.perstHold = false →
       exec (.entdaa a) s = .next { s with plb := { s.plb with i3cAddr := some a, ibiMissed := 0 } })) ∧
  (∀ (s : State) (area : Fin 4) (b : Bytes), s.ready = true → s.plb.failover = false →
     let bad := if area.val < 2 then badFwLen b.length else badImgLen b.length
     let check := if area.val < 2 then firmwareCheck s.nv b (some b.length) else wholeCheck s.nv s.density b (some b.length)
     let active := if area.val < 2 then s.fwActive (decide (area.val = 1)) else decide (s.whole.loadedFrom = area.val - 2)
     let answered := fun code : Nat => Host.Outcome.next (s.answer code [])
     (bad = true → ∀ ok, exec (.stageFlash area b ok) s = answered irFetch) ∧
     (bad = false → ∀ e, check = some e → ∀ ok, exec (.stageFlash area b ok) s = answered e.code) ∧
     (bad = false → check = none → active = true → ∀ ok, exec (.stageFlash area b ok) s = answered irActiveSlot) ∧
     (bad = false → check = none → active = false → s.nv.journal.worn area.val = false →
       ∃ t, exec (.stageFlash area b true) s = .next t ∧ t.plb.answer = (0, []) ∧
         t.nv.flash = Tbl.set [] s.nv.flash area.val (storedArea (Tbl.get [] s.nv.flash area.val) b) ∧
         t.nv.keys = s.nv.keys ∧ t.nv.floor = s.nv.floor ∧ s.sameBut t [.plb, .nv, .dev])) ∧
  (∀ s : State, s.powered = true →
     (s.plb.failover = false → exec (.plumbFailover false) s
       = .next (({ s with plb := { s.plb with failover := true } }).raise fcFailover { unit := unitPlumb false })) ∧
     (s.plb.failover = true →
       exec (.plumbFailover false) s = .next s ∧
       (∀ w, exec (.setPowerLimit w) s
         = .next { s with plb := { s.plb with heldOps := s.plb.heldOps ++ [.limit w] } }) ∧
       (∀ area b ok, exec (.stageFlash area b ok) s
         = .next { s with plb := { s.plb with heldOps := s.plb.heldOps ++ [.stage area b ok] } }) ∧
       (∀ on u, exec (.unitPower on u) s
         = .next { s with plb := { s.plb with heldOps := s.plb.heldOps ++ [.unitPower on u] } }) ∧
       exec .plumbPackageReset s = .next { s with plb := { s.plb with heldOps := s.plb.heldOps ++ [.packageReset] } } ∧
       (∀ v : W32, s.ready = true → exec (.plbPowerLimitWrite v) s
         = .next { s with plb := { s.plb with heldOps := s.plb.heldOps ++ [.managerLimit (bitsOf v.toNat 10 0)] } }) ∧
       (∀ reg acked oc, exec (.vrAlert reg acked oc) s
         = .next { s with plb := { s.plb with heldOps := s.plb.heldOps ++ [.alert reg acked oc] } }) ∧
       exec (.plumbFailover true) s = .next (s.plb.heldOps.foldl State.performHeld
         { s with plb := { s.plb with failover := false, heldOps := [] } })) ∧
     (s.plb.failover = false → exec (.plumbFailover true) s = .next s))

/-- The power loop (R386, R391), PROCHOT_N, over-current and the thermal trigger (R385, R388, R389). COMPLETES:
PLB_POWER_LIMIT_WRITE, SET_POWER_LIMIT, POWER_LOOP_TICK, PROCHOT_ASSERT, VR_ALERT, THERMAL_READ. -/
def Obligations.PowerLoop : Prop :=
  ∀ s : State, s.powered = true →
    (∀ v : W32,
      let w := v.toNat % 2048
      (s.ready = true → s.plb.failover = false → 300 ≤ w → w ≤ 1150 →
        exec (.plbPowerLimitWrite v) s = .next { s with plb := { s.plb with mgrLimit := w } }) ∧
      ((s.ready = false ∨ s.plb.failover = false ∧ (w < 300 ∨ 1150 < w)) → exec (.plbPowerLimitWrite v) s = .next s)) ∧
    (∀ w : BitVec 16, s.plb.failover = false → 300 ≤ w.toNat → w.toNat ≤ 1150 →
      exec (.setPowerLimit w) s = .next { s with plb := { s.plb with answer := (0, []), plinthLimit := w.toNat } }) ∧
    (∀ w : BitVec 16, s.plb.failover = false → (w.toNat < 300 ∨ 1150 < w.toNat) →
      ∃ t, exec (.setPowerLimit w) s = .next t ∧ t.plb.plinthLimit = s.plb.plinthLimit ∧ s.sameBut t [.plb, .free]) ∧
    (∀ x : PowerSense, (s.time % 10000 ≠ 0 ∨ s.plb.lastLoop = some s.time) →
      exec (.powerLoopTick x) s = .next { s with pins := { s.pins with prochotN := x.prochotN } }) ∧
    (∀ x : PowerSense, s.time % 10000 = 0 → s.plb.lastLoop ≠ some s.time →
      ∃ t, exec (.powerLoopTick x) s = .next t ∧ s.sameBut t [.plb, .pins] ∧
        t.pins = { s.pins with prochotN := x.prochotN } ∧ t.plb.estimates.head? = some x.watts ∧
        t.plb.mgrLimit = s.plb.mgrLimit ∧ t.plb.plinthLimit = s.plb.plinthLimit ∧
        (s.plb.overCurrentUntil ≤ s.time → x.prochotN = true →
          ((s.powerLimit < x.watts ∨ s.plb.thermal = true) → t.plb.level = min 88 (s.plb.level + 1)) ∧
          (x.watts + 25 < s.powerLimit → s.plb.thermal = false → t.plb.level = s.plb.level - 1) ∧
          (x.watts ≤ s.powerLimit → s.powerLimit ≤ x.watts + 25 → s.plb.thermal = false → t.plb.level = s.plb.level)) ∧
        (x.prochotN = false → s.plb.level ≤ 88 → 32 ≤ t.plb.level) ∧
        (s.time < s.plb.overCurrentUntil → t.plb.level = 88)) ∧
    exec .prochotAssert s = .next { s with pins := { s.pins with prochotN := false }
                                           plb := { s.plb with level := max 32 s.plb.level } } ∧
    (∀ (reg : Fin 5) (acked oc : Bool), s.plb.failover = false →
      exec (.vrAlert reg acked oc) s = .next (if acked && oc then
          { s.vrTransaction reg.val acked with plb := { (s.vrTransaction reg.val acked).plb with
            level := 88, overCurrentUntil := s.time + 10000000 } }
        else s.vrTransaction reg.val acked)) ∧
    (∀ r : List Nat, (∀ i ∈ s.plb.hot, r.getD i 0 < 115) →
      ∃ t, exec (.thermalRead r) s = .next t ∧ t.plb.thermtrip = false ∧ s.sameBut t [.plb] ∧
        (∀ i, i < 104 → (i ∈ t.plb.hot ↔ 115 ≤ r.getD i 0)) ∧
        ((∃ x ∈ r, s.plb.tjThrottle ≤ x) → t.plb.thermal = true) ∧
        ((∀ x ∈ r, x + 2 ≤ s.plb.tjThrottle) → t.plb.thermal = false)) ∧
    (∀ (r : List Nat) (i : Nat), i ∈ s.plb.hot → i < 104 → 115 ≤ r.getD i 0 →
      ∃ t, exec (.thermalRead r) s = .next t ∧ t.plb.thermtrip = true ∧ t.dev.state = .fatal ∧ t.powered = false ∧
        t.linkUp false = false ∧ t.linkUp true = false)

/-! ## Faults -/

/-- A fault's record (R301, R309, R312): with room in its reporter's queue it is appended, and takes the slice's next
SLICE_SEQ; a fifth adds 1 to the newest of the same code and unit, or is lost, which the next record shows. -/
def Obligations.FaultRecorded : Prop :=
  ∀ (s : State) (code : Nat) (f : FaultInfo),
    let r := s.reporter f.carrier
    let t := s.raise code f
    let r' := t.reporter f.carrier
    s.sameBut t [.slices, .cmds, .flt, .dev] ∧
    (r.queue.length < 4 → ∃ e, r'.queue = r.queue ++ [e] ∧ e.code = code ∧ e.time = s.time ∧ e.unit = f.unit ∧
      e.slice = f.slice ∧ e.addr = f.addr ∧ e.count = f.count ∧ e.info0 = BitVec.ofNat 64 f.info0 ∧
      e.info1 = BitVec.ofNat 64 f.info1 ∧ e.lost = r.lostNext ∧ r'.lostNext = false) ∧
    (∀ e, 4 ≤ r.queue.length → r.queue.getLast? = some e → e.code = code → e.unit = f.unit →
      r'.queue = r.queue.dropLast ++ [{ e with count := min 65535 (e.count + 1) }] ∧ r'.lostNext = r.lostNext) ∧
    (∀ e, 4 ≤ r.queue.length → r.queue.getLast? = some e → (e.code ≠ code ∨ e.unit ≠ f.unit) →
      r'.queue = r.queue ∧ r'.lostNext = true ∧ t.flt.reportsLost = satAdd 16 s.flt.reportsLost 1) ∧
    (∀ i, f.slice = some i → tenantCopy code = true → 
      (t.slice i).sliceSeq = if r.queue.length < 4 then (s.slice i).sliceSeq + 1 else (s.slice i).sliceSeq)

/-- The reporting path (R307, R310, R312, R314): a record moves from its reporter, whose pair shows an error, to the
die collector, from there to the package collector, which gives it the next SEQ, and from there to the fault ring.
COMPLETES: FAULT_RECORD_COLLECT, FAULT_RECORD_POST. Reporter pairs (R307, R308): the fourth edge on which both lines
are equal is a stuck path; a differing pair starts the count again. Units without a pair ignore samples. COMPLETES:
REPORTER_PATH. -/
def Obligations.ReportingPath : Prop :=
  (∀ s : State, s.pins.pwrGood = true →
     let shows := fun u : Nat => hasPair u = true → (s.reporter u).err = true
     (∀ (u : BitVec 12) d r rest, dieOfUnit u.toNat = some d → (s.reporter u.toNat).queue = r :: rest → shows u.toNat →
       (Tbl.get [] s.flt.collectors d).length < 64 →
       ∃ t, exec (.faultRecordCollect u false) s = .next t ∧ (t.reporter u.toNat).queue = rest ∧
         Tbl.get [] t.flt.collectors d = Tbl.get [] s.flt.collectors d ++ [r] ∧ s.sameBut t [.flt, .fab] ∧
         t.flt.nextSeq = s.flt.nextSeq) ∧
     (∀ (u : BitVec 12) r rest, dieOfUnit u.toNat = none → (s.reporter u.toNat).queue = r :: rest → shows u.toNat →
       ∀ f, exec (.faultRecordCollect u f) s = .next (((s.updReporter u.toNat fun v =>
         { v with queue := rest, err := !rest.isEmpty, errN := rest.isEmpty }).signalUnits .report u.toNat
           (collectorOf u.toNat)).collect r)) ∧
     (∀ u : BitVec 12, hasPair u.toNat = true → (s.reporter u.toNat).err = false →
       exec (.faultRecordCollect u false) s = .next s) ∧
     (∀ (u : BitVec 12) d r rest, dieOfUnit u.toNat = some d → (s.reporter u.toNat).queue = [] →
       Tbl.get [] s.flt.collectors d = r :: rest →
       exec (.faultRecordCollect u true) s = .next
         (({ s with flt := { s.flt with collectors := Tbl.set [] s.flt.collectors d rest } }).collect r)) ∧
     (∀ r : FaultRec, tenantCopy r.code = false →
       let t := s.assignSeq r
       t.flt.nextSeq = s.flt.nextSeq + 1 ∧ t.flt.lastSeq = s.flt.nextSeq ∧
       t.flt.last.head? = some { r with seq := s.flt.nextSeq } ∧
       (faultClass r.code = 1 → s.flt.held.length < 256 →
         t.flt.held = s.flt.held ++ [{ r with seq := s.flt.nextSeq }])) ∧
     (s.flt.held = [] → exec .faultRecordPost s = .next s) ∧
     (∀ r rest, s.flt.held = r :: rest → s.flt.ring.enable = true → 0 < s.flt.ring.free →
       (s.ringPort s.flt.ring).isSome = true →
       ∃ t, exec .faultRecordPost s = .next t ∧ t.flt.held = rest ∧ t.flt.ring.posted = s.flt.ring.posted + 1 ∧
         t.flt.ring.tail = s.flt.ring.advance.tail)) ∧
  (∀ (s : State) (u : BitVec 12), s.pins.pwrGood = true →
     let n := u.toNat
     let r := s.reporter n
     (hasPair n = false → ∀ a b, exec (.reporterPath u a b) s = .next s) ∧
     (hasPair n = true → r.forced = 0 →
       (∀ e, r.equalEdges < 3 → ∃ t, exec (.reporterPath u e e) s = .next t ∧ s.sameBut t [.flt] ∧
         (t.reporter n).equalEdges = r.equalEdges + 1 ∧ (t.reporter n).queue = r.queue) ∧
       (∀ e, r.equalEdges = 3 → exec (.reporterPath u e e) s = .next
         ((s.updReporter n fun _ => { r with equalEdges := 4, emptyEdges := 0 }).pathFault n (if e then 3 else 0))) ∧
       (r.queue ≠ [] → ∃ t, exec (.reporterPath u true false) s = .next t ∧ s.sameBut t [.flt] ∧
         (t.reporter n).equalEdges = 0 ∧ (t.reporter n).queue = r.queue) ∧
       (∃ t, exec (.reporterPath u false true) s = .next t ∧ s.sameBut t [.flt] ∧ (t.reporter n).equalEdges = 0 ∧
         (t.reporter n).emptyEdges = 0) ∧
       (r.queue = [] → r.emptyEdges = 63 → exec (.reporterPath u true false) s = .next
         ((s.updReporter n fun _ => { r with
           err := true, errN := false, equalEdges := 0, emptyEdges := 64 }).pathFault n 2))))

/-- Buckets, acknowledgement and injection (R316, R317, R318, R330). COMPLETES: BUCKET_LEAK, FLT_ACK, ARM, DISARM,
FORCE_PATH. Faults of logic and bridges (R79, R233, R302, R303): which part stops, what is corrected, and the
sixteenth retry of a link within a second. COMPLETES: LOGIC_FAULT_DETECTED, BRIDGE_FLIT_REPLAY. -/
def Obligations.InjectionAndLogicFaults : Prop :=
  (∀ s : State, s.ready = true →
     ((s.flt.leak = 0 ∨ s.time % (s.flt.leak * 1000000000) ≠ 0 ∨ s.time = s.flt.lastLeak) →
       exec .bucketLeak s = .next s) ∧
     (0 < s.flt.leak → s.time % (s.flt.leak * 1000000000) = 0 → s.time ≠ s.flt.lastLeak → Tbl.rising 0 s.flt.buckets = true →
       ∃ t, exec .bucketLeak s = .next t ∧ s.sameBut t [.flt] ∧ t.flt.lastLeak = s.time ∧
         ∀ u, Tbl.get 0 t.flt.buckets u = Tbl.get 0 s.flt.buckets u - 1) ∧
     (∀ v : W32, ackCovers s.flt.lastSeq v = true → exec (.fltAck v) s = .next { s with flt := { s.flt with
       ack := v, openRecs := s.flt.openRecs.filter fun e : W32 × Nat => !ackCovers v e.1 } }) ∧
     (∀ v : W32, ackCovers s.flt.lastSeq v = false → exec (.fltAck v) s = .next { s with flt := { s.flt with
       ack := s.flt.lastSeq
       openRecs := s.flt.openRecs.filter fun e : W32 × Nat => !ackCovers s.flt.lastSeq e.1 } }) ∧
     (∀ (u : BitVec 12) (k : Fin 8) (m : Byte) (n : BitVec 16),
       let refused := Host.Outcome.next { s with flt := { s.flt with inject := { s.flt.inject with refused := true } } }
       (∀ key, (key ≠ 0x3C ∨ n = 0 ∨ checkerSuits k.val u.toNat = false ∨ s.flt.inject.armed = true) →
         exec (.arm key u k m n) s = refused) ∧
       (n ≠ 0 → checkerSuits k.val u.toNat = true → s.flt.inject.armed = false →
         exec (.arm 0x3C u k m n) s = .next { s with flt := { s.flt with inject := { s.flt.inject with
           armed := true, checker := k.val, unit := u.toNat, mask := m.toNat, remaining := n.toNat } } }) ∧
       (∀ key, key ≠ 0x3C → exec (.disarm key) s = refused ∧ exec (.forcePath key u) s = refused) ∧
       exec (.disarm 0x3C) s = .next { s with flt := { s.flt with inject := { s.flt.inject with
         armed := false, remaining := 0 } } } ∧
       (forceable u.toNat = false → exec (.forcePath 0x3C u) s = refused) ∧
       (forceable u.toNat = true → exec (.forcePath 0x3C u) s = .next (s.updReporter u.toNat fun r =>
         { r with forced := 8 })))) ∧
  (∀ s : State, s.ready = true →
     (∀ d : Fin 8, s.dieState d.val ≠ .up →
       exec (.logicFaultDetected (.onDieLink d)) s = .next s ∧ exec (.logicFaultDetected (.dieLogic d)) s = .next s) ∧
     (∀ d : Fin 8, s.dieState d.val = .up →
       exec (.logicFaultDetected (.onDieLink d)) s = .next (s.dieStop d.val 1) ∧
       exec (.logicFaultDetected (.dieLogic d)) s = .next (s.dieStop d.val 2)) ∧
     (∃ t, exec (.logicFaultDetected .quoinLogic) s = .next t ∧ t.dev.state = .fatal) ∧
     (∃ t, exec (.logicFaultDetected .noPlumb) s = .next t ∧ t.dev.state = .fatal) ∧
     (∀ b, ∃ t, exec (.logicFaultDetected (.bridgeLost b)) s = .next t ∧ t.dev.state = .fatal) ∧
     (∀ d r, exec (.logicFaultDetected (.onDieLinkBit d r)) s
       = .next (s.raise fcLinkCorrected { unit := unitDieCollector d.val, info0 := r.val })) ∧
     (∀ x set, s.dieState (dieOfUcSlice x.toNat) ≠ .up → exec (.logicFaultDetected (.bothTags x set)) s = .next s) ∧
     (∀ x set, s.dieState (dieOfUcSlice x.toNat) = .up →
       exec (.logicFaultDetected (.bothTags x set)) s = .next (s.lostTags x.toNat (set % 1536))) ∧
     (∀ (b : Fin 14) (link : BitVec 7),
       let recent := (link.toNat, s.time) :: (s.bridge b.val).recent.filter fun e : Nat × Nat => decide (s.time < e.2 + 1000000000)
       let t := s.updBridge b.val fun v => { v with retries := satAdd 32 v.retries 1, recent := recent }
       let n := (recent.filter fun e : Nat × Nat => decide (e.1 = link.toNat)).length
       (n < 16 → exec (.bridgeFlitReplay b link) s = .next t) ∧
       (16 ≤ n → exec (.bridgeFlitReplay b link) s = .next (t.failLink b.val link.toNat))))

/-- Scrubbers (R321, R334, R339, R340): what a pass over one item, set or row does where nothing is wrong, when its
meter pays for it, and how a damaged stored copy is mended or a bad descriptor taken out of service. COMPLETES:
DESCRIPTOR_SCRUB, SCRUB_CACHE_SET, SCRUB_LS_ROW. The DRAM scrubber (R336, R337): it waits for its turn, skips what
holds no data, and otherwise reads one line, mends it and moves on. COMPLETES: SCRUB_DRAM_LINE. -/
def Obligations.Scrubbers : Prop :=
  (∀ s : State, s.ready = true →
     (∀ i : BitVec 8,
       let v := s.slice i.toNat
       let d := firstDiff v.copy0 v.copy1 0
       (v.state = .applying → exec (.descriptorScrub i) s = .next s) ∧
       (v.state ≠ .applying → v.copy0 = v.copy1 → copyOk v.defn v.copy0 = true →
         exec (.descriptorScrub i) s = .next s) ∧
       (v.state ≠ .applying → ∀ k, d = some k → copyOk v.defn v.copy0 = true → copyOk v.defn v.copy1 = false →
         exec (.descriptorScrub i) s = .next (s.rewriteCopy i.toNat true k)) ∧
       (v.state ≠ .applying → ∀ k, d = some k → copyOk v.defn v.copy0 = false → copyOk v.defn v.copy1 = true →
         exec (.descriptorScrub i) s = .next (s.rewriteCopy i.toNat false k)) ∧
       (v.state = .active → copyOk v.defn v.copy0 = false → copyOk v.defn v.copy1 = false →
         ∃ t, exec (.descriptorScrub i) s = .next t ∧ (t.slice i.toNat).state = .draining ∧
           (t.slice i.toNat).descBad = true)) ∧
     (∀ x : BitVec 9, (s.ucOffline x.toNat = true ∨ s.dieState (dieOfUcSlice x.toNat) ≠ .up ∨ s.cacheCredit x.toNat < 10000) →
       ∀ a b e, exec (.scrubCacheSet x a b e) s = .next s) ∧
     (∀ x : BitVec 9, s.ucOffline x.toNat = false → s.dieState (dieOfUcSlice x.toNat) = .up →
       10000 ≤ s.cacheCredit x.toNat → s.uc.ways = [] →
       ∃ t, exec (.scrubCacheSet x .none .none none) s = .next t ∧ s.sameBut t [.uc] ∧ t.uc.ways = [] ∧
         t.uc.wayOff = s.uc.wayOff ∧ Tbl.get 0 t.uc.scrubCredit x.toNat = s.cacheCredit x.toNat - 10000 ∧ Tbl.get 0 t.uc.scrubSet x.toNat
           = (let n := Tbl.get 0 s.uc.scrubSet x.toNat + 1; if n < 1536 then n else 0)) ∧
     (∀ b : Fin 48, ((s.bay b.val).mgmt = .off ∨ (s.bay b.val).unit = .resetting ∨ s.rowCredit b.val < 1000) →
       ∀ e k, exec (.scrubLsRow b e k) s = .next s) ∧
     (∀ (b : Fin 48) (k : Fin 256), (s.bay b.val).mgmt ≠ .off → (s.bay b.val).unit ≠ .resetting → 1000 ≤ s.rowCredit b.val →
       let n := (s.bay b.val).scrubRow + 1
       let paid := s.updBay b.val fun v => { v with scrubCredit := s.rowCredit b.val - 1000, meterTime := s.dev.ticks }
       ((s.bay b.val).errs = [] → n < 16384 → exec (.scrubLsRow b .none k) s
         = .next (paid.updBay b.val fun v => { v with scrubRow := v.scrubRow + 1 })) ∧
       ((s.bay b.val).errs = [] → 16384 ≤ n → ∃ t, exec (.scrubLsRow b .none k) s = .next t ∧
         (t.bay b.val).scrubRow = 0 ∧ t.tel.lsPasses = satAdd 32 s.tel.lsPasses 1 ∧ s.sameBut t [.bays, .tel]) ∧
       ∀ e, ∃ t, exec (.scrubLsRow b e k) s = .next t ∧ t.mem = s.mem ∧ t.host = s.host)) ∧
  (∀ (s : State) (c : Fin 128) (errs : List (Nat × Byte)),
     let n := c.val
     let v := s.chan n
     let q := v.scrubPos
     ((s.chanServes n = false ∨ v.repacking = true ∨ v.retraining = true ∨ s.scrubDue n = false) →
       exec (.scrubDramLine c errs) s = .next s) ∧
     (s.chanServes n = true → v.repacking = false → v.retraining = false → s.scrubDue n = true →
       (s.fresh n (s.blockOfLine n q) = true → exec (.scrubDramLine c errs) s = .next (s.scrubMove n)) ∧
       (s.fresh n (s.blockOfLine n q) = false →
         let t := (s.mapCheck n (q / 32)).1
         (t.lineState n q ≠ .written → exec (.scrubDramLine c errs) s = .next (t.scrubMove n)) ∧
         (t.lineState n q = .written →
           let u := t.earnScrub n
           ((u.chan n).scrubCredit < 40000 → exec (.scrubDramLine c errs) s = .next u) ∧
           (40000 ≤ (u.chan n).scrubCredit → exec (.scrubDramLine c errs) s = .next
             (((u.updChan n fun v => { v with scrubCredit := v.scrubCredit - 40000 }).scrubLine n q errs).scrubMove n))))) ∧
     (v.scrubPos + 1 < chanLines s.density → ((s.scrubMove n).chan n).scrubPos = v.scrubPos + 1) ∧
     (chanLines s.density ≤ v.scrubPos + 1 → ((s.scrubMove n).chan n).scrubPos = 0 ∧
       ((s.scrubMove n).chan n).scrubPasses = satAdd 16 v.scrubPasses 1 ∧ ((s.scrubMove n).chan n).scrubStart = s.dev.ticks))

/-! ## Telemetry and migration -/

/-- Telemetry (R346 to R354): snapshots, clears, selections, and the tick. COMPLETES: SNAP, CLEAR, TEL_SEL_WRITE,
TELEMETRY_TICK. Aging (R342): a sample, at most one a second, keeps each domain's margin, the least of its monitors;
a domain with fewer than 60 samples is not judged; no guard-band exceeds 40 mV. COMPLETES: AGING_SAMPLE. -/
def Obligations.Telemetry : Prop :=
  (∀ s : State, s.ready = true →
     (∀ (g c : BitVec 16) (k : Nat), k < 128 →
       let old := Tbl.get {} s.tel.counters k
       ∃ t, exec (.snap g c) s = .next t ∧ s.sameBut t [.tel] ∧
         let new := Tbl.get {} t.tel.counters k
         new.sel = old.sel ∧
         (g.getLsbD (k / 8) = true → new.snap = old.value ∧ new.snapOvf = old.ovf) ∧
         (g.getLsbD (k / 8) = false → new.snap = old.snap ∧ new.snapOvf = old.snapOvf) ∧
         (c.getLsbD (k / 8) = true → new.value = 0 ∧ new.ovf = false) ∧
         (c.getLsbD (k / 8) = false → new.value = old.value ∧ new.ovf = old.ovf)) ∧
     (∀ (g : BitVec 16) (k : Nat), k < 128 →
       let old := Tbl.get {} s.tel.counters k
       ∃ t, exec (.clear g) s = .next t ∧ s.sameBut t [.tel] ∧
         Tbl.get {} t.tel.counters k = if g.getLsbD (k / 8) then { old with value := 0, ovf := false } else old) ∧
     (∀ (g : Fin 16) (i : Fin 8) (v : W64),
       ∃ t, exec (.telSelWrite g i v) s = .next t ∧ s.sameBut t [.tel] ∧
         (∀ k, k ≠ 8 * g.val + i.val → Tbl.get {} t.tel.counters k = Tbl.get {} s.tel.counters k) ∧
         Tbl.get {} t.tel.counters (8 * g.val + i.val)
           = { Tbl.get {} s.tel.counters (8 * g.val + i.val) with sel := v &&& 0x1FFFFFFF }) ∧
     ((s.time % 1000000 ≠ 0 ∨ s.tel.lastTick = some s.time) → exec .telemetryTick s = .next s) ∧
     (s.time % 1000000 = 0 → s.tel.lastTick ≠ some s.time → s.tel.ring.enable = false →
       exec .telemetryTick s = .next { s with tel := { s.tel with lastTick := some s.time, tickSeq := s.tel.tickSeq + 1 } }) ∧
     (s.time % 1000000 = 0 → s.tel.lastTick ≠ some s.time → s.tel.ring.enable = true → s.tel.ring.free = 0 →
       (∃ i, i < 256 ∧ (s.slice i).state ≠ .off) →
       exec .telemetryTick s = .next { s with tel := { s.tel with
         lastTick := some s.time, tickSeq := s.tel.tickSeq + 1, droppedTicks := satAdd 32 s.tel.droppedTicks 1 } }) ∧
     (s.time % 1000000 = 0 → s.tel.lastTick ≠ some s.time →
       ∃ t, exec .telemetryTick s = .next t ∧ t.tel.lastTick = some s.time ∧ t.tel.tickSeq = s.tel.tickSeq + 1)) ∧
  (∀ (s : State) (ms : List (List Nat)) (answers : List Bool), s.powered = true →
     ((s.plb.failover = true ∨ ∃ t0, s.tel.agingAt = some t0 ∧ s.dev.ticks < t0 + 1000000000) →
       exec (.agingSample ms answers) s = .next s) ∧
     (s.plb.failover = false → (∀ t0, s.tel.agingAt = some t0 → t0 + 1000000000 ≤ s.dev.ticks) →
       ∃ t, exec (.agingSample ms answers) s = .next t ∧ s.sameBut t [.tel, .nv, .plb, .dev] ∧
         t.tel.agingAt = some s.dev.ticks ∧
         (∀ d, d < 10 → (Tbl.get {} t.tel.aging d).marginPs = min 255 ((least (ms.getD d [])).getD 255)) ∧
         (∀ d, d < 10 → (Tbl.get {} s.tel.aging d).samples.length < 59 →
           (Tbl.get {} t.tel.aging d).guardMv = (Tbl.get {} s.tel.aging d).guardMv ∧
           (Tbl.get {} t.tel.aging d).exhausted = (Tbl.get {} s.tel.aging d).exhausted) ∧
         (∀ d, d < 10 → (Tbl.get {} s.tel.aging d).guardMv ≤ 40 → (Tbl.get {} t.tel.aging d).guardMv ≤ 40 ∧
           (Tbl.get {} s.tel.aging d).guardMv ≤ (Tbl.get {} t.tel.aging d).guardMv)))

/-- Migration operations (R362, R367, R368, R369, R370, R373): one at a time; logging, marks, freeze, thaw, export
and import with their RESULT codes. COMPLETES: LOG_ON, LOG_OFF, MARK, FREEZE, THAW, MIG_EXPORT, MIG_IMPORT,
SLICE_FROZEN, EXPORT, IMPORT. The state blob (R369, R370): an export writes it at BLOB_ADDR; an import checks it
before it installs anything. COMPLETES: MIGRATION_BLOB_DONE. -/
def Obligations.Migration : Prop :=
  (∀ (s : State) (i : BitVec 8) (port : Bool), s.ready = true →
     let v := s.slice i.toNat
     let n := i.toNat
     let ends := fun (t : State) (op r : Nat) => Host.Outcome.next { t with mig := { t.mig with
       busy := false, done := true, op := none, result := r, lastSlice := n, lastOp := op } }
     let runs := fun (t : State) (op : Nat) (p : Bool) => Host.Outcome.next { t with mig := { t.mig with
       busy := true, op := some (op, n, p, t.mig.blobAddr.toNat) } }
     (s.mig.busy = true →
       let overran := Host.Outcome.next { s with mig := { s.mig with overrun := true } }
       exec (.logOn i) s = overran ∧ exec (.logOff i) s = overran ∧ exec (.mark i) s = overran ∧ exec (.freeze i) s = overran ∧
       exec (.thaw i) s = overran ∧ exec (.migExport i port) s = overran ∧ exec (.migImport i port) s = overran) ∧
     (s.mig.busy = false →
       ((v.logging = true ∨ (v.state ≠ .active ∧ v.state ≠ .draining ∧ v.state ≠ .drained)) →
         exec (.logOn i) s = ends s 1 1) ∧
       (v.logging = false → (v.state = .active ∨ v.state = .draining ∨ v.state = .drained) →
         let k := (s.slices.filter fun e : Nat × Slice => e.2.logging).length
         (4 ≤ k → exec (.logOn i) s = ends s 1 2) ∧
         (k < 4 → ∃ t, exec (.logOn i) s = ends t 1 0 ∧ s.sameBut t [.slices, .mig] ∧
           t.slice n = { v with logging := true, logLost := false, logInvalid := false } ∧
           ∀ j, j ≠ n → t.slice j = s.slice j)) ∧
       (v.logging = false → exec (.logOff i) s = ends s 2 1 ∧ exec (.mark i) s = ends s 3 1) ∧
       (v.logging = true → exec (.logOff i) s = ends (s.updSlice n fun v => { v with logging := false }) 2 0) ∧
       (v.logging = true → s.logRoom = true → ∃ t, exec (.mark i) s = .next t ∧
         t.mig.markSerial = s.mig.markSerial + 1 ∧ t.mig.result = 0 ∧ t.mig.done = true ∧
         (∀ e ∈ t.mig.filters, ∀ f ∈ e.2, f.1 ≠ n)) ∧
       (v.state ≠ .drained → exec (.freeze i) s = ends s 4 1) ∧
       (v.state = .drained → s.holdsBuffer n = true → exec (.freeze i) s = ends s 4 3) ∧
       (v.state = .drained → s.holdsBuffer n = false → v.recordsWait = true → exec (.freeze i) s = ends s 4 4) ∧
       (v.state = .drained → s.holdsBuffer n = false → v.recordsWait = false →
         exec (.freeze i) s = runs (s.updSlice n fun v => { v with freezing := some s.time }) 4 false) ∧
       (v.state = .frozen → exec (.thaw i) s = ends (s.updSlice n fun v => { v with state := .drained }) 6 0 ∧
         exec (.migExport i port) s = runs s 5 port) ∧
       (v.state ≠ .frozen → exec (.thaw i) s = ends s 6 1 ∧ exec (.migExport i port) s = ends s 5 1) ∧
       (v.state ≠ .drained → exec (.migImport i port) s = ends s 7 1) ∧
       (v.state = .drained → s.queuesOff n = false → exec (.migImport i port) s = ends s 7 8) ∧
       (v.state = .drained → s.queuesOff n = true → exec (.migImport i port) s = runs s 7 port)) ∧
     (∀ p a, s.mig.op = some (4, n, p, a) → v.state = .drained → v.reset ≠ .running → ∀ t0, v.freezing = some t0 →
       (s.noInbound n = true → exec (.sliceFrozen i) s = ends (s.updSlice n fun v => { v with
         state := .frozen, freezing := none, timeFrozen := s.time }) 4 0) ∧
       (s.noInbound n = false → s.time < t0 + 64000000 → exec (.sliceFrozen i) s = .next s))) ∧
  (∀ (s : State) (i a : Nat) (port : Bool) (reply : HostReply), s.ready = true →
     let ends := fun (t : State) (op r : Nat) => Host.Outcome.next (t.migEnd op i r)
     (s.mig.op = some (5, i, port, a) →
       (s.hostData port reply = none → exec (.migrationBlobDone reply) s = ends s 5 5) ∧
       (s.hostData port reply ≠ none →
         exec (.migrationBlobDone reply) s = ends (s.hostWrite none a (s.blobOf i)) 5 0)) ∧
     (s.mig.op = some (7, i, port, a) →
       (s.hostData port reply = none → exec (.migrationBlobDone reply) s = ends s 7 5) ∧
       ∀ d, s.hostData port reply = some d →
         let b := bytesAt d 0 0x40000
         let r := scramble (bytesAt b 0x100 0x2BF00)
         (∀ k, s.importFails i = some k → exec (.migrationBlobDone reply) s = ends s 7 k) ∧
         (s.importFails i = none → blobGood b = false → exec (.migrationBlobDone reply) s = ends s 7 6) ∧
         (s.importFails i = none → blobGood b = true → blobFits (s.slice i).defn b r = false →
           exec (.migrationBlobDone reply) s = ends s 7 7) ∧
         (s.importFails i = none → blobGood b = true → blobFits (s.slice i).defn b r = true →
           exec (.migrationBlobDone reply) s = ends (s.installBlob i r (portPlace port)) 7 0)))

/-! ## Sweld -/

/-- The link layer (R268 to R272): training, recovery and its time limit, retry, and what a received flit that is
good, damaged, early or repeated does. COMPLETES: PORT_TRAINED, LINK_RECOVERY, LINK_RECOVERED, RECOVERY_TIMEOUT,
REPLAY_TIMEOUT, MALFORMED_MESSAGE, FLIT_RECEIVED. -/
def Obligations.LinkLayer : Prop :=
  ∀ (s : State) (p : Fin 16),
    let n := p.val
    let v := s.port n
    (∀ lanes pkg far, s.powered = true → v.state = .training → v.unit = .up →
      ∃ t, exec (.portTrained p lanes pkg far) s = .next t ∧
        t.port n = { (v.freshLink).setLanes lanes with
          state := .up, remotePkg := pkg.toNat, remotePort := far.toNat, remoteValid := true } ∧
        (∀ k, k ≠ n → t.port k = s.port k) ∧ s.sameBut t [.sweld]) ∧
    (s.portUp n = true →
      ∃ t, exec (.linkRecovery p) s = .next t ∧ s.sameBut t [.sweld] ∧ t.port n = { v.freshLink with
        state := .recovering, recoverFrom := s.time, recoveries := satAdd 16 v.recoveries 1 } ∧
        t.sweld.outs = s.sweld.outs ∧ t.sweld.ins = s.sweld.ins) ∧
    (∀ lanes, s.powered = true → v.state = .recovering → v.unit = .up → s.sweld.outs = [] → s.sweld.ins = [] → v.aborts = [] →
      ∃ t, exec (.linkRecovered p lanes) s = .next t ∧ s.sameBut t [.sweld] ∧
        t.port n = { (v.freshLink).setLanes lanes with state := .up }) ∧
    (s.powered = true → v.state = .recovering → v.unit ≠ .resetting →
      (s.time < v.recoverFrom + 20000000 → exec (.recoveryTimeout p) s = .next s) ∧
      (v.recoverFrom + 20000000 ≤ s.time → exec (.recoveryTimeout p) s = .next (s.startPort n false))) ∧
    (s.portUp n = true →
      ((v.replay = [] ∨ s.time < v.progress + 2000) → exec (.replayTimeout p) s = .next s) ∧
      (v.replay ≠ [] → v.progress + 2000 ≤ s.time → exec (.replayTimeout p) s = .next (s.resend n)) ∧
      ((∃ f ∈ v.replay, 7 ≤ f.resends) → ((s.resend n).port n).state = .recovering)) ∧
    (∀ mt, s.portUp n = true → exec (.malformedMessage p mt) s = .next
      (({ s with sweld := { s.sweld with malformed := satAdd 16 s.sweld.malformed 1 } }).raise fcMalformed
        { unit := unitPort n, info0 := mt.toNat })) ∧
    (∀ flit fecOk k, s.portUp n = true →
      let s1 := s.updPort n fun v => { v with fecCorrected := satAdd 32 v.fecCorrected k }
      let good := leAt flit 252 4 = (crc32c (flit.take 252)).toNat
      ((fecOk = false ∨ ¬ good) → exec (.flitReceived p flit fecOk k) s = .next (s1.nakOnce n)) ∧
      (fecOk = true → good → (s1.takeHeader n flit).portUp n = true →
        let s2 := s1.takeHeader n flit
        let ahead := (BitVec.ofNat 12 (leAt flit 0 2) - (s2.port n).rxSeq).toNat
        (leAt flit 0 2 / 4096 = 0 → exec (.flitReceived p flit fecOk k) s = .next (s2.pump n)) ∧
        (∀ ty, (ty = 1 ∨ ty = 2) → leAt flit 0 2 / 4096 = ty →
          (ahead = 0 → ∃ t, t = (s2.acceptFlit n (ty == 2) (bytesAt flit 12 240)).pump n ∧
            exec (.flitReceived p flit fecOk k) s = .next (if t.portUp n then t.sendIdle n false else t)) ∧
          (0 < ahead → ahead < 2048 → exec (.flitReceived p flit fecOk k) s = .next (s2.nakOnce n)) ∧
          (2048 ≤ ahead → exec (.flitReceived p flit fecOk k) s = .next (s2.sendIdle n false)))) ∧
      (v.nakSent = true → s.nakOnce n = s))

/-- Beacons (R236, R284): quoin 0's steers the dies at most once in 1 µs; a tray's steps TIME forward only, by more
than 1,000 ns. COMPLETES: TIME_BEACON, BEACON_SEND, BEACON. -/
def Obligations.Beacons : Prop :=
  ∀ (s : State) (p : Fin 16) (time lastRx : W64), s.portUp p.val = true →
    let v := s.port p.val
    (s.fab.beaconAt.any (fun t => decide (s.dev.ticks < t + 1000)) = true → exec .timeBeacon s = .next s) ∧
    (s.fab.beaconAt.any (fun t => decide (s.dev.ticks < t + 1000)) = false →
      ∃ t, exec .timeBeacon s = .next t ∧ s.sameBut t [.fab, .free] ∧ t.fab.beaconAt = some s.dev.ticks) ∧
    (∃ t, exec .beaconSend s = .next t ∧ t.time = s.time ∧ t.mem = s.mem ∧ (t.port p.val).beaconTx = s.time) ∧
    (∃ t, exec (.beacon p time lastRx) s = .next t ∧ s.sameBut t [.time, .sweld] ∧
      (t.time = s.time → (t.port p.val).lastRx = s.time) ∧
      (t.time ≠ s.time → t.sweld.steps = satAdd 16 s.sweld.steps 1 ∧ t.sweld.slewing = false) ∧
      (lastRx.toNat = 0 ∨ v.beaconTx = 0 →
        (s.time + 1000 < time.toNat → t.time = time.toNat ∧ (0 < s.time → (t.port p.val).lastRx = t.time)) ∧
        (time.toNat ≤ s.time + 1000 → t.time = s.time)))

/-- SWD_PEER_CTL (R273, R293): PEER and ACCEPT entries, their checks and PEER_STATUS. COMPLETES: PEER, ACCEPT. -/
def Obligations.PeersAndAccepts : Prop :=
  ∀ (s : State) (i : BitVec 8) (k : Fin 16) (pkg : BitVec 4) (far : BitVec 8) (valid : Bool) (cls : Fin 8) (cq : BitVec 4),
    s.ready = true →
    let v := s.slice i.toNat
    let ends := fun (t : State) (r : Nat) => { t with sweld := { t.sweld with peerDone := true, peerResult := r } }
    let peerEntry : Peer := if valid then { pkg := pkg.toNat, remote := far.toNat, valid := true } else {}
    let acceptEntry : Peer := if valid then
      { pkg := pkg.toNat, remote := far.toNat, valid := true, cls := cls.val, cq := cq.toNat } else {}
    (v.state = .off →
      exec (.peer i k pkg far valid) s = .next (ends s 1) ∧
      exec (.accept i k pkg far valid cls cq) s = .next (ends s 1)) ∧
    (v.state ≠ .off →
      (∃ t, exec (.peer i k pkg far valid) s = .next (ends t 0) ∧
        t = s.updSlice i.toNat fun x => { x with peers := Tbl.set {} x.peers k.val peerEntry }) ∧
      (bitAt v.defn.classMask cls.val = false →
        exec (.accept i k pkg far valid cls cq) s = .next (ends s 2)) ∧
      (bitAt v.defn.classMask cls.val = true → valid = true →
        (∃ e ∈ v.accepts, e.1 ≠ k.val ∧ e.2.valid = true ∧ e.2.pkg = pkg.toNat ∧ e.2.remote = far.toNat) →
        exec (.accept i k pkg far valid cls cq) s = .next (ends s 3)) ∧
      (bitAt v.defn.classMask cls.val = true →
        (valid = false ∨ ∀ e ∈ v.accepts, e.1 = k.val ∨ e.2.valid = false ∨ e.2.pkg ≠ pkg.toNat ∨
          e.2.remote ≠ far.toNat) →
        ∃ t, exec (.accept i k pkg far valid cls cq) s = .next (ends t 0) ∧
          t = s.updSlice i.toNat fun x => { x with accepts := Tbl.set {} x.accepts k.val acceptEntry }))

/-- Opening a stream (R273, R276, R280): an OPEN that passes its checks is acknowledged with the stream held; one
that fails is refused with its reason; what OPEN_ACK and REFUSE do at the sender, and how BUSY is retried. COMPLETES:
OPEN, OPEN_ACK, REFUSE, BUSY_RETRY. -/
def Obligations.StreamsOpen : Prop :=
  ∀ (s : State) (p : Fin 16) (n : BitVec 16), s.portUp p.val = true →
    let k := n.toNat
    let q := p.val
    (∀ b : OpenBody,
      let e := s.acceptFor q b
      let sl := b.dst.toNat
      ((s.inStream q k).isSome = true → exec (.sweldOpen p n b) s = .next (s.sendMsg q mtOpenAck k 0 [])) ∧
      (s.inStream q k = none → (s.port q).mgmt = .on → ∀ r, s.openReason q b e = some r →
        exec (.sweldOpen p n b) s = .next ((s.countRefused sl (r == 7 || r == 8)).sendMsg q mtRefuse k r [])) ∧
      (s.inStream q k = none → (s.port q).mgmt = .on → s.openReason q b e = none → b.arrival = false →
        ∃ i t, exec (.sweldOpen p n b) s = .next (t.sendMsg q mtOpenAck k 0 []) ∧ t = s.setIn q k i ∧
          i.src = b.src.toNat ∧ i.dst = sl ∧ i.dest = b.dest ∧ i.len = b.len ∧ i.flag = b.flag ∧
          i.flagAddr = b.flagAddr ∧ i.tag = b.tag ∧ i.buffer = none ∧ i.landed = 0 ∧ i.applied = false) ∧
      (s.inStream q k = none → (s.port q).mgmt = .on → s.openReason q b e = none → b.arrival = true →
        ∃ i m t, exec (.sweldOpen p n b) s = .next (t.sendMsg q mtOpenAck k 0 []) ∧
          s.freeBufferFor q = some m ∧ t = (s.allocBuffer m sl).setIn q k i ∧ i.buffer = some m)) ∧
    (s.outStream q k = none →
      exec (.openAck p n) s = .next s ∧ ∀ r, exec (.refuse p n r) s = .next s) ∧
    (∀ o, s.outStream q k = some o → o.opened = false →
      exec (.openAck p n) s = .next (s.setOut q k { o with opened := true, busyAt := none }) ∧
      exec (.refuse p n 9) s = .next (s.setOut q k { o with busyAt := some s.time }) ∧
      ∀ r, r ≠ 9 → exec (.refuse p n r) s = .next ((s.delOut q k).refuseSend o.cmd r.toNat)) ∧
    (∀ id o t0, s.streamOf id = some (q, k, o) → o.busyAt = some t0 →
      (o.firstOpen + 1000000 ≤ s.time → exec (.busyRetry id) s = .next ((s.delOut q k).refuseSend id 9)) ∧
      (s.time < o.firstOpen + 1000000 → t0 + 10000 ≤ s.time →
        exec (.busyRetry id) s = .next ((s.setOut q k { o with busyAt := none }).sendOpenMsg q k id
          o.remote)) ∧
      (s.time < o.firstOpen + 1000000 → s.time < t0 + 10000 → exec (.busyRetry id) s = .next s))

/-- Members (R277): a member inside the window lands, in the class of the accept entry, and moves the prefix over
what has landed; one that meets a closed shield breaks the stream; a repeated one is dropped and counted, one out of
range is ignored. LANDED after 64 members or 2 µs, and what it tells the sender (R280). COMPLETES: MEMBER,
LANDED_REPORT, LANDED. The end of a stream (R278, R280, R281): the capstone is held until the members have landed and
applied once; CAP_DONE completes the SEND; CLOSE frees the stream; ABORT breaks it, one of reason 0 at the receiver
(the model's choice, notes/assumptions/41.md). COMPLETES: CAPSTONE, CAPSTONE_APPLY, CAP_DONE, CLOSE, ABORT. -/
def Obligations.StreamData : Prop :=
  (∀ (s : State) (p : Fin 16) (n : BitVec 16), s.portUp p.val = true →
     let k := n.toNat
     let q := p.val
     (s.inStream q k = none → ∀ j d, exec (.member p n j d) s = .next s) ∧
     (∀ i (j : W32) d, s.inStream q k = some i →
       let m := j.toNat - i.landed
       ((j.toNat < i.landed ∨ i.marks.getLsbD m = true) → exec (.member p n j d) s = .next { s with sweld :=
         { s.sweld with duplicates := satAdd 16 s.sweld.duplicates 1 } }) ∧
       (i.landed ≤ j.toNat → i.marks.getLsbD m = false → (1024 ≤ m ∨ membersOf i.len.toNat ≤ j.toNat ∨
         d.length ≠ memberLen i.len.toNat j.toNat) → exec (.member p n j d) s = .next s) ∧
       (i.landed ≤ j.toNat → i.marks.getLsbD m = false → m < 1024 → j.toNat < membersOf i.len.toNat →
         d.length = memberLen i.len.toNat j.toNat →
         let w := (s.begun.countSweld q i.dst d.length false).landBytes q i (512 * j.toNat) d
         (w.2 = true → w.1.uc.held = false → ∃ i', exec (.member p n j d) s = .next (s.ended (w.1.setIn q k i')) ∧
           i.landed ≤ i'.landed ∧ (∀ x, i.landed ≤ x → x < i'.landed → x = j.toNat ∨ i.marks.getLsbD (x - i.landed)) ∧
           i'.dest = i.dest ∧ i'.len = i.len ∧ i'.buffer = i.buffer ∧ i'.applied = i.applied) ∧
         (w.2 = false → (w.1.abortIn q k 4).uc.held = false →
           exec (.member p n j d) s = .next (s.ended (w.1.abortIn q k 4))))) ∧
     (∀ i, s.inStream q k = some i →
       ((i.reported + 64 ≤ i.landed ∨ i.reportTime + 2000 ≤ s.time) →
         exec (.landedReport p n) s = .next ((s.setIn q k { i with reported := i.landed, reportTime := s.time }).sendMsg q
           mtLanded k i.landed [])) ∧
       (i.landed < i.reported + 64 → s.time < i.reportTime + 2000 →
         exec (.landedReport p n) s = .next s)) ∧
     (∀ o (u : W32), s.outStream q k = some o →
       let l := max o.landed (min u.toNat o.top)
       exec (.landed p n u) s = .next (s.setOut q k { o with landed := l, sent := max o.sent l })) ∧
     (s.outStream q k = none → ∀ u, exec (.landed p n u) s = .next s)) ∧
  (∀ (s : State) (p : Fin 16) (n : BitVec 16), s.portUp p.val = true →
     let k := n.toNat
     let q := p.val
     (∀ i (j : W32) d, s.inStream q k = some i →
       (i.applied = true → exec (.capstone p n j d) s = .next (s.sendMsg q mtCapDone k 0 [])) ∧
       (i.applied = false → i.capstone = none → j.toNat = membersOf i.len.toNat →
         exec (.capstone p n j d) s = .next ((s.countSweld q i.dst 128 false).setIn q k { i with capstone := some d })) ∧
       (i.applied = false → (i.capstone.isSome = true ∨ j.toNat ≠ membersOf i.len.toNat) →
         exec (.capstone p n j d) s = .next s)) ∧
     (∀ i d, s.inStream q k = some i → i.capstone = some d → i.applied = false →
       (i.landed ≠ membersOf i.len.toNat → exec (.capstoneApply p n) s = .next s) ∧
       (i.landed = membersOf i.len.toNat → (i.arrival = false ∨ s.noCq i.dst i.cq = false) →
         let w := s.begun.landBytes q i (i.len.toNat - 128) d
         let u := if w.2 then w.1.capstoneDone q k i else w.1.abortIn q k 4
         u.uc.held = false → exec (.capstoneApply p n) s = .next (s.ended u)) ∧
       (i.landed = membersOf i.len.toNat → i.arrival = true → s.noCq i.dst i.cq = true →
         (s.goesThrough fun s => (s.countRefused i.dst true).abortIn q k 10) →
         exec (.capstoneApply p n) s = .next (s.through fun s => (s.countRefused i.dst true).abortIn q k 10))) ∧
     (∀ (t : State) (i : InStream),
       (i.flag = false → t.capstoneDone q k i = t.capstoneSaid q k i) ∧
       (i.flag = true →
         let b := (t.inClass i.cls).remoteBump q i.dst i.flagAddr.toNat
         t.capstoneDone q k i = if b.2 then b.1.capstoneSaid q k i else b.1.abortIn q k 4)) ∧
     (∀ o, s.outStream q k = some o →
       ((o.closing = true ∨ o.capTop = false) → exec (.capDone p n) s = .next s) ∧
       (o.closing = false → o.capTop = true → exec (.capDone p n) s = .next
         (((((s.updCmd o.cmd fun c => { c with resA := q, resB := o.resends }).completeCmd o.cmd doneStop s.time).setOut q k
           { o with closing := true })).sendMsg q mtClose k 0 []))) ∧
     (s.inStream q k = none → exec (.close p n) s = .next s ∧ exec (.abort p n 0) s = .next s) ∧
     (∀ i, s.inStream q k = some i →
       (i.applied = true → exec (.close p n) s = .next (s.delIn q k)) ∧
       (i.applied = false → exec (.close p n) s = .next (s.breakIn q k)) ∧
       exec (.abort p n 0) s = .next (s.breakIn q k)) ∧
     (∀ o r, s.outStream q k = some o → o.closing = false → r ≠ 0 →
       (r = 10 → exec (.abort p n r) s = .next (((s.delOut q k).countBroken).refuseSend o.cmd 10)) ∧
       (r ≠ 10 → exec (.abort p n r) s = .next (s.breakOut q k { outcome := ocAborted, detail := 6, arg := 0 }))))

/-- SEND and EXPECT (R276, R277, R283): which port and stream a SEND opens, what it sends when its port's turn comes
to it, and when an EXPECT is done or times out. COMPLETES: SWELD_SEND, SWELD_EXPECT, FENCE_TIMEOUT. -/
def Obligations.SendAndExpect : Prop :=
  ∀ (s : State) (id : Nat),
    let c := s.cmd id
    let e := s.peerOf c
    (s.doing id opSweld = true → swExpect c.block = false →
      (s.streamOf id = none → e.valid = false → (s.goesThrough fun s => s.refuseSend id 1) →
        exec (.sweldSend id) s = .next (s.through fun s => s.refuseSend id 1)) ∧
      (s.streamOf id = none → e.valid = true → s.choosePort e.pkg = none → (s.goesThrough fun s => s.refuseSend id 2) →
        exec (.sweldSend id) s = .next (s.through fun s => s.refuseSend id 2)) ∧
      (∀ p, s.streamOf id = none → e.valid = true → s.choosePort e.pkg = some p →
        let n := s.freeStream p
        let o : OutStream := { cmd := id, slice := c.slice, remote := e.remote, firstOpen := s.time }
        (s.goesThrough fun s => (s.setOut p n o).sendOpenMsg p n id e.remote) →
        exec (.sweldSend id) s = .next (s.through fun s => (s.setOut p n o).sendOpenMsg p n id e.remote)) ∧
      (∀ p n o, s.streamOf id = some (p, n, o) → o.opened = true → s.portUp p = true → s.nextStream p = none →
        exec (.sweldSend id) s = .next s) ∧
      (∀ p n o k f, s.streamOf id = some (p, n, o) → o.opened = true → s.portUp p = true → s.nextStream p = some (k, f) →
        (k ≠ n → exec (.sweldSend id) s = .next s) ∧
        (k = n →
          let len := swLen c.block
          let body := if o.sent < membersOf len then memberLen len o.sent else 128
          let go := fun s : State => (s.updPort p fun v => { v with
            rr := f.spend (s.background (s.outClass o)) (msgFlits body - 1) }).sendNext id p n o
          s.goesThrough go → exec (.sweldSend id) s = .next (s.through go))) ∧
      (∀ p n o, s.streamOf id = some (p, n, o) → (o.opened = false ∨ s.portUp p = false) →
        exec (.sweldSend id) s = .next s)) ∧
    (∀ p pkg, s.choosePort pkg = some p → p < 16 ∧ s.portOpens p pkg = true ∧
      ∀ k, k < 16 → s.portOpens k pkg = true → (s.port p).queued ≤ (s.port k).queued) ∧
    (∀ x, s.doing id opSweld = true → swExpect c.block = true → Tbl.find? s.sweld.expects id = some x →
      (x.read = true → exec (.sweldExpect id) s = .next s) ∧
      (x.read = false →
        let go := fun s : State => ({ s with sweld := { s.sweld with
          expects := Tbl.put s.sweld.expects id { x with read := true } } }).readFlags id (expectSlots c)
        s.goesThrough go → exec (.sweldExpect id) s = .next (s.through go))) ∧
    (∀ x, s.doing id opSweld = true → Tbl.find? s.sweld.expects id = some x →
      (s.time ≤ x.fenceEnd → exec (.fenceTimeout id) s = .next s) ∧
      (x.fenceEnd < s.time →
        let t := s.readFlags id (expectSlots c)
        (t.doing id opSweld = true → t.hasCmd id = true → exec (.fenceTimeout id) s = .next (t.completeCmd id
          { outcome := ocPartial, detail := 2, arg := (expectSlots (t.cmd id)).length - (t.committedOf id).length }
          s.time)) ∧
        ((t.doing id opSweld = false ∨ t.hasCmd id = false) → exec (.fenceTimeout id) s = .next t)))
end

