-- ==== Sys2Proof/Laws/Crc.lean ====
section
/-! SUPPORT. CRC-32C as the fold of its step over the bytes. -/

namespace Sys2Proof.Machine

theorem withValue_eq {α : Type} (n : Nat) (f : Nat → α) : withValue n f = f n := by cases n <;> rfl

theorem crc32cFrom_eq (b : Bytes) (c : W32) : crc32cFrom b c = b.foldl crc32cByte c := by
  induction b generalizing c with
  | nil => rfl
  | cons x t ih => simp [crc32cFrom, withValue_eq, ih]

/-- CRC-32C (R50): the register starts at all ones, takes each byte in turn, and is inverted at the end. -/
theorem crc32c_eq (b : Bytes) : crc32c b = b.foldl crc32cByte 0xFFFFFFFF#32 ^^^ 0xFFFFFFFF#32 := by
  rw [crc32c, crc32cFrom_eq]

end Sys2Proof.Machine
end

