-- ==== Sys2Proof/Laws/Table.lean ====
section
/-! SUPPORT. Laws of the sparse tables: reading after writing, and the canonical form that every write keeps. -/

namespace Sys2Proof

variable {α : Type}

@[simp] theorem Tbl.get_nil (d : α) (i : Nat) : Tbl.get d ([] : Tbl α) i = d := rfl

theorem Tbl.get_cons (d : α) (e : Nat × α) (t : Tbl α) (i : Nat) :
    Tbl.get d (e :: t : Tbl α) i = if i = e.1 then e.2 else Tbl.get d t i := by
  cases e; rfl

/-- A read after a put gives what was put. -/
theorem Tbl.get_put (d : α) (t : Tbl α) (i j : Nat) (v : α) :
    Tbl.get d (Tbl.put t i v) j = if j = i then v else Tbl.get d t j := by
  induction t with
  | nil => simp [Tbl.put, Tbl.get]
  | cons e t ih =>
    obtain ⟨k, w⟩ := e
    simp only [Tbl.put]
    split
    · subst_vars; by_cases h : j = k <;> simp [Tbl.get, h]
    · split
      · by_cases h : j = i <;> simp [Tbl.get, h]
      · by_cases h : j = k
        · subst h; simp_all [Tbl.get, eq_comm]
        · simp [Tbl.get, h, ih]

/-- A read after a removal gives the default there. -/
theorem Tbl.get_del (d : α) (t : Tbl α) (i j : Nat) :
    Tbl.get d (Tbl.del t i) j = if j = i then d else Tbl.get d t j := by
  induction t with
  | nil => simp [Tbl.del, Tbl.get]
  | cons e t ih =>
    obtain ⟨k, w⟩ := e
    simp only [Tbl.del]
    split
    · subst_vars
      rw [ih]
      by_cases h : j = k <;> simp [Tbl.get, h]
    · by_cases h : j = k
      · subst h; simp_all [Tbl.get, eq_comm]
      · simp [Tbl.get, h, ih]

/-- A read after a write gives what was written, and every other key reads as before. -/
theorem Tbl.get_set [DecidableEq α] (d : α) (t : Tbl α) (i j : Nat) (v : α) :
    Tbl.get d (Tbl.set d t i v) j = if j = i then v else Tbl.get d t j := by
  unfold Tbl.set
  split
  · subst_vars; rw [Tbl.get_del]
  · rw [Tbl.get_put]

@[simp] theorem Tbl.get_set_same [DecidableEq α] (d : α) (t : Tbl α) (i : Nat) (v : α) :
    Tbl.get d (Tbl.set d t i v) i = v := by simp [Tbl.get_set]

theorem Tbl.get_set_ne [DecidableEq α] (d : α) (t : Tbl α) {i j : Nat} (v : α) (h : j ≠ i) :
    Tbl.get d (Tbl.set d t i v) j = Tbl.get d t j := by simp [Tbl.get_set, h]

theorem Tbl.get_upd [DecidableEq α] (d : α) (t : Tbl α) (i j : Nat) (f : α → α) :
    Tbl.get d (Tbl.upd d t i f) j = if j = i then f (Tbl.get d t i) else Tbl.get d t j :=
  Tbl.get_set d t i j _

theorem Tbl.find?_put (t : Tbl α) (i j : Nat) (v : α) :
    Tbl.find? (Tbl.put t i v) j = if j = i then some v else Tbl.find? t j := by
  induction t with
  | nil => simp [Tbl.put, Tbl.find?]
  | cons e t ih =>
    obtain ⟨k, w⟩ := e
    simp only [Tbl.put]
    split
    · subst_vars; by_cases h : j = k <;> simp [Tbl.find?, h]
    · split
      · by_cases h : j = i <;> simp [Tbl.find?, h]
      · by_cases h : j = k
        · subst h; simp_all [Tbl.find?, eq_comm]
        · simp [Tbl.find?, h, ih]

theorem Tbl.find?_del (t : Tbl α) (i j : Nat) :
    Tbl.find? (Tbl.del t i) j = if j = i then none else Tbl.find? t j := by
  induction t with
  | nil => simp [Tbl.del, Tbl.find?]
  | cons e t ih =>
    obtain ⟨k, w⟩ := e
    simp only [Tbl.del]
    split
    · subst_vars
      rw [ih]
      by_cases h : j = k <;> simp [Tbl.find?, h]
    · by_cases h : j = k
      · subst h; simp_all [Tbl.find?, eq_comm]
      · simp [Tbl.find?, h, ih]

/-! ## The canonical form -/

theorem Tbl.rising_mono (t : Tbl α) {a b : Nat} (h : a ≤ b) (hr : Tbl.rising b t = true) : Tbl.rising a t = true := by
  cases t with
  | nil => rfl
  | cons e t => obtain ⟨k, w⟩ := e; simp [Tbl.rising] at *; exact ⟨by omega, hr.2⟩

theorem Tbl.rising_put (t : Tbl α) (lo i : Nat) (v : α) (hi : lo ≤ i) (h : Tbl.rising lo t = true) :
    Tbl.rising lo (Tbl.put t i v) = true := by
  induction t generalizing lo with
  | nil => simp [Tbl.put, Tbl.rising, hi]
  | cons e t ih =>
    obtain ⟨k, w⟩ := e
    simp only [Tbl.rising, Bool.and_eq_true, decide_eq_true_eq] at h
    simp only [Tbl.put]
    split
    · subst_vars; simp [Tbl.rising, h]
    · split
      · simp [Tbl.rising, hi, h.2]; omega
      · simp [Tbl.rising, h.1, ih (k + 1) (by omega) h.2]

theorem Tbl.rising_del (t : Tbl α) (lo i : Nat) (h : Tbl.rising lo t = true) : Tbl.rising lo (Tbl.del t i) = true := by
  induction t generalizing lo with
  | nil => rfl
  | cons e t ih =>
    obtain ⟨k, w⟩ := e
    simp only [Tbl.rising, Bool.and_eq_true, decide_eq_true_eq] at h
    simp only [Tbl.del]
    split
    · exact ih lo (Tbl.rising_mono t (by omega) h.2)
    · simp [Tbl.rising, h.1, ih (k + 1) h.2]

theorem Tbl.mem_put (t : Tbl α) (i : Nat) (v : α) (e : Nat × α) (h : e ∈ Tbl.put t i v) : e = (i, v) ∨ e ∈ t := by
  induction t with
  | nil => simpa [Tbl.put] using h
  | cons x t ih =>
    obtain ⟨k, w⟩ := x
    simp only [Tbl.put] at h
    split at h
    · exact (List.mem_cons.mp h).imp id (List.mem_cons_of_mem _)
    · split at h
      · exact (List.mem_cons.mp h)
      · rcases List.mem_cons.mp h with h | h
        · exact .inr (h ▸ List.mem_cons_self)
        · exact (ih h).imp id (List.mem_cons_of_mem _)

theorem Tbl.mem_del (t : Tbl α) (i : Nat) (e : Nat × α) (h : e ∈ Tbl.del t i) : e ∈ t := by
  induction t with
  | nil => simp [Tbl.del] at h
  | cons x t ih =>
    obtain ⟨k, w⟩ := x
    simp only [Tbl.del] at h
    split at h
    · exact List.mem_cons_of_mem _ (ih h)
    · simp at h ⊢
      rcases h with h | h
      · exact .inl h
      · exact .inr (ih h)

/-- A write keeps the canonical form. -/
theorem Tbl.wf_set [DecidableEq α] (d : α) (t : Tbl α) (i : Nat) (v : α) (h : Tbl.wf d t = true) :
    Tbl.wf d (Tbl.set d t i v) = true := by
  simp only [Tbl.wf, Bool.and_eq_true, List.all_eq_true, Bool.not_eq_true', decide_eq_false_iff_not] at *
  unfold Tbl.set
  split
  · exact ⟨Tbl.rising_del t 0 i h.1, fun e he => h.2 e (Tbl.mem_del t i e he)⟩
  · rename_i hv
    refine ⟨Tbl.rising_put t 0 i v (by omega) h.1, fun e he => ?_⟩
    rcases Tbl.mem_put t i v e he with rfl | he
    · exact hv
    · exact h.2 e he

theorem Tbl.wf_nil [DecidableEq α] (d : α) : Tbl.wf d ([] : Tbl α) = true := rfl

end Sys2Proof
end

