-- ==== Sys2Proof/Laws/DevState.lean ====
section
/-! SUPPORT. The state of the device, and the plain laws of that part of a state. -/

namespace Sys2Proof.Machine


/-- The state of the device (Table 3.3). -/
def State.dstate (s : State) : DevState := s.dev.state

theorem dstate_mk (a b c d e f g h i j k l m n o p q r t u v w x y z) :
  (State.mk a b c d e f g h i j k l m n o p q r t u v w x y z).dstate = f.state := rfl

theorem dstate_eta (s : State) : s.dev.state = s.dstate := rfl

theorem dstate_ite {c} [Decidable c] (a b : State) : (if c then a else b).dstate = if c then a.dstate else b.dstate := by split <;> rfl

theorem foldl_dstate {α} (f : State → α → State) (h : ∀ s a, (f s a).dstate = s.dstate) (l : List α) (s : State) : (l.foldl f s).dstate = s.dstate := by
  induction l generalizing s with
  | nil => rfl
  | cons a t ih => simp only [List.foldl, ih, h]

theorem foldl_dstate1 {α β} (f : State × β → α → State × β) (h : ∀ s a, (f s a).1.dstate = s.1.dstate) (l : List α) (s : State × β) : (l.foldl f s).1.dstate = s.1.dstate := by
  induction l generalizing s with
  | nil => rfl
  | cons a t ih => simp only [List.foldl, ih, h]

theorem foldl_dstate2 {α β} (f : β × State → α → β × State) (h : ∀ s a, (f s a).2.dstate = s.2.dstate) (l : List α) (s : β × State) : (l.foldl f s).2.dstate = s.2.dstate := by
  induction l generalizing s with
  | nil => rfl
  | cons a t ih => simp only [List.foldl, ih, h]

end Sys2Proof.Machine
end

