-- ==== Sys2Proof/Laws/DevStateA.lean ====
section
/-! SUPPORT. Operations that leave the state of the device as it is, part 1 of 3. -/

namespace Sys2Proof.Machine

set_option linter.unusedSimpArgs false
set_option linter.unusedVariables false

theorem State.setCmd_dstate (a0 a1 a2) : (State.setCmd a0 a1 a2).dstate = a0.dstate := by
  simp only [State.setCmd, dstate_mk, dstate_eta]

theorem State.stopCmd_dstate (a0 a1 a2) : (State.stopCmd a0 a1 a2).dstate = a0.dstate := by
  simp only [State.stopCmd, dstate_ite, ite_self, State.setCmd_dstate]

theorem State.abortBay_dstate (a0 a1 a2 a3) : (State.abortBay a0 a1 a2 a3).dstate = a0.dstate := by
  simp only [State.abortBay, dstate_mk, dstate_eta, foldl_dstate, implies_true, State.stopCmd_dstate]

theorem State.setCap_dstate (a0 a1 a2) : (State.setCap a0 a1 a2).dstate = a0.dstate := by
  simp only [State.setCap, dstate_mk, dstate_eta]

theorem State.dropCap_dstate (a0 a1 a2) : (State.dropCap a0 a1 a2).dstate = a0.dstate := by
  simp only [State.dropCap] <;> (repeat' split) <;> (rfl)

theorem State.endCap_dstate (a0 a1) : (State.endCap a0 a1).dstate = a0.dstate := by
  simp only [State.endCap] <;> (repeat' split) <;> (simp only [State.dropCap_dstate])

theorem State.abortCapstones_dstate (a0 a1 a2 a3) : (State.abortCapstones a0 a1 a2 a3).dstate = a0.dstate := by
  simp only [State.abortCapstones, foldl_dstate, implies_true, State.endCap_dstate, State.stopCmd_dstate]

theorem State.setPort_dstate (a0 a1 a2) : (State.setPort a0 a1 a2).dstate = a0.dstate := by
  simp only [State.setPort, dstate_mk, dstate_eta]

theorem State.updPort_dstate (a0 a1 a2) : (State.updPort a0 a1 a2).dstate = a0.dstate := by
  simp only [State.updPort, State.setPort_dstate]

theorem State.injected_dstate (a0 a1 a2) : (State.injected a0 a1 a2).2.dstate = a0.dstate := by
  simp only [State.injected, dstate_mk, dstate_eta, dstate_ite, ite_self, apply_ite Prod.snd]

theorem State.putFlit_dstate (a0 a1 a2 a3 a4 a5) : (State.putFlit a0 a1 a2 a3 a4 a5).dstate = a0.dstate := by
  simp only [State.putFlit, dstate_ite, ite_self, apply_ite Prod.snd, State.injected_dstate, State.updPort_dstate]

theorem pumpFlits_dstate (a0 a1 a2) : (pumpFlits a0 a1 a2).dstate = a2.dstate := by
  induction a1 generalizing a2 with
  | zero => simp only [pumpFlits]
  | succ k ih => simp only [pumpFlits, State.updPort_dstate, State.putFlit_dstate, ih] <;> (repeat' split) <;> (simp only [State.updPort_dstate, State.putFlit_dstate, ih])

theorem State.pump_dstate (a0 a1) : (State.pump a0 a1).dstate = a0.dstate := by
  simp only [State.pump, dstate_ite, ite_self, pumpFlits_dstate]

theorem State.sendMsg_dstate (a0 a1 a2 a3 a4 a5) : (State.sendMsg a0 a1 a2 a3 a4 a5).dstate = a0.dstate := by
  simp only [State.sendMsg, State.updPort_dstate, State.pump_dstate]

theorem State.setBuffer_dstate (a0 a1 a2) : (State.setBuffer a0 a1 a2).dstate = a0.dstate := by
  simp only [State.setBuffer, dstate_mk, dstate_eta]

theorem State.freeBuffer_dstate (a0 a1) : (State.freeBuffer a0 a1).dstate = a0.dstate := by
  simp only [State.freeBuffer, State.setBuffer_dstate]

theorem State.countBroken_dstate (a0) : (State.countBroken a0).dstate = a0.dstate := by
  simp only [State.countBroken, dstate_mk, dstate_eta]

theorem State.control_dstate (a0 a1 a2 a3) : (State.control a0 a1 a2 a3).dstate = a0.dstate := by
  simp only [State.control, dstate_mk, dstate_eta]

theorem State.signalUnits_dstate (a0 a1 a2 a3) : (State.signalUnits a0 a1 a2 a3).dstate = a0.dstate := by
  simp only [State.signalUnits, State.control_dstate]

theorem State.setBay_dstate (a0 a1 a2) : (State.setBay a0 a1 a2).dstate = a0.dstate := by
  simp only [State.setBay, dstate_mk, dstate_eta]

theorem State.updBay_dstate (a0 a1 a2) : (State.updBay a0 a1 a2).dstate = a0.dstate := by
  simp only [State.updBay, State.setBay_dstate]

theorem State.setChan_dstate (a0 a1 a2) : (State.setChan a0 a1 a2).dstate = a0.dstate := by
  simp only [State.setChan, dstate_mk, dstate_eta]

theorem State.updChan_dstate (a0 a1 a2) : (State.updChan a0 a1 a2).dstate = a0.dstate := by
  simp only [State.updChan, State.setChan_dstate]

theorem State.bumpEpoch_dstate (a0 a1) : (State.bumpEpoch a0 a1).dstate = a0.dstate := by
  simp only [State.bumpEpoch] <;> (repeat' split) <;> (rfl)

theorem State.closeShield_dstate (a0 a1 a2 a3) : (State.closeShield a0 a1 a2 a3).dstate = a0.dstate := by
  simp only [State.closeShield, dstate_mk, dstate_eta, dstate_ite, foldl_dstate, ite_self, implies_true, State.signalUnits_dstate, State.bumpEpoch_dstate, State.stopCmd_dstate]

theorem State.remaster_dstate (a0) : (State.remaster a0).dstate = a0.dstate := by
  simp only [State.remaster, dstate_mk, dstate_eta, dstate_ite, ite_self]

theorem State.cutPort_dstate (a0 a1) : (State.cutPort a0 a1).dstate = a0.dstate := by
  simp only [State.cutPort, dstate_mk, dstate_eta, State.closeShield_dstate, State.updPort_dstate, State.remaster_dstate]

theorem State.settlePort_dstate (a0 a1) : (State.settlePort a0 a1).dstate = a0.dstate := by
  simp only [State.settlePort, dstate_ite, ite_self, State.cutPort_dstate]

theorem State.delIn_dstate (a0 a1 a2) : (State.delIn a0 a1 a2).dstate = a0.dstate := by
  simp only [State.delIn, dstate_mk, dstate_eta, State.settlePort_dstate]

theorem State.breakIn_dstate (a0 a1 a2) : (State.breakIn a0 a1 a2).dstate = a0.dstate := by
  simp only [State.breakIn, State.freeBuffer_dstate, State.countBroken_dstate, State.delIn_dstate] <;> (repeat' split) <;> (simp only [State.freeBuffer_dstate, State.countBroken_dstate, State.delIn_dstate])

theorem State.abortIn_dstate (a0 a1 a2 a3) : (State.abortIn a0 a1 a2 a3).dstate = a0.dstate := by
  simp only [State.abortIn, State.sendMsg_dstate, State.breakIn_dstate]

theorem State.delOut_dstate (a0 a1 a2) : (State.delOut a0 a1 a2).dstate = a0.dstate := by
  simp only [State.delOut, dstate_mk, dstate_eta, State.settlePort_dstate]

theorem State.breakOut_dstate (a0 a1 a2 a3) : (State.breakOut a0 a1 a2 a3).dstate = a0.dstate := by
  simp only [State.breakOut, State.countBroken_dstate, State.delOut_dstate, State.stopCmd_dstate] <;> (repeat' split) <;> (simp only [State.countBroken_dstate, State.delOut_dstate, State.stopCmd_dstate])

theorem State.abortOut_dstate (a0 a1 a2 a3) : (State.abortOut a0 a1 a2 a3).dstate = a0.dstate := by
  simp only [State.abortOut, State.sendMsg_dstate, State.breakOut_dstate]

theorem State.abortSends_dstate (a0 a1 a2) : (State.abortSends a0 a1 a2).dstate = a0.dstate := by
  simp only [State.abortSends, foldl_dstate, implies_true, State.abortOut_dstate]

theorem State.drawResult_dstate (a0) : (State.drawResult a0).2.dstate = a0.dstate := by
  simp only [State.drawResult, dstate_mk, dstate_eta]

theorem State.setSlice_dstate (a0 a1 a2) : (State.setSlice a0 a1 a2).dstate = a0.dstate := by
  simp only [State.setSlice, dstate_mk, dstate_eta]

theorem State.updSlice_dstate (a0 a1 a2) : (State.updSlice a0 a1 a2).dstate = a0.dstate := by
  simp only [State.updSlice, State.setSlice_dstate]

theorem State.count_dstate (a0 a1 a2 a3) : (State.count a0 a1 a2 a3).dstate = a0.dstate := by
  simp only [State.count, State.updSlice_dstate]

theorem State.countOutcome_dstate (a0 a1 a2) : (State.countOutcome a0 a1 a2).dstate = a0.dstate := by
  simp only [State.countOutcome, dstate_ite, ite_self, State.count_dstate]

theorem State.updCq_dstate (a0 a1 a2 a3) : (State.updCq a0 a1 a2 a3).dstate = a0.dstate := by
  simp only [State.updCq, State.updSlice_dstate]

theorem State.updSq_dstate (a0 a1 a2 a3) : (State.updSq a0 a1 a2 a3).dstate = a0.dstate := by
  simp only [State.updSq, State.updSlice_dstate]

theorem State.freePlace_dstate (a0 a1) : (State.freePlace a0 a1).dstate = a0.dstate := by
  simp only [State.freePlace, dstate_mk, dstate_eta, State.updSq_dstate]

theorem State.abortUndispatched_dstate (a0 a1) : (State.abortUndispatched a0 a1).dstate = a0.dstate := by
  simp only [State.abortUndispatched, dstate_ite, ite_self, State.drawResult_dstate, State.countOutcome_dstate, State.updCq_dstate, State.updSlice_dstate, State.freePlace_dstate]

theorem State.updCmd_dstate (a0 a1 a2) : (State.updCmd a0 a1 a2).dstate = a0.dstate := by
  simp only [State.updCmd, State.setCmd_dstate]

theorem State.askTenantReset_dstate (a0 a1) : (State.askTenantReset a0 a1).dstate = a0.dstate := by
  simp only [State.askTenantReset, dstate_mk, dstate_eta, dstate_ite, ite_self, State.updSlice_dstate]

theorem State.escalate_dstate (a0 a1 a2 a3) : (State.escalate a0 a1 a2 a3).1.dstate = a0.dstate := by
  simp only [State.escalate, dstate_ite, State.askTenantReset_dstate] <;> (repeat' split) <;> (rfl)

theorem State.maskFault_dstate (a0 a1 a2) : (State.maskFault a0 a1 a2).1.dstate = a0.dstate := by
  simp only [State.maskFault, dstate_mk, dstate_eta, dstate_ite, foldl_dstate, foldl_dstate1, foldl_dstate2, ite_self, apply_ite Prod.fst, apply_ite Prod.snd, implies_true, State.escalate_dstate] <;> (repeat' split) <;> (first | rfl | simp only [dstate_mk, dstate_eta, dstate_ite, foldl_dstate, foldl_dstate1, foldl_dstate2, ite_self, apply_ite Prod.fst, apply_ite Prod.snd, implies_true, State.escalate_dstate])

theorem State.countFault_dstate (a0 a1 a2) : (State.countFault a0 a1 a2).dstate = a0.dstate := by
  simp only [State.countFault, dstate_mk, dstate_eta, dstate_ite, foldl_dstate, foldl_dstate1, foldl_dstate2, ite_self, apply_ite Prod.fst, apply_ite Prod.snd, implies_true, State.updSlice_dstate] <;> (repeat' split) <;> (first | rfl | simp only [dstate_mk, dstate_eta, dstate_ite, foldl_dstate, foldl_dstate1, foldl_dstate2, ite_self, apply_ite Prod.fst, apply_ite Prod.snd, implies_true, State.updSlice_dstate])

theorem State.endFault_dstate (a0 a1 a2) : (State.endFault a0 a1 a2).dstate = a0.dstate := by
  simp only [State.endFault, dstate_mk, dstate_eta, dstate_ite, foldl_dstate, foldl_dstate1, foldl_dstate2, ite_self, apply_ite Prod.fst, apply_ite Prod.snd, implies_true, State.stopCmd_dstate, State.updCmd_dstate] <;> (repeat' split) <;> (first | rfl | simp only [dstate_mk, dstate_eta, dstate_ite, foldl_dstate, foldl_dstate1, foldl_dstate2, ite_self, apply_ite Prod.fst, apply_ite Prod.snd, implies_true, State.stopCmd_dstate, State.updCmd_dstate])

theorem State.hostWrite_dstate (a0 a1 a2 a3) : (State.hostWrite a0 a1 a2 a3).dstate = a0.dstate := by
  simp only [State.hostWrite, dstate_mk, dstate_eta]

theorem State.postLog_dstate (a0 a1 a2) : (State.postLog a0 a1 a2).dstate = a0.dstate := by
  simp only [State.postLog, dstate_mk, dstate_eta, dstate_ite, ite_self, State.hostWrite_dstate, State.updSlice_dstate]

theorem State.logCourse_dstate (a0 a1 a2 a3 a4) : (State.logCourse a0 a1 a2 a3 a4).dstate = a0.dstate := by
  simp only [State.logCourse, dstate_mk, dstate_eta, dstate_ite, ite_self, State.postLog_dstate]

theorem State.logHost_dstate (a0 a1 a2 a3 a4) : (State.logHost a0 a1 a2 a3 a4).dstate = a0.dstate := by
  simp only [State.logHost, State.logCourse_dstate]

theorem State.tenantHostWrite_dstate (a0 a1 a2 a3 a4 a5) : (State.tenantHostWrite a0 a1 a2 a3 a4 a5).dstate = a0.dstate := by
  simp only [State.tenantHostWrite, foldl_dstate, implies_true, State.hostWrite_dstate, State.count_dstate, State.logHost_dstate]

theorem State.postTenant_dstate (a0 a1 a2 a3 a4) : (State.postTenant a0 a1 a2 a3 a4).1.dstate = a0.dstate := by
  simp only [State.postTenant, dstate_ite, ite_self, State.tenantHostWrite_dstate]

theorem State.tenantCopyPost_dstate (a0 a1) : (State.tenantCopyPost a0 a1).1.dstate = a0.dstate := by
  simp only [State.tenantCopyPost, dstate_mk, dstate_eta, State.updSlice_dstate, State.postTenant_dstate] <;> (repeat' split) <;> (simp only [dstate_mk, dstate_eta, State.updSlice_dstate, State.postTenant_dstate])

theorem State.drawAck_dstate (a0) : (State.drawAck a0).2.dstate = a0.dstate := by
  simp only [State.drawAck, dstate_mk, dstate_eta]

theorem State.signal_dstate (a0) : (State.signal a0).dstate = a0.dstate := by
  simp only [State.signal, dstate_mk, dstate_eta, dstate_ite, ite_self, State.drawAck_dstate]

theorem State.assignSeq_dstate (a0 a1) : (State.assignSeq a0 a1).dstate = a0.dstate := by
  simp only [State.assignSeq, dstate_mk, dstate_eta, dstate_ite, ite_self, State.tenantCopyPost_dstate, State.signal_dstate]

theorem State.fillBucket_dstate (a0 a1) : (State.fillBucket a0 a1).dstate = a0.dstate := by
  simp only [State.fillBucket, dstate_mk, dstate_eta, dstate_ite, ite_self, State.assignSeq_dstate]

theorem State.updReporter_dstate (a0 a1 a2) : (State.updReporter a0 a1 a2).dstate = a0.dstate := by
  simp only [State.updReporter, dstate_mk, dstate_eta]

theorem State.queueRecord_dstate (a0 a1 a2) : (State.queueRecord a0 a1 a2).dstate = a0.dstate := by
  simp only [State.queueRecord] <;> (repeat' split) <;> (rfl)

theorem State.raise_dstate (a0 a1 a2) : (State.raise a0 a1 a2).dstate = a0.dstate := by
  simp only [State.raise, dstate_ite, ite_self, State.maskFault_dstate, State.countFault_dstate, State.endFault_dstate, State.fillBucket_dstate, State.queueRecord_dstate]

theorem State.malformed_dstate (a0 a1 a2) : (State.malformed a0 a1 a2).dstate = a0.dstate := by
  simp only [State.malformed, dstate_mk, dstate_eta, State.raise_dstate]

theorem State.countRefused_dstate (a0 a1 a2) : (State.countRefused a0 a1 a2).dstate = a0.dstate := by
  simp only [State.countRefused, dstate_mk, dstate_eta, dstate_ite, ite_self, State.updSlice_dstate]

theorem State.allocBuffer_dstate (a0 a1 a2) : (State.allocBuffer a0 a1 a2).dstate = a0.dstate := by
  simp only [State.allocBuffer, State.setBuffer_dstate]

theorem State.setIn_dstate (a0 a1 a2 a3) : (State.setIn a0 a1 a2 a3).dstate = a0.dstate := by
  simp only [State.setIn, dstate_mk, dstate_eta]

theorem State.rxOpen_dstate (a0 a1 a2 a3) : (State.rxOpen a0 a1 a2 a3).dstate = a0.dstate := by
  simp only [State.rxOpen, State.sendMsg_dstate, State.countRefused_dstate, State.allocBuffer_dstate, State.setIn_dstate] <;> (repeat' split) <;> (simp only [State.sendMsg_dstate, State.countRefused_dstate, State.allocBuffer_dstate, State.setIn_dstate])

theorem State.setOut_dstate (a0 a1 a2 a3) : (State.setOut a0 a1 a2 a3).dstate = a0.dstate := by
  simp only [State.setOut, dstate_mk, dstate_eta]

theorem State.rxOpenAck_dstate (a0 a1 a2) : (State.rxOpenAck a0 a1 a2).dstate = a0.dstate := by
  simp only [State.rxOpenAck] <;> (repeat' split) <;> (rfl)

theorem State.resultOr_dstate (a0 a1) : (State.resultOr a0 a1).2.dstate = a0.dstate := by
  simp only [State.resultOr] <;> (repeat' split) <;> (rfl)

theorem State.updHandle_dstate (a0 a1 a2 a3) : (State.updHandle a0 a1 a2 a3).dstate = a0.dstate := by
  simp only [State.updHandle, State.updSlice_dstate]

theorem State.waitRecord_dstate (a0 a1 a2 a3) : (State.waitRecord a0 a1 a2 a3).dstate = a0.dstate := by
  simp only [State.waitRecord, State.updCq_dstate]

theorem State.retireHandle_dstate (a0 a1 a2) : (State.retireHandle a0 a1 a2).dstate = a0.dstate := by
  simp only [State.retireHandle, dstate_mk, dstate_eta, dstate_ite, ite_self, State.updHandle_dstate, State.waitRecord_dstate]

theorem State.releaseRefs_dstate (a0 a1) : (State.releaseRefs a0 a1).dstate = a0.dstate := by
  simp only [State.releaseRefs, foldl_dstate, implies_true, State.retireHandle_dstate, State.updHandle_dstate, State.updCmd_dstate]

theorem State.orphan_dstate (a0 a1) : (State.orphan a0 a1).dstate = a0.dstate := by
  simp only [State.orphan, dstate_mk, dstate_eta]

theorem State.cutBay_dstate (a0 a1) : (State.cutBay a0 a1).dstate = a0.dstate := by
  simp only [State.cutBay, dstate_mk, dstate_eta, State.bumpEpoch_dstate, State.updBay_dstate]

theorem State.unholdBay_dstate (a0 a1) : (State.unholdBay a0 a1).dstate = a0.dstate := by
  simp only [State.unholdBay, dstate_ite, ite_self, State.updBay_dstate, State.cutBay_dstate]

theorem State.leaveBay_dstate (a0 a1 a2) : (State.leaveBay a0 a1 a2).dstate = a0.dstate := by
  simp only [State.leaveBay, State.updBay_dstate, State.unholdBay_dstate]

theorem State.leaveEngines_dstate (a0 a1) : (State.leaveEngines a0 a1).dstate = a0.dstate := by
  simp only [State.leaveEngines, dstate_mk, dstate_eta, foldl_dstate, implies_true, State.orphan_dstate, State.leaveBay_dstate]

theorem State.finishUndispatched_dstate (a0 a1 a2 a3 a4 a5 a6) : (State.finishUndispatched a0 a1 a2 a3 a4 a5 a6).dstate = a0.dstate := by
  simp only [State.finishUndispatched, State.resultOr_dstate, State.countOutcome_dstate, State.setCmd_dstate, State.waitRecord_dstate]

theorem resolveWindow_dstate (a0 a1 a2) : (resolveWindow a0 a1 a2).dstate = a2.dstate := by
  induction a0 generalizing a1 a2 with
  | nil => simp only [resolveWindow]
  | cons x t ih => simp only [resolveWindow, State.setCmd_dstate, State.finishUndispatched_dstate, ih] <;> (repeat' split) <;> (simp only [State.setCmd_dstate, State.finishUndispatched_dstate, ih])

theorem State.resolveEarlier_dstate (a0 a1 a2 a3 a4) : (State.resolveEarlier a0 a1 a2 a3 a4).dstate = a0.dstate := by
  simp only [State.resolveEarlier, resolveWindow_dstate]

theorem State.completeWith_dstate (a0 a1 a2 a3 a4) : (State.completeWith a0 a1 a2 a3 a4).dstate = a0.dstate := by
  simp only [State.completeWith, dstate_mk, dstate_eta, dstate_ite, ite_self, State.resultOr_dstate, State.updCq_dstate, State.countOutcome_dstate, State.count_dstate, State.releaseRefs_dstate, State.leaveEngines_dstate, State.resolveEarlier_dstate]

theorem State.refuseSend_dstate (a0 a1 a2) : (State.refuseSend a0 a1 a2).dstate = a0.dstate := by
  simp only [State.refuseSend, State.completeWith_dstate]

theorem State.rxRefuse_dstate (a0 a1 a2 a3) : (State.rxRefuse a0 a1 a2 a3).dstate = a0.dstate := by
  unfold State.rxRefuse <;> split <;> (try simp only [dstate_ite, State.refuseSend_dstate, State.delOut_dstate]) <;> (repeat' split) <;> (rfl)

theorem State.event_dstate (a0 a1 a2 a3 a4) : (State.event a0 a1 a2 a3 a4).dstate = a0.dstate := by
  simp only [State.event, dstate_mk, dstate_eta]

theorem State.countSweld_dstate (a0 a1 a2 a3 a4) : (State.countSweld a0 a1 a2 a3 a4).dstate = a0.dstate := by
  simp only [State.countSweld, State.event_dstate, State.count_dstate]

theorem State.updBridge_dstate (a0 a1 a2) : (State.updBridge a0 a1 a2).dstate = a0.dstate := by
  simp only [State.updBridge, dstate_mk, dstate_eta]

theorem State.updFlow_dstate (a0 a1 a2) : (State.updFlow a0 a1 a2).dstate = a0.dstate := by
  simp only [State.updFlow, dstate_mk, dstate_eta]

theorem State.carry_dstate (a0 a1 a2 a3) : (State.carry a0 a1 a2 a3).dstate = a0.dstate := by
  simp only [State.carry, dstate_mk, dstate_eta, foldl_dstate, implies_true, State.updBridge_dstate, State.event_dstate, State.updFlow_dstate] <;> (repeat' split) <;> (simp only [dstate_mk, dstate_eta, foldl_dstate, implies_true, State.updBridge_dstate, State.event_dstate, State.updFlow_dstate])

theorem State.drawChoice_dstate (a0 a1) : (State.drawChoice a0 a1).2.dstate = a0.dstate := by
  simp only [State.drawChoice, dstate_mk, dstate_eta]

theorem State.bulk_dstate (a0 a1 a2 a3 a4) : (State.bulk a0 a1 a2 a3 a4).dstate = a0.dstate := by
  simp only [State.bulk, dstate_ite, ite_self, State.carry_dstate, State.drawChoice_dstate]

theorem State.setUnitState_dstate (a0 a1 a2) : (State.setUnitState a0 a1 a2).dstate = a0.dstate := by
  simp only [State.setUnitState] <;> (repeat' split) <;> (rfl)

theorem State.offline_dstate (a0 a1) : (State.offline a0 a1).dstate = a0.dstate := by
  simp only [State.offline, dstate_mk, dstate_eta, State.abortBay_dstate, State.closeShield_dstate, State.updBay_dstate, State.setUnitState_dstate, State.updPort_dstate] <;> (repeat' split) <;> (simp only [dstate_mk, dstate_eta, State.abortBay_dstate, State.closeShield_dstate, State.updBay_dstate, State.setUnitState_dstate, State.updPort_dstate])

theorem State.stopDie_dstate (a0 a1) : (State.stopDie a0 a1).dstate = a0.dstate := by
  simp only [State.stopDie, dstate_mk, dstate_eta, foldl_dstate, implies_true, State.offline_dstate]

theorem State.dieStop_dstate (a0 a1 a2) : (State.dieStop a0 a1 a2).dstate = a0.dstate := by
  simp only [State.dieStop, State.raise_dstate, State.stopDie_dstate]

theorem State.lostTags_dstate (a0 a1 a2) : (State.lostTags a0 a1 a2).dstate = a0.dstate := by
  simp only [State.lostTags, dstate_mk, dstate_eta, State.dieStop_dstate]

theorem State.cacheCorrected_dstate (a0 a1 a2) : (State.cacheCorrected a0 a1 a2).dstate = a0.dstate := by
  simp only [State.cacheCorrected, dstate_mk, dstate_eta, State.raise_dstate]

theorem State.setWay_dstate (a0 a1 a2) : (State.setWay a0 a1 a2).dstate = a0.dstate := by
  simp only [State.setWay, dstate_mk, dstate_eta]

theorem State.updWay_dstate (a0 a1 a2 a3 a4) : (State.updWay a0 a1 a2 a3 a4).dstate = a0.dstate := by
  simp only [State.updWay, State.setWay_dstate]

theorem State.checkTags_dstate (a0 a1 a2) : (State.checkTags a0 a1 a2).dstate = a0.dstate := by
  simp only [State.checkTags, dstate_ite, foldl_dstate, ite_self, implies_true, State.lostTags_dstate, State.cacheCorrected_dstate, State.updWay_dstate]

theorem State.holdAt_dstate (a0 a1) : (State.holdAt a0 a1).dstate = a0.dstate := by
  simp only [State.holdAt, dstate_mk, dstate_eta, dstate_ite, ite_self]

theorem State.dramTraffic_dstate (a0 a1 a2 a3 a4) : (State.dramTraffic a0 a1 a2 a3 a4).dstate = a0.dstate := by
  simp only [State.dramTraffic, State.holdAt_dstate, State.count_dstate, State.event_dstate] <;> (repeat' split) <;> (simp only [State.holdAt_dstate, State.count_dstate, State.event_dstate])

theorem State.mapRoom_dstate (a0 a1 a2) : (State.mapRoom a0 a1 a2).dstate = a0.dstate := by
  simp only [State.mapRoom, dstate_mk, dstate_eta, dstate_ite, ite_self, State.drawChoice_dstate]

theorem State.cacheMap_dstate (a0 a1 a2 a3) : (State.cacheMap a0 a1 a2 a3).dstate = a0.dstate := by
  simp only [State.cacheMap, dstate_mk, dstate_eta, State.mapRoom_dstate]

theorem State.queueRow_dstate (a0 a1 a2) : (State.queueRow a0 a1 a2).dstate = a0.dstate := by
  simp only [State.queueRow, State.updChan_dstate]

theorem State.autoRepair_dstate (a0 a1 a2) : (State.autoRepair a0 a1 a2).dstate = a0.dstate := by
  simp only [State.autoRepair, dstate_mk, dstate_eta, dstate_ite, ite_self, State.raise_dstate]

theorem State.killPin_dstate (a0 a1 a2) : (State.killPin a0 a1 a2).dstate = a0.dstate := by
  simp only [State.killPin, State.offline_dstate, State.raise_dstate, State.updChan_dstate, State.autoRepair_dstate] <;> (repeat' split) <;> (simp only [State.offline_dstate, State.raise_dstate, State.updChan_dstate, State.autoRepair_dstate])

theorem State.noteCorrected_dstate (a0 a1 a2 a3) : (State.noteCorrected a0 a1 a2 a3).dstate = a0.dstate := by
  simp only [State.noteCorrected, dstate_ite, foldl_dstate, ite_self, implies_true, State.raise_dstate, State.updChan_dstate, State.queueRow_dstate, State.killPin_dstate]

theorem State.dramStore_dstate (a0 a1 a2) : (State.dramStore a0 a1 a2).dstate = a0.dstate := by
  simp only [State.dramStore, dstate_mk, dstate_eta]

theorem State.storeWord_dstate (a0 a1 a2 a3 a4) : (State.storeWord a0 a1 a2 a3 a4).dstate = a0.dstate := by
  simp only [State.storeWord, State.dramStore_dstate]

theorem State.writeCoded_dstate (a0 a1 a2 a3 a4) : (State.writeCoded a0 a1 a2 a3 a4).dstate = a0.dstate := by
  simp only [State.writeCoded, State.injected_dstate, State.dramTraffic_dstate, State.storeWord_dstate]

theorem State.writeMap_dstate (a0 a1 a2 a3) : (State.writeMap a0 a1 a2 a3).dstate = a0.dstate := by
  simp only [State.writeMap, State.cacheMap_dstate, State.writeCoded_dstate]

theorem State.noteBad_dstate (a0 a1 a2) : (State.noteBad a0 a1 a2).dstate = a0.dstate := by
  simp only [State.noteBad, State.queueRow_dstate, State.updChan_dstate]

theorem State.mapLost_dstate (a0 a1 a2) : (State.mapLost a0 a1 a2).dstate = a0.dstate := by
  simp only [State.mapLost, foldl_dstate, implies_true, State.writeMap_dstate, State.noteBad_dstate, State.raise_dstate]

theorem State.mapRead_dstate (a0 a1 a2) : (State.mapRead a0 a1 a2).1.dstate = a0.dstate := by
  simp only [State.mapRead, State.dramTraffic_dstate, State.cacheMap_dstate, State.noteCorrected_dstate, State.mapLost_dstate] <;> (repeat' split) <;> (simp only [State.dramTraffic_dstate, State.cacheMap_dstate, State.noteCorrected_dstate, State.mapLost_dstate])

theorem State.mapCheck_dstate (a0 a1 a2) : (State.mapCheck a0 a1 a2).1.dstate = a0.dstate := by
  simp only [State.mapCheck, dstate_ite, ite_self, apply_ite Prod.fst, State.mapRead_dstate]

theorem State.setMapEntry_dstate (a0 a1 a2 a3) : (State.setMapEntry a0 a1 a2 a3).dstate = a0.dstate := by
  simp only [State.setMapEntry, dstate_ite, ite_self, State.mapCheck_dstate, State.writeMap_dstate]

theorem State.setLineState_dstate (a0 a1 a2 a3) : (State.setLineState a0 a1 a2 a3).dstate = a0.dstate := by
  simp only [State.setLineState, State.mapCheck_dstate, State.setMapEntry_dstate]

theorem State.poisonLine_dstate (a0 a1 a2 a3 a4) : (State.poisonLine a0 a1 a2 a3 a4).dstate = a0.dstate := by
  simp only [State.poisonLine, State.setLineState_dstate, State.raise_dstate]

theorem State.decodeLine_dstate (a0 a1 a2 a3 a4) : (State.decodeLine a0 a1 a2 a3 a4).1.dstate = a0.dstate := by
  simp only [State.decodeLine, State.dramTraffic_dstate, State.noteCorrected_dstate, State.poisonLine_dstate, State.noteBad_dstate] <;> (repeat' split) <;> (simp only [State.dramTraffic_dstate, State.noteCorrected_dstate, State.poisonLine_dstate, State.noteBad_dstate]; done)

theorem State.chanRead_dstate (a0 a1 a2 a3) : (State.chanRead a0 a1 a2 a3).1.dstate = a0.dstate := by
  simp only [State.chanRead] <;> (repeat' split) <;> (simp only [State.decodeLine_dstate])

theorem State.lineFetch_dstate (a0 a1 a2 a3) : (State.lineFetch a0 a1 a2 a3).1.dstate = a0.dstate := by
  simp only [State.lineFetch, State.mapCheck_dstate, State.chanRead_dstate] <;> (repeat' split) <;> (first | with_reducible rfl | (rename_i h1; cases congrArg Prod.fst h1; (simp only [State.mapCheck_dstate, State.chanRead_dstate]; done)))

theorem State.countSectors_dstate (a0 a1 a2 a3 a4) : (State.countSectors a0 a1 a2 a3 a4).dstate = a0.dstate := by
  simp only [State.countSectors, State.count_dstate, State.event_dstate]

theorem State.writeBase_dstate (a0 a1 a2 a3 a4 a5 a6 a7 a8) : (State.writeBase a0 a1 a2 a3 a4 a5 a6 a7 a8).1.dstate = a0.dstate := by
  unfold State.writeBase <;> (repeat' split) <;> (first | with_reducible rfl | (rename_i h1; cases congrArg Prod.fst h1; (simp only [State.lineFetch_dstate, State.countSectors_dstate]; done)))

theorem State.mapAges_dstate (a0 a1 a2 a3) : (State.mapAges a0 a1 a2 a3).dstate = a0.dstate := by
  simp only [State.mapAges, dstate_ite, foldl_dstate, ite_self, implies_true, State.updWay_dstate]

theorem State.dropWay_dstate (a0 a1 a2 a3) : (State.dropWay a0 a1 a2 a3).dstate = a0.dstate := by
  simp only [State.dropWay, State.mapAges_dstate, State.setWay_dstate]

theorem State.dropReplica_dstate (a0 a1 a2) : (State.dropReplica a0 a1 a2).dstate = a0.dstate := by
  unfold State.dropReplica <;> split <;> (try simp only [State.dropWay_dstate]) <;> (repeat' split) <;> (rfl)

theorem State.clearCourses_dstate (a0 a1 a2 a3) : (State.clearCourses a0 a1 a2 a3).dstate = a0.dstate := by
  simp only [State.clearCourses, dstate_ite, ite_self, State.mapCheck_dstate, State.writeMap_dstate]

theorem State.bitmapWrite_dstate (a0 a1) : (State.bitmapWrite a0 a1).dstate = a0.dstate := by
  simp only [State.bitmapWrite, dstate_ite, ite_self, State.injected_dstate, State.offline_dstate, State.raise_dstate]

theorem State.openShare_dstate (a0 a1 a2) : (State.openShare a0 a1 a2).dstate = a0.dstate := by
  simp only [State.openShare, dstate_mk, dstate_eta, dstate_ite, foldl_dstate, ite_self, implies_true, State.clearCourses_dstate, State.bitmapWrite_dstate]

theorem State.sectorLost_dstate (a0 a1 a2 a3 a4) : (State.sectorLost a0 a1 a2 a3 a4).dstate = a0.dstate := by
  simp only [State.sectorLost, dstate_mk, dstate_eta, dstate_ite, ite_self, State.dropWay_dstate, State.dropReplica_dstate, State.poisonLine_dstate, State.openShare_dstate, State.raise_dstate, State.updWay_dstate]

theorem State.checkSector_dstate (a0 a1 a2 a3 a4) : (State.checkSector a0 a1 a2 a3 a4).dstate = a0.dstate := by
  simp only [State.checkSector, dstate_ite, ite_self, State.cacheCorrected_dstate, State.updWay_dstate, State.sectorLost_dstate]

theorem State.checkSectors_dstate (a0 a1 a2 a3 a4) : (State.checkSectors a0 a1 a2 a3 a4).dstate = a0.dstate := by
  simp only [State.checkSectors, foldl_dstate, implies_true, State.checkSector_dstate]

theorem State.writeStored_dstate (a0 a1 a2 a3) : (State.writeStored a0 a1 a2 a3).dstate = a0.dstate := by
  simp only [State.writeStored, State.writeCoded_dstate]

theorem State.chanWrite_dstate (a0 a1 a2 a3 a4) : (State.chanWrite a0 a1 a2 a3 a4).1.dstate = a0.dstate := by
  simp only [State.chanWrite, State.mapCheck_dstate, State.openShare_dstate, State.setLineState_dstate, State.writeStored_dstate, State.decodeLine_dstate] <;> (repeat' split) <;> (first | (simp only [State.mapCheck_dstate, State.openShare_dstate, State.setLineState_dstate, State.writeStored_dstate, State.decodeLine_dstate]; done) | (rename_i h1; cases congrArg Prod.fst h1; (simp only [State.mapCheck_dstate, State.openShare_dstate, State.setLineState_dstate, State.writeStored_dstate, State.decodeLine_dstate]; done)))

theorem State.writeBackWay_dstate (a0 a1 a2 a3) : (State.writeBackWay a0 a1 a2 a3).dstate = a0.dstate := by
  simp only [State.writeBackWay, dstate_ite, ite_self, apply_ite Prod.fst, State.checkSectors_dstate, State.chanWrite_dstate, State.setLineState_dstate, State.writeStored_dstate, State.openShare_dstate, State.updWay_dstate, State.raise_dstate]

theorem State.evictWay_dstate (a0 a1 a2 a3) : (State.evictWay a0 a1 a2 a3).dstate = a0.dstate := by
  simp only [State.evictWay, dstate_ite, ite_self, State.writeBackWay_dstate, State.dropReplica_dstate, State.dropWay_dstate]

theorem State.countBypass_dstate (a0 a1 a2) : (State.countBypass a0 a1 a2).dstate = a0.dstate := by
  simp only [State.countBypass, State.event_dstate, State.updSlice_dstate]

theorem State.claimWay_dstate (a0 a1 a2 a3) : (State.claimWay a0 a1 a2 a3).1.dstate = a0.dstate := by
  unfold State.claimWay <;> (repeat' split) <;> (simp only [State.evictWay_dstate, State.countBypass_dstate]; done)

theorem State.tagWrite_dstate (a0 a1 a2 a3) : (State.tagWrite a0 a1 a2 a3).dstate = a0.dstate := by
  simp only [State.tagWrite, State.injected_dstate, State.updWay_dstate]

theorem State.installWay_dstate (a0 a1 a2 a3 a4) : (State.installWay a0 a1 a2 a3 a4).dstate = a0.dstate := by
  simp only [State.installWay, State.mapAges_dstate, State.tagWrite_dstate, State.setWay_dstate]

theorem State.writePlace_dstate (a0 a1 a2 a3 a4 a5 a6 a7) : (State.writePlace a0 a1 a2 a3 a4 a5 a6 a7).1.dstate = a0.dstate := by
  unfold State.writePlace <;> (repeat' split) <;> (first | with_reducible rfl | (rename_i h1; cases congrArg Prod.fst h1; (simp only [State.claimWay_dstate, State.installWay_dstate]; done)))

theorem State.putSectors_dstate (a0 a1 a2 a3 a4 a5) : (State.putSectors a0 a1 a2 a3 a4 a5).dstate = a0.dstate := by
  simp only [State.putSectors, foldl_dstate, implies_true, State.updWay_dstate, State.injected_dstate]

theorem State.touchWay_dstate (a0 a1 a2 a3) : (State.touchWay a0 a1 a2 a3).dstate = a0.dstate := by
  simp only [State.touchWay, State.updWay_dstate, State.mapAges_dstate]

theorem State.writeInto_dstate (a0 a1 a2 a3 a4 a5 a6 a7 a8 a9) : (State.writeInto a0 a1 a2 a3 a4 a5 a6 a7 a8 a9).1.dstate = a0.dstate := by
  unfold State.writeInto <;> (repeat' split) <;> (first | (simp only [State.putSectors_dstate, State.updWay_dstate, State.touchWay_dstate, State.tagWrite_dstate, State.chanWrite_dstate]; done) | (rename_i h2 h1; cases congrArg Prod.fst h2; (simp only [State.putSectors_dstate, State.updWay_dstate, State.touchWay_dstate, State.tagWrite_dstate, State.chanWrite_dstate]; done)))

theorem State.logDevice_dstate (a0 a1 a2 a3) : (State.logDevice a0 a1 a2 a3).dstate = a0.dstate := by
  simp only [State.logDevice, State.logCourse_dstate]

theorem State.writeSectors_dstate (a0 a1 a2 a3 a4 a5 a6) : (State.writeSectors a0 a1 a2 a3 a4 a5 a6).1.dstate = a0.dstate := by
  simp only [State.writeSectors, State.writeBase_dstate, State.writePlace_dstate, State.writeInto_dstate, State.logDevice_dstate] <;> (repeat' split) <;> (first | (rename_i h1; cases congrArg Prod.fst h1; (simp only [State.writeBase_dstate, State.writePlace_dstate, State.writeInto_dstate, State.logDevice_dstate]; done)) | (rename_i h1 _ h0; cases congrArg Prod.fst h1; (simp only [State.writeBase_dstate, State.writePlace_dstate, State.writeInto_dstate, State.logDevice_dstate]; done)))

theorem State.checkFound_dstate (a0 a1 a2 a3) : (State.checkFound a0 a1 a2 a3).dstate = a0.dstate := by
  simp only [State.checkFound] <;> (repeat' split) <;> (simp only [State.checkSectors_dstate])

theorem State.ucWrite_dstate (a0 a1 a2 a3 a4 a5) : (State.ucWrite a0 a1 a2 a3 a4 a5).1.dstate = a0.dstate := by
  simp only [State.ucWrite, State.checkTags_dstate, State.writeSectors_dstate, State.checkFound_dstate] <;> (repeat' split) <;> (simp only [State.checkTags_dstate, State.writeSectors_dstate, State.checkFound_dstate]; done)

theorem State.settleDir_dstate (a0 a1 a2) : (State.settleDir a0 a1 a2).dstate = a0.dstate := by
  simp only [State.settleDir, State.updWay_dstate, State.dropReplica_dstate] <;> (repeat' split) <;> (simp only [State.updWay_dstate, State.dropReplica_dstate])

theorem State.holdWrite_dstate (a0 a1 a2) : (State.holdWrite a0 a1 a2).dstate = a0.dstate := by
  simp only [State.holdWrite, dstate_mk, dstate_eta, State.holdAt_dstate] <;> (repeat' split) <;> (simp only [dstate_mk, dstate_eta, State.holdAt_dstate])

theorem State.writeAt_dstate (a0 a1 a2 a3 a4 a5 a6) : (State.writeAt a0 a1 a2 a3 a4 a5 a6).1.dstate = a0.dstate := by
  simp only [State.writeAt, State.bulk_dstate, State.ucWrite_dstate, State.settleDir_dstate, State.holdWrite_dstate] <;> (repeat' split) <;> (simp only [State.bulk_dstate, State.ucWrite_dstate, State.settleDir_dstate, State.holdWrite_dstate]; done)

theorem State.lineWrite_dstate (a0 a1 a2 a3 a4 a5) : (State.lineWrite a0 a1 a2 a3 a4 a5).1.dstate = a0.dstate := by
  simp only [State.lineWrite, State.writeAt_dstate]

theorem State.unwaitReq_dstate (a0 a1) : (State.unwaitReq a0 a1).dstate = a0.dstate := by
  simp only [State.unwaitReq, dstate_mk, dstate_eta]

theorem State.trial_dstate (a0 a1) (ha1 : ∀ b0, (a1 b0).dstate = b0.dstate) : (State.trial a0 a1).dstate = a0.dstate := by
  simp only [State.trial, dstate_mk, dstate_eta, ha1]

theorem State.setReq_dstate (a0 a1 a2) : (State.setReq a0 a1 a2).dstate = a0.dstate := by
  simp only [State.setReq, dstate_mk, dstate_eta]

theorem State.answerReq_dstate (a0 a1 a2) : (State.answerReq a0 a1 a2).dstate = a0.dstate := by
  simp only [State.answerReq] <;> (repeat' split) <;> (rfl)

theorem State.replicaHit_dstate (a0 a1 a2 a3 p) (h : State.replicaHit a0 a1 a2 a3 = some p) : p.1.dstate = a0.dstate := by
  unfold State.replicaHit at h; extract_lets q s1 at h; have e : s1.dstate = a0.dstate := (by simp only [s1]; split; exact State.checkSectors_dstate _ _ _ _ _; exact Eq.refl _); clear_value s1; split at h; rotate_left; exact nomatch h; dsimp only at h; split at h; rotate_left; exact nomatch h; have h2 := (Option.some.inj h).symm; subst h2; dsimp only; rw [State.countSectors_dstate, State.touchWay_dstate]; exact e

theorem State.cmdFault_dstate (a0 a1 a2 a3 a4) : (State.cmdFault a0 a1 a2 a3 a4).dstate = a0.dstate := by
  simp only [State.cmdFault, State.raise_dstate]

theorem State.faultReq_dstate (a0 a1 a2 a3 a4) : (State.faultReq a0 a1 a2 a3 a4).dstate = a0.dstate := by
  simp only [State.faultReq, State.answerReq_dstate, State.cmdFault_dstate]

theorem State.answerRead_dstate (a0 a1 a2 a3 a4) : (State.answerRead a0 a1 a2 a3 a4).dstate = a0.dstate := by
  simp only [State.answerRead, dstate_ite, ite_self, State.faultReq_dstate, State.answerReq_dstate]

theorem State.sendData_dstate (a0 a1 a2 a3) : (State.sendData a0 a1 a2 a3).dstate = a0.dstate := by
  simp only [State.sendData, State.bulk_dstate]

theorem State.enterReq_dstate (a0 a1) : (State.enterReq a0 a1).dstate = a0.dstate := by
  simp only [State.enterReq] <;> (repeat' split) <;> (rfl)

theorem State.serveOther_dstate (a0 a1 a2 a3 a4 a5) : (State.serveOther a0 a1 a2 a3 a4 a5).dstate = a0.dstate := by
  unfold State.serveOther; split; exact State.answerReq_dstate _ _ _; dsimp only; have e := State.checkTags_dstate a0 (a3 ^^^ 256) (setOf a4); generalize a0.checkTags (a3 ^^^ 256) (setOf a4) = t at e ⊢; split; (rw [State.answerReq_dstate]; exact e); cases h2 : t.replicaHit a3 a4 a5 with | some v => (dsimp only; rw [State.answerRead_dstate, State.sendData_dstate, State.replicaHit_dstate _ _ _ _ _ h2]; exact e) | none => (dsimp only; rw [State.enterReq_dstate, State.setReq_dstate]; exact e)

theorem State.inClass_dstate (a0 a1) : (State.inClass a0 a1).dstate = a0.dstate := by
  simp only [State.inClass, dstate_mk, dstate_eta]

theorem State.onBehalf_dstate (a0 a1) : (State.onBehalf a0 a1).dstate = a0.dstate := by
  simp only [State.onBehalf, State.inClass_dstate]

theorem State.waitReq_dstate (a0 a1) : (State.waitReq a0 a1).dstate = a0.dstate := by
  simp only [State.waitReq, dstate_mk, dstate_eta, dstate_ite, ite_self, State.enterReq_dstate]

theorem State.countRar_dstate (a0 a1) : (State.countRar a0 a1).dstate = a0.dstate := by
  simp only [State.countRar, State.updSlice_dstate]

theorem State.readHit_dstate (a0 a1 a2 a3) : (State.readHit a0 a1 a2 a3).1.dstate = a0.dstate := by
  unfold State.readHit <;> (repeat' split) <;> (simp only [dstate_ite, ite_self, State.touchWay_dstate, State.countSectors_dstate, State.countRar_dstate]; done)

theorem State.readInstall_dstate (a0 a1 a2 a3 a4 a5 a6 a7 a8) : (State.readInstall a0 a1 a2 a3 a4 a5 a6 a7 a8).dstate = a0.dstate := by
  unfold State.readInstall <;> (repeat' split) <;> (first | (simp only [State.updWay_dstate, State.putSectors_dstate, State.touchWay_dstate, State.tagWrite_dstate, State.claimWay_dstate, State.installWay_dstate]; done) | (rename_i h1; cases congrArg Prod.fst h1; (simp only [State.updWay_dstate, State.putSectors_dstate, State.touchWay_dstate, State.tagWrite_dstate, State.claimWay_dstate, State.installWay_dstate]; done)))

theorem State.readFetched_dstate (a0 a1 a2 a3 a4 a5 a6 a7 a8 a9 a10) : (State.readFetched a0 a1 a2 a3 a4 a5 a6 a7 a8 a9 a10).1.dstate = a0.dstate := by
  simp only [State.readFetched, dstate_ite, ite_self, State.countSectors_dstate, State.countRar_dstate, State.readInstall_dstate]

theorem State.readMiss_dstate (a0 a1 a2 a3 a4) : (State.readMiss a0 a1 a2 a3 a4).1.dstate = a0.dstate := by
  unfold State.readMiss <;> (repeat' split) <;> (rename_i h1; cases congrArg Prod.fst h1; (simp only [State.lineFetch_dstate, State.readFetched_dstate]; done))

theorem State.ucRead_dstate (a0 a1 a2 a3) : (State.ucRead a0 a1 a2 a3).1.dstate = a0.dstate := by
  simp only [State.ucRead, State.checkTags_dstate, State.checkFound_dstate, State.readHit_dstate, State.readMiss_dstate] <;> (repeat' split) <;> (simp only [State.checkTags_dstate, State.checkFound_dstate, State.readHit_dstate, State.readMiss_dstate]; done)

theorem State.sendAcross_dstate (a0 a1 a2 a3) : (State.sendAcross a0 a1 a2 a3).dstate = a0.dstate := by
  simp only [State.sendAcross, State.sendData_dstate, State.carry_dstate]

theorem State.badRead_dstate (a0 a1 a2 a3) : (State.badRead a0 a1 a2 a3).dstate = a0.dstate := by
  simp only [State.badRead, State.faultReq_dstate]

theorem State.applyRead_dstate (a0 a1 a2 a3 a4) : (State.applyRead a0 a1 a2 a3 a4).dstate = a0.dstate := by
  unfold State.applyRead; extract_lets b; have e := (State.ucRead_dstate a0 a3 a4 b); generalize a0.ucRead a3 a4 b = y at e ⊢; obtain ⟨t, r⟩ := y; dsimp only at e ⊢; cases r <;> dsimp only <;> (repeat' split) <;> (try simp only [State.answerReq_dstate, State.badRead_dstate, State.answerRead_dstate, State.sendData_dstate, State.sendAcross_dstate]) <;> exact e

theorem State.poisonWrite_dstate (a0 a1 a2 a3 a4 a5) : (State.poisonWrite a0 a1 a2 a3 a4 a5).dstate = a0.dstate := by
  simp only [State.poisonWrite, State.raise_dstate]

theorem State.applyWrite_dstate (a0 a1 a2 a3 a4) : (State.applyWrite a0 a1 a2 a3 a4).dstate = a0.dstate := by
  unfold State.applyWrite; extract_lets b; have e0 : b.dstate = a0.dstate := State.bulk_dstate _ _ _ _ _; clear_value b; have e := (State.ucWrite_dstate b a3 a4 (reqData a2.tva a2.accs) (reqMask a2.tva a2.accs) true).trans e0; generalize b.ucWrite a3 a4 (reqData a2.tva a2.accs) (reqMask a2.tva a2.accs) true = y at e ⊢; obtain ⟨t, r⟩ := y; dsimp only at e ⊢; cases r <;> dsimp only <;> (try simp only [State.answerReq_dstate, State.poisonWrite_dstate, State.signalUnits_dstate]) <;> exact e

theorem State.atomicWrite_dstate (a0 a1 a2 a3 a4 a5 a6 a7) : (State.atomicWrite a0 a1 a2 a3 a4 a5 a6 a7).1.dstate = a0.dstate := by
  unfold State.atomicWrite <;> (repeat' split) <;> (rename_i h1; cases congrArg Prod.fst h1; (simp only [State.ucWrite_dstate]; done))

theorem State.atomicHome_dstate (a0 a1 a2 a3 a4 a5 a6 a7 a8) : (State.atomicHome a0 a1 a2 a3 a4 a5 a6 a7 a8).1.dstate = a0.dstate := by
  unfold State.atomicHome <;> (repeat' split) <;> (rename_i h1; cases congrArg Prod.fst h1; (simp only [dstate_ite, ite_self, apply_ite Prod.fst, State.ucRead_dstate, State.atomicWrite_dstate]; done))

theorem State.atomicAt_dstate (a0 a1 a2 a3 a4 a5 a6) : (State.atomicAt a0 a1 a2 a3 a4 a5 a6).1.dstate = a0.dstate := by
  simp only [State.atomicAt, State.atomicHome_dstate]

theorem State.applyAtomic_dstate (a0 a1 a2 a3 a4 a5 a6 a7) : (State.applyAtomic a0 a1 a2 a3 a4 a5 a6 a7).dstate = a0.dstate := by
  unfold State.applyAtomic; extract_lets b; have e0 : b.dstate = a0.dstate := State.bulk_dstate _ _ _ _ _; clear_value b; have e := (State.atomicAt_dstate b (a2.dpa + a2.tva % 128) a2.atomicSize a4 a5 a6.toNat a7.toNat).trans e0; generalize b.atomicAt (a2.dpa + a2.tva % 128) a2.atomicSize a4 a5 a6.toNat a7.toNat = y at e ⊢; obtain ⟨t, r⟩ := y; dsimp only at e ⊢; cases r <;> dsimp only <;> (repeat' split) <;> (try simp only [State.answerReq_dstate, State.badRead_dstate, State.faultReq_dstate, State.poisonWrite_dstate, State.signalUnits_dstate]) <;> exact e

theorem State.applyReq_dstate (a0 a1 a2) : (State.applyReq a0 a1 a2).dstate = a0.dstate := by
  simp only [State.applyReq, State.onBehalf_dstate, State.applyRead_dstate, State.applyWrite_dstate, State.applyAtomic_dstate] <;> (repeat' split) <;> (simp only [State.onBehalf_dstate, State.applyRead_dstate, State.applyWrite_dstate, State.applyAtomic_dstate])

theorem State.setDir_dstate (a0 a1 a2 a3) : (State.setDir a0 a1 a2 a3).dstate = a0.dstate := by
  simp only [State.setDir, State.tagWrite_dstate, State.updWay_dstate] <;> (repeat' split) <;> (simp only [State.tagWrite_dstate, State.updWay_dstate])

theorem State.askInvalidate_dstate (a0 a1 a2) : (State.askInvalidate a0 a1 a2).dstate = a0.dstate := by
  simp only [State.askInvalidate, State.signalUnits_dstate, State.setDir_dstate]

theorem State.serveHome_dstate (a0 a1 a2 a3 a4) : (State.serveHome a0 a1 a2 a3 a4).dstate = a0.dstate := by
  simp only [State.serveHome, State.answerReq_dstate, State.waitReq_dstate, State.applyReq_dstate, State.askInvalidate_dstate] <;> (repeat' split) <;> (simp only [State.answerReq_dstate, State.waitReq_dstate, State.applyReq_dstate, State.askInvalidate_dstate])

theorem State.serveReq_dstate (a0 a1) : (State.serveReq a0 a1).dstate = a0.dstate := by
  simp only [State.serveReq, State.answerReq_dstate, State.serveOther_dstate, State.onBehalf_dstate, State.serveHome_dstate] <;> (repeat' split) <;> (simp only [State.answerReq_dstate, State.serveOther_dstate, State.onBehalf_dstate, State.serveHome_dstate])

theorem State.serveOrQueue_dstate (a0 a1) : (State.serveOrQueue a0 a1).dstate = a0.dstate := by
  simp only [State.serveOrQueue, dstate_mk, dstate_eta, implies_true, State.trial_dstate, State.serveReq_dstate, State.updChan_dstate, State.enterReq_dstate, State.waitReq_dstate] <;> (repeat' split) <;> (simp only [dstate_mk, dstate_eta, implies_true, State.trial_dstate, State.serveReq_dstate, State.updChan_dstate, State.enterReq_dstate, State.waitReq_dstate])

theorem serveList_dstate (a0 a1 a2) : (serveList a0 a1 a2).dstate = a2.dstate := by
  induction a1 generalizing a2 with
  | nil => simp only [serveList]
  | cons x t ih => simp only [serveList, dstate_mk, dstate_eta, State.unwaitReq_dstate, State.serveOrQueue_dstate, ih] <;> (repeat' split) <;> (simp only [dstate_mk, dstate_eta, State.unwaitReq_dstate, State.serveOrQueue_dstate, ih]; done)

theorem State.serveWaiting_dstate (a0 a1) : (State.serveWaiting a0 a1).dstate = a0.dstate := by
  simp only [State.serveWaiting, serveList_dstate]

theorem landPieces_dstate (a0 a1 a2 a3 a4) : (landPieces a0 a1 a2 a3 a4).1.dstate = a4.dstate := by
  induction a2 generalizing a3 a4 with
  | nil => simp only [landPieces]
  | cons x t ih => simp only [landPieces, State.lineWrite_dstate, State.serveWaiting_dstate, State.raise_dstate, ih] <;> (repeat' split) <;> (first | (simp only [State.lineWrite_dstate, State.serveWaiting_dstate, State.raise_dstate, ih]; done) | (rename_i h1; cases congrArg Prod.fst h1; (simp only [State.lineWrite_dstate, State.serveWaiting_dstate, State.raise_dstate, ih]; done)))

theorem State.landBytes_dstate (a0 a1 a2 a3 a4) : (State.landBytes a0 a1 a2 a3 a4).1.dstate = a0.dstate := by
  simp only [State.landBytes, State.setBuffer_dstate, landPieces_dstate, State.inClass_dstate] <;> (repeat' split) <;> (simp only [State.setBuffer_dstate, landPieces_dstate, State.inClass_dstate])

theorem State.rxMember_dstate (a0 a1 a2 a3 a4) : (State.rxMember a0 a1 a2 a3 a4).dstate = a0.dstate := by
  simp only [State.rxMember, dstate_mk, dstate_eta, State.countSweld_dstate, State.landBytes_dstate, State.setIn_dstate, State.abortIn_dstate] <;> (repeat' split) <;> (first | (simp only [dstate_mk, dstate_eta, State.countSweld_dstate, State.landBytes_dstate, State.setIn_dstate, State.abortIn_dstate]; done) | (rename_i h1; cases congrArg Prod.fst h1; (simp only [dstate_mk, dstate_eta, State.countSweld_dstate, State.landBytes_dstate, State.setIn_dstate, State.abortIn_dstate]; done)))

theorem State.rxCapstone_dstate (a0 a1 a2 a3 a4) : (State.rxCapstone a0 a1 a2 a3 a4).dstate = a0.dstate := by
  simp only [State.rxCapstone, State.sendMsg_dstate, State.setIn_dstate, State.countSweld_dstate] <;> (repeat' split) <;> (simp only [State.sendMsg_dstate, State.setIn_dstate, State.countSweld_dstate])

theorem State.rxLanded_dstate (a0 a1 a2 a3) : (State.rxLanded a0 a1 a2 a3).dstate = a0.dstate := by
  simp only [State.rxLanded] <;> (repeat' split) <;> (rfl)

theorem State.completeCmd_dstate (a0 a1 a2 a3) : (State.completeCmd a0 a1 a2 a3).dstate = a0.dstate := by
  simp only [State.completeCmd, State.completeWith_dstate]

theorem State.rxCapDone_dstate (a0 a1 a2) : (State.rxCapDone a0 a1 a2).dstate = a0.dstate := by
  unfold State.rxCapDone <;> split <;> (try simp only [dstate_ite, State.completeCmd_dstate, State.sendMsg_dstate, State.setOut_dstate]) <;> (repeat' split) <;> (rfl)

theorem State.rxClose_dstate (a0 a1 a2) : (State.rxClose a0 a1 a2).dstate = a0.dstate := by
  simp only [State.rxClose, State.delIn_dstate, State.breakIn_dstate] <;> (repeat' split) <;> (simp only [State.delIn_dstate, State.breakIn_dstate])

theorem State.rxAbort_dstate (a0 a1 a2 a3) : (State.rxAbort a0 a1 a2 a3).dstate = a0.dstate := by
  unfold State.rxAbort <;> (repeat' split) <;> (simp only [State.breakIn_dstate, State.refuseSend_dstate, State.countBroken_dstate, State.delOut_dstate, State.breakOut_dstate]; done)

theorem State.stepTime_dstate (a0 a1) : (State.stepTime a0 a1).dstate = a0.dstate := by
  simp only [State.stepTime, dstate_mk, dstate_eta, foldl_dstate, implies_true, State.updPort_dstate]

theorem State.rxBeacon_dstate (a0 a1 a2 a3) : (State.rxBeacon a0 a1 a2 a3).dstate = a0.dstate := by
  unfold State.rxBeacon; extract_lets v delay off s1 fm; have e1 : s1.dstate = a0.dstate := State.updPort_dstate _ _ _; clear_value s1; split; (rw [dstate_mk, dstate_eta]; exact (State.stepTime_dstate _ _).trans e1); split; (rw [dstate_mk, dstate_eta]; exact e1); split; (rw [dstate_mk, dstate_eta]; exact e1); exact e1

theorem State.rxMsg_dstate (a0 a1 a2) : (State.rxMsg a0 a1 a2).dstate = a0.dstate := by
  simp only [State.rxMsg, dstate_ite, ite_self, State.rxOpen_dstate, State.rxOpenAck_dstate, State.rxRefuse_dstate, State.rxMember_dstate, State.rxCapstone_dstate, State.rxLanded_dstate, State.rxCapDone_dstate, State.rxClose_dstate, State.rxAbort_dstate, State.rxBeacon_dstate]

theorem takeMsgs_dstate (a0 a1 a2 a3) : (takeMsgs a0 a1 a2 a3).1.dstate = a3.dstate := by
  induction a1 generalizing a2 a3 with
  | zero => simp only [takeMsgs]
  | succ k ih => simp only [takeMsgs, State.malformed_dstate, State.rxMsg_dstate, ih] <;> (repeat' split) <;> (simp only [State.malformed_dstate, State.rxMsg_dstate, ih]; done)

theorem State.acceptFlit_dstate (a0 a1 a2 a3) : (State.acceptFlit a0 a1 a2 a3).dstate = a0.dstate := by
  simp only [State.acceptFlit, State.updPort_dstate, takeMsgs_dstate]

theorem State.corruptLine_dstate (a0 a1 a2 a3) : (State.corruptLine a0 a1 a2 a3).dstate = a0.dstate := by
  simp only [State.corruptLine, dstate_ite, ite_self, State.storeWord_dstate]

theorem State.addErrors_dstate (a0 a1 a2 a3) : (State.addErrors a0 a1 a2 a3).dstate = a0.dstate := by
  simp only [State.addErrors, dstate_ite, ite_self, State.corruptLine_dstate]

theorem State.addGang_dstate (a0 a1 a2 a3 a4 a5) : (State.addGang a0 a1 a2 a3 a4 a5).dstate = a0.dstate := by
  simp only [State.addGang, dstate_mk, dstate_eta]

theorem State.vrTransaction_dstate (a0 a1 a2) : (State.vrTransaction a0 a1 a2).dstate = a0.dstate := by
  simp only [State.vrTransaction, dstate_mk, dstate_eta]

theorem State.writeSetPoint_dstate (a0 a1) : (State.writeSetPoint a0 a1).dstate = a0.dstate := by
  simp only [State.writeSetPoint, dstate_mk, dstate_eta, dstate_ite, ite_self]

theorem State.adjustRail_dstate (a0 a1 a2) : (State.adjustRail a0 a1 a2).dstate = a0.dstate := by
  simp only [State.adjustRail, dstate_ite, ite_self, State.vrTransaction_dstate, State.writeSetPoint_dstate]

theorem State.agFault_dstate (a0 a1 a2 a3) : (State.agFault a0 a1 a2 a3).dstate = a0.dstate := by
  simp only [State.agFault, State.cmdFault_dstate]

theorem State.agDpa_dstate (a0 a1 a2 a3) : (State.agDpa a0 a1 a2 a3).1.dstate = a0.dstate := by
  simp only [State.agDpa] <;> (repeat' split) <;> (simp only [State.agFault_dstate])

theorem State.holdRead_dstate (a0 a1 a2) : (State.holdRead a0 a1 a2).dstate = a0.dstate := by
  simp only [State.holdRead] <;> (repeat' split) <;> (simp only [State.holdAt_dstate])

theorem State.homeRead_dstate (a0 a1 a2 a3 a4) : (State.homeRead a0 a1 a2 a3 a4).1.dstate = a0.dstate := by
  unfold State.homeRead <;> (repeat' split) <;> (first | (simp only [State.ucRead_dstate, State.holdRead_dstate, State.sendData_dstate]; done) | (rename_i h1; cases congrArg Prod.fst h1; (simp only [State.ucRead_dstate, State.holdRead_dstate, State.sendData_dstate]; done)))

theorem State.installReplica_dstate (a0 a1 a2) : (State.installReplica a0 a1 a2).1.dstate = a0.dstate := by
  unfold State.installReplica <;> (try dsimp only) <;> (repeat' split) <;> (first | (simp only [State.checkFound_dstate, State.carry_dstate, State.touchWay_dstate, State.putSectors_dstate, State.claimWay_dstate, State.installWay_dstate]; done) | (rename_i h1; cases congrArg Prod.fst h1; (simp only [State.checkFound_dstate, State.carry_dstate, State.touchWay_dstate, State.putSectors_dstate, State.claimWay_dstate, State.installWay_dstate]; done)))

theorem State.partnerRead_dstate (a0 a1 a2 a3 a4) : (State.partnerRead a0 a1 a2 a3 a4).1.dstate = a0.dstate := by
  unfold State.partnerRead; have e := (State.ucRead_dstate (a0.holdRead a1 a2) a1 a2 a3).trans (State.holdRead_dstate _ _ _); generalize (a0.holdRead a1 a2).ucRead a1 a2 a3 = y at e ⊢; obtain ⟨t, r⟩ := y; dsimp only at e ⊢; cases r with | data b rar => (dsimp only; split; (split; (have e3 := State.installReplica_dstate t a1 a2; generalize t.installReplica a1 a2 = y2 at e3 ⊢; obtain ⟨t2, r2⟩ := y2; dsimp only at e3 ⊢; split <;> simp only [State.updWay_dstate, State.sendData_dstate] <;> exact e3.trans e); (simp only [State.sendData_dstate]; exact e)); (dsimp only; split <;> (simp only [State.sendData_dstate, State.sendAcross_dstate]; exact e))) | bad c => exact e | shield d i => exact e

theorem State.otherRead_dstate (a0 a1 a2 a3 a4) : (State.otherRead a0 a1 a2 a3 a4).1.dstate = a0.dstate := by
  unfold State.otherRead; split; exact Eq.refl _; dsimp only; have e := State.checkTags_dstate a0 (a1 ^^^ 256) (setOf a2); generalize a0.checkTags (a1 ^^^ 256) (setOf a2) = t at e ⊢; split; exact e; cases h2 : t.replicaHit a1 a2 a3 with | some v => (dsimp only; rw [State.sendData_dstate, State.replicaHit_dstate _ _ _ _ _ h2]; exact e) | none => (dsimp only; rw [State.partnerRead_dstate]; exact e)

theorem State.lineRead_dstate (a0 a1 a2 a3 a4) : (State.lineRead a0 a1 a2 a3 a4).1.dstate = a0.dstate := by
  simp only [State.lineRead, dstate_ite, ite_self, apply_ite Prod.fst, State.homeRead_dstate, State.otherRead_dstate]

theorem State.agAbort_dstate (a0 a1 a2 a3) : (State.agAbort a0 a1 a2 a3).dstate = a0.dstate := by
  simp only [State.agAbort, State.stopCmd_dstate]

theorem State.agReadPiece_dstate (a0 a1 a2 a3 a4) : (State.agReadPiece a0 a1 a2 a3 a4).1.dstate = a0.dstate := by
  unfold State.agReadPiece <;> (repeat' split) <;> (first | (rename_i h1; cases congrArg Prod.fst h1; (simp only [State.lineRead_dstate, State.agFault_dstate, State.agAbort_dstate]; done)) | (rename_i h2 h1; cases congrArg Prod.fst h2; (simp only [State.lineRead_dstate, State.agFault_dstate, State.agAbort_dstate]; done)))

theorem agReadPieces_dstate (a0 a1 a2 a3) : (agReadPieces a0 a1 a2 a3).1.dstate = a3.dstate := by
  induction a1 generalizing a2 a3 with
  | nil => simp only [agReadPieces]
  | cons x t ih => simp only [agReadPieces, State.agDpa_dstate, State.agReadPiece_dstate, ih] <;> (repeat' split) <;> (first | (rename_i h1; cases congrArg Prod.fst h1; (simp only [State.agDpa_dstate, State.agReadPiece_dstate, ih]; done)) | (rename_i h1 _ _ h0; cases congrArg Prod.fst h1; cases congrArg Prod.fst h0; (simp only [State.agDpa_dstate, State.agReadPiece_dstate, ih]; done)) | (rename_i h1 _ _ _ h0; cases congrArg Prod.fst h1; cases congrArg Prod.fst h0; (simp only [State.agDpa_dstate, State.agReadPiece_dstate, ih]; done)))

theorem State.agRead_dstate (a0 a1 a2 a3) : (State.agRead a0 a1 a2 a3).1.dstate = a0.dstate := by
  simp only [State.agRead, agReadPieces_dstate, State.onBehalf_dstate]

theorem readParts_dstate (a0 a1 a2 a3) : (readParts a0 a1 a2 a3).1.dstate = a3.dstate := by
  induction a2 generalizing a3 with
  | nil => simp only [readParts]
  | cons x t ih => simp only [readParts, State.agRead_dstate, ih] <;> (repeat' split) <;> (rename_i h1; cases congrArg Prod.fst h1; (simp only [State.agRead_dstate, ih]; done))

theorem State.loadParts_dstate (a0 a1 a2 a3) : (State.loadParts a0 a1 a2 a3).1.dstate = a0.dstate := by
  simp only [State.loadParts, dstate_ite, ite_self, apply_ite Prod.fst, readParts_dstate]

theorem State.afterLoad_dstate (a0 a1 a2 a3 a4) (ha4 : ∀ b0, (a4 b0).dstate = b0.dstate) : (State.afterLoad a0 a1 a2 a3 a4).dstate = a0.dstate := by
  unfold State.afterLoad <;> (repeat' split) <;> (rename_i h1; cases congrArg Prod.fst h1; (simp only [dstate_ite, ite_self, apply_ite Prod.fst, State.loadParts_dstate, ha4]; done))

theorem State.agWritePiece_dstate (a0 a1 a2 a3 a4 a5 a6) : (State.agWritePiece a0 a1 a2 a3 a4 a5 a6).1.dstate = a0.dstate := by
  simp only [State.agWritePiece, State.lineWrite_dstate, State.serveWaiting_dstate, State.poisonWrite_dstate, State.agAbort_dstate] <;> (repeat' split) <;> (rename_i h1; cases congrArg Prod.fst h1; (simp only [State.lineWrite_dstate, State.serveWaiting_dstate, State.poisonWrite_dstate, State.agAbort_dstate]; done))

theorem agWritePieces_dstate (a0 a1 a2 a3 a4) : (agWritePieces a0 a1 a2 a3 a4).1.dstate = a4.dstate := by
  induction a2 generalizing a3 a4 with
  | nil => simp only [agWritePieces]
  | cons x t ih => simp only [agWritePieces, State.agDpa_dstate, State.agWritePiece_dstate, ih] <;> (repeat' split) <;> (first | (rename_i h1; cases congrArg Prod.fst h1; (simp only [State.agDpa_dstate, State.agWritePiece_dstate, ih]; done)) | (rename_i h1 _ _ h0; cases congrArg Prod.fst h1; cases congrArg Prod.fst h0; (simp only [State.agDpa_dstate, State.agWritePiece_dstate, ih]; done)))

theorem State.agWrite_dstate (a0 a1 a2 a3) : (State.agWrite a0 a1 a2 a3).1.dstate = a0.dstate := by
  simp only [State.agWrite, agWritePieces_dstate, State.onBehalf_dstate]

theorem State.writeSaved_dstate (a0 a1 a2 a3) : (State.writeSaved a0 a1 a2 a3).1.dstate = a0.dstate := by
  simp only [State.writeSaved, dstate_mk, dstate_eta, State.agWrite_dstate]

theorem State.savePart_dstate (a0 a1 a2 a3) : (State.savePart a0 a1 a2 a3).1.dstate = a0.dstate := by
  simp only [State.savePart, dstate_ite, ite_self, apply_ite Prod.fst, State.writeSaved_dstate]

theorem State.afterSave_dstate (a0 a1 a2 a3 a4) (ha4 : ∀ b0, (a4 b0).dstate = b0.dstate) : (State.afterSave a0 a1 a2 a3 a4).dstate = a0.dstate := by
  unfold State.afterSave <;> (repeat' split) <;> (rename_i h1; cases congrArg Prod.fst h1; (simp only [State.savePart_dstate, ha4]; done))

theorem State.agHostWrite_dstate (a0 a1 a2 a3 a4) : (State.agHostWrite a0 a1 a2 a3 a4).1.dstate = a0.dstate := by
  simp only [State.agHostWrite, dstate_ite, ite_self, apply_ite Prod.fst, State.updCmd_dstate, State.bulk_dstate, State.onBehalf_dstate, State.tenantHostWrite_dstate, State.agFault_dstate]

theorem State.agStore_dstate (a0 a1 a2 a3 a4) : (State.agStore a0 a1 a2 a3 a4).1.dstate = a0.dstate := by
  simp only [State.agStore, dstate_ite, ite_self, apply_ite Prod.fst, State.agHostWrite_dstate, State.agWrite_dstate]

theorem State.alignDies_dstate (a0) : (State.alignDies a0).dstate = a0.dstate := by
  simp only [State.alignDies, dstate_mk, dstate_eta, foldl_dstate, implies_true, State.drawChoice_dstate]

theorem State.answer_dstate (a0 a1 a2) : (State.answer a0 a1 a2).dstate = a0.dstate := by
  simp only [State.answer, dstate_mk, dstate_eta, dstate_ite, ite_self]

theorem State.appendJournal_dstate (a0 a1) : (State.appendJournal a0 a1).dstate = a0.dstate := by
  simp only [State.appendJournal, dstate_mk, dstate_eta]

theorem State.applyAgain_dstate (a0 a1) : (State.applyAgain a0 a1).dstate = a0.dstate := by
  simp only [State.applyAgain] <;> (repeat' split) <;> (simp only [State.applyReq_dstate])

theorem State.applyRemap_dstate (a0 a1 a2 a3) : (State.applyRemap a0 a1 a2 a3).dstate = a0.dstate := by
  simp only [State.applyRemap, dstate_ite, ite_self, State.dramStore_dstate, State.updChan_dstate]

theorem State.applyPinKill_dstate (a0 a1 a2 a3) : (State.applyPinKill a0 a1 a2 a3).dstate = a0.dstate := by
  simp only [State.applyPinKill, dstate_ite, ite_self, State.updChan_dstate]

theorem State.applyEntry_dstate (a0 a1 a2 a3 a4) : (State.applyEntry a0 a1 a2 a3 a4).dstate = a0.dstate := by
  simp only [State.applyEntry, dstate_mk, dstate_eta, dstate_ite, ite_self, State.raise_dstate, State.applyRemap_dstate, State.applyPinKill_dstate]

theorem State.applyMatch_dstate {α : Type} (a0 : State) (m : Match α) (f : State → α → Nat → State) (b : State → State) (v : Nat) (hf : ∀ s r v, (f s r v).dstate = s.dstate) (hb : ∀ s, (b s).dstate = s.dstate) : (State.applyMatch a0 m f b v).dstate = a0.dstate := by
  unfold State.applyMatch; split; exact hf _ _ _; dsimp only; split <;> split <;> simp only [hf]; exact hb _

theorem State.applyModes_dstate (a0 a1 a2 a3) : (State.applyModes a0 a1 a2 a3).dstate = a0.dstate := by
  simp only [State.applyModes, dstate_ite, foldl_dstate, ite_self, implies_true, State.updBay_dstate]

theorem applyEntries_dstate (a0 a1 a2 a3 a4) : (applyEntries a0 a1 a2 a3 a4).dstate = a4.dstate := by
  induction a3 generalizing a2 a4 with
  | nil => simp only [applyEntries]
  | cons x t ih => simp only [applyEntries, dstate_ite, ite_self, State.applyEntry_dstate, ih]

theorem State.applyRepairs_dstate (a0 a1 a2) : (State.applyRepairs a0 a1 a2).dstate = a0.dstate := by
  simp only [State.applyRepairs, applyEntries_dstate]

theorem State.leaveWindow_dstate (a0 a1) : (State.leaveWindow a0 a1).dstate = a0.dstate := by
  simp only [State.leaveWindow, State.updSq_dstate, State.updCq_dstate]

theorem State.endAtArbiter_dstate (a0 a1 a2 a3 a4 a5) : (State.endAtArbiter a0 a1 a2 a3 a4 a5).dstate = a0.dstate := by
  simp only [State.endAtArbiter, State.completeWith_dstate, State.leaveWindow_dstate]

theorem State.capture_dstate (a0 a1) : (State.capture a0 a1).dstate = a0.dstate := by
  simp only [State.capture, foldl_dstate, implies_true, State.updCmd_dstate, State.updHandle_dstate]

theorem State.sendGrants_dstate (a0 a1) : (State.sendGrants a0 a1).dstate = a0.dstate := by
  simp only [State.sendGrants, foldl_dstate, implies_true, State.signalUnits_dstate]

theorem State.holdBay_dstate (a0 a1 a2) : (State.holdBay a0 a1 a2).dstate = a0.dstate := by
  simp only [State.holdBay, State.updBay_dstate]

theorem State.takeUnit_dstate (a0 a1 a2) : (State.takeUnit a0 a1 a2).dstate = a0.dstate := by
  simp only [State.takeUnit, State.holdBay_dstate, State.updBay_dstate]

theorem State.l1DropClean_dstate (a0 a1) : (State.l1DropClean a0 a1).dstate = a0.dstate := by
  simp only [State.l1DropClean, State.updBay_dstate]

theorem State.roInvalidate_dstate (a0 a1) : (State.roInvalidate a0 a1).dstate = a0.dstate := by
  simp only [State.roInvalidate, State.updBay_dstate]

theorem State.roRoom_dstate (a0 a1 a2 a3) : (State.roRoom a0 a1 a2 a3).2.dstate = a0.dstate := by
  simp only [State.roRoom, dstate_ite, ite_self, apply_ite Prod.snd, State.drawChoice_dstate]

theorem State.cacheBlock_dstate (a0 a1 a2) : (State.cacheBlock a0 a1 a2).dstate = a0.dstate := by
  simp only [State.cacheBlock, dstate_ite, ite_self, State.roRoom_dstate, State.updBay_dstate]

theorem State.takeGrant_dstate (a0 a1 a2) : (State.takeGrant a0 a1 a2).dstate = a0.dstate := by
  simp only [State.takeGrant, dstate_ite, foldl_dstate, ite_self, implies_true, State.takeUnit_dstate, State.l1DropClean_dstate, State.roInvalidate_dstate, State.cacheBlock_dstate, State.updCmd_dstate]

theorem State.begin_dstate (a0 a1 a2) : (State.begin a0 a1 a2).dstate = a0.dstate := by
  simp only [State.begin, dstate_mk, dstate_eta, dstate_ite, ite_self, State.leaveWindow_dstate, State.setCmd_dstate, State.count_dstate, State.event_dstate, State.capture_dstate, State.sendGrants_dstate, State.takeGrant_dstate]

theorem State.settled_dstate (a0 a1) (ha1 : ∀ b0, (a1 b0).dstate = b0.dstate) : (State.settled a0 a1).dstate = a0.dstate := by
  simp only [State.settled, dstate_mk, dstate_eta, dstate_ite, foldl_dstate, ite_self, implies_true, State.trial_dstate, State.askInvalidate_dstate, ha1]

theorem readImages_dstate (a0 a1 a2) : (readImages a0 a1 a2).dstate = a2.dstate := by
  induction a1 generalizing a2 with
  | nil => simp only [readImages]
  | cons x t ih => simp only [readImages, State.agRead_dstate, ih] <;> (repeat' split) <;> (rename_i h1; cases congrArg Prod.fst h1; (simp only [State.agRead_dstate, ih]; done))

theorem State.resumeImages_dstate (a0 a1 a2) : (State.resumeImages a0 a1 a2).dstate = a0.dstate := by
  simp only [State.resumeImages, foldl_dstate, implies_true, State.cacheBlock_dstate, State.takeUnit_dstate, State.updCmd_dstate, readImages_dstate]

theorem State.setGang_dstate (a0 a1 a2) : (State.setGang a0 a1 a2).dstate = a0.dstate := by
  simp only [State.setGang, dstate_mk, dstate_eta]

theorem State.reissue_dstate (a0 a1) : (State.reissue a0 a1).dstate = a0.dstate := by
  simp only [State.reissue, dstate_mk, dstate_eta]

theorem State.footWrite_dstate (a0 a1 a2 a3 a4) : (State.footWrite a0 a1 a2 a3 a4).dstate = a0.dstate := by
  simp only [State.footWrite, State.updBay_dstate]

theorem State.resumeGang_dstate (a0 a1 a2 a3 a4) : (State.resumeGang a0 a1 a2 a3 a4).dstate = a0.dstate := by
  simp only [State.resumeGang, State.setGang_dstate, State.reissue_dstate, State.footWrite_dstate]

end Sys2Proof.Machine
end

