-- ==== Sys2Proof/Laws/DevStateB.lean ====
section
/-! SUPPORT. Operations that leave the state of the device as it is, part 2 of 3. -/

namespace Sys2Proof.Machine

set_option linter.unusedSimpArgs false
set_option linter.unusedVariables false

theorem State.updGang_dstate (a0 a1 a2) : (State.updGang a0 a1 a2).dstate = a0.dstate := by
  simp only [State.updGang, State.setGang_dstate]

theorem promote_dstate (a0 a1 a2 a3) : (promote a0 a1 a2 a3).dstate = a3.dstate := by
  induction a0 generalizing a3 with
  | zero => simp only [promote]
  | succ k ih => simp only [promote, State.updGang_dstate, ih] <;> (repeat' split) <;> (simp only [State.updGang_dstate, ih])

theorem State.fillActive_dstate (a0 a1 a2) : (State.fillActive a0 a1 a2).dstate = a0.dstate := by
  simp only [State.fillActive, promote_dstate]

theorem State.resumeBay_dstate (a0 a1 a2) : (State.resumeBay a0 a1 a2).dstate = a0.dstate := by
  simp only [State.resumeBay, foldl_dstate, implies_true, State.takeUnit_dstate, State.cacheBlock_dstate, State.l1DropClean_dstate, State.resumeGang_dstate, State.updCmd_dstate, State.fillActive_dstate, readImages_dstate]

theorem State.perform_dstate (a0 a1 a2) : (State.perform a0 a1 a2).1.dstate = a0.dstate := by
  unfold State.perform <;> (repeat' split) <;> (simp only [implies_true, State.endAtArbiter_dstate, State.completeWith_dstate, State.begin_dstate, State.settled_dstate, State.resumeImages_dstate, State.resumeBay_dstate]; done)

theorem State.handleEffect_dstate (a0 a1) : (State.handleEffect a0 a1).dstate = a0.dstate := by
  simp only [State.handleEffect, dstate_ite, ite_self, State.updHandle_dstate, State.completeCmd_dstate, State.updCmd_dstate, State.retireHandle_dstate]

theorem State.handleEffects_dstate (a0 a1) : (State.handleEffects a0 a1).dstate = a0.dstate := by
  simp only [State.handleEffects, foldl_dstate, implies_true, State.handleEffect_dstate]

theorem State.managerEffect_dstate (a0) : (State.managerEffect a0).dstate = a0.dstate := by
  simp only [State.managerEffect, dstate_mk, dstate_eta, State.updHandle_dstate, State.retireHandle_dstate] <;> (repeat' split) <;> (simp only [dstate_mk, dstate_eta, State.updHandle_dstate, State.retireHandle_dstate])

theorem State.managerOnEdge_dstate (a0 a1) : (State.managerOnEdge a0 a1).dstate = a0.dstate := by
  simp only [State.managerOnEdge] <;> (repeat' split) <;> (simp only [State.managerEffect_dstate])

theorem State.arbEdge_dstate (a0) : (State.arbEdge a0).dstate = a0.dstate := by
  simp only [State.arbEdge, dstate_mk, dstate_eta, State.perform_dstate, State.handleEffects_dstate, State.managerOnEdge_dstate] <;> (repeat' split) <;> (simp only [dstate_mk, dstate_eta, State.perform_dstate, State.handleEffects_dstate, State.managerOnEdge_dstate])

theorem State.arrayInfo_dstate (a0) : (State.arrayInfo a0).2.dstate = a0.dstate := by
  simp only [State.arrayInfo, State.drawResult_dstate]

theorem State.arrayCorrected_dstate (a0 a1) : (State.arrayCorrected a0 a1).dstate = a0.dstate := by
  simp only [State.arrayCorrected, State.arrayInfo_dstate, State.raise_dstate]

theorem State.arrayLost_dstate (a0 a1 a2) : (State.arrayLost a0 a1 a2).dstate = a0.dstate := by
  simp only [State.arrayLost, State.arrayInfo_dstate, State.cmdFault_dstate]

theorem State.atPort_dstate (a0 a1 a2) (ha2 : ∀ b0, (a2 b0).dstate = b0.dstate) : (State.atPort a0 a1 a2).dstate = a0.dstate := by
  simp only [State.atPort, dstate_ite, ite_self, ha2]

theorem State.demote_dstate (a0 a1 a2 a3) : (State.demote a0 a1 a2 a3).dstate = a0.dstate := by
  simp only [State.demote, dstate_ite, ite_self, State.fillActive_dstate, State.updGang_dstate]

theorem State.awaiting_dstate (a0 a1 a2 a3) (ha3 : ∀ b0, (a3 b0).dstate = b0.dstate) : (State.awaiting a0 a1 a2 a3).dstate = a0.dstate := by
  simp only [State.awaiting, dstate_ite, ite_self, State.demote_dstate, ha3]

theorem State.countAccess_dstate (a0 a1 a2 a3) : (State.countAccess a0 a1 a2 a3).dstate = a0.dstate := by
  simp only [State.countAccess, dstate_mk, dstate_eta, dstate_ite, ite_self]

theorem State.pageWrite_dstate (a0 a1 a2 a3) (ha3 : ∀ b0, (a3 b0).dstate = b0.dstate) : (State.pageWrite a0 a1 a2 a3).dstate = a0.dstate := by
  simp only [State.pageWrite, dstate_ite, ite_self, State.updSlice_dstate, ha3]

theorem State.badWrite_dstate (a0 a1 a2) : (State.badWrite a0 a1 a2).dstate = a0.dstate := by
  simp only [State.badWrite, dstate_ite, ite_self, implies_true, State.countAccess_dstate, State.pageWrite_dstate]

theorem State.bagSpan_dstate (a0 a1 a2 a3) : (State.bagSpan a0 a1 a2 a3).1.dstate = a0.dstate := by
  unfold State.bagSpan <;> (repeat' split) <;> (first | with_reducible rfl | (rename_i h1; cases congrArg Prod.fst h1; (simp only [dstate_ite, ite_self, apply_ite Prod.fst, State.agRead_dstate, State.agFault_dstate]; done)))

theorem State.bayCheck_dstate (a0 a1 a2) : (State.bayCheck a0 a1 a2).dstate = a0.dstate := by
  simp only [State.bayCheck, dstate_ite, foldl_dstate, ite_self, implies_true, State.updBay_dstate, State.arrayCorrected_dstate, State.arrayLost_dstate]

theorem State.bayWrite_dstate (a0 a1 a2) : (State.bayWrite a0 a1 a2).dstate = a0.dstate := by
  simp only [State.bayWrite, dstate_ite, ite_self, State.injected_dstate, State.updBay_dstate]

theorem State.beginBag_dstate (a0 a1 a2 a3 a4) : (State.beginBag a0 a1 a2 a3 a4).dstate = a0.dstate := by
  unfold State.beginBag <;> (repeat' split) <;> (rename_i h1; cases congrArg Prod.fst h1; (simp only [State.bagSpan_dstate, State.updCmd_dstate]; done))

theorem State.noteStart_dstate (a0 a1 a2 a3) : (State.noteStart a0 a1 a2 a3).dstate = a0.dstate := by
  simp only [State.noteStart, dstate_mk, dstate_eta]

theorem State.settleLine_dstate (a0 a1) : (State.settleLine a0 a1).dstate = a0.dstate := by
  simp only [State.settleLine, State.settleDir_dstate]

theorem State.holdLine_dstate (a0 a1) : (State.holdLine a0 a1).dstate = a0.dstate := by
  simp only [State.holdLine, State.holdWrite_dstate]

theorem State.takeNow_dstate (a0 a1 a2) : (State.takeNow a0 a1 a2).dstate = a0.dstate := by
  simp only [State.takeNow, State.applyReq_dstate, State.settleLine_dstate, State.holdLine_dstate, State.unwaitReq_dstate]

theorem State.dropReq_dstate (a0 a1) : (State.dropReq a0 a1).dstate = a0.dstate := by
  simp only [State.dropReq, dstate_mk, dstate_eta]

theorem State.settleReq_dstate (a0 a1 a2) : (State.settleReq a0 a1 a2).dstate = a0.dstate := by
  simp only [State.settleReq, dstate_mk, dstate_eta, State.dropReq_dstate, State.updGang_dstate, State.updCmd_dstate, State.fillActive_dstate] <;> (repeat' split) <;> (simp only [dstate_mk, dstate_eta, State.dropReq_dstate, State.updGang_dstate, State.updCmd_dstate, State.fillActive_dstate])

theorem State.takeShield_dstate (a0 a1) : (State.takeShield a0 a1).dstate = a0.dstate := by
  simp only [State.takeShield, State.setReq_dstate, State.dropReq_dstate, State.settleReq_dstate, State.stopCmd_dstate] <;> (repeat' split) <;> (simp only [State.setReq_dstate, State.dropReq_dstate, State.settleReq_dstate, State.stopCmd_dstate])

theorem State.doWriteAck_dstate (a0 a1) : (State.doWriteAck a0 a1).dstate = a0.dstate := by
  simp only [State.doWriteAck, State.dropReq_dstate, State.settleReq_dstate] <;> (repeat' split) <;> (simp only [State.dropReq_dstate, State.settleReq_dstate])

theorem State.setL1_dstate (a0 a1 a2 a3) : (State.setL1 a0 a1 a2 a3).dstate = a0.dstate := by
  simp only [State.setL1, State.updBay_dstate]

theorem State.dropL1_dstate (a0 a1 a2) : (State.dropL1 a0 a1 a2).dstate = a0.dstate := by
  simp only [State.dropL1, State.updBay_dstate]

theorem State.landLine_dstate (a0 a1 a2) : (State.landLine a0 a1 a2).dstate = a0.dstate := by
  simp only [State.landLine, foldl_dstate, implies_true, State.takeNow_dstate]

theorem State.l1PutBack_dstate (a0 a1 a2 a3 a4 a5) : (State.l1PutBack a0 a1 a2 a3 a4 a5).1.dstate = a0.dstate := by
  unfold State.l1PutBack <;> (repeat' split) <;> (rename_i h1; cases congrArg Prod.fst h1; (simp only [foldl_dstate, implies_true, State.lineWrite_dstate, State.serveWaiting_dstate, State.poisonWrite_dstate, State.agAbort_dstate]; done))

theorem State.l1WritePart_dstate (a0 a1 a2 a3) : (State.l1WritePart a0 a1 a2 a3).1.dstate = a0.dstate := by
  simp only [State.l1WritePart, State.setL1_dstate, State.landLine_dstate, State.agDpa_dstate, State.l1PutBack_dstate, State.onBehalf_dstate] <;> (repeat' split) <;> (first | with_reducible rfl | (rename_i h1; cases congrArg Prod.fst h1; (simp only [State.setL1_dstate, State.landLine_dstate, State.agDpa_dstate, State.l1PutBack_dstate, State.onBehalf_dstate]; done)) | (rename_i h2 h1; cases congrArg Prod.fst h2; (simp only [State.setL1_dstate, State.landLine_dstate, State.agDpa_dstate, State.l1PutBack_dstate, State.onBehalf_dstate]; done)))

theorem State.l1WriteMask_dstate (a0 a1 a2 a3) : (State.l1WriteMask a0 a1 a2 a3).1.dstate = a0.dstate := by
  unfold State.l1WriteMask <;> (repeat' split) <;> (rename_i h1; cases congrArg Prod.fst h1; (simp only [foldl_dstate, implies_true, State.l1WritePart_dstate, State.agAbort_dstate]; done))

theorem State.l1WriteBack_dstate (a0 a1 a2) : (State.l1WriteBack a0 a1 a2).1.dstate = a0.dstate := by
  simp only [State.l1WriteBack, State.l1WriteMask_dstate]

theorem State.l1Room_dstate (a0 a1) : (State.l1Room a0 a1).dstate = a0.dstate := by
  simp only [State.l1Room, dstate_ite, ite_self, State.drawChoice_dstate, State.dropL1_dstate, State.l1WriteBack_dstate]

theorem State.l1Fill_dstate (a0 a1 a2 a3 a4) : (State.l1Fill a0 a1 a2 a3 a4).dstate = a0.dstate := by
  simp only [State.l1Fill, State.setL1_dstate, State.l1Room_dstate] <;> (repeat' split) <;> (simp only [State.setL1_dstate, State.l1Room_dstate])

theorem State.setReg_dstate (a0 a1 a2 a3 a4) : (State.setReg a0 a1 a2 a3 a4).dstate = a0.dstate := by
  simp only [State.setReg, dstate_ite, ite_self, State.updGang_dstate]

theorem State.freeReg_dstate (a0 a1 a2) : (State.freeReg a0 a1 a2).dstate = a0.dstate := by
  simp only [State.freeReg, dstate_mk, dstate_eta, dstate_ite, ite_self, State.setReg_dstate]

theorem State.setRegByte_dstate (a0 a1 a2 a3 a4) : (State.setRegByte a0 a1 a2 a3 a4).dstate = a0.dstate := by
  simp only [State.setRegByte, State.setReg_dstate]

theorem State.deliver_dstate (a0 a1 a2 a3 a4) : (State.deliver a0 a1 a2 a3 a4).dstate = a0.dstate := by
  simp only [State.deliver, dstate_ite, foldl_dstate, ite_self, implies_true, State.freeReg_dstate, State.setRegByte_dstate]

theorem State.deliverLoad_dstate (a0 a1 a2 a3) : (State.deliverLoad a0 a1 a2 a3).dstate = a0.dstate := by
  simp only [State.deliverLoad, dstate_ite, ite_self, State.l1Fill_dstate, State.deliver_dstate, State.settleReq_dstate]

theorem State.l1Learn_dstate (a0 a1 a2 a3 a4) : (State.l1Learn a0 a1 a2 a3 a4).dstate = a0.dstate := by
  simp only [State.l1Learn] <;> (repeat' split) <;> (rfl)

theorem State.deliverAtomic_dstate (a0 a1 a2 a3 a4 a5 a6 a7) : (State.deliverAtomic a0 a1 a2 a3 a4 a5 a6 a7).dstate = a0.dstate := by
  simp only [State.deliverAtomic, dstate_ite, foldl_dstate, ite_self, implies_true, State.l1Learn_dstate, State.setRegByte_dstate, State.settleReq_dstate]

theorem State.doReadReply_dstate (a0 a1 a2) : (State.doReadReply a0 a1 a2).dstate = a0.dstate := by
  unfold State.doReadReply <;> (repeat' split) <;> (simp only [State.dropReq_dstate, State.settleReq_dstate, State.cmdFault_dstate, State.deliverLoad_dstate, State.bulk_dstate, State.onBehalf_dstate, State.count_dstate, State.deliverAtomic_dstate]; done)

theorem State.landReqs_dstate (a0 a1) : (State.landReqs a0 a1).dstate = a0.dstate := by
  unfold State.landReqs <;> (refine foldl_dstate _ (fun s b => ?_) _ _) <;> (repeat' split) <;> (simp only [State.takeNow_dstate, State.takeShield_dstate, State.doWriteAck_dstate, State.doReadReply_dstate]; done)

theorem State.landEnded_dstate (a0 a1 a2) : (State.landEnded a0 a1 a2).dstate = a0.dstate := by
  simp only [State.landEnded, State.setCmd_dstate]

theorem l1WriteBackAll_dstate (a0 a1 a2) : (l1WriteBackAll a0 a1 a2).1.dstate = a2.dstate := by
  induction a1 generalizing a2 with
  | nil => simp only [l1WriteBackAll]
  | cons x t ih => simp only [l1WriteBackAll, State.l1WriteBack_dstate, ih]

theorem State.l1FlushCmd_dstate (a0 a1 a2) : (State.l1FlushCmd a0 a1 a2).dstate = a0.dstate := by
  simp only [State.l1FlushCmd, State.landEnded_dstate, l1WriteBackAll_dstate]

theorem State.flushCmdL1_dstate (a0 a1) : (State.flushCmdL1 a0 a1).dstate = a0.dstate := by
  simp only [State.flushCmdL1, dstate_ite, foldl_dstate, ite_self, implies_true, State.landEnded_dstate, State.l1FlushCmd_dstate]

theorem State.clearStreams_dstate (a0 a1) : (State.clearStreams a0 a1).dstate = a0.dstate := by
  simp only [State.clearStreams, dstate_mk, dstate_eta]

theorem State.zeroBaysOf_dstate (a0 a1) : (State.zeroBaysOf a0 a1).dstate = a0.dstate := by
  simp only [State.zeroBaysOf, dstate_ite, foldl_dstate, ite_self, implies_true, State.updBay_dstate]

theorem State.beginTenantReset_dstate (a0 a1 a2) : (State.beginTenantReset a0 a1 a2).dstate = a0.dstate := by
  simp only [State.beginTenantReset, foldl_dstate, implies_true, State.noteStart_dstate, State.landReqs_dstate, State.flushCmdL1_dstate, State.updSlice_dstate, State.abortSends_dstate, State.clearStreams_dstate, State.abortUndispatched_dstate, State.zeroBaysOf_dstate, State.completeWith_dstate]

theorem State.breakInbound_dstate (a0 a1) : (State.breakInbound a0 a1).dstate = a0.dstate := by
  simp only [State.breakInbound, foldl_dstate, implies_true, State.abortIn_dstate]

theorem State.breakPort_dstate (a0 a1) : (State.breakPort a0 a1).dstate = a0.dstate := by
  simp only [State.breakPort, foldl_dstate, implies_true, State.breakOut_dstate, State.breakIn_dstate]

theorem State.bumpAll_dstate (a0) : (State.bumpAll a0).dstate = a0.dstate := by
  simp only [State.bumpAll, foldl_dstate, implies_true, State.bumpEpoch_dstate]

theorem State.bumpAt_dstate (a0 a1 a2 a3) : (State.bumpAt a0 a1 a2 a3).dstate = a0.dstate := by
  unfold State.bumpAt; extract_lets h; have e := (State.atomicAt_dstate (((a0.onBehalf a1.cmd).holdWrite h.1 h.2).settleDir h.1 h.2) a2 8 .add .u64 1 0).trans ((State.settleDir_dstate _ _ _).trans ((State.holdWrite_dstate _ _ _).trans (State.onBehalf_dstate _ _))); generalize State.atomicAt _ a2 8 .add .u64 1 0 = y at e ⊢; obtain ⟨t, r⟩ := y; dsimp only at e ⊢; cases r <;> dsimp only <;> (repeat' split) <;> (try simp only [State.agFault_dstate, State.agAbort_dstate, State.poisonWrite_dstate]) <;> exact e

theorem State.bumpFlag_dstate (a0 a1 a2) : (State.bumpFlag a0 a1 a2).dstate = a0.dstate := by
  simp only [State.bumpFlag, State.bumpAt_dstate, State.agFault_dstate] <;> (repeat' split) <;> (simp only [State.bumpAt_dstate, State.agFault_dstate])

theorem State.sendFlag_dstate (a0 a1 a2) : (State.sendFlag a0 a1 a2).dstate = a0.dstate := by
  simp only [State.sendFlag] <;> (repeat' split) <;> (rfl)

theorem State.capFlag_dstate (a0 a1 a2) : (State.capFlag a0 a1 a2).dstate = a0.dstate := by
  simp only [State.capFlag, State.bumpFlag_dstate, State.sendFlag_dstate] <;> (repeat' split) <;> (simp only [State.bumpFlag_dstate, State.sendFlag_dstate])

theorem State.flagFault_dstate (a0 a1 a2 a3 a4) : (State.flagFault a0 a1 a2 a3 a4).dstate = a0.dstate := by
  simp only [State.flagFault, State.raise_dstate]

theorem State.expectDone_dstate (a0 a1) : (State.expectDone a0 a1).dstate = a0.dstate := by
  simp only [State.expectDone, dstate_ite, ite_self, State.completeCmd_dstate, State.updCmd_dstate]

theorem State.readFlag_dstate (a0 a1 a2) : (State.readFlag a0 a1 a2).dstate = a0.dstate := by
  unfold State.readFlag; extract_lets c; have e := State.agRead_dstate a0 (a0.quoinOf a1) (swFlagAddr c.block + 8 * a2) 8; generalize a0.agRead (a0.quoinOf a1) (swFlagAddr c.block + 8 * a2) 8 = ye at e ⊢; obtain ⟨t, z⟩ := ye; dsimp only at e ⊢; cases z with | none => exact e | some x => (dsimp only; split; (split; (simp only [dstate_mk, dstate_eta]; exact e); exact e); exact e)

theorem State.readFlags_dstate (a0 a1 a2) : (State.readFlags a0 a1 a2).dstate = a0.dstate := by
  simp only [State.readFlags, dstate_ite, foldl_dstate, ite_self, implies_true, State.expectDone_dstate, State.readFlag_dstate]

theorem State.flagBumped_dstate (a0 a1 a2) : (State.flagBumped a0 a1 a2).dstate = a0.dstate := by
  simp only [State.flagBumped, foldl_dstate, implies_true, State.readFlags_dstate]

theorem State.remoteAdd_dstate (a0 a1 a2 a3 a4) : (State.remoteAdd a0 a1 a2 a3 a4).1.dstate = a0.dstate := by
  unfold State.remoteAdd <;> (try dsimp only) <;> (repeat' split) <;> (first | (rename_i h1; cases congrArg Prod.fst h1; (simp only [State.atomicAt_dstate, State.settleDir_dstate, State.holdWrite_dstate, State.flagFault_dstate, State.flagBumped_dstate, State.serveWaiting_dstate]; done)) | (rename_i h2 h1; cases congrArg Prod.fst h2; (simp only [State.atomicAt_dstate, State.settleDir_dstate, State.holdWrite_dstate, State.flagFault_dstate, State.flagBumped_dstate, State.serveWaiting_dstate]; done)))

theorem State.remoteBump_dstate (a0 a1 a2 a3) : (State.remoteBump a0 a1 a2 a3).1.dstate = a0.dstate := by
  unfold State.remoteBump <;> (repeat' split) <;> (simp only [State.remoteAdd_dstate, State.flagFault_dstate]; done)

theorem State.capstoneSaid_dstate (a0 a1 a2 a3) : (State.capstoneSaid a0 a1 a2 a3).dstate = a0.dstate := by
  simp only [State.capstoneSaid, State.sendMsg_dstate] <;> (repeat' split) <;> (rfl)

theorem State.capstoneDone_dstate (a0 a1 a2 a3) : (State.capstoneDone a0 a1 a2 a3).dstate = a0.dstate := by
  unfold State.capstoneDone <;> (repeat' split) <;> (first | (simp only [State.remoteBump_dstate, State.inClass_dstate, State.capstoneSaid_dstate, State.abortIn_dstate]; done) | (rename_i h1; cases congrArg Prod.fst h1; (simp only [State.remoteBump_dstate, State.inClass_dstate, State.capstoneSaid_dstate, State.abortIn_dstate]; done)))

theorem addGangs_dstate (a0 a1 a2 a3 a4) : (addGangs a0 a1 a2 a3 a4).dstate = a4.dstate := by
  induction a3 generalizing a4 with
  | zero => simp only [addGangs]
  | succ k ih => simp only [addGangs, State.updCmd_dstate, State.addGang_dstate, ih]

theorem State.doLaunch_dstate (a0 a1) : (State.doLaunch a0 a1).dstate = a0.dstate := by
  simp only [State.doLaunch, dstate_ite, foldl_dstate, ite_self, implies_true, State.fillActive_dstate, addGangs_dstate]

theorem State.writeImage_dstate (a0 a1 a2 a3) : (State.writeImage a0 a1 a2 a3).dstate = a0.dstate := by
  simp only [State.writeImage, State.writeSaved_dstate]

theorem State.settlePhase_dstate (a0 a1) : (State.settlePhase a0 a1).dstate = a0.dstate := by
  simp only [State.settlePhase, State.updCmd_dstate]

theorem State.noteImage_dstate (a0 a1 a2 a3) : (State.noteImage a0 a1 a2 a3).dstate = a0.dstate := by
  simp only [State.noteImage, dstate_mk, dstate_eta, dstate_ite, ite_self, State.event_dstate]

theorem State.saveBay_dstate (a0 a1 a2 a3) : (State.saveBay a0 a1 a2 a3).dstate = a0.dstate := by
  simp only [State.saveBay, dstate_mk, dstate_eta, dstate_ite, foldl_dstate, ite_self, implies_true, State.doLaunch_dstate, State.landReqs_dstate, State.l1FlushCmd_dstate, State.updGang_dstate, State.writeImage_dstate, State.updCmd_dstate, State.leaveBay_dstate, State.settlePhase_dstate, State.noteImage_dstate]

theorem State.saveUnit_dstate (a0 a1 a2 a3) : (State.saveUnit a0 a1 a2 a3).dstate = a0.dstate := by
  simp only [State.saveUnit, State.writeImage_dstate, State.updCmd_dstate, State.noteImage_dstate, State.updBay_dstate, State.settlePhase_dstate, State.unholdBay_dstate] <;> (repeat' split) <;> (simp only [State.writeImage_dstate, State.updCmd_dstate, State.noteImage_dstate, State.updBay_dstate, State.settlePhase_dstate, State.unholdBay_dstate])

theorem State.carryStop_dstate (a0 a1 a2) : (State.carryStop a0 a1 a2).dstate = a0.dstate := by
  simp only [State.carryStop, dstate_ite, ite_self, State.signalUnits_dstate, State.saveBay_dstate, State.saveUnit_dstate]

theorem State.claimItem_dstate (a0 a1 a2) : (State.claimItem a0 a1 a2).dstate = a0.dstate := by
  simp only [State.claimItem, dstate_ite, ite_self, State.updCmd_dstate]

theorem State.updRow_dstate (a0 a1 a2 a3) : (State.updRow a0 a1 a2 a3).dstate = a0.dstate := by
  simp only [State.updRow, State.updCmd_dstate]

theorem State.setBusy_dstate (a0 a1 a2 a3) : (State.setBusy a0 a1 a2 a3).dstate = a0.dstate := by
  simp only [State.setBusy, State.updCmd_dstate]

theorem State.claimSelect_dstate (a0 a1 a2) : (State.claimSelect a0 a1 a2).dstate = a0.dstate := by
  simp only [State.claimSelect, State.updCmd_dstate, State.updRow_dstate, State.setBusy_dstate] <;> (repeat' split) <;> (simp only [State.updCmd_dstate, State.updRow_dstate, State.setBusy_dstate]; done)

theorem State.clearArrays_dstate (a0 a1) : (State.clearArrays a0 a1).dstate = a0.dstate := by
  simp only [State.clearArrays, dstate_mk, dstate_eta]

theorem State.clearFilters_dstate (a0 a1) : (State.clearFilters a0 a1).dstate = a0.dstate := by
  simp only [State.clearFilters, dstate_mk, dstate_eta]

theorem State.mapGroups_dstate (a0 a1 a2) : (State.mapGroups a0 a1 a2).dstate = a0.dstate := by
  simp only [State.mapGroups, dstate_mk, dstate_eta]

theorem State.clearGroups_dstate (a0 a1) : (State.clearGroups a0 a1).dstate = a0.dstate := by
  simp only [State.clearGroups, State.mapGroups_dstate]

theorem State.returnBuffers_dstate (a0 a1 a2) : (State.returnBuffers a0 a1 a2).dstate = a0.dstate := by
  simp only [State.returnBuffers, dstate_ite, foldl_dstate, ite_self, implies_true, State.freeBuffer_dstate]

theorem State.clearOwner_dstate (a0 a1) : (State.clearOwner a0 a1).dstate = a0.dstate := by
  simp only [State.clearOwner, dstate_mk, dstate_eta, dstate_ite, foldl_dstate, ite_self, implies_true, State.returnBuffers_dstate, State.updSlice_dstate, State.updBay_dstate]

theorem State.refuseUnit_dstate (a0) : (State.refuseUnit a0).dstate = a0.dstate := by
  simp only [State.refuseUnit, dstate_mk, dstate_eta]

theorem State.mergeReset_dstate (a0) : (State.mergeReset a0).dstate = a0.dstate := by
  simp only [State.mergeReset, dstate_mk, dstate_eta]

theorem State.disarmIn_dstate (a0 a1) : (State.disarmIn a0 a1).dstate = a0.dstate := by
  simp only [State.disarmIn, dstate_mk, dstate_eta, dstate_ite, ite_self]

theorem State.startBay_dstate (a0 a1 a2 a3) : (State.startBay a0 a1 a2 a3).dstate = a0.dstate := by
  simp only [State.startBay, State.clearStreams_dstate, State.abortBay_dstate, State.closeShield_dstate, State.updBay_dstate, State.disarmIn_dstate]

theorem State.doBayReset_dstate (a0 a1 a2) : (State.doBayReset a0 a1 a2).dstate = a0.dstate := by
  simp only [State.doBayReset, dstate_ite, ite_self, State.mergeReset_dstate, State.startBay_dstate, State.noteStart_dstate]

theorem State.startPort_dstate (a0 a1 a2) : (State.startPort a0 a1 a2).dstate = a0.dstate := by
  simp only [State.startPort, State.noteStart_dstate, State.breakPort_dstate, State.closeShield_dstate, State.updPort_dstate, State.remaster_dstate, State.disarmIn_dstate]

theorem State.doPortReset_dstate (a0 a1 a2) : (State.doPortReset a0 a1 a2).dstate = a0.dstate := by
  simp only [State.doPortReset, dstate_ite, ite_self, State.mergeReset_dstate, State.startPort_dstate]

theorem State.powerUp_dstate (a0 a1) : (State.powerUp a0 a1).dstate = a0.dstate := by
  simp only [State.powerUp, State.doBayReset_dstate, State.updBay_dstate, State.doPortReset_dstate, State.updPort_dstate] <;> (repeat' split) <;> (simp only [State.doBayReset_dstate, State.updBay_dstate, State.doPortReset_dstate, State.updPort_dstate])

theorem State.drainBay_dstate (a0 a1) : (State.drainBay a0 a1).dstate = a0.dstate := by
  simp only [State.drainBay, dstate_ite, foldl_dstate, ite_self, implies_true, State.updBay_dstate, State.drawChoice_dstate, State.carryStop_dstate, State.updCmd_dstate, State.cutBay_dstate]

theorem State.drainPort_dstate (a0 a1) : (State.drainPort a0 a1).dstate = a0.dstate := by
  simp only [State.drainPort, dstate_ite, ite_self, State.updPort_dstate, State.cutPort_dstate, State.settlePort_dstate]

theorem State.powerNow_dstate (a0 a1 a2) : (State.powerNow a0 a1 a2).dstate = a0.dstate := by
  simp only [State.powerNow, State.powerUp_dstate, State.drainBay_dstate, State.drainPort_dstate] <;> (repeat' split) <;> (simp only [State.powerUp_dstate, State.drainBay_dstate, State.drainPort_dstate])

theorem State.powerRequest_dstate (a0 a1 a2) : (State.powerRequest a0 a1 a2).dstate = a0.dstate := by
  simp only [State.powerRequest, dstate_mk, dstate_eta, State.refuseUnit_dstate, State.powerNow_dstate] <;> (repeat' split) <;> (simp only [dstate_mk, dstate_eta, State.refuseUnit_dstate, State.powerNow_dstate])

theorem State.closeSplit_dstate (a0 a1) : (State.closeSplit a0 a1).dstate = a0.dstate := by
  simp only [State.closeSplit, dstate_mk, dstate_eta, foldl_dstate, implies_true, State.powerRequest_dstate]

theorem State.collect_dstate (a0 a1) : (State.collect a0 a1).dstate = a0.dstate := by
  simp only [State.collect, State.fillBucket_dstate, State.assignSeq_dstate]

theorem State.fillConst_dstate (a0 a1 a2 a3) : (State.fillConst a0 a1 a2 a3).dstate = a0.dstate := by
  simp only [State.fillConst, State.roRoom_dstate, State.updBay_dstate]

theorem readConst_dstate (a0 a1 a2 a3) : (readConst a0 a1 a2 a3).dstate = a3.dstate := by
  induction a2 generalizing a3 with
  | nil => simp only [readConst]
  | cons x t ih => simp only [readConst, State.agRead_dstate, State.fillConst_dstate, ih] <;> (repeat' split) <;> (rename_i h1; cases congrArg Prod.fst h1; (simp only [State.agRead_dstate, State.fillConst_dstate, ih]; done))

theorem State.takeBus_dstate (a0 a1 a2) : (State.takeBus a0 a1 a2).1.dstate = a0.dstate := by
  simp only [State.takeBus, dstate_mk, dstate_eta, dstate_ite, ite_self, apply_ite Prod.fst]

theorem State.countFallbacks_dstate (a0 a1 a2) : (State.countFallbacks a0 a1 a2).dstate = a0.dstate := by
  simp only [State.countFallbacks, dstate_mk, dstate_eta]

theorem State.constMiss_dstate (a0 a1 a2 a3) : (State.constMiss a0 a1 a2 a3).dstate = a0.dstate := by
  unfold State.constMiss <;> (repeat' split) <;> (first | (rename_i h1; cases congrArg Prod.fst h1; (simp only [dstate_ite, foldl_dstate, ite_self, implies_true, readConst_dstate, State.takeBus_dstate, State.agRead_dstate, State.fillConst_dstate, State.countFallbacks_dstate]; done)) | (rename_i h1 _ _ h0; cases congrArg Prod.fst h1; cases congrArg Prod.fst h0; (simp only [dstate_ite, foldl_dstate, ite_self, implies_true, readConst_dstate, State.takeBus_dstate, State.agRead_dstate, State.fillConst_dstate, State.countFallbacks_dstate]; done)) | (rename_i h1 _ _ _ h0; cases congrArg Prod.fst h1; cases congrArg Prod.fst h0; (simp only [dstate_ite, foldl_dstate, ite_self, implies_true, readConst_dstate, State.takeBus_dstate, State.agRead_dstate, State.fillConst_dstate, State.countFallbacks_dstate]; done)))

theorem State.copyBad_dstate (a0 a1 a2) : (State.copyBad a0 a1 a2).dstate = a0.dstate := by
  simp only [State.copyBad, dstate_mk, dstate_eta, State.postLog_dstate]

theorem State.copyEnd_dstate (a0 a1) : (State.copyEnd a0 a1).dstate = a0.dstate := by
  simp only [State.copyEnd, dstate_mk, dstate_eta]

theorem State.dropLine_dstate (a0 a1 a2) : (State.dropLine a0 a1 a2).dstate = a0.dstate := by
  unfold State.dropLine <;> (try dsimp only) <;> (repeat' split) <;> (simp only [State.dropReplica_dstate, State.dropWay_dstate]; done)

theorem State.markPoisoned_dstate (a0 a1 a2) : (State.markPoisoned a0 a1 a2).dstate = a0.dstate := by
  simp only [State.markPoisoned, State.setLineState_dstate, State.openShare_dstate, State.dropLine_dstate]

theorem copyPoison_dstate (a0 a1 a2 a3) : (copyPoison a0 a1 a2 a3).1.dstate = a3.dstate := by
  induction a1 generalizing a2 a3 with
  | zero => simp only [copyPoison]
  | succ k ih => simp only [copyPoison, State.serveWaiting_dstate, State.markPoisoned_dstate, ih] <;> (repeat' split) <;> (simp only [State.serveWaiting_dstate, State.markPoisoned_dstate, ih]; done)

theorem State.quietRead_dstate (a0 a1 a2) : (State.quietRead a0 a1 a2).1.dstate = a0.dstate := by
  unfold State.quietRead <;> (repeat' split) <;> (first | (simp only [State.lineRead_dstate, State.updSlice_dstate]; done) | (rename_i h1; cases congrArg Prod.fst h1; (simp only [State.lineRead_dstate, State.updSlice_dstate]; done)))

theorem State.elided_dstate (a0 a1 a2 a3 a4) : (State.elided a0 a1 a2 a3 a4).1.dstate = a0.dstate := by
  unfold State.elided <;> (repeat' split) <;> (first | with_reducible rfl | (rename_i h1; cases congrArg Prod.fst h1; (simp only [State.quietRead_dstate]; done)))

theorem copyIn_dstate (a0 a1 a2 a3 a4 a5 a6) : (copyIn a0 a1 a2 a3 a4 a5 a6).1.dstate = a6.dstate := by
  induction a4 generalizing a5 a6 with
  | zero => simp only [copyIn]
  | succ k ih => simp only [copyIn, dstate_ite, apply_ite Prod.fst, State.elided_dstate, State.lineWrite_dstate, State.serveWaiting_dstate, ih] <;> (repeat' split) <;> (first | with_reducible rfl | (rename_i h1; cases congrArg Prod.fst h1; (simp only [dstate_ite, apply_ite Prod.fst, State.elided_dstate, State.lineWrite_dstate, State.serveWaiting_dstate, ih]; done)))

theorem copyOut_dstate (a0 a1 a2 a3 a4 a5 a6) : (copyOut a0 a1 a2 a3 a4 a5 a6).1.dstate = a6.dstate := by
  induction a4 generalizing a5 a6 with
  | zero => simp only [copyOut]
  | succ k ih => simp only [copyOut, State.quietRead_dstate, State.hostWrite_dstate, State.copyBad_dstate, ih] <;> (repeat' split) <;> (rename_i h1; cases congrArg Prod.fst h1; (simp only [State.quietRead_dstate, State.hostWrite_dstate, State.copyBad_dstate, ih]; done))

theorem State.copyWork_dstate (a0 a1) : (State.copyWork a0 a1).dstate = a0.dstate := by
  simp only [State.copyWork, State.inClass_dstate, State.copyEnd_dstate, copyPoison_dstate, copyIn_dstate, copyOut_dstate] <;> (repeat' split) <;> (simp only [State.inClass_dstate, State.copyEnd_dstate, copyPoison_dstate, copyIn_dstate, copyOut_dstate])

theorem State.countElems_dstate (a0 a1 a2 a3) : (State.countElems a0 a1 a2 a3).dstate = a0.dstate := by
  simp only [State.countElems, State.updBay_dstate, State.event_dstate, State.count_dstate]

theorem State.countInstr_dstate (a0 a1 a2) : (State.countInstr a0 a1 a2).dstate = a0.dstate := by
  simp only [State.countInstr, dstate_mk, dstate_eta, State.event_dstate]

theorem State.countRows_dstate (a0 a1 a2 a3 a4) : (State.countRows a0 a1 a2 a3 a4).dstate = a0.dstate := by
  simp only [State.countRows, State.updBay_dstate, State.event_dstate, State.count_dstate]

theorem State.countTile_dstate (a0 a1 a2 a3 a4 a5) : (State.countTile a0 a1 a2 a3 a4 a5).dstate = a0.dstate := by
  simp only [State.countTile, State.event_dstate, State.count_dstate, State.updBay_dstate]

theorem State.discardRec_dstate (a0 a1 a2 a3) : (State.discardRec a0 a1 a2 a3).dstate = a0.dstate := by
  unfold State.discardRec <;> (repeat' split) <;> (simp only [State.updCq_dstate, State.updSlice_dstate, State.freeBuffer_dstate, State.freePlace_dstate]; done)

theorem State.discardWaiting_dstate (a0 a1 a2) : (State.discardWaiting a0 a1 a2).dstate = a0.dstate := by
  simp only [State.discardWaiting, foldl_dstate, implies_true, State.updCq_dstate, State.discardRec_dstate]

theorem State.cqCfg_dstate (a0 a1 a2 a3) : (State.cqCfg a0 a1 a2 a3).dstate = a0.dstate := by
  simp only [State.cqCfg, dstate_ite, ite_self, State.updCq_dstate, State.discardWaiting_dstate]

theorem State.spoilSlot_dstate (a0 a1) : (State.spoilSlot a0 a1).dstate = a0.dstate := by
  simp only [State.spoilSlot, dstate_mk, dstate_eta]

theorem State.spoilRecord_dstate (a0) : (State.spoilRecord a0).dstate = a0.dstate := by
  simp only [State.spoilRecord, dstate_mk, dstate_eta]

theorem State.cutFlash_dstate (a0) : (State.cutFlash a0).dstate = a0.dstate := by
  simp only [State.cutFlash] <;> (repeat' split) <;> (rfl)

theorem State.descBad_dstate (a0 a1 a2) : (State.descBad a0 a1 a2).dstate = a0.dstate := by
  simp only [State.descBad, State.raise_dstate, State.updSlice_dstate] <;> (repeat' split) <;> (rfl)

theorem State.disableSq_dstate (a0 a1 a2) : (State.disableSq a0 a1 a2).dstate = a0.dstate := by
  simp only [State.disableSq, dstate_ite, foldl_dstate, ite_self, implies_true, State.updSq_dstate, State.finishUndispatched_dstate]

theorem State.peerResult_dstate (a0 a1) : (State.peerResult a0 a1).dstate = a0.dstate := by
  simp only [State.peerResult, dstate_mk, dstate_eta]

theorem State.doAccept_dstate (a0 a1 a2 a3 a4 a5 a6 a7) : (State.doAccept a0 a1 a2 a3 a4 a5 a6 a7).dstate = a0.dstate := by
  simp only [State.doAccept, dstate_ite, ite_self, State.peerResult_dstate, State.updSlice_dstate]

theorem State.doAck_dstate (a0 a1) : (State.doAck a0 a1).dstate = a0.dstate := by
  simp only [State.doAck, dstate_mk, dstate_eta, dstate_ite, ite_self]

theorem State.updAging_dstate (a0 a1 a2) : (State.updAging a0 a1 a2).dstate = a0.dstate := by
  simp only [State.updAging, dstate_mk, dstate_eta]

theorem State.judgeAging_dstate (a0 a1) : (State.judgeAging a0 a1).dstate = a0.dstate := by
  simp only [State.judgeAging, dstate_ite, ite_self, State.updAging_dstate, State.appendJournal_dstate]

theorem State.doAging_dstate (a0 a1 a2) : (State.doAging a0 a1 a2).dstate = a0.dstate := by
  simp only [State.doAging, dstate_mk, dstate_eta, dstate_ite, foldl_dstate, ite_self, implies_true, State.judgeAging_dstate, State.updAging_dstate, State.adjustRail_dstate]

theorem State.refuseInject_dstate (a0) : (State.refuseInject a0).dstate = a0.dstate := by
  simp only [State.refuseInject, dstate_mk, dstate_eta]

theorem State.doArm_dstate (a0 a1 a2 a3 a4 a5) : (State.doArm a0 a1 a2 a3 a4 a5).dstate = a0.dstate := by
  simp only [State.doArm, dstate_mk, dstate_eta, dstate_ite, ite_self, State.refuseInject_dstate]

theorem State.gangFault_dstate (a0 a1 a2 a3) : (State.gangFault a0 a1 a2 a3).dstate = a0.dstate := by
  simp only [State.gangFault, State.cmdFault_dstate]

theorem State.gangDpa_dstate (a0 a1 a2 a3) : (State.gangDpa a0 a1 a2 a3).1.dstate = a0.dstate := by
  simp only [State.gangDpa] <;> (repeat' split) <;> (simp only [State.gangFault_dstate])

theorem State.l1Forget_dstate (a0 a1 a2 a3) : (State.l1Forget a0 a1 a2 a3).dstate = a0.dstate := by
  simp only [State.l1Forget] <;> (repeat' split) <;> (rfl)

theorem State.newReq_dstate (a0 a1 a2 a3 a4 a5 a6 a7) : (State.newReq a0 a1 a2 a3 a4 a5 a6 a7).dstate = a0.dstate := by
  simp only [State.newReq] <;> (repeat' split) <;> (rfl)

theorem State.doAtomic_dstate (a0 a1 a2 a3 a4 a5 a6 a7) : (State.doAtomic a0 a1 a2 a3 a4 a5 a6 a7).dstate = a0.dstate := by
  simp only [State.doAtomic, State.gangFault_dstate, State.gangDpa_dstate, State.l1Forget_dstate, State.l1WriteMask_dstate, State.newReq_dstate, State.setReq_dstate] <;> (repeat' split) <;> (first | (simp only [State.gangFault_dstate, State.gangDpa_dstate, State.l1Forget_dstate, State.l1WriteMask_dstate, State.newReq_dstate, State.setReq_dstate]; done) | (rename_i h1; cases congrArg Prod.fst h1; (simp only [State.gangFault_dstate, State.gangDpa_dstate, State.l1Forget_dstate, State.l1WriteMask_dstate, State.newReq_dstate, State.setReq_dstate]; done)) | (rename_i h1 _ h0; cases congrArg Prod.fst h1; (simp only [State.gangFault_dstate, State.gangDpa_dstate, State.l1Forget_dstate, State.l1WriteMask_dstate, State.newReq_dstate, State.setReq_dstate]; done)) | (rename_i h1 _ _ _; cases congrArg Prod.fst h1; (simp only [State.gangFault_dstate, State.gangDpa_dstate, State.l1Forget_dstate, State.l1WriteMask_dstate, State.newReq_dstate, State.setReq_dstate]; done)))

theorem State.doBeaconSend_dstate (a0) : (State.doBeaconSend a0).dstate = a0.dstate := by
  simp only [State.doBeaconSend, dstate_ite, foldl_dstate, ite_self, implies_true, State.updPort_dstate, State.sendMsg_dstate]

theorem State.migEnd_dstate (a0 a1 a2 a3) : (State.migEnd a0 a1 a2 a3).dstate = a0.dstate := by
  simp only [State.migEnd, dstate_mk, dstate_eta]

theorem State.rereadLines_dstate (a0 a1 a2 a3 a4) : (State.rereadLines a0 a1 a2 a3 a4).1.dstate = a0.dstate := by
  induction a4 with
  | zero => simp only [State.rereadLines]
  | succ k ih => simp only [State.rereadLines, State.quietRead_dstate, ih] <;> (repeat' split) <;> (first | (simp only [State.quietRead_dstate, ih]; done) | (rename_i h1; cases congrArg Prod.fst h1; (simp only [State.quietRead_dstate, ih]; done)))

theorem State.reread_dstate (a0 a1 a2 a3 a4) : (State.reread a0 a1 a2 a3 a4).1.dstate = a0.dstate := by
  simp only [State.reread, State.rereadLines_dstate]

theorem State.restoreCmd_dstate (a0 a1 a2) : (State.restoreCmd a0 a1 a2).dstate = a0.dstate := by
  simp only [State.restoreCmd, dstate_mk, dstate_eta, dstate_ite, ite_self, apply_ite Prod.fst, State.reread_dstate, State.setCmd_dstate, State.updSq_dstate]

theorem State.installBlob_dstate (a0 a1 a2 a3) : (State.installBlob a0 a1 a2 a3).dstate = a0.dstate := by
  simp only [State.installBlob, dstate_mk, dstate_eta, foldl_dstate, implies_true, State.updSlice_dstate, State.restoreCmd_dstate]

theorem State.importBlob_dstate (a0 a1 a2 a3) : (State.importBlob a0 a1 a2 a3).dstate = a0.dstate := by
  simp only [State.importBlob, State.migEnd_dstate, State.installBlob_dstate] <;> (repeat' split) <;> (simp only [State.migEnd_dstate, State.installBlob_dstate])

theorem State.doBlobDone_dstate (a0 a1) : (State.doBlobDone a0 a1).dstate = a0.dstate := by
  unfold State.doBlobDone <;> (repeat' split) <;> (simp only [State.migEnd_dstate, State.hostWrite_dstate, State.importBlob_dstate]; done)

theorem State.doBlowDone_dstate (a0 a1) : (State.doBlowDone a0 a1).dstate = a0.dstate := by
  simp only [State.doBlowDone] <;> (repeat' split) <;> (rfl)

theorem State.sendOpenMsg_dstate (a0 a1 a2 a3 a4) : (State.sendOpenMsg a0 a1 a2 a3 a4).dstate = a0.dstate := by
  simp only [State.sendOpenMsg, State.sendMsg_dstate]

theorem State.doBusyRetry_dstate (a0 a1) : (State.doBusyRetry a0 a1).dstate = a0.dstate := by
  unfold State.doBusyRetry <;> (repeat' split) <;> (simp only [State.refuseSend_dstate, State.delOut_dstate, State.sendOpenMsg_dstate, State.setOut_dstate]; done)

theorem State.doCapstoneApply_dstate (a0 a1 a2) : (State.doCapstoneApply a0 a1 a2).dstate = a0.dstate := by
  unfold State.doCapstoneApply <;> (repeat' split) <;> (first | (simp only [State.abortIn_dstate, State.countRefused_dstate, State.landBytes_dstate, State.capstoneDone_dstate]; done) | (rename_i h1; cases congrArg Prod.fst h1; (simp only [State.abortIn_dstate, State.countRefused_dstate, State.landBytes_dstate, State.capstoneDone_dstate]; done)))

theorem State.mapLookup_dstate (a0 a1 a2 a3) : (State.mapLookup a0 a1 a2 a3).1.dstate = a0.dstate := by
  simp only [State.mapLookup, dstate_ite, ite_self, apply_ite Prod.fst, State.mapCheck_dstate, State.corruptLine_dstate]

theorem State.reachHome_dstate (a0 a1 a2) : (State.reachHome a0 a1 a2).dstate = a0.dstate := by
  simp only [State.reachHome] <;> (repeat' split) <;> (simp only [State.serveOrQueue_dstate])

theorem State.doChannelRead_dstate (a0 a1 a2 a3 a4 a5) : (State.doChannelRead a0 a1 a2 a3 a4 a5).dstate = a0.dstate := by
  unfold State.doChannelRead <;> (repeat' split) <;> (first | (simp only [State.updChan_dstate, State.mapLookup_dstate, State.chanRead_dstate, State.addErrors_dstate, State.reachHome_dstate, State.badRead_dstate]; done) | (rename_i h1; cases congrArg Prod.fst h1; (simp only [State.updChan_dstate, State.mapLookup_dstate, State.chanRead_dstate, State.addErrors_dstate, State.reachHome_dstate, State.badRead_dstate]; done)) | (rename_i h1 _ h0; cases congrArg Prod.fst h1; (simp only [State.updChan_dstate, State.mapLookup_dstate, State.chanRead_dstate, State.addErrors_dstate, State.reachHome_dstate, State.badRead_dstate]; done)) | (rename_i h1 _ _ _; cases congrArg Prod.fst h1; (simp only [State.updChan_dstate, State.mapLookup_dstate, State.chanRead_dstate, State.addErrors_dstate, State.reachHome_dstate, State.badRead_dstate]; done)))

theorem State.startChan_dstate (a0 a1 a2 a3) : (State.startChan a0 a1 a2 a3).dstate = a0.dstate := by
  simp only [State.startChan, State.closeShield_dstate, State.abortCapstones_dstate, State.updChan_dstate, State.setUnitState_dstate, State.disarmIn_dstate]

theorem State.doChannelReset_dstate (a0 a1 a2) : (State.doChannelReset a0 a1 a2).dstate = a0.dstate := by
  simp only [State.doChannelReset, dstate_ite, ite_self, State.mergeReset_dstate, State.startChan_dstate, State.noteStart_dstate, State.updChan_dstate]

theorem State.writeLine_dstate (a0 a1 a2 a3 a4) : (State.writeLine a0 a1 a2 a3 a4).dstate = a0.dstate := by
  unfold State.writeLine <;> (repeat' split) <;> (rename_i h1; cases congrArg Prod.fst h1; (simp only [State.chanWrite_dstate, State.raise_dstate]; done))

theorem State.doChannelWrite_dstate (a0 a1 a2 a3 a4) : (State.doChannelWrite a0 a1 a2 a3 a4).dstate = a0.dstate := by
  simp only [State.doChannelWrite, dstate_ite, ite_self, State.updChan_dstate, State.writeLine_dstate]

theorem State.doClaim_dstate (a0 a1 a2) : (State.doClaim a0 a1 a2).dstate = a0.dstate := by
  simp only [State.doClaim, dstate_ite, ite_self, State.claimItem_dstate, State.claimSelect_dstate]

theorem State.doClear_dstate (a0 a1) : (State.doClear a0 a1).dstate = a0.dstate := by
  simp only [State.doClear, dstate_ite, ite_self, State.clearGroups_dstate]

theorem State.doClearAccess_dstate (a0) : (State.doClearAccess a0).dstate = a0.dstate := by
  simp only [State.doClearAccess, dstate_mk, dstate_eta, dstate_ite, ite_self]

theorem State.doClearStats_dstate (a0) : (State.doClearStats a0).dstate = a0.dstate := by
  simp only [State.doClearStats, dstate_mk, dstate_eta, dstate_ite, ite_self]

theorem State.takeRecord_dstate (a0 a1) : (State.takeRecord a0 a1).dstate = a0.dstate := by
  simp only [State.takeRecord, dstate_mk, dstate_eta, State.signalUnits_dstate, State.updReporter_dstate, State.collect_dstate] <;> (repeat' split) <;> (simp only [dstate_mk, dstate_eta, State.signalUnits_dstate, State.updReporter_dstate, State.collect_dstate])

theorem State.forwardRecord_dstate (a0 a1) : (State.forwardRecord a0 a1).dstate = a0.dstate := by
  simp only [State.forwardRecord, dstate_mk, dstate_eta, State.collect_dstate] <;> (repeat' split) <;> (simp only [dstate_mk, dstate_eta, State.collect_dstate])

theorem State.doCollect_dstate (a0 a1 a2) : (State.doCollect a0 a1 a2).dstate = a0.dstate := by
  simp only [State.doCollect, State.takeRecord_dstate, State.forwardRecord_dstate] <;> (repeat' split) <;> (simp only [State.takeRecord_dstate, State.forwardRecord_dstate])

theorem State.sendDone_dstate (a0 a1) : (State.sendDone a0 a1).dstate = a0.dstate := by
  simp only [State.sendDone, foldl_dstate, implies_true, State.signalUnits_dstate]

theorem State.doCommandComplete_dstate (a0 a1) : (State.doCommandComplete a0 a1).dstate = a0.dstate := by
  simp only [State.doCommandComplete, dstate_ite, ite_self, State.flushCmdL1_dstate, State.completeCmd_dstate, State.sendDone_dstate]

theorem State.freeLanes_dstate (a0 a1 a2) : (State.freeLanes a0 a1 a2).dstate = a0.dstate := by
  simp only [State.freeLanes, dstate_mk, dstate_eta, foldl_dstate, implies_true, State.setReg_dstate]

theorem State.setLanes_dstate (a0 a1 a2 a3) : (State.setLanes a0 a1 a2 a3).dstate = a0.dstate := by
  simp only [State.setLanes, foldl_dstate, implies_true, State.setReg_dstate]

theorem State.doConst_dstate (a0 a1 a2 a3) : (State.doConst a0 a1 a2 a3).dstate = a0.dstate := by
  simp only [State.doConst, State.freeLanes_dstate, State.constMiss_dstate, State.setLanes_dstate] <;> (repeat' split) <;> (simp only [State.freeLanes_dstate, State.constMiss_dstate, State.setLanes_dstate])

theorem State.workDone_dstate (a0 a1) : (State.workDone a0 a1).dstate = a0.dstate := by
  simp only [State.workDone, State.updCmd_dstate]

theorem copyLines_dstate (a0 a1 a2 a3 a4) (ha2 : ∀ b0 b1 b2, (a2 b0 b1 b2).1.dstate = b0.dstate) : (copyLines a0 a1 a2 a3 a4).dstate = a4.dstate := by
  induction a3 generalizing a4 with
  | nil => simp only [copyLines]
  | cons x t ih => simp only [copyLines, State.agStore_dstate, State.updCmd_dstate, ha2, ih] <;> (repeat' split) <;> (first | (rename_i h1; cases congrArg Prod.fst h1; (simp only [State.agStore_dstate, State.updCmd_dstate, ha2, ih]; done)) | (rename_i h1 _ _ h0; cases congrArg Prod.fst h1; cases congrArg Prod.fst h0; (simp only [State.agStore_dstate, State.updCmd_dstate, ha2, ih]; done)))

theorem State.doCopy_dstate (a0 a1 a2) : (State.doCopy a0 a1 a2).dstate = a0.dstate := by
  simp only [State.doCopy, implies_true, State.agFault_dstate, State.bulk_dstate, State.onBehalf_dstate, State.count_dstate, State.workDone_dstate, copyLines_dstate, State.agRead_dstate] <;> (repeat' split) <;> (simp only [implies_true, State.agFault_dstate, State.bulk_dstate, State.onBehalf_dstate, State.count_dstate, State.workDone_dstate, copyLines_dstate, State.agRead_dstate])

theorem writeItems_dstate (a0 a1 a2) : (writeItems a0 a1 a2).1.dstate = a2.dstate := by
  induction a1 generalizing a2 with
  | nil => simp only [writeItems]
  | cons x t ih => simp only [writeItems, State.injected_dstate, ih]

theorem State.rewriteCopy_dstate (a0 a1 a2 a3) : (State.rewriteCopy a0 a1 a2 a3).dstate = a0.dstate := by
  simp only [State.rewriteCopy, writeItems_dstate, State.updSlice_dstate, State.raise_dstate]

theorem State.doDescScrub_dstate (a0 a1) : (State.doDescScrub a0 a1).dstate = a0.dstate := by
  simp only [State.doDescScrub, State.rewriteCopy_dstate, State.descBad_dstate] <;> (repeat' split) <;> (simp only [State.rewriteCopy_dstate, State.descBad_dstate]; done)

theorem State.saveDirty_dstate (a0 a1 a2) : (State.saveDirty a0 a1 a2).dstate = a0.dstate := by
  simp only [State.saveDirty, dstate_ite, ite_self, State.poisonLine_dstate, State.openShare_dstate, State.writeBackWay_dstate]

theorem State.poisonLost_dstate (a0 a1) : (State.poisonLost a0 a1).dstate = a0.dstate := by
  simp only [State.poisonLost, foldl_dstate, implies_true, State.setLineState_dstate, State.raise_dstate]

theorem State.startDie_dstate (a0 a1 a2 a3) : (State.startDie a0 a1 a2 a3).dstate = a0.dstate := by
  simp only [State.startDie, dstate_mk, dstate_eta, dstate_ite, foldl_dstate, ite_self, implies_true, State.mergeReset_dstate, State.noteStart_dstate, State.saveDirty_dstate, State.poisonLost_dstate, State.startBay_dstate, State.startChan_dstate, State.disarmIn_dstate, State.clearArrays_dstate]

theorem State.doDieReset_dstate (a0 a1 a2 a3) : (State.doDieReset a0 a1 a2 a3).dstate = a0.dstate := by
  simp only [State.doDieReset, dstate_ite, ite_self, State.mergeReset_dstate, State.startDie_dstate]

theorem State.doDisarm_dstate (a0 a1) : (State.doDisarm a0 a1).dstate = a0.dstate := by
  simp only [State.doDisarm, dstate_mk, dstate_eta, dstate_ite, ite_self, State.refuseInject_dstate]

theorem State.doDiscard_dstate (a0 a1) : (State.doDiscard a0 a1).dstate = a0.dstate := by
  simp only [State.doDiscard, dstate_mk, dstate_eta, State.dropCap_dstate] <;> (repeat' split) <;> (simp only [dstate_mk, dstate_eta, State.dropCap_dstate])

theorem State.wrongState_dstate (a0) : (State.wrongState a0).dstate = a0.dstate := by
  simp only [State.wrongState, dstate_mk, dstate_eta]

theorem State.doDrain_dstate (a0 a1) : (State.doDrain a0 a1).dstate = a0.dstate := by
  simp only [State.doDrain, dstate_ite, ite_self, State.updSlice_dstate, State.wrongState_dstate]

theorem State.doEntdaa_dstate (a0 a1) : (State.doEntdaa a0 a1).dstate = a0.dstate := by
  simp only [State.doEntdaa, dstate_mk, dstate_eta, dstate_ite, ite_self]

theorem State.setPlinthLimit_dstate (a0 a1) : (State.setPlinthLimit a0 a1).dstate = a0.dstate := by
  simp only [State.setPlinthLimit, dstate_mk, dstate_eta, dstate_ite, ite_self, State.answer_dstate, State.drawChoice_dstate]

theorem State.plumbUnitPower_dstate (a0 a1 a2) : (State.plumbUnitPower a0 a1 a2).dstate = a0.dstate := by
  simp only [State.plumbUnitPower, dstate_ite, ite_self, State.answer_dstate, State.powerRequest_dstate]

theorem State.refuseReset_dstate (a0) : (State.refuseReset a0).dstate = a0.dstate := by
  simp only [State.refuseReset, dstate_mk, dstate_eta]

theorem State.setManagerLimit_dstate (a0 a1) : (State.setManagerLimit a0 a1).dstate = a0.dstate := by
  simp only [State.setManagerLimit, dstate_mk, dstate_eta, dstate_ite, ite_self]

theorem State.setThrottle_dstate (a0 a1) : (State.setThrottle a0 a1).dstate = a0.dstate := by
  simp only [State.setThrottle, dstate_mk, dstate_eta, dstate_ite, ite_self]

theorem State.readStatusWord_dstate (a0 a1 a2 a3) : (State.readStatusWord a0 a1 a2 a3).dstate = a0.dstate := by
  simp only [State.readStatusWord, dstate_mk, dstate_eta, dstate_ite, ite_self, State.vrTransaction_dstate]

theorem State.drawBytes_dstate (a0 a1) : (State.drawBytes a0 a1).2.dstate = a0.dstate := by
  simp only [State.drawBytes, dstate_mk, dstate_eta]

theorem State.storeFlash_dstate (a0 a1 a2 a3) : (State.storeFlash a0 a1 a2 a3).1.dstate = a0.dstate := by
  simp only [State.storeFlash, dstate_mk, dstate_eta, dstate_ite, ite_self, apply_ite Prod.fst, apply_ite Prod.snd, State.appendJournal_dstate, State.drawBytes_dstate]

theorem State.stageFirmware_dstate (a0 a1 a2 a3) : (State.stageFirmware a0 a1 a2 a3).1.dstate = a0.dstate := by
  unfold State.stageFirmware <;> (repeat' split) <;> (first | rfl | (rename_i h1; cases congrArg Prod.fst h1; (simp only [State.storeFlash_dstate]; done)))

theorem State.stageImage_dstate (a0 a1 a2 a3) : (State.stageImage a0 a1 a2 a3).1.dstate = a0.dstate := by
  unfold State.stageImage <;> (repeat' split) <;> (first | rfl | (rename_i h1; cases congrArg Prod.fst h1; (simp only [State.storeFlash_dstate]; done)))

theorem State.doStage_dstate (a0 a1 a2 a3) : (State.doStage a0 a1 a2 a3).dstate = a0.dstate := by
  simp only [State.doStage, dstate_ite, ite_self, apply_ite Prod.fst, State.stageFirmware_dstate, State.stageImage_dstate, State.answer_dstate]

theorem State.postManager_dstate (a0 a1 a2 a3) : (State.postManager a0 a1 a2 a3).1.dstate = a0.dstate := by
  simp only [State.postManager, dstate_ite, ite_self, State.hostWrite_dstate]

theorem State.doFaultPost_dstate (a0) : (State.doFaultPost a0).dstate = a0.dstate := by
  simp only [State.doFaultPost, dstate_mk, dstate_eta, State.postManager_dstate] <;> (repeat' split) <;> (simp only [dstate_mk, dstate_eta, State.postManager_dstate])

theorem State.doFaultSummary_dstate (a0) : (State.doFaultSummary a0).dstate = a0.dstate := by
  simp only [State.doFaultSummary, dstate_mk, dstate_eta, dstate_ite, ite_self, State.answer_dstate, State.drawChoice_dstate]

theorem State.doFenceTimeout_dstate (a0 a1) : (State.doFenceTimeout a0 a1).dstate = a0.dstate := by
  unfold State.doFenceTimeout <;> (repeat' split) <;> (simp only [dstate_ite, ite_self, State.readFlags_dstate, State.completeCmd_dstate]; done)

theorem State.fetchFailed_dstate (a0 a1 a2 a3) : (State.fetchFailed a0 a1 a2 a3).dstate = a0.dstate := by
  simp only [State.fetchFailed, State.updSq_dstate, State.raise_dstate]

theorem State.fetchHandles_dstate (a0 a1 a2) : (State.fetchHandles a0 a1 a2).1.dstate = a0.dstate := by
  simp only [State.fetchHandles, State.agRead_dstate, State.updCmd_dstate] <;> (repeat' split) <;> (first | with_reducible rfl | (rename_i h1; cases congrArg Prod.fst h1; (simp only [State.agRead_dstate, State.updCmd_dstate]; done)) | (rename_i h2 h1; cases congrArg Prod.fst h2; (simp only [State.agRead_dstate, State.updCmd_dstate]; done)))

theorem State.fetchBlock_dstate (a0 a1 a2) : (State.fetchBlock a0 a1 a2).1.dstate = a0.dstate := by
  simp only [State.fetchBlock, State.agRead_dstate, State.updCmd_dstate] <;> (repeat' split) <;> (first | with_reducible rfl | (rename_i h1; cases congrArg Prod.fst h1; (simp only [State.agRead_dstate, State.updCmd_dstate]; done)) | (rename_i h1 _ h0; cases congrArg Prod.fst h1; (simp only [State.agRead_dstate, State.updCmd_dstate]; done)) | (rename_i h1 _ _ _; cases congrArg Prod.fst h1; (simp only [State.agRead_dstate, State.updCmd_dstate]; done)))

theorem State.fetchChecks_dstate (a0 a1 a2) : (State.fetchChecks a0 a1 a2).1.dstate = a0.dstate := by
  simp only [State.fetchChecks, State.fetchHandles_dstate, State.fetchBlock_dstate] <;> (repeat' split) <;> (first | (simp only [State.fetchHandles_dstate, State.fetchBlock_dstate]; done) | (rename_i h1; cases congrArg Prod.fst h1; (simp only [State.fetchHandles_dstate, State.fetchBlock_dstate]; done)))

theorem State.fetchEnd_dstate (a0 a1 a2 a3 a4 a5 a6) : (State.fetchEnd a0 a1 a2 a3 a4 a5 a6).dstate = a0.dstate := by
  simp only [State.fetchEnd, State.finishUndispatched_dstate]

theorem State.fetchJudge_dstate (a0 a1 a2) : (State.fetchJudge a0 a1 a2).dstate = a0.dstate := by
  unfold State.fetchJudge; extract_lets bf s1; have e1 : s1.dstate = a0.dstate := State.updCmd_dstate _ _ _; clear_value s1; have e := (State.fetchChecks_dstate s1 a1 a2).trans e1; generalize s1.fetchChecks a1 a2 = ye at e ⊢; obtain ⟨t, z⟩ := ye; dsimp only at e ⊢; cases z with | reject f => (dsimp only; rw [State.fetchEnd_dstate]; exact e) | faulted f => (dsimp only; split; (split <;> (rw [State.fetchEnd_dstate]; exact e)); (rw [State.fetchEnd_dstate]; exact e)) | pass => (dsimp only; generalize BitVec.ofNat _ _ = w; generalize Sq.seqCheck _ _ = y; obtain ⟨q, a⟩ := y; dsimp only; cases a <;> dsimp only <;> (try rw [State.fetchEnd_dstate]) <;> (try rw [State.updCmd_dstate]) <;> rw [State.updSq_dstate] <;> exact e)

theorem State.fetched_dstate (a0 a1 a2 a3) : (State.fetched a0 a1 a2 a3).dstate = a0.dstate := by
  simp only [State.fetched, dstate_mk, dstate_eta, dstate_ite, ite_self, State.updSq_dstate, State.count_dstate, State.raise_dstate, State.setCmd_dstate, State.fetchJudge_dstate]

theorem State.doFetch_dstate (a0 a1 a2 a3) : (State.doFetch a0 a1 a2 a3).dstate = a0.dstate := by
  simp only [State.doFetch, State.fetchFailed_dstate, State.fetched_dstate] <;> (repeat' split) <;> (simp only [State.fetchFailed_dstate, State.fetched_dstate])

theorem State.fillEnd_dstate (a0 a1) : (State.fillEnd a0 a1).dstate = a0.dstate := by
  simp only [State.fillEnd, dstate_mk, dstate_eta]

theorem State.doFill_dstate (a0 a1 a2) : (State.doFill a0 a1 a2).dstate = a0.dstate := by
  simp only [State.doFill] <;> (repeat' split) <;> (rfl)

theorem writeLines_dstate (a0 a1 a2 a3 a4 a5 a6) : (writeLines a0 a1 a2 a3 a4 a5 a6).1.dstate = a6.dstate := by
  induction a4 generalizing a5 a6 with
  | zero => simp only [writeLines]
  | succ k ih => simp only [writeLines, State.lineWrite_dstate, State.serveWaiting_dstate, ih] <;> (repeat' split) <;> (rename_i h1; cases congrArg Prod.fst h1; (simp only [State.lineWrite_dstate, State.serveWaiting_dstate, ih]; done))

theorem State.doFillDone_dstate (a0 a1) : (State.doFillDone a0 a1).dstate = a0.dstate := by
  simp only [State.doFillDone, State.fillEnd_dstate, writeLines_dstate, State.inClass_dstate] <;> (repeat' split) <;> (first | (simp only [State.fillEnd_dstate, writeLines_dstate, State.inClass_dstate]; done) | (rename_i h1; cases congrArg Prod.fst h1; (simp only [State.fillEnd_dstate, writeLines_dstate, State.inClass_dstate]; done)))

theorem State.sendIdle_dstate (a0 a1 a2) : (State.sendIdle a0 a1 a2).dstate = a0.dstate := by
  simp only [State.sendIdle, State.putFlit_dstate]

theorem State.nakOnce_dstate (a0 a1) : (State.nakOnce a0 a1).dstate = a0.dstate := by
  simp only [State.nakOnce, dstate_ite, ite_self, State.updPort_dstate, State.sendIdle_dstate]

theorem State.takeAck_dstate (a0 a1 a2) : (State.takeAck a0 a1 a2).dstate = a0.dstate := by
  simp only [State.takeAck, dstate_ite, foldl_dstate, ite_self, implies_true, State.updPort_dstate, State.delOut_dstate]

theorem State.recover_dstate (a0 a1) : (State.recover a0 a1).dstate = a0.dstate := by
  simp only [State.recover, State.updPort_dstate, State.remaster_dstate]

theorem State.resend_dstate (a0 a1) : (State.resend a0 a1).dstate = a0.dstate := by
  simp only [State.resend, dstate_ite, foldl_dstate, ite_self, implies_true, State.updPort_dstate, State.recover_dstate, State.putFlit_dstate]

theorem State.takeHeader_dstate (a0 a1 a2) : (State.takeHeader a0 a1 a2).dstate = a0.dstate := by
  simp only [State.takeHeader, dstate_ite, ite_self, State.updPort_dstate, State.takeAck_dstate, State.resend_dstate]

theorem State.doFlit_dstate (a0 a1 a2 a3 a4) : (State.doFlit a0 a1 a2 a3 a4).dstate = a0.dstate := by
  simp only [State.doFlit, dstate_ite, ite_self, State.updPort_dstate, State.nakOnce_dstate, State.takeHeader_dstate, State.pump_dstate, State.acceptFlit_dstate, State.sendIdle_dstate]

theorem State.l1Flush_dstate (a0 a1 a2 a3) : (State.l1Flush a0 a1 a2 a3).1.dstate = a0.dstate := by
  simp only [State.l1Flush, State.l1WritePart_dstate, State.setL1_dstate] <;> (repeat' split) <;> (first | (simp only [State.l1WritePart_dstate, State.setL1_dstate]; done) | (rename_i h2 h1; cases congrArg Prod.fst h2; (simp only [State.l1WritePart_dstate, State.setL1_dstate]; done)))

theorem flushL1_dstate (a0 a1 a2 a3) : (flushL1 a0 a1 a2 a3).dstate = a3.dstate := by
  induction a2 generalizing a3 with
  | nil => simp only [flushL1]
  | cons x t ih => simp only [flushL1, State.l1Flush_dstate, State.updCmd_dstate, State.agAbort_dstate, ih] <;> (repeat' split) <;> (rename_i h1; cases congrArg Prod.fst h1; (simp only [State.l1Flush_dstate, State.updCmd_dstate, State.agAbort_dstate, ih]; done))

theorem State.l1Inv_dstate (a0 a1 a2 a3) : (State.l1Inv a0 a1 a2 a3).dstate = a0.dstate := by
  simp only [State.l1Inv, State.updBay_dstate]

theorem State.flushBay_dstate (a0 a1 a2 a3 a4 a5) : (State.flushBay a0 a1 a2 a3 a4 a5).dstate = a0.dstate := by
  simp only [State.flushBay, dstate_ite, foldl_dstate, ite_self, implies_true, flushL1_dstate, State.l1Inv_dstate]

theorem State.flushAt_dstate (a0 a1 a2) : (State.flushAt a0 a1 a2).1.dstate = a0.dstate := by
  simp only [State.flushAt] <;> (repeat' split) <;> (simp only [State.writeBackWay_dstate])

theorem State.flushLine_dstate (a0 a1) : (State.flushLine a0 a1).1.dstate = a0.dstate := by
  simp only [State.flushLine, State.flushAt_dstate]

theorem flushDram_dstate (a0 a1 a2) : (flushDram a0 a1 a2).dstate = a2.dstate := by
  induction a1 generalizing a2 with
  | nil => simp only [flushDram]
  | cons x t ih => simp only [flushDram, State.agAbort_dstate, State.flushLine_dstate, State.updCmd_dstate, ih] <;> (repeat' split) <;> (simp only [State.agAbort_dstate, State.flushLine_dstate, State.updCmd_dstate, ih]; done)

theorem State.doFlush_dstate (a0 a1) : (State.doFlush a0 a1).dstate = a0.dstate := by
  simp only [State.doFlush, dstate_ite, foldl_dstate, ite_self, implies_true, State.completeCmd_dstate, State.flushBay_dstate, flushDram_dstate, State.roInvalidate_dstate, State.workDone_dstate]

theorem State.doFlushRange_dstate (a0 a1 a2 a3 a4) : (State.doFlushRange a0 a1 a2 a3 a4).dstate = a0.dstate := by
  simp only [State.doFlushRange, State.gangFault_dstate, l1WriteBackAll_dstate, State.l1Inv_dstate] <;> (repeat' split) <;> (simp only [State.gangFault_dstate, l1WriteBackAll_dstate, State.l1Inv_dstate])

theorem State.doForcePath_dstate (a0 a1 a2) : (State.doForcePath a0 a1 a2).dstate = a0.dstate := by
  simp only [State.doForcePath, dstate_ite, ite_self, State.refuseInject_dstate, State.updReporter_dstate]

theorem State.migCtl_dstate (a0 a1) (ha1 : ∀ b0, (a1 b0).dstate = b0.dstate) : (State.migCtl a0 a1).dstate = a0.dstate := by
  simp only [State.migCtl, dstate_mk, dstate_eta, dstate_ite, ite_self, ha1]

theorem State.migBegin_dstate (a0 a1 a2 a3) : (State.migBegin a0 a1 a2 a3).dstate = a0.dstate := by
  simp only [State.migBegin, dstate_mk, dstate_eta]

theorem State.doFreeze_dstate (a0 a1) : (State.doFreeze a0 a1).dstate = a0.dstate := by
  simp only [State.doFreeze, dstate_ite, ite_self, implies_true, State.migCtl_dstate, State.migEnd_dstate, State.migBegin_dstate, State.updSlice_dstate]

theorem State.fwDone_dstate (a0 a1) : (State.fwDone a0 a1).dstate = a0.dstate := by
  simp only [State.fwDone, dstate_mk, dstate_eta]

theorem State.runFirmware_dstate (a0 a1 a2 a3) : (State.runFirmware a0 a1 a2 a3).dstate = a0.dstate := by
  simp only [State.runFirmware, dstate_mk, dstate_eta]

theorem State.startupStatus_dstate (a0) : (State.startupStatus a0).dstate = a0.dstate := by
  simp only [State.startupStatus, dstate_mk, dstate_eta]

theorem State.loadImage_dstate (a0 a1 a2) : (State.loadImage a0 a1 a2).dstate = a0.dstate := by
  simp only [State.loadImage, dstate_mk, dstate_eta]

theorem State.dropGang_dstate (a0 a1) : (State.dropGang a0 a1).dstate = a0.dstate := by
  simp only [State.dropGang, dstate_mk, dstate_eta]

theorem State.doGangExit_dstate (a0 a1) : (State.doGangExit a0 a1).dstate = a0.dstate := by
  simp only [State.doGangExit, dstate_ite, ite_self, State.dropGang_dstate, State.orphan_dstate, State.updCmd_dstate, State.fillActive_dstate, State.addGang_dstate, State.updBay_dstate, State.l1FlushCmd_dstate, State.unholdBay_dstate]

theorem State.onBay_dstate (a0 a1 a2 a3) (ha3 : ∀ b0, (a3 b0).dstate = b0.dstate) : (State.onBay a0 a1 a2 a3).dstate = a0.dstate := by
  simp only [State.onBay, dstate_ite, ite_self, State.bayCheck_dstate, State.bayWrite_dstate, ha3]

theorem State.weightAt_dstate (a0 a1 a2 a3) : (State.weightAt a0 a1 a2 a3).1.dstate = a0.dstate := by
  unfold State.weightAt <;> (repeat' split) <;> (first | with_reducible rfl | (rename_i h1; cases congrArg Prod.fst h1; (simp only [State.agRead_dstate]; done)))

theorem State.poolRow_dstate (a0 a1 a2 a3 a4 a5) : (State.poolRow a0 a1 a2 a3 a4 a5).dstate = a0.dstate := by
  simp only [State.poolRow, State.weightAt_dstate, State.agRead_dstate, State.countRows_dstate, State.updCmd_dstate] <;> (repeat' split) <;> (first | (rename_i h1; cases congrArg Prod.fst h1; (simp only [State.weightAt_dstate, State.agRead_dstate, State.countRows_dstate, State.updCmd_dstate]; done)) | (rename_i h1 _ _ h0; cases congrArg Prod.fst h1; cases congrArg Prod.fst h0; (simp only [State.weightAt_dstate, State.agRead_dstate, State.countRows_dstate, State.updCmd_dstate]; done)) | (rename_i h1 _ _ _ h0; cases congrArg Prod.fst h1; cases congrArg Prod.fst h0; (simp only [State.weightAt_dstate, State.agRead_dstate, State.countRows_dstate, State.updCmd_dstate]; done)))

theorem State.poolIndex_dstate (a0 a1 a2 a3 a4) : (State.poolIndex a0 a1 a2 a3 a4).dstate = a0.dstate := by
  simp only [State.poolIndex, State.agRead_dstate, State.poolRow_dstate, State.updCmd_dstate, State.agFault_dstate] <;> (repeat' split) <;> (first | (rename_i h1; cases congrArg Prod.fst h1; (simp only [State.agRead_dstate, State.poolRow_dstate, State.updCmd_dstate, State.agFault_dstate]; done)) | (rename_i h2 h1; cases congrArg Prod.fst h2; (simp only [State.agRead_dstate, State.poolRow_dstate, State.updCmd_dstate, State.agFault_dstate]; done)) | (rename_i h1 _ h0; cases congrArg Prod.fst h1; (simp only [State.agRead_dstate, State.poolRow_dstate, State.updCmd_dstate, State.agFault_dstate]; done)))

theorem State.writeBag_dstate (a0 a1 a2 a3 a4) : (State.writeBag a0 a1 a2 a3 a4).dstate = a0.dstate := by
  simp only [State.writeBag, State.updCmd_dstate, State.agStore_dstate, State.workDone_dstate] <;> (repeat' split) <;> (first | (rename_i h1; cases congrArg Prod.fst h1; (simp only [State.updCmd_dstate, State.agStore_dstate, State.workDone_dstate]; done)) | (rename_i h1 _ h0; cases congrArg Prod.fst h1; (simp only [State.updCmd_dstate, State.agStore_dstate, State.workDone_dstate]; done)))

theorem State.gatherStep_dstate (a0 a1 a2 a3) : (State.gatherStep a0 a1 a2 a3).dstate = a0.dstate := by
  simp only [State.gatherStep, dstate_ite, ite_self, State.beginBag_dstate, State.poolIndex_dstate, State.writeBag_dstate]

theorem State.doGather_dstate (a0 a1 a2) : (State.doGather a0 a1 a2).dstate = a0.dstate := by
  simp only [State.doGather, implies_true, State.onBay_dstate, State.gatherStep_dstate] <;> (repeat' split) <;> (simp only [implies_true, State.onBay_dstate, State.gatherStep_dstate])

theorem State.doHandleOp_dstate (a0 a1 a2) : (State.doHandleOp a0 a1 a2).dstate = a0.dstate := by
  simp only [State.doHandleOp, dstate_ite, ite_self, State.handleEffect_dstate]

theorem State.doHead_dstate (a0 a1 a2) : (State.doHead a0 a1 a2).dstate = a0.dstate := by
  simp only [State.doHead, dstate_mk, dstate_eta, dstate_ite, ite_self, implies_true, State.pageWrite_dstate, State.updCq_dstate, State.updSlice_dstate] <;> (repeat' split) <;> (simp only [dstate_mk, dstate_eta, dstate_ite, ite_self, implies_true, State.pageWrite_dstate, State.updCq_dstate, State.updSlice_dstate])

end Sys2Proof.Machine
end

