-- ==== Sys2Proof/Laws/DevStateC.lean ====
section
/-! SUPPORT. Operations that leave the state of the device as it is, part 3 of 3. -/

namespace Sys2Proof.Machine

set_option linter.unusedSimpArgs false
set_option linter.unusedVariables false

theorem State.doHoldNotice_dstate (a0 a1) : (State.doHoldNotice a0 a1).dstate = a0.dstate := by
  simp only [State.doHoldNotice, dstate_ite, ite_self, State.signalUnits_dstate, State.updChan_dstate]

theorem State.remapRow_dstate (a0 a1 a2 a3) : (State.remapRow a0 a1 a2 a3).dstate = a0.dstate := by
  simp only [State.remapRow, State.dramStore_dstate, State.updChan_dstate, State.autoRepair_dstate]

theorem State.repairRow_dstate (a0 a1 a2 a3) : (State.repairRow a0 a1 a2 a3).dstate = a0.dstate := by
  simp only [State.repairRow, State.updChan_dstate, State.remapRow_dstate] <;> (repeat' split) <;> (simp only [State.updChan_dstate, State.remapRow_dstate])

theorem State.doHpprTimeout_dstate (a0 a1) : (State.doHpprTimeout a0 a1).dstate = a0.dstate := by
  simp only [State.doHpprTimeout, State.repairRow_dstate, State.updChan_dstate] <;> (repeat' split) <;> (simp only [State.repairRow_dstate, State.updChan_dstate])

theorem State.imageDone_dstate (a0 a1 a2 a3) : (State.imageDone a0 a1 a2 a3).dstate = a0.dstate := by
  simp only [State.imageDone, dstate_mk, dstate_eta]

theorem State.imageFail_dstate (a0 a1 a2 a3) : (State.imageFail a0 a1 a2 a3).dstate = a0.dstate := by
  simp only [State.imageFail, dstate_ite, ite_self, State.updSlice_dstate, State.imageDone_dstate]

theorem State.freshenWhere_dstate (a0 a1) : (State.freshenWhere a0 a1).dstate = a0.dstate := by
  simp only [State.freshenWhere, dstate_mk, dstate_eta, dstate_ite, foldl_dstate, ite_self, implies_true, State.holdWrite_dstate, State.dropWay_dstate, State.bitmapWrite_dstate]

theorem State.writeCopies_dstate (a0 a1) : (State.writeCopies a0 a1).dstate = a0.dstate := by
  simp only [State.writeCopies, State.drawChoice_dstate, writeItems_dstate, State.updSlice_dstate]

theorem State.installSlice_dstate (a0 a1 a2) : (State.installSlice a0 a1 a2).dstate = a0.dstate := by
  simp only [State.installSlice, dstate_ite, ite_self, State.freshenWhere_dstate, State.clearOwner_dstate, State.applyModes_dstate, State.updSlice_dstate, State.writeCopies_dstate]

theorem State.imageStore_dstate (a0 a1 a2 a3) : (State.imageStore a0 a1 a2 a3).dstate = a0.dstate := by
  unfold State.imageStore <;> (repeat' split) <;> (first | (simp only [State.imageFail_dstate, State.storeFlash_dstate, State.imageDone_dstate]; done) | (rename_i h1; cases congrArg Prod.fst h1; (simp only [State.imageFail_dstate, State.storeFlash_dstate, State.imageDone_dstate]; done)))

theorem State.doInstallAck_dstate (a0 a1) : (State.doInstallAck a0 a1).dstate = a0.dstate := by
  simp only [State.doInstallAck, dstate_ite, ite_self, State.serveWaiting_dstate, State.setDir_dstate]

theorem State.doInstrFetch_dstate (a0 a1 a2) : (State.doInstrFetch a0 a1 a2).dstate = a0.dstate := by
  simp only [State.doInstrFetch, State.gangFault_dstate, State.lineRead_dstate, State.onBehalf_dstate, State.agFault_dstate, State.roRoom_dstate, State.updBay_dstate, State.agAbort_dstate] <;> (repeat' split) <;> (first | (simp only [State.gangFault_dstate, State.lineRead_dstate, State.onBehalf_dstate, State.agFault_dstate, State.roRoom_dstate, State.updBay_dstate, State.agAbort_dstate]; done) | (rename_i h1; cases congrArg Prod.fst h1; (simp only [State.gangFault_dstate, State.lineRead_dstate, State.onBehalf_dstate, State.agFault_dstate, State.roRoom_dstate, State.updBay_dstate, State.agAbort_dstate]; done)) | (rename_i h2 h1; cases congrArg Prod.fst h2; (simp only [State.gangFault_dstate, State.lineRead_dstate, State.onBehalf_dstate, State.agFault_dstate, State.roRoom_dstate, State.updBay_dstate, State.agAbort_dstate]; done)))

theorem State.invalidateAt_dstate (a0 a1 a2) : (State.invalidateAt a0 a1 a2).dstate = a0.dstate := by
  simp only [State.invalidateAt, dstate_ite, ite_self, State.signalUnits_dstate, State.dropReplica_dstate]

theorem State.doInvalidate_dstate (a0 a1) : (State.doInvalidate a0 a1).dstate = a0.dstate := by
  simp only [State.doInvalidate, State.invalidateAt_dstate]

theorem State.doInvalidateAck_dstate (a0 a1) : (State.doInvalidateAck a0 a1).dstate = a0.dstate := by
  simp only [State.doInvalidateAck, dstate_ite, ite_self, State.serveWaiting_dstate, State.setDir_dstate]

theorem State.memRefused_dstate (a0) : (State.memRefused a0).dstate = a0.dstate := by
  simp only [State.memRefused, dstate_mk, dstate_eta]

theorem State.memDone_dstate (a0) : (State.memDone a0).dstate = a0.dstate := by
  simp only [State.memDone, dstate_mk, dstate_eta]

theorem State.doKillPin_dstate (a0 a1 a2) : (State.doKillPin a0 a1 a2).dstate = a0.dstate := by
  simp only [State.doKillPin, dstate_ite, ite_self, State.memRefused_dstate, State.memDone_dstate, State.killPin_dstate]

theorem State.doLandedReport_dstate (a0 a1 a2) : (State.doLandedReport a0 a1 a2).dstate = a0.dstate := by
  simp only [State.doLandedReport, State.sendMsg_dstate, State.setIn_dstate] <;> (repeat' split) <;> (simp only [State.sendMsg_dstate, State.setIn_dstate])

theorem State.doLane_dstate (a0 a1 a2) : (State.doLane a0 a1 a2).dstate = a0.dstate := by
  simp only [State.doLane, dstate_mk, dstate_eta, State.setLanes_dstate, State.freeLanes_dstate, State.updGang_dstate, State.doConst_dstate] <;> (repeat' split) <;> (simp only [dstate_mk, dstate_eta, State.setLanes_dstate, State.freeLanes_dstate, State.updGang_dstate, State.doConst_dstate])

theorem State.issue_dstate (a0 a1 a2 a3) (ha2 : ∀ b0, (a2 b0).dstate = b0.dstate) : (State.issue a0 a1 a2 a3).dstate = a0.dstate := by
  simp only [State.issue, dstate_ite, ite_self, implies_true, State.onBay_dstate, State.countInstr_dstate, ha2]

theorem State.doLaneArithmetic_dstate (a0 a1 a2) : (State.doLaneArithmetic a0 a1 a2).dstate = a0.dstate := by
  unfold State.doLaneArithmetic; refine State.awaiting_dstate _ _ _ _ (fun s => ?_); cases a2 <;> dsimp only <;> (first | exact State.settled_dstate _ _ (fun s => State.issue_dstate _ _ _ _ (fun s => State.doLane_dstate _ _ _)) | exact State.issue_dstate _ _ _ _ (fun s => State.doLane_dstate _ _ _))

theorem State.doLeak_dstate (a0) : (State.doLeak a0).dstate = a0.dstate := by
  simp only [State.doLeak, dstate_mk, dstate_eta, dstate_ite, ite_self]

theorem State.setLink_dstate (a0 a1 a2) : (State.setLink a0 a1 a2).dstate = a0.dstate := by
  simp only [State.setLink] <;> (repeat' split) <;> (rfl)

theorem State.lostRecord_dstate (a0 a1 a2) : (State.lostRecord a0 a1 a2).dstate = a0.dstate := by
  simp only [State.lostRecord] <;> (repeat' split) <;> (rfl)

theorem State.failCopies_dstate (a0 a1) : (State.failCopies a0 a1).dstate = a0.dstate := by
  simp only [State.failCopies] <;> (repeat' split) <;> (rfl)

theorem State.failOps_dstate (a0 a1) : (State.failOps a0 a1).dstate = a0.dstate := by
  simp only [State.failOps, State.imageFail_dstate, State.fwDone_dstate] <;> (repeat' split) <;> (simp only [State.imageFail_dstate, State.fwDone_dstate])

theorem State.failHostReads_dstate (a0 a1) : (State.failHostReads a0 a1).dstate = a0.dstate := by
  simp only [State.failHostReads, foldl_dstate, implies_true, State.doReadReply_dstate]

theorem State.doLinkDown_dstate (a0 a1 a2) : (State.doLinkDown a0 a1 a2).dstate = a0.dstate := by
  simp only [State.doLinkDown, dstate_ite, foldl_dstate, ite_self, implies_true, State.setLink_dstate, State.lostRecord_dstate, State.failCopies_dstate, State.failOps_dstate, State.failHostReads_dstate]

theorem State.resyncIn_dstate (a0 a1 a2) : (State.resyncIn a0 a1 a2).dstate = a0.dstate := by
  simp only [State.resyncIn, dstate_ite, ite_self, State.sendMsg_dstate, State.setIn_dstate]

theorem State.resyncOut_dstate (a0 a1 a2) : (State.resyncOut a0 a1 a2).dstate = a0.dstate := by
  simp only [State.resyncOut, dstate_ite, ite_self, State.sendMsg_dstate, State.sendOpenMsg_dstate, State.setOut_dstate]

theorem State.doLinkRecovered_dstate (a0 a1 a2) : (State.doLinkRecovered a0 a1 a2).dstate = a0.dstate := by
  simp only [State.doLinkRecovered, dstate_ite, foldl_dstate, ite_self, implies_true, State.remaster_dstate, State.updPort_dstate, State.sendMsg_dstate, State.resyncIn_dstate, State.resyncOut_dstate]

theorem State.doLinkUp_dstate (a0 a1) : (State.doLinkUp a0 a1).dstate = a0.dstate := by
  simp only [State.doLinkUp, dstate_ite, ite_self, State.setLink_dstate]

theorem overLines_dstate (a0 a1 a2 a3) (ha1 : ∀ b0 b1, (a1 b0 b1).dstate = b0.dstate) : (overLines a0 a1 a2 a3).dstate = a3.dstate := by
  fun_induction overLines a0 a1 a2 a3 <;> (simp_all only [ha1])

theorem State.loadLine_dstate (a0 a1 a2 a3 a4) : (State.loadLine a0 a1 a2 a3 a4).dstate = a0.dstate := by
  unfold State.loadLine; extract_lets b mask on_; have e := State.gangDpa_dstate a0 a1 a4 0; generalize a0.gangDpa a1 a4 0 = y at e ⊢; obtain ⟨t, z⟩ := y; dsimp only at e; cases z with | none => exact e | some dpa => (dsimp only; split; (simp only [State.newReq_dstate, State.l1WriteMask_dstate]; exact e); (split; (split; (simp only [State.deliver_dstate]; exact e); (simp only [State.newReq_dstate]; exact e)); (simp only [State.newReq_dstate]; exact e)))

theorem State.newHostReq_dstate (a0 a1 a2 a3 a4) : (State.newHostReq a0 a1 a2 a3 a4).dstate = a0.dstate := by
  simp only [State.newHostReq, dstate_mk, dstate_eta, State.setReq_dstate, State.updGang_dstate]

theorem State.doLoad_dstate (a0 a1 a2 a3 a4) : (State.doLoad a0 a1 a2 a3 a4).dstate = a0.dstate := by
  simp only [State.doLoad, foldl_dstate, implies_true, overLines_dstate, State.loadLine_dstate, State.newHostReq_dstate, State.gangFault_dstate] <;> (repeat' split) <;> (simp only [foldl_dstate, implies_true, overLines_dstate, State.loadLine_dstate, State.newHostReq_dstate, State.gangFault_dstate])

theorem State.doLogOff_dstate (a0 a1) : (State.doLogOff a0 a1).dstate = a0.dstate := by
  simp only [State.doLogOff, dstate_ite, ite_self, implies_true, State.migCtl_dstate, State.migEnd_dstate, State.updSlice_dstate]

theorem State.doLogOn_dstate (a0 a1) : (State.doLogOn a0 a1).dstate = a0.dstate := by
  simp only [State.doLogOn, dstate_ite, ite_self, implies_true, State.migCtl_dstate, State.migEnd_dstate, State.clearFilters_dstate, State.updSlice_dstate]

theorem State.doManagerHandleEffect_dstate (a0) : (State.doManagerHandleEffect a0).dstate = a0.dstate := by
  simp only [State.doManagerHandleEffect, dstate_ite, ite_self, State.managerEffect_dstate, State.handleEffects_dstate]

theorem State.doMark_dstate (a0 a1) : (State.doMark a0 a1).dstate = a0.dstate := by
  simp only [State.doMark, dstate_mk, dstate_eta, dstate_ite, ite_self, implies_true, State.migCtl_dstate, State.migEnd_dstate, State.clearFilters_dstate, State.postLog_dstate]

theorem State.doMaskPush_dstate (a0 a1 a2 a3) : (State.doMaskPush a0 a1 a2 a3).dstate = a0.dstate := by
  simp only [State.doMaskPush, dstate_ite, State.gangFault_dstate] <;> (repeat' split) <;> (rfl)

theorem State.doMigCopy_dstate (a0 a1 a2) : (State.doMigCopy a0 a1 a2).dstate = a0.dstate := by
  simp only [State.doMigCopy, dstate_mk, dstate_eta, dstate_ite, ite_self, State.copyEnd_dstate]

theorem State.doMigCopyDone_dstate (a0 a1) : (State.doMigCopyDone a0 a1).dstate = a0.dstate := by
  simp only [State.doMigCopyDone, dstate_ite, ite_self, State.copyEnd_dstate, State.copyWork_dstate]

theorem State.doMigExport_dstate (a0 a1 a2) : (State.doMigExport a0 a1 a2).dstate = a0.dstate := by
  simp only [State.doMigExport, dstate_ite, ite_self, implies_true, State.migCtl_dstate, State.migBegin_dstate, State.migEnd_dstate]

theorem State.doMigImport_dstate (a0 a1 a2) : (State.doMigImport a0 a1 a2).dstate = a0.dstate := by
  unfold State.doMigImport <;> (refine State.migCtl_dstate _ _ (fun s => ?_)) <;> split <;> simp only [State.migEnd_dstate, State.migBegin_dstate]

theorem State.doNop_dstate (a0 a1) : (State.doNop a0 a1).dstate = a0.dstate := by
  simp only [State.doNop, dstate_ite, ite_self, State.completeCmd_dstate]

theorem State.doPeer_dstate (a0 a1 a2 a3 a4 a5) : (State.doPeer a0 a1 a2 a3 a4 a5).dstate = a0.dstate := by
  simp only [State.doPeer, dstate_ite, ite_self, State.peerResult_dstate, State.updSlice_dstate]

theorem State.doPerstRelease_dstate (a0) : (State.doPerstRelease a0).dstate = a0.dstate := by
  simp only [State.doPerstRelease, dstate_mk, dstate_eta, dstate_ite, ite_self]

theorem State.rejectFree_dstate (a0 a1 a2 a3) : (State.rejectFree a0 a1 a2 a3).dstate = a0.dstate := by
  simp only [State.rejectFree, State.updSlice_dstate, State.raise_dstate]

theorem State.doPoolFree_dstate (a0 a1 a2) : (State.doPoolFree a0 a1 a2).dstate = a0.dstate := by
  simp only [State.doPoolFree, dstate_ite, ite_self, implies_true, State.pageWrite_dstate, State.rejectFree_dstate, State.freeBuffer_dstate]

theorem State.doPortDrain_dstate (a0 a1) : (State.doPortDrain a0 a1).dstate = a0.dstate := by
  simp only [State.doPortDrain, State.breakPort_dstate, State.cutPort_dstate] <;> (repeat' split) <;> (simp only [State.breakPort_dstate, State.cutPort_dstate])

theorem State.doPortTrained_dstate (a0 a1 a2 a3 a4) : (State.doPortTrained a0 a1 a2 a3 a4).dstate = a0.dstate := by
  simp only [State.doPortTrained, dstate_ite, ite_self, State.remaster_dstate, State.updPort_dstate]

theorem State.orderRead_dstate (a0 a1) : (State.orderRead a0 a1).dstate = a0.dstate := by
  simp only [State.orderRead, dstate_mk, dstate_eta]

theorem State.doPostCompletion_dstate (a0 a1 a2) : (State.doPostCompletion a0 a1 a2).dstate = a0.dstate := by
  simp only [State.doPostCompletion, State.orderRead_dstate, State.postTenant_dstate, State.updCq_dstate] <;> (repeat' split) <;> (simp only [State.orderRead_dstate, State.postTenant_dstate, State.updCq_dstate])

theorem State.doPostWaiting_dstate (a0 a1 a2) : (State.doPostWaiting a0 a1 a2).dstate = a0.dstate := by
  simp only [State.doPostWaiting, State.postTenant_dstate, State.updCq_dstate, State.freePlace_dstate] <;> (repeat' split) <;> (simp only [State.postTenant_dstate, State.updCq_dstate, State.freePlace_dstate])

theorem State.mgmtOp_dstate (a0 a1 a2) (ha2 : ∀ b0, (a2 b0).dstate = b0.dstate) : (State.mgmtOp a0 a1 a2).dstate = a0.dstate := by
  simp only [State.mgmtOp, dstate_mk, dstate_eta, dstate_ite, ite_self, ha2]

theorem State.doPowerLimit_dstate (a0 a1) : (State.doPowerLimit a0 a1).dstate = a0.dstate := by
  simp only [State.doPowerLimit, dstate_ite, ite_self, implies_true, State.mgmtOp_dstate, State.setManagerLimit_dstate]

theorem State.doPowerLoop_dstate (a0 a1) : (State.doPowerLoop a0 a1).dstate = a0.dstate := by
  simp only [State.doPowerLoop, dstate_mk, dstate_eta, dstate_ite, ite_self]

theorem State.preemptFor_dstate (a0 a1 a2) : (State.preemptFor a0 a1 a2).dstate = a0.dstate := by
  simp only [State.preemptFor, dstate_ite, foldl_dstate, ite_self, implies_true, State.carryStop_dstate, State.updCmd_dstate]

theorem State.doPreemption_dstate (a0 a1) : (State.doPreemption a0 a1).dstate = a0.dstate := by
  simp only [State.doPreemption, dstate_ite, foldl_dstate, ite_self, implies_true, State.preemptFor_dstate]

theorem State.doProchot_dstate (a0) : (State.doProchot a0).dstate = a0.dstate := by
  simp only [State.doProchot, dstate_mk, dstate_eta, dstate_ite, ite_self]

theorem State.sqCfg_dstate (a0 a1 a2 a3) : (State.sqCfg a0 a1 a2 a3).dstate = a0.dstate := by
  simp only [State.sqCfg, dstate_ite, ite_self, State.disableSq_dstate, State.updSq_dstate]

theorem State.onManagerRing_dstate (a0 a1 a2) : (State.onManagerRing a0 a1 a2).dstate = a0.dstate := by
  simp only [State.onManagerRing] <;> (repeat' split) <;> (rfl)

theorem State.doQueueCfg_dstate (a0 a1 a2) : (State.doQueueCfg a0 a1 a2).dstate = a0.dstate := by
  simp only [State.doQueueCfg, dstate_ite, ite_self, implies_true, State.pageWrite_dstate, State.sqCfg_dstate, State.updSq_dstate, State.cqCfg_dstate, State.updCq_dstate, State.updSlice_dstate, State.onManagerRing_dstate] <;> (repeat' split) <;> (simp only [dstate_ite, ite_self, implies_true, State.pageWrite_dstate, State.sqCfg_dstate, State.updSq_dstate, State.cqCfg_dstate, State.updCq_dstate, State.updSlice_dstate, State.onManagerRing_dstate])

theorem State.doRaiseFloor_dstate (a0 a1) : (State.doRaiseFloor a0 a1).dstate = a0.dstate := by
  simp only [State.doRaiseFloor, dstate_mk, dstate_eta, dstate_ite, ite_self]

theorem State.doReconverge_dstate (a0 a1) : (State.doReconverge a0 a1).dstate = a0.dstate := by
  simp only [State.doReconverge] <;> (repeat' split) <;> (rfl)

theorem State.doRecoveryTimeout_dstate (a0 a1) : (State.doRecoveryTimeout a0 a1).dstate = a0.dstate := by
  simp only [State.doRecoveryTimeout, dstate_ite, ite_self, State.startPort_dstate]

theorem State.doRefresh_dstate (a0 a1 a2) : (State.doRefresh a0 a1 a2).dstate = a0.dstate := by
  simp only [State.doRefresh]

theorem State.writePage_dstate (a0 a1 a2 a3) : (State.writePage a0 a1 a2 a3).dstate = a0.dstate := by
  simp only [State.writePage, dstate_ite, ite_self, implies_true, State.pageWrite_dstate, State.updSlice_dstate, State.updSq_dstate, State.updCq_dstate] <;> (repeat' split) <;> (simp only [dstate_ite, ite_self, implies_true, State.pageWrite_dstate, State.updSlice_dstate, State.updSq_dstate, State.updCq_dstate])

theorem State.startFw_dstate (a0 a1 a2 a3) : (State.startFw a0 a1 a2 a3).dstate = a0.dstate := by
  simp only [State.startFw] <;> (repeat' split) <;> (rfl)

theorem State.writeImageReg_dstate (a0 a1 a2) : (State.writeImageReg a0 a1 a2).dstate = a0.dstate := by
  simp only [State.writeImageReg] <;> (repeat' split) <;> (rfl)

theorem State.writeCfg_dstate (a0 a1 a2) : (State.writeCfg a0 a1 a2).dstate = a0.dstate := by
  simp only [State.writeCfg] <;> (repeat' split) <;> (rfl)

theorem State.writePlb_dstate (a0 a1 a2) : (State.writePlb a0 a1 a2).dstate = a0.dstate := by
  simp only [State.writePlb, dstate_mk, dstate_eta, implies_true, State.mgmtOp_dstate, State.setThrottle_dstate] <;> (repeat' split) <;> (simp only [dstate_mk, dstate_eta, implies_true, State.mgmtOp_dstate, State.setThrottle_dstate])

theorem State.writeFltRing_dstate (a0 a1 a2) : (State.writeFltRing a0 a1 a2).dstate = a0.dstate := by
  simp only [State.writeFltRing] <;> (repeat' split) <;> (rfl)

theorem State.writeFlt_dstate (a0 a1 a2) : (State.writeFlt a0 a1 a2).dstate = a0.dstate := by
  simp only [State.writeFlt] <;> (repeat' split) <;> (rfl)

theorem State.writeTel_dstate (a0 a1 a2) : (State.writeTel a0 a1 a2).dstate = a0.dstate := by
  simp only [State.writeTel] <;> (repeat' split) <;> (rfl)

theorem State.writeReg_dstate (a0 a1 a2) : (State.writeReg a0 a1 a2).dstate = a0.dstate := by
  simp only [State.writeReg, State.writeImageReg_dstate, State.writeCfg_dstate, State.writePlb_dstate, State.writeFltRing_dstate, State.writeFlt_dstate, State.writeTel_dstate] <;> (repeat' split) <;> (simp only [State.writeImageReg_dstate, State.writeCfg_dstate, State.writePlb_dstate, State.writeFltRing_dstate, State.writeFlt_dstate, State.writeTel_dstate])

theorem State.writeHalf_dstate (a0 a1 a2 a3) : (State.writeHalf a0 a1 a2 a3).dstate = a0.dstate := by
  simp only [State.writeHalf, State.doAck_dstate, State.startFw_dstate, State.writeReg_dstate] <;> (repeat' split) <;> (simp only [State.doAck_dstate, State.startFw_dstate, State.writeReg_dstate])

theorem State.doRegisterWrite_dstate (a0 a1 a2 a3 a4) : (State.doRegisterWrite a0 a1 a2 a3 a4).dstate = a0.dstate := by
  unfold State.doRegisterWrite; dsimp only; split; (exact State.applyMatch_dstate _ _ _ _ _ (fun s r v => State.writePage_dstate _ _ _ _) (fun s => State.badWrite_dstate _ _ _)); exact State.applyMatch_dstate _ _ _ _ _ (fun s r v => by split; exact State.writeHalf_dstate _ _ _ _; exact State.writeReg_dstate _ _ _) (fun s => State.badWrite_dstate _ _ _)

theorem State.releaseHost_dstate (a0 a1 a2 a3 a4 a5) : (State.releaseHost a0 a1 a2 a3 a4 a5).dstate = a0.dstate := by
  simp only [State.releaseHost, dstate_ite, ite_self, State.orderRead_dstate, State.agHostWrite_dstate, State.capFlag_dstate, State.dropCap_dstate]

theorem State.releaseDevice_dstate (a0 a1 a2 a3 a4) : (State.releaseDevice a0 a1 a2 a3 a4).dstate = a0.dstate := by
  simp only [State.releaseDevice, State.lineWrite_dstate, State.onBehalf_dstate, State.capFlag_dstate, State.dropCap_dstate, State.serveWaiting_dstate, State.poisonWrite_dstate, State.agAbort_dstate] <;> (repeat' split) <;> (rename_i h1; cases congrArg Prod.fst h1; (simp only [State.lineWrite_dstate, State.onBehalf_dstate, State.capFlag_dstate, State.dropCap_dstate, State.serveWaiting_dstate, State.poisonWrite_dstate, State.agAbort_dstate]; done))

theorem State.doRelease_dstate (a0 a1) : (State.doRelease a0 a1).dstate = a0.dstate := by
  simp only [State.doRelease, State.signalUnits_dstate, State.releaseHost_dstate, State.releaseDevice_dstate] <;> (repeat' split) <;> (simp only [State.signalUnits_dstate, State.releaseHost_dstate, State.releaseDevice_dstate])

theorem State.serveSettled_dstate (a0 a1) : (State.serveSettled a0 a1).dstate = a0.dstate := by
  simp only [State.serveSettled, dstate_ite, ite_self, State.serveWaiting_dstate]

theorem State.serveAllWaiting_dstate (a0) : (State.serveAllWaiting a0).dstate = a0.dstate := by
  simp only [State.serveAllWaiting, foldl_dstate, implies_true, State.serveSettled_dstate]

theorem State.logBlock_dstate (a0 a1 a2) : (State.logBlock a0 a1 a2).dstate = a0.dstate := by
  simp only [State.logBlock, dstate_ite, foldl_dstate, ite_self, implies_true, State.logDevice_dstate]

theorem State.freshenBlock_dstate (a0 a1) : (State.freshenBlock a0 a1).dstate = a0.dstate := by
  simp only [State.freshenBlock, State.freshenWhere_dstate]

theorem State.releaseAt_dstate (a0 a1 a2) : (State.releaseAt a0 a1 a2).1.dstate = a0.dstate := by
  simp only [State.releaseAt, dstate_ite, ite_self, apply_ite Prod.fst, State.holdWrite_dstate, State.dropLine_dstate, State.openShare_dstate, State.setLineState_dstate]

theorem State.releaseLine_dstate (a0 a1) : (State.releaseLine a0 a1).1.dstate = a0.dstate := by
  simp only [State.releaseLine, State.releaseAt_dstate]

theorem State.releasePart_dstate (a0 a1 a2) : (State.releasePart a0 a1 a2).dstate = a0.dstate := by
  simp only [State.releasePart, dstate_ite, ite_self, State.mapCheck_dstate, State.releaseLine_dstate, State.logDevice_dstate, State.updCmd_dstate]

theorem releaseParts_dstate (a0 a1 a2) : (releaseParts a0 a1 a2).dstate = a2.dstate := by
  induction a1 generalizing a2 with | nil => exact Eq.refl _ | cons x t ih => (cases x <;> unfold releaseParts <;> split <;> (first | exact State.agAbort_dstate _ _ _ _ | (rw [ih]; (first | rw [State.updCmd_dstate, State.logBlock_dstate, State.freshenBlock_dstate] | rw [State.releasePart_dstate]))))

theorem releaseOuts_dstate (a0 a1 a2 a3) : (releaseOuts a0 a1 a2 a3).dstate = a3.dstate := by
  induction a2 generalizing a3 with
  | nil => simp only [releaseOuts]
  | cons x t ih => simp only [releaseOuts, State.agDpa_dstate, releaseParts_dstate, ih] <;> (repeat' split) <;> (first | (rename_i h1; cases congrArg Prod.fst h1; (simp only [State.agDpa_dstate, releaseParts_dstate, ih]; done)) | (rename_i h2 h1; cases congrArg Prod.fst h2; (simp only [State.agDpa_dstate, releaseParts_dstate, ih]; done)))

theorem State.doReleaseCmd_dstate (a0 a1) : (State.doReleaseCmd a0 a1).dstate = a0.dstate := by
  simp only [State.doReleaseCmd, dstate_ite, ite_self, State.workDone_dstate, State.serveAllWaiting_dstate, releaseOuts_dstate]

theorem repackReads_dstate (a0 a1 a2) : (repackReads a0 a1 a2).1.dstate = a2.dstate := by
  induction a1 generalizing a2 with
  | nil => simp only [repackReads]
  | cons x t ih => simp only [repackReads, dstate_ite, apply_ite Prod.fst, State.decodeLine_dstate, ih] <;> (repeat' split) <;> (first | rfl | (rename_i h1; cases congrArg Prod.fst h1; (simp only [dstate_ite, apply_ite Prod.fst, State.decodeLine_dstate, ih]; done)))

theorem repackMaps_dstate (a0 a1 a2) : (repackMaps a0 a1 a2).1.dstate = a2.dstate := by
  induction a1 generalizing a2 with
  | nil => simp only [repackMaps]
  | cons x t ih => simp only [repackMaps, dstate_ite, ite_self, apply_ite Prod.fst, State.mapRead_dstate, ih]

theorem State.doRepackRow_dstate (a0 a1 a2) : (State.doRepackRow a0 a1 a2).dstate = a0.dstate := by
  simp only [State.doRepackRow, dstate_ite, foldl_dstate, ite_self, implies_true, State.addErrors_dstate, repackReads_dstate, repackMaps_dstate, State.updChan_dstate, State.writeStored_dstate, State.writeMap_dstate]

theorem State.doRepairGo_dstate (a0 a1 a2) : (State.doRepairGo a0 a1 a2).dstate = a0.dstate := by
  simp only [State.doRepairGo, dstate_mk, dstate_eta, dstate_ite, ite_self]

theorem State.doReplayTimeout_dstate (a0 a1) : (State.doReplayTimeout a0 a1).dstate = a0.dstate := by
  simp only [State.doReplayTimeout, dstate_ite, ite_self, State.resend_dstate]

theorem State.fillFrom_dstate (a0 a1 a2 a3) : (State.fillFrom a0 a1 a2 a3).dstate = a0.dstate := by
  simp only [State.fillFrom, dstate_ite, foldl_dstate, ite_self, implies_true, State.applyAgain_dstate, State.installReplica_dstate, State.setDir_dstate]

theorem State.doReplicaFill_dstate (a0 a1) : (State.doReplicaFill a0 a1).dstate = a0.dstate := by
  simp only [State.doReplicaFill, foldl_dstate, implies_true, State.answerReq_dstate, State.fillFrom_dstate] <;> (repeat' split) <;> (simp only [foldl_dstate, implies_true, State.answerReq_dstate, State.fillFrom_dstate])

theorem State.resetUnit_dstate (a0 a1) : (State.resetUnit a0 a1).dstate = a0.dstate := by
  simp only [State.resetUnit, State.doBayReset_dstate, State.doPortReset_dstate] <;> (repeat' split) <;> (simp only [State.doBayReset_dstate, State.doPortReset_dstate])

theorem State.setMgmt_dstate (a0 a1 a2) : (State.setMgmt a0 a1 a2).dstate = a0.dstate := by
  simp only [State.setMgmt] <;> (repeat' split) <;> (rfl)

theorem State.setUnpowered_dstate (a0 a1) : (State.setUnpowered a0 a1).dstate = a0.dstate := by
  simp only [State.setUnpowered] <;> (repeat' split) <;> (rfl)

theorem State.doReprobe_dstate (a0 a1 a2 a3) : (State.doReprobe a0 a1 a2 a3).dstate = a0.dstate := by
  simp only [State.doReprobe, dstate_ite, ite_self, State.closeSplit_dstate, State.resetUnit_dstate, State.raise_dstate, State.setMgmt_dstate, State.setUnpowered_dstate]

theorem State.postDue_dstate (a0 a1 a2) : (State.postDue a0 a1 a2).dstate = a0.dstate := by
  simp only [State.postDue, dstate_ite, foldl_dstate, ite_self, implies_true, State.orderRead_dstate, State.postTenant_dstate, State.updCq_dstate]

theorem State.dropWaiting_dstate (a0 a1 a2) : (State.dropWaiting a0 a1 a2).dstate = a0.dstate := by
  simp only [State.dropWaiting, State.updSlice_dstate, State.discardWaiting_dstate]

theorem State.noteEnd_dstate (a0 a1 a2 a3) : (State.noteEnd a0 a1 a2 a3).dstate = a0.dstate := by
  simp only [State.noteEnd, dstate_mk, dstate_eta]

theorem State.endTenantReset_dstate (a0 a1) : (State.endTenantReset a0 a1).dstate = a0.dstate := by
  simp only [State.endTenantReset, foldl_dstate, implies_true, State.postDue_dstate, State.dropWaiting_dstate, State.returnBuffers_dstate, State.raise_dstate, State.updSlice_dstate, State.noteEnd_dstate]

theorem State.openShield_dstate (a0 a1) : (State.openShield a0 a1).dstate = a0.dstate := by
  simp only [State.openShield, State.signalUnits_dstate]

theorem State.restartPairs_dstate (a0 a1) : (State.restartPairs a0 a1).dstate = a0.dstate := by
  simp only [State.restartPairs, foldl_dstate, implies_true, State.updReporter_dstate]

theorem State.finishBay_dstate (a0 a1) : (State.finishBay a0 a1).dstate = a0.dstate := by
  simp only [State.finishBay, dstate_mk, dstate_eta, dstate_ite, ite_self, State.updBay_dstate, State.cutBay_dstate, State.restartPairs_dstate]

theorem State.repairRest_dstate (a0 a1) : (State.repairRest a0 a1).dstate = a0.dstate := by
  simp only [State.repairRest, foldl_dstate, implies_true, State.updChan_dstate, State.drawChoice_dstate, State.repairRow_dstate]

theorem State.finishChan_dstate (a0 a1) : (State.finishChan a0 a1).dstate = a0.dstate := by
  simp only [State.finishChan, State.updChan_dstate, State.repairRest_dstate, State.restartPairs_dstate, State.setUnitState_dstate]

theorem State.failChan_dstate (a0 a1) : (State.failChan a0 a1).dstate = a0.dstate := by
  simp only [State.failChan, State.setUnitState_dstate, State.updChan_dstate, State.raise_dstate]

theorem State.finishDie_dstate (a0 a1) : (State.finishDie a0 a1).dstate = a0.dstate := by
  simp only [State.finishDie, dstate_mk, dstate_eta, foldl_dstate, implies_true, State.applyRepairs_dstate, State.finishBay_dstate, State.finishChan_dstate, State.restartPairs_dstate]

theorem State.failDie_dstate (a0 a1) : (State.failDie a0 a1).dstate = a0.dstate := by
  simp only [State.failDie, dstate_mk, dstate_eta, foldl_dstate, implies_true, State.raise_dstate, State.updBay_dstate, State.setUnitState_dstate]

theorem State.finishPort_dstate (a0 a1) : (State.finishPort a0 a1).dstate = a0.dstate := by
  simp only [State.finishPort, dstate_mk, dstate_eta, dstate_ite, ite_self, State.updPort_dstate, State.cutPort_dstate, State.restartPairs_dstate]

theorem State.doResetComplete_dstate (a0 a1 a2 a3) : (State.doResetComplete a0 a1 a2 a3).dstate = a0.dstate := by
  unfold State.doResetComplete <;> (repeat' split) <;> (simp only [State.endTenantReset_dstate, State.noteEnd_dstate, State.openShield_dstate, State.finishBay_dstate, State.finishChan_dstate, State.failChan_dstate, State.finishDie_dstate, State.failDie_dstate, State.finishPort_dstate]; done)

theorem State.doResume_dstate (a0 a1) : (State.doResume a0 a1).dstate = a0.dstate := by
  simp only [State.doResume, dstate_ite, ite_self, State.updSlice_dstate, State.wrongState_dstate]

theorem State.issueQueued_dstate (a0 a1 a2) : (State.issueQueued a0 a1 a2).dstate = a0.dstate := by
  simp only [State.issueQueued, State.serveOrQueue_dstate, State.doChannelRead_dstate, State.doChannelWrite_dstate] <;> (repeat' split) <;> (simp only [State.serveOrQueue_dstate, State.doChannelRead_dstate, State.doChannelWrite_dstate])

theorem State.earnStream_dstate (a0 a1) : (State.earnStream a0 a1).dstate = a0.dstate := by
  simp only [State.earnStream, State.updChan_dstate]

theorem issueWaiting_dstate (a0 a1 a2 a3) : (issueWaiting a0 a1 a2 a3).dstate = a3.dstate := by
  induction a1 generalizing a2 a3 with | nil => exact foldl_dstate _ (fun s r => State.issueQueued_dstate _ _ _) _ _ | cons r t ih => (unfold issueWaiting; split; (dsimp only; split; (rw [ih, State.issueQueued_dstate, State.updChan_dstate, State.earnStream_dstate]); (rw [ih, State.earnStream_dstate])); (rw [ih, State.issueQueued_dstate]))

theorem State.doRetrainEnd_dstate (a0 a1) : (State.doRetrainEnd a0 a1).dstate = a0.dstate := by
  simp only [State.doRetrainEnd, dstate_mk, dstate_eta, dstate_ite, ite_self, State.updChan_dstate, State.event_dstate, issueWaiting_dstate]

theorem State.doRetrainStart_dstate (a0 a1) : (State.doRetrainStart a0 a1).dstate = a0.dstate := by
  simp only [State.doRetrainStart, dstate_ite, ite_self, State.updChan_dstate]

theorem State.doRevoke_dstate (a0 a1 a2) : (State.doRevoke a0 a1 a2).dstate = a0.dstate := by
  simp only [State.doRevoke, dstate_mk, dstate_eta, dstate_ite, ite_self]

theorem State.offlineSlice_dstate (a0 a1) : (State.offlineSlice a0 a1).dstate = a0.dstate := by
  simp only [State.offlineSlice, dstate_ite, foldl_dstate, ite_self, implies_true, State.evictWay_dstate, State.offline_dstate]

theorem State.doScratch_dstate (a0 a1 a2 a3 a4 a5) : (State.doScratch a0 a1 a2 a3 a4 a5).dstate = a0.dstate := by
  simp only [State.doScratch, foldl_dstate, implies_true, State.gangFault_dstate, State.setRegByte_dstate, State.freeReg_dstate, State.footWrite_dstate] <;> (repeat' split) <;> (simp only [foldl_dstate, implies_true, State.gangFault_dstate, State.setRegByte_dstate, State.freeReg_dstate, State.footWrite_dstate])

theorem State.paySet_dstate (a0 a1 a2) : (State.paySet a0 a1 a2).dstate = a0.dstate := by
  simp only [State.paySet, dstate_mk, dstate_eta]

theorem State.scrubFixed_dstate (a0 a1) : (State.scrubFixed a0 a1).dstate = a0.dstate := by
  simp only [State.scrubFixed, dstate_mk, dstate_eta]

theorem State.scrubTags_dstate (a0 a1 a2 a3 a4) : (State.scrubTags a0 a1 a2 a3 a4).1.dstate = a0.dstate := by
  simp only [State.scrubTags, dstate_ite, ite_self, apply_ite Prod.fst, State.scrubFixed_dstate, State.checkTags_dstate, State.lostTags_dstate, State.cacheCorrected_dstate]

theorem State.scrubNext_dstate (a0 a1) : (State.scrubNext a0 a1).dstate = a0.dstate := by
  simp only [State.scrubNext, dstate_mk, dstate_eta, dstate_ite, ite_self]

theorem State.sectorErr_dstate (a0 a1 a2 a3) : (State.sectorErr a0 a1 a2 a3).dstate = a0.dstate := by
  simp only [State.sectorErr, State.scrubFixed_dstate, State.cacheCorrected_dstate, State.sectorLost_dstate] <;> (repeat' split) <;> (simp only [State.scrubFixed_dstate, State.cacheCorrected_dstate, State.sectorLost_dstate])

theorem State.scrubData_dstate (a0 a1 a2 a3) : (State.scrubData a0 a1 a2 a3).dstate = a0.dstate := by
  simp only [State.scrubData, dstate_ite, foldl_dstate, ite_self, implies_true, State.scrubFixed_dstate, State.checkSectors_dstate, State.sectorErr_dstate]

theorem State.doScrubCache_dstate (a0 a1 a2 a3 a4) : (State.doScrubCache a0 a1 a2 a3 a4).dstate = a0.dstate := by
  unfold State.doScrubCache; split; exact Eq.refl _; dsimp only; have e := (State.scrubTags_dstate (a0.paySet a1 (Tbl.get 0 a0.uc.scrubSet a1)) a1 (Tbl.get 0 a0.uc.scrubSet a1) a2 a3).trans (State.paySet_dstate _ _ _); split <;> (rename_i h; rw [h] at e; dsimp only at e); exact e; rw [State.scrubNext_dstate, State.scrubData_dstate]; exact e

theorem State.scrubMove_dstate (a0 a1) : (State.scrubMove a0 a1).dstate = a0.dstate := by
  simp only [State.scrubMove, dstate_ite, ite_self, State.updChan_dstate]

theorem State.earnScrub_dstate (a0 a1) : (State.earnScrub a0 a1).dstate = a0.dstate := by
  simp only [State.earnScrub, State.updChan_dstate]

theorem State.scrubLine_dstate (a0 a1 a2 a3) : (State.scrubLine a0 a1 a2 a3).dstate = a0.dstate := by
  unfold State.scrubLine; extract_lets s1 lay cl s2; have e : s2.dstate = a0.dstate := (by simp only [s2, s1, State.event_dstate, State.addErrors_dstate]); have e2 := State.decodeLine_dstate s2 a1 a2 128 0; clear_value s2; split <;> (rename_i h; rw [h] at e2; dsimp only at e2) <;> (try split) <;> (try rw [State.writeStored_dstate]) <;> exact e2.trans e

theorem State.doScrubDram_dstate (a0 a1 a2) : (State.doScrubDram a0 a1 a2).dstate = a0.dstate := by
  simp only [State.doScrubDram, dstate_ite, ite_self, State.scrubMove_dstate, State.mapCheck_dstate, State.earnScrub_dstate, State.updChan_dstate, State.scrubLine_dstate]

theorem State.scratchWrite_dstate (a0 a1 a2 a3) : (State.scratchWrite a0 a1 a2 a3).dstate = a0.dstate := by
  simp only [State.scratchWrite, State.updBay_dstate]

theorem State.zeroWord_dstate (a0 a1) : (State.zeroWord a0 a1).dstate = a0.dstate := by
  simp only [State.zeroWord, dstate_mk, dstate_eta, dstate_ite, ite_self, State.drawChoice_dstate, State.scratchWrite_dstate, State.arrayCorrected_dstate]

theorem State.foundErr_dstate (a0 a1) : (State.foundErr a0 a1).dstate = a0.dstate := by
  simp only [State.foundErr, State.drawChoice_dstate, State.updBay_dstate, State.arrayCorrected_dstate, State.arrayLost_dstate, State.zeroWord_dstate] <;> (repeat' split) <;> (simp only [State.drawChoice_dstate, State.updBay_dstate, State.arrayCorrected_dstate, State.arrayLost_dstate, State.zeroWord_dstate]; done)

theorem State.l1Lost_dstate (a0 a1 a2 a3) : (State.l1Lost a0 a1 a2 a3).dstate = a0.dstate := by
  simp only [State.l1Lost, foldl_dstate, implies_true, State.arrayCorrected_dstate, State.dropL1_dstate, State.setL1_dstate, State.arrayLost_dstate] <;> (repeat' split) <;> (simp only [foldl_dstate, implies_true, State.arrayCorrected_dstate, State.dropL1_dstate, State.setL1_dstate, State.arrayLost_dstate])

theorem State.wordLost_dstate (a0 a1 a2 a3) : (State.wordLost a0 a1 a2 a3).dstate = a0.dstate := by
  simp only [State.wordLost, State.drawChoice_dstate, State.arrayLost_dstate, State.l1Lost_dstate, State.zeroWord_dstate] <;> (repeat' split) <;> (simp only [State.drawChoice_dstate, State.arrayLost_dstate, State.l1Lost_dstate, State.zeroWord_dstate]; done)

theorem State.doScrubLs_dstate (a0 a1 a2 a3) : (State.doScrubLs a0 a1 a2 a3).dstate = a0.dstate := by
  simp only [State.doScrubLs, dstate_mk, dstate_eta, State.foundErr_dstate, State.arrayCorrected_dstate, State.wordLost_dstate, State.updBay_dstate] <;> (repeat' split) <;> (simp only [dstate_mk, dstate_eta, State.foundErr_dstate, State.arrayCorrected_dstate, State.wordLost_dstate, State.updBay_dstate])

theorem State.readEntries_dstate (a0 a1 a2 a3 a4 a5 a6) : (State.readEntries a0 a1 a2 a3 a4 a5 a6).1.dstate = a0.dstate := by
  simp only [State.readEntries] <;> (repeat' split) <;> (rename_i h1; cases congrArg Prod.fst h1; (simp only [State.agRead_dstate]; done))

theorem State.readElems_dstate (a0 a1 a2 a3 a4 a5) : (State.readElems a0 a1 a2 a3 a4 a5).1.dstate = a0.dstate := by
  simp only [State.readElems] <;> (repeat' split) <;> (rename_i h1; cases congrArg Prod.fst h1; (simp only [State.agRead_dstate]; done))

theorem State.freeEngine_dstate (a0 a1 a2) : (State.freeEngine a0 a1 a2).dstate = a0.dstate := by
  simp only [State.freeEngine, State.updCmd_dstate]

theorem State.endPass1_dstate (a0 a1 a2 a3 a4) : (State.endPass1 a0 a1 a2 a3 a4).dstate = a0.dstate := by
  simp only [State.endPass1, dstate_ite, ite_self, State.updRow_dstate, State.setBusy_dstate, State.freeEngine_dstate]

theorem State.pass1Step_dstate (a0 a1 a2 a3 a4) : (State.pass1Step a0 a1 a2 a3 a4).dstate = a0.dstate := by
  simp only [State.pass1Step, implies_true, State.readEntries_dstate, State.readElems_dstate, State.countElems_dstate, State.afterSave_dstate, State.endPass1_dstate, State.setBusy_dstate] <;> (repeat' split) <;> (simp only [implies_true, State.readEntries_dstate, State.readElems_dstate, State.countElems_dstate, State.afterSave_dstate, State.endPass1_dstate, State.setBusy_dstate]; done)

theorem State.mergeStep_dstate (a0 a1 a2 a3 a4) : (State.mergeStep a0 a1 a2 a3 a4).dstate = a0.dstate := by
  simp only [State.mergeStep, dstate_ite, ite_self, implies_true, State.countElems_dstate, State.afterSave_dstate, State.freeEngine_dstate, State.updRow_dstate, State.setBusy_dstate]

theorem State.pass2Step_dstate (a0 a1 a2 a3 a4) : (State.pass2Step a0 a1 a2 a3 a4).dstate = a0.dstate := by
  simp only [State.pass2Step, implies_true, State.readElems_dstate, State.countElems_dstate, State.afterSave_dstate, State.freeEngine_dstate, State.updRow_dstate, State.setBusy_dstate] <;> (repeat' split) <;> (first | (rename_i h1; cases congrArg Prod.fst h1; (simp only [implies_true, State.readElems_dstate, State.countElems_dstate, State.afterSave_dstate, State.freeEngine_dstate, State.updRow_dstate, State.setBusy_dstate]; done)) | (rename_i h2 h1; cases congrArg Prod.fst h2; (simp only [implies_true, State.readElems_dstate, State.countElems_dstate, State.afterSave_dstate, State.freeEngine_dstate, State.updRow_dstate, State.setBusy_dstate]; done)))

theorem readPayload_dstate (a0 a1 a2 a3 a4) : (readPayload a0 a1 a2 a3 a4).1.dstate = a4.dstate := by
  induction a3 generalizing a4 with
  | nil => simp only [readPayload]
  | cons x t ih => simp only [readPayload, dstate_ite, ite_self, apply_ite Prod.fst, State.agRead_dstate, ih] <;> (repeat' split) <;> (first | (rename_i h1; cases congrArg Prod.fst h1; (simp only [dstate_ite, ite_self, apply_ite Prod.fst, State.agRead_dstate, ih]; done)) | (rename_i h1 _ h0; cases congrArg Prod.fst h1; cases congrArg Prod.fst h0; (simp only [dstate_ite, ite_self, apply_ite Prod.fst, State.agRead_dstate, ih]; done)) | (rename_i h1 _ _ h0; cases congrArg Prod.fst h1; cases congrArg Prod.fst h0; (simp only [dstate_ite, ite_self, apply_ite Prod.fst, State.agRead_dstate, ih]; done)))

theorem storeParts_dstate (a0 a1 a2 a3) : (storeParts a0 a1 a2 a3).1.dstate = a3.dstate := by
  induction a2 generalizing a3 with
  | nil => simp only [storeParts]
  | cons x t ih => simp only [storeParts, State.agStore_dstate, ih] <;> (repeat' split) <;> (rename_i h1; cases congrArg Prod.fst h1; (simp only [State.agStore_dstate, ih]; done))

theorem State.finishStep_dstate (a0 a1 a2 a3 a4) : (State.finishStep a0 a1 a2 a3 a4).dstate = a0.dstate := by
  unfold State.finishStep; extract_lets b r k es; have h0 : (if sePayload b then readPayload a1 b (a0.payBase a3) es a0 else (a0, some ([], 0, false))).1.dstate = a0.dstate := (by split; exact readPayload_dstate _ _ _ _ _; exact Eq.refl _); generalize (if sePayload b then readPayload a1 b (a0.payBase a3) es a0 else (a0, some ([], 0, false))) = y at h0 ⊢; obtain ⟨t, z⟩ := y; dsimp only at h0; cases z with | none => exact h0 | some v => (obtain ⟨pay, rows, oor⟩ := v; dsimp only; have h1 : (if sePayload b = true then t.countRows a2 a3.slice rows (rows * sePLen b / 32) else t).dstate = t.dstate := (by split; exact State.countRows_dstate _ _ _ _ _; exact Eq.refl _); generalize (if sePayload b = true then t.countRows a2 a3.slice rows (rows * sePLen b / 32) else t) = s1 at h1 ⊢; generalize (_ ++ _ : List (Nat × Nat × Bytes)) = parts; have h2 := storeParts_dstate a1 a3.desc parts s1; generalize storeParts a1 a3.desc parts s1 = y2 at h2 ⊢; obtain ⟨t2, z2⟩ := y2; dsimp only at h2; cases z2 with | false => exact h2.trans (h1.trans h0) | true => (dsimp only; split <;> (try rw [State.workDone_dstate]) <;> rw [State.updCmd_dstate] <;> exact h2.trans (h1.trans h0)))

theorem State.selectStep_dstate (a0 a1 a2 a3) : (State.selectStep a0 a1 a2 a3).dstate = a0.dstate := by
  simp only [State.selectStep, dstate_ite, ite_self, implies_true, State.pass1Step_dstate, State.afterLoad_dstate, State.mergeStep_dstate, State.pass2Step_dstate, State.finishStep_dstate]

theorem State.doSelect_dstate (a0 a1 a2) : (State.doSelect a0 a1 a2).dstate = a0.dstate := by
  simp only [State.doSelect, implies_true, State.onBay_dstate, State.selectStep_dstate] <;> (repeat' split) <;> (simp only [implies_true, State.onBay_dstate, State.selectStep_dstate])

theorem State.doShieldAnswer_dstate (a0 a1) : (State.doShieldAnswer a0 a1).dstate = a0.dstate := by
  simp only [State.doShieldAnswer] <;> (repeat' split) <;> (simp only [State.takeShield_dstate])

theorem State.readOp_dstate (a0 a1 a2 a3 a4) : (State.readOp a0 a1 a2 a3 a4).1.dstate = a0.dstate := by
  unfold State.readOp; have e := State.agRead_dstate a0 a1 (a2.addr + a3 * a2.fmt.bits / 8) (rowBytes a4 a2.fmt); generalize a0.agRead a1 (a2.addr + a3 * a2.fmt.bits / 8) (rowBytes a4 a2.fmt) = ye at e ⊢; obtain ⟨t, z⟩ := ye; dsimp only at e ⊢; cases z with | none => exact e | some x => (dsimp only; split; (have e2 := State.agRead_dstate t a1 (a2.scale + a3 / 32) (ceilDiv a4 32); generalize t.agRead a1 (a2.scale + a3 / 32) (ceilDiv a4 32) = ye2 at e2 ⊢; obtain ⟨t2, z2⟩ := ye2; dsimp only at e2 ⊢; cases z2 <;> exact e2.trans e); exact e)

theorem readOps_dstate (a0 a1 a2 a3 a4) : (readOps a0 a1 a2 a3 a4).1.dstate = a4.dstate := by
  induction a3 generalizing a4 with
  | nil => simp only [readOps]
  | cons x t ih => simp only [readOps, State.readOp_dstate, ih] <;> (repeat' split) <;> (first | (rename_i h1; cases congrArg Prod.fst h1; (simp only [State.readOp_dstate, ih]; done)) | (rename_i h1 _ _ h0; cases congrArg Prod.fst h1; cases congrArg Prod.fst h0; (simp only [State.readOp_dstate, ih]; done)) | (rename_i h1 _ _ _ h0; cases congrArg Prod.fst h1; cases congrArg Prod.fst h0; (simp only [State.readOp_dstate, ih]; done)))

theorem State.latchTile_dstate (a0 a1 a2 a3 a4) : (State.latchTile a0 a1 a2 a3 a4).dstate = a0.dstate := by
  simp only [State.latchTile, State.updBay_dstate]

theorem readEach_dstate (a0 a1 a2 a3 a4 a5 a6 a7) : (readEach a0 a1 a2 a3 a4 a5 a6 a7).1.dstate = a7.dstate := by
  induction a6 generalizing a7 with
  | nil => simp only [readEach]
  | cons x t ih => simp only [readEach, foldl_dstate, implies_true, readOps_dstate, State.latchTile_dstate, ih] <;> (repeat' split) <;> (first | (rename_i h1; cases congrArg Prod.fst h1; (simp only [foldl_dstate, implies_true, readOps_dstate, State.latchTile_dstate, ih]; done)) | (rename_i h2 h1; cases congrArg Prod.fst h2; (simp only [foldl_dstate, implies_true, readOps_dstate, State.latchTile_dstate, ih]; done)))

theorem State.weightTile_dstate (a0 a1 a2 a3 a4 a5 a6) : (State.weightTile a0 a1 a2 a3 a4 a5 a6).1.dstate = a0.dstate := by
  simp only [State.weightTile, foldl_dstate, implies_true, readOps_dstate, State.takeBus_dstate, State.latchTile_dstate, readEach_dstate, State.countFallbacks_dstate] <;> (repeat' split) <;> (first | (simp only [foldl_dstate, implies_true, readOps_dstate, State.takeBus_dstate, State.latchTile_dstate, readEach_dstate, State.countFallbacks_dstate]; done) | (rename_i h1; cases congrArg Prod.fst h1; (simp only [foldl_dstate, implies_true, readOps_dstate, State.takeBus_dstate, State.latchTile_dstate, readEach_dstate, State.countFallbacks_dstate]; done)) | (rename_i h1 _ _ h0; cases congrArg Prod.fst h1; cases congrArg Prod.fst h0; (simp only [foldl_dstate, implies_true, readOps_dstate, State.takeBus_dstate, State.latchTile_dstate, readEach_dstate, State.countFallbacks_dstate]; done)) | (rename_i h1 _ _ _ h0; cases congrArg Prod.fst h1; cases congrArg Prod.fst h0; (simp only [foldl_dstate, implies_true, readOps_dstate, State.takeBus_dstate, State.latchTile_dstate, readEach_dstate, State.countFallbacks_dstate]; done)))

theorem readOld_dstate (a0 a1 a2 a3 a4 a5 a6) : (readOld a0 a1 a2 a3 a4 a5 a6).1.dstate = a6.dstate := by
  induction a5 generalizing a6 with | nil => exact Eq.refl _ | cons r l ih => (unfold readOld; have e := State.agRead_dstate a6 a0 ((dOut a1 0).addr + r * slCStride a2 + 4 * a3) (4 * a4); generalize a6.agRead a0 ((dOut a1 0).addr + r * slCStride a2 + 4 * a3) (4 * a4) = ye at e ⊢; obtain ⟨t, z⟩ := ye; dsimp only at e ⊢; cases z with | none => exact e | some x => (dsimp only; have e2 := ih t; generalize readOld a0 a1 a2 a3 a4 l t = ye2 at e2 ⊢; obtain ⟨t2, z2⟩ := ye2; dsimp only at e2 ⊢; cases z2 <;> exact e2.trans e))

theorem State.startAcc_dstate (a0 a1 a2 a3 a4) : (State.startAcc a0 a1 a2 a3 a4).1.dstate = a0.dstate := by
  simp only [State.startAcc, dstate_ite, ite_self, apply_ite Prod.fst, readOld_dstate]

theorem State.tileReads_dstate (a0 a1 a2 a3 a4) : (State.tileReads a0 a1 a2 a3 a4).1.dstate = a0.dstate := by
  unfold State.tileReads; dsimp only; have e0 := State.weightTile_dstate a0 a1 a2 (a4.tileKey (a0.cmd a1).desc (a0.cmd a1).block) (a4.pos * slTileK (a0.cmd a1).block) (min (slTileK (a0.cmd a1).block) (slK (a0.cmd a1).block - a4.pos * slTileK (a0.cmd a1).block)) (wPlaces (a0.cmd a1).block (a0.wBase (a0.cmd a1)) (itemSpan (a0.cmd a1).desc (a0.cmd a1).block a4.item).2.2.1 (itemSpan (a0.cmd a1).desc (a0.cmd a1).block a4.item).2.2.2); generalize State.weightTile _ _ _ _ _ _ _ = y1 at e0 ⊢; obtain ⟨t1, z1⟩ := y1; dsimp only at e0 ⊢; cases z1 with | none => exact e0 | some w => (dsimp only; have e2 := readOps_dstate a3 (a4.pos * slTileK (a0.cmd a1).block) (min (slTileK (a0.cmd a1).block) (slK (a0.cmd a1).block - a4.pos * slTileK (a0.cmd a1).block)) (aPlaces (a0.cmd a1).block (itemSpan (a0.cmd a1).desc (a0.cmd a1).block a4.item).1 (itemSpan (a0.cmd a1).desc (a0.cmd a1).block a4.item).2.1) t1; generalize readOps _ _ _ _ t1 = y2 at e2 ⊢; obtain ⟨t2, z2⟩ := y2; dsimp only at e2 ⊢; cases z2 with | none => exact e2.trans e0 | some x => (dsimp only; have e3 := State.startAcc_dstate t2 a3 (a0.cmd a1).desc (a0.cmd a1).block a4; generalize t2.startAcc a3 (a0.cmd a1).desc (a0.cmd a1).block a4 = y3 at e3 ⊢; obtain ⟨t3, z3⟩ := y3; dsimp only at e3 ⊢; cases z3 <;> exact e3.trans (e2.trans e0)))

theorem writeRows_dstate (a0 a1 a2 a3 a4 a5) : (writeRows a0 a1 a2 a3 a4 a5).1.dstate = a5.dstate := by
  induction a4 generalizing a5 with
  | nil => simp only [writeRows]
  | cons x t ih => simp only [writeRows, dstate_ite, ite_self, apply_ite Prod.fst, State.updCmd_dstate, State.agWrite_dstate, ih] <;> (repeat' split) <;> (first | (rename_i h1; cases congrArg Prod.fst h1; (simp only [dstate_ite, ite_self, apply_ite Prod.fst, State.updCmd_dstate, State.agWrite_dstate, ih]; done)) | (rename_i h1 _ _ h0; cases congrArg Prod.fst h1; cases congrArg Prod.fst h0; (simp only [dstate_ite, ite_self, apply_ite Prod.fst, State.updCmd_dstate, State.agWrite_dstate, ih]; done)))

theorem State.endItem_dstate (a0 a1 a2 a3 a4 a5) : (State.endItem a0 a1 a2 a3 a4 a5).dstate = a0.dstate := by
  unfold State.endItem <;> (repeat' split) <;> (rename_i h1; cases congrArg Prod.fst h1; (simp only [dstate_ite, ite_self, writeRows_dstate, State.updCmd_dstate, State.workDone_dstate]; done))

theorem State.slabTile_dstate (a0 a1 a2 a3) : (State.slabTile a0 a1 a2 a3).dstate = a0.dstate := by
  unfold State.slabTile; dsimp only; have e := State.tileReads_dstate a0 a1 a2 (a0.agentOn a1 (a2 / 4)) a3; generalize a0.tileReads a1 a2 (a0.agentOn a1 (a2 / 4)) a3 = y1 at e ⊢; obtain ⟨t1, z1⟩ := y1; dsimp only at e ⊢; cases z1 with | none => exact e | some v => (obtain ⟨ws, ag, acc⟩ := v; dsimp only; split <;> (first | rw [State.endItem_dstate] | rw [State.updCmd_dstate]) <;> rw [State.countTile_dstate] <;> exact e)

theorem State.doSlabRun_dstate (a0 a1 a2) : (State.doSlabRun a0 a1 a2).dstate = a0.dstate := by
  simp only [State.doSlabRun, implies_true, State.onBay_dstate, State.slabTile_dstate] <;> (repeat' split) <;> (simp only [implies_true, State.onBay_dstate, State.slabTile_dstate])

theorem State.doSliceDrained_dstate (a0 a1) : (State.doSliceDrained a0 a1).dstate = a0.dstate := by
  simp only [State.doSliceDrained, dstate_ite, ite_self, State.updSlice_dstate]

theorem State.doSliceFrozen_dstate (a0 a1) : (State.doSliceFrozen a0 a1).dstate = a0.dstate := by
  simp only [State.doSliceFrozen, State.migEnd_dstate, State.updSlice_dstate, State.breakInbound_dstate] <;> (repeat' split) <;> (simp only [State.migEnd_dstate, State.updSlice_dstate, State.breakInbound_dstate])

theorem State.doSnap_dstate (a0 a1 a2) : (State.doSnap a0 a1 a2).dstate = a0.dstate := by
  simp only [State.doSnap, dstate_mk, dstate_eta, dstate_ite, ite_self, State.mapGroups_dstate, State.clearGroups_dstate]

theorem State.findSplit_dstate (a0 a1) : (State.findSplit a0 a1).dstate = a0.dstate := by
  simp only [State.findSplit, dstate_mk, dstate_eta, State.raise_dstate]

theorem State.doSplitCheck_dstate (a0) : (State.doSplitCheck a0).dstate = a0.dstate := by
  simp only [State.doSplitCheck, dstate_ite, foldl_dstate, ite_self, implies_true, State.findSplit_dstate, State.closeSplit_dstate]

theorem State.doSqTail_dstate (a0 a1 a2 a3) : (State.doSqTail a0 a1 a2 a3).dstate = a0.dstate := by
  simp only [State.doSqTail, dstate_ite, ite_self, implies_true, State.pageWrite_dstate, State.updSq_dstate]

theorem State.doStaleDiscard_dstate (a0 a1) : (State.doStaleDiscard a0 a1).dstate = a0.dstate := by
  simp only [State.doStaleDiscard, dstate_mk, dstate_eta, State.settleReq_dstate] <;> (repeat' split) <;> (simp only [dstate_mk, dstate_eta, State.settleReq_dstate])

theorem State.journalBoot_dstate (a0) : (State.journalBoot a0).dstate = a0.dstate := by
  simp only [State.journalBoot, dstate_mk, dstate_eta, State.appendJournal_dstate]

theorem State.startRegulator_dstate (a0 a1 a2) : (State.startRegulator a0 a1 a2).dstate = a0.dstate := by
  simp only [State.startRegulator, dstate_mk, dstate_eta, dstate_ite, ite_self, State.vrTransaction_dstate, State.writeSetPoint_dstate]

theorem State.restoreGuards_dstate (a0 a1) : (State.restoreGuards a0 a1).dstate = a0.dstate := by
  simp only [State.restoreGuards, foldl_dstate, implies_true, State.startRegulator_dstate] <;> (repeat' split) <;> (rfl)

theorem State.trainAll_dstate (a0) : (State.trainAll a0).dstate = a0.dstate := by
  unfold State.trainAll; generalize List.range 128 = L; exact foldl_dstate _ (fun s b => State.updChan_dstate _ _ _) _ _

theorem State.startSlice_dstate (a0 a1) : (State.startSlice a0 a1).dstate = a0.dstate := by
  simp only [State.startSlice, State.writeCopies_dstate, State.updSlice_dstate]

theorem State.startScrubs_dstate (a0) : (State.startScrubs a0).dstate = a0.dstate := by
  simp only [State.startScrubs, foldl_dstate, implies_true, State.updChan_dstate]

theorem State.notePackageEnd_dstate (a0) : (State.notePackageEnd a0).dstate = a0.dstate := by
  simp only [State.notePackageEnd, dstate_mk, dstate_eta, dstate_ite, ite_self]

theorem State.doStoreCapstone_dstate (a0 a1 a2 a3 a4 a5) : (State.doStoreCapstone a0 a1 a2 a3 a4 a5).dstate = a0.dstate := by
  unfold State.doStoreCapstone; extract_lets v c addr len; split; exact State.gangFault_dstate _ _ _ _; rename_i cap id strt _; have hs : ∀ s' cp, (strt s' cp).dstate = s'.dstate := (by intro s' cp; simp only [strt, State.setCap_dstate, State.updGang_dstate, dstate_mk, dstate_eta]); clear_value strt; split; split; exact hs _ _; exact State.gangFault_dstate _ _ _ _; have e := State.gangDpa_dstate a0 a1 (addr / 128) 1; split <;> (rename_i h; rw [h] at e; dsimp only at e); exact e; dsimp only; split; exact (State.stopCmd_dstate _ _ _).trans e; exact (hs _ _).trans e

theorem State.l1Store_dstate (a0 a1 a2 a3 a4 a5) : (State.l1Store a0 a1 a2 a3 a4 a5).dstate = a0.dstate := by
  simp only [State.l1Store, State.setL1_dstate, State.l1Room_dstate] <;> (repeat' split) <;> (simp only [State.setL1_dstate, State.l1Room_dstate])

theorem State.plainLine_dstate (a0 a1 a2 a3) : (State.plainLine a0 a1 a2 a3).dstate = a0.dstate := by
  unfold State.plainLine <;> (repeat' split) <;> (rename_i h1; cases congrArg Prod.fst h1; (simp only [dstate_ite, ite_self, State.gangDpa_dstate, State.newReq_dstate, State.l1Store_dstate]; done))

theorem State.hostStore_dstate (a0 a1 a2 a3 a4) : (State.hostStore a0 a1 a2 a3 a4).dstate = a0.dstate := by
  simp only [State.hostStore, dstate_ite, foldl_dstate, ite_self, implies_true, State.agHostWrite_dstate, State.updGang_dstate, State.gangFault_dstate]

theorem State.doStorePlain_dstate (a0 a1 a2 a3) : (State.doStorePlain a0 a1 a2 a3).dstate = a0.dstate := by
  simp only [State.doStorePlain, implies_true, overLines_dstate, State.plainLine_dstate, State.hostStore_dstate] <;> (repeat' split) <;> (simp only [implies_true, overLines_dstate, State.plainLine_dstate, State.hostStore_dstate])

theorem State.l1Update_dstate (a0 a1 a2 a3 a4) : (State.l1Update a0 a1 a2 a3 a4).dstate = a0.dstate := by
  simp only [State.l1Update] <;> (repeat' split) <;> (rfl)

theorem State.volatileLine_dstate (a0 a1 a2 a3 a4) : (State.volatileLine a0 a1 a2 a3 a4).dstate = a0.dstate := by
  unfold State.volatileLine <;> (repeat' split) <;> (first | (rename_i h1; cases congrArg Prod.fst h1; (simp only [State.gangDpa_dstate, State.updGang_dstate, State.l1Update_dstate, State.newReq_dstate]; done)) | (rename_i h2 h1; cases congrArg Prod.fst h2; (simp only [State.gangDpa_dstate, State.updGang_dstate, State.l1Update_dstate, State.newReq_dstate]; done)) | (rename_i h1 _ h0; cases congrArg Prod.fst h1; (simp only [State.gangDpa_dstate, State.updGang_dstate, State.l1Update_dstate, State.newReq_dstate]; done)))

theorem State.doStoreVolatile_dstate (a0 a1 a2 a3 a4) : (State.doStoreVolatile a0 a1 a2 a3 a4).dstate = a0.dstate := by
  simp only [State.doStoreVolatile, implies_true, overLines_dstate, State.volatileLine_dstate, State.hostStore_dstate] <;> (repeat' split) <;> (simp only [implies_true, overLines_dstate, State.volatileLine_dstate, State.hostStore_dstate])

theorem State.doStoreStream_dstate (a0 a1 a2 a3 a4) : (State.doStoreStream a0 a1 a2 a3 a4).dstate = a0.dstate := by
  simp only [State.doStoreStream, dstate_ite, ite_self, State.demote_dstate, State.doStoreVolatile_dstate]

theorem State.doSweldExpect_dstate (a0 a1) : (State.doSweldExpect a0 a1).dstate = a0.dstate := by
  simp only [State.doSweldExpect, dstate_mk, dstate_eta, State.readFlags_dstate] <;> (repeat' split) <;> (simp only [dstate_mk, dstate_eta, State.readFlags_dstate])

theorem State.openSend_dstate (a0 a1) : (State.openSend a0 a1).dstate = a0.dstate := by
  simp only [State.openSend, State.refuseSend_dstate, State.sendOpenMsg_dstate, State.setOut_dstate] <;> (repeat' split) <;> (simp only [State.refuseSend_dstate, State.sendOpenMsg_dstate, State.setOut_dstate]; done)

theorem State.sendPart_dstate (a0 a1 a2 a3 a4 a5 a6 a7 a8) : (State.sendPart a0 a1 a2 a3 a4 a5 a6 a7 a8).dstate = a0.dstate := by
  simp only [State.sendPart, State.agRead_dstate, State.abortOut_dstate, State.sendMsg_dstate, State.countSweld_dstate, State.setOut_dstate] <;> (repeat' split) <;> (rename_i h1; cases congrArg Prod.fst h1; (simp only [State.agRead_dstate, State.abortOut_dstate, State.sendMsg_dstate, State.countSweld_dstate, State.setOut_dstate]; done))

theorem State.sendNext_dstate (a0 a1 a2 a3 a4) : (State.sendNext a0 a1 a2 a3 a4).dstate = a0.dstate := by
  simp only [State.sendNext, dstate_ite, ite_self, State.sendPart_dstate]

theorem State.sendTurn_dstate (a0 a1 a2 a3 a4) : (State.sendTurn a0 a1 a2 a3 a4).dstate = a0.dstate := by
  simp only [State.sendTurn, State.sendNext_dstate, State.updPort_dstate] <;> (repeat' split) <;> (simp only [State.sendNext_dstate, State.updPort_dstate])

theorem State.doSweldSend_dstate (a0 a1) : (State.doSweldSend a0 a1).dstate = a0.dstate := by
  simp only [State.doSweldSend, State.openSend_dstate, State.sendTurn_dstate] <;> (repeat' split) <;> (simp only [State.openSend_dstate, State.sendTurn_dstate])

theorem State.doTelSel_dstate (a0 a1 a2 a3) : (State.doTelSel a0 a1 a2 a3).dstate = a0.dstate := by
  simp only [State.doTelSel, dstate_mk, dstate_eta, dstate_ite, ite_self]

theorem State.doTenantReset_dstate (a0 a1 a2) : (State.doTenantReset a0 a1 a2).dstate = a0.dstate := by
  simp only [State.doTenantReset, dstate_mk, dstate_eta, State.mergeReset_dstate, State.beginTenantReset_dstate] <;> (repeat' split) <;> (simp only [dstate_mk, dstate_eta, State.mergeReset_dstate, State.beginTenantReset_dstate])

theorem State.doTenantResetRequest_dstate (a0 a1 a2) : (State.doTenantResetRequest a0 a1 a2).dstate = a0.dstate := by
  simp only [State.doTenantResetRequest, dstate_ite, ite_self, implies_true, State.pageWrite_dstate, State.askTenantReset_dstate]

theorem State.doThaw_dstate (a0 a1) : (State.doThaw a0 a1).dstate = a0.dstate := by
  simp only [State.doThaw, dstate_ite, ite_self, implies_true, State.migCtl_dstate, State.migEnd_dstate, State.updSlice_dstate]

theorem State.readSensors_dstate (a0 a1) : (State.readSensors a0 a1).dstate = a0.dstate := by
  simp only [State.readSensors, dstate_mk, dstate_eta]

theorem postTick_dstate (a0 a1 a2) : (postTick a0 a1 a2).1.dstate = a2.dstate := by
  induction a0 generalizing a1 a2 with
  | nil => simp only [postTick]
  | cons x t ih => simp only [postTick, State.postManager_dstate, ih]

theorem State.doTick_dstate (a0) : (State.doTick a0).dstate = a0.dstate := by
  simp only [State.doTick, dstate_mk, dstate_eta, dstate_ite, ite_self, apply_ite Prod.fst, postTick_dstate]

theorem State.doTimeBeacon_dstate (a0) : (State.doTimeBeacon a0).dstate = a0.dstate := by
  simp only [State.doTimeBeacon, dstate_mk, dstate_eta, dstate_ite, ite_self, State.alignDies_dstate]

theorem State.doUnknownPlumb_dstate (a0 a1 a2) : (State.doUnknownPlumb a0 a1 a2).dstate = a0.dstate := by
  simp only [State.doUnknownPlumb, dstate_ite, ite_self, State.answer_dstate]

theorem State.doVrAlert_dstate (a0 a1 a2 a3) : (State.doVrAlert a0 a1 a2 a3).dstate = a0.dstate := by
  simp only [State.doVrAlert, dstate_ite, ite_self, implies_true, State.mgmtOp_dstate, State.readStatusWord_dstate]

theorem State.doWayDone_dstate (a0) : (State.doWayDone a0).dstate = a0.dstate := by
  simp only [State.doWayDone, dstate_mk, dstate_eta, foldl_dstate, implies_true, State.evictWay_dstate] <;> (repeat' split) <;> (simp only [dstate_mk, dstate_eta, foldl_dstate, implies_true, State.evictWay_dstate])

theorem State.wayCtl_dstate (a0 a1) (ha1 : ∀ b0, (a1 b0).dstate = b0.dstate) : (State.wayCtl a0 a1).dstate = a0.dstate := by
  simp only [State.wayCtl, dstate_mk, dstate_eta, dstate_ite, ite_self, ha1]

theorem State.doWayEnable_dstate (a0 a1 a2) : (State.doWayEnable a0 a1 a2).dstate = a0.dstate := by
  simp only [State.doWayEnable, dstate_mk, dstate_eta, dstate_ite, ite_self, implies_true, State.wayCtl_dstate]

theorem State.drawByte_dstate (a0) : (State.drawByte a0).2.dstate = a0.dstate := by
  simp only [State.drawByte, dstate_mk, dstate_eta]

theorem State.passFlit_dstate (a0 a1 a2) : (State.passFlit a0 a1 a2).dstate = a0.dstate := by
  simp only [State.passFlit] <;> (repeat' split) <;> (rfl)

theorem State.flushFrom_dstate (a0 a1 a2 a3 a4) : (State.flushFrom a0 a1 a2 a3 a4).dstate = a0.dstate := by
  simp only [State.flushFrom, State.doFlushRange_dstate, State.gangFault_dstate] <;> (repeat' split) <;> (simp only [State.doFlushRange_dstate, State.gangFault_dstate])

theorem State.tickSkew_dstate (a0) : (State.tickSkew a0).dstate = a0.dstate := by
  simp only [State.tickSkew, dstate_mk, dstate_eta]

theorem State.tickBays_dstate (a0) : (State.tickBays a0).dstate = a0.dstate := by
  unfold State.tickBays <;> (refine foldl_dstate _ (fun s b => ?_) _ _) <;> (repeat' split) <;> (rfl)

theorem State.tickTime_dstate (a0) : (State.tickTime a0).dstate = a0.dstate := by
  simp only [State.tickTime, dstate_mk, dstate_eta]

theorem State.imageBegin_dstate (a0 a1) : (State.imageBegin a0 a1).dstate = a0.dstate := by
  simp only [State.imageBegin, dstate_mk, dstate_eta, dstate_ite, ite_self, State.breakInbound_dstate, State.updSlice_dstate, State.imageFail_dstate]

theorem State.issueMem_dstate (a0 a1 a2) (ha2 : ∀ b0, (a2 b0).dstate = b0.dstate) : (State.issueMem a0 a1 a2).dstate = a0.dstate := by
  simp only [State.issueMem, implies_true, State.settled_dstate, State.issue_dstate, ha2]

theorem State.issueLoad_dstate (a0 a1 a2 a3 a4) : (State.issueLoad a0 a1 a2 a3 a4).dstate = a0.dstate := by
  simp only [State.issueLoad, dstate_ite, ite_self, implies_true, State.issueMem_dstate, State.doLoad_dstate]

theorem State.issueStore_dstate (a0 a1 a2 a3 a4) (ha4 : ∀ b0, (a4 b0).dstate = b0.dstate) : (State.issueStore a0 a1 a2 a3 a4).dstate = a0.dstate := by
  simp only [State.issueStore, dstate_ite, ite_self, implies_true, State.awaiting_dstate, State.issueMem_dstate, ha4]

theorem State.loadFrom_dstate (a0 a1 a2 a3) : (State.loadFrom a0 a1 a2 a3).dstate = a0.dstate := by
  simp only [State.loadFrom, implies_true, State.issueLoad_dstate, State.issue_dstate, State.gangFault_dstate] <;> (repeat' split) <;> (simp only [implies_true, State.issueLoad_dstate, State.issue_dstate, State.gangFault_dstate])

theorem State.startHandleOp_dstate (a0 a1 a2 a3) : (State.startHandleOp a0 a1 a2 a3).dstate = a0.dstate := by
  simp only [State.startHandleOp, dstate_mk, dstate_eta, dstate_ite, ite_self]

theorem State.startImage_dstate (a0 a1 a2 a3 a4) : (State.startImage a0 a1 a2 a3 a4).dstate = a0.dstate := by
  simp only [State.startImage, dstate_mk, dstate_eta, dstate_ite, ite_self, State.imageBegin_dstate, State.imageDone_dstate]

theorem State.tryStop_dstate (a0 a1) : (State.tryStop a0 a1).dstate = a0.dstate := by
  simp only [State.tryStop, dstate_ite, ite_self, State.leaveBay_dstate, State.updCmd_dstate, State.updBay_dstate, State.unholdBay_dstate]

theorem State.withFetchWord_dstate (a0 a1 a2) : (State.withFetchWord a0 a1 a2).dstate = a0.dstate := by
  simp only [State.withFetchWord] <;> (repeat' split) <;> (rfl)

end Sys2Proof.Machine
end

