-- ==== Sys2Proof/Laws/State.lean ====
section
/-! SUPPORT. The laws of the state's accessors: what a read gives after an update, and what each update leaves alone, so
that no later proof unfolds a record update. -/

namespace Sys2Proof.Machine

theorem State.slice_updSlice (s : State) (i j : Nat) (f : Slice → Slice) :
    (s.updSlice i f).slice j = if j = i then f (s.slice i) else s.slice j := by
  exact Tbl.get_set _ _ _ _ _

@[simp] theorem State.slice_updSlice_same (s : State) (i : Nat) (f : Slice → Slice) :
    (s.updSlice i f).slice i = f (s.slice i) := by simp [State.slice_updSlice]

@[simp] theorem State.updSlice_pending (s : State) (i : Nat) (f : Slice → Slice) : (s.updSlice i f).pending = s.pending := rfl
@[simp] theorem State.updSlice_free (s : State) (i : Nat) (f : Slice → Slice) : (s.updSlice i f).free = s.free := rfl
@[simp] theorem State.updSlice_time (s : State) (i : Nat) (f : Slice → Slice) : (s.updSlice i f).time = s.time := rfl
@[simp] theorem State.updSlice_pins (s : State) (i : Nat) (f : Slice → Slice) : (s.updSlice i f).pins = s.pins := rfl
@[simp] theorem State.updSlice_nv (s : State) (i : Nat) (f : Slice → Slice) : (s.updSlice i f).nv = s.nv := rfl
@[simp] theorem State.updSlice_dev (s : State) (i : Nat) (f : Slice → Slice) : (s.updSlice i f).dev = s.dev := rfl
@[simp] theorem State.updSlice_whole (s : State) (i : Nat) (f : Slice → Slice) : (s.updSlice i f).whole = s.whole := rfl
@[simp] theorem State.updSlice_cmds (s : State) (i : Nat) (f : Slice → Slice) : (s.updSlice i f).cmds = s.cmds := rfl
@[simp] theorem State.updSlice_arb (s : State) (i : Nat) (f : Slice → Slice) : (s.updSlice i f).arb = s.arb := rfl
@[simp] theorem State.updSlice_bays (s : State) (i : Nat) (f : Slice → Slice) : (s.updSlice i f).bays = s.bays := rfl
@[simp] theorem State.updSlice_gangs (s : State) (i : Nat) (f : Slice → Slice) : (s.updSlice i f).gangs = s.gangs := rfl
@[simp] theorem State.updSlice_nextGang (s : State) (i : Nat) (f : Slice → Slice) : (s.updSlice i f).nextGang = s.nextGang := rfl
@[simp] theorem State.updSlice_reqs (s : State) (i : Nat) (f : Slice → Slice) : (s.updSlice i f).reqs = s.reqs := rfl
@[simp] theorem State.updSlice_nextReq (s : State) (i : Nat) (f : Slice → Slice) : (s.updSlice i f).nextReq = s.nextReq := rfl
@[simp] theorem State.updSlice_uc (s : State) (i : Nat) (f : Slice → Slice) : (s.updSlice i f).uc = s.uc := rfl
@[simp] theorem State.updSlice_mem (s : State) (i : Nat) (f : Slice → Slice) : (s.updSlice i f).mem = s.mem := rfl
@[simp] theorem State.updSlice_pool (s : State) (i : Nat) (f : Slice → Slice) : (s.updSlice i f).pool = s.pool := rfl
@[simp] theorem State.updSlice_sweld (s : State) (i : Nat) (f : Slice → Slice) : (s.updSlice i f).sweld = s.sweld := rfl
@[simp] theorem State.updSlice_fab (s : State) (i : Nat) (f : Slice → Slice) : (s.updSlice i f).fab = s.fab := rfl
@[simp] theorem State.updSlice_flt (s : State) (i : Nat) (f : Slice → Slice) : (s.updSlice i f).flt = s.flt := rfl
@[simp] theorem State.updSlice_tel (s : State) (i : Nat) (f : Slice → Slice) : (s.updSlice i f).tel = s.tel := rfl
@[simp] theorem State.updSlice_mig (s : State) (i : Nat) (f : Slice → Slice) : (s.updSlice i f).mig = s.mig := rfl
@[simp] theorem State.updSlice_plb (s : State) (i : Nat) (f : Slice → Slice) : (s.updSlice i f).plb = s.plb := rfl
@[simp] theorem State.updSlice_host (s : State) (i : Nat) (f : Slice → Slice) : (s.updSlice i f).host = s.host := rfl
@[simp] theorem State.cmd_of_updSlice (s : State) (i j : Nat) (f : Slice → Slice) : (s.updSlice i f).cmd j = s.cmd j := rfl
@[simp] theorem State.bay_of_updSlice (s : State) (i j : Nat) (f : Slice → Slice) : (s.updSlice i f).bay j = s.bay j := rfl
@[simp] theorem State.gang_of_updSlice (s : State) (i j : Nat) (f : Slice → Slice) : (s.updSlice i f).gang j = s.gang j := rfl
@[simp] theorem State.chan_of_updSlice (s : State) (i j : Nat) (f : Slice → Slice) : (s.updSlice i f).chan j = s.chan j := rfl
@[simp] theorem State.port_of_updSlice (s : State) (i j : Nat) (f : Slice → Slice) : (s.updSlice i f).port j = s.port j := rfl
@[simp] theorem State.bridge_of_updSlice (s : State) (i j : Nat) (f : Slice → Slice) : (s.updSlice i f).bridge j = s.bridge j := rfl
@[simp] theorem State.reporter_of_updSlice (s : State) (i j : Nat) (f : Slice → Slice) : (s.updSlice i f).reporter j = s.reporter j := rfl

theorem State.cmd_updCmd (s : State) (i j : Nat) (f : Cmd → Cmd) :
    (s.updCmd i f).cmd j = if j = i then f (s.cmd i) else s.cmd j := by
  exact Tbl.get_set _ _ _ _ _

@[simp] theorem State.cmd_updCmd_same (s : State) (i : Nat) (f : Cmd → Cmd) :
    (s.updCmd i f).cmd i = f (s.cmd i) := by simp [State.cmd_updCmd]

@[simp] theorem State.updCmd_pending (s : State) (i : Nat) (f : Cmd → Cmd) : (s.updCmd i f).pending = s.pending := rfl
@[simp] theorem State.updCmd_free (s : State) (i : Nat) (f : Cmd → Cmd) : (s.updCmd i f).free = s.free := rfl
@[simp] theorem State.updCmd_time (s : State) (i : Nat) (f : Cmd → Cmd) : (s.updCmd i f).time = s.time := rfl
@[simp] theorem State.updCmd_pins (s : State) (i : Nat) (f : Cmd → Cmd) : (s.updCmd i f).pins = s.pins := rfl
@[simp] theorem State.updCmd_nv (s : State) (i : Nat) (f : Cmd → Cmd) : (s.updCmd i f).nv = s.nv := rfl
@[simp] theorem State.updCmd_dev (s : State) (i : Nat) (f : Cmd → Cmd) : (s.updCmd i f).dev = s.dev := rfl
@[simp] theorem State.updCmd_whole (s : State) (i : Nat) (f : Cmd → Cmd) : (s.updCmd i f).whole = s.whole := rfl
@[simp] theorem State.updCmd_slices (s : State) (i : Nat) (f : Cmd → Cmd) : (s.updCmd i f).slices = s.slices := rfl
@[simp] theorem State.updCmd_arb (s : State) (i : Nat) (f : Cmd → Cmd) : (s.updCmd i f).arb = s.arb := rfl
@[simp] theorem State.updCmd_bays (s : State) (i : Nat) (f : Cmd → Cmd) : (s.updCmd i f).bays = s.bays := rfl
@[simp] theorem State.updCmd_gangs (s : State) (i : Nat) (f : Cmd → Cmd) : (s.updCmd i f).gangs = s.gangs := rfl
@[simp] theorem State.updCmd_nextGang (s : State) (i : Nat) (f : Cmd → Cmd) : (s.updCmd i f).nextGang = s.nextGang := rfl
@[simp] theorem State.updCmd_reqs (s : State) (i : Nat) (f : Cmd → Cmd) : (s.updCmd i f).reqs = s.reqs := rfl
@[simp] theorem State.updCmd_nextReq (s : State) (i : Nat) (f : Cmd → Cmd) : (s.updCmd i f).nextReq = s.nextReq := rfl
@[simp] theorem State.updCmd_uc (s : State) (i : Nat) (f : Cmd → Cmd) : (s.updCmd i f).uc = s.uc := rfl
@[simp] theorem State.updCmd_mem (s : State) (i : Nat) (f : Cmd → Cmd) : (s.updCmd i f).mem = s.mem := rfl
@[simp] theorem State.updCmd_pool (s : State) (i : Nat) (f : Cmd → Cmd) : (s.updCmd i f).pool = s.pool := rfl
@[simp] theorem State.updCmd_sweld (s : State) (i : Nat) (f : Cmd → Cmd) : (s.updCmd i f).sweld = s.sweld := rfl
@[simp] theorem State.updCmd_fab (s : State) (i : Nat) (f : Cmd → Cmd) : (s.updCmd i f).fab = s.fab := rfl
@[simp] theorem State.updCmd_flt (s : State) (i : Nat) (f : Cmd → Cmd) : (s.updCmd i f).flt = s.flt := rfl
@[simp] theorem State.updCmd_tel (s : State) (i : Nat) (f : Cmd → Cmd) : (s.updCmd i f).tel = s.tel := rfl
@[simp] theorem State.updCmd_mig (s : State) (i : Nat) (f : Cmd → Cmd) : (s.updCmd i f).mig = s.mig := rfl
@[simp] theorem State.updCmd_plb (s : State) (i : Nat) (f : Cmd → Cmd) : (s.updCmd i f).plb = s.plb := rfl
@[simp] theorem State.updCmd_host (s : State) (i : Nat) (f : Cmd → Cmd) : (s.updCmd i f).host = s.host := rfl
@[simp] theorem State.slice_of_updCmd (s : State) (i j : Nat) (f : Cmd → Cmd) : (s.updCmd i f).slice j = s.slice j := rfl
@[simp] theorem State.bay_of_updCmd (s : State) (i j : Nat) (f : Cmd → Cmd) : (s.updCmd i f).bay j = s.bay j := rfl
@[simp] theorem State.gang_of_updCmd (s : State) (i j : Nat) (f : Cmd → Cmd) : (s.updCmd i f).gang j = s.gang j := rfl
@[simp] theorem State.chan_of_updCmd (s : State) (i j : Nat) (f : Cmd → Cmd) : (s.updCmd i f).chan j = s.chan j := rfl
@[simp] theorem State.port_of_updCmd (s : State) (i j : Nat) (f : Cmd → Cmd) : (s.updCmd i f).port j = s.port j := rfl
@[simp] theorem State.bridge_of_updCmd (s : State) (i j : Nat) (f : Cmd → Cmd) : (s.updCmd i f).bridge j = s.bridge j := rfl
@[simp] theorem State.reporter_of_updCmd (s : State) (i j : Nat) (f : Cmd → Cmd) : (s.updCmd i f).reporter j = s.reporter j := rfl

theorem State.bay_updBay (s : State) (i j : Nat) (f : Bay → Bay) :
    (s.updBay i f).bay j = if j = i then f (s.bay i) else s.bay j := by
  exact Tbl.get_set _ _ _ _ _

@[simp] theorem State.bay_updBay_same (s : State) (i : Nat) (f : Bay → Bay) :
    (s.updBay i f).bay i = f (s.bay i) := by simp [State.bay_updBay]

@[simp] theorem State.updBay_pending (s : State) (i : Nat) (f : Bay → Bay) : (s.updBay i f).pending = s.pending := rfl
@[simp] theorem State.updBay_free (s : State) (i : Nat) (f : Bay → Bay) : (s.updBay i f).free = s.free := rfl
@[simp] theorem State.updBay_time (s : State) (i : Nat) (f : Bay → Bay) : (s.updBay i f).time = s.time := rfl
@[simp] theorem State.updBay_pins (s : State) (i : Nat) (f : Bay → Bay) : (s.updBay i f).pins = s.pins := rfl
@[simp] theorem State.updBay_nv (s : State) (i : Nat) (f : Bay → Bay) : (s.updBay i f).nv = s.nv := rfl
@[simp] theorem State.updBay_dev (s : State) (i : Nat) (f : Bay → Bay) : (s.updBay i f).dev = s.dev := rfl
@[simp] theorem State.updBay_whole (s : State) (i : Nat) (f : Bay → Bay) : (s.updBay i f).whole = s.whole := rfl
@[simp] theorem State.updBay_slices (s : State) (i : Nat) (f : Bay → Bay) : (s.updBay i f).slices = s.slices := rfl
@[simp] theorem State.updBay_cmds (s : State) (i : Nat) (f : Bay → Bay) : (s.updBay i f).cmds = s.cmds := rfl
@[simp] theorem State.updBay_arb (s : State) (i : Nat) (f : Bay → Bay) : (s.updBay i f).arb = s.arb := rfl
@[simp] theorem State.updBay_gangs (s : State) (i : Nat) (f : Bay → Bay) : (s.updBay i f).gangs = s.gangs := rfl
@[simp] theorem State.updBay_nextGang (s : State) (i : Nat) (f : Bay → Bay) : (s.updBay i f).nextGang = s.nextGang := rfl
@[simp] theorem State.updBay_reqs (s : State) (i : Nat) (f : Bay → Bay) : (s.updBay i f).reqs = s.reqs := rfl
@[simp] theorem State.updBay_nextReq (s : State) (i : Nat) (f : Bay → Bay) : (s.updBay i f).nextReq = s.nextReq := rfl
@[simp] theorem State.updBay_uc (s : State) (i : Nat) (f : Bay → Bay) : (s.updBay i f).uc = s.uc := rfl
@[simp] theorem State.updBay_mem (s : State) (i : Nat) (f : Bay → Bay) : (s.updBay i f).mem = s.mem := rfl
@[simp] theorem State.updBay_pool (s : State) (i : Nat) (f : Bay → Bay) : (s.updBay i f).pool = s.pool := rfl
@[simp] theorem State.updBay_sweld (s : State) (i : Nat) (f : Bay → Bay) : (s.updBay i f).sweld = s.sweld := rfl
@[simp] theorem State.updBay_fab (s : State) (i : Nat) (f : Bay → Bay) : (s.updBay i f).fab = s.fab := rfl
@[simp] theorem State.updBay_flt (s : State) (i : Nat) (f : Bay → Bay) : (s.updBay i f).flt = s.flt := rfl
@[simp] theorem State.updBay_tel (s : State) (i : Nat) (f : Bay → Bay) : (s.updBay i f).tel = s.tel := rfl
@[simp] theorem State.updBay_mig (s : State) (i : Nat) (f : Bay → Bay) : (s.updBay i f).mig = s.mig := rfl
@[simp] theorem State.updBay_plb (s : State) (i : Nat) (f : Bay → Bay) : (s.updBay i f).plb = s.plb := rfl
@[simp] theorem State.updBay_host (s : State) (i : Nat) (f : Bay → Bay) : (s.updBay i f).host = s.host := rfl
@[simp] theorem State.slice_of_updBay (s : State) (i j : Nat) (f : Bay → Bay) : (s.updBay i f).slice j = s.slice j := rfl
@[simp] theorem State.cmd_of_updBay (s : State) (i j : Nat) (f : Bay → Bay) : (s.updBay i f).cmd j = s.cmd j := rfl
@[simp] theorem State.gang_of_updBay (s : State) (i j : Nat) (f : Bay → Bay) : (s.updBay i f).gang j = s.gang j := rfl
@[simp] theorem State.chan_of_updBay (s : State) (i j : Nat) (f : Bay → Bay) : (s.updBay i f).chan j = s.chan j := rfl
@[simp] theorem State.port_of_updBay (s : State) (i j : Nat) (f : Bay → Bay) : (s.updBay i f).port j = s.port j := rfl
@[simp] theorem State.bridge_of_updBay (s : State) (i j : Nat) (f : Bay → Bay) : (s.updBay i f).bridge j = s.bridge j := rfl
@[simp] theorem State.reporter_of_updBay (s : State) (i j : Nat) (f : Bay → Bay) : (s.updBay i f).reporter j = s.reporter j := rfl

theorem State.gang_updGang (s : State) (i j : Nat) (f : Gang → Gang) :
    (s.updGang i f).gang j = if j = i then f (s.gang i) else s.gang j := by
  exact Tbl.get_put _ _ _ _ _

@[simp] theorem State.gang_updGang_same (s : State) (i : Nat) (f : Gang → Gang) :
    (s.updGang i f).gang i = f (s.gang i) := by simp [State.gang_updGang]

@[simp] theorem State.updGang_pending (s : State) (i : Nat) (f : Gang → Gang) : (s.updGang i f).pending = s.pending := rfl
@[simp] theorem State.updGang_free (s : State) (i : Nat) (f : Gang → Gang) : (s.updGang i f).free = s.free := rfl
@[simp] theorem State.updGang_time (s : State) (i : Nat) (f : Gang → Gang) : (s.updGang i f).time = s.time := rfl
@[simp] theorem State.updGang_pins (s : State) (i : Nat) (f : Gang → Gang) : (s.updGang i f).pins = s.pins := rfl
@[simp] theorem State.updGang_nv (s : State) (i : Nat) (f : Gang → Gang) : (s.updGang i f).nv = s.nv := rfl
@[simp] theorem State.updGang_dev (s : State) (i : Nat) (f : Gang → Gang) : (s.updGang i f).dev = s.dev := rfl
@[simp] theorem State.updGang_whole (s : State) (i : Nat) (f : Gang → Gang) : (s.updGang i f).whole = s.whole := rfl
@[simp] theorem State.updGang_slices (s : State) (i : Nat) (f : Gang → Gang) : (s.updGang i f).slices = s.slices := rfl
@[simp] theorem State.updGang_cmds (s : State) (i : Nat) (f : Gang → Gang) : (s.updGang i f).cmds = s.cmds := rfl
@[simp] theorem State.updGang_arb (s : State) (i : Nat) (f : Gang → Gang) : (s.updGang i f).arb = s.arb := rfl
@[simp] theorem State.updGang_bays (s : State) (i : Nat) (f : Gang → Gang) : (s.updGang i f).bays = s.bays := rfl
@[simp] theorem State.updGang_nextGang (s : State) (i : Nat) (f : Gang → Gang) : (s.updGang i f).nextGang = s.nextGang := rfl
@[simp] theorem State.updGang_reqs (s : State) (i : Nat) (f : Gang → Gang) : (s.updGang i f).reqs = s.reqs := rfl
@[simp] theorem State.updGang_nextReq (s : State) (i : Nat) (f : Gang → Gang) : (s.updGang i f).nextReq = s.nextReq := rfl
@[simp] theorem State.updGang_uc (s : State) (i : Nat) (f : Gang → Gang) : (s.updGang i f).uc = s.uc := rfl
@[simp] theorem State.updGang_mem (s : State) (i : Nat) (f : Gang → Gang) : (s.updGang i f).mem = s.mem := rfl
@[simp] theorem State.updGang_pool (s : State) (i : Nat) (f : Gang → Gang) : (s.updGang i f).pool = s.pool := rfl
@[simp] theorem State.updGang_sweld (s : State) (i : Nat) (f : Gang → Gang) : (s.updGang i f).sweld = s.sweld := rfl
@[simp] theorem State.updGang_fab (s : State) (i : Nat) (f : Gang → Gang) : (s.updGang i f).fab = s.fab := rfl
@[simp] theorem State.updGang_flt (s : State) (i : Nat) (f : Gang → Gang) : (s.updGang i f).flt = s.flt := rfl
@[simp] theorem State.updGang_tel (s : State) (i : Nat) (f : Gang → Gang) : (s.updGang i f).tel = s.tel := rfl
@[simp] theorem State.updGang_mig (s : State) (i : Nat) (f : Gang → Gang) : (s.updGang i f).mig = s.mig := rfl
@[simp] theorem State.updGang_plb (s : State) (i : Nat) (f : Gang → Gang) : (s.updGang i f).plb = s.plb := rfl
@[simp] theorem State.updGang_host (s : State) (i : Nat) (f : Gang → Gang) : (s.updGang i f).host = s.host := rfl
@[simp] theorem State.slice_of_updGang (s : State) (i j : Nat) (f : Gang → Gang) : (s.updGang i f).slice j = s.slice j := rfl
@[simp] theorem State.cmd_of_updGang (s : State) (i j : Nat) (f : Gang → Gang) : (s.updGang i f).cmd j = s.cmd j := rfl
@[simp] theorem State.bay_of_updGang (s : State) (i j : Nat) (f : Gang → Gang) : (s.updGang i f).bay j = s.bay j := rfl
@[simp] theorem State.chan_of_updGang (s : State) (i j : Nat) (f : Gang → Gang) : (s.updGang i f).chan j = s.chan j := rfl
@[simp] theorem State.port_of_updGang (s : State) (i j : Nat) (f : Gang → Gang) : (s.updGang i f).port j = s.port j := rfl
@[simp] theorem State.bridge_of_updGang (s : State) (i j : Nat) (f : Gang → Gang) : (s.updGang i f).bridge j = s.bridge j := rfl
@[simp] theorem State.reporter_of_updGang (s : State) (i j : Nat) (f : Gang → Gang) : (s.updGang i f).reporter j = s.reporter j := rfl

theorem State.chan_updChan (s : State) (i j : Nat) (f : Chan → Chan) :
    (s.updChan i f).chan j = if j = i then f (s.chan i) else s.chan j := by
  exact Tbl.get_set _ _ _ _ _

@[simp] theorem State.chan_updChan_same (s : State) (i : Nat) (f : Chan → Chan) :
    (s.updChan i f).chan i = f (s.chan i) := by simp [State.chan_updChan]

@[simp] theorem State.updChan_pending (s : State) (i : Nat) (f : Chan → Chan) : (s.updChan i f).pending = s.pending := rfl
@[simp] theorem State.updChan_free (s : State) (i : Nat) (f : Chan → Chan) : (s.updChan i f).free = s.free := rfl
@[simp] theorem State.updChan_time (s : State) (i : Nat) (f : Chan → Chan) : (s.updChan i f).time = s.time := rfl
@[simp] theorem State.updChan_pins (s : State) (i : Nat) (f : Chan → Chan) : (s.updChan i f).pins = s.pins := rfl
@[simp] theorem State.updChan_nv (s : State) (i : Nat) (f : Chan → Chan) : (s.updChan i f).nv = s.nv := rfl
@[simp] theorem State.updChan_dev (s : State) (i : Nat) (f : Chan → Chan) : (s.updChan i f).dev = s.dev := rfl
@[simp] theorem State.updChan_whole (s : State) (i : Nat) (f : Chan → Chan) : (s.updChan i f).whole = s.whole := rfl
@[simp] theorem State.updChan_slices (s : State) (i : Nat) (f : Chan → Chan) : (s.updChan i f).slices = s.slices := rfl
@[simp] theorem State.updChan_cmds (s : State) (i : Nat) (f : Chan → Chan) : (s.updChan i f).cmds = s.cmds := rfl
@[simp] theorem State.updChan_arb (s : State) (i : Nat) (f : Chan → Chan) : (s.updChan i f).arb = s.arb := rfl
@[simp] theorem State.updChan_bays (s : State) (i : Nat) (f : Chan → Chan) : (s.updChan i f).bays = s.bays := rfl
@[simp] theorem State.updChan_gangs (s : State) (i : Nat) (f : Chan → Chan) : (s.updChan i f).gangs = s.gangs := rfl
@[simp] theorem State.updChan_nextGang (s : State) (i : Nat) (f : Chan → Chan) : (s.updChan i f).nextGang = s.nextGang := rfl
@[simp] theorem State.updChan_reqs (s : State) (i : Nat) (f : Chan → Chan) : (s.updChan i f).reqs = s.reqs := rfl
@[simp] theorem State.updChan_nextReq (s : State) (i : Nat) (f : Chan → Chan) : (s.updChan i f).nextReq = s.nextReq := rfl
@[simp] theorem State.updChan_uc (s : State) (i : Nat) (f : Chan → Chan) : (s.updChan i f).uc = s.uc := rfl
@[simp] theorem State.updChan_pool (s : State) (i : Nat) (f : Chan → Chan) : (s.updChan i f).pool = s.pool := rfl
@[simp] theorem State.updChan_sweld (s : State) (i : Nat) (f : Chan → Chan) : (s.updChan i f).sweld = s.sweld := rfl
@[simp] theorem State.updChan_fab (s : State) (i : Nat) (f : Chan → Chan) : (s.updChan i f).fab = s.fab := rfl
@[simp] theorem State.updChan_flt (s : State) (i : Nat) (f : Chan → Chan) : (s.updChan i f).flt = s.flt := rfl
@[simp] theorem State.updChan_tel (s : State) (i : Nat) (f : Chan → Chan) : (s.updChan i f).tel = s.tel := rfl
@[simp] theorem State.updChan_mig (s : State) (i : Nat) (f : Chan → Chan) : (s.updChan i f).mig = s.mig := rfl
@[simp] theorem State.updChan_plb (s : State) (i : Nat) (f : Chan → Chan) : (s.updChan i f).plb = s.plb := rfl
@[simp] theorem State.updChan_host (s : State) (i : Nat) (f : Chan → Chan) : (s.updChan i f).host = s.host := rfl
@[simp] theorem State.slice_of_updChan (s : State) (i j : Nat) (f : Chan → Chan) : (s.updChan i f).slice j = s.slice j := rfl
@[simp] theorem State.cmd_of_updChan (s : State) (i j : Nat) (f : Chan → Chan) : (s.updChan i f).cmd j = s.cmd j := rfl
@[simp] theorem State.bay_of_updChan (s : State) (i j : Nat) (f : Chan → Chan) : (s.updChan i f).bay j = s.bay j := rfl
@[simp] theorem State.gang_of_updChan (s : State) (i j : Nat) (f : Chan → Chan) : (s.updChan i f).gang j = s.gang j := rfl
@[simp] theorem State.port_of_updChan (s : State) (i j : Nat) (f : Chan → Chan) : (s.updChan i f).port j = s.port j := rfl
@[simp] theorem State.bridge_of_updChan (s : State) (i j : Nat) (f : Chan → Chan) : (s.updChan i f).bridge j = s.bridge j := rfl
@[simp] theorem State.reporter_of_updChan (s : State) (i j : Nat) (f : Chan → Chan) : (s.updChan i f).reporter j = s.reporter j := rfl

theorem State.port_updPort (s : State) (i j : Nat) (f : Port → Port) :
    (s.updPort i f).port j = if j = i then f (s.port i) else s.port j := by
  exact Tbl.get_set _ _ _ _ _

@[simp] theorem State.port_updPort_same (s : State) (i : Nat) (f : Port → Port) :
    (s.updPort i f).port i = f (s.port i) := by simp [State.port_updPort]

@[simp] theorem State.updPort_pending (s : State) (i : Nat) (f : Port → Port) : (s.updPort i f).pending = s.pending := rfl
@[simp] theorem State.updPort_free (s : State) (i : Nat) (f : Port → Port) : (s.updPort i f).free = s.free := rfl
@[simp] theorem State.updPort_time (s : State) (i : Nat) (f : Port → Port) : (s.updPort i f).time = s.time := rfl
@[simp] theorem State.updPort_pins (s : State) (i : Nat) (f : Port → Port) : (s.updPort i f).pins = s.pins := rfl
@[simp] theorem State.updPort_nv (s : State) (i : Nat) (f : Port → Port) : (s.updPort i f).nv = s.nv := rfl
@[simp] theorem State.updPort_dev (s : State) (i : Nat) (f : Port → Port) : (s.updPort i f).dev = s.dev := rfl
@[simp] theorem State.updPort_whole (s : State) (i : Nat) (f : Port → Port) : (s.updPort i f).whole = s.whole := rfl
@[simp] theorem State.updPort_slices (s : State) (i : Nat) (f : Port → Port) : (s.updPort i f).slices = s.slices := rfl
@[simp] theorem State.updPort_cmds (s : State) (i : Nat) (f : Port → Port) : (s.updPort i f).cmds = s.cmds := rfl
@[simp] theorem State.updPort_arb (s : State) (i : Nat) (f : Port → Port) : (s.updPort i f).arb = s.arb := rfl
@[simp] theorem State.updPort_bays (s : State) (i : Nat) (f : Port → Port) : (s.updPort i f).bays = s.bays := rfl
@[simp] theorem State.updPort_gangs (s : State) (i : Nat) (f : Port → Port) : (s.updPort i f).gangs = s.gangs := rfl
@[simp] theorem State.updPort_nextGang (s : State) (i : Nat) (f : Port → Port) : (s.updPort i f).nextGang = s.nextGang := rfl
@[simp] theorem State.updPort_reqs (s : State) (i : Nat) (f : Port → Port) : (s.updPort i f).reqs = s.reqs := rfl
@[simp] theorem State.updPort_nextReq (s : State) (i : Nat) (f : Port → Port) : (s.updPort i f).nextReq = s.nextReq := rfl
@[simp] theorem State.updPort_uc (s : State) (i : Nat) (f : Port → Port) : (s.updPort i f).uc = s.uc := rfl
@[simp] theorem State.updPort_mem (s : State) (i : Nat) (f : Port → Port) : (s.updPort i f).mem = s.mem := rfl
@[simp] theorem State.updPort_pool (s : State) (i : Nat) (f : Port → Port) : (s.updPort i f).pool = s.pool := rfl
@[simp] theorem State.updPort_fab (s : State) (i : Nat) (f : Port → Port) : (s.updPort i f).fab = s.fab := rfl
@[simp] theorem State.updPort_flt (s : State) (i : Nat) (f : Port → Port) : (s.updPort i f).flt = s.flt := rfl
@[simp] theorem State.updPort_tel (s : State) (i : Nat) (f : Port → Port) : (s.updPort i f).tel = s.tel := rfl
@[simp] theorem State.updPort_mig (s : State) (i : Nat) (f : Port → Port) : (s.updPort i f).mig = s.mig := rfl
@[simp] theorem State.updPort_plb (s : State) (i : Nat) (f : Port → Port) : (s.updPort i f).plb = s.plb := rfl
@[simp] theorem State.updPort_host (s : State) (i : Nat) (f : Port → Port) : (s.updPort i f).host = s.host := rfl
@[simp] theorem State.slice_of_updPort (s : State) (i j : Nat) (f : Port → Port) : (s.updPort i f).slice j = s.slice j := rfl
@[simp] theorem State.cmd_of_updPort (s : State) (i j : Nat) (f : Port → Port) : (s.updPort i f).cmd j = s.cmd j := rfl
@[simp] theorem State.bay_of_updPort (s : State) (i j : Nat) (f : Port → Port) : (s.updPort i f).bay j = s.bay j := rfl
@[simp] theorem State.gang_of_updPort (s : State) (i j : Nat) (f : Port → Port) : (s.updPort i f).gang j = s.gang j := rfl
@[simp] theorem State.chan_of_updPort (s : State) (i j : Nat) (f : Port → Port) : (s.updPort i f).chan j = s.chan j := rfl
@[simp] theorem State.bridge_of_updPort (s : State) (i j : Nat) (f : Port → Port) : (s.updPort i f).bridge j = s.bridge j := rfl
@[simp] theorem State.reporter_of_updPort (s : State) (i j : Nat) (f : Port → Port) : (s.updPort i f).reporter j = s.reporter j := rfl

theorem State.bridge_updBridge (s : State) (i j : Nat) (f : Bridge → Bridge) :
    (s.updBridge i f).bridge j = if j = i then f (s.bridge i) else s.bridge j := by
  unfold State.updBridge State.bridge Tbl.set
  split <;> simp only [Tbl.get_del, Tbl.get_put] <;> split <;> simp_all

@[simp] theorem State.bridge_updBridge_same (s : State) (i : Nat) (f : Bridge → Bridge) :
    (s.updBridge i f).bridge i = f (s.bridge i) := by simp [State.bridge_updBridge]

@[simp] theorem State.updBridge_pending (s : State) (i : Nat) (f : Bridge → Bridge) : (s.updBridge i f).pending = s.pending := rfl
@[simp] theorem State.updBridge_free (s : State) (i : Nat) (f : Bridge → Bridge) : (s.updBridge i f).free = s.free := rfl
@[simp] theorem State.updBridge_time (s : State) (i : Nat) (f : Bridge → Bridge) : (s.updBridge i f).time = s.time := rfl
@[simp] theorem State.updBridge_pins (s : State) (i : Nat) (f : Bridge → Bridge) : (s.updBridge i f).pins = s.pins := rfl
@[simp] theorem State.updBridge_nv (s : State) (i : Nat) (f : Bridge → Bridge) : (s.updBridge i f).nv = s.nv := rfl
@[simp] theorem State.updBridge_dev (s : State) (i : Nat) (f : Bridge → Bridge) : (s.updBridge i f).dev = s.dev := rfl
@[simp] theorem State.updBridge_whole (s : State) (i : Nat) (f : Bridge → Bridge) : (s.updBridge i f).whole = s.whole := rfl
@[simp] theorem State.updBridge_slices (s : State) (i : Nat) (f : Bridge → Bridge) : (s.updBridge i f).slices = s.slices := rfl
@[simp] theorem State.updBridge_cmds (s : State) (i : Nat) (f : Bridge → Bridge) : (s.updBridge i f).cmds = s.cmds := rfl
@[simp] theorem State.updBridge_arb (s : State) (i : Nat) (f : Bridge → Bridge) : (s.updBridge i f).arb = s.arb := rfl
@[simp] theorem State.updBridge_bays (s : State) (i : Nat) (f : Bridge → Bridge) : (s.updBridge i f).bays = s.bays := rfl
@[simp] theorem State.updBridge_gangs (s : State) (i : Nat) (f : Bridge → Bridge) : (s.updBridge i f).gangs = s.gangs := rfl
@[simp] theorem State.updBridge_nextGang (s : State) (i : Nat) (f : Bridge → Bridge) : (s.updBridge i f).nextGang = s.nextGang := rfl
@[simp] theorem State.updBridge_reqs (s : State) (i : Nat) (f : Bridge → Bridge) : (s.updBridge i f).reqs = s.reqs := rfl
@[simp] theorem State.updBridge_nextReq (s : State) (i : Nat) (f : Bridge → Bridge) : (s.updBridge i f).nextReq = s.nextReq := rfl
@[simp] theorem State.updBridge_uc (s : State) (i : Nat) (f : Bridge → Bridge) : (s.updBridge i f).uc = s.uc := rfl
@[simp] theorem State.updBridge_mem (s : State) (i : Nat) (f : Bridge → Bridge) : (s.updBridge i f).mem = s.mem := rfl
@[simp] theorem State.updBridge_pool (s : State) (i : Nat) (f : Bridge → Bridge) : (s.updBridge i f).pool = s.pool := rfl
@[simp] theorem State.updBridge_sweld (s : State) (i : Nat) (f : Bridge → Bridge) : (s.updBridge i f).sweld = s.sweld := rfl
@[simp] theorem State.updBridge_flt (s : State) (i : Nat) (f : Bridge → Bridge) : (s.updBridge i f).flt = s.flt := rfl
@[simp] theorem State.updBridge_tel (s : State) (i : Nat) (f : Bridge → Bridge) : (s.updBridge i f).tel = s.tel := rfl
@[simp] theorem State.updBridge_mig (s : State) (i : Nat) (f : Bridge → Bridge) : (s.updBridge i f).mig = s.mig := rfl
@[simp] theorem State.updBridge_plb (s : State) (i : Nat) (f : Bridge → Bridge) : (s.updBridge i f).plb = s.plb := rfl
@[simp] theorem State.updBridge_host (s : State) (i : Nat) (f : Bridge → Bridge) : (s.updBridge i f).host = s.host := rfl
@[simp] theorem State.slice_of_updBridge (s : State) (i j : Nat) (f : Bridge → Bridge) : (s.updBridge i f).slice j = s.slice j := rfl
@[simp] theorem State.cmd_of_updBridge (s : State) (i j : Nat) (f : Bridge → Bridge) : (s.updBridge i f).cmd j = s.cmd j := rfl
@[simp] theorem State.bay_of_updBridge (s : State) (i j : Nat) (f : Bridge → Bridge) : (s.updBridge i f).bay j = s.bay j := rfl
@[simp] theorem State.gang_of_updBridge (s : State) (i j : Nat) (f : Bridge → Bridge) : (s.updBridge i f).gang j = s.gang j := rfl
@[simp] theorem State.chan_of_updBridge (s : State) (i j : Nat) (f : Bridge → Bridge) : (s.updBridge i f).chan j = s.chan j := rfl
@[simp] theorem State.port_of_updBridge (s : State) (i j : Nat) (f : Bridge → Bridge) : (s.updBridge i f).port j = s.port j := rfl
@[simp] theorem State.reporter_of_updBridge (s : State) (i j : Nat) (f : Bridge → Bridge) : (s.updBridge i f).reporter j = s.reporter j := rfl

theorem State.reporter_updReporter (s : State) (i j : Nat) (f : Reporter → Reporter) :
    (s.updReporter i f).reporter j = if j = i then f (s.reporter i) else s.reporter j := by
  exact Tbl.get_set _ _ _ _ _

@[simp] theorem State.reporter_updReporter_same (s : State) (i : Nat) (f : Reporter → Reporter) :
    (s.updReporter i f).reporter i = f (s.reporter i) := by simp [State.reporter_updReporter]

@[simp] theorem State.updReporter_pending (s : State) (i : Nat) (f : Reporter → Reporter) : (s.updReporter i f).pending = s.pending := rfl
@[simp] theorem State.updReporter_free (s : State) (i : Nat) (f : Reporter → Reporter) : (s.updReporter i f).free = s.free := rfl
@[simp] theorem State.updReporter_time (s : State) (i : Nat) (f : Reporter → Reporter) : (s.updReporter i f).time = s.time := rfl
@[simp] theorem State.updReporter_pins (s : State) (i : Nat) (f : Reporter → Reporter) : (s.updReporter i f).pins = s.pins := rfl
@[simp] theorem State.updReporter_nv (s : State) (i : Nat) (f : Reporter → Reporter) : (s.updReporter i f).nv = s.nv := rfl
@[simp] theorem State.updReporter_dev (s : State) (i : Nat) (f : Reporter → Reporter) : (s.updReporter i f).dev = s.dev := rfl
@[simp] theorem State.updReporter_whole (s : State) (i : Nat) (f : Reporter → Reporter) : (s.updReporter i f).whole = s.whole := rfl
@[simp] theorem State.updReporter_slices (s : State) (i : Nat) (f : Reporter → Reporter) : (s.updReporter i f).slices = s.slices := rfl
@[simp] theorem State.updReporter_cmds (s : State) (i : Nat) (f : Reporter → Reporter) : (s.updReporter i f).cmds = s.cmds := rfl
@[simp] theorem State.updReporter_arb (s : State) (i : Nat) (f : Reporter → Reporter) : (s.updReporter i f).arb = s.arb := rfl
@[simp] theorem State.updReporter_bays (s : State) (i : Nat) (f : Reporter → Reporter) : (s.updReporter i f).bays = s.bays := rfl
@[simp] theorem State.updReporter_gangs (s : State) (i : Nat) (f : Reporter → Reporter) : (s.updReporter i f).gangs = s.gangs := rfl
@[simp] theorem State.updReporter_nextGang (s : State) (i : Nat) (f : Reporter → Reporter) : (s.updReporter i f).nextGang = s.nextGang := rfl
@[simp] theorem State.updReporter_reqs (s : State) (i : Nat) (f : Reporter → Reporter) : (s.updReporter i f).reqs = s.reqs := rfl
@[simp] theorem State.updReporter_nextReq (s : State) (i : Nat) (f : Reporter → Reporter) : (s.updReporter i f).nextReq = s.nextReq := rfl
@[simp] theorem State.updReporter_uc (s : State) (i : Nat) (f : Reporter → Reporter) : (s.updReporter i f).uc = s.uc := rfl
@[simp] theorem State.updReporter_mem (s : State) (i : Nat) (f : Reporter → Reporter) : (s.updReporter i f).mem = s.mem := rfl
@[simp] theorem State.updReporter_pool (s : State) (i : Nat) (f : Reporter → Reporter) : (s.updReporter i f).pool = s.pool := rfl
@[simp] theorem State.updReporter_sweld (s : State) (i : Nat) (f : Reporter → Reporter) : (s.updReporter i f).sweld = s.sweld := rfl
@[simp] theorem State.updReporter_fab (s : State) (i : Nat) (f : Reporter → Reporter) : (s.updReporter i f).fab = s.fab := rfl
@[simp] theorem State.updReporter_tel (s : State) (i : Nat) (f : Reporter → Reporter) : (s.updReporter i f).tel = s.tel := rfl
@[simp] theorem State.updReporter_mig (s : State) (i : Nat) (f : Reporter → Reporter) : (s.updReporter i f).mig = s.mig := rfl
@[simp] theorem State.updReporter_plb (s : State) (i : Nat) (f : Reporter → Reporter) : (s.updReporter i f).plb = s.plb := rfl
@[simp] theorem State.updReporter_host (s : State) (i : Nat) (f : Reporter → Reporter) : (s.updReporter i f).host = s.host := rfl
@[simp] theorem State.slice_of_updReporter (s : State) (i j : Nat) (f : Reporter → Reporter) : (s.updReporter i f).slice j = s.slice j := rfl
@[simp] theorem State.cmd_of_updReporter (s : State) (i j : Nat) (f : Reporter → Reporter) : (s.updReporter i f).cmd j = s.cmd j := rfl
@[simp] theorem State.bay_of_updReporter (s : State) (i j : Nat) (f : Reporter → Reporter) : (s.updReporter i f).bay j = s.bay j := rfl
@[simp] theorem State.gang_of_updReporter (s : State) (i j : Nat) (f : Reporter → Reporter) : (s.updReporter i f).gang j = s.gang j := rfl
@[simp] theorem State.chan_of_updReporter (s : State) (i j : Nat) (f : Reporter → Reporter) : (s.updReporter i f).chan j = s.chan j := rfl
@[simp] theorem State.port_of_updReporter (s : State) (i j : Nat) (f : Reporter → Reporter) : (s.updReporter i f).port j = s.port j := rfl
@[simp] theorem State.bridge_of_updReporter (s : State) (i j : Nat) (f : Reporter → Reporter) : (s.updReporter i f).bridge j = s.bridge j := rfl

@[simp] theorem State.setBuffer_pending (s : State) (i : Nat) (v : Buffer) : (s.setBuffer i v).pending = s.pending := rfl
@[simp] theorem State.setBuffer_free (s : State) (i : Nat) (v : Buffer) : (s.setBuffer i v).free = s.free := rfl
@[simp] theorem State.setBuffer_time (s : State) (i : Nat) (v : Buffer) : (s.setBuffer i v).time = s.time := rfl
@[simp] theorem State.setBuffer_pins (s : State) (i : Nat) (v : Buffer) : (s.setBuffer i v).pins = s.pins := rfl
@[simp] theorem State.setBuffer_nv (s : State) (i : Nat) (v : Buffer) : (s.setBuffer i v).nv = s.nv := rfl
@[simp] theorem State.setBuffer_dev (s : State) (i : Nat) (v : Buffer) : (s.setBuffer i v).dev = s.dev := rfl
@[simp] theorem State.setBuffer_whole (s : State) (i : Nat) (v : Buffer) : (s.setBuffer i v).whole = s.whole := rfl
@[simp] theorem State.setBuffer_slices (s : State) (i : Nat) (v : Buffer) : (s.setBuffer i v).slices = s.slices := rfl
@[simp] theorem State.setBuffer_cmds (s : State) (i : Nat) (v : Buffer) : (s.setBuffer i v).cmds = s.cmds := rfl
@[simp] theorem State.setBuffer_arb (s : State) (i : Nat) (v : Buffer) : (s.setBuffer i v).arb = s.arb := rfl
@[simp] theorem State.setBuffer_bays (s : State) (i : Nat) (v : Buffer) : (s.setBuffer i v).bays = s.bays := rfl
@[simp] theorem State.setBuffer_gangs (s : State) (i : Nat) (v : Buffer) : (s.setBuffer i v).gangs = s.gangs := rfl
@[simp] theorem State.setBuffer_nextGang (s : State) (i : Nat) (v : Buffer) : (s.setBuffer i v).nextGang = s.nextGang := rfl
@[simp] theorem State.setBuffer_reqs (s : State) (i : Nat) (v : Buffer) : (s.setBuffer i v).reqs = s.reqs := rfl
@[simp] theorem State.setBuffer_nextReq (s : State) (i : Nat) (v : Buffer) : (s.setBuffer i v).nextReq = s.nextReq := rfl
@[simp] theorem State.setBuffer_uc (s : State) (i : Nat) (v : Buffer) : (s.setBuffer i v).uc = s.uc := rfl
@[simp] theorem State.setBuffer_mem (s : State) (i : Nat) (v : Buffer) : (s.setBuffer i v).mem = s.mem := rfl
@[simp] theorem State.setBuffer_sweld (s : State) (i : Nat) (v : Buffer) : (s.setBuffer i v).sweld = s.sweld := rfl
@[simp] theorem State.setBuffer_fab (s : State) (i : Nat) (v : Buffer) : (s.setBuffer i v).fab = s.fab := rfl
@[simp] theorem State.setBuffer_flt (s : State) (i : Nat) (v : Buffer) : (s.setBuffer i v).flt = s.flt := rfl
@[simp] theorem State.setBuffer_tel (s : State) (i : Nat) (v : Buffer) : (s.setBuffer i v).tel = s.tel := rfl
@[simp] theorem State.setBuffer_mig (s : State) (i : Nat) (v : Buffer) : (s.setBuffer i v).mig = s.mig := rfl
@[simp] theorem State.setBuffer_plb (s : State) (i : Nat) (v : Buffer) : (s.setBuffer i v).plb = s.plb := rfl
@[simp] theorem State.setBuffer_host (s : State) (i : Nat) (v : Buffer) : (s.setBuffer i v).host = s.host := rfl

@[simp] theorem State.setWay_pending (s : State) (i : Nat) (v : Way) : (s.setWay i v).pending = s.pending := rfl
@[simp] theorem State.setWay_free (s : State) (i : Nat) (v : Way) : (s.setWay i v).free = s.free := rfl
@[simp] theorem State.setWay_time (s : State) (i : Nat) (v : Way) : (s.setWay i v).time = s.time := rfl
@[simp] theorem State.setWay_pins (s : State) (i : Nat) (v : Way) : (s.setWay i v).pins = s.pins := rfl
@[simp] theorem State.setWay_nv (s : State) (i : Nat) (v : Way) : (s.setWay i v).nv = s.nv := rfl
@[simp] theorem State.setWay_dev (s : State) (i : Nat) (v : Way) : (s.setWay i v).dev = s.dev := rfl
@[simp] theorem State.setWay_whole (s : State) (i : Nat) (v : Way) : (s.setWay i v).whole = s.whole := rfl
@[simp] theorem State.setWay_slices (s : State) (i : Nat) (v : Way) : (s.setWay i v).slices = s.slices := rfl
@[simp] theorem State.setWay_cmds (s : State) (i : Nat) (v : Way) : (s.setWay i v).cmds = s.cmds := rfl
@[simp] theorem State.setWay_arb (s : State) (i : Nat) (v : Way) : (s.setWay i v).arb = s.arb := rfl
@[simp] theorem State.setWay_bays (s : State) (i : Nat) (v : Way) : (s.setWay i v).bays = s.bays := rfl
@[simp] theorem State.setWay_gangs (s : State) (i : Nat) (v : Way) : (s.setWay i v).gangs = s.gangs := rfl
@[simp] theorem State.setWay_nextGang (s : State) (i : Nat) (v : Way) : (s.setWay i v).nextGang = s.nextGang := rfl
@[simp] theorem State.setWay_reqs (s : State) (i : Nat) (v : Way) : (s.setWay i v).reqs = s.reqs := rfl
@[simp] theorem State.setWay_nextReq (s : State) (i : Nat) (v : Way) : (s.setWay i v).nextReq = s.nextReq := rfl
@[simp] theorem State.setWay_mem (s : State) (i : Nat) (v : Way) : (s.setWay i v).mem = s.mem := rfl
@[simp] theorem State.setWay_pool (s : State) (i : Nat) (v : Way) : (s.setWay i v).pool = s.pool := rfl
@[simp] theorem State.setWay_sweld (s : State) (i : Nat) (v : Way) : (s.setWay i v).sweld = s.sweld := rfl
@[simp] theorem State.setWay_fab (s : State) (i : Nat) (v : Way) : (s.setWay i v).fab = s.fab := rfl
@[simp] theorem State.setWay_flt (s : State) (i : Nat) (v : Way) : (s.setWay i v).flt = s.flt := rfl
@[simp] theorem State.setWay_tel (s : State) (i : Nat) (v : Way) : (s.setWay i v).tel = s.tel := rfl
@[simp] theorem State.setWay_mig (s : State) (i : Nat) (v : Way) : (s.setWay i v).mig = s.mig := rfl
@[simp] theorem State.setWay_plb (s : State) (i : Nat) (v : Way) : (s.setWay i v).plb = s.plb := rfl
@[simp] theorem State.setWay_host (s : State) (i : Nat) (v : Way) : (s.setWay i v).host = s.host := rfl

@[simp] theorem State.setReq_pending (s : State) (i : Nat) (v : Req) : (s.setReq i v).pending = s.pending := rfl
@[simp] theorem State.setReq_free (s : State) (i : Nat) (v : Req) : (s.setReq i v).free = s.free := rfl
@[simp] theorem State.setReq_time (s : State) (i : Nat) (v : Req) : (s.setReq i v).time = s.time := rfl
@[simp] theorem State.setReq_pins (s : State) (i : Nat) (v : Req) : (s.setReq i v).pins = s.pins := rfl
@[simp] theorem State.setReq_nv (s : State) (i : Nat) (v : Req) : (s.setReq i v).nv = s.nv := rfl
@[simp] theorem State.setReq_dev (s : State) (i : Nat) (v : Req) : (s.setReq i v).dev = s.dev := rfl
@[simp] theorem State.setReq_whole (s : State) (i : Nat) (v : Req) : (s.setReq i v).whole = s.whole := rfl
@[simp] theorem State.setReq_slices (s : State) (i : Nat) (v : Req) : (s.setReq i v).slices = s.slices := rfl
@[simp] theorem State.setReq_cmds (s : State) (i : Nat) (v : Req) : (s.setReq i v).cmds = s.cmds := rfl
@[simp] theorem State.setReq_arb (s : State) (i : Nat) (v : Req) : (s.setReq i v).arb = s.arb := rfl
@[simp] theorem State.setReq_bays (s : State) (i : Nat) (v : Req) : (s.setReq i v).bays = s.bays := rfl
@[simp] theorem State.setReq_gangs (s : State) (i : Nat) (v : Req) : (s.setReq i v).gangs = s.gangs := rfl
@[simp] theorem State.setReq_nextGang (s : State) (i : Nat) (v : Req) : (s.setReq i v).nextGang = s.nextGang := rfl
@[simp] theorem State.setReq_nextReq (s : State) (i : Nat) (v : Req) : (s.setReq i v).nextReq = s.nextReq := rfl
@[simp] theorem State.setReq_uc (s : State) (i : Nat) (v : Req) : (s.setReq i v).uc = s.uc := rfl
@[simp] theorem State.setReq_mem (s : State) (i : Nat) (v : Req) : (s.setReq i v).mem = s.mem := rfl
@[simp] theorem State.setReq_pool (s : State) (i : Nat) (v : Req) : (s.setReq i v).pool = s.pool := rfl
@[simp] theorem State.setReq_sweld (s : State) (i : Nat) (v : Req) : (s.setReq i v).sweld = s.sweld := rfl
@[simp] theorem State.setReq_fab (s : State) (i : Nat) (v : Req) : (s.setReq i v).fab = s.fab := rfl
@[simp] theorem State.setReq_flt (s : State) (i : Nat) (v : Req) : (s.setReq i v).flt = s.flt := rfl
@[simp] theorem State.setReq_tel (s : State) (i : Nat) (v : Req) : (s.setReq i v).tel = s.tel := rfl
@[simp] theorem State.setReq_mig (s : State) (i : Nat) (v : Req) : (s.setReq i v).mig = s.mig := rfl
@[simp] theorem State.setReq_plb (s : State) (i : Nat) (v : Req) : (s.setReq i v).plb = s.plb := rfl
@[simp] theorem State.setReq_host (s : State) (i : Nat) (v : Req) : (s.setReq i v).host = s.host := rfl

@[simp] theorem State.dropReq_pending (s : State) (i : Nat) : (s.dropReq i).pending = s.pending := rfl
@[simp] theorem State.dropReq_free (s : State) (i : Nat) : (s.dropReq i).free = s.free := rfl
@[simp] theorem State.dropReq_time (s : State) (i : Nat) : (s.dropReq i).time = s.time := rfl
@[simp] theorem State.dropReq_pins (s : State) (i : Nat) : (s.dropReq i).pins = s.pins := rfl
@[simp] theorem State.dropReq_nv (s : State) (i : Nat) : (s.dropReq i).nv = s.nv := rfl
@[simp] theorem State.dropReq_dev (s : State) (i : Nat) : (s.dropReq i).dev = s.dev := rfl
@[simp] theorem State.dropReq_whole (s : State) (i : Nat) : (s.dropReq i).whole = s.whole := rfl
@[simp] theorem State.dropReq_slices (s : State) (i : Nat) : (s.dropReq i).slices = s.slices := rfl
@[simp] theorem State.dropReq_cmds (s : State) (i : Nat) : (s.dropReq i).cmds = s.cmds := rfl
@[simp] theorem State.dropReq_arb (s : State) (i : Nat) : (s.dropReq i).arb = s.arb := rfl
@[simp] theorem State.dropReq_bays (s : State) (i : Nat) : (s.dropReq i).bays = s.bays := rfl
@[simp] theorem State.dropReq_gangs (s : State) (i : Nat) : (s.dropReq i).gangs = s.gangs := rfl
@[simp] theorem State.dropReq_nextGang (s : State) (i : Nat) : (s.dropReq i).nextGang = s.nextGang := rfl
@[simp] theorem State.dropReq_nextReq (s : State) (i : Nat) : (s.dropReq i).nextReq = s.nextReq := rfl
@[simp] theorem State.dropReq_uc (s : State) (i : Nat) : (s.dropReq i).uc = s.uc := rfl
@[simp] theorem State.dropReq_mem (s : State) (i : Nat) : (s.dropReq i).mem = s.mem := rfl
@[simp] theorem State.dropReq_pool (s : State) (i : Nat) : (s.dropReq i).pool = s.pool := rfl
@[simp] theorem State.dropReq_sweld (s : State) (i : Nat) : (s.dropReq i).sweld = s.sweld := rfl
@[simp] theorem State.dropReq_fab (s : State) (i : Nat) : (s.dropReq i).fab = s.fab := rfl
@[simp] theorem State.dropReq_flt (s : State) (i : Nat) : (s.dropReq i).flt = s.flt := rfl
@[simp] theorem State.dropReq_tel (s : State) (i : Nat) : (s.dropReq i).tel = s.tel := rfl
@[simp] theorem State.dropReq_mig (s : State) (i : Nat) : (s.dropReq i).mig = s.mig := rfl
@[simp] theorem State.dropReq_plb (s : State) (i : Nat) : (s.dropReq i).plb = s.plb := rfl
@[simp] theorem State.dropReq_host (s : State) (i : Nat) : (s.dropReq i).host = s.host := rfl

@[simp] theorem State.dropGang_pending (s : State) (i : Nat) : (s.dropGang i).pending = s.pending := rfl
@[simp] theorem State.dropGang_free (s : State) (i : Nat) : (s.dropGang i).free = s.free := rfl
@[simp] theorem State.dropGang_time (s : State) (i : Nat) : (s.dropGang i).time = s.time := rfl
@[simp] theorem State.dropGang_pins (s : State) (i : Nat) : (s.dropGang i).pins = s.pins := rfl
@[simp] theorem State.dropGang_nv (s : State) (i : Nat) : (s.dropGang i).nv = s.nv := rfl
@[simp] theorem State.dropGang_dev (s : State) (i : Nat) : (s.dropGang i).dev = s.dev := rfl
@[simp] theorem State.dropGang_whole (s : State) (i : Nat) : (s.dropGang i).whole = s.whole := rfl
@[simp] theorem State.dropGang_slices (s : State) (i : Nat) : (s.dropGang i).slices = s.slices := rfl
@[simp] theorem State.dropGang_cmds (s : State) (i : Nat) : (s.dropGang i).cmds = s.cmds := rfl
@[simp] theorem State.dropGang_arb (s : State) (i : Nat) : (s.dropGang i).arb = s.arb := rfl
@[simp] theorem State.dropGang_bays (s : State) (i : Nat) : (s.dropGang i).bays = s.bays := rfl
@[simp] theorem State.dropGang_nextGang (s : State) (i : Nat) : (s.dropGang i).nextGang = s.nextGang := rfl
@[simp] theorem State.dropGang_reqs (s : State) (i : Nat) : (s.dropGang i).reqs = s.reqs := rfl
@[simp] theorem State.dropGang_nextReq (s : State) (i : Nat) : (s.dropGang i).nextReq = s.nextReq := rfl
@[simp] theorem State.dropGang_uc (s : State) (i : Nat) : (s.dropGang i).uc = s.uc := rfl
@[simp] theorem State.dropGang_mem (s : State) (i : Nat) : (s.dropGang i).mem = s.mem := rfl
@[simp] theorem State.dropGang_pool (s : State) (i : Nat) : (s.dropGang i).pool = s.pool := rfl
@[simp] theorem State.dropGang_sweld (s : State) (i : Nat) : (s.dropGang i).sweld = s.sweld := rfl
@[simp] theorem State.dropGang_fab (s : State) (i : Nat) : (s.dropGang i).fab = s.fab := rfl
@[simp] theorem State.dropGang_flt (s : State) (i : Nat) : (s.dropGang i).flt = s.flt := rfl
@[simp] theorem State.dropGang_tel (s : State) (i : Nat) : (s.dropGang i).tel = s.tel := rfl
@[simp] theorem State.dropGang_mig (s : State) (i : Nat) : (s.dropGang i).mig = s.mig := rfl
@[simp] theorem State.dropGang_plb (s : State) (i : Nat) : (s.dropGang i).plb = s.plb := rfl
@[simp] theorem State.dropGang_host (s : State) (i : Nat) : (s.dropGang i).host = s.host := rfl

@[simp] theorem State.hostWrite_pending (s : State) (sp : Option (BitVec 20)) (a : Nat) (b : Bytes) : (s.hostWrite sp a b).pending = s.pending := rfl
@[simp] theorem State.hostWrite_free (s : State) (sp : Option (BitVec 20)) (a : Nat) (b : Bytes) : (s.hostWrite sp a b).free = s.free := rfl
@[simp] theorem State.hostWrite_time (s : State) (sp : Option (BitVec 20)) (a : Nat) (b : Bytes) : (s.hostWrite sp a b).time = s.time := rfl
@[simp] theorem State.hostWrite_pins (s : State) (sp : Option (BitVec 20)) (a : Nat) (b : Bytes) : (s.hostWrite sp a b).pins = s.pins := rfl
@[simp] theorem State.hostWrite_nv (s : State) (sp : Option (BitVec 20)) (a : Nat) (b : Bytes) : (s.hostWrite sp a b).nv = s.nv := rfl
@[simp] theorem State.hostWrite_dev (s : State) (sp : Option (BitVec 20)) (a : Nat) (b : Bytes) : (s.hostWrite sp a b).dev = s.dev := rfl
@[simp] theorem State.hostWrite_whole (s : State) (sp : Option (BitVec 20)) (a : Nat) (b : Bytes) : (s.hostWrite sp a b).whole = s.whole := rfl
@[simp] theorem State.hostWrite_slices (s : State) (sp : Option (BitVec 20)) (a : Nat) (b : Bytes) : (s.hostWrite sp a b).slices = s.slices := rfl
@[simp] theorem State.hostWrite_cmds (s : State) (sp : Option (BitVec 20)) (a : Nat) (b : Bytes) : (s.hostWrite sp a b).cmds = s.cmds := rfl
@[simp] theorem State.hostWrite_arb (s : State) (sp : Option (BitVec 20)) (a : Nat) (b : Bytes) : (s.hostWrite sp a b).arb = s.arb := rfl
@[simp] theorem State.hostWrite_bays (s : State) (sp : Option (BitVec 20)) (a : Nat) (b : Bytes) : (s.hostWrite sp a b).bays = s.bays := rfl
@[simp] theorem State.hostWrite_gangs (s : State) (sp : Option (BitVec 20)) (a : Nat) (b : Bytes) : (s.hostWrite sp a b).gangs = s.gangs := rfl
@[simp] theorem State.hostWrite_nextGang (s : State) (sp : Option (BitVec 20)) (a : Nat) (b : Bytes) : (s.hostWrite sp a b).nextGang = s.nextGang := rfl
@[simp] theorem State.hostWrite_reqs (s : State) (sp : Option (BitVec 20)) (a : Nat) (b : Bytes) : (s.hostWrite sp a b).reqs = s.reqs := rfl
@[simp] theorem State.hostWrite_nextReq (s : State) (sp : Option (BitVec 20)) (a : Nat) (b : Bytes) : (s.hostWrite sp a b).nextReq = s.nextReq := rfl
@[simp] theorem State.hostWrite_uc (s : State) (sp : Option (BitVec 20)) (a : Nat) (b : Bytes) : (s.hostWrite sp a b).uc = s.uc := rfl
@[simp] theorem State.hostWrite_mem (s : State) (sp : Option (BitVec 20)) (a : Nat) (b : Bytes) : (s.hostWrite sp a b).mem = s.mem := rfl
@[simp] theorem State.hostWrite_pool (s : State) (sp : Option (BitVec 20)) (a : Nat) (b : Bytes) : (s.hostWrite sp a b).pool = s.pool := rfl
@[simp] theorem State.hostWrite_sweld (s : State) (sp : Option (BitVec 20)) (a : Nat) (b : Bytes) : (s.hostWrite sp a b).sweld = s.sweld := rfl
@[simp] theorem State.hostWrite_fab (s : State) (sp : Option (BitVec 20)) (a : Nat) (b : Bytes) : (s.hostWrite sp a b).fab = s.fab := rfl
@[simp] theorem State.hostWrite_flt (s : State) (sp : Option (BitVec 20)) (a : Nat) (b : Bytes) : (s.hostWrite sp a b).flt = s.flt := rfl
@[simp] theorem State.hostWrite_tel (s : State) (sp : Option (BitVec 20)) (a : Nat) (b : Bytes) : (s.hostWrite sp a b).tel = s.tel := rfl
@[simp] theorem State.hostWrite_mig (s : State) (sp : Option (BitVec 20)) (a : Nat) (b : Bytes) : (s.hostWrite sp a b).mig = s.mig := rfl
@[simp] theorem State.hostWrite_plb (s : State) (sp : Option (BitVec 20)) (a : Nat) (b : Bytes) : (s.hostWrite sp a b).plb = s.plb := rfl

@[simp] theorem State.signal_pending (s : State) : (s.signal).pending = s.pending := by unfold State.signal; split <;> rfl
@[simp] theorem State.signal_time (s : State) : (s.signal).time = s.time := by unfold State.signal; split <;> rfl
@[simp] theorem State.signal_pins (s : State) : (s.signal).pins = s.pins := by unfold State.signal; split <;> rfl
@[simp] theorem State.signal_nv (s : State) : (s.signal).nv = s.nv := by unfold State.signal; split <;> rfl
@[simp] theorem State.signal_dev (s : State) : (s.signal).dev = s.dev := by unfold State.signal; split <;> rfl
@[simp] theorem State.signal_whole (s : State) : (s.signal).whole = s.whole := by unfold State.signal; split <;> rfl
@[simp] theorem State.signal_slices (s : State) : (s.signal).slices = s.slices := by unfold State.signal; split <;> rfl
@[simp] theorem State.signal_cmds (s : State) : (s.signal).cmds = s.cmds := by unfold State.signal; split <;> rfl
@[simp] theorem State.signal_arb (s : State) : (s.signal).arb = s.arb := by unfold State.signal; split <;> rfl
@[simp] theorem State.signal_bays (s : State) : (s.signal).bays = s.bays := by unfold State.signal; split <;> rfl
@[simp] theorem State.signal_gangs (s : State) : (s.signal).gangs = s.gangs := by unfold State.signal; split <;> rfl
@[simp] theorem State.signal_nextGang (s : State) : (s.signal).nextGang = s.nextGang := by unfold State.signal; split <;> rfl
@[simp] theorem State.signal_reqs (s : State) : (s.signal).reqs = s.reqs := by unfold State.signal; split <;> rfl
@[simp] theorem State.signal_nextReq (s : State) : (s.signal).nextReq = s.nextReq := by unfold State.signal; split <;> rfl
@[simp] theorem State.signal_uc (s : State) : (s.signal).uc = s.uc := by unfold State.signal; split <;> rfl
@[simp] theorem State.signal_mem (s : State) : (s.signal).mem = s.mem := by unfold State.signal; split <;> rfl
@[simp] theorem State.signal_pool (s : State) : (s.signal).pool = s.pool := by unfold State.signal; split <;> rfl
@[simp] theorem State.signal_sweld (s : State) : (s.signal).sweld = s.sweld := by unfold State.signal; split <;> rfl
@[simp] theorem State.signal_fab (s : State) : (s.signal).fab = s.fab := by unfold State.signal; split <;> rfl
@[simp] theorem State.signal_flt (s : State) : (s.signal).flt = s.flt := by unfold State.signal; split <;> rfl
@[simp] theorem State.signal_tel (s : State) : (s.signal).tel = s.tel := by unfold State.signal; split <;> rfl
@[simp] theorem State.signal_mig (s : State) : (s.signal).mig = s.mig := by unfold State.signal; split <;> rfl
@[simp] theorem State.signal_host (s : State) : (s.signal).host = s.host := by unfold State.signal; split <;> rfl

@[simp] theorem State.event_pending (s : State) (e u : Nat) (x : Option Nat) (n : Nat) : (s.event e u x n).pending = s.pending := rfl
@[simp] theorem State.event_free (s : State) (e u : Nat) (x : Option Nat) (n : Nat) : (s.event e u x n).free = s.free := rfl
@[simp] theorem State.event_time (s : State) (e u : Nat) (x : Option Nat) (n : Nat) : (s.event e u x n).time = s.time := rfl
@[simp] theorem State.event_pins (s : State) (e u : Nat) (x : Option Nat) (n : Nat) : (s.event e u x n).pins = s.pins := rfl
@[simp] theorem State.event_nv (s : State) (e u : Nat) (x : Option Nat) (n : Nat) : (s.event e u x n).nv = s.nv := rfl
@[simp] theorem State.event_dev (s : State) (e u : Nat) (x : Option Nat) (n : Nat) : (s.event e u x n).dev = s.dev := rfl
@[simp] theorem State.event_whole (s : State) (e u : Nat) (x : Option Nat) (n : Nat) : (s.event e u x n).whole = s.whole := rfl
@[simp] theorem State.event_slices (s : State) (e u : Nat) (x : Option Nat) (n : Nat) : (s.event e u x n).slices = s.slices := rfl
@[simp] theorem State.event_cmds (s : State) (e u : Nat) (x : Option Nat) (n : Nat) : (s.event e u x n).cmds = s.cmds := rfl
@[simp] theorem State.event_arb (s : State) (e u : Nat) (x : Option Nat) (n : Nat) : (s.event e u x n).arb = s.arb := rfl
@[simp] theorem State.event_bays (s : State) (e u : Nat) (x : Option Nat) (n : Nat) : (s.event e u x n).bays = s.bays := rfl
@[simp] theorem State.event_gangs (s : State) (e u : Nat) (x : Option Nat) (n : Nat) : (s.event e u x n).gangs = s.gangs := rfl
@[simp] theorem State.event_nextGang (s : State) (e u : Nat) (x : Option Nat) (n : Nat) : (s.event e u x n).nextGang = s.nextGang := rfl
@[simp] theorem State.event_reqs (s : State) (e u : Nat) (x : Option Nat) (n : Nat) : (s.event e u x n).reqs = s.reqs := rfl
@[simp] theorem State.event_nextReq (s : State) (e u : Nat) (x : Option Nat) (n : Nat) : (s.event e u x n).nextReq = s.nextReq := rfl
@[simp] theorem State.event_uc (s : State) (e u : Nat) (x : Option Nat) (n : Nat) : (s.event e u x n).uc = s.uc := rfl
@[simp] theorem State.event_mem (s : State) (e u : Nat) (x : Option Nat) (n : Nat) : (s.event e u x n).mem = s.mem := rfl
@[simp] theorem State.event_pool (s : State) (e u : Nat) (x : Option Nat) (n : Nat) : (s.event e u x n).pool = s.pool := rfl
@[simp] theorem State.event_sweld (s : State) (e u : Nat) (x : Option Nat) (n : Nat) : (s.event e u x n).sweld = s.sweld := rfl
@[simp] theorem State.event_fab (s : State) (e u : Nat) (x : Option Nat) (n : Nat) : (s.event e u x n).fab = s.fab := rfl
@[simp] theorem State.event_flt (s : State) (e u : Nat) (x : Option Nat) (n : Nat) : (s.event e u x n).flt = s.flt := rfl
@[simp] theorem State.event_mig (s : State) (e u : Nat) (x : Option Nat) (n : Nat) : (s.event e u x n).mig = s.mig := rfl
@[simp] theorem State.event_plb (s : State) (e u : Nat) (x : Option Nat) (n : Nat) : (s.event e u x n).plb = s.plb := rfl
@[simp] theorem State.event_host (s : State) (e u : Nat) (x : Option Nat) (n : Nat) : (s.event e u x n).host = s.host := rfl

@[simp] theorem State.count_pending (s : State) (x i n : Nat) : (s.count x i n).pending = s.pending := rfl
@[simp] theorem State.count_free (s : State) (x i n : Nat) : (s.count x i n).free = s.free := rfl
@[simp] theorem State.count_time (s : State) (x i n : Nat) : (s.count x i n).time = s.time := rfl
@[simp] theorem State.count_pins (s : State) (x i n : Nat) : (s.count x i n).pins = s.pins := rfl
@[simp] theorem State.count_nv (s : State) (x i n : Nat) : (s.count x i n).nv = s.nv := rfl
@[simp] theorem State.count_dev (s : State) (x i n : Nat) : (s.count x i n).dev = s.dev := rfl
@[simp] theorem State.count_whole (s : State) (x i n : Nat) : (s.count x i n).whole = s.whole := rfl
@[simp] theorem State.count_cmds (s : State) (x i n : Nat) : (s.count x i n).cmds = s.cmds := rfl
@[simp] theorem State.count_arb (s : State) (x i n : Nat) : (s.count x i n).arb = s.arb := rfl
@[simp] theorem State.count_bays (s : State) (x i n : Nat) : (s.count x i n).bays = s.bays := rfl
@[simp] theorem State.count_gangs (s : State) (x i n : Nat) : (s.count x i n).gangs = s.gangs := rfl
@[simp] theorem State.count_nextGang (s : State) (x i n : Nat) : (s.count x i n).nextGang = s.nextGang := rfl
@[simp] theorem State.count_reqs (s : State) (x i n : Nat) : (s.count x i n).reqs = s.reqs := rfl
@[simp] theorem State.count_nextReq (s : State) (x i n : Nat) : (s.count x i n).nextReq = s.nextReq := rfl
@[simp] theorem State.count_uc (s : State) (x i n : Nat) : (s.count x i n).uc = s.uc := rfl
@[simp] theorem State.count_mem (s : State) (x i n : Nat) : (s.count x i n).mem = s.mem := rfl
@[simp] theorem State.count_pool (s : State) (x i n : Nat) : (s.count x i n).pool = s.pool := rfl
@[simp] theorem State.count_sweld (s : State) (x i n : Nat) : (s.count x i n).sweld = s.sweld := rfl
@[simp] theorem State.count_fab (s : State) (x i n : Nat) : (s.count x i n).fab = s.fab := rfl
@[simp] theorem State.count_flt (s : State) (x i n : Nat) : (s.count x i n).flt = s.flt := rfl
@[simp] theorem State.count_tel (s : State) (x i n : Nat) : (s.count x i n).tel = s.tel := rfl
@[simp] theorem State.count_mig (s : State) (x i n : Nat) : (s.count x i n).mig = s.mig := rfl
@[simp] theorem State.count_plb (s : State) (x i n : Nat) : (s.count x i n).plb = s.plb := rfl
@[simp] theorem State.count_host (s : State) (x i n : Nat) : (s.count x i n).host = s.host := rfl

@[simp] theorem State.updFlow_pending (s : State) (k : Nat) (f : Flow → Flow) : (s.updFlow k f).pending = s.pending := rfl
@[simp] theorem State.updFlow_free (s : State) (k : Nat) (f : Flow → Flow) : (s.updFlow k f).free = s.free := rfl
@[simp] theorem State.updFlow_time (s : State) (k : Nat) (f : Flow → Flow) : (s.updFlow k f).time = s.time := rfl
@[simp] theorem State.updFlow_pins (s : State) (k : Nat) (f : Flow → Flow) : (s.updFlow k f).pins = s.pins := rfl
@[simp] theorem State.updFlow_nv (s : State) (k : Nat) (f : Flow → Flow) : (s.updFlow k f).nv = s.nv := rfl
@[simp] theorem State.updFlow_dev (s : State) (k : Nat) (f : Flow → Flow) : (s.updFlow k f).dev = s.dev := rfl
@[simp] theorem State.updFlow_whole (s : State) (k : Nat) (f : Flow → Flow) : (s.updFlow k f).whole = s.whole := rfl
@[simp] theorem State.updFlow_slices (s : State) (k : Nat) (f : Flow → Flow) : (s.updFlow k f).slices = s.slices := rfl
@[simp] theorem State.updFlow_cmds (s : State) (k : Nat) (f : Flow → Flow) : (s.updFlow k f).cmds = s.cmds := rfl
@[simp] theorem State.updFlow_arb (s : State) (k : Nat) (f : Flow → Flow) : (s.updFlow k f).arb = s.arb := rfl
@[simp] theorem State.updFlow_bays (s : State) (k : Nat) (f : Flow → Flow) : (s.updFlow k f).bays = s.bays := rfl
@[simp] theorem State.updFlow_gangs (s : State) (k : Nat) (f : Flow → Flow) : (s.updFlow k f).gangs = s.gangs := rfl
@[simp] theorem State.updFlow_nextGang (s : State) (k : Nat) (f : Flow → Flow) : (s.updFlow k f).nextGang = s.nextGang := rfl
@[simp] theorem State.updFlow_reqs (s : State) (k : Nat) (f : Flow → Flow) : (s.updFlow k f).reqs = s.reqs := rfl
@[simp] theorem State.updFlow_nextReq (s : State) (k : Nat) (f : Flow → Flow) : (s.updFlow k f).nextReq = s.nextReq := rfl
@[simp] theorem State.updFlow_uc (s : State) (k : Nat) (f : Flow → Flow) : (s.updFlow k f).uc = s.uc := rfl
@[simp] theorem State.updFlow_mem (s : State) (k : Nat) (f : Flow → Flow) : (s.updFlow k f).mem = s.mem := rfl
@[simp] theorem State.updFlow_pool (s : State) (k : Nat) (f : Flow → Flow) : (s.updFlow k f).pool = s.pool := rfl
@[simp] theorem State.updFlow_sweld (s : State) (k : Nat) (f : Flow → Flow) : (s.updFlow k f).sweld = s.sweld := rfl
@[simp] theorem State.updFlow_flt (s : State) (k : Nat) (f : Flow → Flow) : (s.updFlow k f).flt = s.flt := rfl
@[simp] theorem State.updFlow_tel (s : State) (k : Nat) (f : Flow → Flow) : (s.updFlow k f).tel = s.tel := rfl
@[simp] theorem State.updFlow_mig (s : State) (k : Nat) (f : Flow → Flow) : (s.updFlow k f).mig = s.mig := rfl
@[simp] theorem State.updFlow_plb (s : State) (k : Nat) (f : Flow → Flow) : (s.updFlow k f).plb = s.plb := rfl
@[simp] theorem State.updFlow_host (s : State) (k : Nat) (f : Flow → Flow) : (s.updFlow k f).host = s.host := rfl

@[simp] theorem State.inClass_pending (s : State) (c : Nat) : (s.inClass c).pending = s.pending := rfl
@[simp] theorem State.inClass_free (s : State) (c : Nat) : (s.inClass c).free = s.free := rfl
@[simp] theorem State.inClass_time (s : State) (c : Nat) : (s.inClass c).time = s.time := rfl
@[simp] theorem State.inClass_pins (s : State) (c : Nat) : (s.inClass c).pins = s.pins := rfl
@[simp] theorem State.inClass_nv (s : State) (c : Nat) : (s.inClass c).nv = s.nv := rfl
@[simp] theorem State.inClass_dev (s : State) (c : Nat) : (s.inClass c).dev = s.dev := rfl
@[simp] theorem State.inClass_whole (s : State) (c : Nat) : (s.inClass c).whole = s.whole := rfl
@[simp] theorem State.inClass_slices (s : State) (c : Nat) : (s.inClass c).slices = s.slices := rfl
@[simp] theorem State.inClass_cmds (s : State) (c : Nat) : (s.inClass c).cmds = s.cmds := rfl
@[simp] theorem State.inClass_arb (s : State) (c : Nat) : (s.inClass c).arb = s.arb := rfl
@[simp] theorem State.inClass_bays (s : State) (c : Nat) : (s.inClass c).bays = s.bays := rfl
@[simp] theorem State.inClass_gangs (s : State) (c : Nat) : (s.inClass c).gangs = s.gangs := rfl
@[simp] theorem State.inClass_nextGang (s : State) (c : Nat) : (s.inClass c).nextGang = s.nextGang := rfl
@[simp] theorem State.inClass_reqs (s : State) (c : Nat) : (s.inClass c).reqs = s.reqs := rfl
@[simp] theorem State.inClass_nextReq (s : State) (c : Nat) : (s.inClass c).nextReq = s.nextReq := rfl
@[simp] theorem State.inClass_uc (s : State) (c : Nat) : (s.inClass c).uc = s.uc := rfl
@[simp] theorem State.inClass_mem (s : State) (c : Nat) : (s.inClass c).mem = s.mem := rfl
@[simp] theorem State.inClass_pool (s : State) (c : Nat) : (s.inClass c).pool = s.pool := rfl
@[simp] theorem State.inClass_sweld (s : State) (c : Nat) : (s.inClass c).sweld = s.sweld := rfl
@[simp] theorem State.inClass_flt (s : State) (c : Nat) : (s.inClass c).flt = s.flt := rfl
@[simp] theorem State.inClass_tel (s : State) (c : Nat) : (s.inClass c).tel = s.tel := rfl
@[simp] theorem State.inClass_mig (s : State) (c : Nat) : (s.inClass c).mig = s.mig := rfl
@[simp] theorem State.inClass_plb (s : State) (c : Nat) : (s.inClass c).plb = s.plb := rfl
@[simp] theorem State.inClass_host (s : State) (c : Nat) : (s.inClass c).host = s.host := rfl

@[simp] theorem State.onBehalf_pending (s : State) (id : Nat) : (s.onBehalf id).pending = s.pending := rfl
@[simp] theorem State.onBehalf_free (s : State) (id : Nat) : (s.onBehalf id).free = s.free := rfl
@[simp] theorem State.onBehalf_time (s : State) (id : Nat) : (s.onBehalf id).time = s.time := rfl
@[simp] theorem State.onBehalf_pins (s : State) (id : Nat) : (s.onBehalf id).pins = s.pins := rfl
@[simp] theorem State.onBehalf_nv (s : State) (id : Nat) : (s.onBehalf id).nv = s.nv := rfl
@[simp] theorem State.onBehalf_dev (s : State) (id : Nat) : (s.onBehalf id).dev = s.dev := rfl
@[simp] theorem State.onBehalf_whole (s : State) (id : Nat) : (s.onBehalf id).whole = s.whole := rfl
@[simp] theorem State.onBehalf_slices (s : State) (id : Nat) : (s.onBehalf id).slices = s.slices := rfl
@[simp] theorem State.onBehalf_cmds (s : State) (id : Nat) : (s.onBehalf id).cmds = s.cmds := rfl
@[simp] theorem State.onBehalf_arb (s : State) (id : Nat) : (s.onBehalf id).arb = s.arb := rfl
@[simp] theorem State.onBehalf_bays (s : State) (id : Nat) : (s.onBehalf id).bays = s.bays := rfl
@[simp] theorem State.onBehalf_gangs (s : State) (id : Nat) : (s.onBehalf id).gangs = s.gangs := rfl
@[simp] theorem State.onBehalf_nextGang (s : State) (id : Nat) : (s.onBehalf id).nextGang = s.nextGang := rfl
@[simp] theorem State.onBehalf_reqs (s : State) (id : Nat) : (s.onBehalf id).reqs = s.reqs := rfl
@[simp] theorem State.onBehalf_nextReq (s : State) (id : Nat) : (s.onBehalf id).nextReq = s.nextReq := rfl
@[simp] theorem State.onBehalf_uc (s : State) (id : Nat) : (s.onBehalf id).uc = s.uc := rfl
@[simp] theorem State.onBehalf_mem (s : State) (id : Nat) : (s.onBehalf id).mem = s.mem := rfl
@[simp] theorem State.onBehalf_pool (s : State) (id : Nat) : (s.onBehalf id).pool = s.pool := rfl
@[simp] theorem State.onBehalf_sweld (s : State) (id : Nat) : (s.onBehalf id).sweld = s.sweld := rfl
@[simp] theorem State.onBehalf_flt (s : State) (id : Nat) : (s.onBehalf id).flt = s.flt := rfl
@[simp] theorem State.onBehalf_tel (s : State) (id : Nat) : (s.onBehalf id).tel = s.tel := rfl
@[simp] theorem State.onBehalf_mig (s : State) (id : Nat) : (s.onBehalf id).mig = s.mig := rfl
@[simp] theorem State.onBehalf_plb (s : State) (id : Nat) : (s.onBehalf id).plb = s.plb := rfl
@[simp] theorem State.onBehalf_host (s : State) (id : Nat) : (s.onBehalf id).host = s.host := rfl

@[simp] theorem State.buffer_setBuffer (s : State) (i j : Nat) (v : Buffer) :
    (s.setBuffer i v).buffer j = if j = i then v else s.buffer j := Tbl.get_set _ _ _ _ _

@[simp] theorem State.way_setWay (s : State) (i j : Nat) (v : Way) :
    (s.setWay i v).way j = if j = i then v else s.way j := Tbl.get_set _ _ _ _ _

@[simp] theorem Slice.sq_setSq (v : Slice) (q r : Nat) (x : Sq) :
    (v.setSq q x).sq r = if r = q then x else v.sq r := Tbl.get_set _ _ _ _ _

@[simp] theorem Slice.cq_setCq (v : Slice) (q r : Nat) (x : Ring) :
    (v.setCq q x).cq r = if r = q then x else v.cq r := Tbl.get_set _ _ _ _ _

@[simp] theorem Slice.handle_setHandle (v : Slice) (h k : Nat) (x : Handle) :
    (v.setHandle h x).handle k = if k = h then x else v.handle k := Tbl.get_set _ _ _ _ _

end Sys2Proof.Machine
end

