-- ==== Sys2Proof/Laws/Frames.lean ====
section
/-! SUPPORT. Frames: two states that agree but for named parts, and updates of one entry that depend on that entry alone. -/

namespace Sys2Proof.Machine

theorem State.agree_refl (s : State) (p : Part) : s.agree s p := by cases p <;> rfl

theorem State.agree_trans {s t u : State} {p : Part} (h : s.agree t p) (k : t.agree u p) : s.agree u p := by
  cases p <;> exact Eq.trans k h

theorem State.sameBut_refl (s : State) (ps : List Part) : s.sameBut s ps := fun p _ => s.agree_refl p

theorem State.sameBut.trans {s t u : State} {ps : List Part} (h : s.sameBut t ps) (k : t.sameBut u ps) : s.sameBut u ps :=
  fun p hp => State.agree_trans (h p hp) (k p hp)

theorem State.sameBut.mono {s t : State} {ps qs : List Part} (h : s.sameBut t ps) (k : ∀ p ∈ ps, p ∈ qs) :
    s.sameBut t qs := fun p hp => h p (fun h' => hp (k p h'))

/-! ## Steps whose accesses can wait -/

/-- A step of which every access goes through is the plain run of its function. -/
theorem State.settled_through {s : State} {f g : State → State} (h : f s.begun = g s.begun) (k : s.goesThrough g) :
    s.settled f = s.through g := by
  unfold State.goesThrough at k
  unfold State.settled State.trial State.through
  simp only [h]
  rw [if_neg (by simp [k])]

/-- So is one that ends in a known state. -/
theorem State.settled_ended {s v : State} {f : State → State} (h : f s.begun = v) (k : v.uc.held = false) :
    s.settled f = s.ended v := State.settled_through (g := fun _ => v) h k

/-- Nothing has changed in a step that leaves the state it began in. -/
theorem State.ended_begun (s : State) : s.ended s.begun = s := rfl

theorem State.updSlice_congr (s : State) (i : Nat) {f g : Slice → Slice} (h : f (s.slice i) = g (s.slice i)) :
    s.updSlice i f = s.updSlice i g := by simp only [State.updSlice, h]

theorem State.updCmd_congr (s : State) (i : Nat) {f g : Cmd → Cmd} (h : f (s.cmd i) = g (s.cmd i)) :
    s.updCmd i f = s.updCmd i g := by simp only [State.updCmd, h]

theorem State.updBay_congr (s : State) (i : Nat) {f g : Bay → Bay} (h : f (s.bay i) = g (s.bay i)) :
    s.updBay i f = s.updBay i g := by simp only [State.updBay, h]

theorem State.updGang_congr (s : State) (i : Nat) {f g : Gang → Gang} (h : f (s.gang i) = g (s.gang i)) :
    s.updGang i f = s.updGang i g := by simp only [State.updGang, h]

theorem State.updChan_congr (s : State) (i : Nat) {f g : Chan → Chan} (h : f (s.chan i) = g (s.chan i)) :
    s.updChan i f = s.updChan i g := by simp only [State.updChan, h]

theorem State.updPort_congr (s : State) (i : Nat) {f g : Port → Port} (h : f (s.port i) = g (s.port i)) :
    s.updPort i f = s.updPort i g := by simp only [State.updPort, h]

theorem State.updBridge_congr (s : State) (i : Nat) {f g : Bridge → Bridge} (h : f (s.bridge i) = g (s.bridge i)) :
    s.updBridge i f = s.updBridge i g := by simp only [State.updBridge, h]

theorem State.updReporter_congr (s : State) (i : Nat) {f g : Reporter → Reporter} (h : f (s.reporter i) = g (s.reporter i)) :
    s.updReporter i f = s.updReporter i g := by simp only [State.updReporter, h]

theorem State.updSq_congr (s : State) (i q : Nat) {f g : Sq → Sq}
    (h : f ((s.slice i).sq q) = g ((s.slice i).sq q)) : s.updSq i q f = s.updSq i q g := by
  apply State.updSlice_congr; rw [h]

theorem State.updCq_congr (s : State) (i q : Nat) {f g : Ring → Ring}
    (h : f ((s.slice i).cq q) = g ((s.slice i).cq q)) : s.updCq i q f = s.updCq i q g := by
  apply State.updSlice_congr; rw [h]

theorem State.updHandle_congr (s : State) (i q : Nat) {f g : Handle → Handle}
    (h : f ((s.slice i).handle q) = g ((s.slice i).handle q)) : s.updHandle i q f = s.updHandle i q g := by
  apply State.updSlice_congr; rw [h]

end Sys2Proof.Machine
end

