-- ==== Sys2Proof/Laws/Faults.lean ====
section
/-! SUPPORT. What reporting a fault can change: the owner's counters, state and pending reset, the command it stops, the
collectors and RESET_CTL. -/

namespace Sys2Proof.Machine

theorem State.updSlice_sameBut (s : State) (i : Nat) (f : Slice → Slice) : s.sameBut (s.updSlice i f) [.slices] := by
  intro p h; cases p <;> first | rfl | exact absurd List.mem_cons_self h
theorem State.updCmd_sameBut (s : State) (i : Nat) (f : Cmd → Cmd) : s.sameBut (s.updCmd i f) [.cmds] := by
  intro p h; cases p <;> first | rfl | exact absurd List.mem_cons_self h

theorem State.queueRecord_sameBut (s : State) (u : Nat) (r : FaultRec) : s.sameBut (s.queueRecord u r) [.flt] := by
  unfold State.queueRecord
  extract_lets rep s1 src
  (repeat' split) <;> (intro p h; cases p <;> first | rfl | exact absurd List.mem_cons_self h)

theorem State.stopCmd_sameBut (s : State) (id : Nat) (st : Stop) : s.sameBut (s.stopCmd id st) [.cmds] := by
  unfold State.stopCmd
  extract_lets c
  split <;> (intro p h; cases p <;> first | rfl | exact absurd List.mem_cons_self h)

theorem State.askTenantReset_sameBut (s : State) (i : Nat) : s.sameBut (s.askTenantReset i) [.slices, .dev] := by
  unfold State.askTenantReset
  split <;> (intro p h; cases p <;> first | rfl | (exact absurd (by decide) h))

theorem State.escalate_sameBut (s : State) (i code : Nat) (c : Option Nat) :
    s.sameBut (s.escalate i code c).1 [.slices, .cmds, .dev] := by
  unfold State.escalate
  extract_lets v g esc qui s1 s2 s3
  have h1 : s.sameBut s1 [.slices, .cmds, .dev] := by
    simp only [s1]; split
    · exact (s.updSlice_sameBut _ _).mono (by decide)
    · exact s.sameBut_refl _
  have h2 : s.sameBut s2 [.slices, .cmds, .dev] := by
    simp only [s2]; (repeat' split)
    · exact h1.trans ((s1.updCmd_sameBut _ _).mono (by decide))
    · exact h1
    · exact h1
  simp only [s3]; split
  · exact h2.trans ((s2.askTenantReset_sameBut _).mono (by decide))
  · exact h1


theorem State.countFault_sameBut (s : State) (code : Nat) (f : FaultInfo) : s.sameBut (s.countFault code f) [.slices] := by
  unfold State.countFault
  split
  · exact s.updSlice_sameBut _ _
  · exact s.sameBut_refl _

theorem State.maskFault_sameBut (s : State) (code : Nat) (f : FaultInfo) :
    s.sameBut (s.maskFault code f).1 [.slices, .cmds, .dev] := by
  unfold State.maskFault
  split
  · exact s.escalate_sameBut _ _ _
  · exact s.sameBut_refl _

theorem State.endFault_sameBut (s : State) (f : FaultInfo) (st : Stop) : s.sameBut (s.endFault f st) [.cmds] := by
  unfold State.endFault
  (repeat' split) <;> first | exact s.sameBut_refl _ | exact s.stopCmd_sameBut _ _ | exact s.updCmd_sameBut _ _

theorem State.fillBucket_sameBut (s : State) (r : FaultRec) : s.sameBut (s.fillBucket r) [.flt] := by
  unfold State.fillBucket
  dsimp only
  (repeat' split) <;> (intro p h; cases p <;> first | exact absurd List.mem_cons_self h | exact Eq.refl _)

/-- The part of `raise` that counts: the owner's counters move only where the record is one of its own. -/
theorem State.ownCount_sameBut (s : State) (b : Bool) (code : Nat) (f : FaultInfo) :
    s.sameBut (if b then s.countFault code f else s) [.slices] := by
  split
  · exact s.countFault_sameBut _ _
  · exact s.sameBut_refl _

theorem State.raise_sameBut (s : State) (code : Nat) (f : FaultInfo) :
    s.sameBut (s.raise code f) [.slices, .cmds, .flt, .dev] :=
  (((s.ownCount_sameBut _ _ _).mono (by decide)).trans ((State.maskFault_sameBut _ _ _).mono (by decide))).trans
    (((State.queueRecord_sameBut _ _ _).mono (by decide)).trans
      (((State.fillBucket_sameBut _ _).mono (by decide)).trans ((State.endFault_sameBut _ _ _).mono (by decide))))

/-- A slice after a fault: only SLICE_SEQ, the class U count, a move to DRAINING and a held reset can be new. -/
def Slice.faultOnly (v w : Slice) : Prop :=
  { w with sliceSeq := v.sliceSeq, uCount := v.uCount, state := v.state, reset := v.reset } = v

theorem Slice.faultOnly.trans {u v w : Slice} (h : u.faultOnly v) (k : v.faultOnly w) : u.faultOnly w := by
  unfold Slice.faultOnly at *
  rw [← h, ← k]

theorem State.updSlice_faultOnly (s : State) (i j : Nat) (f : Slice → Slice)
    (h : ∀ v, Slice.faultOnly v (f v)) : (s.slice j).faultOnly ((s.updSlice i f).slice j) := by
  rw [State.slice_updSlice]; split
  · subst_vars; exact h _
  · exact rfl

theorem State.askTenantReset_slice (s : State) (i j : Nat) : (s.slice j).faultOnly ((s.askTenantReset i).slice j) := by
  unfold State.askTenantReset; split
  · exact s.updSlice_faultOnly _ _ _ (fun _ => rfl)
  · exact rfl

theorem State.raise_slice (s : State) (code : Nat) (f : FaultInfo) (i : Nat) :
    (s.slice i).faultOnly ((s.raise code f).slice i) := by
  have h1 : ∀ b : Bool, (s.slice i).faultOnly ((if b then s.countFault code f else s).slice i) := by
    intro b; split
    · unfold State.countFault; split
      · exact s.updSlice_faultOnly _ _ _ (fun _ => rfl)
      · exact rfl
    · exact rfl
  have h2 : ∀ t : State, (t.slice i).faultOnly ((t.maskFault code f).1.slice i) := by
    intro t
    unfold State.maskFault; split
    · unfold State.escalate
      extract_lets v g esc qui s1 s2 s3
      have k1 : (t.slice i).faultOnly (s1.slice i) := by
        simp only [s1]; split
        · exact t.updSlice_faultOnly _ _ _ (fun _ => rfl)
        · exact rfl
      have k2 : s2.slice i = s1.slice i := by simp only [s2]; (repeat' split) <;> rfl
      have k3 : (s1.slice i).faultOnly (s3.slice i) := by
        simp only [s3]; split
        · exact k2 ▸ s2.askTenantReset_slice _ _
        · exact rfl
      exact k1.trans k3
    · exact rfl
  have h3 : ∀ (t : State) u r, (t.queueRecord u r).slice i = t.slice i := fun t u r => by
    have := (t.queueRecord_sameBut u r) .slices (by decide)
    simp only [State.slice]; rw [show (t.queueRecord u r).slices = t.slices from this]
  have h4 : ∀ (t : State) u, (t.endFault f u).slice i = t.slice i := fun t u => by
    have := (t.endFault_sameBut f u) .slices (by decide)
    simp only [State.slice]; rw [show (t.endFault f u).slices = t.slices from this]
  have h5 : ∀ (t : State) r, (t.fillBucket r).slice i = t.slice i := fun t r => by
    have := (t.fillBucket_sameBut r) .slices (by decide)
    simp only [State.slice]; rw [show (t.fillBucket r).slices = t.slices from this]
  unfold State.raise
  dsimp only
  rw [h4, h5, h3]
  exact (h1 _).trans (h2 _)

end Sys2Proof.Machine
end

