-- ==== Sys2Proof/Laws/Gangs.lean ====
section
/-! SUPPORT. Issuing an instruction of a running gang, and writing its registers. -/

namespace Sys2Proof.Machine

theorem State.bayCheck_clean {s : State} {id b : Nat} (h : (s.bay b).errs = []) : s.bayCheck id b = s := by
  simp [State.bayCheck, h]

theorem State.injected_idle {s : State} (h : s.flt.inject.armed = false) (c u : Nat) : s.injected c u = (0, s) := by
  simp [State.injected, h]

theorem State.bayWrite_idle {s : State} (h : s.flt.inject.armed = false) (id b : Nat) : s.bayWrite id b = s := by
  simp [State.bayWrite, State.injected_idle h]

theorem State.countInstr_sameBut (s : State) (g : Nat) (lane : Bool) : s.sameBut (s.countInstr g lane) [.tel] := by
  intro p h; cases p <;> first | rfl | exact absurd List.mem_cons_self h

/-- What an instruction of a running gang does: it is counted, has its effect, and writes its bay's arrays. -/
theorem State.issue_writes {s : State} {g : Nat} (h : s.runsGang g) (f : State → State) (lane : Bool) :
    s.issue g f lane = (f (s.countInstr g lane)).bayWrite (s.gang g).cmd (s.gang g).bay := by
  obtain ⟨h1, h2, _⟩ := h
  have h4 : (s.cmd (s.gang g).cmd).stop.isSome = false := by
    simp only [State.issues, Cmd.runs, Bool.and_eq_true, Option.isNone_iff_eq_none] at h1
    simp [h1]
  unfold State.issue State.onBay
  rw [if_pos h1, State.bayCheck_clean (show ((s.countInstr g lane).bay _).errs = [] from h2)]
  dsimp only
  rw [show ((s.countInstr g lane).cmd (s.gang g).cmd).stop.isSome = false from h4]
  rfl

/-- One that reports no fault takes no injection. -/
theorem State.issue_eq {s : State} {g : Nat} (h : s.runsGang g) (f : State → State) {lane : Bool}
    (hf : (f (s.countInstr g lane)).flt = s.flt) : s.issue g f lane = f (s.countInstr g lane) := by
  rw [State.issue_writes h]
  exact State.bayWrite_idle (by rw [hf]; exact h.2.2) _ _

theorem State.issue_not {s : State} {g : Nat} (h : s.issues g = false) (f : State → State) (lane : Bool) :
    s.issue g f lane = s := by
  simp [State.issue, h]

/-- An instruction whose accesses can wait, and that goes through. -/
theorem State.issueMem_eq {s u : State} {g : Nat} (h : s.runsGang g) (f : State → State)
    (hf : (f (s.begun.countInstr g)).bayWrite (s.gang g).cmd (s.gang g).bay = u) (hu : u.uc.held = false) :
    s.issueMem g f = s.ended u :=
  State.settled_ended ((State.issue_writes (show s.begun.runsGang g from h) f false).trans hf) hu

@[simp] theorem State.countInstr_gang (s : State) (g i : Nat) (lane : Bool) : (s.countInstr g lane).gang i = s.gang i := rfl
@[simp] theorem State.countInstr_cmd (s : State) (g i : Nat) (lane : Bool) : (s.countInstr g lane).cmd i = s.cmd i := rfl
@[simp] theorem State.countInstr_bay (s : State) (g i : Nat) (lane : Bool) : (s.countInstr g lane).bay i = s.bay i := rfl
@[simp] theorem State.countInstr_slice (s : State) (g i : Nat) (lane : Bool) : (s.countInstr g lane).slice i = s.slice i := rfl
@[simp] theorem State.countInstr_chan (s : State) (g i : Nat) (lane : Bool) : (s.countInstr g lane).chan i = s.chan i := rfl
@[simp] theorem State.countInstr_port (s : State) (g i : Nat) (lane : Bool) : (s.countInstr g lane).port i = s.port i := rfl
@[simp] theorem State.countInstr_buffer (s : State) (g i : Nat) (lane : Bool) : (s.countInstr g lane).buffer i = s.buffer i := rfl
@[simp] theorem State.countInstr_way (s : State) (g i : Nat) (lane : Bool) : (s.countInstr g lane).way i = s.way i := rfl
@[simp] theorem State.countInstr_flt (s : State) (g : Nat) (lane : Bool) : (s.countInstr g lane).flt = s.flt := rfl

theorem State.updGang_sameBut (s : State) (i : Nat) (f : Gang → Gang) : s.sameBut (s.updGang i f) [.gangs] := by
  intro p h; cases p <;> first | rfl | exact absurd List.mem_cons_self h
theorem State.updBay_sameBut (s : State) (i : Nat) (f : Bay → Bay) : s.sameBut (s.updBay i f) [.bays] := by
  intro p h; cases p <;> first | rfl | exact absurd List.mem_cons_self h

theorem State.setReg_gang (s : State) (g l r : Nat) (x : W32) (k : Nat) :
    (s.setReg g l r x).gang k = if k = g ∧ r < laRegs (s.cmd (s.gang g).cmd).block
      then { s.gang g with regs := Tbl.set 0 (s.gang g).regs (256 * l + r) x } else s.gang k := by
  unfold State.setReg
  split
  · rw [State.gang_updGang]; split <;> simp_all
  · rename_i h; rw [if_neg fun e => h e.2]

theorem State.setReg_sameBut (s : State) (g l r : Nat) (x : W32) : s.sameBut (s.setReg g l r x) [.gangs] := by
  unfold State.setReg
  split
  · exact s.updGang_sameBut _ _
  · exact s.sameBut_refl _

theorem State.onlyRegs.trans {s t u : State} {g : Nat} (h : s.onlyRegs t g) (k : t.onlyRegs u g) : s.onlyRegs u g := by
  refine ⟨h.1.trans k.1, ?_, fun i hi => (k.2.2 i hi).trans (h.2.2 i hi)⟩
  have := h.2.1; rw [k.2.1]; rw [this]
theorem State.setReg_onlyRegs (s : State) (g l r : Nat) (x : W32) : s.onlyRegs (s.setReg g l r x) g := by
  refine ⟨(s.setReg_sameBut _ _ _ _).mono (by decide), ?_, fun k hk => ?_⟩
  · rw [State.setReg_gang]; split <;> simp
  · rw [State.setReg_gang, if_neg (by simp [hk])]
theorem State.setReg_reg (s : State) (g l r : Nat) (x : W32) (hr : r < laRegs (s.cmd (s.gang g).cmd).block)
    (h2 : r < 256) (m q : Nat) (hq : q < 256) :
    ((s.setReg g l r x).gang g).reg m q = if m = l ∧ q = r then x else (s.gang g).reg m q := by
  rw [State.setReg_gang, if_pos ⟨rfl, hr⟩]
  simp only [Gang.reg, Tbl.get_set]
  by_cases h : m = l ∧ q = r
  · simp [h]
  · rw [if_neg h, if_neg (by omega)]

end Sys2Proof.Machine
end

