-- ==== Sys2Proof/Laws/Kept.lean ====
section
/-! SUPPORT. The part of a state that only a few commands change, and its plain laws. -/

namespace Sys2Proof.Machine


/-- What only a few commands change: the waiting commands, the fuses, the power limits, the throttle temperature and level,
and the straps. -/
structure Kept where
  pending : List Instr
  keys : Tbl Nat
  revoked : Nat
  floor : Nat
  repairs : Tbl (List W64)
  mgrLimit : Nat
  plinthLimit : Nat
  tjThrottle : Nat
  level : Nat
  pkgId : BitVec 4
  traySel : Bool
deriving DecidableEq, Repr

/-- That part of a state. -/
def State.kept (s : State) : Kept :=
  ⟨s.pending, s.nv.keys, s.nv.revoked, s.nv.floor, s.nv.repairs, s.plb.mgrLimit, s.plb.plinthLimit, s.plb.tjThrottle, s.plb.level, s.pins.pkgId, s.pins.traySel⟩

theorem kept_mk (a b c d e f g h i j k l m n o p q r t u v w x y z) :
  (State.mk a b c d e f g h i j k l m n o p q r t u v w x y z).kept = ⟨a, e.keys, e.revoked, e.floor, e.repairs, y.mgrLimit, y.plinthLimit, y.tjThrottle, y.level, d.pkgId, d.traySel⟩ := rfl

theorem kept_eta (s : State) : Kept.mk s.pending s.nv.keys s.nv.revoked s.nv.floor s.nv.repairs s.plb.mgrLimit s.plb.plinthLimit s.plb.tjThrottle s.plb.level s.pins.pkgId s.pins.traySel = s.kept := rfl

theorem kept_ite {c} [Decidable c] (a b : State) : (if c then a else b).kept = if c then a.kept else b.kept := by split <;> rfl

theorem foldl_kept {α} (f : State → α → State) (h : ∀ s a, (f s a).kept = s.kept) (l : List α) (s : State) : (l.foldl f s).kept = s.kept := by
  induction l generalizing s with
  | nil => rfl
  | cons a t ih => simp only [List.foldl, ih, h]

theorem foldl_kept1 {α β} (f : State × β → α → State × β) (h : ∀ s a, (f s a).1.kept = s.1.kept) (l : List α) (s : State × β) : (l.foldl f s).1.kept = s.1.kept := by
  induction l generalizing s with
  | nil => rfl
  | cons a t ih => simp only [List.foldl, ih, h]

theorem foldl_kept2 {α β} (f : β × State → α → β × State) (h : ∀ s a, (f s a).2.kept = s.2.kept) (l : List α) (s : β × State) : (l.foldl f s).2.kept = s.2.kept := by
  induction l generalizing s with
  | nil => rfl
  | cons a t ih => simp only [List.foldl, ih, h]

end Sys2Proof.Machine
end

