-- ==== Sys2Proof/Laws/KeptA.lean ====
section
/-! SUPPORT. What the operations leave of the part of a state that Laws/Kept.lean names: all of it, part 1 of 3. -/

namespace Sys2Proof.Machine

set_option linter.unusedSimpArgs false
set_option linter.unusedVariables false

theorem State.setCmd_kept (a0 a1 a2) : (State.setCmd a0 a1 a2).kept = a0.kept := by
  simp only [State.setCmd, kept_mk, kept_eta]

theorem State.stopCmd_kept (a0 a1 a2) : (State.stopCmd a0 a1 a2).kept = a0.kept := by
  simp only [State.stopCmd, kept_ite, ite_self, State.setCmd_kept]

theorem State.abortBay_kept (a0 a1 a2 a3) : (State.abortBay a0 a1 a2 a3).kept = a0.kept := by
  simp only [State.abortBay, kept_mk, kept_eta, foldl_kept, implies_true, State.stopCmd_kept]

theorem State.setCap_kept (a0 a1 a2) : (State.setCap a0 a1 a2).kept = a0.kept := by
  simp only [State.setCap, kept_mk, kept_eta]

theorem State.dropCap_kept (a0 a1 a2) : (State.dropCap a0 a1 a2).kept = a0.kept := by
  simp only [State.dropCap] <;> (repeat' split) <;> (rfl)

theorem State.endCap_kept (a0 a1) : (State.endCap a0 a1).kept = a0.kept := by
  simp only [State.endCap] <;> (repeat' split) <;> (simp only [State.dropCap_kept])

theorem State.abortCapstones_kept (a0 a1 a2 a3) : (State.abortCapstones a0 a1 a2 a3).kept = a0.kept := by
  simp only [State.abortCapstones, foldl_kept, implies_true, State.endCap_kept, State.stopCmd_kept]

theorem State.setPort_kept (a0 a1 a2) : (State.setPort a0 a1 a2).kept = a0.kept := by
  simp only [State.setPort, kept_mk, kept_eta]

theorem State.updPort_kept (a0 a1 a2) : (State.updPort a0 a1 a2).kept = a0.kept := by
  simp only [State.updPort, State.setPort_kept]

theorem State.injected_kept (a0 a1 a2) : (State.injected a0 a1 a2).2.kept = a0.kept := by
  simp only [State.injected, kept_mk, kept_eta, kept_ite, ite_self, apply_ite Prod.snd]

theorem State.putFlit_kept (a0 a1 a2 a3 a4 a5) : (State.putFlit a0 a1 a2 a3 a4 a5).kept = a0.kept := by
  simp only [State.putFlit, kept_ite, ite_self, apply_ite Prod.snd, State.injected_kept, State.updPort_kept]

theorem pumpFlits_kept (a0 a1 a2) : (pumpFlits a0 a1 a2).kept = a2.kept := by
  induction a1 generalizing a2 with
  | zero => simp only [pumpFlits]
  | succ k ih => simp only [pumpFlits, State.updPort_kept, State.putFlit_kept, ih] <;> (repeat' split) <;> (simp only [State.updPort_kept, State.putFlit_kept, ih])

theorem State.pump_kept (a0 a1) : (State.pump a0 a1).kept = a0.kept := by
  simp only [State.pump, kept_ite, ite_self, pumpFlits_kept]

theorem State.sendMsg_kept (a0 a1 a2 a3 a4 a5) : (State.sendMsg a0 a1 a2 a3 a4 a5).kept = a0.kept := by
  simp only [State.sendMsg, State.updPort_kept, State.pump_kept]

theorem State.setBuffer_kept (a0 a1 a2) : (State.setBuffer a0 a1 a2).kept = a0.kept := by
  simp only [State.setBuffer, kept_mk, kept_eta]

theorem State.freeBuffer_kept (a0 a1) : (State.freeBuffer a0 a1).kept = a0.kept := by
  simp only [State.freeBuffer, State.setBuffer_kept]

theorem State.countBroken_kept (a0) : (State.countBroken a0).kept = a0.kept := by
  simp only [State.countBroken, kept_mk, kept_eta]

theorem State.control_kept (a0 a1 a2 a3) : (State.control a0 a1 a2 a3).kept = a0.kept := by
  simp only [State.control, kept_mk, kept_eta]

theorem State.signalUnits_kept (a0 a1 a2 a3) : (State.signalUnits a0 a1 a2 a3).kept = a0.kept := by
  simp only [State.signalUnits, State.control_kept]

theorem State.setBay_kept (a0 a1 a2) : (State.setBay a0 a1 a2).kept = a0.kept := by
  simp only [State.setBay, kept_mk, kept_eta]

theorem State.updBay_kept (a0 a1 a2) : (State.updBay a0 a1 a2).kept = a0.kept := by
  simp only [State.updBay, State.setBay_kept]

theorem State.setChan_kept (a0 a1 a2) : (State.setChan a0 a1 a2).kept = a0.kept := by
  simp only [State.setChan, kept_mk, kept_eta]

theorem State.updChan_kept (a0 a1 a2) : (State.updChan a0 a1 a2).kept = a0.kept := by
  simp only [State.updChan, State.setChan_kept]

theorem State.bumpEpoch_kept (a0 a1) : (State.bumpEpoch a0 a1).kept = a0.kept := by
  simp only [State.bumpEpoch] <;> (repeat' split) <;> (rfl)

theorem State.closeShield_kept (a0 a1 a2 a3) : (State.closeShield a0 a1 a2 a3).kept = a0.kept := by
  simp only [State.closeShield, kept_mk, kept_eta, kept_ite, foldl_kept, ite_self, implies_true, State.signalUnits_kept, State.bumpEpoch_kept, State.stopCmd_kept]

theorem State.remaster_kept (a0) : (State.remaster a0).kept = a0.kept := by
  simp only [State.remaster, kept_mk, kept_eta, kept_ite, ite_self]

theorem State.cutPort_kept (a0 a1) : (State.cutPort a0 a1).kept = a0.kept := by
  simp only [State.cutPort, kept_mk, kept_eta, State.closeShield_kept, State.updPort_kept, State.remaster_kept]

theorem State.settlePort_kept (a0 a1) : (State.settlePort a0 a1).kept = a0.kept := by
  simp only [State.settlePort, kept_ite, ite_self, State.cutPort_kept]

theorem State.delIn_kept (a0 a1 a2) : (State.delIn a0 a1 a2).kept = a0.kept := by
  simp only [State.delIn, kept_mk, kept_eta, State.settlePort_kept]

theorem State.breakIn_kept (a0 a1 a2) : (State.breakIn a0 a1 a2).kept = a0.kept := by
  simp only [State.breakIn, State.freeBuffer_kept, State.countBroken_kept, State.delIn_kept] <;> (repeat' split) <;> (simp only [State.freeBuffer_kept, State.countBroken_kept, State.delIn_kept])

theorem State.abortIn_kept (a0 a1 a2 a3) : (State.abortIn a0 a1 a2 a3).kept = a0.kept := by
  simp only [State.abortIn, State.sendMsg_kept, State.breakIn_kept]

theorem State.delOut_kept (a0 a1 a2) : (State.delOut a0 a1 a2).kept = a0.kept := by
  simp only [State.delOut, kept_mk, kept_eta, State.settlePort_kept]

theorem State.breakOut_kept (a0 a1 a2 a3) : (State.breakOut a0 a1 a2 a3).kept = a0.kept := by
  simp only [State.breakOut, State.countBroken_kept, State.delOut_kept, State.stopCmd_kept] <;> (repeat' split) <;> (simp only [State.countBroken_kept, State.delOut_kept, State.stopCmd_kept])

theorem State.abortOut_kept (a0 a1 a2 a3) : (State.abortOut a0 a1 a2 a3).kept = a0.kept := by
  simp only [State.abortOut, State.sendMsg_kept, State.breakOut_kept]

theorem State.abortSends_kept (a0 a1 a2) : (State.abortSends a0 a1 a2).kept = a0.kept := by
  simp only [State.abortSends, foldl_kept, implies_true, State.abortOut_kept]

theorem State.drawResult_kept (a0) : (State.drawResult a0).2.kept = a0.kept := by
  simp only [State.drawResult, kept_mk, kept_eta]

theorem State.setSlice_kept (a0 a1 a2) : (State.setSlice a0 a1 a2).kept = a0.kept := by
  simp only [State.setSlice, kept_mk, kept_eta]

theorem State.updSlice_kept (a0 a1 a2) : (State.updSlice a0 a1 a2).kept = a0.kept := by
  simp only [State.updSlice, State.setSlice_kept]

theorem State.count_kept (a0 a1 a2 a3) : (State.count a0 a1 a2 a3).kept = a0.kept := by
  simp only [State.count, State.updSlice_kept]

theorem State.countOutcome_kept (a0 a1 a2) : (State.countOutcome a0 a1 a2).kept = a0.kept := by
  simp only [State.countOutcome, kept_ite, ite_self, State.count_kept]

theorem State.updCq_kept (a0 a1 a2 a3) : (State.updCq a0 a1 a2 a3).kept = a0.kept := by
  simp only [State.updCq, State.updSlice_kept]

theorem State.updSq_kept (a0 a1 a2 a3) : (State.updSq a0 a1 a2 a3).kept = a0.kept := by
  simp only [State.updSq, State.updSlice_kept]

theorem State.freePlace_kept (a0 a1) : (State.freePlace a0 a1).kept = a0.kept := by
  simp only [State.freePlace, kept_mk, kept_eta, State.updSq_kept]

theorem State.abortUndispatched_kept (a0 a1) : (State.abortUndispatched a0 a1).kept = a0.kept := by
  simp only [State.abortUndispatched, kept_ite, ite_self, State.drawResult_kept, State.countOutcome_kept, State.updCq_kept, State.updSlice_kept, State.freePlace_kept]

theorem State.updCmd_kept (a0 a1 a2) : (State.updCmd a0 a1 a2).kept = a0.kept := by
  simp only [State.updCmd, State.setCmd_kept]

theorem State.askTenantReset_kept (a0 a1) : (State.askTenantReset a0 a1).kept = a0.kept := by
  simp only [State.askTenantReset, kept_mk, kept_eta, kept_ite, ite_self, State.updSlice_kept]

theorem State.escalate_kept (a0 a1 a2 a3) : (State.escalate a0 a1 a2 a3).1.kept = a0.kept := by
  simp only [State.escalate, kept_ite, State.askTenantReset_kept] <;> (repeat' split) <;> (rfl)

theorem State.maskFault_kept (a0 a1 a2) : (State.maskFault a0 a1 a2).1.kept = a0.kept := by
  simp only [State.maskFault, kept_mk, kept_eta, kept_ite, foldl_kept, foldl_kept1, foldl_kept2, ite_self, apply_ite Prod.fst, apply_ite Prod.snd, implies_true, State.escalate_kept] <;> (repeat' split) <;> (first | rfl | simp only [kept_mk, kept_eta, kept_ite, foldl_kept, foldl_kept1, foldl_kept2, ite_self, apply_ite Prod.fst, apply_ite Prod.snd, implies_true, State.escalate_kept])

theorem State.countFault_kept (a0 a1 a2) : (State.countFault a0 a1 a2).kept = a0.kept := by
  simp only [State.countFault, kept_mk, kept_eta, kept_ite, foldl_kept, foldl_kept1, foldl_kept2, ite_self, apply_ite Prod.fst, apply_ite Prod.snd, implies_true, State.updSlice_kept] <;> (repeat' split) <;> (first | rfl | simp only [kept_mk, kept_eta, kept_ite, foldl_kept, foldl_kept1, foldl_kept2, ite_self, apply_ite Prod.fst, apply_ite Prod.snd, implies_true, State.updSlice_kept])

theorem State.endFault_kept (a0 a1 a2) : (State.endFault a0 a1 a2).kept = a0.kept := by
  simp only [State.endFault, kept_mk, kept_eta, kept_ite, foldl_kept, foldl_kept1, foldl_kept2, ite_self, apply_ite Prod.fst, apply_ite Prod.snd, implies_true, State.stopCmd_kept, State.updCmd_kept] <;> (repeat' split) <;> (first | rfl | simp only [kept_mk, kept_eta, kept_ite, foldl_kept, foldl_kept1, foldl_kept2, ite_self, apply_ite Prod.fst, apply_ite Prod.snd, implies_true, State.stopCmd_kept, State.updCmd_kept])

theorem State.hostWrite_kept (a0 a1 a2 a3) : (State.hostWrite a0 a1 a2 a3).kept = a0.kept := by
  simp only [State.hostWrite, kept_mk, kept_eta]

theorem State.postLog_kept (a0 a1 a2) : (State.postLog a0 a1 a2).kept = a0.kept := by
  simp only [State.postLog, kept_mk, kept_eta, kept_ite, ite_self, State.hostWrite_kept, State.updSlice_kept]

theorem State.logCourse_kept (a0 a1 a2 a3 a4) : (State.logCourse a0 a1 a2 a3 a4).kept = a0.kept := by
  simp only [State.logCourse, kept_mk, kept_eta, kept_ite, ite_self, State.postLog_kept]

theorem State.logHost_kept (a0 a1 a2 a3 a4) : (State.logHost a0 a1 a2 a3 a4).kept = a0.kept := by
  simp only [State.logHost, State.logCourse_kept]

theorem State.tenantHostWrite_kept (a0 a1 a2 a3 a4 a5) : (State.tenantHostWrite a0 a1 a2 a3 a4 a5).kept = a0.kept := by
  simp only [State.tenantHostWrite, foldl_kept, implies_true, State.hostWrite_kept, State.count_kept, State.logHost_kept]

theorem State.postTenant_kept (a0 a1 a2 a3 a4) : (State.postTenant a0 a1 a2 a3 a4).1.kept = a0.kept := by
  simp only [State.postTenant, kept_ite, ite_self, State.tenantHostWrite_kept]

theorem State.tenantCopyPost_kept (a0 a1) : (State.tenantCopyPost a0 a1).1.kept = a0.kept := by
  simp only [State.tenantCopyPost, kept_mk, kept_eta, State.updSlice_kept, State.postTenant_kept] <;> (repeat' split) <;> (simp only [kept_mk, kept_eta, State.updSlice_kept, State.postTenant_kept])

theorem State.drawAck_kept (a0) : (State.drawAck a0).2.kept = a0.kept := by
  simp only [State.drawAck, kept_mk, kept_eta]

theorem State.signal_kept (a0) : (State.signal a0).kept = a0.kept := by
  simp only [State.signal, kept_mk, kept_eta, kept_ite, ite_self, State.drawAck_kept]

theorem State.assignSeq_kept (a0 a1) : (State.assignSeq a0 a1).kept = a0.kept := by
  simp only [State.assignSeq, kept_mk, kept_eta, kept_ite, ite_self, State.tenantCopyPost_kept, State.signal_kept]

theorem State.fillBucket_kept (a0 a1) : (State.fillBucket a0 a1).kept = a0.kept := by
  simp only [State.fillBucket, kept_mk, kept_eta, kept_ite, ite_self, State.assignSeq_kept]

theorem State.updReporter_kept (a0 a1 a2) : (State.updReporter a0 a1 a2).kept = a0.kept := by
  simp only [State.updReporter, kept_mk, kept_eta]

theorem State.queueRecord_kept (a0 a1 a2) : (State.queueRecord a0 a1 a2).kept = a0.kept := by
  simp only [State.queueRecord] <;> (repeat' split) <;> (rfl)

theorem State.raise_kept (a0 a1 a2) : (State.raise a0 a1 a2).kept = a0.kept := by
  simp only [State.raise, kept_ite, ite_self, State.maskFault_kept, State.countFault_kept, State.endFault_kept, State.fillBucket_kept, State.queueRecord_kept]

theorem State.malformed_kept (a0 a1 a2) : (State.malformed a0 a1 a2).kept = a0.kept := by
  simp only [State.malformed, kept_mk, kept_eta, State.raise_kept]

theorem State.countRefused_kept (a0 a1 a2) : (State.countRefused a0 a1 a2).kept = a0.kept := by
  simp only [State.countRefused, kept_mk, kept_eta, kept_ite, ite_self, State.updSlice_kept]

theorem State.allocBuffer_kept (a0 a1 a2) : (State.allocBuffer a0 a1 a2).kept = a0.kept := by
  simp only [State.allocBuffer, State.setBuffer_kept]

theorem State.setIn_kept (a0 a1 a2 a3) : (State.setIn a0 a1 a2 a3).kept = a0.kept := by
  simp only [State.setIn, kept_mk, kept_eta]

theorem State.rxOpen_kept (a0 a1 a2 a3) : (State.rxOpen a0 a1 a2 a3).kept = a0.kept := by
  simp only [State.rxOpen, State.sendMsg_kept, State.countRefused_kept, State.allocBuffer_kept, State.setIn_kept] <;> (repeat' split) <;> (simp only [State.sendMsg_kept, State.countRefused_kept, State.allocBuffer_kept, State.setIn_kept])

theorem State.setOut_kept (a0 a1 a2 a3) : (State.setOut a0 a1 a2 a3).kept = a0.kept := by
  simp only [State.setOut, kept_mk, kept_eta]

theorem State.rxOpenAck_kept (a0 a1 a2) : (State.rxOpenAck a0 a1 a2).kept = a0.kept := by
  simp only [State.rxOpenAck] <;> (repeat' split) <;> (rfl)

theorem State.resultOr_kept (a0 a1) : (State.resultOr a0 a1).2.kept = a0.kept := by
  simp only [State.resultOr] <;> (repeat' split) <;> (rfl)

theorem State.updHandle_kept (a0 a1 a2 a3) : (State.updHandle a0 a1 a2 a3).kept = a0.kept := by
  simp only [State.updHandle, State.updSlice_kept]

theorem State.waitRecord_kept (a0 a1 a2 a3) : (State.waitRecord a0 a1 a2 a3).kept = a0.kept := by
  simp only [State.waitRecord, State.updCq_kept]

theorem State.retireHandle_kept (a0 a1 a2) : (State.retireHandle a0 a1 a2).kept = a0.kept := by
  simp only [State.retireHandle, kept_mk, kept_eta, kept_ite, ite_self, State.updHandle_kept, State.waitRecord_kept]

theorem State.releaseRefs_kept (a0 a1) : (State.releaseRefs a0 a1).kept = a0.kept := by
  simp only [State.releaseRefs, foldl_kept, implies_true, State.retireHandle_kept, State.updHandle_kept, State.updCmd_kept]

theorem State.orphan_kept (a0 a1) : (State.orphan a0 a1).kept = a0.kept := by
  simp only [State.orphan, kept_mk, kept_eta]

theorem State.cutBay_kept (a0 a1) : (State.cutBay a0 a1).kept = a0.kept := by
  simp only [State.cutBay, kept_mk, kept_eta, State.bumpEpoch_kept, State.updBay_kept]

theorem State.unholdBay_kept (a0 a1) : (State.unholdBay a0 a1).kept = a0.kept := by
  simp only [State.unholdBay, kept_ite, ite_self, State.updBay_kept, State.cutBay_kept]

theorem State.leaveBay_kept (a0 a1 a2) : (State.leaveBay a0 a1 a2).kept = a0.kept := by
  simp only [State.leaveBay, State.updBay_kept, State.unholdBay_kept]

theorem State.leaveEngines_kept (a0 a1) : (State.leaveEngines a0 a1).kept = a0.kept := by
  simp only [State.leaveEngines, kept_mk, kept_eta, foldl_kept, implies_true, State.orphan_kept, State.leaveBay_kept]

theorem State.finishUndispatched_kept (a0 a1 a2 a3 a4 a5 a6) : (State.finishUndispatched a0 a1 a2 a3 a4 a5 a6).kept = a0.kept := by
  simp only [State.finishUndispatched, State.resultOr_kept, State.countOutcome_kept, State.setCmd_kept, State.waitRecord_kept]

theorem resolveWindow_kept (a0 a1 a2) : (resolveWindow a0 a1 a2).kept = a2.kept := by
  induction a0 generalizing a1 a2 with
  | nil => simp only [resolveWindow]
  | cons x t ih => simp only [resolveWindow, State.setCmd_kept, State.finishUndispatched_kept, ih] <;> (repeat' split) <;> (simp only [State.setCmd_kept, State.finishUndispatched_kept, ih])

theorem State.resolveEarlier_kept (a0 a1 a2 a3 a4) : (State.resolveEarlier a0 a1 a2 a3 a4).kept = a0.kept := by
  simp only [State.resolveEarlier, resolveWindow_kept]

theorem State.completeWith_kept (a0 a1 a2 a3 a4) : (State.completeWith a0 a1 a2 a3 a4).kept = a0.kept := by
  simp only [State.completeWith, kept_mk, kept_eta, kept_ite, ite_self, State.resultOr_kept, State.updCq_kept, State.countOutcome_kept, State.count_kept, State.releaseRefs_kept, State.leaveEngines_kept, State.resolveEarlier_kept]

theorem State.refuseSend_kept (a0 a1 a2) : (State.refuseSend a0 a1 a2).kept = a0.kept := by
  simp only [State.refuseSend, State.completeWith_kept]

theorem State.rxRefuse_kept (a0 a1 a2 a3) : (State.rxRefuse a0 a1 a2 a3).kept = a0.kept := by
  unfold State.rxRefuse <;> split <;> (try simp only [kept_ite, State.refuseSend_kept, State.delOut_kept]) <;> (repeat' split) <;> (rfl)

theorem State.event_kept (a0 a1 a2 a3 a4) : (State.event a0 a1 a2 a3 a4).kept = a0.kept := by
  simp only [State.event, kept_mk, kept_eta]

theorem State.countSweld_kept (a0 a1 a2 a3 a4) : (State.countSweld a0 a1 a2 a3 a4).kept = a0.kept := by
  simp only [State.countSweld, State.event_kept, State.count_kept]

theorem State.updBridge_kept (a0 a1 a2) : (State.updBridge a0 a1 a2).kept = a0.kept := by
  simp only [State.updBridge, kept_mk, kept_eta]

theorem State.updFlow_kept (a0 a1 a2) : (State.updFlow a0 a1 a2).kept = a0.kept := by
  simp only [State.updFlow, kept_mk, kept_eta]

theorem State.carry_kept (a0 a1 a2 a3) : (State.carry a0 a1 a2 a3).kept = a0.kept := by
  simp only [State.carry, kept_mk, kept_eta, foldl_kept, implies_true, State.updBridge_kept, State.event_kept, State.updFlow_kept] <;> (repeat' split) <;> (simp only [kept_mk, kept_eta, foldl_kept, implies_true, State.updBridge_kept, State.event_kept, State.updFlow_kept])

theorem State.drawChoice_kept (a0 a1) : (State.drawChoice a0 a1).2.kept = a0.kept := by
  simp only [State.drawChoice, kept_mk, kept_eta]

theorem State.bulk_kept (a0 a1 a2 a3 a4) : (State.bulk a0 a1 a2 a3 a4).kept = a0.kept := by
  simp only [State.bulk, kept_ite, ite_self, State.carry_kept, State.drawChoice_kept]

theorem State.setUnitState_kept (a0 a1 a2) : (State.setUnitState a0 a1 a2).kept = a0.kept := by
  simp only [State.setUnitState] <;> (repeat' split) <;> (rfl)

theorem State.offline_kept (a0 a1) : (State.offline a0 a1).kept = a0.kept := by
  simp only [State.offline, kept_mk, kept_eta, State.abortBay_kept, State.closeShield_kept, State.updBay_kept, State.setUnitState_kept, State.updPort_kept] <;> (repeat' split) <;> (simp only [kept_mk, kept_eta, State.abortBay_kept, State.closeShield_kept, State.updBay_kept, State.setUnitState_kept, State.updPort_kept])

theorem State.stopDie_kept (a0 a1) : (State.stopDie a0 a1).kept = a0.kept := by
  simp only [State.stopDie, kept_mk, kept_eta, foldl_kept, implies_true, State.offline_kept]

theorem State.dieStop_kept (a0 a1 a2) : (State.dieStop a0 a1 a2).kept = a0.kept := by
  simp only [State.dieStop, State.raise_kept, State.stopDie_kept]

theorem State.lostTags_kept (a0 a1 a2) : (State.lostTags a0 a1 a2).kept = a0.kept := by
  simp only [State.lostTags, kept_mk, kept_eta, State.dieStop_kept]

theorem State.cacheCorrected_kept (a0 a1 a2) : (State.cacheCorrected a0 a1 a2).kept = a0.kept := by
  simp only [State.cacheCorrected, kept_mk, kept_eta, State.raise_kept]

theorem State.setWay_kept (a0 a1 a2) : (State.setWay a0 a1 a2).kept = a0.kept := by
  simp only [State.setWay, kept_mk, kept_eta]

theorem State.updWay_kept (a0 a1 a2 a3 a4) : (State.updWay a0 a1 a2 a3 a4).kept = a0.kept := by
  simp only [State.updWay, State.setWay_kept]

theorem State.checkTags_kept (a0 a1 a2) : (State.checkTags a0 a1 a2).kept = a0.kept := by
  simp only [State.checkTags, kept_ite, foldl_kept, ite_self, implies_true, State.lostTags_kept, State.cacheCorrected_kept, State.updWay_kept]

theorem State.holdAt_kept (a0 a1) : (State.holdAt a0 a1).kept = a0.kept := by
  simp only [State.holdAt, kept_mk, kept_eta, kept_ite, ite_self]

theorem State.dramTraffic_kept (a0 a1 a2 a3 a4) : (State.dramTraffic a0 a1 a2 a3 a4).kept = a0.kept := by
  simp only [State.dramTraffic, State.holdAt_kept, State.count_kept, State.event_kept] <;> (repeat' split) <;> (simp only [State.holdAt_kept, State.count_kept, State.event_kept])

theorem State.mapRoom_kept (a0 a1 a2) : (State.mapRoom a0 a1 a2).kept = a0.kept := by
  simp only [State.mapRoom, kept_mk, kept_eta, kept_ite, ite_self, State.drawChoice_kept]

theorem State.cacheMap_kept (a0 a1 a2 a3) : (State.cacheMap a0 a1 a2 a3).kept = a0.kept := by
  simp only [State.cacheMap, kept_mk, kept_eta, State.mapRoom_kept]

theorem State.queueRow_kept (a0 a1 a2) : (State.queueRow a0 a1 a2).kept = a0.kept := by
  simp only [State.queueRow, State.updChan_kept]

theorem State.autoRepair_kept (a0 a1 a2) : (State.autoRepair a0 a1 a2).kept = a0.kept := by
  simp only [State.autoRepair, kept_mk, kept_eta, kept_ite, ite_self, State.raise_kept]

theorem State.killPin_kept (a0 a1 a2) : (State.killPin a0 a1 a2).kept = a0.kept := by
  simp only [State.killPin, State.offline_kept, State.raise_kept, State.updChan_kept, State.autoRepair_kept] <;> (repeat' split) <;> (simp only [State.offline_kept, State.raise_kept, State.updChan_kept, State.autoRepair_kept])

theorem State.noteCorrected_kept (a0 a1 a2 a3) : (State.noteCorrected a0 a1 a2 a3).kept = a0.kept := by
  simp only [State.noteCorrected, kept_ite, foldl_kept, ite_self, implies_true, State.raise_kept, State.updChan_kept, State.queueRow_kept, State.killPin_kept]

theorem State.dramStore_kept (a0 a1 a2) : (State.dramStore a0 a1 a2).kept = a0.kept := by
  simp only [State.dramStore, kept_mk, kept_eta]

theorem State.storeWord_kept (a0 a1 a2 a3 a4) : (State.storeWord a0 a1 a2 a3 a4).kept = a0.kept := by
  simp only [State.storeWord, State.dramStore_kept]

theorem State.writeCoded_kept (a0 a1 a2 a3 a4) : (State.writeCoded a0 a1 a2 a3 a4).kept = a0.kept := by
  simp only [State.writeCoded, State.injected_kept, State.dramTraffic_kept, State.storeWord_kept]

theorem State.writeMap_kept (a0 a1 a2 a3) : (State.writeMap a0 a1 a2 a3).kept = a0.kept := by
  simp only [State.writeMap, State.cacheMap_kept, State.writeCoded_kept]

theorem State.noteBad_kept (a0 a1 a2) : (State.noteBad a0 a1 a2).kept = a0.kept := by
  simp only [State.noteBad, State.queueRow_kept, State.updChan_kept]

theorem State.mapLost_kept (a0 a1 a2) : (State.mapLost a0 a1 a2).kept = a0.kept := by
  simp only [State.mapLost, foldl_kept, implies_true, State.writeMap_kept, State.noteBad_kept, State.raise_kept]

theorem State.mapRead_kept (a0 a1 a2) : (State.mapRead a0 a1 a2).1.kept = a0.kept := by
  simp only [State.mapRead, State.dramTraffic_kept, State.cacheMap_kept, State.noteCorrected_kept, State.mapLost_kept] <;> (repeat' split) <;> (simp only [State.dramTraffic_kept, State.cacheMap_kept, State.noteCorrected_kept, State.mapLost_kept])

theorem State.mapCheck_kept (a0 a1 a2) : (State.mapCheck a0 a1 a2).1.kept = a0.kept := by
  simp only [State.mapCheck, kept_ite, ite_self, apply_ite Prod.fst, State.mapRead_kept]

theorem State.setMapEntry_kept (a0 a1 a2 a3) : (State.setMapEntry a0 a1 a2 a3).kept = a0.kept := by
  simp only [State.setMapEntry, kept_ite, ite_self, State.mapCheck_kept, State.writeMap_kept]

theorem State.setLineState_kept (a0 a1 a2 a3) : (State.setLineState a0 a1 a2 a3).kept = a0.kept := by
  simp only [State.setLineState, State.mapCheck_kept, State.setMapEntry_kept]

theorem State.poisonLine_kept (a0 a1 a2 a3 a4) : (State.poisonLine a0 a1 a2 a3 a4).kept = a0.kept := by
  simp only [State.poisonLine, State.setLineState_kept, State.raise_kept]

theorem State.decodeLine_kept (a0 a1 a2 a3 a4) : (State.decodeLine a0 a1 a2 a3 a4).1.kept = a0.kept := by
  simp only [State.decodeLine, State.dramTraffic_kept, State.noteCorrected_kept, State.poisonLine_kept, State.noteBad_kept] <;> (repeat' split) <;> (simp only [State.dramTraffic_kept, State.noteCorrected_kept, State.poisonLine_kept, State.noteBad_kept]; done)

theorem State.chanRead_kept (a0 a1 a2 a3) : (State.chanRead a0 a1 a2 a3).1.kept = a0.kept := by
  simp only [State.chanRead] <;> (repeat' split) <;> (simp only [State.decodeLine_kept])

theorem State.lineFetch_kept (a0 a1 a2 a3) : (State.lineFetch a0 a1 a2 a3).1.kept = a0.kept := by
  simp only [State.lineFetch, State.mapCheck_kept, State.chanRead_kept] <;> (repeat' split) <;> (first | with_reducible rfl | (rename_i h1; cases congrArg Prod.fst h1; (simp only [State.mapCheck_kept, State.chanRead_kept]; done)))

theorem State.countSectors_kept (a0 a1 a2 a3 a4) : (State.countSectors a0 a1 a2 a3 a4).kept = a0.kept := by
  simp only [State.countSectors, State.count_kept, State.event_kept]

theorem State.writeBase_kept (a0 a1 a2 a3 a4 a5 a6 a7 a8) : (State.writeBase a0 a1 a2 a3 a4 a5 a6 a7 a8).1.kept = a0.kept := by
  unfold State.writeBase <;> (repeat' split) <;> (first | with_reducible rfl | (rename_i h1; cases congrArg Prod.fst h1; (simp only [State.lineFetch_kept, State.countSectors_kept]; done)))

theorem State.mapAges_kept (a0 a1 a2 a3) : (State.mapAges a0 a1 a2 a3).kept = a0.kept := by
  simp only [State.mapAges, kept_ite, foldl_kept, ite_self, implies_true, State.updWay_kept]

theorem State.dropWay_kept (a0 a1 a2 a3) : (State.dropWay a0 a1 a2 a3).kept = a0.kept := by
  simp only [State.dropWay, State.mapAges_kept, State.setWay_kept]

theorem State.dropReplica_kept (a0 a1 a2) : (State.dropReplica a0 a1 a2).kept = a0.kept := by
  unfold State.dropReplica <;> split <;> (try simp only [State.dropWay_kept]) <;> (repeat' split) <;> (rfl)

theorem State.clearCourses_kept (a0 a1 a2 a3) : (State.clearCourses a0 a1 a2 a3).kept = a0.kept := by
  simp only [State.clearCourses, kept_ite, ite_self, State.mapCheck_kept, State.writeMap_kept]

theorem State.bitmapWrite_kept (a0 a1) : (State.bitmapWrite a0 a1).kept = a0.kept := by
  simp only [State.bitmapWrite, kept_ite, ite_self, State.injected_kept, State.offline_kept, State.raise_kept]

theorem State.openShare_kept (a0 a1 a2) : (State.openShare a0 a1 a2).kept = a0.kept := by
  simp only [State.openShare, kept_mk, kept_eta, kept_ite, foldl_kept, ite_self, implies_true, State.clearCourses_kept, State.bitmapWrite_kept]

theorem State.sectorLost_kept (a0 a1 a2 a3 a4) : (State.sectorLost a0 a1 a2 a3 a4).kept = a0.kept := by
  simp only [State.sectorLost, kept_mk, kept_eta, kept_ite, ite_self, State.dropWay_kept, State.dropReplica_kept, State.poisonLine_kept, State.openShare_kept, State.raise_kept, State.updWay_kept]

theorem State.checkSector_kept (a0 a1 a2 a3 a4) : (State.checkSector a0 a1 a2 a3 a4).kept = a0.kept := by
  simp only [State.checkSector, kept_ite, ite_self, State.cacheCorrected_kept, State.updWay_kept, State.sectorLost_kept]

theorem State.checkSectors_kept (a0 a1 a2 a3 a4) : (State.checkSectors a0 a1 a2 a3 a4).kept = a0.kept := by
  simp only [State.checkSectors, foldl_kept, implies_true, State.checkSector_kept]

theorem State.writeStored_kept (a0 a1 a2 a3) : (State.writeStored a0 a1 a2 a3).kept = a0.kept := by
  simp only [State.writeStored, State.writeCoded_kept]

theorem State.chanWrite_kept (a0 a1 a2 a3 a4) : (State.chanWrite a0 a1 a2 a3 a4).1.kept = a0.kept := by
  simp only [State.chanWrite, State.mapCheck_kept, State.openShare_kept, State.setLineState_kept, State.writeStored_kept, State.decodeLine_kept] <;> (repeat' split) <;> (first | (simp only [State.mapCheck_kept, State.openShare_kept, State.setLineState_kept, State.writeStored_kept, State.decodeLine_kept]; done) | (rename_i h1; cases congrArg Prod.fst h1; (simp only [State.mapCheck_kept, State.openShare_kept, State.setLineState_kept, State.writeStored_kept, State.decodeLine_kept]; done)))

theorem State.writeBackWay_kept (a0 a1 a2 a3) : (State.writeBackWay a0 a1 a2 a3).kept = a0.kept := by
  simp only [State.writeBackWay, kept_ite, ite_self, apply_ite Prod.fst, State.checkSectors_kept, State.chanWrite_kept, State.setLineState_kept, State.writeStored_kept, State.openShare_kept, State.updWay_kept, State.raise_kept]

theorem State.evictWay_kept (a0 a1 a2 a3) : (State.evictWay a0 a1 a2 a3).kept = a0.kept := by
  simp only [State.evictWay, kept_ite, ite_self, State.writeBackWay_kept, State.dropReplica_kept, State.dropWay_kept]

theorem State.countBypass_kept (a0 a1 a2) : (State.countBypass a0 a1 a2).kept = a0.kept := by
  simp only [State.countBypass, State.event_kept, State.updSlice_kept]

theorem State.claimWay_kept (a0 a1 a2 a3) : (State.claimWay a0 a1 a2 a3).1.kept = a0.kept := by
  unfold State.claimWay <;> (repeat' split) <;> (simp only [State.evictWay_kept, State.countBypass_kept]; done)

theorem State.tagWrite_kept (a0 a1 a2 a3) : (State.tagWrite a0 a1 a2 a3).kept = a0.kept := by
  simp only [State.tagWrite, State.injected_kept, State.updWay_kept]

theorem State.installWay_kept (a0 a1 a2 a3 a4) : (State.installWay a0 a1 a2 a3 a4).kept = a0.kept := by
  simp only [State.installWay, State.mapAges_kept, State.tagWrite_kept, State.setWay_kept]

theorem State.writePlace_kept (a0 a1 a2 a3 a4 a5 a6 a7) : (State.writePlace a0 a1 a2 a3 a4 a5 a6 a7).1.kept = a0.kept := by
  unfold State.writePlace <;> (repeat' split) <;> (first | with_reducible rfl | (rename_i h1; cases congrArg Prod.fst h1; (simp only [State.claimWay_kept, State.installWay_kept]; done)))

theorem State.putSectors_kept (a0 a1 a2 a3 a4 a5) : (State.putSectors a0 a1 a2 a3 a4 a5).kept = a0.kept := by
  simp only [State.putSectors, foldl_kept, implies_true, State.updWay_kept, State.injected_kept]

theorem State.touchWay_kept (a0 a1 a2 a3) : (State.touchWay a0 a1 a2 a3).kept = a0.kept := by
  simp only [State.touchWay, State.updWay_kept, State.mapAges_kept]

theorem State.writeInto_kept (a0 a1 a2 a3 a4 a5 a6 a7 a8 a9) : (State.writeInto a0 a1 a2 a3 a4 a5 a6 a7 a8 a9).1.kept = a0.kept := by
  unfold State.writeInto <;> (repeat' split) <;> (first | (simp only [State.putSectors_kept, State.updWay_kept, State.touchWay_kept, State.tagWrite_kept, State.chanWrite_kept]; done) | (rename_i h2 h1; cases congrArg Prod.fst h2; (simp only [State.putSectors_kept, State.updWay_kept, State.touchWay_kept, State.tagWrite_kept, State.chanWrite_kept]; done)))

theorem State.logDevice_kept (a0 a1 a2 a3) : (State.logDevice a0 a1 a2 a3).kept = a0.kept := by
  simp only [State.logDevice, State.logCourse_kept]

theorem State.writeSectors_kept (a0 a1 a2 a3 a4 a5 a6) : (State.writeSectors a0 a1 a2 a3 a4 a5 a6).1.kept = a0.kept := by
  simp only [State.writeSectors, State.writeBase_kept, State.writePlace_kept, State.writeInto_kept, State.logDevice_kept] <;> (repeat' split) <;> (first | (rename_i h1; cases congrArg Prod.fst h1; (simp only [State.writeBase_kept, State.writePlace_kept, State.writeInto_kept, State.logDevice_kept]; done)) | (rename_i h1 _ h0; cases congrArg Prod.fst h1; (simp only [State.writeBase_kept, State.writePlace_kept, State.writeInto_kept, State.logDevice_kept]; done)))

theorem State.checkFound_kept (a0 a1 a2 a3) : (State.checkFound a0 a1 a2 a3).kept = a0.kept := by
  simp only [State.checkFound] <;> (repeat' split) <;> (simp only [State.checkSectors_kept])

theorem State.ucWrite_kept (a0 a1 a2 a3 a4 a5) : (State.ucWrite a0 a1 a2 a3 a4 a5).1.kept = a0.kept := by
  simp only [State.ucWrite, State.checkTags_kept, State.writeSectors_kept, State.checkFound_kept] <;> (repeat' split) <;> (simp only [State.checkTags_kept, State.writeSectors_kept, State.checkFound_kept]; done)

theorem State.settleDir_kept (a0 a1 a2) : (State.settleDir a0 a1 a2).kept = a0.kept := by
  simp only [State.settleDir, State.updWay_kept, State.dropReplica_kept] <;> (repeat' split) <;> (simp only [State.updWay_kept, State.dropReplica_kept])

theorem State.holdWrite_kept (a0 a1 a2) : (State.holdWrite a0 a1 a2).kept = a0.kept := by
  simp only [State.holdWrite, kept_mk, kept_eta, State.holdAt_kept] <;> (repeat' split) <;> (simp only [kept_mk, kept_eta, State.holdAt_kept])

theorem State.writeAt_kept (a0 a1 a2 a3 a4 a5 a6) : (State.writeAt a0 a1 a2 a3 a4 a5 a6).1.kept = a0.kept := by
  simp only [State.writeAt, State.bulk_kept, State.ucWrite_kept, State.settleDir_kept, State.holdWrite_kept] <;> (repeat' split) <;> (simp only [State.bulk_kept, State.ucWrite_kept, State.settleDir_kept, State.holdWrite_kept])

theorem State.lineWrite_kept (a0 a1 a2 a3 a4 a5) : (State.lineWrite a0 a1 a2 a3 a4 a5).1.kept = a0.kept := by
  simp only [State.lineWrite, State.writeAt_kept]

theorem State.unwaitReq_kept (a0 a1) : (State.unwaitReq a0 a1).kept = a0.kept := by
  simp only [State.unwaitReq, kept_mk, kept_eta]

theorem State.trial_kept (a0 a1) (ha1 : ∀ b0, (a1 b0).kept = b0.kept) : (State.trial a0 a1).kept = a0.kept := by
  simp only [State.trial, kept_mk, kept_eta, ha1]

theorem State.setReq_kept (a0 a1 a2) : (State.setReq a0 a1 a2).kept = a0.kept := by
  simp only [State.setReq, kept_mk, kept_eta]

theorem State.answerReq_kept (a0 a1 a2) : (State.answerReq a0 a1 a2).kept = a0.kept := by
  simp only [State.answerReq] <;> (repeat' split) <;> (rfl)

theorem State.replicaHit_kept (a0 a1 a2 a3 p) (h : State.replicaHit a0 a1 a2 a3 = some p) : p.1.kept = a0.kept := by
  unfold State.replicaHit at h; extract_lets q s1 at h; have e : s1.kept = a0.kept := (by simp only [s1]; split; exact State.checkSectors_kept _ _ _ _ _; exact Eq.refl _); clear_value s1; split at h; rotate_left; exact nomatch h; dsimp only at h; split at h; rotate_left; exact nomatch h; have h2 := (Option.some.inj h).symm; subst h2; dsimp only; rw [State.countSectors_kept, State.touchWay_kept]; exact e

theorem State.cmdFault_kept (a0 a1 a2 a3 a4) : (State.cmdFault a0 a1 a2 a3 a4).kept = a0.kept := by
  simp only [State.cmdFault, State.raise_kept]

theorem State.faultReq_kept (a0 a1 a2 a3 a4) : (State.faultReq a0 a1 a2 a3 a4).kept = a0.kept := by
  simp only [State.faultReq, State.answerReq_kept, State.cmdFault_kept]

theorem State.answerRead_kept (a0 a1 a2 a3 a4) : (State.answerRead a0 a1 a2 a3 a4).kept = a0.kept := by
  simp only [State.answerRead, kept_ite, ite_self, State.faultReq_kept, State.answerReq_kept]

theorem State.sendData_kept (a0 a1 a2 a3) : (State.sendData a0 a1 a2 a3).kept = a0.kept := by
  simp only [State.sendData, State.bulk_kept]

theorem State.enterReq_kept (a0 a1) : (State.enterReq a0 a1).kept = a0.kept := by
  simp only [State.enterReq] <;> (repeat' split) <;> (rfl)

theorem State.serveOther_kept (a0 a1 a2 a3 a4 a5) : (State.serveOther a0 a1 a2 a3 a4 a5).kept = a0.kept := by
  unfold State.serveOther; split; exact State.answerReq_kept _ _ _; dsimp only; have e := State.checkTags_kept a0 (a3 ^^^ 256) (setOf a4); generalize a0.checkTags (a3 ^^^ 256) (setOf a4) = t at e ⊢; split; (rw [State.answerReq_kept]; exact e); cases h2 : t.replicaHit a3 a4 a5 with | some v => (dsimp only; rw [State.answerRead_kept, State.sendData_kept, State.replicaHit_kept _ _ _ _ _ h2]; exact e) | none => (dsimp only; rw [State.enterReq_kept, State.setReq_kept]; exact e)

theorem State.inClass_kept (a0 a1) : (State.inClass a0 a1).kept = a0.kept := by
  simp only [State.inClass, kept_mk, kept_eta]

theorem State.onBehalf_kept (a0 a1) : (State.onBehalf a0 a1).kept = a0.kept := by
  simp only [State.onBehalf, State.inClass_kept]

theorem State.waitReq_kept (a0 a1) : (State.waitReq a0 a1).kept = a0.kept := by
  simp only [State.waitReq, kept_mk, kept_eta, kept_ite, ite_self, State.enterReq_kept]

theorem State.countRar_kept (a0 a1) : (State.countRar a0 a1).kept = a0.kept := by
  simp only [State.countRar, State.updSlice_kept]

theorem State.readHit_kept (a0 a1 a2 a3) : (State.readHit a0 a1 a2 a3).1.kept = a0.kept := by
  unfold State.readHit <;> (repeat' split) <;> (simp only [kept_ite, ite_self, State.touchWay_kept, State.countSectors_kept, State.countRar_kept]; done)

theorem State.readInstall_kept (a0 a1 a2 a3 a4 a5 a6 a7 a8) : (State.readInstall a0 a1 a2 a3 a4 a5 a6 a7 a8).kept = a0.kept := by
  unfold State.readInstall <;> (repeat' split) <;> (first | (simp only [State.updWay_kept, State.putSectors_kept, State.touchWay_kept, State.tagWrite_kept, State.claimWay_kept, State.installWay_kept]; done) | (rename_i h1; cases congrArg Prod.fst h1; (simp only [State.updWay_kept, State.putSectors_kept, State.touchWay_kept, State.tagWrite_kept, State.claimWay_kept, State.installWay_kept]; done)))

theorem State.readFetched_kept (a0 a1 a2 a3 a4 a5 a6 a7 a8 a9 a10) : (State.readFetched a0 a1 a2 a3 a4 a5 a6 a7 a8 a9 a10).1.kept = a0.kept := by
  simp only [State.readFetched, kept_ite, ite_self, State.countSectors_kept, State.countRar_kept, State.readInstall_kept]

theorem State.readMiss_kept (a0 a1 a2 a3 a4) : (State.readMiss a0 a1 a2 a3 a4).1.kept = a0.kept := by
  unfold State.readMiss <;> (repeat' split) <;> (rename_i h1; cases congrArg Prod.fst h1; (simp only [State.lineFetch_kept, State.readFetched_kept]; done))

theorem State.ucRead_kept (a0 a1 a2 a3) : (State.ucRead a0 a1 a2 a3).1.kept = a0.kept := by
  simp only [State.ucRead, State.checkTags_kept, State.checkFound_kept, State.readHit_kept, State.readMiss_kept] <;> (repeat' split) <;> (simp only [State.checkTags_kept, State.checkFound_kept, State.readHit_kept, State.readMiss_kept]; done)

theorem State.sendAcross_kept (a0 a1 a2 a3) : (State.sendAcross a0 a1 a2 a3).kept = a0.kept := by
  simp only [State.sendAcross, State.sendData_kept, State.carry_kept]

theorem State.badRead_kept (a0 a1 a2 a3) : (State.badRead a0 a1 a2 a3).kept = a0.kept := by
  simp only [State.badRead, State.faultReq_kept]

theorem State.applyRead_kept (a0 a1 a2 a3 a4) : (State.applyRead a0 a1 a2 a3 a4).kept = a0.kept := by
  unfold State.applyRead; extract_lets b; have e := (State.ucRead_kept a0 a3 a4 b); generalize a0.ucRead a3 a4 b = y at e ⊢; obtain ⟨t, r⟩ := y; dsimp only at e ⊢; cases r <;> dsimp only <;> (repeat' split) <;> (try simp only [State.answerReq_kept, State.badRead_kept, State.answerRead_kept, State.sendData_kept, State.sendAcross_kept]) <;> exact e

theorem State.poisonWrite_kept (a0 a1 a2 a3 a4 a5) : (State.poisonWrite a0 a1 a2 a3 a4 a5).kept = a0.kept := by
  simp only [State.poisonWrite, State.raise_kept]

theorem State.applyWrite_kept (a0 a1 a2 a3 a4) : (State.applyWrite a0 a1 a2 a3 a4).kept = a0.kept := by
  unfold State.applyWrite; extract_lets b; have e0 : b.kept = a0.kept := State.bulk_kept _ _ _ _ _; clear_value b; have e := (State.ucWrite_kept b a3 a4 (reqData a2.tva a2.accs) (reqMask a2.tva a2.accs) true).trans e0; generalize b.ucWrite a3 a4 (reqData a2.tva a2.accs) (reqMask a2.tva a2.accs) true = y at e ⊢; obtain ⟨t, r⟩ := y; dsimp only at e ⊢; cases r <;> dsimp only <;> (try simp only [State.answerReq_kept, State.poisonWrite_kept, State.signalUnits_kept]) <;> exact e

theorem State.atomicWrite_kept (a0 a1 a2 a3 a4 a5 a6 a7) : (State.atomicWrite a0 a1 a2 a3 a4 a5 a6 a7).1.kept = a0.kept := by
  unfold State.atomicWrite <;> (repeat' split) <;> (rename_i h1; cases congrArg Prod.fst h1; (simp only [State.ucWrite_kept]; done))

theorem State.atomicHome_kept (a0 a1 a2 a3 a4 a5 a6 a7 a8) : (State.atomicHome a0 a1 a2 a3 a4 a5 a6 a7 a8).1.kept = a0.kept := by
  unfold State.atomicHome <;> (repeat' split) <;> (rename_i h1; cases congrArg Prod.fst h1; (simp only [kept_ite, ite_self, apply_ite Prod.fst, State.ucRead_kept, State.atomicWrite_kept]; done))

theorem State.atomicAt_kept (a0 a1 a2 a3 a4 a5 a6) : (State.atomicAt a0 a1 a2 a3 a4 a5 a6).1.kept = a0.kept := by
  simp only [State.atomicAt, State.atomicHome_kept]

theorem State.applyAtomic_kept (a0 a1 a2 a3 a4 a5 a6 a7) : (State.applyAtomic a0 a1 a2 a3 a4 a5 a6 a7).kept = a0.kept := by
  unfold State.applyAtomic; extract_lets b; have e0 : b.kept = a0.kept := State.bulk_kept _ _ _ _ _; clear_value b; have e := (State.atomicAt_kept b (a2.dpa + a2.tva % 128) a2.atomicSize a4 a5 a6.toNat a7.toNat).trans e0; generalize b.atomicAt (a2.dpa + a2.tva % 128) a2.atomicSize a4 a5 a6.toNat a7.toNat = y at e ⊢; obtain ⟨t, r⟩ := y; dsimp only at e ⊢; cases r <;> dsimp only <;> (repeat' split) <;> (try simp only [State.answerReq_kept, State.badRead_kept, State.faultReq_kept, State.poisonWrite_kept, State.signalUnits_kept]) <;> exact e

theorem State.applyReq_kept (a0 a1 a2) : (State.applyReq a0 a1 a2).kept = a0.kept := by
  simp only [State.applyReq, State.onBehalf_kept, State.applyRead_kept, State.applyWrite_kept, State.applyAtomic_kept] <;> (repeat' split) <;> (simp only [State.onBehalf_kept, State.applyRead_kept, State.applyWrite_kept, State.applyAtomic_kept])

theorem State.setDir_kept (a0 a1 a2 a3) : (State.setDir a0 a1 a2 a3).kept = a0.kept := by
  simp only [State.setDir, State.tagWrite_kept, State.updWay_kept] <;> (repeat' split) <;> (simp only [State.tagWrite_kept, State.updWay_kept])

theorem State.askInvalidate_kept (a0 a1 a2) : (State.askInvalidate a0 a1 a2).kept = a0.kept := by
  simp only [State.askInvalidate, State.signalUnits_kept, State.setDir_kept]

theorem State.serveHome_kept (a0 a1 a2 a3 a4) : (State.serveHome a0 a1 a2 a3 a4).kept = a0.kept := by
  simp only [State.serveHome, State.answerReq_kept, State.waitReq_kept, State.applyReq_kept, State.askInvalidate_kept] <;> (repeat' split) <;> (simp only [State.answerReq_kept, State.waitReq_kept, State.applyReq_kept, State.askInvalidate_kept])

theorem State.serveReq_kept (a0 a1) : (State.serveReq a0 a1).kept = a0.kept := by
  simp only [State.serveReq, State.answerReq_kept, State.serveOther_kept, State.onBehalf_kept, State.serveHome_kept] <;> (repeat' split) <;> (simp only [State.answerReq_kept, State.serveOther_kept, State.onBehalf_kept, State.serveHome_kept])

theorem State.serveOrQueue_kept (a0 a1) : (State.serveOrQueue a0 a1).kept = a0.kept := by
  simp only [State.serveOrQueue, kept_mk, kept_eta, implies_true, State.trial_kept, State.serveReq_kept, State.updChan_kept, State.enterReq_kept, State.waitReq_kept] <;> (repeat' split) <;> (simp only [kept_mk, kept_eta, implies_true, State.trial_kept, State.serveReq_kept, State.updChan_kept, State.enterReq_kept, State.waitReq_kept])

theorem serveList_kept (a0 a1 a2) : (serveList a0 a1 a2).kept = a2.kept := by
  induction a1 generalizing a2 with
  | nil => simp only [serveList]
  | cons x t ih => simp only [serveList, kept_mk, kept_eta, State.unwaitReq_kept, State.serveOrQueue_kept, ih] <;> (repeat' split) <;> (simp only [kept_mk, kept_eta, State.unwaitReq_kept, State.serveOrQueue_kept, ih]; done)

theorem State.serveWaiting_kept (a0 a1) : (State.serveWaiting a0 a1).kept = a0.kept := by
  simp only [State.serveWaiting, serveList_kept]

theorem landPieces_kept (a0 a1 a2 a3 a4) : (landPieces a0 a1 a2 a3 a4).1.kept = a4.kept := by
  induction a2 generalizing a3 a4 with
  | nil => simp only [landPieces]
  | cons x t ih => simp only [landPieces, State.lineWrite_kept, State.serveWaiting_kept, State.raise_kept, ih] <;> (repeat' split) <;> (first | (simp only [State.lineWrite_kept, State.serveWaiting_kept, State.raise_kept, ih]; done) | (rename_i h1; cases congrArg Prod.fst h1; (simp only [State.lineWrite_kept, State.serveWaiting_kept, State.raise_kept, ih]; done)))

theorem State.landBytes_kept (a0 a1 a2 a3 a4) : (State.landBytes a0 a1 a2 a3 a4).1.kept = a0.kept := by
  simp only [State.landBytes, State.setBuffer_kept, landPieces_kept, State.inClass_kept] <;> (repeat' split) <;> (simp only [State.setBuffer_kept, landPieces_kept, State.inClass_kept])

theorem State.rxMember_kept (a0 a1 a2 a3 a4) : (State.rxMember a0 a1 a2 a3 a4).kept = a0.kept := by
  simp only [State.rxMember, kept_mk, kept_eta, State.countSweld_kept, State.landBytes_kept, State.setIn_kept, State.abortIn_kept] <;> (repeat' split) <;> (first | (simp only [kept_mk, kept_eta, State.countSweld_kept, State.landBytes_kept, State.setIn_kept, State.abortIn_kept]; done) | (rename_i h1; cases congrArg Prod.fst h1; (simp only [kept_mk, kept_eta, State.countSweld_kept, State.landBytes_kept, State.setIn_kept, State.abortIn_kept]; done)))

theorem State.rxCapstone_kept (a0 a1 a2 a3 a4) : (State.rxCapstone a0 a1 a2 a3 a4).kept = a0.kept := by
  simp only [State.rxCapstone, State.sendMsg_kept, State.setIn_kept, State.countSweld_kept] <;> (repeat' split) <;> (simp only [State.sendMsg_kept, State.setIn_kept, State.countSweld_kept])

theorem State.rxLanded_kept (a0 a1 a2 a3) : (State.rxLanded a0 a1 a2 a3).kept = a0.kept := by
  simp only [State.rxLanded] <;> (repeat' split) <;> (rfl)

theorem State.completeCmd_kept (a0 a1 a2 a3) : (State.completeCmd a0 a1 a2 a3).kept = a0.kept := by
  simp only [State.completeCmd, State.completeWith_kept]

theorem State.rxCapDone_kept (a0 a1 a2) : (State.rxCapDone a0 a1 a2).kept = a0.kept := by
  unfold State.rxCapDone <;> split <;> (try simp only [kept_ite, State.completeCmd_kept, State.sendMsg_kept, State.setOut_kept]) <;> (repeat' split) <;> (rfl)

theorem State.rxClose_kept (a0 a1 a2) : (State.rxClose a0 a1 a2).kept = a0.kept := by
  simp only [State.rxClose, State.delIn_kept, State.breakIn_kept] <;> (repeat' split) <;> (simp only [State.delIn_kept, State.breakIn_kept])

theorem State.rxAbort_kept (a0 a1 a2 a3) : (State.rxAbort a0 a1 a2 a3).kept = a0.kept := by
  unfold State.rxAbort <;> (repeat' split) <;> (simp only [State.breakIn_kept, State.refuseSend_kept, State.countBroken_kept, State.delOut_kept, State.breakOut_kept]; done)

theorem State.stepTime_kept (a0 a1) : (State.stepTime a0 a1).kept = a0.kept := by
  simp only [State.stepTime, kept_mk, kept_eta, foldl_kept, implies_true, State.updPort_kept]

theorem State.rxBeacon_kept (a0 a1 a2 a3) : (State.rxBeacon a0 a1 a2 a3).kept = a0.kept := by
  unfold State.rxBeacon; extract_lets v delay off s1 fm; have e1 : s1.kept = a0.kept := State.updPort_kept _ _ _; clear_value s1; split; (rw [kept_mk, kept_eta]; exact (State.stepTime_kept _ _).trans e1); split; (rw [kept_mk, kept_eta]; exact e1); split; (rw [kept_mk, kept_eta]; exact e1); exact e1

theorem State.rxMsg_kept (a0 a1 a2) : (State.rxMsg a0 a1 a2).kept = a0.kept := by
  simp only [State.rxMsg, kept_ite, ite_self, State.rxOpen_kept, State.rxOpenAck_kept, State.rxRefuse_kept, State.rxMember_kept, State.rxCapstone_kept, State.rxLanded_kept, State.rxCapDone_kept, State.rxClose_kept, State.rxAbort_kept, State.rxBeacon_kept]

theorem takeMsgs_kept (a0 a1 a2 a3) : (takeMsgs a0 a1 a2 a3).1.kept = a3.kept := by
  induction a1 generalizing a2 a3 with
  | zero => simp only [takeMsgs]
  | succ k ih => simp only [takeMsgs, State.malformed_kept, State.rxMsg_kept, ih] <;> (repeat' split) <;> (simp only [State.malformed_kept, State.rxMsg_kept, ih]; done)

theorem State.acceptFlit_kept (a0 a1 a2 a3) : (State.acceptFlit a0 a1 a2 a3).kept = a0.kept := by
  simp only [State.acceptFlit, State.updPort_kept, takeMsgs_kept]

theorem State.corruptLine_kept (a0 a1 a2 a3) : (State.corruptLine a0 a1 a2 a3).kept = a0.kept := by
  simp only [State.corruptLine, kept_ite, ite_self, State.storeWord_kept]

theorem State.addErrors_kept (a0 a1 a2 a3) : (State.addErrors a0 a1 a2 a3).kept = a0.kept := by
  simp only [State.addErrors, kept_ite, ite_self, State.corruptLine_kept]

theorem State.addGang_kept (a0 a1 a2 a3 a4 a5) : (State.addGang a0 a1 a2 a3 a4 a5).kept = a0.kept := by
  simp only [State.addGang, kept_mk, kept_eta]

theorem State.vrTransaction_kept (a0 a1 a2) : (State.vrTransaction a0 a1 a2).kept = a0.kept := by
  simp only [State.vrTransaction, kept_mk, kept_eta]

theorem State.writeSetPoint_kept (a0 a1) : (State.writeSetPoint a0 a1).kept = a0.kept := by
  simp only [State.writeSetPoint, kept_mk, kept_eta, kept_ite, ite_self]

theorem State.adjustRail_kept (a0 a1 a2) : (State.adjustRail a0 a1 a2).kept = a0.kept := by
  simp only [State.adjustRail, kept_ite, ite_self, State.vrTransaction_kept, State.writeSetPoint_kept]

theorem State.agFault_kept (a0 a1 a2 a3) : (State.agFault a0 a1 a2 a3).kept = a0.kept := by
  simp only [State.agFault, State.cmdFault_kept]

theorem State.agDpa_kept (a0 a1 a2 a3) : (State.agDpa a0 a1 a2 a3).1.kept = a0.kept := by
  simp only [State.agDpa] <;> (repeat' split) <;> (simp only [State.agFault_kept])

theorem State.holdRead_kept (a0 a1 a2) : (State.holdRead a0 a1 a2).kept = a0.kept := by
  simp only [State.holdRead] <;> (repeat' split) <;> (simp only [State.holdAt_kept])

theorem State.homeRead_kept (a0 a1 a2 a3 a4) : (State.homeRead a0 a1 a2 a3 a4).1.kept = a0.kept := by
  unfold State.homeRead <;> (repeat' split) <;> (first | (simp only [State.ucRead_kept, State.holdRead_kept, State.sendData_kept]; done) | (rename_i h1; cases congrArg Prod.fst h1; (simp only [State.ucRead_kept, State.holdRead_kept, State.sendData_kept]; done)))

theorem State.installReplica_kept (a0 a1 a2) : (State.installReplica a0 a1 a2).1.kept = a0.kept := by
  unfold State.installReplica <;> (try dsimp only) <;> (repeat' split) <;> (first | (simp only [State.checkFound_kept, State.carry_kept, State.touchWay_kept, State.putSectors_kept, State.claimWay_kept, State.installWay_kept]; done) | (rename_i h1; cases congrArg Prod.fst h1; (simp only [State.checkFound_kept, State.carry_kept, State.touchWay_kept, State.putSectors_kept, State.claimWay_kept, State.installWay_kept]; done)))

theorem State.partnerRead_kept (a0 a1 a2 a3 a4) : (State.partnerRead a0 a1 a2 a3 a4).1.kept = a0.kept := by
  unfold State.partnerRead; have e := (State.ucRead_kept (a0.holdRead a1 a2) a1 a2 a3).trans (State.holdRead_kept _ _ _); generalize (a0.holdRead a1 a2).ucRead a1 a2 a3 = y at e ⊢; obtain ⟨t, r⟩ := y; dsimp only at e ⊢; cases r with | data b rar => (dsimp only; split; (split; (have e3 := State.installReplica_kept t a1 a2; generalize t.installReplica a1 a2 = y2 at e3 ⊢; obtain ⟨t2, r2⟩ := y2; dsimp only at e3 ⊢; split <;> simp only [State.updWay_kept, State.sendData_kept] <;> exact e3.trans e); (simp only [State.sendData_kept]; exact e)); (dsimp only; split <;> (simp only [State.sendData_kept, State.sendAcross_kept]; exact e))) | bad c => exact e | shield d i => exact e

theorem State.otherRead_kept (a0 a1 a2 a3 a4) : (State.otherRead a0 a1 a2 a3 a4).1.kept = a0.kept := by
  unfold State.otherRead; split; exact Eq.refl _; dsimp only; have e := State.checkTags_kept a0 (a1 ^^^ 256) (setOf a2); generalize a0.checkTags (a1 ^^^ 256) (setOf a2) = t at e ⊢; split; exact e; cases h2 : t.replicaHit a1 a2 a3 with | some v => (dsimp only; rw [State.sendData_kept, State.replicaHit_kept _ _ _ _ _ h2]; exact e) | none => (dsimp only; rw [State.partnerRead_kept]; exact e)

theorem State.lineRead_kept (a0 a1 a2 a3 a4) : (State.lineRead a0 a1 a2 a3 a4).1.kept = a0.kept := by
  simp only [State.lineRead, kept_ite, ite_self, apply_ite Prod.fst, State.homeRead_kept, State.otherRead_kept]

theorem State.agAbort_kept (a0 a1 a2 a3) : (State.agAbort a0 a1 a2 a3).kept = a0.kept := by
  simp only [State.agAbort, State.stopCmd_kept]

theorem State.agReadPiece_kept (a0 a1 a2 a3 a4) : (State.agReadPiece a0 a1 a2 a3 a4).1.kept = a0.kept := by
  unfold State.agReadPiece <;> (repeat' split) <;> (first | (rename_i h1; cases congrArg Prod.fst h1; (simp only [State.lineRead_kept, State.agFault_kept, State.agAbort_kept]; done)) | (rename_i h2 h1; cases congrArg Prod.fst h2; (simp only [State.lineRead_kept, State.agFault_kept, State.agAbort_kept]; done)))

theorem agReadPieces_kept (a0 a1 a2 a3) : (agReadPieces a0 a1 a2 a3).1.kept = a3.kept := by
  induction a1 generalizing a2 a3 with
  | nil => simp only [agReadPieces]
  | cons x t ih => simp only [agReadPieces, State.agDpa_kept, State.agReadPiece_kept, ih] <;> (repeat' split) <;> (first | (rename_i h1; cases congrArg Prod.fst h1; (simp only [State.agDpa_kept, State.agReadPiece_kept, ih]; done)) | (rename_i h1 _ _ h0; cases congrArg Prod.fst h1; cases congrArg Prod.fst h0; (simp only [State.agDpa_kept, State.agReadPiece_kept, ih]; done)) | (rename_i h1 _ _ _ h0; cases congrArg Prod.fst h1; cases congrArg Prod.fst h0; (simp only [State.agDpa_kept, State.agReadPiece_kept, ih]; done)))

theorem State.agRead_kept (a0 a1 a2 a3) : (State.agRead a0 a1 a2 a3).1.kept = a0.kept := by
  simp only [State.agRead, agReadPieces_kept, State.onBehalf_kept]

theorem readParts_kept (a0 a1 a2 a3) : (readParts a0 a1 a2 a3).1.kept = a3.kept := by
  induction a2 generalizing a3 with
  | nil => simp only [readParts]
  | cons x t ih => simp only [readParts, State.agRead_kept, ih] <;> (repeat' split) <;> (rename_i h1; cases congrArg Prod.fst h1; (simp only [State.agRead_kept, ih]; done))

theorem State.loadParts_kept (a0 a1 a2 a3) : (State.loadParts a0 a1 a2 a3).1.kept = a0.kept := by
  simp only [State.loadParts, kept_ite, ite_self, apply_ite Prod.fst, readParts_kept]

theorem State.afterLoad_kept (a0 a1 a2 a3 a4) (ha4 : ∀ b0, (a4 b0).kept = b0.kept) : (State.afterLoad a0 a1 a2 a3 a4).kept = a0.kept := by
  unfold State.afterLoad <;> (repeat' split) <;> (rename_i h1; cases congrArg Prod.fst h1; (simp only [kept_ite, ite_self, apply_ite Prod.fst, State.loadParts_kept, ha4]; done))

theorem State.agWritePiece_kept (a0 a1 a2 a3 a4 a5 a6) : (State.agWritePiece a0 a1 a2 a3 a4 a5 a6).1.kept = a0.kept := by
  simp only [State.agWritePiece, State.lineWrite_kept, State.serveWaiting_kept, State.poisonWrite_kept, State.agAbort_kept] <;> (repeat' split) <;> (rename_i h1; cases congrArg Prod.fst h1; (simp only [State.lineWrite_kept, State.serveWaiting_kept, State.poisonWrite_kept, State.agAbort_kept]; done))

theorem agWritePieces_kept (a0 a1 a2 a3 a4) : (agWritePieces a0 a1 a2 a3 a4).1.kept = a4.kept := by
  induction a2 generalizing a3 a4 with
  | nil => simp only [agWritePieces]
  | cons x t ih => simp only [agWritePieces, State.agDpa_kept, State.agWritePiece_kept, ih] <;> (repeat' split) <;> (first | (rename_i h1; cases congrArg Prod.fst h1; (simp only [State.agDpa_kept, State.agWritePiece_kept, ih]; done)) | (rename_i h1 _ _ h0; cases congrArg Prod.fst h1; cases congrArg Prod.fst h0; (simp only [State.agDpa_kept, State.agWritePiece_kept, ih]; done)))

theorem State.agWrite_kept (a0 a1 a2 a3) : (State.agWrite a0 a1 a2 a3).1.kept = a0.kept := by
  simp only [State.agWrite, agWritePieces_kept, State.onBehalf_kept]

theorem State.writeSaved_kept (a0 a1 a2 a3) : (State.writeSaved a0 a1 a2 a3).1.kept = a0.kept := by
  simp only [State.writeSaved, kept_mk, kept_eta, State.agWrite_kept]

theorem State.savePart_kept (a0 a1 a2 a3) : (State.savePart a0 a1 a2 a3).1.kept = a0.kept := by
  simp only [State.savePart, kept_ite, ite_self, apply_ite Prod.fst, State.writeSaved_kept]

theorem State.afterSave_kept (a0 a1 a2 a3 a4) (ha4 : ∀ b0, (a4 b0).kept = b0.kept) : (State.afterSave a0 a1 a2 a3 a4).kept = a0.kept := by
  unfold State.afterSave <;> (repeat' split) <;> (rename_i h1; cases congrArg Prod.fst h1; (simp only [State.savePart_kept, ha4]; done))

theorem State.agHostWrite_kept (a0 a1 a2 a3 a4) : (State.agHostWrite a0 a1 a2 a3 a4).1.kept = a0.kept := by
  simp only [State.agHostWrite, kept_ite, ite_self, apply_ite Prod.fst, State.updCmd_kept, State.bulk_kept, State.onBehalf_kept, State.tenantHostWrite_kept, State.agFault_kept]

theorem State.agStore_kept (a0 a1 a2 a3 a4) : (State.agStore a0 a1 a2 a3 a4).1.kept = a0.kept := by
  simp only [State.agStore, kept_ite, ite_self, apply_ite Prod.fst, State.agHostWrite_kept, State.agWrite_kept]

theorem State.alignDies_kept (a0) : (State.alignDies a0).kept = a0.kept := by
  simp only [State.alignDies, kept_mk, kept_eta, foldl_kept, implies_true, State.drawChoice_kept]

theorem State.answer_kept (a0 a1 a2) : (State.answer a0 a1 a2).kept = a0.kept := by
  simp only [State.answer, kept_mk, kept_eta, kept_ite, ite_self]

theorem State.appendJournal_kept (a0 a1) : (State.appendJournal a0 a1).kept = a0.kept := by
  simp only [State.appendJournal, kept_mk, kept_eta]

theorem State.applyAgain_kept (a0 a1) : (State.applyAgain a0 a1).kept = a0.kept := by
  simp only [State.applyAgain] <;> (repeat' split) <;> (simp only [State.applyReq_kept])

theorem State.applyRemap_kept (a0 a1 a2 a3) : (State.applyRemap a0 a1 a2 a3).kept = a0.kept := by
  simp only [State.applyRemap, kept_ite, ite_self, State.dramStore_kept, State.updChan_kept]

theorem State.applyPinKill_kept (a0 a1 a2 a3) : (State.applyPinKill a0 a1 a2 a3).kept = a0.kept := by
  simp only [State.applyPinKill, kept_ite, ite_self, State.updChan_kept]

theorem State.applyEntry_kept (a0 a1 a2 a3 a4) : (State.applyEntry a0 a1 a2 a3 a4).kept = a0.kept := by
  simp only [State.applyEntry, kept_mk, kept_eta, kept_ite, ite_self, State.raise_kept, State.applyRemap_kept, State.applyPinKill_kept]

theorem State.applyMatch_kept {α : Type} (a0 : State) (m : Match α) (f : State → α → Nat → State) (b : State → State) (v : Nat) (hf : ∀ s r v, (f s r v).kept = s.kept) (hb : ∀ s, (b s).kept = s.kept) : (State.applyMatch a0 m f b v).kept = a0.kept := by
  unfold State.applyMatch; split; exact hf _ _ _; dsimp only; split <;> split <;> simp only [hf]; exact hb _

theorem State.applyModes_kept (a0 a1 a2 a3) : (State.applyModes a0 a1 a2 a3).kept = a0.kept := by
  simp only [State.applyModes, kept_ite, foldl_kept, ite_self, implies_true, State.updBay_kept]

theorem applyEntries_kept (a0 a1 a2 a3 a4) : (applyEntries a0 a1 a2 a3 a4).kept = a4.kept := by
  induction a3 generalizing a2 a4 with
  | nil => simp only [applyEntries]
  | cons x t ih => simp only [applyEntries, kept_ite, ite_self, State.applyEntry_kept, ih]

theorem State.applyRepairs_kept (a0 a1 a2) : (State.applyRepairs a0 a1 a2).kept = a0.kept := by
  simp only [State.applyRepairs, applyEntries_kept]

theorem State.leaveWindow_kept (a0 a1) : (State.leaveWindow a0 a1).kept = a0.kept := by
  simp only [State.leaveWindow, State.updSq_kept, State.updCq_kept]

theorem State.endAtArbiter_kept (a0 a1 a2 a3 a4 a5) : (State.endAtArbiter a0 a1 a2 a3 a4 a5).kept = a0.kept := by
  simp only [State.endAtArbiter, State.completeWith_kept, State.leaveWindow_kept]

theorem State.capture_kept (a0 a1) : (State.capture a0 a1).kept = a0.kept := by
  simp only [State.capture, foldl_kept, implies_true, State.updCmd_kept, State.updHandle_kept]

theorem State.sendGrants_kept (a0 a1) : (State.sendGrants a0 a1).kept = a0.kept := by
  simp only [State.sendGrants, foldl_kept, implies_true, State.signalUnits_kept]

theorem State.holdBay_kept (a0 a1 a2) : (State.holdBay a0 a1 a2).kept = a0.kept := by
  simp only [State.holdBay, State.updBay_kept]

theorem State.takeUnit_kept (a0 a1 a2) : (State.takeUnit a0 a1 a2).kept = a0.kept := by
  simp only [State.takeUnit, State.holdBay_kept, State.updBay_kept]

theorem State.l1DropClean_kept (a0 a1) : (State.l1DropClean a0 a1).kept = a0.kept := by
  simp only [State.l1DropClean, State.updBay_kept]

theorem State.roInvalidate_kept (a0 a1) : (State.roInvalidate a0 a1).kept = a0.kept := by
  simp only [State.roInvalidate, State.updBay_kept]

theorem State.roRoom_kept (a0 a1 a2 a3) : (State.roRoom a0 a1 a2 a3).2.kept = a0.kept := by
  simp only [State.roRoom, kept_ite, ite_self, apply_ite Prod.snd, State.drawChoice_kept]

theorem State.cacheBlock_kept (a0 a1 a2) : (State.cacheBlock a0 a1 a2).kept = a0.kept := by
  simp only [State.cacheBlock, kept_ite, ite_self, State.roRoom_kept, State.updBay_kept]

theorem State.takeGrant_kept (a0 a1 a2) : (State.takeGrant a0 a1 a2).kept = a0.kept := by
  simp only [State.takeGrant, kept_ite, foldl_kept, ite_self, implies_true, State.takeUnit_kept, State.l1DropClean_kept, State.roInvalidate_kept, State.cacheBlock_kept, State.updCmd_kept]

theorem State.begin_kept (a0 a1 a2) : (State.begin a0 a1 a2).kept = a0.kept := by
  simp only [State.begin, kept_mk, kept_eta, kept_ite, ite_self, State.leaveWindow_kept, State.setCmd_kept, State.count_kept, State.event_kept, State.capture_kept, State.sendGrants_kept, State.takeGrant_kept]

theorem State.settled_kept (a0 a1) (ha1 : ∀ b0, (a1 b0).kept = b0.kept) : (State.settled a0 a1).kept = a0.kept := by
  simp only [State.settled, kept_mk, kept_eta, kept_ite, foldl_kept, ite_self, implies_true, State.trial_kept, State.askInvalidate_kept, ha1]

theorem readImages_kept (a0 a1 a2) : (readImages a0 a1 a2).kept = a2.kept := by
  induction a1 generalizing a2 with
  | nil => simp only [readImages]
  | cons x t ih => simp only [readImages, State.agRead_kept, ih] <;> (repeat' split) <;> (rename_i h1; cases congrArg Prod.fst h1; (simp only [State.agRead_kept, ih]; done))

theorem State.resumeImages_kept (a0 a1 a2) : (State.resumeImages a0 a1 a2).kept = a0.kept := by
  simp only [State.resumeImages, foldl_kept, implies_true, State.cacheBlock_kept, State.takeUnit_kept, State.updCmd_kept, readImages_kept]

theorem State.setGang_kept (a0 a1 a2) : (State.setGang a0 a1 a2).kept = a0.kept := by
  simp only [State.setGang, kept_mk, kept_eta]

theorem State.reissue_kept (a0 a1) : (State.reissue a0 a1).kept = a0.kept := by
  simp only [State.reissue, kept_mk, kept_eta]

theorem State.footWrite_kept (a0 a1 a2 a3 a4) : (State.footWrite a0 a1 a2 a3 a4).kept = a0.kept := by
  simp only [State.footWrite, State.updBay_kept]

theorem State.resumeGang_kept (a0 a1 a2 a3 a4) : (State.resumeGang a0 a1 a2 a3 a4).kept = a0.kept := by
  simp only [State.resumeGang, State.setGang_kept, State.reissue_kept, State.footWrite_kept]

theorem State.updGang_kept (a0 a1 a2) : (State.updGang a0 a1 a2).kept = a0.kept := by
  simp only [State.updGang, State.setGang_kept]

theorem promote_kept (a0 a1 a2 a3) : (promote a0 a1 a2 a3).kept = a3.kept := by
  induction a0 generalizing a3 with
  | zero => simp only [promote]
  | succ k ih => simp only [promote, State.updGang_kept, ih] <;> (repeat' split) <;> (simp only [State.updGang_kept, ih])

theorem State.fillActive_kept (a0 a1 a2) : (State.fillActive a0 a1 a2).kept = a0.kept := by
  simp only [State.fillActive, promote_kept]

theorem State.resumeBay_kept (a0 a1 a2) : (State.resumeBay a0 a1 a2).kept = a0.kept := by
  simp only [State.resumeBay, foldl_kept, implies_true, State.takeUnit_kept, State.cacheBlock_kept, State.l1DropClean_kept, State.resumeGang_kept, State.updCmd_kept, State.fillActive_kept, readImages_kept]

theorem State.perform_kept (a0 a1 a2) : (State.perform a0 a1 a2).1.kept = a0.kept := by
  unfold State.perform <;> (repeat' split) <;> (simp only [implies_true, State.endAtArbiter_kept, State.completeWith_kept, State.begin_kept, State.settled_kept, State.resumeImages_kept, State.resumeBay_kept]; done)

theorem State.handleEffect_kept (a0 a1) : (State.handleEffect a0 a1).kept = a0.kept := by
  simp only [State.handleEffect, kept_ite, ite_self, State.updHandle_kept, State.completeCmd_kept, State.updCmd_kept, State.retireHandle_kept]

theorem State.handleEffects_kept (a0 a1) : (State.handleEffects a0 a1).kept = a0.kept := by
  simp only [State.handleEffects, foldl_kept, implies_true, State.handleEffect_kept]

theorem State.managerEffect_kept (a0) : (State.managerEffect a0).kept = a0.kept := by
  simp only [State.managerEffect, kept_mk, kept_eta, State.updHandle_kept, State.retireHandle_kept] <;> (repeat' split) <;> (simp only [kept_mk, kept_eta, State.updHandle_kept, State.retireHandle_kept])

end Sys2Proof.Machine
end

