-- ==== Sys2Proof/Laws/KeptB.lean ====
section
/-! SUPPORT. What the operations leave of the part of a state that Laws/Kept.lean names: all of it, part 2 of 3. -/

namespace Sys2Proof.Machine

set_option linter.unusedSimpArgs false
set_option linter.unusedVariables false

theorem State.managerOnEdge_kept (a0 a1) : (State.managerOnEdge a0 a1).kept = a0.kept := by
  simp only [State.managerOnEdge] <;> (repeat' split) <;> (simp only [State.managerEffect_kept])

theorem State.arbEdge_kept (a0) : (State.arbEdge a0).kept = a0.kept := by
  simp only [State.arbEdge, kept_mk, kept_eta, State.perform_kept, State.handleEffects_kept, State.managerOnEdge_kept] <;> (repeat' split) <;> (simp only [kept_mk, kept_eta, State.perform_kept, State.handleEffects_kept, State.managerOnEdge_kept])

theorem State.arrayInfo_kept (a0) : (State.arrayInfo a0).2.kept = a0.kept := by
  simp only [State.arrayInfo, State.drawResult_kept]

theorem State.arrayCorrected_kept (a0 a1) : (State.arrayCorrected a0 a1).kept = a0.kept := by
  simp only [State.arrayCorrected, State.arrayInfo_kept, State.raise_kept]

theorem State.arrayLost_kept (a0 a1 a2) : (State.arrayLost a0 a1 a2).kept = a0.kept := by
  simp only [State.arrayLost, State.arrayInfo_kept, State.cmdFault_kept]

theorem State.atPort_kept (a0 a1 a2) (ha2 : ∀ b0, (a2 b0).kept = b0.kept) : (State.atPort a0 a1 a2).kept = a0.kept := by
  simp only [State.atPort, kept_ite, ite_self, ha2]

theorem State.demote_kept (a0 a1 a2 a3) : (State.demote a0 a1 a2 a3).kept = a0.kept := by
  simp only [State.demote, kept_ite, ite_self, State.fillActive_kept, State.updGang_kept]

theorem State.awaiting_kept (a0 a1 a2 a3) (ha3 : ∀ b0, (a3 b0).kept = b0.kept) : (State.awaiting a0 a1 a2 a3).kept = a0.kept := by
  simp only [State.awaiting, kept_ite, ite_self, State.demote_kept, ha3]

theorem State.countAccess_kept (a0 a1 a2 a3) : (State.countAccess a0 a1 a2 a3).kept = a0.kept := by
  simp only [State.countAccess, kept_mk, kept_eta, kept_ite, ite_self]

theorem State.pageWrite_kept (a0 a1 a2 a3) (ha3 : ∀ b0, (a3 b0).kept = b0.kept) : (State.pageWrite a0 a1 a2 a3).kept = a0.kept := by
  simp only [State.pageWrite, kept_ite, ite_self, State.updSlice_kept, ha3]

theorem State.badWrite_kept (a0 a1 a2) : (State.badWrite a0 a1 a2).kept = a0.kept := by
  simp only [State.badWrite, kept_ite, ite_self, implies_true, State.countAccess_kept, State.pageWrite_kept]

theorem State.bagSpan_kept (a0 a1 a2 a3) : (State.bagSpan a0 a1 a2 a3).1.kept = a0.kept := by
  unfold State.bagSpan <;> (repeat' split) <;> (first | with_reducible rfl | (rename_i h1; cases congrArg Prod.fst h1; (simp only [kept_ite, ite_self, apply_ite Prod.fst, State.agRead_kept, State.agFault_kept]; done)))

theorem State.bayCheck_kept (a0 a1 a2) : (State.bayCheck a0 a1 a2).kept = a0.kept := by
  simp only [State.bayCheck, kept_ite, foldl_kept, ite_self, implies_true, State.updBay_kept, State.arrayCorrected_kept, State.arrayLost_kept]

theorem State.bayWrite_kept (a0 a1 a2) : (State.bayWrite a0 a1 a2).kept = a0.kept := by
  simp only [State.bayWrite, kept_ite, ite_self, State.injected_kept, State.updBay_kept]

theorem State.beginBag_kept (a0 a1 a2 a3 a4) : (State.beginBag a0 a1 a2 a3 a4).kept = a0.kept := by
  unfold State.beginBag <;> (repeat' split) <;> (rename_i h1; cases congrArg Prod.fst h1; (simp only [State.bagSpan_kept, State.updCmd_kept]; done))

theorem State.enterState_kept (a0 a1) : (State.enterState a0 a1).kept = a0.kept := by
  simp only [State.enterState, kept_mk, kept_eta, kept_ite, ite_self, State.signal_kept]

theorem State.beginStep_kept (a0 a1) : (State.beginStep a0 a1).kept = a0.kept := by
  simp only [State.beginStep, kept_mk, kept_eta, State.enterState_kept]

theorem State.noteStart_kept (a0 a1 a2 a3) : (State.noteStart a0 a1 a2 a3).kept = a0.kept := by
  simp only [State.noteStart, kept_mk, kept_eta]

theorem State.settleLine_kept (a0 a1) : (State.settleLine a0 a1).kept = a0.kept := by
  simp only [State.settleLine, State.settleDir_kept]

theorem State.holdLine_kept (a0 a1) : (State.holdLine a0 a1).kept = a0.kept := by
  simp only [State.holdLine, State.holdWrite_kept]

theorem State.takeNow_kept (a0 a1 a2) : (State.takeNow a0 a1 a2).kept = a0.kept := by
  simp only [State.takeNow, State.applyReq_kept, State.settleLine_kept, State.holdLine_kept, State.unwaitReq_kept]

theorem State.dropReq_kept (a0 a1) : (State.dropReq a0 a1).kept = a0.kept := by
  simp only [State.dropReq, kept_mk, kept_eta]

theorem State.settleReq_kept (a0 a1 a2) : (State.settleReq a0 a1 a2).kept = a0.kept := by
  simp only [State.settleReq, kept_mk, kept_eta, State.dropReq_kept, State.updGang_kept, State.updCmd_kept, State.fillActive_kept] <;> (repeat' split) <;> (simp only [kept_mk, kept_eta, State.dropReq_kept, State.updGang_kept, State.updCmd_kept, State.fillActive_kept])

theorem State.takeShield_kept (a0 a1) : (State.takeShield a0 a1).kept = a0.kept := by
  simp only [State.takeShield, State.setReq_kept, State.dropReq_kept, State.settleReq_kept, State.stopCmd_kept] <;> (repeat' split) <;> (simp only [State.setReq_kept, State.dropReq_kept, State.settleReq_kept, State.stopCmd_kept])

theorem State.doWriteAck_kept (a0 a1) : (State.doWriteAck a0 a1).kept = a0.kept := by
  simp only [State.doWriteAck, State.dropReq_kept, State.settleReq_kept] <;> (repeat' split) <;> (simp only [State.dropReq_kept, State.settleReq_kept])

theorem State.setL1_kept (a0 a1 a2 a3) : (State.setL1 a0 a1 a2 a3).kept = a0.kept := by
  simp only [State.setL1, State.updBay_kept]

theorem State.dropL1_kept (a0 a1 a2) : (State.dropL1 a0 a1 a2).kept = a0.kept := by
  simp only [State.dropL1, State.updBay_kept]

theorem State.landLine_kept (a0 a1 a2) : (State.landLine a0 a1 a2).kept = a0.kept := by
  simp only [State.landLine, foldl_kept, implies_true, State.takeNow_kept]

theorem State.l1PutBack_kept (a0 a1 a2 a3 a4 a5) : (State.l1PutBack a0 a1 a2 a3 a4 a5).1.kept = a0.kept := by
  unfold State.l1PutBack <;> (repeat' split) <;> (rename_i h1; cases congrArg Prod.fst h1; (simp only [foldl_kept, implies_true, State.lineWrite_kept, State.serveWaiting_kept, State.poisonWrite_kept, State.agAbort_kept]; done))

theorem State.l1WritePart_kept (a0 a1 a2 a3) : (State.l1WritePart a0 a1 a2 a3).1.kept = a0.kept := by
  simp only [State.l1WritePart, State.setL1_kept, State.landLine_kept, State.agDpa_kept, State.l1PutBack_kept, State.onBehalf_kept] <;> (repeat' split) <;> (first | with_reducible rfl | (rename_i h1; cases congrArg Prod.fst h1; (simp only [State.setL1_kept, State.landLine_kept, State.agDpa_kept, State.l1PutBack_kept, State.onBehalf_kept]; done)) | (rename_i h2 h1; cases congrArg Prod.fst h2; (simp only [State.setL1_kept, State.landLine_kept, State.agDpa_kept, State.l1PutBack_kept, State.onBehalf_kept]; done)))

theorem State.l1WriteMask_kept (a0 a1 a2 a3) : (State.l1WriteMask a0 a1 a2 a3).1.kept = a0.kept := by
  unfold State.l1WriteMask <;> (repeat' split) <;> (rename_i h1; cases congrArg Prod.fst h1; (simp only [foldl_kept, implies_true, State.l1WritePart_kept, State.agAbort_kept]; done))

theorem State.l1WriteBack_kept (a0 a1 a2) : (State.l1WriteBack a0 a1 a2).1.kept = a0.kept := by
  simp only [State.l1WriteBack, State.l1WriteMask_kept]

theorem State.l1Room_kept (a0 a1) : (State.l1Room a0 a1).kept = a0.kept := by
  simp only [State.l1Room, kept_ite, ite_self, State.drawChoice_kept, State.dropL1_kept, State.l1WriteBack_kept]

theorem State.l1Fill_kept (a0 a1 a2 a3 a4) : (State.l1Fill a0 a1 a2 a3 a4).kept = a0.kept := by
  simp only [State.l1Fill, State.setL1_kept, State.l1Room_kept] <;> (repeat' split) <;> (simp only [State.setL1_kept, State.l1Room_kept])

theorem State.setReg_kept (a0 a1 a2 a3 a4) : (State.setReg a0 a1 a2 a3 a4).kept = a0.kept := by
  simp only [State.setReg, kept_ite, ite_self, State.updGang_kept]

theorem State.freeReg_kept (a0 a1 a2) : (State.freeReg a0 a1 a2).kept = a0.kept := by
  simp only [State.freeReg, kept_mk, kept_eta, kept_ite, ite_self, State.setReg_kept]

theorem State.setRegByte_kept (a0 a1 a2 a3 a4) : (State.setRegByte a0 a1 a2 a3 a4).kept = a0.kept := by
  simp only [State.setRegByte, State.setReg_kept]

theorem State.deliver_kept (a0 a1 a2 a3 a4) : (State.deliver a0 a1 a2 a3 a4).kept = a0.kept := by
  simp only [State.deliver, kept_ite, foldl_kept, ite_self, implies_true, State.freeReg_kept, State.setRegByte_kept]

theorem State.deliverLoad_kept (a0 a1 a2 a3) : (State.deliverLoad a0 a1 a2 a3).kept = a0.kept := by
  simp only [State.deliverLoad, kept_ite, ite_self, State.l1Fill_kept, State.deliver_kept, State.settleReq_kept]

theorem State.l1Learn_kept (a0 a1 a2 a3 a4) : (State.l1Learn a0 a1 a2 a3 a4).kept = a0.kept := by
  simp only [State.l1Learn] <;> (repeat' split) <;> (rfl)

theorem State.deliverAtomic_kept (a0 a1 a2 a3 a4 a5 a6 a7) : (State.deliverAtomic a0 a1 a2 a3 a4 a5 a6 a7).kept = a0.kept := by
  simp only [State.deliverAtomic, kept_ite, foldl_kept, ite_self, implies_true, State.l1Learn_kept, State.setRegByte_kept, State.settleReq_kept]

theorem State.doReadReply_kept (a0 a1 a2) : (State.doReadReply a0 a1 a2).kept = a0.kept := by
  simp only [State.doReadReply, State.dropReq_kept, State.settleReq_kept, State.cmdFault_kept, State.deliverLoad_kept, State.bulk_kept, State.onBehalf_kept, State.count_kept, State.deliverAtomic_kept] <;> (repeat' split) <;> (simp only [State.dropReq_kept, State.settleReq_kept, State.cmdFault_kept, State.deliverLoad_kept, State.bulk_kept, State.onBehalf_kept, State.count_kept, State.deliverAtomic_kept])

theorem State.landReqs_kept (a0 a1) : (State.landReqs a0 a1).kept = a0.kept := by
  unfold State.landReqs <;> (refine foldl_kept _ (fun s b => ?_) _ _) <;> (repeat' split) <;> (simp only [State.takeNow_kept, State.takeShield_kept, State.doWriteAck_kept, State.doReadReply_kept]; done)

theorem State.landEnded_kept (a0 a1 a2) : (State.landEnded a0 a1 a2).kept = a0.kept := by
  simp only [State.landEnded, State.setCmd_kept]

theorem l1WriteBackAll_kept (a0 a1 a2) : (l1WriteBackAll a0 a1 a2).1.kept = a2.kept := by
  induction a1 generalizing a2 with
  | nil => simp only [l1WriteBackAll]
  | cons x t ih => simp only [l1WriteBackAll, State.l1WriteBack_kept, ih]

theorem State.l1FlushCmd_kept (a0 a1 a2) : (State.l1FlushCmd a0 a1 a2).kept = a0.kept := by
  simp only [State.l1FlushCmd, State.landEnded_kept, l1WriteBackAll_kept]

theorem State.flushCmdL1_kept (a0 a1) : (State.flushCmdL1 a0 a1).kept = a0.kept := by
  simp only [State.flushCmdL1, kept_ite, foldl_kept, ite_self, implies_true, State.landEnded_kept, State.l1FlushCmd_kept]

theorem State.clearStreams_kept (a0 a1) : (State.clearStreams a0 a1).kept = a0.kept := by
  simp only [State.clearStreams, kept_mk, kept_eta]

theorem State.zeroBaysOf_kept (a0 a1) : (State.zeroBaysOf a0 a1).kept = a0.kept := by
  simp only [State.zeroBaysOf, kept_ite, foldl_kept, ite_self, implies_true, State.updBay_kept]

theorem State.beginTenantReset_kept (a0 a1 a2) : (State.beginTenantReset a0 a1 a2).kept = a0.kept := by
  simp only [State.beginTenantReset, foldl_kept, implies_true, State.noteStart_kept, State.landReqs_kept, State.flushCmdL1_kept, State.updSlice_kept, State.abortSends_kept, State.clearStreams_kept, State.abortUndispatched_kept, State.zeroBaysOf_kept, State.completeWith_kept]

theorem State.breakInbound_kept (a0 a1) : (State.breakInbound a0 a1).kept = a0.kept := by
  simp only [State.breakInbound, foldl_kept, implies_true, State.abortIn_kept]

theorem State.breakPort_kept (a0 a1) : (State.breakPort a0 a1).kept = a0.kept := by
  simp only [State.breakPort, foldl_kept, implies_true, State.breakOut_kept, State.breakIn_kept]

theorem State.bumpAll_kept (a0) : (State.bumpAll a0).kept = a0.kept := by
  simp only [State.bumpAll, foldl_kept, implies_true, State.bumpEpoch_kept]

theorem State.packageStop_kept (a0 a1 a2) : (State.packageStop a0 a1 a2).kept = a0.kept := by
  unfold State.packageStop; extract_lets s1; have e1 : s1.kept = a0.kept := State.raise_kept _ _ _; clear_value s1; split; rotate_left; exact e1; rw [kept_mk, kept_eta]; refine (State.bumpAll_kept _).trans ?_; exact (foldl_kept _ (fun s b => State.stopCmd_kept _ _ _) _ _).trans ((State.enterState_kept _ _).trans e1)

theorem State.failLink_kept (a0 a1 a2) : (State.failLink a0 a1 a2).kept = a0.kept := by
  simp only [State.failLink, kept_ite, ite_self, State.updBridge_kept, State.raise_kept, State.packageStop_kept]

theorem State.doFlitReplay_kept (a0 a1 a2) : (State.doFlitReplay a0 a1 a2).kept = a0.kept := by
  simp only [State.doFlitReplay, kept_ite, ite_self, State.injected_kept, State.updBridge_kept, State.failLink_kept]

theorem State.bridgeSlot_kept (a0 a1 a2) : (State.bridgeSlot a0 a1 a2).1.kept = a0.kept := by
  simp only [State.bridgeSlot, State.injected_kept, State.updFlow_kept, State.drawChoice_kept, State.doFlitReplay_kept] <;> (repeat' split) <;> (simp only [State.injected_kept, State.updFlow_kept, State.drawChoice_kept, State.doFlitReplay_kept])

theorem State.bumpAt_kept (a0 a1 a2 a3) : (State.bumpAt a0 a1 a2 a3).kept = a0.kept := by
  unfold State.bumpAt; extract_lets h; have e := (State.atomicAt_kept (((a0.onBehalf a1.cmd).holdWrite h.1 h.2).settleDir h.1 h.2) a2 8 .add .u64 1 0).trans ((State.settleDir_kept _ _ _).trans ((State.holdWrite_kept _ _ _).trans (State.onBehalf_kept _ _))); generalize State.atomicAt _ a2 8 .add .u64 1 0 = y at e ⊢; obtain ⟨t, r⟩ := y; dsimp only at e ⊢; cases r <;> dsimp only <;> (repeat' split) <;> (try simp only [State.agFault_kept, State.agAbort_kept, State.poisonWrite_kept]) <;> exact e

theorem State.bumpFlag_kept (a0 a1 a2) : (State.bumpFlag a0 a1 a2).kept = a0.kept := by
  simp only [State.bumpFlag, State.bumpAt_kept, State.agFault_kept] <;> (repeat' split) <;> (simp only [State.bumpAt_kept, State.agFault_kept])

theorem State.sendFlag_kept (a0 a1 a2) : (State.sendFlag a0 a1 a2).kept = a0.kept := by
  simp only [State.sendFlag] <;> (repeat' split) <;> (rfl)

theorem State.capFlag_kept (a0 a1 a2) : (State.capFlag a0 a1 a2).kept = a0.kept := by
  simp only [State.capFlag, State.bumpFlag_kept, State.sendFlag_kept] <;> (repeat' split) <;> (simp only [State.bumpFlag_kept, State.sendFlag_kept])

theorem State.flagFault_kept (a0 a1 a2 a3 a4) : (State.flagFault a0 a1 a2 a3 a4).kept = a0.kept := by
  simp only [State.flagFault, State.raise_kept]

theorem State.expectDone_kept (a0 a1) : (State.expectDone a0 a1).kept = a0.kept := by
  simp only [State.expectDone, kept_ite, ite_self, State.completeCmd_kept, State.updCmd_kept]

theorem State.readFlag_kept (a0 a1 a2) : (State.readFlag a0 a1 a2).kept = a0.kept := by
  unfold State.readFlag; extract_lets c; have e := State.agRead_kept a0 (a0.quoinOf a1) (swFlagAddr c.block + 8 * a2) 8; generalize a0.agRead (a0.quoinOf a1) (swFlagAddr c.block + 8 * a2) 8 = ye at e ⊢; obtain ⟨t, z⟩ := ye; dsimp only at e ⊢; cases z with | none => exact e | some x => (dsimp only; split; (split; (simp only [kept_mk, kept_eta]; exact e); exact e); exact e)

theorem State.readFlags_kept (a0 a1 a2) : (State.readFlags a0 a1 a2).kept = a0.kept := by
  simp only [State.readFlags, kept_ite, foldl_kept, ite_self, implies_true, State.expectDone_kept, State.readFlag_kept]

theorem State.flagBumped_kept (a0 a1 a2) : (State.flagBumped a0 a1 a2).kept = a0.kept := by
  simp only [State.flagBumped, foldl_kept, implies_true, State.readFlags_kept]

theorem State.remoteAdd_kept (a0 a1 a2 a3 a4) : (State.remoteAdd a0 a1 a2 a3 a4).1.kept = a0.kept := by
  unfold State.remoteAdd <;> (try dsimp only) <;> (repeat' split) <;> (first | (rename_i h1; cases congrArg Prod.fst h1; (simp only [State.atomicAt_kept, State.settleDir_kept, State.holdWrite_kept, State.flagFault_kept, State.flagBumped_kept, State.serveWaiting_kept]; done)) | (rename_i h2 h1; cases congrArg Prod.fst h2; (simp only [State.atomicAt_kept, State.settleDir_kept, State.holdWrite_kept, State.flagFault_kept, State.flagBumped_kept, State.serveWaiting_kept]; done)))

theorem State.remoteBump_kept (a0 a1 a2 a3) : (State.remoteBump a0 a1 a2 a3).1.kept = a0.kept := by
  simp only [State.remoteBump, State.remoteAdd_kept, State.flagFault_kept] <;> (repeat' split) <;> (simp only [State.remoteAdd_kept, State.flagFault_kept])

theorem State.capstoneSaid_kept (a0 a1 a2 a3) : (State.capstoneSaid a0 a1 a2 a3).kept = a0.kept := by
  simp only [State.capstoneSaid, State.sendMsg_kept] <;> (repeat' split) <;> (rfl)

theorem State.capstoneDone_kept (a0 a1 a2 a3) : (State.capstoneDone a0 a1 a2 a3).kept = a0.kept := by
  unfold State.capstoneDone <;> (repeat' split) <;> (first | (simp only [State.remoteBump_kept, State.inClass_kept, State.capstoneSaid_kept, State.abortIn_kept]; done) | (rename_i h1; cases congrArg Prod.fst h1; (simp only [State.remoteBump_kept, State.inClass_kept, State.capstoneSaid_kept, State.abortIn_kept]; done)))

theorem addGangs_kept (a0 a1 a2 a3 a4) : (addGangs a0 a1 a2 a3 a4).kept = a4.kept := by
  induction a3 generalizing a4 with
  | zero => simp only [addGangs]
  | succ k ih => simp only [addGangs, State.updCmd_kept, State.addGang_kept, ih]

theorem State.doLaunch_kept (a0 a1) : (State.doLaunch a0 a1).kept = a0.kept := by
  simp only [State.doLaunch, kept_ite, foldl_kept, ite_self, implies_true, State.fillActive_kept, addGangs_kept]

theorem State.writeImage_kept (a0 a1 a2 a3) : (State.writeImage a0 a1 a2 a3).kept = a0.kept := by
  simp only [State.writeImage, State.writeSaved_kept]

theorem State.settlePhase_kept (a0 a1) : (State.settlePhase a0 a1).kept = a0.kept := by
  simp only [State.settlePhase, State.updCmd_kept]

theorem State.noteImage_kept (a0 a1 a2 a3) : (State.noteImage a0 a1 a2 a3).kept = a0.kept := by
  simp only [State.noteImage, kept_mk, kept_eta, kept_ite, ite_self, State.event_kept]

theorem State.saveBay_kept (a0 a1 a2 a3) : (State.saveBay a0 a1 a2 a3).kept = a0.kept := by
  simp only [State.saveBay, kept_mk, kept_eta, kept_ite, foldl_kept, ite_self, implies_true, State.doLaunch_kept, State.landReqs_kept, State.l1FlushCmd_kept, State.updGang_kept, State.writeImage_kept, State.updCmd_kept, State.leaveBay_kept, State.settlePhase_kept, State.noteImage_kept]

theorem State.saveUnit_kept (a0 a1 a2 a3) : (State.saveUnit a0 a1 a2 a3).kept = a0.kept := by
  simp only [State.saveUnit, State.writeImage_kept, State.updCmd_kept, State.noteImage_kept, State.updBay_kept, State.settlePhase_kept, State.unholdBay_kept] <;> (repeat' split) <;> (simp only [State.writeImage_kept, State.updCmd_kept, State.noteImage_kept, State.updBay_kept, State.settlePhase_kept, State.unholdBay_kept])

theorem State.carryStop_kept (a0 a1 a2) : (State.carryStop a0 a1 a2).kept = a0.kept := by
  simp only [State.carryStop, kept_ite, ite_self, State.signalUnits_kept, State.saveBay_kept, State.saveUnit_kept]

theorem State.claimItem_kept (a0 a1 a2) : (State.claimItem a0 a1 a2).kept = a0.kept := by
  simp only [State.claimItem, kept_ite, ite_self, State.updCmd_kept]

theorem State.updRow_kept (a0 a1 a2 a3) : (State.updRow a0 a1 a2 a3).kept = a0.kept := by
  simp only [State.updRow, State.updCmd_kept]

theorem State.setBusy_kept (a0 a1 a2 a3) : (State.setBusy a0 a1 a2 a3).kept = a0.kept := by
  simp only [State.setBusy, State.updCmd_kept]

theorem State.claimSelect_kept (a0 a1 a2) : (State.claimSelect a0 a1 a2).kept = a0.kept := by
  simp only [State.claimSelect, State.updCmd_kept, State.updRow_kept, State.setBusy_kept] <;> (repeat' split) <;> (simp only [State.updCmd_kept, State.updRow_kept, State.setBusy_kept]; done)

theorem State.clearArrays_kept (a0 a1) : (State.clearArrays a0 a1).kept = a0.kept := by
  simp only [State.clearArrays, kept_mk, kept_eta]

theorem State.clearFilters_kept (a0 a1) : (State.clearFilters a0 a1).kept = a0.kept := by
  simp only [State.clearFilters, kept_mk, kept_eta]

theorem State.mapGroups_kept (a0 a1 a2) : (State.mapGroups a0 a1 a2).kept = a0.kept := by
  simp only [State.mapGroups, kept_mk, kept_eta]

theorem State.clearGroups_kept (a0 a1) : (State.clearGroups a0 a1).kept = a0.kept := by
  simp only [State.clearGroups, State.mapGroups_kept]

theorem State.returnBuffers_kept (a0 a1 a2) : (State.returnBuffers a0 a1 a2).kept = a0.kept := by
  simp only [State.returnBuffers, kept_ite, foldl_kept, ite_self, implies_true, State.freeBuffer_kept]

theorem State.clearOwner_kept (a0 a1) : (State.clearOwner a0 a1).kept = a0.kept := by
  simp only [State.clearOwner, kept_mk, kept_eta, kept_ite, foldl_kept, ite_self, implies_true, State.returnBuffers_kept, State.updSlice_kept, State.updBay_kept]

theorem State.refuseUnit_kept (a0) : (State.refuseUnit a0).kept = a0.kept := by
  simp only [State.refuseUnit, kept_mk, kept_eta]

theorem State.mergeReset_kept (a0) : (State.mergeReset a0).kept = a0.kept := by
  simp only [State.mergeReset, kept_mk, kept_eta]

theorem State.disarmIn_kept (a0 a1) : (State.disarmIn a0 a1).kept = a0.kept := by
  simp only [State.disarmIn, kept_mk, kept_eta, kept_ite, ite_self]

theorem State.startBay_kept (a0 a1 a2 a3) : (State.startBay a0 a1 a2 a3).kept = a0.kept := by
  simp only [State.startBay, State.clearStreams_kept, State.abortBay_kept, State.closeShield_kept, State.updBay_kept, State.disarmIn_kept]

theorem State.doBayReset_kept (a0 a1 a2) : (State.doBayReset a0 a1 a2).kept = a0.kept := by
  simp only [State.doBayReset, kept_ite, ite_self, State.mergeReset_kept, State.startBay_kept, State.noteStart_kept]

theorem State.startPort_kept (a0 a1 a2) : (State.startPort a0 a1 a2).kept = a0.kept := by
  simp only [State.startPort, State.noteStart_kept, State.breakPort_kept, State.closeShield_kept, State.updPort_kept, State.remaster_kept, State.disarmIn_kept]

theorem State.doPortReset_kept (a0 a1 a2) : (State.doPortReset a0 a1 a2).kept = a0.kept := by
  simp only [State.doPortReset, kept_ite, ite_self, State.mergeReset_kept, State.startPort_kept]

theorem State.powerUp_kept (a0 a1) : (State.powerUp a0 a1).kept = a0.kept := by
  simp only [State.powerUp, State.doBayReset_kept, State.updBay_kept, State.doPortReset_kept, State.updPort_kept] <;> (repeat' split) <;> (simp only [State.doBayReset_kept, State.updBay_kept, State.doPortReset_kept, State.updPort_kept])

theorem State.drainBay_kept (a0 a1) : (State.drainBay a0 a1).kept = a0.kept := by
  simp only [State.drainBay, kept_ite, foldl_kept, ite_self, implies_true, State.updBay_kept, State.drawChoice_kept, State.carryStop_kept, State.updCmd_kept, State.cutBay_kept]

theorem State.drainPort_kept (a0 a1) : (State.drainPort a0 a1).kept = a0.kept := by
  simp only [State.drainPort, kept_ite, ite_self, State.updPort_kept, State.cutPort_kept, State.settlePort_kept]

theorem State.powerNow_kept (a0 a1 a2) : (State.powerNow a0 a1 a2).kept = a0.kept := by
  simp only [State.powerNow, State.powerUp_kept, State.drainBay_kept, State.drainPort_kept] <;> (repeat' split) <;> (simp only [State.powerUp_kept, State.drainBay_kept, State.drainPort_kept])

theorem State.powerRequest_kept (a0 a1 a2) : (State.powerRequest a0 a1 a2).kept = a0.kept := by
  simp only [State.powerRequest, kept_mk, kept_eta, State.refuseUnit_kept, State.powerNow_kept] <;> (repeat' split) <;> (simp only [kept_mk, kept_eta, State.refuseUnit_kept, State.powerNow_kept])

theorem State.closeSplit_kept (a0 a1) : (State.closeSplit a0 a1).kept = a0.kept := by
  simp only [State.closeSplit, kept_mk, kept_eta, foldl_kept, implies_true, State.powerRequest_kept]

theorem State.collect_kept (a0 a1) : (State.collect a0 a1).kept = a0.kept := by
  simp only [State.collect, State.fillBucket_kept, State.assignSeq_kept]

theorem State.fillConst_kept (a0 a1 a2 a3) : (State.fillConst a0 a1 a2 a3).kept = a0.kept := by
  simp only [State.fillConst, State.roRoom_kept, State.updBay_kept]

theorem readConst_kept (a0 a1 a2 a3) : (readConst a0 a1 a2 a3).kept = a3.kept := by
  induction a2 generalizing a3 with
  | nil => simp only [readConst]
  | cons x t ih => simp only [readConst, State.agRead_kept, State.fillConst_kept, ih] <;> (repeat' split) <;> (rename_i h1; cases congrArg Prod.fst h1; (simp only [State.agRead_kept, State.fillConst_kept, ih]; done))

theorem State.takeBus_kept (a0 a1 a2) : (State.takeBus a0 a1 a2).1.kept = a0.kept := by
  simp only [State.takeBus, kept_mk, kept_eta, kept_ite, ite_self, apply_ite Prod.fst]

theorem State.countFallbacks_kept (a0 a1 a2) : (State.countFallbacks a0 a1 a2).kept = a0.kept := by
  simp only [State.countFallbacks, kept_mk, kept_eta]

theorem State.constMiss_kept (a0 a1 a2 a3) : (State.constMiss a0 a1 a2 a3).kept = a0.kept := by
  unfold State.constMiss <;> (repeat' split) <;> (first | (rename_i h1; cases congrArg Prod.fst h1; (simp only [kept_ite, foldl_kept, ite_self, implies_true, readConst_kept, State.takeBus_kept, State.agRead_kept, State.fillConst_kept, State.countFallbacks_kept]; done)) | (rename_i h1 _ _ h0; cases congrArg Prod.fst h1; cases congrArg Prod.fst h0; (simp only [kept_ite, foldl_kept, ite_self, implies_true, readConst_kept, State.takeBus_kept, State.agRead_kept, State.fillConst_kept, State.countFallbacks_kept]; done)) | (rename_i h1 _ _ _ h0; cases congrArg Prod.fst h1; cases congrArg Prod.fst h0; (simp only [kept_ite, foldl_kept, ite_self, implies_true, readConst_kept, State.takeBus_kept, State.agRead_kept, State.fillConst_kept, State.countFallbacks_kept]; done)))

theorem State.copyBad_kept (a0 a1 a2) : (State.copyBad a0 a1 a2).kept = a0.kept := by
  simp only [State.copyBad, kept_mk, kept_eta, State.postLog_kept]

theorem State.copyEnd_kept (a0 a1) : (State.copyEnd a0 a1).kept = a0.kept := by
  simp only [State.copyEnd, kept_mk, kept_eta]

theorem State.dropLine_kept (a0 a1 a2) : (State.dropLine a0 a1 a2).kept = a0.kept := by
  unfold State.dropLine <;> (try dsimp only) <;> (repeat' split) <;> (simp only [State.dropReplica_kept, State.dropWay_kept]; done)

theorem State.markPoisoned_kept (a0 a1 a2) : (State.markPoisoned a0 a1 a2).kept = a0.kept := by
  simp only [State.markPoisoned, State.setLineState_kept, State.openShare_kept, State.dropLine_kept]

theorem copyPoison_kept (a0 a1 a2 a3) : (copyPoison a0 a1 a2 a3).1.kept = a3.kept := by
  induction a1 generalizing a2 a3 with
  | zero => simp only [copyPoison]
  | succ k ih => simp only [copyPoison, State.serveWaiting_kept, State.markPoisoned_kept, ih] <;> (repeat' split) <;> (simp only [State.serveWaiting_kept, State.markPoisoned_kept, ih]; done)

theorem State.quietRead_kept (a0 a1 a2) : (State.quietRead a0 a1 a2).1.kept = a0.kept := by
  unfold State.quietRead <;> (repeat' split) <;> (first | (simp only [State.lineRead_kept, State.updSlice_kept]; done) | (rename_i h1; cases congrArg Prod.fst h1; (simp only [State.lineRead_kept, State.updSlice_kept]; done)))

theorem State.elided_kept (a0 a1 a2 a3 a4) : (State.elided a0 a1 a2 a3 a4).1.kept = a0.kept := by
  unfold State.elided <;> (repeat' split) <;> (first | with_reducible rfl | (rename_i h1; cases congrArg Prod.fst h1; (simp only [State.quietRead_kept]; done)))

theorem copyIn_kept (a0 a1 a2 a3 a4 a5 a6) : (copyIn a0 a1 a2 a3 a4 a5 a6).1.kept = a6.kept := by
  induction a4 generalizing a5 a6 with
  | zero => simp only [copyIn]
  | succ k ih => simp only [copyIn, kept_ite, apply_ite Prod.fst, State.elided_kept, State.lineWrite_kept, State.serveWaiting_kept, ih] <;> (repeat' split) <;> (first | with_reducible rfl | (rename_i h1; cases congrArg Prod.fst h1; (simp only [kept_ite, apply_ite Prod.fst, State.elided_kept, State.lineWrite_kept, State.serveWaiting_kept, ih]; done)))

theorem copyOut_kept (a0 a1 a2 a3 a4 a5 a6) : (copyOut a0 a1 a2 a3 a4 a5 a6).1.kept = a6.kept := by
  induction a4 generalizing a5 a6 with
  | zero => simp only [copyOut]
  | succ k ih => simp only [copyOut, State.quietRead_kept, State.hostWrite_kept, State.copyBad_kept, ih] <;> (repeat' split) <;> (rename_i h1; cases congrArg Prod.fst h1; (simp only [State.quietRead_kept, State.hostWrite_kept, State.copyBad_kept, ih]; done))

theorem State.copyWork_kept (a0 a1) : (State.copyWork a0 a1).kept = a0.kept := by
  simp only [State.copyWork, State.inClass_kept, State.copyEnd_kept, copyPoison_kept, copyIn_kept, copyOut_kept] <;> (repeat' split) <;> (simp only [State.inClass_kept, State.copyEnd_kept, copyPoison_kept, copyIn_kept, copyOut_kept])

theorem State.countElems_kept (a0 a1 a2 a3) : (State.countElems a0 a1 a2 a3).kept = a0.kept := by
  simp only [State.countElems, State.updBay_kept, State.event_kept, State.count_kept]

theorem State.countInstr_kept (a0 a1 a2) : (State.countInstr a0 a1 a2).kept = a0.kept := by
  simp only [State.countInstr, kept_mk, kept_eta, State.event_kept]

theorem State.countRows_kept (a0 a1 a2 a3 a4) : (State.countRows a0 a1 a2 a3 a4).kept = a0.kept := by
  simp only [State.countRows, State.updBay_kept, State.event_kept, State.count_kept]

theorem State.countTile_kept (a0 a1 a2 a3 a4 a5) : (State.countTile a0 a1 a2 a3 a4 a5).kept = a0.kept := by
  simp only [State.countTile, State.event_kept, State.count_kept, State.updBay_kept]

theorem State.discardRec_kept (a0 a1 a2 a3) : (State.discardRec a0 a1 a2 a3).kept = a0.kept := by
  unfold State.discardRec <;> (repeat' split) <;> (simp only [State.updCq_kept, State.updSlice_kept, State.freeBuffer_kept, State.freePlace_kept]; done)

theorem State.discardWaiting_kept (a0 a1 a2) : (State.discardWaiting a0 a1 a2).kept = a0.kept := by
  simp only [State.discardWaiting, foldl_kept, implies_true, State.updCq_kept, State.discardRec_kept]

theorem State.cqCfg_kept (a0 a1 a2 a3) : (State.cqCfg a0 a1 a2 a3).kept = a0.kept := by
  simp only [State.cqCfg, kept_ite, ite_self, State.updCq_kept, State.discardWaiting_kept]

theorem State.spoilSlot_kept (a0 a1) : (State.spoilSlot a0 a1).kept = a0.kept := by
  simp only [State.spoilSlot, kept_mk, kept_eta]

theorem State.spoilRecord_kept (a0) : (State.spoilRecord a0).kept = a0.kept := by
  simp only [State.spoilRecord, kept_mk, kept_eta]

theorem State.cutFlash_kept (a0) : (State.cutFlash a0).kept = a0.kept := by
  simp only [State.cutFlash] <;> (repeat' split) <;> (rfl)

theorem State.descBad_kept (a0 a1 a2) : (State.descBad a0 a1 a2).kept = a0.kept := by
  simp only [State.descBad, State.raise_kept, State.updSlice_kept] <;> (repeat' split) <;> (rfl)

theorem State.disableSq_kept (a0 a1 a2) : (State.disableSq a0 a1 a2).kept = a0.kept := by
  simp only [State.disableSq, kept_ite, foldl_kept, ite_self, implies_true, State.updSq_kept, State.finishUndispatched_kept]

theorem State.peerResult_kept (a0 a1) : (State.peerResult a0 a1).kept = a0.kept := by
  simp only [State.peerResult, kept_mk, kept_eta]

theorem State.doAccept_kept (a0 a1 a2 a3 a4 a5 a6 a7) : (State.doAccept a0 a1 a2 a3 a4 a5 a6 a7).kept = a0.kept := by
  simp only [State.doAccept, kept_ite, ite_self, State.peerResult_kept, State.updSlice_kept]

theorem State.doAck_kept (a0 a1) : (State.doAck a0 a1).kept = a0.kept := by
  simp only [State.doAck, kept_mk, kept_eta, kept_ite, ite_self]

theorem State.updAging_kept (a0 a1 a2) : (State.updAging a0 a1 a2).kept = a0.kept := by
  simp only [State.updAging, kept_mk, kept_eta]

theorem State.judgeAging_kept (a0 a1) : (State.judgeAging a0 a1).kept = a0.kept := by
  simp only [State.judgeAging, kept_ite, ite_self, State.updAging_kept, State.appendJournal_kept]

theorem State.doAging_kept (a0 a1 a2) : (State.doAging a0 a1 a2).kept = a0.kept := by
  simp only [State.doAging, kept_mk, kept_eta, kept_ite, foldl_kept, ite_self, implies_true, State.judgeAging_kept, State.updAging_kept, State.adjustRail_kept]

theorem State.refuseInject_kept (a0) : (State.refuseInject a0).kept = a0.kept := by
  simp only [State.refuseInject, kept_mk, kept_eta]

theorem State.doArm_kept (a0 a1 a2 a3 a4 a5) : (State.doArm a0 a1 a2 a3 a4 a5).kept = a0.kept := by
  simp only [State.doArm, kept_mk, kept_eta, kept_ite, ite_self, State.refuseInject_kept]

theorem State.gangFault_kept (a0 a1 a2 a3) : (State.gangFault a0 a1 a2 a3).kept = a0.kept := by
  simp only [State.gangFault, State.cmdFault_kept]

theorem State.gangDpa_kept (a0 a1 a2 a3) : (State.gangDpa a0 a1 a2 a3).1.kept = a0.kept := by
  simp only [State.gangDpa] <;> (repeat' split) <;> (simp only [State.gangFault_kept])

theorem State.l1Forget_kept (a0 a1 a2 a3) : (State.l1Forget a0 a1 a2 a3).kept = a0.kept := by
  simp only [State.l1Forget] <;> (repeat' split) <;> (rfl)

theorem State.newReq_kept (a0 a1 a2 a3 a4 a5 a6 a7) : (State.newReq a0 a1 a2 a3 a4 a5 a6 a7).kept = a0.kept := by
  simp only [State.newReq] <;> (repeat' split) <;> (rfl)

theorem State.doAtomic_kept (a0 a1 a2 a3 a4 a5 a6 a7) : (State.doAtomic a0 a1 a2 a3 a4 a5 a6 a7).kept = a0.kept := by
  simp only [State.doAtomic, State.gangFault_kept, State.gangDpa_kept, State.l1Forget_kept, State.l1WriteMask_kept, State.newReq_kept, State.setReq_kept] <;> (repeat' split) <;> (first | (simp only [State.gangFault_kept, State.gangDpa_kept, State.l1Forget_kept, State.l1WriteMask_kept, State.newReq_kept, State.setReq_kept]; done) | (rename_i h1; cases congrArg Prod.fst h1; (simp only [State.gangFault_kept, State.gangDpa_kept, State.l1Forget_kept, State.l1WriteMask_kept, State.newReq_kept, State.setReq_kept]; done)) | (rename_i h1 _ h0; cases congrArg Prod.fst h1; (simp only [State.gangFault_kept, State.gangDpa_kept, State.l1Forget_kept, State.l1WriteMask_kept, State.newReq_kept, State.setReq_kept]; done)) | (rename_i h1 _ _ _; cases congrArg Prod.fst h1; (simp only [State.gangFault_kept, State.gangDpa_kept, State.l1Forget_kept, State.l1WriteMask_kept, State.newReq_kept, State.setReq_kept]; done)))

theorem State.doBeaconSend_kept (a0) : (State.doBeaconSend a0).kept = a0.kept := by
  simp only [State.doBeaconSend, kept_ite, foldl_kept, ite_self, implies_true, State.updPort_kept, State.sendMsg_kept]

theorem State.migEnd_kept (a0 a1 a2 a3) : (State.migEnd a0 a1 a2 a3).kept = a0.kept := by
  simp only [State.migEnd, kept_mk, kept_eta]

theorem State.rereadLines_kept (a0 a1 a2 a3 a4) : (State.rereadLines a0 a1 a2 a3 a4).1.kept = a0.kept := by
  induction a4 with
  | zero => simp only [State.rereadLines]
  | succ k ih => simp only [State.rereadLines, State.quietRead_kept, ih] <;> (repeat' split) <;> (first | (simp only [State.quietRead_kept, ih]; done) | (rename_i h1; cases congrArg Prod.fst h1; (simp only [State.quietRead_kept, ih]; done)))

theorem State.reread_kept (a0 a1 a2 a3 a4) : (State.reread a0 a1 a2 a3 a4).1.kept = a0.kept := by
  simp only [State.reread, State.rereadLines_kept]

theorem State.restoreCmd_kept (a0 a1 a2) : (State.restoreCmd a0 a1 a2).kept = a0.kept := by
  simp only [State.restoreCmd, kept_mk, kept_eta, kept_ite, ite_self, apply_ite Prod.fst, State.reread_kept, State.setCmd_kept, State.updSq_kept]

theorem State.installBlob_kept (a0 a1 a2 a3) : (State.installBlob a0 a1 a2 a3).kept = a0.kept := by
  simp only [State.installBlob, kept_mk, kept_eta, foldl_kept, implies_true, State.updSlice_kept, State.restoreCmd_kept]

theorem State.importBlob_kept (a0 a1 a2 a3) : (State.importBlob a0 a1 a2 a3).kept = a0.kept := by
  simp only [State.importBlob, State.migEnd_kept, State.installBlob_kept] <;> (repeat' split) <;> (simp only [State.migEnd_kept, State.installBlob_kept])

theorem State.doBlobDone_kept (a0 a1) : (State.doBlobDone a0 a1).kept = a0.kept := by
  unfold State.doBlobDone <;> (repeat' split) <;> (simp only [State.migEnd_kept, State.hostWrite_kept, State.importBlob_kept]; done)

theorem State.sendOpenMsg_kept (a0 a1 a2 a3 a4) : (State.sendOpenMsg a0 a1 a2 a3 a4).kept = a0.kept := by
  simp only [State.sendOpenMsg, State.sendMsg_kept]

theorem State.doBusyRetry_kept (a0 a1) : (State.doBusyRetry a0 a1).kept = a0.kept := by
  unfold State.doBusyRetry <;> (repeat' split) <;> (simp only [State.refuseSend_kept, State.delOut_kept, State.sendOpenMsg_kept, State.setOut_kept]; done)

theorem State.doCapstoneApply_kept (a0 a1 a2) : (State.doCapstoneApply a0 a1 a2).kept = a0.kept := by
  unfold State.doCapstoneApply <;> (repeat' split) <;> (first | (simp only [State.abortIn_kept, State.countRefused_kept, State.landBytes_kept, State.capstoneDone_kept]; done) | (rename_i h1; cases congrArg Prod.fst h1; (simp only [State.abortIn_kept, State.countRefused_kept, State.landBytes_kept, State.capstoneDone_kept]; done)))

theorem State.mapLookup_kept (a0 a1 a2 a3) : (State.mapLookup a0 a1 a2 a3).1.kept = a0.kept := by
  simp only [State.mapLookup, kept_ite, ite_self, apply_ite Prod.fst, State.mapCheck_kept, State.corruptLine_kept]

theorem State.reachHome_kept (a0 a1 a2) : (State.reachHome a0 a1 a2).kept = a0.kept := by
  simp only [State.reachHome] <;> (repeat' split) <;> (simp only [State.serveOrQueue_kept])

theorem State.doChannelRead_kept (a0 a1 a2 a3 a4 a5) : (State.doChannelRead a0 a1 a2 a3 a4 a5).kept = a0.kept := by
  unfold State.doChannelRead <;> (repeat' split) <;> (first | (simp only [State.updChan_kept, State.mapLookup_kept, State.chanRead_kept, State.addErrors_kept, State.reachHome_kept, State.badRead_kept]; done) | (rename_i h1; cases congrArg Prod.fst h1; (simp only [State.updChan_kept, State.mapLookup_kept, State.chanRead_kept, State.addErrors_kept, State.reachHome_kept, State.badRead_kept]; done)) | (rename_i h1 _ h0; cases congrArg Prod.fst h1; (simp only [State.updChan_kept, State.mapLookup_kept, State.chanRead_kept, State.addErrors_kept, State.reachHome_kept, State.badRead_kept]; done)) | (rename_i h1 _ _ _; cases congrArg Prod.fst h1; (simp only [State.updChan_kept, State.mapLookup_kept, State.chanRead_kept, State.addErrors_kept, State.reachHome_kept, State.badRead_kept]; done)))

theorem State.startChan_kept (a0 a1 a2 a3) : (State.startChan a0 a1 a2 a3).kept = a0.kept := by
  simp only [State.startChan, State.closeShield_kept, State.abortCapstones_kept, State.updChan_kept, State.setUnitState_kept, State.disarmIn_kept]

theorem State.doChannelReset_kept (a0 a1 a2) : (State.doChannelReset a0 a1 a2).kept = a0.kept := by
  simp only [State.doChannelReset, kept_ite, ite_self, State.mergeReset_kept, State.startChan_kept, State.noteStart_kept, State.updChan_kept]

theorem State.writeLine_kept (a0 a1 a2 a3 a4) : (State.writeLine a0 a1 a2 a3 a4).kept = a0.kept := by
  unfold State.writeLine <;> (repeat' split) <;> (rename_i h1; cases congrArg Prod.fst h1; (simp only [State.chanWrite_kept, State.raise_kept]; done))

theorem State.doChannelWrite_kept (a0 a1 a2 a3 a4) : (State.doChannelWrite a0 a1 a2 a3 a4).kept = a0.kept := by
  simp only [State.doChannelWrite, kept_ite, ite_self, State.updChan_kept, State.writeLine_kept]

theorem State.doClaim_kept (a0 a1 a2) : (State.doClaim a0 a1 a2).kept = a0.kept := by
  simp only [State.doClaim, kept_ite, ite_self, State.claimItem_kept, State.claimSelect_kept]

theorem State.doClear_kept (a0 a1) : (State.doClear a0 a1).kept = a0.kept := by
  simp only [State.doClear, kept_ite, ite_self, State.clearGroups_kept]

theorem State.doClearAccess_kept (a0) : (State.doClearAccess a0).kept = a0.kept := by
  simp only [State.doClearAccess, kept_mk, kept_eta, kept_ite, ite_self]

theorem State.doClearStats_kept (a0) : (State.doClearStats a0).kept = a0.kept := by
  simp only [State.doClearStats, kept_mk, kept_eta, kept_ite, ite_self]

theorem State.takeRecord_kept (a0 a1) : (State.takeRecord a0 a1).kept = a0.kept := by
  simp only [State.takeRecord, kept_mk, kept_eta, State.signalUnits_kept, State.updReporter_kept, State.collect_kept] <;> (repeat' split) <;> (simp only [kept_mk, kept_eta, State.signalUnits_kept, State.updReporter_kept, State.collect_kept])

theorem State.forwardRecord_kept (a0 a1) : (State.forwardRecord a0 a1).kept = a0.kept := by
  simp only [State.forwardRecord, kept_mk, kept_eta, State.collect_kept] <;> (repeat' split) <;> (simp only [kept_mk, kept_eta, State.collect_kept])

theorem State.doCollect_kept (a0 a1 a2) : (State.doCollect a0 a1 a2).kept = a0.kept := by
  simp only [State.doCollect, State.takeRecord_kept, State.forwardRecord_kept] <;> (repeat' split) <;> (simp only [State.takeRecord_kept, State.forwardRecord_kept])

theorem State.sendDone_kept (a0 a1) : (State.sendDone a0 a1).kept = a0.kept := by
  simp only [State.sendDone, foldl_kept, implies_true, State.signalUnits_kept]

theorem State.doCommandComplete_kept (a0 a1) : (State.doCommandComplete a0 a1).kept = a0.kept := by
  simp only [State.doCommandComplete, kept_ite, ite_self, State.flushCmdL1_kept, State.completeCmd_kept, State.sendDone_kept]

theorem State.freeLanes_kept (a0 a1 a2) : (State.freeLanes a0 a1 a2).kept = a0.kept := by
  simp only [State.freeLanes, kept_mk, kept_eta, foldl_kept, implies_true, State.setReg_kept]

theorem State.setLanes_kept (a0 a1 a2 a3) : (State.setLanes a0 a1 a2 a3).kept = a0.kept := by
  simp only [State.setLanes, foldl_kept, implies_true, State.setReg_kept]

theorem State.doConst_kept (a0 a1 a2 a3) : (State.doConst a0 a1 a2 a3).kept = a0.kept := by
  simp only [State.doConst, State.freeLanes_kept, State.constMiss_kept, State.setLanes_kept] <;> (repeat' split) <;> (simp only [State.freeLanes_kept, State.constMiss_kept, State.setLanes_kept])

theorem State.workDone_kept (a0 a1) : (State.workDone a0 a1).kept = a0.kept := by
  simp only [State.workDone, State.updCmd_kept]

theorem copyLines_kept (a0 a1 a2 a3 a4) (ha2 : ∀ b0 b1 b2, (a2 b0 b1 b2).1.kept = b0.kept) : (copyLines a0 a1 a2 a3 a4).kept = a4.kept := by
  induction a3 generalizing a4 with
  | nil => simp only [copyLines]
  | cons x t ih => simp only [copyLines, State.agStore_kept, State.updCmd_kept, ha2, ih] <;> (repeat' split) <;> (first | (rename_i h1; cases congrArg Prod.fst h1; (simp only [State.agStore_kept, State.updCmd_kept, ha2, ih]; done)) | (rename_i h1 _ _ h0; cases congrArg Prod.fst h1; cases congrArg Prod.fst h0; (simp only [State.agStore_kept, State.updCmd_kept, ha2, ih]; done)))

theorem State.doCopy_kept (a0 a1 a2) : (State.doCopy a0 a1 a2).kept = a0.kept := by
  simp only [State.doCopy, implies_true, State.agFault_kept, State.bulk_kept, State.onBehalf_kept, State.count_kept, State.workDone_kept, copyLines_kept, State.agRead_kept] <;> (repeat' split) <;> (simp only [implies_true, State.agFault_kept, State.bulk_kept, State.onBehalf_kept, State.count_kept, State.workDone_kept, copyLines_kept, State.agRead_kept])

theorem writeItems_kept (a0 a1 a2) : (writeItems a0 a1 a2).1.kept = a2.kept := by
  induction a1 generalizing a2 with
  | nil => simp only [writeItems]
  | cons x t ih => simp only [writeItems, State.injected_kept, ih]

theorem State.rewriteCopy_kept (a0 a1 a2 a3) : (State.rewriteCopy a0 a1 a2 a3).kept = a0.kept := by
  simp only [State.rewriteCopy, writeItems_kept, State.updSlice_kept, State.raise_kept]

theorem State.doDescScrub_kept (a0 a1) : (State.doDescScrub a0 a1).kept = a0.kept := by
  simp only [State.doDescScrub, State.rewriteCopy_kept, State.descBad_kept] <;> (repeat' split) <;> (simp only [State.rewriteCopy_kept, State.descBad_kept]; done)

theorem State.saveDirty_kept (a0 a1 a2) : (State.saveDirty a0 a1 a2).kept = a0.kept := by
  simp only [State.saveDirty, kept_ite, ite_self, State.poisonLine_kept, State.openShare_kept, State.writeBackWay_kept]

theorem State.poisonLost_kept (a0 a1) : (State.poisonLost a0 a1).kept = a0.kept := by
  simp only [State.poisonLost, foldl_kept, implies_true, State.setLineState_kept, State.raise_kept]

theorem State.startDie_kept (a0 a1 a2 a3) : (State.startDie a0 a1 a2 a3).kept = a0.kept := by
  simp only [State.startDie, kept_mk, kept_eta, kept_ite, foldl_kept, ite_self, implies_true, State.mergeReset_kept, State.noteStart_kept, State.saveDirty_kept, State.poisonLost_kept, State.startBay_kept, State.startChan_kept, State.disarmIn_kept, State.clearArrays_kept]

theorem State.doDieReset_kept (a0 a1 a2 a3) : (State.doDieReset a0 a1 a2 a3).kept = a0.kept := by
  simp only [State.doDieReset, kept_ite, ite_self, State.mergeReset_kept, State.startDie_kept]

theorem State.doDisarm_kept (a0 a1) : (State.doDisarm a0 a1).kept = a0.kept := by
  simp only [State.doDisarm, kept_mk, kept_eta, kept_ite, ite_self, State.refuseInject_kept]

theorem State.doDiscard_kept (a0 a1) : (State.doDiscard a0 a1).kept = a0.kept := by
  simp only [State.doDiscard, kept_mk, kept_eta, State.dropCap_kept] <;> (repeat' split) <;> (simp only [kept_mk, kept_eta, State.dropCap_kept])

theorem State.wrongState_kept (a0) : (State.wrongState a0).kept = a0.kept := by
  simp only [State.wrongState, kept_mk, kept_eta]

theorem State.doDrain_kept (a0 a1) : (State.doDrain a0 a1).kept = a0.kept := by
  simp only [State.doDrain, kept_ite, ite_self, State.updSlice_kept, State.wrongState_kept]

theorem State.doEntdaa_kept (a0 a1) : (State.doEntdaa a0 a1).kept = a0.kept := by
  simp only [State.doEntdaa, kept_mk, kept_eta, kept_ite, ite_self]

theorem State.plumbUnitPower_kept (a0 a1 a2) : (State.plumbUnitPower a0 a1 a2).kept = a0.kept := by
  simp only [State.plumbUnitPower, kept_ite, ite_self, State.answer_kept, State.powerRequest_kept]

theorem State.refuseReset_kept (a0) : (State.refuseReset a0).kept = a0.kept := by
  simp only [State.refuseReset, kept_mk, kept_eta]

theorem State.drawBytes_kept (a0 a1) : (State.drawBytes a0 a1).2.kept = a0.kept := by
  simp only [State.drawBytes, kept_mk, kept_eta]

theorem State.storeFlash_kept (a0 a1 a2 a3) : (State.storeFlash a0 a1 a2 a3).1.kept = a0.kept := by
  simp only [State.storeFlash, kept_mk, kept_eta, kept_ite, ite_self, apply_ite Prod.fst, apply_ite Prod.snd, State.appendJournal_kept, State.drawBytes_kept]

theorem State.stageFirmware_kept (a0 a1 a2 a3) : (State.stageFirmware a0 a1 a2 a3).1.kept = a0.kept := by
  unfold State.stageFirmware <;> (repeat' split) <;> (first | rfl | (rename_i h1; cases congrArg Prod.fst h1; (simp only [State.storeFlash_kept]; done)))

theorem State.stageImage_kept (a0 a1 a2 a3) : (State.stageImage a0 a1 a2 a3).1.kept = a0.kept := by
  unfold State.stageImage <;> (repeat' split) <;> (first | rfl | (rename_i h1; cases congrArg Prod.fst h1; (simp only [State.storeFlash_kept]; done)))

theorem State.doStage_kept (a0 a1 a2 a3) : (State.doStage a0 a1 a2 a3).kept = a0.kept := by
  simp only [State.doStage, kept_ite, ite_self, apply_ite Prod.fst, State.stageFirmware_kept, State.stageImage_kept, State.answer_kept]

theorem State.postManager_kept (a0 a1 a2 a3) : (State.postManager a0 a1 a2 a3).1.kept = a0.kept := by
  simp only [State.postManager, kept_ite, ite_self, State.hostWrite_kept]

theorem State.doFaultPost_kept (a0) : (State.doFaultPost a0).kept = a0.kept := by
  simp only [State.doFaultPost, kept_mk, kept_eta, State.postManager_kept] <;> (repeat' split) <;> (simp only [kept_mk, kept_eta, State.postManager_kept])

theorem State.doFaultSummary_kept (a0) : (State.doFaultSummary a0).kept = a0.kept := by
  simp only [State.doFaultSummary, kept_mk, kept_eta, kept_ite, ite_self, State.answer_kept, State.drawChoice_kept]

theorem State.doFenceTimeout_kept (a0 a1) : (State.doFenceTimeout a0 a1).kept = a0.kept := by
  unfold State.doFenceTimeout <;> (repeat' split) <;> (simp only [kept_ite, ite_self, State.readFlags_kept, State.completeCmd_kept]; done)

theorem State.fetchFailed_kept (a0 a1 a2 a3) : (State.fetchFailed a0 a1 a2 a3).kept = a0.kept := by
  simp only [State.fetchFailed, State.updSq_kept, State.raise_kept]

theorem State.fetchHandles_kept (a0 a1 a2) : (State.fetchHandles a0 a1 a2).1.kept = a0.kept := by
  simp only [State.fetchHandles, State.agRead_kept, State.updCmd_kept] <;> (repeat' split) <;> (first | with_reducible rfl | (rename_i h1; cases congrArg Prod.fst h1; (simp only [State.agRead_kept, State.updCmd_kept]; done)) | (rename_i h2 h1; cases congrArg Prod.fst h2; (simp only [State.agRead_kept, State.updCmd_kept]; done)))

theorem State.fetchBlock_kept (a0 a1 a2) : (State.fetchBlock a0 a1 a2).1.kept = a0.kept := by
  simp only [State.fetchBlock, State.agRead_kept, State.updCmd_kept] <;> (repeat' split) <;> (first | with_reducible rfl | (rename_i h1; cases congrArg Prod.fst h1; (simp only [State.agRead_kept, State.updCmd_kept]; done)) | (rename_i h1 _ h0; cases congrArg Prod.fst h1; (simp only [State.agRead_kept, State.updCmd_kept]; done)) | (rename_i h1 _ _ _; cases congrArg Prod.fst h1; (simp only [State.agRead_kept, State.updCmd_kept]; done)))

theorem State.fetchChecks_kept (a0 a1 a2) : (State.fetchChecks a0 a1 a2).1.kept = a0.kept := by
  simp only [State.fetchChecks, State.fetchHandles_kept, State.fetchBlock_kept] <;> (repeat' split) <;> (first | (simp only [State.fetchHandles_kept, State.fetchBlock_kept]; done) | (rename_i h1; cases congrArg Prod.fst h1; (simp only [State.fetchHandles_kept, State.fetchBlock_kept]; done)))

theorem State.fetchEnd_kept (a0 a1 a2 a3 a4 a5 a6) : (State.fetchEnd a0 a1 a2 a3 a4 a5 a6).kept = a0.kept := by
  simp only [State.fetchEnd, State.finishUndispatched_kept]

theorem State.fetchJudge_kept (a0 a1 a2) : (State.fetchJudge a0 a1 a2).kept = a0.kept := by
  unfold State.fetchJudge; extract_lets bf s1; have e1 : s1.kept = a0.kept := State.updCmd_kept _ _ _; clear_value s1; have e := (State.fetchChecks_kept s1 a1 a2).trans e1; generalize s1.fetchChecks a1 a2 = ye at e ⊢; obtain ⟨t, z⟩ := ye; dsimp only at e ⊢; cases z with | reject f => (dsimp only; rw [State.fetchEnd_kept]; exact e) | faulted f => (dsimp only; split; (split <;> (rw [State.fetchEnd_kept]; exact e)); (rw [State.fetchEnd_kept]; exact e)) | pass => (dsimp only; generalize BitVec.ofNat _ _ = w; generalize Sq.seqCheck _ _ = y; obtain ⟨q, a⟩ := y; dsimp only; cases a <;> dsimp only <;> (try rw [State.fetchEnd_kept]) <;> (try rw [State.updCmd_kept]) <;> rw [State.updSq_kept] <;> exact e)

theorem State.fetched_kept (a0 a1 a2 a3) : (State.fetched a0 a1 a2 a3).kept = a0.kept := by
  simp only [State.fetched, kept_mk, kept_eta, kept_ite, ite_self, State.updSq_kept, State.count_kept, State.raise_kept, State.setCmd_kept, State.fetchJudge_kept]

theorem State.doFetch_kept (a0 a1 a2 a3) : (State.doFetch a0 a1 a2 a3).kept = a0.kept := by
  simp only [State.doFetch, State.fetchFailed_kept, State.fetched_kept] <;> (repeat' split) <;> (simp only [State.fetchFailed_kept, State.fetched_kept])

theorem State.fillEnd_kept (a0 a1) : (State.fillEnd a0 a1).kept = a0.kept := by
  simp only [State.fillEnd, kept_mk, kept_eta]

theorem State.doFill_kept (a0 a1 a2) : (State.doFill a0 a1 a2).kept = a0.kept := by
  simp only [State.doFill] <;> (repeat' split) <;> (rfl)

theorem writeLines_kept (a0 a1 a2 a3 a4 a5 a6) : (writeLines a0 a1 a2 a3 a4 a5 a6).1.kept = a6.kept := by
  induction a4 generalizing a5 a6 with
  | zero => simp only [writeLines]
  | succ k ih => simp only [writeLines, State.lineWrite_kept, State.serveWaiting_kept, ih] <;> (repeat' split) <;> (rename_i h1; cases congrArg Prod.fst h1; (simp only [State.lineWrite_kept, State.serveWaiting_kept, ih]; done))

theorem State.doFillDone_kept (a0 a1) : (State.doFillDone a0 a1).kept = a0.kept := by
  simp only [State.doFillDone, State.fillEnd_kept, writeLines_kept, State.inClass_kept] <;> (repeat' split) <;> (first | (simp only [State.fillEnd_kept, writeLines_kept, State.inClass_kept]; done) | (rename_i h1; cases congrArg Prod.fst h1; (simp only [State.fillEnd_kept, writeLines_kept, State.inClass_kept]; done)))

theorem State.sendIdle_kept (a0 a1 a2) : (State.sendIdle a0 a1 a2).kept = a0.kept := by
  simp only [State.sendIdle, State.putFlit_kept]

theorem State.nakOnce_kept (a0 a1) : (State.nakOnce a0 a1).kept = a0.kept := by
  simp only [State.nakOnce, kept_ite, ite_self, State.updPort_kept, State.sendIdle_kept]

theorem State.takeAck_kept (a0 a1 a2) : (State.takeAck a0 a1 a2).kept = a0.kept := by
  simp only [State.takeAck, kept_ite, foldl_kept, ite_self, implies_true, State.updPort_kept, State.delOut_kept]

theorem State.recover_kept (a0 a1) : (State.recover a0 a1).kept = a0.kept := by
  simp only [State.recover, State.updPort_kept, State.remaster_kept]

theorem State.resend_kept (a0 a1) : (State.resend a0 a1).kept = a0.kept := by
  simp only [State.resend, kept_ite, foldl_kept, ite_self, implies_true, State.updPort_kept, State.recover_kept, State.putFlit_kept]

theorem State.takeHeader_kept (a0 a1 a2) : (State.takeHeader a0 a1 a2).kept = a0.kept := by
  simp only [State.takeHeader, kept_ite, ite_self, State.updPort_kept, State.takeAck_kept, State.resend_kept]

theorem State.doFlit_kept (a0 a1 a2 a3 a4) : (State.doFlit a0 a1 a2 a3 a4).kept = a0.kept := by
  simp only [State.doFlit, kept_ite, ite_self, State.updPort_kept, State.nakOnce_kept, State.takeHeader_kept, State.pump_kept, State.acceptFlit_kept, State.sendIdle_kept]

theorem State.l1Flush_kept (a0 a1 a2 a3) : (State.l1Flush a0 a1 a2 a3).1.kept = a0.kept := by
  simp only [State.l1Flush, State.l1WritePart_kept, State.setL1_kept] <;> (repeat' split) <;> (first | (simp only [State.l1WritePart_kept, State.setL1_kept]; done) | (rename_i h2 h1; cases congrArg Prod.fst h2; (simp only [State.l1WritePart_kept, State.setL1_kept]; done)))

theorem flushL1_kept (a0 a1 a2 a3) : (flushL1 a0 a1 a2 a3).kept = a3.kept := by
  induction a2 generalizing a3 with
  | nil => simp only [flushL1]
  | cons x t ih => simp only [flushL1, State.l1Flush_kept, State.updCmd_kept, State.agAbort_kept, ih] <;> (repeat' split) <;> (rename_i h1; cases congrArg Prod.fst h1; (simp only [State.l1Flush_kept, State.updCmd_kept, State.agAbort_kept, ih]; done))

theorem State.l1Inv_kept (a0 a1 a2 a3) : (State.l1Inv a0 a1 a2 a3).kept = a0.kept := by
  simp only [State.l1Inv, State.updBay_kept]

theorem State.flushBay_kept (a0 a1 a2 a3 a4 a5) : (State.flushBay a0 a1 a2 a3 a4 a5).kept = a0.kept := by
  simp only [State.flushBay, kept_ite, foldl_kept, ite_self, implies_true, flushL1_kept, State.l1Inv_kept]

theorem State.flushAt_kept (a0 a1 a2) : (State.flushAt a0 a1 a2).1.kept = a0.kept := by
  simp only [State.flushAt] <;> (repeat' split) <;> (simp only [State.writeBackWay_kept])

theorem State.flushLine_kept (a0 a1) : (State.flushLine a0 a1).1.kept = a0.kept := by
  simp only [State.flushLine, State.flushAt_kept]

theorem flushDram_kept (a0 a1 a2) : (flushDram a0 a1 a2).kept = a2.kept := by
  induction a1 generalizing a2 with
  | nil => simp only [flushDram]
  | cons x t ih => simp only [flushDram, State.agAbort_kept, State.flushLine_kept, State.updCmd_kept, ih] <;> (repeat' split) <;> (simp only [State.agAbort_kept, State.flushLine_kept, State.updCmd_kept, ih]; done)

theorem State.doFlush_kept (a0 a1) : (State.doFlush a0 a1).kept = a0.kept := by
  simp only [State.doFlush, kept_ite, foldl_kept, ite_self, implies_true, State.completeCmd_kept, State.flushBay_kept, flushDram_kept, State.roInvalidate_kept, State.workDone_kept]

theorem State.doFlushRange_kept (a0 a1 a2 a3 a4) : (State.doFlushRange a0 a1 a2 a3 a4).kept = a0.kept := by
  simp only [State.doFlushRange, State.gangFault_kept, l1WriteBackAll_kept, State.l1Inv_kept] <;> (repeat' split) <;> (simp only [State.gangFault_kept, l1WriteBackAll_kept, State.l1Inv_kept])

theorem State.doForcePath_kept (a0 a1 a2) : (State.doForcePath a0 a1 a2).kept = a0.kept := by
  simp only [State.doForcePath, kept_ite, ite_self, State.refuseInject_kept, State.updReporter_kept]

theorem State.migCtl_kept (a0 a1) (ha1 : ∀ b0, (a1 b0).kept = b0.kept) : (State.migCtl a0 a1).kept = a0.kept := by
  simp only [State.migCtl, kept_mk, kept_eta, kept_ite, ite_self, ha1]

theorem State.migBegin_kept (a0 a1 a2 a3) : (State.migBegin a0 a1 a2 a3).kept = a0.kept := by
  simp only [State.migBegin, kept_mk, kept_eta]

theorem State.doFreeze_kept (a0 a1) : (State.doFreeze a0 a1).kept = a0.kept := by
  simp only [State.doFreeze, kept_ite, ite_self, implies_true, State.migCtl_kept, State.migEnd_kept, State.migBegin_kept, State.updSlice_kept]

theorem State.fwDone_kept (a0 a1) : (State.fwDone a0 a1).kept = a0.kept := by
  simp only [State.fwDone, kept_mk, kept_eta]

theorem State.runFirmware_kept (a0 a1 a2 a3) : (State.runFirmware a0 a1 a2 a3).kept = a0.kept := by
  simp only [State.runFirmware, kept_mk, kept_eta]

theorem State.startupStatus_kept (a0) : (State.startupStatus a0).kept = a0.kept := by
  simp only [State.startupStatus, kept_mk, kept_eta]

theorem State.loadImage_kept (a0 a1 a2) : (State.loadImage a0 a1 a2).kept = a0.kept := by
  simp only [State.loadImage, kept_mk, kept_eta]

theorem State.pickImage_kept (a0) : (State.pickImage a0).kept = a0.kept := by
  unfold State.pickImage <;> (repeat' split) <;> (simp only [State.beginStep_kept, State.startupStatus_kept, State.loadImage_kept, State.enterState_kept])

theorem State.fwEffect_kept (a0 a1 a2 a3) : (State.fwEffect a0 a1 a2 a3).kept = a0.kept := by
  unfold State.fwEffect <;> (repeat' split) <;> (first | (simp only [State.fwDone_kept, State.runFirmware_kept, State.pickImage_kept, State.enterState_kept, State.storeFlash_kept]; done) | (rename_i h1; cases congrArg Prod.fst h1; (simp only [State.fwDone_kept, State.runFirmware_kept, State.pickImage_kept, State.enterState_kept, State.storeFlash_kept]; done)))

theorem State.doFwFinish_kept (a0 a1 a2) : (State.doFwFinish a0 a1 a2).kept = a0.kept := by
  simp only [State.doFwFinish, State.fwDone_kept, State.fwEffect_kept] <;> (repeat' split) <;> (simp only [State.fwDone_kept, State.fwEffect_kept])

theorem State.dropGang_kept (a0 a1) : (State.dropGang a0 a1).kept = a0.kept := by
  simp only [State.dropGang, kept_mk, kept_eta]

theorem State.doGangExit_kept (a0 a1) : (State.doGangExit a0 a1).kept = a0.kept := by
  simp only [State.doGangExit, kept_ite, ite_self, State.dropGang_kept, State.orphan_kept, State.updCmd_kept, State.fillActive_kept, State.addGang_kept, State.updBay_kept, State.l1FlushCmd_kept, State.unholdBay_kept]

theorem State.onBay_kept (a0 a1 a2 a3) (ha3 : ∀ b0, (a3 b0).kept = b0.kept) : (State.onBay a0 a1 a2 a3).kept = a0.kept := by
  simp only [State.onBay, kept_ite, ite_self, State.bayCheck_kept, State.bayWrite_kept, ha3]

theorem State.weightAt_kept (a0 a1 a2 a3) : (State.weightAt a0 a1 a2 a3).1.kept = a0.kept := by
  unfold State.weightAt <;> (repeat' split) <;> (first | with_reducible rfl | (rename_i h1; cases congrArg Prod.fst h1; (simp only [State.agRead_kept]; done)))

theorem State.poolRow_kept (a0 a1 a2 a3 a4 a5) : (State.poolRow a0 a1 a2 a3 a4 a5).kept = a0.kept := by
  simp only [State.poolRow, State.weightAt_kept, State.agRead_kept, State.countRows_kept, State.updCmd_kept] <;> (repeat' split) <;> (first | (rename_i h1; cases congrArg Prod.fst h1; (simp only [State.weightAt_kept, State.agRead_kept, State.countRows_kept, State.updCmd_kept]; done)) | (rename_i h1 _ _ h0; cases congrArg Prod.fst h1; cases congrArg Prod.fst h0; (simp only [State.weightAt_kept, State.agRead_kept, State.countRows_kept, State.updCmd_kept]; done)) | (rename_i h1 _ _ _ h0; cases congrArg Prod.fst h1; cases congrArg Prod.fst h0; (simp only [State.weightAt_kept, State.agRead_kept, State.countRows_kept, State.updCmd_kept]; done)))

theorem State.poolIndex_kept (a0 a1 a2 a3 a4) : (State.poolIndex a0 a1 a2 a3 a4).kept = a0.kept := by
  simp only [State.poolIndex, State.agRead_kept, State.poolRow_kept, State.updCmd_kept, State.agFault_kept] <;> (repeat' split) <;> (first | (rename_i h1; cases congrArg Prod.fst h1; (simp only [State.agRead_kept, State.poolRow_kept, State.updCmd_kept, State.agFault_kept]; done)) | (rename_i h2 h1; cases congrArg Prod.fst h2; (simp only [State.agRead_kept, State.poolRow_kept, State.updCmd_kept, State.agFault_kept]; done)) | (rename_i h1 _ h0; cases congrArg Prod.fst h1; (simp only [State.agRead_kept, State.poolRow_kept, State.updCmd_kept, State.agFault_kept]; done)))

theorem State.writeBag_kept (a0 a1 a2 a3 a4) : (State.writeBag a0 a1 a2 a3 a4).kept = a0.kept := by
  simp only [State.writeBag, State.updCmd_kept, State.agStore_kept, State.workDone_kept] <;> (repeat' split) <;> (first | (rename_i h1; cases congrArg Prod.fst h1; (simp only [State.updCmd_kept, State.agStore_kept, State.workDone_kept]; done)) | (rename_i h1 _ h0; cases congrArg Prod.fst h1; (simp only [State.updCmd_kept, State.agStore_kept, State.workDone_kept]; done)))

theorem State.gatherStep_kept (a0 a1 a2 a3) : (State.gatherStep a0 a1 a2 a3).kept = a0.kept := by
  simp only [State.gatherStep, kept_ite, ite_self, State.beginBag_kept, State.poolIndex_kept, State.writeBag_kept]

theorem State.doGather_kept (a0 a1 a2) : (State.doGather a0 a1 a2).kept = a0.kept := by
  simp only [State.doGather, implies_true, State.onBay_kept, State.gatherStep_kept] <;> (repeat' split) <;> (simp only [implies_true, State.onBay_kept, State.gatherStep_kept])

theorem State.doHandleOp_kept (a0 a1 a2) : (State.doHandleOp a0 a1 a2).kept = a0.kept := by
  simp only [State.doHandleOp, kept_ite, ite_self, State.handleEffect_kept]

theorem State.doHead_kept (a0 a1 a2) : (State.doHead a0 a1 a2).kept = a0.kept := by
  simp only [State.doHead, kept_mk, kept_eta, kept_ite, ite_self, implies_true, State.pageWrite_kept, State.updCq_kept, State.updSlice_kept] <;> (repeat' split) <;> (simp only [kept_mk, kept_eta, kept_ite, ite_self, implies_true, State.pageWrite_kept, State.updCq_kept, State.updSlice_kept])

theorem State.doHoldNotice_kept (a0 a1) : (State.doHoldNotice a0 a1).kept = a0.kept := by
  simp only [State.doHoldNotice, kept_ite, ite_self, State.signalUnits_kept, State.updChan_kept]

theorem State.remapRow_kept (a0 a1 a2 a3) : (State.remapRow a0 a1 a2 a3).kept = a0.kept := by
  simp only [State.remapRow, State.dramStore_kept, State.updChan_kept, State.autoRepair_kept]

theorem State.repairRow_kept (a0 a1 a2 a3) : (State.repairRow a0 a1 a2 a3).kept = a0.kept := by
  simp only [State.repairRow, State.updChan_kept, State.remapRow_kept] <;> (repeat' split) <;> (simp only [State.updChan_kept, State.remapRow_kept])

theorem State.doHpprTimeout_kept (a0 a1) : (State.doHpprTimeout a0 a1).kept = a0.kept := by
  simp only [State.doHpprTimeout, State.repairRow_kept, State.updChan_kept] <;> (repeat' split) <;> (simp only [State.repairRow_kept, State.updChan_kept])

theorem State.imageDone_kept (a0 a1 a2 a3) : (State.imageDone a0 a1 a2 a3).kept = a0.kept := by
  simp only [State.imageDone, kept_mk, kept_eta]

theorem State.imageFail_kept (a0 a1 a2 a3) : (State.imageFail a0 a1 a2 a3).kept = a0.kept := by
  simp only [State.imageFail, kept_ite, ite_self, State.updSlice_kept, State.imageDone_kept]

theorem State.freshenWhere_kept (a0 a1) : (State.freshenWhere a0 a1).kept = a0.kept := by
  simp only [State.freshenWhere, kept_mk, kept_eta, kept_ite, foldl_kept, ite_self, implies_true, State.holdWrite_kept, State.dropWay_kept, State.bitmapWrite_kept]

end Sys2Proof.Machine
end

