-- ==== Sys2Proof/Laws/KeptC.lean ====
section
/-! SUPPORT. What the operations leave of the part of a state that Laws/Kept.lean names: all of it, part 3 of 3. -/

namespace Sys2Proof.Machine

set_option linter.unusedSimpArgs false
set_option linter.unusedVariables false

theorem State.writeCopies_kept (a0 a1) : (State.writeCopies a0 a1).kept = a0.kept := by
  simp only [State.writeCopies, State.drawChoice_kept, writeItems_kept, State.updSlice_kept]

theorem State.installSlice_kept (a0 a1 a2) : (State.installSlice a0 a1 a2).kept = a0.kept := by
  simp only [State.installSlice, kept_ite, ite_self, State.freshenWhere_kept, State.clearOwner_kept, State.applyModes_kept, State.updSlice_kept, State.writeCopies_kept]

theorem State.imageStore_kept (a0 a1 a2 a3) : (State.imageStore a0 a1 a2 a3).kept = a0.kept := by
  unfold State.imageStore <;> (repeat' split) <;> (first | (simp only [State.imageFail_kept, State.storeFlash_kept, State.imageDone_kept]; done) | (rename_i h1; cases congrArg Prod.fst h1; (simp only [State.imageFail_kept, State.storeFlash_kept, State.imageDone_kept]; done)))

theorem State.imageEffect_kept (a0 a1 a2 a3) : (State.imageEffect a0 a1 a2 a3).kept = a0.kept := by
  unfold State.imageEffect <;> (repeat' split) <;> (simp only [State.imageFail_kept, State.imageDone_kept, State.installSlice_kept, State.beginStep_kept, State.loadImage_kept, State.imageStore_kept]; done)

theorem State.doImageFinish_kept (a0 a1 a2) : (State.doImageFinish a0 a1 a2).kept = a0.kept := by
  simp only [State.doImageFinish, State.imageFail_kept, State.imageEffect_kept] <;> (repeat' split) <;> (simp only [State.imageFail_kept, State.imageEffect_kept])

theorem State.doInstallAck_kept (a0 a1) : (State.doInstallAck a0 a1).kept = a0.kept := by
  simp only [State.doInstallAck, kept_ite, ite_self, State.serveWaiting_kept, State.setDir_kept]

theorem State.doInstrFetch_kept (a0 a1 a2) : (State.doInstrFetch a0 a1 a2).kept = a0.kept := by
  simp only [State.doInstrFetch, State.gangFault_kept, State.lineRead_kept, State.onBehalf_kept, State.agFault_kept, State.roRoom_kept, State.updBay_kept, State.agAbort_kept] <;> (repeat' split) <;> (first | (simp only [State.gangFault_kept, State.lineRead_kept, State.onBehalf_kept, State.agFault_kept, State.roRoom_kept, State.updBay_kept, State.agAbort_kept]; done) | (rename_i h1; cases congrArg Prod.fst h1; (simp only [State.gangFault_kept, State.lineRead_kept, State.onBehalf_kept, State.agFault_kept, State.roRoom_kept, State.updBay_kept, State.agAbort_kept]; done)) | (rename_i h2 h1; cases congrArg Prod.fst h2; (simp only [State.gangFault_kept, State.lineRead_kept, State.onBehalf_kept, State.agFault_kept, State.roRoom_kept, State.updBay_kept, State.agAbort_kept]; done)))

theorem State.invalidateAt_kept (a0 a1 a2) : (State.invalidateAt a0 a1 a2).kept = a0.kept := by
  simp only [State.invalidateAt, kept_ite, ite_self, State.signalUnits_kept, State.dropReplica_kept]

theorem State.doInvalidate_kept (a0 a1) : (State.doInvalidate a0 a1).kept = a0.kept := by
  simp only [State.doInvalidate, State.invalidateAt_kept]

theorem State.doInvalidateAck_kept (a0 a1) : (State.doInvalidateAck a0 a1).kept = a0.kept := by
  simp only [State.doInvalidateAck, kept_ite, ite_self, State.serveWaiting_kept, State.setDir_kept]

theorem State.memRefused_kept (a0) : (State.memRefused a0).kept = a0.kept := by
  simp only [State.memRefused, kept_mk, kept_eta]

theorem State.memDone_kept (a0) : (State.memDone a0).kept = a0.kept := by
  simp only [State.memDone, kept_mk, kept_eta]

theorem State.doKillPin_kept (a0 a1 a2) : (State.doKillPin a0 a1 a2).kept = a0.kept := by
  simp only [State.doKillPin, kept_ite, ite_self, State.memRefused_kept, State.memDone_kept, State.killPin_kept]

theorem State.doLandedReport_kept (a0 a1 a2) : (State.doLandedReport a0 a1 a2).kept = a0.kept := by
  simp only [State.doLandedReport, State.sendMsg_kept, State.setIn_kept] <;> (repeat' split) <;> (simp only [State.sendMsg_kept, State.setIn_kept])

theorem State.doLane_kept (a0 a1 a2) : (State.doLane a0 a1 a2).kept = a0.kept := by
  simp only [State.doLane, kept_mk, kept_eta, State.setLanes_kept, State.freeLanes_kept, State.updGang_kept, State.doConst_kept] <;> (repeat' split) <;> (simp only [kept_mk, kept_eta, State.setLanes_kept, State.freeLanes_kept, State.updGang_kept, State.doConst_kept])

theorem State.issue_kept (a0 a1 a2 a3) (ha2 : ∀ b0, (a2 b0).kept = b0.kept) : (State.issue a0 a1 a2 a3).kept = a0.kept := by
  simp only [State.issue, kept_ite, ite_self, implies_true, State.onBay_kept, State.countInstr_kept, ha2]

theorem State.doLaneArithmetic_kept (a0 a1 a2) : (State.doLaneArithmetic a0 a1 a2).kept = a0.kept := by
  unfold State.doLaneArithmetic; refine State.awaiting_kept _ _ _ _ (fun s => ?_); cases a2 <;> dsimp only <;> (first | exact State.settled_kept _ _ (fun s => State.issue_kept _ _ _ _ (fun s => State.doLane_kept _ _ _)) | exact State.issue_kept _ _ _ _ (fun s => State.doLane_kept _ _ _))

theorem State.doLeak_kept (a0) : (State.doLeak a0).kept = a0.kept := by
  simp only [State.doLeak, kept_mk, kept_eta, kept_ite, ite_self]

theorem State.setLink_kept (a0 a1 a2) : (State.setLink a0 a1 a2).kept = a0.kept := by
  simp only [State.setLink, kept_mk, kept_eta]

theorem State.lostRecord_kept (a0 a1 a2) : (State.lostRecord a0 a1 a2).kept = a0.kept := by
  simp only [State.lostRecord] <;> (repeat' split) <;> (rfl)

theorem State.failCopies_kept (a0 a1) : (State.failCopies a0 a1).kept = a0.kept := by
  simp only [State.failCopies] <;> (repeat' split) <;> (rfl)

theorem State.failOps_kept (a0 a1) : (State.failOps a0 a1).kept = a0.kept := by
  simp only [State.failOps, State.imageFail_kept, State.fwDone_kept] <;> (repeat' split) <;> (simp only [State.imageFail_kept, State.fwDone_kept])

theorem State.failHostReads_kept (a0 a1) : (State.failHostReads a0 a1).kept = a0.kept := by
  simp only [State.failHostReads, foldl_kept, implies_true, State.doReadReply_kept]

theorem State.doLinkDown_kept (a0 a1 a2) : (State.doLinkDown a0 a1 a2).kept = a0.kept := by
  simp only [State.doLinkDown, kept_ite, foldl_kept, ite_self, implies_true, State.setLink_kept, State.lostRecord_kept, State.failCopies_kept, State.failOps_kept, State.failHostReads_kept]

theorem State.resyncIn_kept (a0 a1 a2) : (State.resyncIn a0 a1 a2).kept = a0.kept := by
  simp only [State.resyncIn, kept_ite, ite_self, State.sendMsg_kept, State.setIn_kept]

theorem State.resyncOut_kept (a0 a1 a2) : (State.resyncOut a0 a1 a2).kept = a0.kept := by
  simp only [State.resyncOut, kept_ite, ite_self, State.sendMsg_kept, State.sendOpenMsg_kept, State.setOut_kept]

theorem State.doLinkRecovered_kept (a0 a1 a2) : (State.doLinkRecovered a0 a1 a2).kept = a0.kept := by
  simp only [State.doLinkRecovered, kept_ite, foldl_kept, ite_self, implies_true, State.remaster_kept, State.updPort_kept, State.sendMsg_kept, State.resyncIn_kept, State.resyncOut_kept]

theorem State.doLinkUp_kept (a0 a1) : (State.doLinkUp a0 a1).kept = a0.kept := by
  simp only [State.doLinkUp, kept_ite, ite_self, State.setLink_kept]

theorem overLines_kept (a0 a1 a2 a3) (ha1 : ∀ b0 b1, (a1 b0 b1).kept = b0.kept) : (overLines a0 a1 a2 a3).kept = a3.kept := by
  fun_induction overLines a0 a1 a2 a3 <;> (simp_all only [ha1])

theorem State.loadLine_kept (a0 a1 a2 a3 a4) : (State.loadLine a0 a1 a2 a3 a4).kept = a0.kept := by
  unfold State.loadLine; extract_lets b mask on_; have e := State.gangDpa_kept a0 a1 a4 0; generalize a0.gangDpa a1 a4 0 = y at e ⊢; obtain ⟨t, z⟩ := y; dsimp only at e; cases z with | none => exact e | some dpa => (dsimp only; split; (simp only [State.newReq_kept, State.l1WriteMask_kept]; exact e); (split; (split; (simp only [State.deliver_kept]; exact e); (simp only [State.newReq_kept]; exact e)); (simp only [State.newReq_kept]; exact e)))

theorem State.newHostReq_kept (a0 a1 a2 a3 a4) : (State.newHostReq a0 a1 a2 a3 a4).kept = a0.kept := by
  simp only [State.newHostReq, kept_mk, kept_eta, State.setReq_kept, State.updGang_kept]

theorem State.doLoad_kept (a0 a1 a2 a3 a4) : (State.doLoad a0 a1 a2 a3 a4).kept = a0.kept := by
  simp only [State.doLoad, foldl_kept, implies_true, overLines_kept, State.loadLine_kept, State.newHostReq_kept, State.gangFault_kept] <;> (repeat' split) <;> (simp only [foldl_kept, implies_true, overLines_kept, State.loadLine_kept, State.newHostReq_kept, State.gangFault_kept])

theorem State.doLogOff_kept (a0 a1) : (State.doLogOff a0 a1).kept = a0.kept := by
  simp only [State.doLogOff, kept_ite, ite_self, implies_true, State.migCtl_kept, State.migEnd_kept, State.updSlice_kept]

theorem State.doLogOn_kept (a0 a1) : (State.doLogOn a0 a1).kept = a0.kept := by
  simp only [State.doLogOn, kept_ite, ite_self, implies_true, State.migCtl_kept, State.migEnd_kept, State.clearFilters_kept, State.updSlice_kept]

theorem State.doLogicFault_kept (a0 a1) : (State.doLogicFault a0 a1).kept = a0.kept := by
  unfold State.doLogicFault <;> (repeat' split) <;> (simp only [State.lostTags_kept, State.raise_kept, State.dieStop_kept, State.packageStop_kept]; done)

theorem State.doManagerHandleEffect_kept (a0) : (State.doManagerHandleEffect a0).kept = a0.kept := by
  simp only [State.doManagerHandleEffect, kept_ite, ite_self, State.managerEffect_kept, State.handleEffects_kept]

theorem State.doMark_kept (a0 a1) : (State.doMark a0 a1).kept = a0.kept := by
  simp only [State.doMark, kept_mk, kept_eta, kept_ite, ite_self, implies_true, State.migCtl_kept, State.migEnd_kept, State.clearFilters_kept, State.postLog_kept]

theorem State.doMaskPush_kept (a0 a1 a2 a3) : (State.doMaskPush a0 a1 a2 a3).kept = a0.kept := by
  simp only [State.doMaskPush, kept_ite, State.gangFault_kept] <;> (repeat' split) <;> (rfl)

theorem State.doMigCopy_kept (a0 a1 a2) : (State.doMigCopy a0 a1 a2).kept = a0.kept := by
  simp only [State.doMigCopy, kept_mk, kept_eta, kept_ite, ite_self, State.copyEnd_kept]

theorem State.doMigCopyDone_kept (a0 a1) : (State.doMigCopyDone a0 a1).kept = a0.kept := by
  simp only [State.doMigCopyDone, kept_ite, ite_self, State.copyEnd_kept, State.copyWork_kept]

theorem State.doMigExport_kept (a0 a1 a2) : (State.doMigExport a0 a1 a2).kept = a0.kept := by
  simp only [State.doMigExport, kept_ite, ite_self, implies_true, State.migCtl_kept, State.migBegin_kept, State.migEnd_kept]

theorem State.doMigImport_kept (a0 a1 a2) : (State.doMigImport a0 a1 a2).kept = a0.kept := by
  unfold State.doMigImport <;> (refine State.migCtl_kept _ _ (fun s => ?_)) <;> split <;> simp only [State.migEnd_kept, State.migBegin_kept]

theorem State.doNop_kept (a0 a1) : (State.doNop a0 a1).kept = a0.kept := by
  simp only [State.doNop, kept_ite, ite_self, State.completeCmd_kept]

theorem State.doPeer_kept (a0 a1 a2 a3 a4 a5) : (State.doPeer a0 a1 a2 a3 a4 a5).kept = a0.kept := by
  simp only [State.doPeer, kept_ite, ite_self, State.peerResult_kept, State.updSlice_kept]

theorem State.doPerstRelease_kept (a0) : (State.doPerstRelease a0).kept = a0.kept := by
  simp only [State.doPerstRelease, kept_mk, kept_eta, kept_ite, ite_self]

theorem State.rejectFree_kept (a0 a1 a2 a3) : (State.rejectFree a0 a1 a2 a3).kept = a0.kept := by
  simp only [State.rejectFree, State.updSlice_kept, State.raise_kept]

theorem State.doPoolFree_kept (a0 a1 a2) : (State.doPoolFree a0 a1 a2).kept = a0.kept := by
  simp only [State.doPoolFree, kept_ite, ite_self, implies_true, State.pageWrite_kept, State.rejectFree_kept, State.freeBuffer_kept]

theorem State.doPortDrain_kept (a0 a1) : (State.doPortDrain a0 a1).kept = a0.kept := by
  simp only [State.doPortDrain, State.breakPort_kept, State.cutPort_kept] <;> (repeat' split) <;> (simp only [State.breakPort_kept, State.cutPort_kept])

theorem State.doPortTrained_kept (a0 a1 a2 a3 a4) : (State.doPortTrained a0 a1 a2 a3 a4).kept = a0.kept := by
  simp only [State.doPortTrained, kept_ite, ite_self, State.remaster_kept, State.updPort_kept]

theorem State.orderRead_kept (a0 a1) : (State.orderRead a0 a1).kept = a0.kept := by
  simp only [State.orderRead, kept_mk, kept_eta]

theorem State.doPostCompletion_kept (a0 a1 a2) : (State.doPostCompletion a0 a1 a2).kept = a0.kept := by
  simp only [State.doPostCompletion, State.orderRead_kept, State.postTenant_kept, State.updCq_kept] <;> (repeat' split) <;> (simp only [State.orderRead_kept, State.postTenant_kept, State.updCq_kept])

theorem State.doPostWaiting_kept (a0 a1 a2) : (State.doPostWaiting a0 a1 a2).kept = a0.kept := by
  simp only [State.doPostWaiting, State.postTenant_kept, State.updCq_kept, State.freePlace_kept] <;> (repeat' split) <;> (simp only [State.postTenant_kept, State.updCq_kept, State.freePlace_kept])

theorem State.mgmtOp_kept (a0 a1 a2) (ha2 : ∀ b0, (a2 b0).kept = b0.kept) : (State.mgmtOp a0 a1 a2).kept = a0.kept := by
  simp only [State.mgmtOp, kept_mk, kept_eta, kept_ite, ite_self, ha2]

theorem State.preemptFor_kept (a0 a1 a2) : (State.preemptFor a0 a1 a2).kept = a0.kept := by
  simp only [State.preemptFor, kept_ite, foldl_kept, ite_self, implies_true, State.carryStop_kept, State.updCmd_kept]

theorem State.doPreemption_kept (a0 a1) : (State.doPreemption a0 a1).kept = a0.kept := by
  simp only [State.doPreemption, kept_ite, foldl_kept, ite_self, implies_true, State.preemptFor_kept]

theorem State.sqCfg_kept (a0 a1 a2 a3) : (State.sqCfg a0 a1 a2 a3).kept = a0.kept := by
  simp only [State.sqCfg, kept_ite, ite_self, State.disableSq_kept, State.updSq_kept]

theorem State.onManagerRing_kept (a0 a1 a2) : (State.onManagerRing a0 a1 a2).kept = a0.kept := by
  simp only [State.onManagerRing] <;> (repeat' split) <;> (rfl)

theorem State.doQueueCfg_kept (a0 a1 a2) : (State.doQueueCfg a0 a1 a2).kept = a0.kept := by
  simp only [State.doQueueCfg, kept_ite, ite_self, implies_true, State.pageWrite_kept, State.sqCfg_kept, State.updSq_kept, State.cqCfg_kept, State.updCq_kept, State.updSlice_kept, State.onManagerRing_kept] <;> (repeat' split) <;> (simp only [kept_ite, ite_self, implies_true, State.pageWrite_kept, State.sqCfg_kept, State.updSq_kept, State.cqCfg_kept, State.updCq_kept, State.updSlice_kept, State.onManagerRing_kept])

theorem State.doRaiseFloor_kept (a0 a1) : (State.doRaiseFloor a0 a1).kept = a0.kept := by
  simp only [State.doRaiseFloor, kept_mk, kept_eta, kept_ite, ite_self]

theorem State.doReconverge_kept (a0 a1) : (State.doReconverge a0 a1).kept = a0.kept := by
  simp only [State.doReconverge] <;> (repeat' split) <;> (rfl)

theorem State.doRecoveryTimeout_kept (a0 a1) : (State.doRecoveryTimeout a0 a1).kept = a0.kept := by
  simp only [State.doRecoveryTimeout, kept_ite, ite_self, State.startPort_kept]

theorem State.doRefresh_kept (a0 a1 a2) : (State.doRefresh a0 a1 a2).kept = a0.kept := by
  simp only [State.doRefresh]

theorem State.writePage_kept (a0 a1 a2 a3) : (State.writePage a0 a1 a2 a3).kept = a0.kept := by
  simp only [State.writePage, kept_ite, ite_self, implies_true, State.pageWrite_kept, State.updSlice_kept, State.updSq_kept, State.updCq_kept] <;> (repeat' split) <;> (simp only [kept_ite, ite_self, implies_true, State.pageWrite_kept, State.updSlice_kept, State.updSq_kept, State.updCq_kept])

theorem State.startFw_kept (a0 a1 a2 a3) : (State.startFw a0 a1 a2 a3).kept = a0.kept := by
  simp only [State.startFw, kept_mk, kept_eta, kept_ite, ite_self, State.fwDone_kept]

theorem State.writeImageReg_kept (a0 a1 a2) : (State.writeImageReg a0 a1 a2).kept = a0.kept := by
  simp only [State.writeImageReg] <;> (repeat' split) <;> (rfl)

theorem State.writeCfg_kept (a0 a1 a2) : (State.writeCfg a0 a1 a2).kept = a0.kept := by
  simp only [State.writeCfg] <;> (repeat' split) <;> (rfl)

theorem State.writeFltRing_kept (a0 a1 a2) : (State.writeFltRing a0 a1 a2).kept = a0.kept := by
  simp only [State.writeFltRing] <;> (repeat' split) <;> (rfl)

theorem State.writeFlt_kept (a0 a1 a2) : (State.writeFlt a0 a1 a2).kept = a0.kept := by
  simp only [State.writeFlt] <;> (repeat' split) <;> (rfl)

theorem State.writeTel_kept (a0 a1 a2) : (State.writeTel a0 a1 a2).kept = a0.kept := by
  simp only [State.writeTel] <;> (repeat' split) <;> (rfl)

theorem State.releaseHost_kept (a0 a1 a2 a3 a4 a5) : (State.releaseHost a0 a1 a2 a3 a4 a5).kept = a0.kept := by
  simp only [State.releaseHost, kept_ite, ite_self, State.orderRead_kept, State.agHostWrite_kept, State.capFlag_kept, State.dropCap_kept]

theorem State.releaseDevice_kept (a0 a1 a2 a3 a4) : (State.releaseDevice a0 a1 a2 a3 a4).kept = a0.kept := by
  simp only [State.releaseDevice, State.lineWrite_kept, State.onBehalf_kept, State.capFlag_kept, State.dropCap_kept, State.serveWaiting_kept, State.poisonWrite_kept, State.agAbort_kept] <;> (repeat' split) <;> (rename_i h1; cases congrArg Prod.fst h1; (simp only [State.lineWrite_kept, State.onBehalf_kept, State.capFlag_kept, State.dropCap_kept, State.serveWaiting_kept, State.poisonWrite_kept, State.agAbort_kept]; done))

theorem State.doRelease_kept (a0 a1) : (State.doRelease a0 a1).kept = a0.kept := by
  simp only [State.doRelease, State.signalUnits_kept, State.releaseHost_kept, State.releaseDevice_kept] <;> (repeat' split) <;> (simp only [State.signalUnits_kept, State.releaseHost_kept, State.releaseDevice_kept])

theorem State.serveSettled_kept (a0 a1) : (State.serveSettled a0 a1).kept = a0.kept := by
  simp only [State.serveSettled, kept_ite, ite_self, State.serveWaiting_kept]

theorem State.serveAllWaiting_kept (a0) : (State.serveAllWaiting a0).kept = a0.kept := by
  simp only [State.serveAllWaiting, foldl_kept, implies_true, State.serveSettled_kept]

theorem State.logBlock_kept (a0 a1 a2) : (State.logBlock a0 a1 a2).kept = a0.kept := by
  simp only [State.logBlock, kept_ite, foldl_kept, ite_self, implies_true, State.logDevice_kept]

theorem State.freshenBlock_kept (a0 a1) : (State.freshenBlock a0 a1).kept = a0.kept := by
  simp only [State.freshenBlock, State.freshenWhere_kept]

theorem State.releaseAt_kept (a0 a1 a2) : (State.releaseAt a0 a1 a2).1.kept = a0.kept := by
  simp only [State.releaseAt, kept_ite, ite_self, apply_ite Prod.fst, State.holdWrite_kept, State.dropLine_kept, State.openShare_kept, State.setLineState_kept]

theorem State.releaseLine_kept (a0 a1) : (State.releaseLine a0 a1).1.kept = a0.kept := by
  simp only [State.releaseLine, State.releaseAt_kept]

theorem State.releasePart_kept (a0 a1 a2) : (State.releasePart a0 a1 a2).kept = a0.kept := by
  simp only [State.releasePart, kept_ite, ite_self, State.mapCheck_kept, State.releaseLine_kept, State.logDevice_kept, State.updCmd_kept]

theorem releaseParts_kept (a0 a1 a2) : (releaseParts a0 a1 a2).kept = a2.kept := by
  induction a1 generalizing a2 with | nil => exact Eq.refl _ | cons x t ih => (cases x <;> unfold releaseParts <;> split <;> (first | exact State.agAbort_kept _ _ _ _ | (rw [ih]; (first | rw [State.updCmd_kept, State.logBlock_kept, State.freshenBlock_kept] | rw [State.releasePart_kept]))))

theorem releaseOuts_kept (a0 a1 a2 a3) : (releaseOuts a0 a1 a2 a3).kept = a3.kept := by
  induction a2 generalizing a3 with
  | nil => simp only [releaseOuts]
  | cons x t ih => simp only [releaseOuts, State.agDpa_kept, releaseParts_kept, ih] <;> (repeat' split) <;> (first | (rename_i h1; cases congrArg Prod.fst h1; (simp only [State.agDpa_kept, releaseParts_kept, ih]; done)) | (rename_i h2 h1; cases congrArg Prod.fst h2; (simp only [State.agDpa_kept, releaseParts_kept, ih]; done)))

theorem State.doReleaseCmd_kept (a0 a1) : (State.doReleaseCmd a0 a1).kept = a0.kept := by
  simp only [State.doReleaseCmd, kept_ite, ite_self, State.workDone_kept, State.serveAllWaiting_kept, releaseOuts_kept]

theorem repackReads_kept (a0 a1 a2) : (repackReads a0 a1 a2).1.kept = a2.kept := by
  induction a1 generalizing a2 with
  | nil => simp only [repackReads]
  | cons x t ih => simp only [repackReads, kept_ite, apply_ite Prod.fst, State.decodeLine_kept, ih] <;> (repeat' split) <;> (first | rfl | (rename_i h1; cases congrArg Prod.fst h1; (simp only [kept_ite, apply_ite Prod.fst, State.decodeLine_kept, ih]; done)))

theorem repackMaps_kept (a0 a1 a2) : (repackMaps a0 a1 a2).1.kept = a2.kept := by
  induction a1 generalizing a2 with
  | nil => simp only [repackMaps]
  | cons x t ih => simp only [repackMaps, kept_ite, ite_self, apply_ite Prod.fst, State.mapRead_kept, ih]

theorem State.doRepackRow_kept (a0 a1 a2) : (State.doRepackRow a0 a1 a2).kept = a0.kept := by
  simp only [State.doRepackRow, kept_ite, foldl_kept, ite_self, implies_true, State.addErrors_kept, repackReads_kept, repackMaps_kept, State.updChan_kept, State.writeStored_kept, State.writeMap_kept]

theorem State.doRepairGo_kept (a0 a1 a2) : (State.doRepairGo a0 a1 a2).kept = a0.kept := by
  simp only [State.doRepairGo, kept_mk, kept_eta, kept_ite, ite_self]

theorem State.doReplayTimeout_kept (a0 a1) : (State.doReplayTimeout a0 a1).kept = a0.kept := by
  simp only [State.doReplayTimeout, kept_ite, ite_self, State.resend_kept]

theorem State.fillFrom_kept (a0 a1 a2 a3) : (State.fillFrom a0 a1 a2 a3).kept = a0.kept := by
  simp only [State.fillFrom, kept_ite, foldl_kept, ite_self, implies_true, State.applyAgain_kept, State.installReplica_kept, State.setDir_kept]

theorem State.doReplicaFill_kept (a0 a1) : (State.doReplicaFill a0 a1).kept = a0.kept := by
  simp only [State.doReplicaFill, foldl_kept, implies_true, State.answerReq_kept, State.fillFrom_kept] <;> (repeat' split) <;> (simp only [foldl_kept, implies_true, State.answerReq_kept, State.fillFrom_kept])

theorem State.resetUnit_kept (a0 a1) : (State.resetUnit a0 a1).kept = a0.kept := by
  simp only [State.resetUnit, State.doBayReset_kept, State.doPortReset_kept] <;> (repeat' split) <;> (simp only [State.doBayReset_kept, State.doPortReset_kept])

theorem State.setMgmt_kept (a0 a1 a2) : (State.setMgmt a0 a1 a2).kept = a0.kept := by
  simp only [State.setMgmt] <;> (repeat' split) <;> (rfl)

theorem State.setUnpowered_kept (a0 a1) : (State.setUnpowered a0 a1).kept = a0.kept := by
  simp only [State.setUnpowered] <;> (repeat' split) <;> (rfl)

theorem State.doReprobe_kept (a0 a1 a2 a3) : (State.doReprobe a0 a1 a2 a3).kept = a0.kept := by
  simp only [State.doReprobe, kept_ite, ite_self, State.closeSplit_kept, State.resetUnit_kept, State.raise_kept, State.setMgmt_kept, State.setUnpowered_kept]

theorem State.postDue_kept (a0 a1 a2) : (State.postDue a0 a1 a2).kept = a0.kept := by
  simp only [State.postDue, kept_ite, foldl_kept, ite_self, implies_true, State.orderRead_kept, State.postTenant_kept, State.updCq_kept]

theorem State.dropWaiting_kept (a0 a1 a2) : (State.dropWaiting a0 a1 a2).kept = a0.kept := by
  simp only [State.dropWaiting, State.updSlice_kept, State.discardWaiting_kept]

theorem State.noteEnd_kept (a0 a1 a2 a3) : (State.noteEnd a0 a1 a2 a3).kept = a0.kept := by
  simp only [State.noteEnd, kept_mk, kept_eta]

theorem State.endTenantReset_kept (a0 a1) : (State.endTenantReset a0 a1).kept = a0.kept := by
  simp only [State.endTenantReset, foldl_kept, implies_true, State.postDue_kept, State.dropWaiting_kept, State.returnBuffers_kept, State.raise_kept, State.updSlice_kept, State.noteEnd_kept]

theorem State.openShield_kept (a0 a1) : (State.openShield a0 a1).kept = a0.kept := by
  simp only [State.openShield, State.signalUnits_kept]

theorem State.restartPairs_kept (a0 a1) : (State.restartPairs a0 a1).kept = a0.kept := by
  simp only [State.restartPairs, foldl_kept, implies_true, State.updReporter_kept]

theorem State.finishBay_kept (a0 a1) : (State.finishBay a0 a1).kept = a0.kept := by
  simp only [State.finishBay, kept_mk, kept_eta, kept_ite, ite_self, State.updBay_kept, State.cutBay_kept, State.restartPairs_kept]

theorem State.repairRest_kept (a0 a1) : (State.repairRest a0 a1).kept = a0.kept := by
  simp only [State.repairRest, foldl_kept, implies_true, State.updChan_kept, State.drawChoice_kept, State.repairRow_kept]

theorem State.finishChan_kept (a0 a1) : (State.finishChan a0 a1).kept = a0.kept := by
  simp only [State.finishChan, State.updChan_kept, State.repairRest_kept, State.restartPairs_kept, State.setUnitState_kept]

theorem State.failChan_kept (a0 a1) : (State.failChan a0 a1).kept = a0.kept := by
  simp only [State.failChan, State.setUnitState_kept, State.updChan_kept, State.raise_kept]

theorem State.finishDie_kept (a0 a1) : (State.finishDie a0 a1).kept = a0.kept := by
  simp only [State.finishDie, kept_mk, kept_eta, foldl_kept, implies_true, State.applyRepairs_kept, State.finishBay_kept, State.finishChan_kept, State.restartPairs_kept]

theorem State.failDie_kept (a0 a1) : (State.failDie a0 a1).kept = a0.kept := by
  simp only [State.failDie, kept_mk, kept_eta, foldl_kept, implies_true, State.raise_kept, State.updBay_kept, State.setUnitState_kept]

theorem State.finishPort_kept (a0 a1) : (State.finishPort a0 a1).kept = a0.kept := by
  simp only [State.finishPort, kept_mk, kept_eta, kept_ite, ite_self, State.updPort_kept, State.cutPort_kept, State.restartPairs_kept]

theorem State.doResetComplete_kept (a0 a1 a2 a3) : (State.doResetComplete a0 a1 a2 a3).kept = a0.kept := by
  unfold State.doResetComplete <;> (repeat' split) <;> (simp only [State.endTenantReset_kept, State.noteEnd_kept, State.openShield_kept, State.finishBay_kept, State.finishChan_kept, State.failChan_kept, State.finishDie_kept, State.failDie_kept, State.finishPort_kept]; done)

theorem State.doResume_kept (a0 a1) : (State.doResume a0 a1).kept = a0.kept := by
  simp only [State.doResume, kept_ite, ite_self, State.updSlice_kept, State.wrongState_kept]

theorem State.issueQueued_kept (a0 a1 a2) : (State.issueQueued a0 a1 a2).kept = a0.kept := by
  simp only [State.issueQueued, State.serveOrQueue_kept, State.doChannelRead_kept, State.doChannelWrite_kept] <;> (repeat' split) <;> (simp only [State.serveOrQueue_kept, State.doChannelRead_kept, State.doChannelWrite_kept])

theorem State.earnStream_kept (a0 a1) : (State.earnStream a0 a1).kept = a0.kept := by
  simp only [State.earnStream, State.updChan_kept]

theorem issueWaiting_kept (a0 a1 a2 a3) : (issueWaiting a0 a1 a2 a3).kept = a3.kept := by
  induction a1 generalizing a2 a3 with | nil => exact foldl_kept _ (fun s r => State.issueQueued_kept _ _ _) _ _ | cons r t ih => (unfold issueWaiting; split; (dsimp only; split; (rw [ih, State.issueQueued_kept, State.updChan_kept, State.earnStream_kept]); (rw [ih, State.earnStream_kept])); (rw [ih, State.issueQueued_kept]))

theorem State.doRetrainEnd_kept (a0 a1) : (State.doRetrainEnd a0 a1).kept = a0.kept := by
  simp only [State.doRetrainEnd, kept_mk, kept_eta, kept_ite, ite_self, State.updChan_kept, State.event_kept, issueWaiting_kept]

theorem State.doRetrainStart_kept (a0 a1) : (State.doRetrainStart a0 a1).kept = a0.kept := by
  simp only [State.doRetrainStart, kept_ite, ite_self, State.updChan_kept]

theorem State.doRevoke_kept (a0 a1 a2) : (State.doRevoke a0 a1 a2).kept = a0.kept := by
  simp only [State.doRevoke, kept_mk, kept_eta, kept_ite, ite_self]

theorem State.offlineSlice_kept (a0 a1) : (State.offlineSlice a0 a1).kept = a0.kept := by
  simp only [State.offlineSlice, kept_ite, foldl_kept, ite_self, implies_true, State.evictWay_kept, State.offline_kept]

theorem State.pathFault_kept (a0 a1 a2) : (State.pathFault a0 a1 a2).kept = a0.kept := by
  unfold State.pathFault <;> (repeat' split) <;> (simp only [State.raise_kept, State.offlineSlice_kept, State.stopDie_kept, State.packageStop_kept, State.offline_kept]; done)

theorem State.doSample_kept (a0 a1 a2 a3) : (State.doSample a0 a1 a2 a3).kept = a0.kept := by
  simp only [State.doSample, kept_ite, ite_self, State.updReporter_kept, State.pathFault_kept]

theorem State.doScratch_kept (a0 a1 a2 a3 a4 a5) : (State.doScratch a0 a1 a2 a3 a4 a5).kept = a0.kept := by
  simp only [State.doScratch, foldl_kept, implies_true, State.gangFault_kept, State.setRegByte_kept, State.freeReg_kept, State.footWrite_kept] <;> (repeat' split) <;> (simp only [foldl_kept, implies_true, State.gangFault_kept, State.setRegByte_kept, State.freeReg_kept, State.footWrite_kept])

theorem State.paySet_kept (a0 a1 a2) : (State.paySet a0 a1 a2).kept = a0.kept := by
  simp only [State.paySet, kept_mk, kept_eta]

theorem State.scrubFixed_kept (a0 a1) : (State.scrubFixed a0 a1).kept = a0.kept := by
  simp only [State.scrubFixed, kept_mk, kept_eta]

theorem State.scrubTags_kept (a0 a1 a2 a3 a4) : (State.scrubTags a0 a1 a2 a3 a4).1.kept = a0.kept := by
  simp only [State.scrubTags, kept_ite, ite_self, apply_ite Prod.fst, State.scrubFixed_kept, State.checkTags_kept, State.lostTags_kept, State.cacheCorrected_kept]

theorem State.scrubNext_kept (a0 a1) : (State.scrubNext a0 a1).kept = a0.kept := by
  simp only [State.scrubNext, kept_mk, kept_eta, kept_ite, ite_self]

theorem State.sectorErr_kept (a0 a1 a2 a3) : (State.sectorErr a0 a1 a2 a3).kept = a0.kept := by
  simp only [State.sectorErr, State.scrubFixed_kept, State.cacheCorrected_kept, State.sectorLost_kept] <;> (repeat' split) <;> (simp only [State.scrubFixed_kept, State.cacheCorrected_kept, State.sectorLost_kept])

theorem State.scrubData_kept (a0 a1 a2 a3) : (State.scrubData a0 a1 a2 a3).kept = a0.kept := by
  simp only [State.scrubData, kept_ite, foldl_kept, ite_self, implies_true, State.scrubFixed_kept, State.checkSectors_kept, State.sectorErr_kept]

theorem State.doScrubCache_kept (a0 a1 a2 a3 a4) : (State.doScrubCache a0 a1 a2 a3 a4).kept = a0.kept := by
  unfold State.doScrubCache; split; exact Eq.refl _; dsimp only; have e := (State.scrubTags_kept (a0.paySet a1 (Tbl.get 0 a0.uc.scrubSet a1)) a1 (Tbl.get 0 a0.uc.scrubSet a1) a2 a3).trans (State.paySet_kept _ _ _); split <;> (rename_i h; rw [h] at e; dsimp only at e); exact e; rw [State.scrubNext_kept, State.scrubData_kept]; exact e

theorem State.scrubMove_kept (a0 a1) : (State.scrubMove a0 a1).kept = a0.kept := by
  simp only [State.scrubMove, kept_ite, ite_self, State.updChan_kept]

theorem State.earnScrub_kept (a0 a1) : (State.earnScrub a0 a1).kept = a0.kept := by
  simp only [State.earnScrub, State.updChan_kept]

theorem State.scrubLine_kept (a0 a1 a2 a3) : (State.scrubLine a0 a1 a2 a3).kept = a0.kept := by
  unfold State.scrubLine; extract_lets s1 lay cl s2; have e : s2.kept = a0.kept := (by simp only [s2, s1, State.event_kept, State.addErrors_kept]); have e2 := State.decodeLine_kept s2 a1 a2 128 0; clear_value s2; split <;> (rename_i h; rw [h] at e2; dsimp only at e2) <;> (try split) <;> (try rw [State.writeStored_kept]) <;> exact e2.trans e

theorem State.doScrubDram_kept (a0 a1 a2) : (State.doScrubDram a0 a1 a2).kept = a0.kept := by
  simp only [State.doScrubDram, kept_ite, ite_self, State.scrubMove_kept, State.mapCheck_kept, State.earnScrub_kept, State.updChan_kept, State.scrubLine_kept]

theorem State.scratchWrite_kept (a0 a1 a2 a3) : (State.scratchWrite a0 a1 a2 a3).kept = a0.kept := by
  simp only [State.scratchWrite, State.updBay_kept]

theorem State.zeroWord_kept (a0 a1) : (State.zeroWord a0 a1).kept = a0.kept := by
  simp only [State.zeroWord, kept_mk, kept_eta, kept_ite, ite_self, State.drawChoice_kept, State.scratchWrite_kept, State.arrayCorrected_kept]

theorem State.foundErr_kept (a0 a1) : (State.foundErr a0 a1).kept = a0.kept := by
  simp only [State.foundErr, State.drawChoice_kept, State.updBay_kept, State.arrayCorrected_kept, State.arrayLost_kept, State.zeroWord_kept] <;> (repeat' split) <;> (simp only [State.drawChoice_kept, State.updBay_kept, State.arrayCorrected_kept, State.arrayLost_kept, State.zeroWord_kept]; done)

theorem State.l1Lost_kept (a0 a1 a2 a3) : (State.l1Lost a0 a1 a2 a3).kept = a0.kept := by
  simp only [State.l1Lost, foldl_kept, implies_true, State.arrayCorrected_kept, State.dropL1_kept, State.setL1_kept, State.arrayLost_kept] <;> (repeat' split) <;> (simp only [foldl_kept, implies_true, State.arrayCorrected_kept, State.dropL1_kept, State.setL1_kept, State.arrayLost_kept])

theorem State.wordLost_kept (a0 a1 a2 a3) : (State.wordLost a0 a1 a2 a3).kept = a0.kept := by
  simp only [State.wordLost, State.drawChoice_kept, State.arrayLost_kept, State.l1Lost_kept, State.zeroWord_kept] <;> (repeat' split) <;> (simp only [State.drawChoice_kept, State.arrayLost_kept, State.l1Lost_kept, State.zeroWord_kept]; done)

theorem State.doScrubLs_kept (a0 a1 a2 a3) : (State.doScrubLs a0 a1 a2 a3).kept = a0.kept := by
  simp only [State.doScrubLs, kept_mk, kept_eta, State.foundErr_kept, State.arrayCorrected_kept, State.wordLost_kept, State.updBay_kept] <;> (repeat' split) <;> (simp only [kept_mk, kept_eta, State.foundErr_kept, State.arrayCorrected_kept, State.wordLost_kept, State.updBay_kept])

theorem State.readEntries_kept (a0 a1 a2 a3 a4 a5 a6) : (State.readEntries a0 a1 a2 a3 a4 a5 a6).1.kept = a0.kept := by
  simp only [State.readEntries] <;> (repeat' split) <;> (rename_i h1; cases congrArg Prod.fst h1; (simp only [State.agRead_kept]; done))

theorem State.readElems_kept (a0 a1 a2 a3 a4 a5) : (State.readElems a0 a1 a2 a3 a4 a5).1.kept = a0.kept := by
  simp only [State.readElems] <;> (repeat' split) <;> (rename_i h1; cases congrArg Prod.fst h1; (simp only [State.agRead_kept]; done))

theorem State.freeEngine_kept (a0 a1 a2) : (State.freeEngine a0 a1 a2).kept = a0.kept := by
  simp only [State.freeEngine, State.updCmd_kept]

theorem State.endPass1_kept (a0 a1 a2 a3 a4) : (State.endPass1 a0 a1 a2 a3 a4).kept = a0.kept := by
  simp only [State.endPass1, kept_ite, ite_self, State.updRow_kept, State.setBusy_kept, State.freeEngine_kept]

theorem State.pass1Step_kept (a0 a1 a2 a3 a4) : (State.pass1Step a0 a1 a2 a3 a4).kept = a0.kept := by
  simp only [State.pass1Step, implies_true, State.readEntries_kept, State.readElems_kept, State.countElems_kept, State.afterSave_kept, State.endPass1_kept, State.setBusy_kept] <;> (repeat' split) <;> (simp only [implies_true, State.readEntries_kept, State.readElems_kept, State.countElems_kept, State.afterSave_kept, State.endPass1_kept, State.setBusy_kept]; done)

theorem State.mergeStep_kept (a0 a1 a2 a3 a4) : (State.mergeStep a0 a1 a2 a3 a4).kept = a0.kept := by
  simp only [State.mergeStep, kept_ite, ite_self, implies_true, State.countElems_kept, State.afterSave_kept, State.freeEngine_kept, State.updRow_kept, State.setBusy_kept]

theorem State.pass2Step_kept (a0 a1 a2 a3 a4) : (State.pass2Step a0 a1 a2 a3 a4).kept = a0.kept := by
  simp only [State.pass2Step, implies_true, State.readElems_kept, State.countElems_kept, State.afterSave_kept, State.freeEngine_kept, State.updRow_kept, State.setBusy_kept] <;> (repeat' split) <;> (first | (rename_i h1; cases congrArg Prod.fst h1; (simp only [implies_true, State.readElems_kept, State.countElems_kept, State.afterSave_kept, State.freeEngine_kept, State.updRow_kept, State.setBusy_kept]; done)) | (rename_i h2 h1; cases congrArg Prod.fst h2; (simp only [implies_true, State.readElems_kept, State.countElems_kept, State.afterSave_kept, State.freeEngine_kept, State.updRow_kept, State.setBusy_kept]; done)))

theorem readPayload_kept (a0 a1 a2 a3 a4) : (readPayload a0 a1 a2 a3 a4).1.kept = a4.kept := by
  induction a3 generalizing a4 with
  | nil => simp only [readPayload]
  | cons x t ih => simp only [readPayload, kept_ite, ite_self, apply_ite Prod.fst, State.agRead_kept, ih] <;> (repeat' split) <;> (first | (rename_i h1; cases congrArg Prod.fst h1; (simp only [kept_ite, ite_self, apply_ite Prod.fst, State.agRead_kept, ih]; done)) | (rename_i h1 _ h0; cases congrArg Prod.fst h1; cases congrArg Prod.fst h0; (simp only [kept_ite, ite_self, apply_ite Prod.fst, State.agRead_kept, ih]; done)) | (rename_i h1 _ _ h0; cases congrArg Prod.fst h1; cases congrArg Prod.fst h0; (simp only [kept_ite, ite_self, apply_ite Prod.fst, State.agRead_kept, ih]; done)))

theorem storeParts_kept (a0 a1 a2 a3) : (storeParts a0 a1 a2 a3).1.kept = a3.kept := by
  induction a2 generalizing a3 with
  | nil => simp only [storeParts]
  | cons x t ih => simp only [storeParts, State.agStore_kept, ih] <;> (repeat' split) <;> (rename_i h1; cases congrArg Prod.fst h1; (simp only [State.agStore_kept, ih]; done))

theorem State.finishStep_kept (a0 a1 a2 a3 a4) : (State.finishStep a0 a1 a2 a3 a4).kept = a0.kept := by
  unfold State.finishStep; extract_lets b r k es; have h0 : (if sePayload b then readPayload a1 b (a0.payBase a3) es a0 else (a0, some ([], 0, false))).1.kept = a0.kept := (by split; exact readPayload_kept _ _ _ _ _; exact Eq.refl _); generalize (if sePayload b then readPayload a1 b (a0.payBase a3) es a0 else (a0, some ([], 0, false))) = y at h0 ⊢; obtain ⟨t, z⟩ := y; dsimp only at h0; cases z with | none => exact h0 | some v => (obtain ⟨pay, rows, oor⟩ := v; dsimp only; have h1 : (if sePayload b = true then t.countRows a2 a3.slice rows (rows * sePLen b / 32) else t).kept = t.kept := (by split; exact State.countRows_kept _ _ _ _ _; exact Eq.refl _); generalize (if sePayload b = true then t.countRows a2 a3.slice rows (rows * sePLen b / 32) else t) = s1 at h1 ⊢; generalize (_ ++ _ : List (Nat × Nat × Bytes)) = parts; have h2 := storeParts_kept a1 a3.desc parts s1; generalize storeParts a1 a3.desc parts s1 = y2 at h2 ⊢; obtain ⟨t2, z2⟩ := y2; dsimp only at h2; cases z2 with | false => exact h2.trans (h1.trans h0) | true => (dsimp only; split <;> (try rw [State.workDone_kept]) <;> rw [State.updCmd_kept] <;> exact h2.trans (h1.trans h0)))

theorem State.selectStep_kept (a0 a1 a2 a3) : (State.selectStep a0 a1 a2 a3).kept = a0.kept := by
  simp only [State.selectStep, kept_ite, ite_self, implies_true, State.pass1Step_kept, State.afterLoad_kept, State.mergeStep_kept, State.pass2Step_kept, State.finishStep_kept]

theorem State.doSelect_kept (a0 a1 a2) : (State.doSelect a0 a1 a2).kept = a0.kept := by
  simp only [State.doSelect, implies_true, State.onBay_kept, State.selectStep_kept] <;> (repeat' split) <;> (simp only [implies_true, State.onBay_kept, State.selectStep_kept])

theorem State.doShieldAnswer_kept (a0 a1) : (State.doShieldAnswer a0 a1).kept = a0.kept := by
  simp only [State.doShieldAnswer] <;> (repeat' split) <;> (simp only [State.takeShield_kept])

theorem State.readOp_kept (a0 a1 a2 a3 a4) : (State.readOp a0 a1 a2 a3 a4).1.kept = a0.kept := by
  unfold State.readOp; have e := State.agRead_kept a0 a1 (a2.addr + a3 * a2.fmt.bits / 8) (rowBytes a4 a2.fmt); generalize a0.agRead a1 (a2.addr + a3 * a2.fmt.bits / 8) (rowBytes a4 a2.fmt) = ye at e ⊢; obtain ⟨t, z⟩ := ye; dsimp only at e ⊢; cases z with | none => exact e | some x => (dsimp only; split; (have e2 := State.agRead_kept t a1 (a2.scale + a3 / 32) (ceilDiv a4 32); generalize t.agRead a1 (a2.scale + a3 / 32) (ceilDiv a4 32) = ye2 at e2 ⊢; obtain ⟨t2, z2⟩ := ye2; dsimp only at e2 ⊢; cases z2 <;> exact e2.trans e); exact e)

theorem readOps_kept (a0 a1 a2 a3 a4) : (readOps a0 a1 a2 a3 a4).1.kept = a4.kept := by
  induction a3 generalizing a4 with
  | nil => simp only [readOps]
  | cons x t ih => simp only [readOps, State.readOp_kept, ih] <;> (repeat' split) <;> (first | (rename_i h1; cases congrArg Prod.fst h1; (simp only [State.readOp_kept, ih]; done)) | (rename_i h1 _ _ h0; cases congrArg Prod.fst h1; cases congrArg Prod.fst h0; (simp only [State.readOp_kept, ih]; done)) | (rename_i h1 _ _ _ h0; cases congrArg Prod.fst h1; cases congrArg Prod.fst h0; (simp only [State.readOp_kept, ih]; done)))

theorem State.latchTile_kept (a0 a1 a2 a3 a4) : (State.latchTile a0 a1 a2 a3 a4).kept = a0.kept := by
  simp only [State.latchTile, State.updBay_kept]

theorem readEach_kept (a0 a1 a2 a3 a4 a5 a6 a7) : (readEach a0 a1 a2 a3 a4 a5 a6 a7).1.kept = a7.kept := by
  induction a6 generalizing a7 with
  | nil => simp only [readEach]
  | cons x t ih => simp only [readEach, foldl_kept, implies_true, readOps_kept, State.latchTile_kept, ih] <;> (repeat' split) <;> (first | (rename_i h1; cases congrArg Prod.fst h1; (simp only [foldl_kept, implies_true, readOps_kept, State.latchTile_kept, ih]; done)) | (rename_i h2 h1; cases congrArg Prod.fst h2; (simp only [foldl_kept, implies_true, readOps_kept, State.latchTile_kept, ih]; done)))

theorem State.weightTile_kept (a0 a1 a2 a3 a4 a5 a6) : (State.weightTile a0 a1 a2 a3 a4 a5 a6).1.kept = a0.kept := by
  simp only [State.weightTile, foldl_kept, implies_true, readOps_kept, State.takeBus_kept, State.latchTile_kept, readEach_kept, State.countFallbacks_kept] <;> (repeat' split) <;> (first | (simp only [foldl_kept, implies_true, readOps_kept, State.takeBus_kept, State.latchTile_kept, readEach_kept, State.countFallbacks_kept]; done) | (rename_i h1; cases congrArg Prod.fst h1; (simp only [foldl_kept, implies_true, readOps_kept, State.takeBus_kept, State.latchTile_kept, readEach_kept, State.countFallbacks_kept]; done)) | (rename_i h1 _ _ h0; cases congrArg Prod.fst h1; cases congrArg Prod.fst h0; (simp only [foldl_kept, implies_true, readOps_kept, State.takeBus_kept, State.latchTile_kept, readEach_kept, State.countFallbacks_kept]; done)) | (rename_i h1 _ _ _ h0; cases congrArg Prod.fst h1; cases congrArg Prod.fst h0; (simp only [foldl_kept, implies_true, readOps_kept, State.takeBus_kept, State.latchTile_kept, readEach_kept, State.countFallbacks_kept]; done)))

theorem readOld_kept (a0 a1 a2 a3 a4 a5 a6) : (readOld a0 a1 a2 a3 a4 a5 a6).1.kept = a6.kept := by
  induction a5 generalizing a6 with | nil => exact Eq.refl _ | cons r l ih => (unfold readOld; have e := State.agRead_kept a6 a0 ((dOut a1 0).addr + r * slCStride a2 + 4 * a3) (4 * a4); generalize a6.agRead a0 ((dOut a1 0).addr + r * slCStride a2 + 4 * a3) (4 * a4) = ye at e ⊢; obtain ⟨t, z⟩ := ye; dsimp only at e ⊢; cases z with | none => exact e | some x => (dsimp only; have e2 := ih t; generalize readOld a0 a1 a2 a3 a4 l t = ye2 at e2 ⊢; obtain ⟨t2, z2⟩ := ye2; dsimp only at e2 ⊢; cases z2 <;> exact e2.trans e))

theorem State.startAcc_kept (a0 a1 a2 a3 a4) : (State.startAcc a0 a1 a2 a3 a4).1.kept = a0.kept := by
  simp only [State.startAcc, kept_ite, ite_self, apply_ite Prod.fst, readOld_kept]

theorem State.tileReads_kept (a0 a1 a2 a3 a4) : (State.tileReads a0 a1 a2 a3 a4).1.kept = a0.kept := by
  unfold State.tileReads; dsimp only; have e0 := State.weightTile_kept a0 a1 a2 (a4.tileKey (a0.cmd a1).desc (a0.cmd a1).block) (a4.pos * slTileK (a0.cmd a1).block) (min (slTileK (a0.cmd a1).block) (slK (a0.cmd a1).block - a4.pos * slTileK (a0.cmd a1).block)) (wPlaces (a0.cmd a1).block (a0.wBase (a0.cmd a1)) (itemSpan (a0.cmd a1).desc (a0.cmd a1).block a4.item).2.2.1 (itemSpan (a0.cmd a1).desc (a0.cmd a1).block a4.item).2.2.2); generalize State.weightTile _ _ _ _ _ _ _ = y1 at e0 ⊢; obtain ⟨t1, z1⟩ := y1; dsimp only at e0 ⊢; cases z1 with | none => exact e0 | some w => (dsimp only; have e2 := readOps_kept a3 (a4.pos * slTileK (a0.cmd a1).block) (min (slTileK (a0.cmd a1).block) (slK (a0.cmd a1).block - a4.pos * slTileK (a0.cmd a1).block)) (aPlaces (a0.cmd a1).block (itemSpan (a0.cmd a1).desc (a0.cmd a1).block a4.item).1 (itemSpan (a0.cmd a1).desc (a0.cmd a1).block a4.item).2.1) t1; generalize readOps _ _ _ _ t1 = y2 at e2 ⊢; obtain ⟨t2, z2⟩ := y2; dsimp only at e2 ⊢; cases z2 with | none => exact e2.trans e0 | some x => (dsimp only; have e3 := State.startAcc_kept t2 a3 (a0.cmd a1).desc (a0.cmd a1).block a4; generalize t2.startAcc a3 (a0.cmd a1).desc (a0.cmd a1).block a4 = y3 at e3 ⊢; obtain ⟨t3, z3⟩ := y3; dsimp only at e3 ⊢; cases z3 <;> exact e3.trans (e2.trans e0)))

theorem writeRows_kept (a0 a1 a2 a3 a4 a5) : (writeRows a0 a1 a2 a3 a4 a5).1.kept = a5.kept := by
  induction a4 generalizing a5 with
  | nil => simp only [writeRows]
  | cons x t ih => simp only [writeRows, kept_ite, ite_self, apply_ite Prod.fst, State.updCmd_kept, State.agWrite_kept, ih] <;> (repeat' split) <;> (first | (rename_i h1; cases congrArg Prod.fst h1; (simp only [kept_ite, ite_self, apply_ite Prod.fst, State.updCmd_kept, State.agWrite_kept, ih]; done)) | (rename_i h1 _ _ h0; cases congrArg Prod.fst h1; cases congrArg Prod.fst h0; (simp only [kept_ite, ite_self, apply_ite Prod.fst, State.updCmd_kept, State.agWrite_kept, ih]; done)))

theorem State.endItem_kept (a0 a1 a2 a3 a4 a5) : (State.endItem a0 a1 a2 a3 a4 a5).kept = a0.kept := by
  unfold State.endItem <;> (repeat' split) <;> (rename_i h1; cases congrArg Prod.fst h1; (simp only [kept_ite, ite_self, writeRows_kept, State.updCmd_kept, State.workDone_kept]; done))

theorem State.slabTile_kept (a0 a1 a2 a3) : (State.slabTile a0 a1 a2 a3).kept = a0.kept := by
  unfold State.slabTile; dsimp only; have e := State.tileReads_kept a0 a1 a2 (a0.agentOn a1 (a2 / 4)) a3; generalize a0.tileReads a1 a2 (a0.agentOn a1 (a2 / 4)) a3 = y1 at e ⊢; obtain ⟨t1, z1⟩ := y1; dsimp only at e ⊢; cases z1 with | none => exact e | some v => (obtain ⟨ws, ag, acc⟩ := v; dsimp only; split <;> (first | rw [State.endItem_kept] | rw [State.updCmd_kept]) <;> rw [State.countTile_kept] <;> exact e)

theorem State.doSlabRun_kept (a0 a1 a2) : (State.doSlabRun a0 a1 a2).kept = a0.kept := by
  simp only [State.doSlabRun, implies_true, State.onBay_kept, State.slabTile_kept] <;> (repeat' split) <;> (simp only [implies_true, State.onBay_kept, State.slabTile_kept])

theorem State.doSliceDrained_kept (a0 a1) : (State.doSliceDrained a0 a1).kept = a0.kept := by
  simp only [State.doSliceDrained, kept_ite, ite_self, State.updSlice_kept]

theorem State.doSliceFrozen_kept (a0 a1) : (State.doSliceFrozen a0 a1).kept = a0.kept := by
  simp only [State.doSliceFrozen, State.migEnd_kept, State.updSlice_kept, State.breakInbound_kept] <;> (repeat' split) <;> (simp only [State.migEnd_kept, State.updSlice_kept, State.breakInbound_kept])

theorem State.doSnap_kept (a0 a1 a2) : (State.doSnap a0 a1 a2).kept = a0.kept := by
  simp only [State.doSnap, kept_mk, kept_eta, kept_ite, ite_self, State.mapGroups_kept, State.clearGroups_kept]

theorem State.findSplit_kept (a0 a1) : (State.findSplit a0 a1).kept = a0.kept := by
  simp only [State.findSplit, kept_mk, kept_eta, State.raise_kept]

theorem State.doSplitCheck_kept (a0) : (State.doSplitCheck a0).kept = a0.kept := by
  simp only [State.doSplitCheck, kept_ite, foldl_kept, ite_self, implies_true, State.findSplit_kept, State.closeSplit_kept]

theorem State.doSqTail_kept (a0 a1 a2 a3) : (State.doSqTail a0 a1 a2 a3).kept = a0.kept := by
  simp only [State.doSqTail, kept_ite, ite_self, implies_true, State.pageWrite_kept, State.updSq_kept]

theorem State.doStaleDiscard_kept (a0 a1) : (State.doStaleDiscard a0 a1).kept = a0.kept := by
  simp only [State.doStaleDiscard, kept_mk, kept_eta, State.settleReq_kept] <;> (repeat' split) <;> (simp only [kept_mk, kept_eta, State.settleReq_kept])

theorem State.failBringup_kept (a0 a1 a2) : (State.failBringup a0 a1 a2).kept = a0.kept := by
  simp only [State.failBringup, kept_mk, kept_eta, State.enterState_kept]

theorem State.journalBoot_kept (a0) : (State.journalBoot a0).kept = a0.kept := by
  simp only [State.journalBoot, kept_mk, kept_eta, State.appendJournal_kept]

theorem State.startRegulator_kept (a0 a1 a2) : (State.startRegulator a0 a1 a2).kept = a0.kept := by
  simp only [State.startRegulator, kept_mk, kept_eta, kept_ite, ite_self, State.vrTransaction_kept, State.writeSetPoint_kept]

theorem State.restoreGuards_kept (a0 a1) : (State.restoreGuards a0 a1).kept = a0.kept := by
  simp only [State.restoreGuards, foldl_kept, implies_true, State.startRegulator_kept] <;> (repeat' split) <;> (rfl)

theorem State.endStep2_kept (a0 a1 a2) : (State.endStep2 a0 a1 a2).kept = a0.kept := by
  simp only [State.endStep2, kept_mk, kept_eta, kept_ite, foldl_kept, ite_self, implies_true, State.journalBoot_kept, State.restoreGuards_kept, State.beginStep_kept, State.applyRepairs_kept, State.failBringup_kept]

theorem State.endStep3_kept (a0 a1) : (State.endStep3 a0 a1).kept = a0.kept := by
  simp only [State.endStep3, kept_mk, kept_eta, State.failBringup_kept, State.beginStep_kept] <;> (repeat' split) <;> (simp only [kept_mk, kept_eta, State.failBringup_kept, State.beginStep_kept])

theorem State.trainAll_kept (a0) : (State.trainAll a0).kept = a0.kept := by
  unfold State.trainAll; generalize List.range 128 = L; exact foldl_kept _ (fun s b => State.updChan_kept _ _ _) _ _

theorem State.endStep4_kept (a0 a1 a2 a3 a4) : (State.endStep4 a0 a1 a2 a3 a4).kept = a0.kept := by
  unfold State.endStep4; generalize badMemory _ _ _ = v; cases v with | some p => exact State.failBringup_kept _ _ _ | none => (dsimp only; have e := State.trainAll_kept a0; generalize a0.trainAll = t at e ⊢; refine (State.beginStep_kept _ _).trans ?_; rw [kept_mk, kept_eta]; exact e)

theorem State.endStep5_kept (a0) : (State.endStep5 a0).kept = a0.kept := by
  simp only [State.endStep5, kept_mk, kept_eta, State.beginStep_kept]

theorem State.endStep6_kept (a0) : (State.endStep6 a0).kept = a0.kept := by
  unfold State.endStep6 <;> split <;> (try simp only [State.enterState_kept, State.pickImage_kept]) <;> (repeat' split) <;> (rfl)

theorem State.endStep7_kept (a0) : (State.endStep7 a0).kept = a0.kept := by
  simp only [State.endStep7, kept_mk, kept_eta, State.beginStep_kept]

theorem State.startSlice_kept (a0 a1) : (State.startSlice a0 a1).kept = a0.kept := by
  simp only [State.startSlice, State.writeCopies_kept, State.updSlice_kept]

theorem State.startScrubs_kept (a0) : (State.startScrubs a0).kept = a0.kept := by
  simp only [State.startScrubs, foldl_kept, implies_true, State.updChan_kept]

theorem State.notePackageEnd_kept (a0) : (State.notePackageEnd a0).kept = a0.kept := by
  simp only [State.notePackageEnd, kept_mk, kept_eta, kept_ite, ite_self]

theorem State.endStep8_kept (a0) : (State.endStep8 a0).kept = a0.kept := by
  unfold State.endStep8; extract_lets w s1 s2 s3 s4; have e1 : s1.kept = a0.kept := foldl_kept _ (fun s b => State.updBay_kept _ _ _) _ _; clear_value s1; have e2 : s2.kept = s1.kept := foldl_kept _ (fun s b => State.startSlice_kept _ _) _ _; clear_value s2; have e3 : s3.kept = s2.kept := foldl_kept _ (fun s b => State.updPort_kept _ _ _) _ _; clear_value s3; have e4 : s4.kept = s3.kept := State.startScrubs_kept _; clear_value s4; rw [State.enterState_kept, State.notePackageEnd_kept, kept_mk, kept_eta]; exact e4.trans (e3.trans (e2.trans e1))

theorem State.doStepEnd_kept (a0 a1) : (State.doStepEnd a0 a1).kept = a0.kept := by
  unfold State.doStepEnd <;> (repeat' split) <;> (simp only [State.failBringup_kept, State.endStep2_kept, State.endStep3_kept, State.endStep4_kept, State.endStep5_kept, State.endStep6_kept, State.endStep7_kept, State.endStep8_kept]; done)

theorem State.doStepTimeout_kept (a0) : (State.doStepTimeout a0).kept = a0.kept := by
  simp only [State.doStepTimeout, kept_ite, ite_self, State.failBringup_kept]

theorem State.doStoreCapstone_kept (a0 a1 a2 a3 a4 a5) : (State.doStoreCapstone a0 a1 a2 a3 a4 a5).kept = a0.kept := by
  unfold State.doStoreCapstone; extract_lets v c addr len; split; exact State.gangFault_kept _ _ _ _; rename_i cap id strt _; have hs : ∀ s' cp, (strt s' cp).kept = s'.kept := (by intro s' cp; simp only [strt, State.setCap_kept, State.updGang_kept, kept_mk, kept_eta]); clear_value strt; split; split; exact hs _ _; exact State.gangFault_kept _ _ _ _; have e := State.gangDpa_kept a0 a1 (addr / 128) 1; split <;> (rename_i h; rw [h] at e; dsimp only at e); exact e; dsimp only; split; exact (State.stopCmd_kept _ _ _).trans e; exact (hs _ _).trans e

theorem State.l1Store_kept (a0 a1 a2 a3 a4 a5) : (State.l1Store a0 a1 a2 a3 a4 a5).kept = a0.kept := by
  simp only [State.l1Store, State.setL1_kept, State.l1Room_kept] <;> (repeat' split) <;> (simp only [State.setL1_kept, State.l1Room_kept])

theorem State.plainLine_kept (a0 a1 a2 a3) : (State.plainLine a0 a1 a2 a3).kept = a0.kept := by
  unfold State.plainLine <;> (repeat' split) <;> (rename_i h1; cases congrArg Prod.fst h1; (simp only [kept_ite, ite_self, State.gangDpa_kept, State.newReq_kept, State.l1Store_kept]; done))

theorem State.hostStore_kept (a0 a1 a2 a3 a4) : (State.hostStore a0 a1 a2 a3 a4).kept = a0.kept := by
  simp only [State.hostStore, kept_ite, foldl_kept, ite_self, implies_true, State.agHostWrite_kept, State.updGang_kept, State.gangFault_kept]

theorem State.doStorePlain_kept (a0 a1 a2 a3) : (State.doStorePlain a0 a1 a2 a3).kept = a0.kept := by
  simp only [State.doStorePlain, implies_true, overLines_kept, State.plainLine_kept, State.hostStore_kept] <;> (repeat' split) <;> (simp only [implies_true, overLines_kept, State.plainLine_kept, State.hostStore_kept])

theorem State.l1Update_kept (a0 a1 a2 a3 a4) : (State.l1Update a0 a1 a2 a3 a4).kept = a0.kept := by
  simp only [State.l1Update] <;> (repeat' split) <;> (rfl)

theorem State.volatileLine_kept (a0 a1 a2 a3 a4) : (State.volatileLine a0 a1 a2 a3 a4).kept = a0.kept := by
  unfold State.volatileLine <;> (repeat' split) <;> (first | (rename_i h1; cases congrArg Prod.fst h1; (simp only [State.gangDpa_kept, State.updGang_kept, State.l1Update_kept, State.newReq_kept]; done)) | (rename_i h2 h1; cases congrArg Prod.fst h2; (simp only [State.gangDpa_kept, State.updGang_kept, State.l1Update_kept, State.newReq_kept]; done)) | (rename_i h1 _ h0; cases congrArg Prod.fst h1; (simp only [State.gangDpa_kept, State.updGang_kept, State.l1Update_kept, State.newReq_kept]; done)))

theorem State.doStoreVolatile_kept (a0 a1 a2 a3 a4) : (State.doStoreVolatile a0 a1 a2 a3 a4).kept = a0.kept := by
  simp only [State.doStoreVolatile, implies_true, overLines_kept, State.volatileLine_kept, State.hostStore_kept] <;> (repeat' split) <;> (simp only [implies_true, overLines_kept, State.volatileLine_kept, State.hostStore_kept])

theorem State.doStoreStream_kept (a0 a1 a2 a3 a4) : (State.doStoreStream a0 a1 a2 a3 a4).kept = a0.kept := by
  simp only [State.doStoreStream, kept_ite, ite_self, State.demote_kept, State.doStoreVolatile_kept]

theorem State.doSweldExpect_kept (a0 a1) : (State.doSweldExpect a0 a1).kept = a0.kept := by
  simp only [State.doSweldExpect, kept_mk, kept_eta, State.readFlags_kept] <;> (repeat' split) <;> (simp only [kept_mk, kept_eta, State.readFlags_kept])

theorem State.openSend_kept (a0 a1) : (State.openSend a0 a1).kept = a0.kept := by
  simp only [State.openSend, State.refuseSend_kept, State.sendOpenMsg_kept, State.setOut_kept] <;> (repeat' split) <;> (simp only [State.refuseSend_kept, State.sendOpenMsg_kept, State.setOut_kept]; done)

theorem State.sendPart_kept (a0 a1 a2 a3 a4 a5 a6 a7 a8) : (State.sendPart a0 a1 a2 a3 a4 a5 a6 a7 a8).kept = a0.kept := by
  simp only [State.sendPart, State.agRead_kept, State.abortOut_kept, State.sendMsg_kept, State.countSweld_kept, State.setOut_kept] <;> (repeat' split) <;> (rename_i h1; cases congrArg Prod.fst h1; (simp only [State.agRead_kept, State.abortOut_kept, State.sendMsg_kept, State.countSweld_kept, State.setOut_kept]; done))

theorem State.sendNext_kept (a0 a1 a2 a3 a4) : (State.sendNext a0 a1 a2 a3 a4).kept = a0.kept := by
  simp only [State.sendNext, kept_ite, ite_self, State.sendPart_kept]

theorem State.sendTurn_kept (a0 a1 a2 a3 a4) : (State.sendTurn a0 a1 a2 a3 a4).kept = a0.kept := by
  simp only [State.sendTurn, State.sendNext_kept, State.updPort_kept] <;> (repeat' split) <;> (simp only [State.sendNext_kept, State.updPort_kept])

theorem State.doSweldSend_kept (a0 a1) : (State.doSweldSend a0 a1).kept = a0.kept := by
  simp only [State.doSweldSend, State.openSend_kept, State.sendTurn_kept] <;> (repeat' split) <;> (simp only [State.openSend_kept, State.sendTurn_kept])

theorem State.doTelSel_kept (a0 a1 a2 a3) : (State.doTelSel a0 a1 a2 a3).kept = a0.kept := by
  simp only [State.doTelSel, kept_mk, kept_eta, kept_ite, ite_self]

theorem State.doTenantReset_kept (a0 a1 a2) : (State.doTenantReset a0 a1 a2).kept = a0.kept := by
  simp only [State.doTenantReset, kept_mk, kept_eta, State.mergeReset_kept, State.beginTenantReset_kept, State.updSlice_kept] <;> (repeat' split) <;> (simp only [kept_mk, kept_eta, State.mergeReset_kept, State.beginTenantReset_kept, State.updSlice_kept])

theorem State.doTenantResetRequest_kept (a0 a1 a2) : (State.doTenantResetRequest a0 a1 a2).kept = a0.kept := by
  simp only [State.doTenantResetRequest, kept_ite, ite_self, implies_true, State.pageWrite_kept, State.askTenantReset_kept]

theorem State.doThaw_kept (a0 a1) : (State.doThaw a0 a1).kept = a0.kept := by
  simp only [State.doThaw, kept_ite, ite_self, implies_true, State.migCtl_kept, State.migEnd_kept, State.updSlice_kept]

theorem State.readSensors_kept (a0 a1) : (State.readSensors a0 a1).kept = a0.kept := by
  simp only [State.readSensors, kept_mk, kept_eta]

theorem State.thermTrip_kept (a0) : (State.thermTrip a0).kept = a0.kept := by
  simp only [State.thermTrip, kept_mk, kept_eta, State.enterState_kept, State.packageStop_kept]

theorem State.doThermal_kept (a0 a1) : (State.doThermal a0 a1).kept = a0.kept := by
  simp only [State.doThermal, kept_mk, kept_eta, kept_ite, ite_self, State.readSensors_kept, State.thermTrip_kept]

theorem postTick_kept (a0 a1 a2) : (postTick a0 a1 a2).1.kept = a2.kept := by
  induction a0 generalizing a1 a2 with
  | nil => simp only [postTick]
  | cons x t ih => simp only [postTick, State.postManager_kept, ih]

theorem State.doTick_kept (a0) : (State.doTick a0).kept = a0.kept := by
  simp only [State.doTick, kept_mk, kept_eta, kept_ite, ite_self, apply_ite Prod.fst, postTick_kept]

theorem State.doTimeBeacon_kept (a0) : (State.doTimeBeacon a0).kept = a0.kept := by
  simp only [State.doTimeBeacon, kept_mk, kept_eta, kept_ite, ite_self, State.alignDies_kept]

theorem State.doUnknownPlumb_kept (a0 a1 a2) : (State.doUnknownPlumb a0 a1 a2).kept = a0.kept := by
  simp only [State.doUnknownPlumb, kept_ite, ite_self, State.answer_kept]

theorem State.doWayDone_kept (a0) : (State.doWayDone a0).kept = a0.kept := by
  simp only [State.doWayDone, kept_mk, kept_eta, foldl_kept, implies_true, State.evictWay_kept] <;> (repeat' split) <;> (simp only [kept_mk, kept_eta, foldl_kept, implies_true, State.evictWay_kept])

theorem State.wayCtl_kept (a0 a1) (ha1 : ∀ b0, (a1 b0).kept = b0.kept) : (State.wayCtl a0 a1).kept = a0.kept := by
  simp only [State.wayCtl, kept_mk, kept_eta, kept_ite, ite_self, ha1]

theorem State.doWayEnable_kept (a0 a1 a2) : (State.doWayEnable a0 a1 a2).kept = a0.kept := by
  simp only [State.doWayEnable, kept_mk, kept_eta, kept_ite, ite_self, implies_true, State.wayCtl_kept]

theorem State.drawByte_kept (a0) : (State.drawByte a0).2.kept = a0.kept := by
  simp only [State.drawByte, kept_mk, kept_eta]

theorem bridgeSlots_kept (a0 a1 a2 a3) : (bridgeSlots a0 a1 a2 a3).1.kept = a3.kept := by
  induction a1 generalizing a2 a3 with
  | zero => simp only [bridgeSlots]
  | succ k ih => simp only [bridgeSlots, State.bridgeSlot_kept, ih] <;> (repeat' split) <;> (rename_i h1; cases congrArg Prod.fst h1; (simp only [State.bridgeSlot_kept, ih]; done))

theorem State.passFlit_kept (a0 a1 a2) : (State.passFlit a0 a1 a2).kept = a0.kept := by
  simp only [State.passFlit] <;> (repeat' split) <;> (rfl)

theorem State.fabricEdge_kept (a0) : (State.fabricEdge a0).kept = a0.kept := by
  simp only [State.fabricEdge, kept_mk, kept_eta, foldl_kept, foldl_kept1, implies_true, bridgeSlots_kept, State.passFlit_kept]

theorem State.flushFrom_kept (a0 a1 a2 a3 a4) : (State.flushFrom a0 a1 a2 a3 a4).kept = a0.kept := by
  simp only [State.flushFrom, State.doFlushRange_kept, State.gangFault_kept] <;> (repeat' split) <;> (simp only [State.doFlushRange_kept, State.gangFault_kept])

theorem State.tickSkew_kept (a0) : (State.tickSkew a0).kept = a0.kept := by
  simp only [State.tickSkew, kept_mk, kept_eta]

theorem State.tickFabric_kept (a0) : (State.tickFabric a0).kept = a0.kept := by
  simp only [State.tickFabric, foldl_kept, implies_true, State.tickSkew_kept, State.fabricEdge_kept]

theorem State.tickBays_kept (a0) : (State.tickBays a0).kept = a0.kept := by
  unfold State.tickBays <;> (refine foldl_kept _ (fun s b => ?_) _ _) <;> (repeat' split) <;> (rfl)

theorem State.tickCounts_kept (a0) : (State.tickCounts a0).kept = a0.kept := by
  simp only [State.tickCounts, kept_mk, kept_eta, kept_ite, ite_self, State.tickFabric_kept, State.tickBays_kept]

theorem State.tickTime_kept (a0) : (State.tickTime a0).kept = a0.kept := by
  simp only [State.tickTime, kept_mk, kept_eta]

theorem State.idle_kept (a0) : (State.idle a0).kept = a0.kept := by
  simp only [State.idle, kept_ite, ite_self, State.event_kept, State.tickCounts_kept, State.tickTime_kept]

theorem State.imageBegin_kept (a0 a1) : (State.imageBegin a0 a1).kept = a0.kept := by
  simp only [State.imageBegin, kept_mk, kept_eta, kept_ite, ite_self, State.breakInbound_kept, State.updSlice_kept, State.imageFail_kept]

theorem State.issueMem_kept (a0 a1 a2) (ha2 : ∀ b0, (a2 b0).kept = b0.kept) : (State.issueMem a0 a1 a2).kept = a0.kept := by
  simp only [State.issueMem, implies_true, State.settled_kept, State.issue_kept, ha2]

theorem State.issueLoad_kept (a0 a1 a2 a3 a4) : (State.issueLoad a0 a1 a2 a3 a4).kept = a0.kept := by
  simp only [State.issueLoad, kept_ite, ite_self, implies_true, State.issueMem_kept, State.doLoad_kept]

theorem State.issueStore_kept (a0 a1 a2 a3 a4) (ha4 : ∀ b0, (a4 b0).kept = b0.kept) : (State.issueStore a0 a1 a2 a3 a4).kept = a0.kept := by
  simp only [State.issueStore, kept_ite, ite_self, implies_true, State.awaiting_kept, State.issueMem_kept, ha4]

theorem State.loadFrom_kept (a0 a1 a2 a3) : (State.loadFrom a0 a1 a2 a3).kept = a0.kept := by
  simp only [State.loadFrom, implies_true, State.issueLoad_kept, State.issue_kept, State.gangFault_kept] <;> (repeat' split) <;> (simp only [implies_true, State.issueLoad_kept, State.issue_kept, State.gangFault_kept])

theorem State.startHandleOp_kept (a0 a1 a2 a3) : (State.startHandleOp a0 a1 a2 a3).kept = a0.kept := by
  simp only [State.startHandleOp, kept_mk, kept_eta, kept_ite, ite_self]

theorem State.startImage_kept (a0 a1 a2 a3 a4) : (State.startImage a0 a1 a2 a3 a4).kept = a0.kept := by
  simp only [State.startImage, kept_mk, kept_eta, kept_ite, ite_self, State.imageBegin_kept, State.imageDone_kept]

theorem State.tryStop_kept (a0 a1) : (State.tryStop a0 a1).kept = a0.kept := by
  simp only [State.tryStop, kept_ite, ite_self, State.leaveBay_kept, State.updCmd_kept, State.updBay_kept, State.unholdBay_kept]

end Sys2Proof.Machine
end

