-- ==== Sys2Proof/Laws/Still.lean ====
section
/-! SUPPORT. The two addressed memories, and the plain laws of that part of a state. -/

namespace Sys2Proof.Machine


/-- The two addressed memories. -/
structure Still where
  dram : Tbl Byte
  host : Tbl Byte
deriving DecidableEq, Repr

/-- Those of a state. -/
def State.still (s : State) : Still := ⟨s.mem.dram, s.host.mem⟩

theorem still_mk (a b c d e f g h i j k l m n o p q r t u v w x y z) :
  (State.mk a b c d e f g h i j k l m n o p q r t u v w x y z).still = ⟨q.dram, z.mem⟩ := rfl

theorem still_eta (s : State) : Still.mk s.mem.dram s.host.mem = s.still := rfl

theorem still_ite {c} [Decidable c] (a b : State) : (if c then a else b).still = if c then a.still else b.still := by split <;> rfl

theorem foldl_still {α} (f : State → α → State) (h : ∀ s a, (f s a).still = s.still) (l : List α) (s : State) : (l.foldl f s).still = s.still := by
  induction l generalizing s with
  | nil => rfl
  | cons a t ih => simp only [List.foldl, ih, h]

theorem foldl_still1 {α β} (f : State × β → α → State × β) (h : ∀ s a, (f s a).1.still = s.1.still) (l : List α) (s : State × β) : (l.foldl f s).1.still = s.1.still := by
  induction l generalizing s with
  | nil => rfl
  | cons a t ih => simp only [List.foldl, ih, h]

theorem foldl_still2 {α β} (f : β × State → α → β × State) (h : ∀ s a, (f s a).2.still = s.2.still) (l : List α) (s : β × State) : (l.foldl f s).2.still = s.2.still := by
  induction l generalizing s with
  | nil => rfl
  | cons a t ih => simp only [List.foldl, ih, h]

end Sys2Proof.Machine
end

