-- ==== Sys2Proof/Laws/StillA.lean ====
section
/-! SUPPORT. Operations that leave DRAM and the memory of the host as they are, part 1 of 2. -/

namespace Sys2Proof.Machine

set_option linter.unusedSimpArgs false
set_option linter.unusedVariables false

theorem State.setCmd_still (a0 a1 a2) : (State.setCmd a0 a1 a2).still = a0.still := by
  simp only [State.setCmd, still_mk, still_eta]

theorem State.stopCmd_still (a0 a1 a2) : (State.stopCmd a0 a1 a2).still = a0.still := by
  simp only [State.stopCmd, still_ite, ite_self, State.setCmd_still]

theorem State.abortBay_still (a0 a1 a2 a3) : (State.abortBay a0 a1 a2 a3).still = a0.still := by
  simp only [State.abortBay, still_mk, still_eta, foldl_still, implies_true, State.stopCmd_still]

theorem State.setCap_still (a0 a1 a2) : (State.setCap a0 a1 a2).still = a0.still := by
  simp only [State.setCap, still_mk, still_eta]

theorem State.dropCap_still (a0 a1 a2) : (State.dropCap a0 a1 a2).still = a0.still := by
  simp only [State.dropCap] <;> (repeat' split) <;> (rfl)

theorem State.endCap_still (a0 a1) : (State.endCap a0 a1).still = a0.still := by
  simp only [State.endCap] <;> (repeat' split) <;> (simp only [State.dropCap_still])

theorem State.abortCapstones_still (a0 a1 a2 a3) : (State.abortCapstones a0 a1 a2 a3).still = a0.still := by
  simp only [State.abortCapstones, foldl_still, implies_true, State.endCap_still, State.stopCmd_still]

theorem State.setPort_still (a0 a1 a2) : (State.setPort a0 a1 a2).still = a0.still := by
  simp only [State.setPort, still_mk, still_eta]

theorem State.updPort_still (a0 a1 a2) : (State.updPort a0 a1 a2).still = a0.still := by
  simp only [State.updPort, State.setPort_still]

theorem State.injected_still (a0 a1 a2) : (State.injected a0 a1 a2).2.still = a0.still := by
  simp only [State.injected, still_mk, still_eta, still_ite, ite_self, apply_ite Prod.snd]

theorem State.putFlit_still (a0 a1 a2 a3 a4 a5) : (State.putFlit a0 a1 a2 a3 a4 a5).still = a0.still := by
  simp only [State.putFlit, still_ite, ite_self, apply_ite Prod.snd, State.injected_still, State.updPort_still]

theorem pumpFlits_still (a0 a1 a2) : (pumpFlits a0 a1 a2).still = a2.still := by
  induction a1 generalizing a2 with
  | zero => simp only [pumpFlits]
  | succ k ih => simp only [pumpFlits, State.updPort_still, State.putFlit_still, ih] <;> (repeat' split) <;> (simp only [State.updPort_still, State.putFlit_still, ih])

theorem State.pump_still (a0 a1) : (State.pump a0 a1).still = a0.still := by
  simp only [State.pump, still_ite, ite_self, pumpFlits_still]

theorem State.sendMsg_still (a0 a1 a2 a3 a4 a5) : (State.sendMsg a0 a1 a2 a3 a4 a5).still = a0.still := by
  simp only [State.sendMsg, State.updPort_still, State.pump_still]

theorem State.setBuffer_still (a0 a1 a2) : (State.setBuffer a0 a1 a2).still = a0.still := by
  simp only [State.setBuffer, still_mk, still_eta]

theorem State.freeBuffer_still (a0 a1) : (State.freeBuffer a0 a1).still = a0.still := by
  simp only [State.freeBuffer, State.setBuffer_still]

theorem State.countBroken_still (a0) : (State.countBroken a0).still = a0.still := by
  simp only [State.countBroken, still_mk, still_eta]

theorem State.control_still (a0 a1 a2 a3) : (State.control a0 a1 a2 a3).still = a0.still := by
  simp only [State.control, still_mk, still_eta]

theorem State.signalUnits_still (a0 a1 a2 a3) : (State.signalUnits a0 a1 a2 a3).still = a0.still := by
  simp only [State.signalUnits, State.control_still]

theorem State.setBay_still (a0 a1 a2) : (State.setBay a0 a1 a2).still = a0.still := by
  simp only [State.setBay, still_mk, still_eta]

theorem State.updBay_still (a0 a1 a2) : (State.updBay a0 a1 a2).still = a0.still := by
  simp only [State.updBay, State.setBay_still]

theorem State.setChan_still (a0 a1 a2) : (State.setChan a0 a1 a2).still = a0.still := by
  simp only [State.setChan, still_mk, still_eta]

theorem State.updChan_still (a0 a1 a2) : (State.updChan a0 a1 a2).still = a0.still := by
  simp only [State.updChan, State.setChan_still]

theorem State.bumpEpoch_still (a0 a1) : (State.bumpEpoch a0 a1).still = a0.still := by
  simp only [State.bumpEpoch] <;> (repeat' split) <;> (rfl)

theorem State.closeShield_still (a0 a1 a2 a3) : (State.closeShield a0 a1 a2 a3).still = a0.still := by
  simp only [State.closeShield, still_mk, still_eta, still_ite, foldl_still, ite_self, implies_true, State.signalUnits_still, State.bumpEpoch_still, State.stopCmd_still]

theorem State.remaster_still (a0) : (State.remaster a0).still = a0.still := by
  simp only [State.remaster, still_mk, still_eta, still_ite, ite_self]

theorem State.cutPort_still (a0 a1) : (State.cutPort a0 a1).still = a0.still := by
  simp only [State.cutPort, still_mk, still_eta, State.closeShield_still, State.updPort_still, State.remaster_still]

theorem State.settlePort_still (a0 a1) : (State.settlePort a0 a1).still = a0.still := by
  simp only [State.settlePort, still_ite, ite_self, State.cutPort_still]

theorem State.delIn_still (a0 a1 a2) : (State.delIn a0 a1 a2).still = a0.still := by
  simp only [State.delIn, still_mk, still_eta, State.settlePort_still]

theorem State.breakIn_still (a0 a1 a2) : (State.breakIn a0 a1 a2).still = a0.still := by
  simp only [State.breakIn, State.freeBuffer_still, State.countBroken_still, State.delIn_still] <;> (repeat' split) <;> (simp only [State.freeBuffer_still, State.countBroken_still, State.delIn_still])

theorem State.abortIn_still (a0 a1 a2 a3) : (State.abortIn a0 a1 a2 a3).still = a0.still := by
  simp only [State.abortIn, State.sendMsg_still, State.breakIn_still]

theorem State.delOut_still (a0 a1 a2) : (State.delOut a0 a1 a2).still = a0.still := by
  simp only [State.delOut, still_mk, still_eta, State.settlePort_still]

theorem State.breakOut_still (a0 a1 a2 a3) : (State.breakOut a0 a1 a2 a3).still = a0.still := by
  simp only [State.breakOut, State.countBroken_still, State.delOut_still, State.stopCmd_still] <;> (repeat' split) <;> (simp only [State.countBroken_still, State.delOut_still, State.stopCmd_still])

theorem State.abortOut_still (a0 a1 a2 a3) : (State.abortOut a0 a1 a2 a3).still = a0.still := by
  simp only [State.abortOut, State.sendMsg_still, State.breakOut_still]

theorem State.abortSends_still (a0 a1 a2) : (State.abortSends a0 a1 a2).still = a0.still := by
  simp only [State.abortSends, foldl_still, implies_true, State.abortOut_still]

theorem State.drawResult_still (a0) : (State.drawResult a0).2.still = a0.still := by
  simp only [State.drawResult, still_mk, still_eta]

theorem State.setSlice_still (a0 a1 a2) : (State.setSlice a0 a1 a2).still = a0.still := by
  simp only [State.setSlice, still_mk, still_eta]

theorem State.updSlice_still (a0 a1 a2) : (State.updSlice a0 a1 a2).still = a0.still := by
  simp only [State.updSlice, State.setSlice_still]

theorem State.count_still (a0 a1 a2 a3) : (State.count a0 a1 a2 a3).still = a0.still := by
  simp only [State.count, State.updSlice_still]

theorem State.countOutcome_still (a0 a1 a2) : (State.countOutcome a0 a1 a2).still = a0.still := by
  simp only [State.countOutcome, still_ite, ite_self, State.count_still]

theorem State.updCq_still (a0 a1 a2 a3) : (State.updCq a0 a1 a2 a3).still = a0.still := by
  simp only [State.updCq, State.updSlice_still]

theorem State.updSq_still (a0 a1 a2 a3) : (State.updSq a0 a1 a2 a3).still = a0.still := by
  simp only [State.updSq, State.updSlice_still]

theorem State.freePlace_still (a0 a1) : (State.freePlace a0 a1).still = a0.still := by
  simp only [State.freePlace, still_mk, still_eta, State.updSq_still]

theorem State.abortUndispatched_still (a0 a1) : (State.abortUndispatched a0 a1).still = a0.still := by
  simp only [State.abortUndispatched, still_ite, ite_self, State.drawResult_still, State.countOutcome_still, State.updCq_still, State.updSlice_still, State.freePlace_still]

theorem State.updCmd_still (a0 a1 a2) : (State.updCmd a0 a1 a2).still = a0.still := by
  simp only [State.updCmd, State.setCmd_still]

theorem State.askTenantReset_still (a0 a1) : (State.askTenantReset a0 a1).still = a0.still := by
  simp only [State.askTenantReset, still_mk, still_eta, still_ite, ite_self, State.updSlice_still]

theorem State.escalate_still (a0 a1 a2 a3) : (State.escalate a0 a1 a2 a3).1.still = a0.still := by
  simp only [State.escalate, still_ite, State.askTenantReset_still] <;> (repeat' split) <;> (rfl)

theorem State.maskFault_still (a0 a1 a2) : (State.maskFault a0 a1 a2).1.still = a0.still := by
  simp only [State.maskFault, still_mk, still_eta, still_ite, foldl_still, foldl_still1, foldl_still2, ite_self, apply_ite Prod.fst, apply_ite Prod.snd, implies_true, State.escalate_still] <;> (repeat' split) <;> (first | rfl | simp only [still_mk, still_eta, still_ite, foldl_still, foldl_still1, foldl_still2, ite_self, apply_ite Prod.fst, apply_ite Prod.snd, implies_true, State.escalate_still])

theorem State.countFault_still (a0 a1 a2) : (State.countFault a0 a1 a2).still = a0.still := by
  simp only [State.countFault, still_mk, still_eta, still_ite, foldl_still, foldl_still1, foldl_still2, ite_self, apply_ite Prod.fst, apply_ite Prod.snd, implies_true, State.updSlice_still] <;> (repeat' split) <;> (first | rfl | simp only [still_mk, still_eta, still_ite, foldl_still, foldl_still1, foldl_still2, ite_self, apply_ite Prod.fst, apply_ite Prod.snd, implies_true, State.updSlice_still])

theorem State.endFault_still (a0 a1 a2) : (State.endFault a0 a1 a2).still = a0.still := by
  simp only [State.endFault, still_mk, still_eta, still_ite, foldl_still, foldl_still1, foldl_still2, ite_self, apply_ite Prod.fst, apply_ite Prod.snd, implies_true, State.stopCmd_still, State.updCmd_still] <;> (repeat' split) <;> (first | rfl | simp only [still_mk, still_eta, still_ite, foldl_still, foldl_still1, foldl_still2, ite_self, apply_ite Prod.fst, apply_ite Prod.snd, implies_true, State.stopCmd_still, State.updCmd_still])

theorem State.drawAck_still (a0) : (State.drawAck a0).2.still = a0.still := by
  simp only [State.drawAck, still_mk, still_eta]

theorem State.signal_still (a0) : (State.signal a0).still = a0.still := by
  simp only [State.signal, still_mk, still_eta, still_ite, ite_self, State.drawAck_still]

theorem State.fillBucket_still (a0 a1) : (State.fillBucket a0 a1).still = a0.still := by
  unfold State.fillBucket; split; rotate_left; exact Eq.refl _; dsimp only; split; rotate_left; exact Eq.refl _; exact Eq.refl _

theorem State.updReporter_still (a0 a1 a2) : (State.updReporter a0 a1 a2).still = a0.still := by
  simp only [State.updReporter, still_mk, still_eta]

theorem State.queueRecord_still (a0 a1 a2) : (State.queueRecord a0 a1 a2).still = a0.still := by
  simp only [State.queueRecord] <;> (repeat' split) <;> (rfl)

theorem State.raise_still (a0 a1 a2) : (State.raise a0 a1 a2).still = a0.still := by
  simp only [State.raise, still_ite, ite_self, State.maskFault_still, State.countFault_still, State.endFault_still, State.fillBucket_still, State.queueRecord_still]

theorem State.malformed_still (a0 a1 a2) : (State.malformed a0 a1 a2).still = a0.still := by
  simp only [State.malformed, still_mk, still_eta, State.raise_still]

theorem State.countRefused_still (a0 a1 a2) : (State.countRefused a0 a1 a2).still = a0.still := by
  simp only [State.countRefused, still_mk, still_eta, still_ite, ite_self, State.updSlice_still]

theorem State.allocBuffer_still (a0 a1 a2) : (State.allocBuffer a0 a1 a2).still = a0.still := by
  simp only [State.allocBuffer, State.setBuffer_still]

theorem State.setIn_still (a0 a1 a2 a3) : (State.setIn a0 a1 a2 a3).still = a0.still := by
  simp only [State.setIn, still_mk, still_eta]

theorem State.rxOpen_still (a0 a1 a2 a3) : (State.rxOpen a0 a1 a2 a3).still = a0.still := by
  simp only [State.rxOpen, State.sendMsg_still, State.countRefused_still, State.allocBuffer_still, State.setIn_still] <;> (repeat' split) <;> (simp only [State.sendMsg_still, State.countRefused_still, State.allocBuffer_still, State.setIn_still])

theorem State.setOut_still (a0 a1 a2 a3) : (State.setOut a0 a1 a2 a3).still = a0.still := by
  simp only [State.setOut, still_mk, still_eta]

theorem State.rxOpenAck_still (a0 a1 a2) : (State.rxOpenAck a0 a1 a2).still = a0.still := by
  simp only [State.rxOpenAck] <;> (repeat' split) <;> (rfl)

theorem State.resultOr_still (a0 a1) : (State.resultOr a0 a1).2.still = a0.still := by
  simp only [State.resultOr] <;> (repeat' split) <;> (rfl)

theorem State.updHandle_still (a0 a1 a2 a3) : (State.updHandle a0 a1 a2 a3).still = a0.still := by
  simp only [State.updHandle, State.updSlice_still]

theorem State.waitRecord_still (a0 a1 a2 a3) : (State.waitRecord a0 a1 a2 a3).still = a0.still := by
  simp only [State.waitRecord, State.updCq_still]

theorem State.retireHandle_still (a0 a1 a2) : (State.retireHandle a0 a1 a2).still = a0.still := by
  simp only [State.retireHandle, still_mk, still_eta, still_ite, ite_self, State.updHandle_still, State.waitRecord_still]

theorem State.releaseRefs_still (a0 a1) : (State.releaseRefs a0 a1).still = a0.still := by
  simp only [State.releaseRefs, foldl_still, implies_true, State.retireHandle_still, State.updHandle_still, State.updCmd_still]

theorem State.orphan_still (a0 a1) : (State.orphan a0 a1).still = a0.still := by
  simp only [State.orphan, still_mk, still_eta]

theorem State.cutBay_still (a0 a1) : (State.cutBay a0 a1).still = a0.still := by
  simp only [State.cutBay, still_mk, still_eta, State.bumpEpoch_still, State.updBay_still]

theorem State.unholdBay_still (a0 a1) : (State.unholdBay a0 a1).still = a0.still := by
  simp only [State.unholdBay, still_ite, ite_self, State.updBay_still, State.cutBay_still]

theorem State.leaveBay_still (a0 a1 a2) : (State.leaveBay a0 a1 a2).still = a0.still := by
  simp only [State.leaveBay, State.updBay_still, State.unholdBay_still]

theorem State.leaveEngines_still (a0 a1) : (State.leaveEngines a0 a1).still = a0.still := by
  simp only [State.leaveEngines, still_mk, still_eta, foldl_still, implies_true, State.orphan_still, State.leaveBay_still]

theorem State.finishUndispatched_still (a0 a1 a2 a3 a4 a5 a6) : (State.finishUndispatched a0 a1 a2 a3 a4 a5 a6).still = a0.still := by
  simp only [State.finishUndispatched, State.resultOr_still, State.countOutcome_still, State.setCmd_still, State.waitRecord_still]

theorem resolveWindow_still (a0 a1 a2) : (resolveWindow a0 a1 a2).still = a2.still := by
  induction a0 generalizing a1 a2 with
  | nil => simp only [resolveWindow]
  | cons x t ih => simp only [resolveWindow, State.setCmd_still, State.finishUndispatched_still, ih] <;> (repeat' split) <;> (simp only [State.setCmd_still, State.finishUndispatched_still, ih])

theorem State.resolveEarlier_still (a0 a1 a2 a3 a4) : (State.resolveEarlier a0 a1 a2 a3 a4).still = a0.still := by
  simp only [State.resolveEarlier, resolveWindow_still]

theorem State.completeWith_still (a0 a1 a2 a3 a4) : (State.completeWith a0 a1 a2 a3 a4).still = a0.still := by
  simp only [State.completeWith, still_mk, still_eta, still_ite, ite_self, State.resultOr_still, State.updCq_still, State.countOutcome_still, State.count_still, State.releaseRefs_still, State.leaveEngines_still, State.resolveEarlier_still]

theorem State.refuseSend_still (a0 a1 a2) : (State.refuseSend a0 a1 a2).still = a0.still := by
  simp only [State.refuseSend, State.completeWith_still]

theorem State.rxRefuse_still (a0 a1 a2 a3) : (State.rxRefuse a0 a1 a2 a3).still = a0.still := by
  unfold State.rxRefuse <;> split <;> (try simp only [still_ite, State.refuseSend_still, State.delOut_still]) <;> (repeat' split) <;> (rfl)

theorem State.event_still (a0 a1 a2 a3 a4) : (State.event a0 a1 a2 a3 a4).still = a0.still := by
  simp only [State.event, still_mk, still_eta]

theorem State.countSweld_still (a0 a1 a2 a3 a4) : (State.countSweld a0 a1 a2 a3 a4).still = a0.still := by
  simp only [State.countSweld, State.event_still, State.count_still]

theorem State.updBridge_still (a0 a1 a2) : (State.updBridge a0 a1 a2).still = a0.still := by
  simp only [State.updBridge, still_mk, still_eta]

theorem State.updFlow_still (a0 a1 a2) : (State.updFlow a0 a1 a2).still = a0.still := by
  simp only [State.updFlow, still_mk, still_eta]

theorem State.carry_still (a0 a1 a2 a3) : (State.carry a0 a1 a2 a3).still = a0.still := by
  simp only [State.carry, still_mk, still_eta, foldl_still, implies_true, State.updBridge_still, State.event_still, State.updFlow_still] <;> (repeat' split) <;> (simp only [still_mk, still_eta, foldl_still, implies_true, State.updBridge_still, State.event_still, State.updFlow_still])

theorem State.drawChoice_still (a0 a1) : (State.drawChoice a0 a1).2.still = a0.still := by
  simp only [State.drawChoice, still_mk, still_eta]

theorem State.bulk_still (a0 a1 a2 a3 a4) : (State.bulk a0 a1 a2 a3 a4).still = a0.still := by
  simp only [State.bulk, still_ite, ite_self, State.carry_still, State.drawChoice_still]

theorem State.setUnitState_still (a0 a1 a2) : (State.setUnitState a0 a1 a2).still = a0.still := by
  simp only [State.setUnitState] <;> (repeat' split) <;> (rfl)

theorem State.offline_still (a0 a1) : (State.offline a0 a1).still = a0.still := by
  simp only [State.offline, still_mk, still_eta, State.abortBay_still, State.closeShield_still, State.updBay_still, State.setUnitState_still, State.updPort_still] <;> (repeat' split) <;> (simp only [still_mk, still_eta, State.abortBay_still, State.closeShield_still, State.updBay_still, State.setUnitState_still, State.updPort_still])

theorem State.stopDie_still (a0 a1) : (State.stopDie a0 a1).still = a0.still := by
  simp only [State.stopDie, still_mk, still_eta, foldl_still, implies_true, State.offline_still]

theorem State.dieStop_still (a0 a1 a2) : (State.dieStop a0 a1 a2).still = a0.still := by
  simp only [State.dieStop, State.raise_still, State.stopDie_still]

theorem State.lostTags_still (a0 a1 a2) : (State.lostTags a0 a1 a2).still = a0.still := by
  simp only [State.lostTags, still_mk, still_eta, State.dieStop_still]

theorem State.cacheCorrected_still (a0 a1 a2) : (State.cacheCorrected a0 a1 a2).still = a0.still := by
  simp only [State.cacheCorrected, still_mk, still_eta, State.raise_still]

theorem State.setWay_still (a0 a1 a2) : (State.setWay a0 a1 a2).still = a0.still := by
  simp only [State.setWay, still_mk, still_eta]

theorem State.updWay_still (a0 a1 a2 a3 a4) : (State.updWay a0 a1 a2 a3 a4).still = a0.still := by
  simp only [State.updWay, State.setWay_still]

theorem State.checkTags_still (a0 a1 a2) : (State.checkTags a0 a1 a2).still = a0.still := by
  simp only [State.checkTags, still_ite, foldl_still, ite_self, implies_true, State.lostTags_still, State.cacheCorrected_still, State.updWay_still]

theorem State.holdAt_still (a0 a1) : (State.holdAt a0 a1).still = a0.still := by
  simp only [State.holdAt, still_mk, still_eta, still_ite, ite_self]

theorem State.dramTraffic_still (a0 a1 a2 a3 a4) : (State.dramTraffic a0 a1 a2 a3 a4).still = a0.still := by
  simp only [State.dramTraffic, State.holdAt_still, State.count_still, State.event_still] <;> (repeat' split) <;> (simp only [State.holdAt_still, State.count_still, State.event_still])

theorem State.mapRoom_still (a0 a1 a2) : (State.mapRoom a0 a1 a2).still = a0.still := by
  simp only [State.mapRoom, still_mk, still_eta, still_ite, ite_self, State.drawChoice_still]

theorem State.cacheMap_still (a0 a1 a2 a3) : (State.cacheMap a0 a1 a2 a3).still = a0.still := by
  simp only [State.cacheMap, still_mk, still_eta, State.mapRoom_still]

theorem State.queueRow_still (a0 a1 a2) : (State.queueRow a0 a1 a2).still = a0.still := by
  simp only [State.queueRow, State.updChan_still]

theorem State.autoRepair_still (a0 a1 a2) : (State.autoRepair a0 a1 a2).still = a0.still := by
  simp only [State.autoRepair, still_mk, still_eta, still_ite, ite_self, State.raise_still]

theorem State.killPin_still (a0 a1 a2) : (State.killPin a0 a1 a2).still = a0.still := by
  simp only [State.killPin, State.offline_still, State.raise_still, State.updChan_still, State.autoRepair_still] <;> (repeat' split) <;> (simp only [State.offline_still, State.raise_still, State.updChan_still, State.autoRepair_still])

theorem State.noteCorrected_still (a0 a1 a2 a3) : (State.noteCorrected a0 a1 a2 a3).still = a0.still := by
  simp only [State.noteCorrected, still_ite, foldl_still, ite_self, implies_true, State.raise_still, State.updChan_still, State.queueRow_still, State.killPin_still]

theorem State.noteBad_still (a0 a1 a2) : (State.noteBad a0 a1 a2).still = a0.still := by
  simp only [State.noteBad, State.queueRow_still, State.updChan_still]

theorem State.countSectors_still (a0 a1 a2 a3 a4) : (State.countSectors a0 a1 a2 a3 a4).still = a0.still := by
  simp only [State.countSectors, State.count_still, State.event_still]

theorem State.mapAges_still (a0 a1 a2 a3) : (State.mapAges a0 a1 a2 a3).still = a0.still := by
  simp only [State.mapAges, still_ite, foldl_still, ite_self, implies_true, State.updWay_still]

theorem State.dropWay_still (a0 a1 a2 a3) : (State.dropWay a0 a1 a2 a3).still = a0.still := by
  simp only [State.dropWay, State.mapAges_still, State.setWay_still]

theorem State.dropReplica_still (a0 a1 a2) : (State.dropReplica a0 a1 a2).still = a0.still := by
  unfold State.dropReplica <;> split <;> (try simp only [State.dropWay_still]) <;> (repeat' split) <;> (rfl)

theorem State.bitmapWrite_still (a0 a1) : (State.bitmapWrite a0 a1).still = a0.still := by
  simp only [State.bitmapWrite, still_ite, ite_self, State.injected_still, State.offline_still, State.raise_still]

theorem State.countBypass_still (a0 a1 a2) : (State.countBypass a0 a1 a2).still = a0.still := by
  simp only [State.countBypass, State.event_still, State.updSlice_still]

theorem State.tagWrite_still (a0 a1 a2 a3) : (State.tagWrite a0 a1 a2 a3).still = a0.still := by
  simp only [State.tagWrite, State.injected_still, State.updWay_still]

theorem State.installWay_still (a0 a1 a2 a3 a4) : (State.installWay a0 a1 a2 a3 a4).still = a0.still := by
  simp only [State.installWay, State.mapAges_still, State.tagWrite_still, State.setWay_still]

theorem State.putSectors_still (a0 a1 a2 a3 a4 a5) : (State.putSectors a0 a1 a2 a3 a4 a5).still = a0.still := by
  simp only [State.putSectors, foldl_still, implies_true, State.updWay_still, State.injected_still]

theorem State.touchWay_still (a0 a1 a2 a3) : (State.touchWay a0 a1 a2 a3).still = a0.still := by
  simp only [State.touchWay, State.updWay_still, State.mapAges_still]

theorem State.settleDir_still (a0 a1 a2) : (State.settleDir a0 a1 a2).still = a0.still := by
  simp only [State.settleDir, State.updWay_still, State.dropReplica_still] <;> (repeat' split) <;> (simp only [State.updWay_still, State.dropReplica_still])

theorem State.holdWrite_still (a0 a1 a2) : (State.holdWrite a0 a1 a2).still = a0.still := by
  simp only [State.holdWrite, still_mk, still_eta, State.holdAt_still] <;> (repeat' split) <;> (simp only [still_mk, still_eta, State.holdAt_still])

theorem State.unwaitReq_still (a0 a1) : (State.unwaitReq a0 a1).still = a0.still := by
  simp only [State.unwaitReq, still_mk, still_eta]

theorem State.trial_still (a0 a1) (ha1 : ∀ b0, (a1 b0).still = b0.still) : (State.trial a0 a1).still = a0.still := by
  simp only [State.trial, still_mk, still_eta, ha1]

theorem State.setReq_still (a0 a1 a2) : (State.setReq a0 a1 a2).still = a0.still := by
  simp only [State.setReq, still_mk, still_eta]

theorem State.answerReq_still (a0 a1 a2) : (State.answerReq a0 a1 a2).still = a0.still := by
  simp only [State.answerReq] <;> (repeat' split) <;> (rfl)

theorem State.cmdFault_still (a0 a1 a2 a3 a4) : (State.cmdFault a0 a1 a2 a3 a4).still = a0.still := by
  simp only [State.cmdFault, State.raise_still]

theorem State.faultReq_still (a0 a1 a2 a3 a4) : (State.faultReq a0 a1 a2 a3 a4).still = a0.still := by
  simp only [State.faultReq, State.answerReq_still, State.cmdFault_still]

theorem State.answerRead_still (a0 a1 a2 a3 a4) : (State.answerRead a0 a1 a2 a3 a4).still = a0.still := by
  simp only [State.answerRead, still_ite, ite_self, State.faultReq_still, State.answerReq_still]

theorem State.sendData_still (a0 a1 a2 a3) : (State.sendData a0 a1 a2 a3).still = a0.still := by
  simp only [State.sendData, State.bulk_still]

theorem State.enterReq_still (a0 a1) : (State.enterReq a0 a1).still = a0.still := by
  simp only [State.enterReq] <;> (repeat' split) <;> (rfl)

theorem State.inClass_still (a0 a1) : (State.inClass a0 a1).still = a0.still := by
  simp only [State.inClass, still_mk, still_eta]

theorem State.onBehalf_still (a0 a1) : (State.onBehalf a0 a1).still = a0.still := by
  simp only [State.onBehalf, State.inClass_still]

theorem State.waitReq_still (a0 a1) : (State.waitReq a0 a1).still = a0.still := by
  simp only [State.waitReq, still_mk, still_eta, still_ite, ite_self, State.enterReq_still]

theorem State.countRar_still (a0 a1) : (State.countRar a0 a1).still = a0.still := by
  simp only [State.countRar, State.updSlice_still]

theorem State.readHit_still (a0 a1 a2 a3) : (State.readHit a0 a1 a2 a3).1.still = a0.still := by
  unfold State.readHit <;> (repeat' split) <;> (simp only [still_ite, ite_self, State.touchWay_still, State.countSectors_still, State.countRar_still]; done)

theorem State.sendAcross_still (a0 a1 a2 a3) : (State.sendAcross a0 a1 a2 a3).still = a0.still := by
  simp only [State.sendAcross, State.sendData_still, State.carry_still]

theorem State.badRead_still (a0 a1 a2 a3) : (State.badRead a0 a1 a2 a3).still = a0.still := by
  simp only [State.badRead, State.faultReq_still]

theorem State.poisonWrite_still (a0 a1 a2 a3 a4 a5) : (State.poisonWrite a0 a1 a2 a3 a4 a5).still = a0.still := by
  simp only [State.poisonWrite, State.raise_still]

theorem State.setDir_still (a0 a1 a2 a3) : (State.setDir a0 a1 a2 a3).still = a0.still := by
  simp only [State.setDir, State.tagWrite_still, State.updWay_still] <;> (repeat' split) <;> (simp only [State.tagWrite_still, State.updWay_still])

theorem State.askInvalidate_still (a0 a1 a2) : (State.askInvalidate a0 a1 a2).still = a0.still := by
  simp only [State.askInvalidate, State.signalUnits_still, State.setDir_still]

theorem State.rxCapstone_still (a0 a1 a2 a3 a4) : (State.rxCapstone a0 a1 a2 a3 a4).still = a0.still := by
  simp only [State.rxCapstone, State.sendMsg_still, State.setIn_still, State.countSweld_still] <;> (repeat' split) <;> (simp only [State.sendMsg_still, State.setIn_still, State.countSweld_still])

theorem State.rxLanded_still (a0 a1 a2 a3) : (State.rxLanded a0 a1 a2 a3).still = a0.still := by
  simp only [State.rxLanded] <;> (repeat' split) <;> (rfl)

theorem State.completeCmd_still (a0 a1 a2 a3) : (State.completeCmd a0 a1 a2 a3).still = a0.still := by
  simp only [State.completeCmd, State.completeWith_still]

theorem State.rxCapDone_still (a0 a1 a2) : (State.rxCapDone a0 a1 a2).still = a0.still := by
  unfold State.rxCapDone <;> split <;> (try simp only [still_ite, State.completeCmd_still, State.sendMsg_still, State.setOut_still]) <;> (repeat' split) <;> (rfl)

theorem State.rxClose_still (a0 a1 a2) : (State.rxClose a0 a1 a2).still = a0.still := by
  simp only [State.rxClose, State.delIn_still, State.breakIn_still] <;> (repeat' split) <;> (simp only [State.delIn_still, State.breakIn_still])

theorem State.rxAbort_still (a0 a1 a2 a3) : (State.rxAbort a0 a1 a2 a3).still = a0.still := by
  unfold State.rxAbort <;> (repeat' split) <;> (simp only [State.breakIn_still, State.refuseSend_still, State.countBroken_still, State.delOut_still, State.breakOut_still]; done)

theorem State.stepTime_still (a0 a1) : (State.stepTime a0 a1).still = a0.still := by
  simp only [State.stepTime, still_mk, still_eta, foldl_still, implies_true, State.updPort_still]

theorem State.rxBeacon_still (a0 a1 a2 a3) : (State.rxBeacon a0 a1 a2 a3).still = a0.still := by
  unfold State.rxBeacon; extract_lets v delay off s1 fm; have e1 : s1.still = a0.still := State.updPort_still _ _ _; clear_value s1; split; (rw [still_mk, still_eta]; exact (State.stepTime_still _ _).trans e1); split; (rw [still_mk, still_eta]; exact e1); split; (rw [still_mk, still_eta]; exact e1); exact e1

theorem State.addGang_still (a0 a1 a2 a3 a4 a5) : (State.addGang a0 a1 a2 a3 a4 a5).still = a0.still := by
  simp only [State.addGang, still_mk, still_eta]

theorem State.vrTransaction_still (a0 a1 a2) : (State.vrTransaction a0 a1 a2).still = a0.still := by
  simp only [State.vrTransaction, still_mk, still_eta]

theorem State.writeSetPoint_still (a0 a1) : (State.writeSetPoint a0 a1).still = a0.still := by
  simp only [State.writeSetPoint, still_mk, still_eta, still_ite, ite_self]

theorem State.adjustRail_still (a0 a1 a2) : (State.adjustRail a0 a1 a2).still = a0.still := by
  simp only [State.adjustRail, still_ite, ite_self, State.vrTransaction_still, State.writeSetPoint_still]

theorem State.agFault_still (a0 a1 a2 a3) : (State.agFault a0 a1 a2 a3).still = a0.still := by
  simp only [State.agFault, State.cmdFault_still]

theorem State.agDpa_still (a0 a1 a2 a3) : (State.agDpa a0 a1 a2 a3).1.still = a0.still := by
  simp only [State.agDpa] <;> (repeat' split) <;> (simp only [State.agFault_still])

theorem State.holdRead_still (a0 a1 a2) : (State.holdRead a0 a1 a2).still = a0.still := by
  simp only [State.holdRead] <;> (repeat' split) <;> (simp only [State.holdAt_still])

theorem State.agAbort_still (a0 a1 a2 a3) : (State.agAbort a0 a1 a2 a3).still = a0.still := by
  simp only [State.agAbort, State.stopCmd_still]

theorem State.alignDies_still (a0) : (State.alignDies a0).still = a0.still := by
  simp only [State.alignDies, still_mk, still_eta, foldl_still, implies_true, State.drawChoice_still]

theorem State.answer_still (a0 a1 a2) : (State.answer a0 a1 a2).still = a0.still := by
  simp only [State.answer, still_mk, still_eta, still_ite, ite_self]

theorem State.appendJournal_still (a0 a1) : (State.appendJournal a0 a1).still = a0.still := by
  simp only [State.appendJournal, still_mk, still_eta]

theorem State.applyPinKill_still (a0 a1 a2 a3) : (State.applyPinKill a0 a1 a2 a3).still = a0.still := by
  simp only [State.applyPinKill, still_ite, ite_self, State.updChan_still]

theorem State.applyMatch_still {α : Type} (a0 : State) (m : Match α) (f : State → α → Nat → State) (b : State → State) (v : Nat) (hf : ∀ s r v, (f s r v).still = s.still) (hb : ∀ s, (b s).still = s.still) : (State.applyMatch a0 m f b v).still = a0.still := by
  unfold State.applyMatch; split; exact hf _ _ _; dsimp only; split <;> split <;> simp only [hf]; exact hb _

theorem State.applyModes_still (a0 a1 a2 a3) : (State.applyModes a0 a1 a2 a3).still = a0.still := by
  simp only [State.applyModes, still_ite, foldl_still, ite_self, implies_true, State.updBay_still]

theorem State.leaveWindow_still (a0 a1) : (State.leaveWindow a0 a1).still = a0.still := by
  simp only [State.leaveWindow, State.updSq_still, State.updCq_still]

theorem State.endAtArbiter_still (a0 a1 a2 a3 a4 a5) : (State.endAtArbiter a0 a1 a2 a3 a4 a5).still = a0.still := by
  simp only [State.endAtArbiter, State.completeWith_still, State.leaveWindow_still]

theorem State.capture_still (a0 a1) : (State.capture a0 a1).still = a0.still := by
  simp only [State.capture, foldl_still, implies_true, State.updCmd_still, State.updHandle_still]

theorem State.sendGrants_still (a0 a1) : (State.sendGrants a0 a1).still = a0.still := by
  simp only [State.sendGrants, foldl_still, implies_true, State.signalUnits_still]

theorem State.holdBay_still (a0 a1 a2) : (State.holdBay a0 a1 a2).still = a0.still := by
  simp only [State.holdBay, State.updBay_still]

theorem State.takeUnit_still (a0 a1 a2) : (State.takeUnit a0 a1 a2).still = a0.still := by
  simp only [State.takeUnit, State.holdBay_still, State.updBay_still]

theorem State.l1DropClean_still (a0 a1) : (State.l1DropClean a0 a1).still = a0.still := by
  simp only [State.l1DropClean, State.updBay_still]

theorem State.roInvalidate_still (a0 a1) : (State.roInvalidate a0 a1).still = a0.still := by
  simp only [State.roInvalidate, State.updBay_still]

theorem State.roRoom_still (a0 a1 a2 a3) : (State.roRoom a0 a1 a2 a3).2.still = a0.still := by
  simp only [State.roRoom, still_ite, ite_self, apply_ite Prod.snd, State.drawChoice_still]

theorem State.cacheBlock_still (a0 a1 a2) : (State.cacheBlock a0 a1 a2).still = a0.still := by
  simp only [State.cacheBlock, still_ite, ite_self, State.roRoom_still, State.updBay_still]

theorem State.takeGrant_still (a0 a1 a2) : (State.takeGrant a0 a1 a2).still = a0.still := by
  simp only [State.takeGrant, still_ite, foldl_still, ite_self, implies_true, State.takeUnit_still, State.l1DropClean_still, State.roInvalidate_still, State.cacheBlock_still, State.updCmd_still]

theorem State.begin_still (a0 a1 a2) : (State.begin a0 a1 a2).still = a0.still := by
  simp only [State.begin, still_mk, still_eta, still_ite, ite_self, State.leaveWindow_still, State.setCmd_still, State.count_still, State.event_still, State.capture_still, State.sendGrants_still, State.takeGrant_still]

theorem State.settled_still (a0 a1) (ha1 : ∀ b0, (a1 b0).still = b0.still) : (State.settled a0 a1).still = a0.still := by
  simp only [State.settled, still_mk, still_eta, still_ite, foldl_still, ite_self, implies_true, State.trial_still, State.askInvalidate_still, ha1]

theorem State.setGang_still (a0 a1 a2) : (State.setGang a0 a1 a2).still = a0.still := by
  simp only [State.setGang, still_mk, still_eta]

theorem State.reissue_still (a0 a1) : (State.reissue a0 a1).still = a0.still := by
  simp only [State.reissue, still_mk, still_eta]

theorem State.footWrite_still (a0 a1 a2 a3 a4) : (State.footWrite a0 a1 a2 a3 a4).still = a0.still := by
  simp only [State.footWrite, State.updBay_still]

theorem State.resumeGang_still (a0 a1 a2 a3 a4) : (State.resumeGang a0 a1 a2 a3 a4).still = a0.still := by
  simp only [State.resumeGang, State.setGang_still, State.reissue_still, State.footWrite_still]

theorem State.updGang_still (a0 a1 a2) : (State.updGang a0 a1 a2).still = a0.still := by
  simp only [State.updGang, State.setGang_still]

theorem promote_still (a0 a1 a2 a3) : (promote a0 a1 a2 a3).still = a3.still := by
  induction a0 generalizing a3 with
  | zero => simp only [promote]
  | succ k ih => simp only [promote, State.updGang_still, ih] <;> (repeat' split) <;> (simp only [State.updGang_still, ih])

theorem State.fillActive_still (a0 a1 a2) : (State.fillActive a0 a1 a2).still = a0.still := by
  simp only [State.fillActive, promote_still]

theorem State.handleEffect_still (a0 a1) : (State.handleEffect a0 a1).still = a0.still := by
  simp only [State.handleEffect, still_ite, ite_self, State.updHandle_still, State.completeCmd_still, State.updCmd_still, State.retireHandle_still]

theorem State.handleEffects_still (a0 a1) : (State.handleEffects a0 a1).still = a0.still := by
  simp only [State.handleEffects, foldl_still, implies_true, State.handleEffect_still]

theorem State.managerEffect_still (a0) : (State.managerEffect a0).still = a0.still := by
  simp only [State.managerEffect, still_mk, still_eta, State.updHandle_still, State.retireHandle_still] <;> (repeat' split) <;> (simp only [still_mk, still_eta, State.updHandle_still, State.retireHandle_still])

theorem State.managerOnEdge_still (a0 a1) : (State.managerOnEdge a0 a1).still = a0.still := by
  simp only [State.managerOnEdge] <;> (repeat' split) <;> (simp only [State.managerEffect_still])

theorem State.arrayInfo_still (a0) : (State.arrayInfo a0).2.still = a0.still := by
  simp only [State.arrayInfo, State.drawResult_still]

theorem State.arrayCorrected_still (a0 a1) : (State.arrayCorrected a0 a1).still = a0.still := by
  simp only [State.arrayCorrected, State.arrayInfo_still, State.raise_still]

theorem State.arrayLost_still (a0 a1 a2) : (State.arrayLost a0 a1 a2).still = a0.still := by
  simp only [State.arrayLost, State.arrayInfo_still, State.cmdFault_still]

theorem State.atPort_still (a0 a1 a2) (ha2 : ∀ b0, (a2 b0).still = b0.still) : (State.atPort a0 a1 a2).still = a0.still := by
  simp only [State.atPort, still_ite, ite_self, ha2]

theorem State.demote_still (a0 a1 a2 a3) : (State.demote a0 a1 a2 a3).still = a0.still := by
  simp only [State.demote, still_ite, ite_self, State.fillActive_still, State.updGang_still]

theorem State.awaiting_still (a0 a1 a2 a3) (ha3 : ∀ b0, (a3 b0).still = b0.still) : (State.awaiting a0 a1 a2 a3).still = a0.still := by
  simp only [State.awaiting, still_ite, ite_self, State.demote_still, ha3]

theorem State.countAccess_still (a0 a1 a2 a3) : (State.countAccess a0 a1 a2 a3).still = a0.still := by
  simp only [State.countAccess, still_mk, still_eta, still_ite, ite_self]

theorem State.pageWrite_still (a0 a1 a2 a3) (ha3 : ∀ b0, (a3 b0).still = b0.still) : (State.pageWrite a0 a1 a2 a3).still = a0.still := by
  simp only [State.pageWrite, still_ite, ite_self, State.updSlice_still, ha3]

theorem State.badWrite_still (a0 a1 a2) : (State.badWrite a0 a1 a2).still = a0.still := by
  simp only [State.badWrite, still_ite, ite_self, implies_true, State.countAccess_still, State.pageWrite_still]

theorem State.bayCheck_still (a0 a1 a2) : (State.bayCheck a0 a1 a2).still = a0.still := by
  simp only [State.bayCheck, still_ite, foldl_still, ite_self, implies_true, State.updBay_still, State.arrayCorrected_still, State.arrayLost_still]

theorem State.bayWrite_still (a0 a1 a2) : (State.bayWrite a0 a1 a2).still = a0.still := by
  simp only [State.bayWrite, still_ite, ite_self, State.injected_still, State.updBay_still]

theorem State.enterState_still (a0 a1) : (State.enterState a0 a1).still = a0.still := by
  simp only [State.enterState, still_mk, still_eta, still_ite, ite_self, State.signal_still]

theorem State.beginStep_still (a0 a1) : (State.beginStep a0 a1).still = a0.still := by
  simp only [State.beginStep, still_mk, still_eta, State.enterState_still]

theorem State.noteStart_still (a0 a1 a2 a3) : (State.noteStart a0 a1 a2 a3).still = a0.still := by
  simp only [State.noteStart, still_mk, still_eta]

theorem State.settleLine_still (a0 a1) : (State.settleLine a0 a1).still = a0.still := by
  simp only [State.settleLine, State.settleDir_still]

theorem State.holdLine_still (a0 a1) : (State.holdLine a0 a1).still = a0.still := by
  simp only [State.holdLine, State.holdWrite_still]

theorem State.dropReq_still (a0 a1) : (State.dropReq a0 a1).still = a0.still := by
  simp only [State.dropReq, still_mk, still_eta]

theorem State.settleReq_still (a0 a1 a2) : (State.settleReq a0 a1 a2).still = a0.still := by
  simp only [State.settleReq, still_mk, still_eta, State.dropReq_still, State.updGang_still, State.updCmd_still, State.fillActive_still] <;> (repeat' split) <;> (simp only [still_mk, still_eta, State.dropReq_still, State.updGang_still, State.updCmd_still, State.fillActive_still])

theorem State.takeShield_still (a0 a1) : (State.takeShield a0 a1).still = a0.still := by
  simp only [State.takeShield, State.setReq_still, State.dropReq_still, State.settleReq_still, State.stopCmd_still] <;> (repeat' split) <;> (simp only [State.setReq_still, State.dropReq_still, State.settleReq_still, State.stopCmd_still])

theorem State.doWriteAck_still (a0 a1) : (State.doWriteAck a0 a1).still = a0.still := by
  simp only [State.doWriteAck, State.dropReq_still, State.settleReq_still] <;> (repeat' split) <;> (simp only [State.dropReq_still, State.settleReq_still])

theorem State.setL1_still (a0 a1 a2 a3) : (State.setL1 a0 a1 a2 a3).still = a0.still := by
  simp only [State.setL1, State.updBay_still]

theorem State.dropL1_still (a0 a1 a2) : (State.dropL1 a0 a1 a2).still = a0.still := by
  simp only [State.dropL1, State.updBay_still]

theorem State.setReg_still (a0 a1 a2 a3 a4) : (State.setReg a0 a1 a2 a3 a4).still = a0.still := by
  simp only [State.setReg, still_ite, ite_self, State.updGang_still]

theorem State.freeReg_still (a0 a1 a2) : (State.freeReg a0 a1 a2).still = a0.still := by
  simp only [State.freeReg, still_mk, still_eta, still_ite, ite_self, State.setReg_still]

theorem State.setRegByte_still (a0 a1 a2 a3 a4) : (State.setRegByte a0 a1 a2 a3 a4).still = a0.still := by
  simp only [State.setRegByte, State.setReg_still]

theorem State.deliver_still (a0 a1 a2 a3 a4) : (State.deliver a0 a1 a2 a3 a4).still = a0.still := by
  simp only [State.deliver, still_ite, foldl_still, ite_self, implies_true, State.freeReg_still, State.setRegByte_still]

theorem State.l1Learn_still (a0 a1 a2 a3 a4) : (State.l1Learn a0 a1 a2 a3 a4).still = a0.still := by
  simp only [State.l1Learn] <;> (repeat' split) <;> (rfl)

theorem State.deliverAtomic_still (a0 a1 a2 a3 a4 a5 a6 a7) : (State.deliverAtomic a0 a1 a2 a3 a4 a5 a6 a7).still = a0.still := by
  simp only [State.deliverAtomic, still_ite, foldl_still, ite_self, implies_true, State.l1Learn_still, State.setRegByte_still, State.settleReq_still]

theorem State.landEnded_still (a0 a1 a2) : (State.landEnded a0 a1 a2).still = a0.still := by
  simp only [State.landEnded, State.setCmd_still]

theorem State.clearStreams_still (a0 a1) : (State.clearStreams a0 a1).still = a0.still := by
  simp only [State.clearStreams, still_mk, still_eta]

theorem State.zeroBaysOf_still (a0 a1) : (State.zeroBaysOf a0 a1).still = a0.still := by
  simp only [State.zeroBaysOf, still_ite, foldl_still, ite_self, implies_true, State.updBay_still]

theorem State.breakInbound_still (a0 a1) : (State.breakInbound a0 a1).still = a0.still := by
  simp only [State.breakInbound, foldl_still, implies_true, State.abortIn_still]

theorem State.breakPort_still (a0 a1) : (State.breakPort a0 a1).still = a0.still := by
  simp only [State.breakPort, foldl_still, implies_true, State.breakOut_still, State.breakIn_still]

theorem State.bumpAll_still (a0) : (State.bumpAll a0).still = a0.still := by
  simp only [State.bumpAll, foldl_still, implies_true, State.bumpEpoch_still]

theorem State.packageStop_still (a0 a1 a2) : (State.packageStop a0 a1 a2).still = a0.still := by
  unfold State.packageStop; extract_lets s1; have e1 : s1.still = a0.still := State.raise_still _ _ _; clear_value s1; split; rotate_left; exact e1; rw [still_mk, still_eta]; refine (State.bumpAll_still _).trans ?_; exact (foldl_still _ (fun s b => State.stopCmd_still _ _ _) _ _).trans ((State.enterState_still _ _).trans e1)

theorem State.failLink_still (a0 a1 a2) : (State.failLink a0 a1 a2).still = a0.still := by
  simp only [State.failLink, still_ite, ite_self, State.updBridge_still, State.raise_still, State.packageStop_still]

theorem State.doFlitReplay_still (a0 a1 a2) : (State.doFlitReplay a0 a1 a2).still = a0.still := by
  simp only [State.doFlitReplay, still_ite, ite_self, State.injected_still, State.updBridge_still, State.failLink_still]

theorem State.bridgeSlot_still (a0 a1 a2) : (State.bridgeSlot a0 a1 a2).1.still = a0.still := by
  simp only [State.bridgeSlot, State.injected_still, State.updFlow_still, State.drawChoice_still, State.doFlitReplay_still] <;> (repeat' split) <;> (simp only [State.injected_still, State.updFlow_still, State.drawChoice_still, State.doFlitReplay_still])

theorem State.sendFlag_still (a0 a1 a2) : (State.sendFlag a0 a1 a2).still = a0.still := by
  simp only [State.sendFlag] <;> (repeat' split) <;> (rfl)

theorem State.flagFault_still (a0 a1 a2 a3 a4) : (State.flagFault a0 a1 a2 a3 a4).still = a0.still := by
  simp only [State.flagFault, State.raise_still]

theorem State.expectDone_still (a0 a1) : (State.expectDone a0 a1).still = a0.still := by
  simp only [State.expectDone, still_ite, ite_self, State.completeCmd_still, State.updCmd_still]

theorem State.capstoneSaid_still (a0 a1 a2 a3) : (State.capstoneSaid a0 a1 a2 a3).still = a0.still := by
  simp only [State.capstoneSaid, State.sendMsg_still] <;> (repeat' split) <;> (rfl)

theorem addGangs_still (a0 a1 a2 a3 a4) : (addGangs a0 a1 a2 a3 a4).still = a4.still := by
  induction a3 generalizing a4 with
  | zero => simp only [addGangs]
  | succ k ih => simp only [addGangs, State.updCmd_still, State.addGang_still, ih]

theorem State.doLaunch_still (a0 a1) : (State.doLaunch a0 a1).still = a0.still := by
  simp only [State.doLaunch, still_ite, foldl_still, ite_self, implies_true, State.fillActive_still, addGangs_still]

theorem State.settlePhase_still (a0 a1) : (State.settlePhase a0 a1).still = a0.still := by
  simp only [State.settlePhase, State.updCmd_still]

theorem State.noteImage_still (a0 a1 a2 a3) : (State.noteImage a0 a1 a2 a3).still = a0.still := by
  simp only [State.noteImage, still_mk, still_eta, still_ite, ite_self, State.event_still]

theorem State.claimItem_still (a0 a1 a2) : (State.claimItem a0 a1 a2).still = a0.still := by
  simp only [State.claimItem, still_ite, ite_self, State.updCmd_still]

theorem State.updRow_still (a0 a1 a2 a3) : (State.updRow a0 a1 a2 a3).still = a0.still := by
  simp only [State.updRow, State.updCmd_still]

theorem State.setBusy_still (a0 a1 a2 a3) : (State.setBusy a0 a1 a2 a3).still = a0.still := by
  simp only [State.setBusy, State.updCmd_still]

theorem State.claimSelect_still (a0 a1 a2) : (State.claimSelect a0 a1 a2).still = a0.still := by
  simp only [State.claimSelect, State.updCmd_still, State.updRow_still, State.setBusy_still] <;> (repeat' split) <;> (simp only [State.updCmd_still, State.updRow_still, State.setBusy_still]; done)

theorem State.clearArrays_still (a0 a1) : (State.clearArrays a0 a1).still = a0.still := by
  simp only [State.clearArrays, still_mk, still_eta]

theorem State.clearFilters_still (a0 a1) : (State.clearFilters a0 a1).still = a0.still := by
  simp only [State.clearFilters, still_mk, still_eta]

theorem State.mapGroups_still (a0 a1 a2) : (State.mapGroups a0 a1 a2).still = a0.still := by
  simp only [State.mapGroups, still_mk, still_eta]

theorem State.clearGroups_still (a0 a1) : (State.clearGroups a0 a1).still = a0.still := by
  simp only [State.clearGroups, State.mapGroups_still]

theorem State.returnBuffers_still (a0 a1 a2) : (State.returnBuffers a0 a1 a2).still = a0.still := by
  simp only [State.returnBuffers, still_ite, foldl_still, ite_self, implies_true, State.freeBuffer_still]

theorem State.clearOwner_still (a0 a1) : (State.clearOwner a0 a1).still = a0.still := by
  simp only [State.clearOwner, still_mk, still_eta, still_ite, foldl_still, ite_self, implies_true, State.returnBuffers_still, State.updSlice_still, State.updBay_still]

theorem State.refuseUnit_still (a0) : (State.refuseUnit a0).still = a0.still := by
  simp only [State.refuseUnit, still_mk, still_eta]

theorem State.mergeReset_still (a0) : (State.mergeReset a0).still = a0.still := by
  simp only [State.mergeReset, still_mk, still_eta]

theorem State.disarmIn_still (a0 a1) : (State.disarmIn a0 a1).still = a0.still := by
  simp only [State.disarmIn, still_mk, still_eta, still_ite, ite_self]

theorem State.startBay_still (a0 a1 a2 a3) : (State.startBay a0 a1 a2 a3).still = a0.still := by
  simp only [State.startBay, State.clearStreams_still, State.abortBay_still, State.closeShield_still, State.updBay_still, State.disarmIn_still]

theorem State.doBayReset_still (a0 a1 a2) : (State.doBayReset a0 a1 a2).still = a0.still := by
  simp only [State.doBayReset, still_ite, ite_self, State.mergeReset_still, State.startBay_still, State.noteStart_still]

theorem State.startPort_still (a0 a1 a2) : (State.startPort a0 a1 a2).still = a0.still := by
  simp only [State.startPort, State.noteStart_still, State.breakPort_still, State.closeShield_still, State.updPort_still, State.remaster_still, State.disarmIn_still]

theorem State.doPortReset_still (a0 a1 a2) : (State.doPortReset a0 a1 a2).still = a0.still := by
  simp only [State.doPortReset, still_ite, ite_self, State.mergeReset_still, State.startPort_still]

theorem State.powerUp_still (a0 a1) : (State.powerUp a0 a1).still = a0.still := by
  simp only [State.powerUp, State.doBayReset_still, State.updBay_still, State.doPortReset_still, State.updPort_still] <;> (repeat' split) <;> (simp only [State.doBayReset_still, State.updBay_still, State.doPortReset_still, State.updPort_still])

theorem State.drainPort_still (a0 a1) : (State.drainPort a0 a1).still = a0.still := by
  simp only [State.drainPort, still_ite, ite_self, State.updPort_still, State.cutPort_still, State.settlePort_still]

theorem State.fillConst_still (a0 a1 a2 a3) : (State.fillConst a0 a1 a2 a3).still = a0.still := by
  simp only [State.fillConst, State.roRoom_still, State.updBay_still]

theorem State.takeBus_still (a0 a1 a2) : (State.takeBus a0 a1 a2).1.still = a0.still := by
  simp only [State.takeBus, still_mk, still_eta, still_ite, ite_self, apply_ite Prod.fst]

theorem State.countFallbacks_still (a0 a1 a2) : (State.countFallbacks a0 a1 a2).still = a0.still := by
  simp only [State.countFallbacks, still_mk, still_eta]

theorem State.copyEnd_still (a0 a1) : (State.copyEnd a0 a1).still = a0.still := by
  simp only [State.copyEnd, still_mk, still_eta]

theorem State.dropLine_still (a0 a1 a2) : (State.dropLine a0 a1 a2).still = a0.still := by
  unfold State.dropLine <;> (try dsimp only) <;> (repeat' split) <;> (simp only [State.dropReplica_still, State.dropWay_still]; done)

theorem State.countElems_still (a0 a1 a2 a3) : (State.countElems a0 a1 a2 a3).still = a0.still := by
  simp only [State.countElems, State.updBay_still, State.event_still, State.count_still]

theorem State.countInstr_still (a0 a1 a2) : (State.countInstr a0 a1 a2).still = a0.still := by
  simp only [State.countInstr, still_mk, still_eta, State.event_still]

theorem State.countRows_still (a0 a1 a2 a3 a4) : (State.countRows a0 a1 a2 a3 a4).still = a0.still := by
  simp only [State.countRows, State.updBay_still, State.event_still, State.count_still]

theorem State.countTile_still (a0 a1 a2 a3 a4 a5) : (State.countTile a0 a1 a2 a3 a4 a5).still = a0.still := by
  simp only [State.countTile, State.event_still, State.count_still, State.updBay_still]

end Sys2Proof.Machine
end

