-- ==== Sys2Proof/Laws/StillB.lean ====
section
/-! SUPPORT. Operations that leave DRAM and the memory of the host as they are, part 2 of 2. -/

namespace Sys2Proof.Machine

set_option linter.unusedSimpArgs false
set_option linter.unusedVariables false

theorem State.discardRec_still (a0 a1 a2 a3) : (State.discardRec a0 a1 a2 a3).still = a0.still := by
  unfold State.discardRec <;> (repeat' split) <;> (simp only [State.updCq_still, State.updSlice_still, State.freeBuffer_still, State.freePlace_still]; done)

theorem State.discardWaiting_still (a0 a1 a2) : (State.discardWaiting a0 a1 a2).still = a0.still := by
  simp only [State.discardWaiting, foldl_still, implies_true, State.updCq_still, State.discardRec_still]

theorem State.cqCfg_still (a0 a1 a2 a3) : (State.cqCfg a0 a1 a2 a3).still = a0.still := by
  simp only [State.cqCfg, still_ite, ite_self, State.updCq_still, State.discardWaiting_still]

theorem State.spoilSlot_still (a0 a1) : (State.spoilSlot a0 a1).still = a0.still := by
  simp only [State.spoilSlot, still_mk, still_eta]

theorem State.spoilRecord_still (a0) : (State.spoilRecord a0).still = a0.still := by
  simp only [State.spoilRecord, still_mk, still_eta]

theorem State.cutFlash_still (a0) : (State.cutFlash a0).still = a0.still := by
  simp only [State.cutFlash] <;> (repeat' split) <;> (rfl)

theorem State.descBad_still (a0 a1 a2) : (State.descBad a0 a1 a2).still = a0.still := by
  simp only [State.descBad, State.raise_still, State.updSlice_still] <;> (repeat' split) <;> (rfl)

theorem State.disableSq_still (a0 a1 a2) : (State.disableSq a0 a1 a2).still = a0.still := by
  simp only [State.disableSq, still_ite, foldl_still, ite_self, implies_true, State.updSq_still, State.finishUndispatched_still]

theorem State.peerResult_still (a0 a1) : (State.peerResult a0 a1).still = a0.still := by
  simp only [State.peerResult, still_mk, still_eta]

theorem State.doAccept_still (a0 a1 a2 a3 a4 a5 a6 a7) : (State.doAccept a0 a1 a2 a3 a4 a5 a6 a7).still = a0.still := by
  simp only [State.doAccept, still_ite, ite_self, State.peerResult_still, State.updSlice_still]

theorem State.doAck_still (a0 a1) : (State.doAck a0 a1).still = a0.still := by
  simp only [State.doAck, still_mk, still_eta, still_ite, ite_self]

theorem State.updAging_still (a0 a1 a2) : (State.updAging a0 a1 a2).still = a0.still := by
  simp only [State.updAging, still_mk, still_eta]

theorem State.judgeAging_still (a0 a1) : (State.judgeAging a0 a1).still = a0.still := by
  simp only [State.judgeAging, still_ite, ite_self, State.updAging_still, State.appendJournal_still]

theorem State.doAging_still (a0 a1 a2) : (State.doAging a0 a1 a2).still = a0.still := by
  simp only [State.doAging, still_mk, still_eta, still_ite, foldl_still, ite_self, implies_true, State.judgeAging_still, State.updAging_still, State.adjustRail_still]

theorem State.refuseInject_still (a0) : (State.refuseInject a0).still = a0.still := by
  simp only [State.refuseInject, still_mk, still_eta]

theorem State.doArm_still (a0 a1 a2 a3 a4 a5) : (State.doArm a0 a1 a2 a3 a4 a5).still = a0.still := by
  simp only [State.doArm, still_mk, still_eta, still_ite, ite_self, State.refuseInject_still]

theorem State.gangFault_still (a0 a1 a2 a3) : (State.gangFault a0 a1 a2 a3).still = a0.still := by
  simp only [State.gangFault, State.cmdFault_still]

theorem State.gangDpa_still (a0 a1 a2 a3) : (State.gangDpa a0 a1 a2 a3).1.still = a0.still := by
  simp only [State.gangDpa] <;> (repeat' split) <;> (simp only [State.gangFault_still])

theorem State.l1Forget_still (a0 a1 a2 a3) : (State.l1Forget a0 a1 a2 a3).still = a0.still := by
  simp only [State.l1Forget] <;> (repeat' split) <;> (rfl)

theorem State.newReq_still (a0 a1 a2 a3 a4 a5 a6 a7) : (State.newReq a0 a1 a2 a3 a4 a5 a6 a7).still = a0.still := by
  simp only [State.newReq] <;> (repeat' split) <;> (rfl)

theorem State.doBeaconSend_still (a0) : (State.doBeaconSend a0).still = a0.still := by
  simp only [State.doBeaconSend, still_ite, foldl_still, ite_self, implies_true, State.updPort_still, State.sendMsg_still]

theorem State.migEnd_still (a0 a1 a2 a3) : (State.migEnd a0 a1 a2 a3).still = a0.still := by
  simp only [State.migEnd, still_mk, still_eta]

theorem State.doBlowDone_still (a0 a1) : (State.doBlowDone a0 a1).still = a0.still := by
  simp only [State.doBlowDone] <;> (repeat' split) <;> (rfl)

theorem State.sendOpenMsg_still (a0 a1 a2 a3 a4) : (State.sendOpenMsg a0 a1 a2 a3 a4).still = a0.still := by
  simp only [State.sendOpenMsg, State.sendMsg_still]

theorem State.doBusyRetry_still (a0 a1) : (State.doBusyRetry a0 a1).still = a0.still := by
  unfold State.doBusyRetry <;> (repeat' split) <;> (simp only [State.refuseSend_still, State.delOut_still, State.sendOpenMsg_still, State.setOut_still]; done)

theorem State.startChan_still (a0 a1 a2 a3) : (State.startChan a0 a1 a2 a3).still = a0.still := by
  simp only [State.startChan, State.closeShield_still, State.abortCapstones_still, State.updChan_still, State.setUnitState_still, State.disarmIn_still]

theorem State.doChannelReset_still (a0 a1 a2) : (State.doChannelReset a0 a1 a2).still = a0.still := by
  simp only [State.doChannelReset, still_ite, ite_self, State.mergeReset_still, State.startChan_still, State.noteStart_still, State.updChan_still]

theorem State.doClaim_still (a0 a1 a2) : (State.doClaim a0 a1 a2).still = a0.still := by
  simp only [State.doClaim, still_ite, ite_self, State.claimItem_still, State.claimSelect_still]

theorem State.doClear_still (a0 a1) : (State.doClear a0 a1).still = a0.still := by
  simp only [State.doClear, still_ite, ite_self, State.clearGroups_still]

theorem State.doClearAccess_still (a0) : (State.doClearAccess a0).still = a0.still := by
  simp only [State.doClearAccess, still_mk, still_eta, still_ite, ite_self]

theorem State.doClearStats_still (a0) : (State.doClearStats a0).still = a0.still := by
  simp only [State.doClearStats, still_mk, still_eta, still_ite, ite_self]

theorem State.sendDone_still (a0 a1) : (State.sendDone a0 a1).still = a0.still := by
  simp only [State.sendDone, foldl_still, implies_true, State.signalUnits_still]

theorem State.freeLanes_still (a0 a1 a2) : (State.freeLanes a0 a1 a2).still = a0.still := by
  simp only [State.freeLanes, still_mk, still_eta, foldl_still, implies_true, State.setReg_still]

theorem State.setLanes_still (a0 a1 a2 a3) : (State.setLanes a0 a1 a2 a3).still = a0.still := by
  simp only [State.setLanes, foldl_still, implies_true, State.setReg_still]

theorem State.workDone_still (a0 a1) : (State.workDone a0 a1).still = a0.still := by
  simp only [State.workDone, State.updCmd_still]

theorem writeItems_still (a0 a1 a2) : (writeItems a0 a1 a2).1.still = a2.still := by
  induction a1 generalizing a2 with
  | nil => simp only [writeItems]
  | cons x t ih => simp only [writeItems, State.injected_still, ih]

theorem State.rewriteCopy_still (a0 a1 a2 a3) : (State.rewriteCopy a0 a1 a2 a3).still = a0.still := by
  simp only [State.rewriteCopy, writeItems_still, State.updSlice_still, State.raise_still]

theorem State.doDescScrub_still (a0 a1) : (State.doDescScrub a0 a1).still = a0.still := by
  simp only [State.doDescScrub, State.rewriteCopy_still, State.descBad_still] <;> (repeat' split) <;> (simp only [State.rewriteCopy_still, State.descBad_still]; done)

theorem State.doDisarm_still (a0 a1) : (State.doDisarm a0 a1).still = a0.still := by
  simp only [State.doDisarm, still_mk, still_eta, still_ite, ite_self, State.refuseInject_still]

theorem State.doDiscard_still (a0 a1) : (State.doDiscard a0 a1).still = a0.still := by
  simp only [State.doDiscard, still_mk, still_eta, State.dropCap_still] <;> (repeat' split) <;> (simp only [still_mk, still_eta, State.dropCap_still])

theorem State.wrongState_still (a0) : (State.wrongState a0).still = a0.still := by
  simp only [State.wrongState, still_mk, still_eta]

theorem State.doDrain_still (a0 a1) : (State.doDrain a0 a1).still = a0.still := by
  simp only [State.doDrain, still_ite, ite_self, State.updSlice_still, State.wrongState_still]

theorem State.doEntdaa_still (a0 a1) : (State.doEntdaa a0 a1).still = a0.still := by
  simp only [State.doEntdaa, still_mk, still_eta, still_ite, ite_self]

theorem State.setPlinthLimit_still (a0 a1) : (State.setPlinthLimit a0 a1).still = a0.still := by
  simp only [State.setPlinthLimit, still_mk, still_eta, still_ite, ite_self, State.answer_still, State.drawChoice_still]

theorem State.refuseReset_still (a0) : (State.refuseReset a0).still = a0.still := by
  simp only [State.refuseReset, still_mk, still_eta]

theorem State.setManagerLimit_still (a0 a1) : (State.setManagerLimit a0 a1).still = a0.still := by
  simp only [State.setManagerLimit, still_mk, still_eta, still_ite, ite_self]

theorem State.setThrottle_still (a0 a1) : (State.setThrottle a0 a1).still = a0.still := by
  simp only [State.setThrottle, still_mk, still_eta, still_ite, ite_self]

theorem State.readStatusWord_still (a0 a1 a2 a3) : (State.readStatusWord a0 a1 a2 a3).still = a0.still := by
  simp only [State.readStatusWord, still_mk, still_eta, still_ite, ite_self, State.vrTransaction_still]

theorem State.drawBytes_still (a0 a1) : (State.drawBytes a0 a1).2.still = a0.still := by
  simp only [State.drawBytes, still_mk, still_eta]

theorem State.storeFlash_still (a0 a1 a2 a3) : (State.storeFlash a0 a1 a2 a3).1.still = a0.still := by
  simp only [State.storeFlash, still_mk, still_eta, still_ite, ite_self, apply_ite Prod.fst, apply_ite Prod.snd, State.appendJournal_still, State.drawBytes_still]

theorem State.stageFirmware_still (a0 a1 a2 a3) : (State.stageFirmware a0 a1 a2 a3).1.still = a0.still := by
  unfold State.stageFirmware <;> (repeat' split) <;> (first | rfl | (rename_i h1; cases congrArg Prod.fst h1; (simp only [State.storeFlash_still]; done)))

theorem State.stageImage_still (a0 a1 a2 a3) : (State.stageImage a0 a1 a2 a3).1.still = a0.still := by
  unfold State.stageImage <;> (repeat' split) <;> (first | rfl | (rename_i h1; cases congrArg Prod.fst h1; (simp only [State.storeFlash_still]; done)))

theorem State.doStage_still (a0 a1 a2 a3) : (State.doStage a0 a1 a2 a3).still = a0.still := by
  simp only [State.doStage, still_ite, ite_self, apply_ite Prod.fst, State.stageFirmware_still, State.stageImage_still, State.answer_still]

theorem State.doFaultSummary_still (a0) : (State.doFaultSummary a0).still = a0.still := by
  simp only [State.doFaultSummary, still_mk, still_eta, still_ite, ite_self, State.answer_still, State.drawChoice_still]

theorem State.fetchFailed_still (a0 a1 a2 a3) : (State.fetchFailed a0 a1 a2 a3).still = a0.still := by
  simp only [State.fetchFailed, State.updSq_still, State.raise_still]

theorem State.fetchEnd_still (a0 a1 a2 a3 a4 a5 a6) : (State.fetchEnd a0 a1 a2 a3 a4 a5 a6).still = a0.still := by
  simp only [State.fetchEnd, State.finishUndispatched_still]

theorem State.fillEnd_still (a0 a1) : (State.fillEnd a0 a1).still = a0.still := by
  simp only [State.fillEnd, still_mk, still_eta]

theorem State.doFill_still (a0 a1 a2) : (State.doFill a0 a1 a2).still = a0.still := by
  simp only [State.doFill] <;> (repeat' split) <;> (rfl)

theorem State.sendIdle_still (a0 a1 a2) : (State.sendIdle a0 a1 a2).still = a0.still := by
  simp only [State.sendIdle, State.putFlit_still]

theorem State.nakOnce_still (a0 a1) : (State.nakOnce a0 a1).still = a0.still := by
  simp only [State.nakOnce, still_ite, ite_self, State.updPort_still, State.sendIdle_still]

theorem State.takeAck_still (a0 a1 a2) : (State.takeAck a0 a1 a2).still = a0.still := by
  simp only [State.takeAck, still_ite, foldl_still, ite_self, implies_true, State.updPort_still, State.delOut_still]

theorem State.recover_still (a0 a1) : (State.recover a0 a1).still = a0.still := by
  simp only [State.recover, State.updPort_still, State.remaster_still]

theorem State.resend_still (a0 a1) : (State.resend a0 a1).still = a0.still := by
  simp only [State.resend, still_ite, foldl_still, ite_self, implies_true, State.updPort_still, State.recover_still, State.putFlit_still]

theorem State.takeHeader_still (a0 a1 a2) : (State.takeHeader a0 a1 a2).still = a0.still := by
  simp only [State.takeHeader, still_ite, ite_self, State.updPort_still, State.takeAck_still, State.resend_still]

theorem State.l1Inv_still (a0 a1 a2 a3) : (State.l1Inv a0 a1 a2 a3).still = a0.still := by
  simp only [State.l1Inv, State.updBay_still]

theorem State.doForcePath_still (a0 a1 a2) : (State.doForcePath a0 a1 a2).still = a0.still := by
  simp only [State.doForcePath, still_ite, ite_self, State.refuseInject_still, State.updReporter_still]

theorem State.migCtl_still (a0 a1) (ha1 : ∀ b0, (a1 b0).still = b0.still) : (State.migCtl a0 a1).still = a0.still := by
  simp only [State.migCtl, still_mk, still_eta, still_ite, ite_self, ha1]

theorem State.migBegin_still (a0 a1 a2 a3) : (State.migBegin a0 a1 a2 a3).still = a0.still := by
  simp only [State.migBegin, still_mk, still_eta]

theorem State.doFreeze_still (a0 a1) : (State.doFreeze a0 a1).still = a0.still := by
  simp only [State.doFreeze, still_ite, ite_self, implies_true, State.migCtl_still, State.migEnd_still, State.migBegin_still, State.updSlice_still]

theorem State.fwDone_still (a0 a1) : (State.fwDone a0 a1).still = a0.still := by
  simp only [State.fwDone, still_mk, still_eta]

theorem State.runFirmware_still (a0 a1 a2 a3) : (State.runFirmware a0 a1 a2 a3).still = a0.still := by
  simp only [State.runFirmware, still_mk, still_eta]

theorem State.startupStatus_still (a0) : (State.startupStatus a0).still = a0.still := by
  simp only [State.startupStatus, still_mk, still_eta]

theorem State.loadImage_still (a0 a1 a2) : (State.loadImage a0 a1 a2).still = a0.still := by
  simp only [State.loadImage, still_mk, still_eta]

theorem State.pickImage_still (a0) : (State.pickImage a0).still = a0.still := by
  unfold State.pickImage <;> (repeat' split) <;> (simp only [State.beginStep_still, State.startupStatus_still, State.loadImage_still, State.enterState_still])

theorem State.fwEffect_still (a0 a1 a2 a3) : (State.fwEffect a0 a1 a2 a3).still = a0.still := by
  unfold State.fwEffect <;> (repeat' split) <;> (first | (simp only [State.fwDone_still, State.runFirmware_still, State.pickImage_still, State.enterState_still, State.storeFlash_still]; done) | (rename_i h1; cases congrArg Prod.fst h1; (simp only [State.fwDone_still, State.runFirmware_still, State.pickImage_still, State.enterState_still, State.storeFlash_still]; done)))

theorem State.doFwFinish_still (a0 a1 a2) : (State.doFwFinish a0 a1 a2).still = a0.still := by
  simp only [State.doFwFinish, State.fwDone_still, State.fwEffect_still] <;> (repeat' split) <;> (simp only [State.fwDone_still, State.fwEffect_still])

theorem State.dropGang_still (a0 a1) : (State.dropGang a0 a1).still = a0.still := by
  simp only [State.dropGang, still_mk, still_eta]

theorem State.onBay_still (a0 a1 a2 a3) (ha3 : ∀ b0, (a3 b0).still = b0.still) : (State.onBay a0 a1 a2 a3).still = a0.still := by
  simp only [State.onBay, still_ite, ite_self, State.bayCheck_still, State.bayWrite_still, ha3]

theorem State.doHandleOp_still (a0 a1 a2) : (State.doHandleOp a0 a1 a2).still = a0.still := by
  simp only [State.doHandleOp, still_ite, ite_self, State.handleEffect_still]

theorem State.doHead_still (a0 a1 a2) : (State.doHead a0 a1 a2).still = a0.still := by
  simp only [State.doHead, still_mk, still_eta, still_ite, ite_self, implies_true, State.pageWrite_still, State.updCq_still, State.updSlice_still] <;> (repeat' split) <;> (simp only [still_mk, still_eta, still_ite, ite_self, implies_true, State.pageWrite_still, State.updCq_still, State.updSlice_still])

theorem State.doHoldNotice_still (a0 a1) : (State.doHoldNotice a0 a1).still = a0.still := by
  simp only [State.doHoldNotice, still_ite, ite_self, State.signalUnits_still, State.updChan_still]

theorem State.imageDone_still (a0 a1 a2 a3) : (State.imageDone a0 a1 a2 a3).still = a0.still := by
  simp only [State.imageDone, still_mk, still_eta]

theorem State.imageFail_still (a0 a1 a2 a3) : (State.imageFail a0 a1 a2 a3).still = a0.still := by
  simp only [State.imageFail, still_ite, ite_self, State.updSlice_still, State.imageDone_still]

theorem State.freshenWhere_still (a0 a1) : (State.freshenWhere a0 a1).still = a0.still := by
  simp only [State.freshenWhere, still_mk, still_eta, still_ite, foldl_still, ite_self, implies_true, State.holdWrite_still, State.dropWay_still, State.bitmapWrite_still]

theorem State.writeCopies_still (a0 a1) : (State.writeCopies a0 a1).still = a0.still := by
  simp only [State.writeCopies, State.drawChoice_still, writeItems_still, State.updSlice_still]

theorem State.installSlice_still (a0 a1 a2) : (State.installSlice a0 a1 a2).still = a0.still := by
  simp only [State.installSlice, still_ite, ite_self, State.freshenWhere_still, State.clearOwner_still, State.applyModes_still, State.updSlice_still, State.writeCopies_still]

theorem State.imageStore_still (a0 a1 a2 a3) : (State.imageStore a0 a1 a2 a3).still = a0.still := by
  unfold State.imageStore <;> (repeat' split) <;> (first | (simp only [State.imageFail_still, State.storeFlash_still, State.imageDone_still]; done) | (rename_i h1; cases congrArg Prod.fst h1; (simp only [State.imageFail_still, State.storeFlash_still, State.imageDone_still]; done)))

theorem State.imageEffect_still (a0 a1 a2 a3) : (State.imageEffect a0 a1 a2 a3).still = a0.still := by
  unfold State.imageEffect <;> (repeat' split) <;> (simp only [State.imageFail_still, State.imageDone_still, State.installSlice_still, State.beginStep_still, State.loadImage_still, State.imageStore_still]; done)

theorem State.doImageFinish_still (a0 a1 a2) : (State.doImageFinish a0 a1 a2).still = a0.still := by
  simp only [State.doImageFinish, State.imageFail_still, State.imageEffect_still] <;> (repeat' split) <;> (simp only [State.imageFail_still, State.imageEffect_still])

theorem State.invalidateAt_still (a0 a1 a2) : (State.invalidateAt a0 a1 a2).still = a0.still := by
  simp only [State.invalidateAt, still_ite, ite_self, State.signalUnits_still, State.dropReplica_still]

theorem State.doInvalidate_still (a0 a1) : (State.doInvalidate a0 a1).still = a0.still := by
  simp only [State.doInvalidate, State.invalidateAt_still]

theorem State.memRefused_still (a0) : (State.memRefused a0).still = a0.still := by
  simp only [State.memRefused, still_mk, still_eta]

theorem State.memDone_still (a0) : (State.memDone a0).still = a0.still := by
  simp only [State.memDone, still_mk, still_eta]

theorem State.doKillPin_still (a0 a1 a2) : (State.doKillPin a0 a1 a2).still = a0.still := by
  simp only [State.doKillPin, still_ite, ite_self, State.memRefused_still, State.memDone_still, State.killPin_still]

theorem State.doLandedReport_still (a0 a1 a2) : (State.doLandedReport a0 a1 a2).still = a0.still := by
  simp only [State.doLandedReport, State.sendMsg_still, State.setIn_still] <;> (repeat' split) <;> (simp only [State.sendMsg_still, State.setIn_still])

theorem State.issue_still (a0 a1 a2 a3) (ha2 : ∀ b0, (a2 b0).still = b0.still) : (State.issue a0 a1 a2 a3).still = a0.still := by
  simp only [State.issue, still_ite, ite_self, implies_true, State.onBay_still, State.countInstr_still, ha2]

theorem State.doLeak_still (a0) : (State.doLeak a0).still = a0.still := by
  simp only [State.doLeak, still_mk, still_eta, still_ite, ite_self]

theorem State.setLink_still (a0 a1 a2) : (State.setLink a0 a1 a2).still = a0.still := by
  simp only [State.setLink, still_mk, still_eta]

theorem State.lostRecord_still (a0 a1 a2) : (State.lostRecord a0 a1 a2).still = a0.still := by
  simp only [State.lostRecord] <;> (repeat' split) <;> (rfl)

theorem State.failCopies_still (a0 a1) : (State.failCopies a0 a1).still = a0.still := by
  simp only [State.failCopies] <;> (repeat' split) <;> (rfl)

theorem State.failOps_still (a0 a1) : (State.failOps a0 a1).still = a0.still := by
  simp only [State.failOps, State.imageFail_still, State.fwDone_still] <;> (repeat' split) <;> (simp only [State.imageFail_still, State.fwDone_still])

theorem State.resyncIn_still (a0 a1 a2) : (State.resyncIn a0 a1 a2).still = a0.still := by
  simp only [State.resyncIn, still_ite, ite_self, State.sendMsg_still, State.setIn_still]

theorem State.resyncOut_still (a0 a1 a2) : (State.resyncOut a0 a1 a2).still = a0.still := by
  simp only [State.resyncOut, still_ite, ite_self, State.sendMsg_still, State.sendOpenMsg_still, State.setOut_still]

theorem State.doLinkRecovered_still (a0 a1 a2) : (State.doLinkRecovered a0 a1 a2).still = a0.still := by
  simp only [State.doLinkRecovered, still_ite, foldl_still, ite_self, implies_true, State.remaster_still, State.updPort_still, State.sendMsg_still, State.resyncIn_still, State.resyncOut_still]

theorem State.doLinkUp_still (a0 a1) : (State.doLinkUp a0 a1).still = a0.still := by
  simp only [State.doLinkUp, still_ite, ite_self, State.setLink_still]

theorem overLines_still (a0 a1 a2 a3) (ha1 : ∀ b0 b1, (a1 b0 b1).still = b0.still) : (overLines a0 a1 a2 a3).still = a3.still := by
  fun_induction overLines a0 a1 a2 a3 <;> (simp_all only [ha1])

theorem State.newHostReq_still (a0 a1 a2 a3 a4) : (State.newHostReq a0 a1 a2 a3 a4).still = a0.still := by
  simp only [State.newHostReq, still_mk, still_eta, State.setReq_still, State.updGang_still]

theorem State.doLogOff_still (a0 a1) : (State.doLogOff a0 a1).still = a0.still := by
  simp only [State.doLogOff, still_ite, ite_self, implies_true, State.migCtl_still, State.migEnd_still, State.updSlice_still]

theorem State.doLogOn_still (a0 a1) : (State.doLogOn a0 a1).still = a0.still := by
  simp only [State.doLogOn, still_ite, ite_self, implies_true, State.migCtl_still, State.migEnd_still, State.clearFilters_still, State.updSlice_still]

theorem State.doLogicFault_still (a0 a1) : (State.doLogicFault a0 a1).still = a0.still := by
  unfold State.doLogicFault <;> (repeat' split) <;> (simp only [State.lostTags_still, State.raise_still, State.dieStop_still, State.packageStop_still]; done)

theorem State.doManagerHandleEffect_still (a0) : (State.doManagerHandleEffect a0).still = a0.still := by
  simp only [State.doManagerHandleEffect, still_ite, ite_self, State.managerEffect_still, State.handleEffects_still]

theorem State.doMaskPush_still (a0 a1 a2 a3) : (State.doMaskPush a0 a1 a2 a3).still = a0.still := by
  simp only [State.doMaskPush, still_ite, State.gangFault_still] <;> (repeat' split) <;> (rfl)

theorem State.doMigCopy_still (a0 a1 a2) : (State.doMigCopy a0 a1 a2).still = a0.still := by
  simp only [State.doMigCopy, still_mk, still_eta, still_ite, ite_self, State.copyEnd_still]

theorem State.doMigExport_still (a0 a1 a2) : (State.doMigExport a0 a1 a2).still = a0.still := by
  simp only [State.doMigExport, still_ite, ite_self, implies_true, State.migCtl_still, State.migBegin_still, State.migEnd_still]

theorem State.doMigImport_still (a0 a1 a2) : (State.doMigImport a0 a1 a2).still = a0.still := by
  unfold State.doMigImport <;> (refine State.migCtl_still _ _ (fun s => ?_)) <;> split <;> simp only [State.migEnd_still, State.migBegin_still]

theorem State.doNop_still (a0 a1) : (State.doNop a0 a1).still = a0.still := by
  simp only [State.doNop, still_ite, ite_self, State.completeCmd_still]

theorem State.doPeer_still (a0 a1 a2 a3 a4 a5) : (State.doPeer a0 a1 a2 a3 a4 a5).still = a0.still := by
  simp only [State.doPeer, still_ite, ite_self, State.peerResult_still, State.updSlice_still]

theorem State.doPerstRelease_still (a0) : (State.doPerstRelease a0).still = a0.still := by
  simp only [State.doPerstRelease, still_mk, still_eta, still_ite, ite_self]

theorem State.rejectFree_still (a0 a1 a2 a3) : (State.rejectFree a0 a1 a2 a3).still = a0.still := by
  simp only [State.rejectFree, State.updSlice_still, State.raise_still]

theorem State.doPoolFree_still (a0 a1 a2) : (State.doPoolFree a0 a1 a2).still = a0.still := by
  simp only [State.doPoolFree, still_ite, ite_self, implies_true, State.pageWrite_still, State.rejectFree_still, State.freeBuffer_still]

theorem State.doPortDrain_still (a0 a1) : (State.doPortDrain a0 a1).still = a0.still := by
  simp only [State.doPortDrain, State.breakPort_still, State.cutPort_still] <;> (repeat' split) <;> (simp only [State.breakPort_still, State.cutPort_still])

theorem State.doPortTrained_still (a0 a1 a2 a3 a4) : (State.doPortTrained a0 a1 a2 a3 a4).still = a0.still := by
  simp only [State.doPortTrained, still_ite, ite_self, State.remaster_still, State.updPort_still]

theorem State.orderRead_still (a0 a1) : (State.orderRead a0 a1).still = a0.still := by
  simp only [State.orderRead] <;> (repeat' split) <;> (rfl)

theorem State.mgmtOp_still (a0 a1 a2) (ha2 : ∀ b0, (a2 b0).still = b0.still) : (State.mgmtOp a0 a1 a2).still = a0.still := by
  simp only [State.mgmtOp, still_mk, still_eta, still_ite, ite_self, ha2]

theorem State.doPowerLimit_still (a0 a1) : (State.doPowerLimit a0 a1).still = a0.still := by
  simp only [State.doPowerLimit, still_ite, ite_self, implies_true, State.mgmtOp_still, State.setManagerLimit_still]

theorem State.doPowerLoop_still (a0 a1) : (State.doPowerLoop a0 a1).still = a0.still := by
  simp only [State.doPowerLoop, still_mk, still_eta, still_ite, ite_self]

theorem State.doProchot_still (a0) : (State.doProchot a0).still = a0.still := by
  simp only [State.doProchot, still_mk, still_eta, still_ite, ite_self]

theorem State.sqCfg_still (a0 a1 a2 a3) : (State.sqCfg a0 a1 a2 a3).still = a0.still := by
  simp only [State.sqCfg, still_ite, ite_self, State.disableSq_still, State.updSq_still]

theorem State.onManagerRing_still (a0 a1 a2) : (State.onManagerRing a0 a1 a2).still = a0.still := by
  simp only [State.onManagerRing] <;> (repeat' split) <;> (rfl)

theorem State.doQueueCfg_still (a0 a1 a2) : (State.doQueueCfg a0 a1 a2).still = a0.still := by
  simp only [State.doQueueCfg, still_ite, ite_self, implies_true, State.pageWrite_still, State.sqCfg_still, State.updSq_still, State.cqCfg_still, State.updCq_still, State.updSlice_still, State.onManagerRing_still] <;> (repeat' split) <;> (simp only [still_ite, ite_self, implies_true, State.pageWrite_still, State.sqCfg_still, State.updSq_still, State.cqCfg_still, State.updCq_still, State.updSlice_still, State.onManagerRing_still])

theorem State.doRaiseFloor_still (a0 a1) : (State.doRaiseFloor a0 a1).still = a0.still := by
  simp only [State.doRaiseFloor, still_mk, still_eta, still_ite, ite_self]

theorem State.doReconverge_still (a0 a1) : (State.doReconverge a0 a1).still = a0.still := by
  simp only [State.doReconverge] <;> (repeat' split) <;> (rfl)

theorem State.doRecoveryTimeout_still (a0 a1) : (State.doRecoveryTimeout a0 a1).still = a0.still := by
  simp only [State.doRecoveryTimeout, still_ite, ite_self, State.startPort_still]

theorem State.doRefresh_still (a0 a1 a2) : (State.doRefresh a0 a1 a2).still = a0.still := by
  simp only [State.doRefresh]

theorem State.writePage_still (a0 a1 a2 a3) : (State.writePage a0 a1 a2 a3).still = a0.still := by
  simp only [State.writePage, still_ite, ite_self, implies_true, State.pageWrite_still, State.updSlice_still, State.updSq_still, State.updCq_still] <;> (repeat' split) <;> (simp only [still_ite, ite_self, implies_true, State.pageWrite_still, State.updSlice_still, State.updSq_still, State.updCq_still])

theorem State.startFw_still (a0 a1 a2 a3) : (State.startFw a0 a1 a2 a3).still = a0.still := by
  simp only [State.startFw, still_mk, still_eta, still_ite, ite_self, State.fwDone_still]

theorem State.writeImageReg_still (a0 a1 a2) : (State.writeImageReg a0 a1 a2).still = a0.still := by
  simp only [State.writeImageReg] <;> (repeat' split) <;> (rfl)

theorem State.writeCfg_still (a0 a1 a2) : (State.writeCfg a0 a1 a2).still = a0.still := by
  simp only [State.writeCfg] <;> (repeat' split) <;> (rfl)

theorem State.writePlb_still (a0 a1 a2) : (State.writePlb a0 a1 a2).still = a0.still := by
  simp only [State.writePlb, still_mk, still_eta, implies_true, State.mgmtOp_still, State.setThrottle_still] <;> (repeat' split) <;> (simp only [still_mk, still_eta, implies_true, State.mgmtOp_still, State.setThrottle_still])

theorem State.writeFltRing_still (a0 a1 a2) : (State.writeFltRing a0 a1 a2).still = a0.still := by
  simp only [State.writeFltRing] <;> (repeat' split) <;> (rfl)

theorem State.writeFlt_still (a0 a1 a2) : (State.writeFlt a0 a1 a2).still = a0.still := by
  simp only [State.writeFlt] <;> (repeat' split) <;> (rfl)

theorem State.writeTel_still (a0 a1 a2) : (State.writeTel a0 a1 a2).still = a0.still := by
  simp only [State.writeTel] <;> (repeat' split) <;> (rfl)

theorem State.writeReg_still (a0 a1 a2) : (State.writeReg a0 a1 a2).still = a0.still := by
  simp only [State.writeReg, State.writeImageReg_still, State.writeCfg_still, State.writePlb_still, State.writeFltRing_still, State.writeFlt_still, State.writeTel_still] <;> (repeat' split) <;> (simp only [State.writeImageReg_still, State.writeCfg_still, State.writePlb_still, State.writeFltRing_still, State.writeFlt_still, State.writeTel_still])

theorem State.writeHalf_still (a0 a1 a2 a3) : (State.writeHalf a0 a1 a2 a3).still = a0.still := by
  simp only [State.writeHalf, State.doAck_still, State.startFw_still, State.writeReg_still] <;> (repeat' split) <;> (simp only [State.doAck_still, State.startFw_still, State.writeReg_still])

theorem State.doRegisterWrite_still (a0 a1 a2 a3 a4) : (State.doRegisterWrite a0 a1 a2 a3 a4).still = a0.still := by
  unfold State.doRegisterWrite; dsimp only; split; (exact State.applyMatch_still _ _ _ _ _ (fun s r v => State.writePage_still _ _ _ _) (fun s => State.badWrite_still _ _ _)); exact State.applyMatch_still _ _ _ _ _ (fun s r v => by split; exact State.writeHalf_still _ _ _ _; exact State.writeReg_still _ _ _) (fun s => State.badWrite_still _ _ _)

theorem State.freshenBlock_still (a0 a1) : (State.freshenBlock a0 a1).still = a0.still := by
  simp only [State.freshenBlock, State.freshenWhere_still]

theorem State.doRepairGo_still (a0 a1 a2) : (State.doRepairGo a0 a1 a2).still = a0.still := by
  simp only [State.doRepairGo, still_mk, still_eta, still_ite, ite_self]

theorem State.doReplayTimeout_still (a0 a1) : (State.doReplayTimeout a0 a1).still = a0.still := by
  simp only [State.doReplayTimeout, still_ite, ite_self, State.resend_still]

theorem State.resetUnit_still (a0 a1) : (State.resetUnit a0 a1).still = a0.still := by
  simp only [State.resetUnit, State.doBayReset_still, State.doPortReset_still] <;> (repeat' split) <;> (simp only [State.doBayReset_still, State.doPortReset_still])

theorem State.setMgmt_still (a0 a1 a2) : (State.setMgmt a0 a1 a2).still = a0.still := by
  simp only [State.setMgmt] <;> (repeat' split) <;> (rfl)

theorem State.setUnpowered_still (a0 a1) : (State.setUnpowered a0 a1).still = a0.still := by
  simp only [State.setUnpowered] <;> (repeat' split) <;> (rfl)

theorem State.dropWaiting_still (a0 a1 a2) : (State.dropWaiting a0 a1 a2).still = a0.still := by
  simp only [State.dropWaiting, State.updSlice_still, State.discardWaiting_still]

theorem State.noteEnd_still (a0 a1 a2 a3) : (State.noteEnd a0 a1 a2 a3).still = a0.still := by
  simp only [State.noteEnd, still_mk, still_eta]

theorem State.openShield_still (a0 a1) : (State.openShield a0 a1).still = a0.still := by
  simp only [State.openShield, State.signalUnits_still]

theorem State.restartPairs_still (a0 a1) : (State.restartPairs a0 a1).still = a0.still := by
  simp only [State.restartPairs, foldl_still, implies_true, State.updReporter_still]

theorem State.finishBay_still (a0 a1) : (State.finishBay a0 a1).still = a0.still := by
  simp only [State.finishBay, still_mk, still_eta, still_ite, ite_self, State.updBay_still, State.cutBay_still, State.restartPairs_still]

theorem State.failChan_still (a0 a1) : (State.failChan a0 a1).still = a0.still := by
  simp only [State.failChan, State.setUnitState_still, State.updChan_still, State.raise_still]

theorem State.failDie_still (a0 a1) : (State.failDie a0 a1).still = a0.still := by
  simp only [State.failDie, still_mk, still_eta, foldl_still, implies_true, State.raise_still, State.updBay_still, State.setUnitState_still]

theorem State.finishPort_still (a0 a1) : (State.finishPort a0 a1).still = a0.still := by
  simp only [State.finishPort, still_mk, still_eta, still_ite, ite_self, State.updPort_still, State.cutPort_still, State.restartPairs_still]

theorem State.doResume_still (a0 a1) : (State.doResume a0 a1).still = a0.still := by
  simp only [State.doResume, still_ite, ite_self, State.updSlice_still, State.wrongState_still]

theorem State.earnStream_still (a0 a1) : (State.earnStream a0 a1).still = a0.still := by
  simp only [State.earnStream, State.updChan_still]

theorem State.doRetrainStart_still (a0 a1) : (State.doRetrainStart a0 a1).still = a0.still := by
  simp only [State.doRetrainStart, still_ite, ite_self, State.updChan_still]

theorem State.doRevoke_still (a0 a1 a2) : (State.doRevoke a0 a1 a2).still = a0.still := by
  simp only [State.doRevoke, still_mk, still_eta, still_ite, ite_self]

theorem State.doScratch_still (a0 a1 a2 a3 a4 a5) : (State.doScratch a0 a1 a2 a3 a4 a5).still = a0.still := by
  simp only [State.doScratch, foldl_still, implies_true, State.gangFault_still, State.setRegByte_still, State.freeReg_still, State.footWrite_still] <;> (repeat' split) <;> (simp only [foldl_still, implies_true, State.gangFault_still, State.setRegByte_still, State.freeReg_still, State.footWrite_still])

theorem State.paySet_still (a0 a1 a2) : (State.paySet a0 a1 a2).still = a0.still := by
  simp only [State.paySet, still_mk, still_eta]

theorem State.scrubFixed_still (a0 a1) : (State.scrubFixed a0 a1).still = a0.still := by
  simp only [State.scrubFixed, still_mk, still_eta]

theorem State.scrubTags_still (a0 a1 a2 a3 a4) : (State.scrubTags a0 a1 a2 a3 a4).1.still = a0.still := by
  simp only [State.scrubTags, still_ite, ite_self, apply_ite Prod.fst, State.scrubFixed_still, State.checkTags_still, State.lostTags_still, State.cacheCorrected_still]

theorem State.scrubNext_still (a0 a1) : (State.scrubNext a0 a1).still = a0.still := by
  simp only [State.scrubNext, still_mk, still_eta, still_ite, ite_self]

theorem State.scrubMove_still (a0 a1) : (State.scrubMove a0 a1).still = a0.still := by
  simp only [State.scrubMove, still_ite, ite_self, State.updChan_still]

theorem State.earnScrub_still (a0 a1) : (State.earnScrub a0 a1).still = a0.still := by
  simp only [State.earnScrub, State.updChan_still]

theorem State.scratchWrite_still (a0 a1 a2 a3) : (State.scratchWrite a0 a1 a2 a3).still = a0.still := by
  simp only [State.scratchWrite, State.updBay_still]

theorem State.zeroWord_still (a0 a1) : (State.zeroWord a0 a1).still = a0.still := by
  simp only [State.zeroWord, still_mk, still_eta, still_ite, ite_self, State.drawChoice_still, State.scratchWrite_still, State.arrayCorrected_still]

theorem State.foundErr_still (a0 a1) : (State.foundErr a0 a1).still = a0.still := by
  simp only [State.foundErr, State.drawChoice_still, State.updBay_still, State.arrayCorrected_still, State.arrayLost_still, State.zeroWord_still] <;> (repeat' split) <;> (simp only [State.drawChoice_still, State.updBay_still, State.arrayCorrected_still, State.arrayLost_still, State.zeroWord_still]; done)

theorem State.l1Lost_still (a0 a1 a2 a3) : (State.l1Lost a0 a1 a2 a3).still = a0.still := by
  simp only [State.l1Lost, foldl_still, implies_true, State.arrayCorrected_still, State.dropL1_still, State.setL1_still, State.arrayLost_still] <;> (repeat' split) <;> (simp only [foldl_still, implies_true, State.arrayCorrected_still, State.dropL1_still, State.setL1_still, State.arrayLost_still])

theorem State.wordLost_still (a0 a1 a2 a3) : (State.wordLost a0 a1 a2 a3).still = a0.still := by
  simp only [State.wordLost, State.drawChoice_still, State.arrayLost_still, State.l1Lost_still, State.zeroWord_still] <;> (repeat' split) <;> (simp only [State.drawChoice_still, State.arrayLost_still, State.l1Lost_still, State.zeroWord_still]; done)

theorem State.doScrubLs_still (a0 a1 a2 a3) : (State.doScrubLs a0 a1 a2 a3).still = a0.still := by
  simp only [State.doScrubLs, still_mk, still_eta, State.foundErr_still, State.arrayCorrected_still, State.wordLost_still, State.updBay_still] <;> (repeat' split) <;> (simp only [still_mk, still_eta, State.foundErr_still, State.arrayCorrected_still, State.wordLost_still, State.updBay_still])

theorem State.freeEngine_still (a0 a1 a2) : (State.freeEngine a0 a1 a2).still = a0.still := by
  simp only [State.freeEngine, State.updCmd_still]

theorem State.endPass1_still (a0 a1 a2 a3 a4) : (State.endPass1 a0 a1 a2 a3 a4).still = a0.still := by
  simp only [State.endPass1, still_ite, ite_self, State.updRow_still, State.setBusy_still, State.freeEngine_still]

theorem State.doShieldAnswer_still (a0 a1) : (State.doShieldAnswer a0 a1).still = a0.still := by
  simp only [State.doShieldAnswer] <;> (repeat' split) <;> (simp only [State.takeShield_still])

theorem State.latchTile_still (a0 a1 a2 a3 a4) : (State.latchTile a0 a1 a2 a3 a4).still = a0.still := by
  simp only [State.latchTile, State.updBay_still]

theorem State.doSliceDrained_still (a0 a1) : (State.doSliceDrained a0 a1).still = a0.still := by
  simp only [State.doSliceDrained, still_ite, ite_self, State.updSlice_still]

theorem State.doSliceFrozen_still (a0 a1) : (State.doSliceFrozen a0 a1).still = a0.still := by
  simp only [State.doSliceFrozen, State.migEnd_still, State.updSlice_still, State.breakInbound_still] <;> (repeat' split) <;> (simp only [State.migEnd_still, State.updSlice_still, State.breakInbound_still])

theorem State.doSnap_still (a0 a1 a2) : (State.doSnap a0 a1 a2).still = a0.still := by
  simp only [State.doSnap, still_mk, still_eta, still_ite, ite_self, State.mapGroups_still, State.clearGroups_still]

theorem State.findSplit_still (a0 a1) : (State.findSplit a0 a1).still = a0.still := by
  simp only [State.findSplit, still_mk, still_eta, State.raise_still]

theorem State.doSqTail_still (a0 a1 a2 a3) : (State.doSqTail a0 a1 a2 a3).still = a0.still := by
  simp only [State.doSqTail, still_ite, ite_self, implies_true, State.pageWrite_still, State.updSq_still]

theorem State.doStaleDiscard_still (a0 a1) : (State.doStaleDiscard a0 a1).still = a0.still := by
  simp only [State.doStaleDiscard, still_mk, still_eta, State.settleReq_still] <;> (repeat' split) <;> (simp only [still_mk, still_eta, State.settleReq_still])

theorem State.failBringup_still (a0 a1 a2) : (State.failBringup a0 a1 a2).still = a0.still := by
  simp only [State.failBringup, still_mk, still_eta, State.enterState_still]

theorem State.journalBoot_still (a0) : (State.journalBoot a0).still = a0.still := by
  simp only [State.journalBoot, still_mk, still_eta, State.appendJournal_still]

theorem State.startRegulator_still (a0 a1 a2) : (State.startRegulator a0 a1 a2).still = a0.still := by
  simp only [State.startRegulator, still_mk, still_eta, still_ite, ite_self, State.vrTransaction_still, State.writeSetPoint_still]

theorem State.restoreGuards_still (a0 a1) : (State.restoreGuards a0 a1).still = a0.still := by
  simp only [State.restoreGuards, foldl_still, implies_true, State.startRegulator_still] <;> (repeat' split) <;> (rfl)

theorem State.endStep3_still (a0 a1) : (State.endStep3 a0 a1).still = a0.still := by
  simp only [State.endStep3, still_mk, still_eta, State.failBringup_still, State.beginStep_still] <;> (repeat' split) <;> (simp only [still_mk, still_eta, State.failBringup_still, State.beginStep_still])

theorem State.trainAll_still (a0) : (State.trainAll a0).still = a0.still := by
  unfold State.trainAll; generalize List.range 128 = L; exact foldl_still _ (fun s b => State.updChan_still _ _ _) _ _

theorem State.endStep4_still (a0 a1 a2 a3 a4) : (State.endStep4 a0 a1 a2 a3 a4).still = a0.still := by
  unfold State.endStep4; generalize badMemory _ _ _ = v; cases v with | some p => exact State.failBringup_still _ _ _ | none => (dsimp only; have e := State.trainAll_still a0; generalize a0.trainAll = t at e ⊢; refine (State.beginStep_still _ _).trans ?_; rw [still_mk, still_eta]; exact e)

theorem State.endStep5_still (a0) : (State.endStep5 a0).still = a0.still := by
  simp only [State.endStep5, still_mk, still_eta, State.beginStep_still]

theorem State.endStep6_still (a0) : (State.endStep6 a0).still = a0.still := by
  unfold State.endStep6 <;> split <;> (try simp only [State.enterState_still, State.pickImage_still]) <;> (repeat' split) <;> (rfl)

theorem State.endStep7_still (a0) : (State.endStep7 a0).still = a0.still := by
  simp only [State.endStep7, still_mk, still_eta, State.beginStep_still]

theorem State.startSlice_still (a0 a1) : (State.startSlice a0 a1).still = a0.still := by
  simp only [State.startSlice, State.writeCopies_still, State.updSlice_still]

theorem State.startScrubs_still (a0) : (State.startScrubs a0).still = a0.still := by
  simp only [State.startScrubs, foldl_still, implies_true, State.updChan_still]

theorem State.notePackageEnd_still (a0) : (State.notePackageEnd a0).still = a0.still := by
  simp only [State.notePackageEnd, still_mk, still_eta, still_ite, ite_self]

theorem State.endStep8_still (a0) : (State.endStep8 a0).still = a0.still := by
  unfold State.endStep8; extract_lets w s1 s2 s3 s4; have e1 : s1.still = a0.still := foldl_still _ (fun s b => State.updBay_still _ _ _) _ _; clear_value s1; have e2 : s2.still = s1.still := foldl_still _ (fun s b => State.startSlice_still _ _) _ _; clear_value s2; have e3 : s3.still = s2.still := foldl_still _ (fun s b => State.updPort_still _ _ _) _ _; clear_value s3; have e4 : s4.still = s3.still := State.startScrubs_still _; clear_value s4; rw [State.enterState_still, State.notePackageEnd_still, still_mk, still_eta]; exact e4.trans (e3.trans (e2.trans e1))

theorem State.doStepTimeout_still (a0) : (State.doStepTimeout a0).still = a0.still := by
  simp only [State.doStepTimeout, still_ite, ite_self, State.failBringup_still]

theorem State.doStoreCapstone_still (a0 a1 a2 a3 a4 a5) : (State.doStoreCapstone a0 a1 a2 a3 a4 a5).still = a0.still := by
  unfold State.doStoreCapstone; extract_lets v c addr len; split; exact State.gangFault_still _ _ _ _; rename_i cap id strt _; have hs : ∀ s' cp, (strt s' cp).still = s'.still := (by intro s' cp; simp only [strt, State.setCap_still, State.updGang_still, still_mk, still_eta]); clear_value strt; split; split; exact hs _ _; exact State.gangFault_still _ _ _ _; have e := State.gangDpa_still a0 a1 (addr / 128) 1; split <;> (rename_i h; rw [h] at e; dsimp only at e); exact e; dsimp only; split; exact (State.stopCmd_still _ _ _).trans e; exact (hs _ _).trans e

theorem State.l1Update_still (a0 a1 a2 a3 a4) : (State.l1Update a0 a1 a2 a3 a4).still = a0.still := by
  simp only [State.l1Update] <;> (repeat' split) <;> (rfl)

theorem State.volatileLine_still (a0 a1 a2 a3 a4) : (State.volatileLine a0 a1 a2 a3 a4).still = a0.still := by
  unfold State.volatileLine <;> (repeat' split) <;> (first | (rename_i h1; cases congrArg Prod.fst h1; (simp only [State.gangDpa_still, State.updGang_still, State.l1Update_still, State.newReq_still]; done)) | (rename_i h2 h1; cases congrArg Prod.fst h2; (simp only [State.gangDpa_still, State.updGang_still, State.l1Update_still, State.newReq_still]; done)) | (rename_i h1 _ h0; cases congrArg Prod.fst h1; (simp only [State.gangDpa_still, State.updGang_still, State.l1Update_still, State.newReq_still]; done)))

theorem State.openSend_still (a0 a1) : (State.openSend a0 a1).still = a0.still := by
  simp only [State.openSend, State.refuseSend_still, State.sendOpenMsg_still, State.setOut_still] <;> (repeat' split) <;> (simp only [State.refuseSend_still, State.sendOpenMsg_still, State.setOut_still]; done)

theorem State.doTelSel_still (a0 a1 a2 a3) : (State.doTelSel a0 a1 a2 a3).still = a0.still := by
  simp only [State.doTelSel, still_mk, still_eta, still_ite, ite_self]

theorem State.doTenantResetRequest_still (a0 a1 a2) : (State.doTenantResetRequest a0 a1 a2).still = a0.still := by
  simp only [State.doTenantResetRequest, still_ite, ite_self, implies_true, State.pageWrite_still, State.askTenantReset_still]

theorem State.doThaw_still (a0 a1) : (State.doThaw a0 a1).still = a0.still := by
  simp only [State.doThaw, still_ite, ite_self, implies_true, State.migCtl_still, State.migEnd_still, State.updSlice_still]

theorem State.readSensors_still (a0 a1) : (State.readSensors a0 a1).still = a0.still := by
  simp only [State.readSensors, still_mk, still_eta]

theorem State.thermTrip_still (a0) : (State.thermTrip a0).still = a0.still := by
  simp only [State.thermTrip, still_mk, still_eta, State.enterState_still, State.packageStop_still]

theorem State.doThermal_still (a0 a1) : (State.doThermal a0 a1).still = a0.still := by
  simp only [State.doThermal, still_mk, still_eta, still_ite, ite_self, State.readSensors_still, State.thermTrip_still]

theorem State.doTimeBeacon_still (a0) : (State.doTimeBeacon a0).still = a0.still := by
  simp only [State.doTimeBeacon, still_mk, still_eta, still_ite, ite_self, State.alignDies_still]

theorem State.doUnknownPlumb_still (a0 a1 a2) : (State.doUnknownPlumb a0 a1 a2).still = a0.still := by
  simp only [State.doUnknownPlumb, still_ite, ite_self, State.answer_still]

theorem State.doVrAlert_still (a0 a1 a2 a3) : (State.doVrAlert a0 a1 a2 a3).still = a0.still := by
  simp only [State.doVrAlert, still_ite, ite_self, implies_true, State.mgmtOp_still, State.readStatusWord_still]

theorem State.wayCtl_still (a0 a1) (ha1 : ∀ b0, (a1 b0).still = b0.still) : (State.wayCtl a0 a1).still = a0.still := by
  simp only [State.wayCtl, still_mk, still_eta, still_ite, ite_self, ha1]

theorem State.doWayEnable_still (a0 a1 a2) : (State.doWayEnable a0 a1 a2).still = a0.still := by
  simp only [State.doWayEnable, still_mk, still_eta, still_ite, ite_self, implies_true, State.wayCtl_still]

theorem State.drawByte_still (a0) : (State.drawByte a0).2.still = a0.still := by
  simp only [State.drawByte, still_mk, still_eta]

theorem bridgeSlots_still (a0 a1 a2 a3) : (bridgeSlots a0 a1 a2 a3).1.still = a3.still := by
  induction a1 generalizing a2 a3 with
  | zero => simp only [bridgeSlots]
  | succ k ih => simp only [bridgeSlots, State.bridgeSlot_still, ih] <;> (repeat' split) <;> (rename_i h1; cases congrArg Prod.fst h1; (simp only [State.bridgeSlot_still, ih]; done))

theorem State.passFlit_still (a0 a1 a2) : (State.passFlit a0 a1 a2).still = a0.still := by
  simp only [State.passFlit] <;> (repeat' split) <;> (rfl)

theorem State.fabricEdge_still (a0) : (State.fabricEdge a0).still = a0.still := by
  simp only [State.fabricEdge, still_mk, still_eta, foldl_still, foldl_still1, implies_true, bridgeSlots_still, State.passFlit_still]

theorem State.tickSkew_still (a0) : (State.tickSkew a0).still = a0.still := by
  simp only [State.tickSkew, still_mk, still_eta]

theorem State.tickFabric_still (a0) : (State.tickFabric a0).still = a0.still := by
  simp only [State.tickFabric, foldl_still, implies_true, State.tickSkew_still, State.fabricEdge_still]

theorem State.tickBays_still (a0) : (State.tickBays a0).still = a0.still := by
  unfold State.tickBays <;> (refine foldl_still _ (fun s b => ?_) _ _) <;> (repeat' split) <;> (rfl)

theorem State.tickCounts_still (a0) : (State.tickCounts a0).still = a0.still := by
  simp only [State.tickCounts, still_mk, still_eta, still_ite, ite_self, State.tickFabric_still, State.tickBays_still]

theorem State.tickTime_still (a0) : (State.tickTime a0).still = a0.still := by
  simp only [State.tickTime, still_mk, still_eta]

theorem State.idle_still (a0) : (State.idle a0).still = a0.still := by
  simp only [State.idle, still_ite, ite_self, State.event_still, State.tickCounts_still, State.tickTime_still]

theorem State.imageBegin_still (a0 a1) : (State.imageBegin a0 a1).still = a0.still := by
  simp only [State.imageBegin, still_mk, still_eta, still_ite, ite_self, State.breakInbound_still, State.updSlice_still, State.imageFail_still]

theorem State.issueMem_still (a0 a1 a2) (ha2 : ∀ b0, (a2 b0).still = b0.still) : (State.issueMem a0 a1 a2).still = a0.still := by
  simp only [State.issueMem, implies_true, State.settled_still, State.issue_still, ha2]

theorem State.issueStore_still (a0 a1 a2 a3 a4) (ha4 : ∀ b0, (a4 b0).still = b0.still) : (State.issueStore a0 a1 a2 a3 a4).still = a0.still := by
  simp only [State.issueStore, still_ite, ite_self, implies_true, State.awaiting_still, State.issueMem_still, ha4]

theorem State.startHandleOp_still (a0 a1 a2 a3) : (State.startHandleOp a0 a1 a2 a3).still = a0.still := by
  simp only [State.startHandleOp, still_mk, still_eta, still_ite, ite_self]

theorem State.startImage_still (a0 a1 a2 a3 a4) : (State.startImage a0 a1 a2 a3 a4).still = a0.still := by
  simp only [State.startImage, still_mk, still_eta, still_ite, ite_self, State.imageBegin_still, State.imageDone_still]

theorem State.tryStop_still (a0 a1) : (State.tryStop a0 a1).still = a0.still := by
  simp only [State.tryStop, still_ite, ite_self, State.leaveBay_still, State.updCmd_still, State.updBay_still, State.unholdBay_still]

theorem State.withFetchWord_still (a0 a1 a2) : (State.withFetchWord a0 a1 a2).still = a0.still := by
  simp only [State.withFetchWord] <;> (repeat' split) <;> (rfl)

end Sys2Proof.Machine
end

