-- ==== Sys2Proof/Laws/Memory.lean ====
section
/-! SUPPORT. The canonical form of the addressed memories, and the operations that store bytes. -/

namespace Sys2Proof.Machine

/-- The canonical form of the addressed memories (Tbl.wf for DRAM; the host's memory lists its bytes in rising order). -/

def Still.ok (m : Still) : Prop := Tbl.wf (0 : Byte) m.dram = true ∧ Tbl.rising 0 m.host = true

theorem ok_of_eq {α} {p : State × α} {s : State} {v : α} (e : p = (s, v)) (h : Still.ok p.1.still) : Still.ok s.still := by cases e; exact h

theorem still_ok_ite {c} [Decidable c] (a b : Still) : Still.ok (if c then a else b) = if c then Still.ok a else Still.ok b := by split <;> rfl

theorem foldl_ok {α} (f : State → α → State) (h : ∀ s a, Still.ok s.still → Still.ok (f s a).still) (l : List α) (s : State) (hs : Still.ok s.still) : Still.ok (l.foldl f s).still := by
  induction l generalizing s with
  | nil => exact hs
  | cons a t ih => exact ih _ (h _ _ hs)

theorem foldl_ok1 {α β} (f : State × β → α → State × β) (h : ∀ s a, Still.ok s.1.still → Still.ok (f s a).1.still) (l : List α) (s : State × β) (hs : Still.ok s.1.still) : Still.ok (l.foldl f s).1.still := by
  induction l generalizing s with
  | nil => exact hs
  | cons a t ih => exact ih _ (h _ _ hs)

theorem foldl_ok2 {α β} (f : β × State → α → β × State) (h : ∀ s a, Still.ok s.2.still → Still.ok (f s a).2.still) (l : List α) (s : β × State) (hs : Still.ok s.2.still) : Still.ok (l.foldl f s).2.still := by
  induction l generalizing s with
  | nil => exact hs
  | cons a t ih => exact ih _ (h _ _ hs)

theorem dramPut_wf (t : Tbl Byte) (a : Nat) (b : Bytes) (h : Tbl.wf (0 : Byte) t = true) : Tbl.wf (0 : Byte) (dramPut t a b) = true := by
  induction b generalizing t a with
  | nil => exact h
  | cons x xs ih => exact ih _ _ (Tbl.wf_set _ _ _ _ h)

theorem putAll_rising (t : Tbl Byte) (a : Nat) (b : Bytes) (h : Tbl.rising 0 t = true) : Tbl.rising 0 (putAll t a b) = true := by
  induction b generalizing t a with
  | nil => exact h
  | cons x xs ih => exact ih _ _ (Tbl.rising_put _ 0 _ _ (Nat.zero_le _) h)

theorem State.dramStore_ok (s : State) (a : Nat) (b : Bytes) (h : Still.ok s.still) : Still.ok (s.dramStore a b).still :=
  ⟨dramPut_wf _ _ _ h.1, h.2⟩

theorem State.hostWrite_ok (s : State) (p : Option (BitVec 20)) (a : Nat) (b : Bytes) (h : Still.ok s.still) : Still.ok (s.hostWrite p a b).still :=
  ⟨h.1, putAll_rising _ _ _ h.2⟩

theorem State.doColdStart_ok (s : State) (a b) (h : Still.ok s.still) : Still.ok (s.doColdStart a b).still := by
  unfold State.doColdStart; split; exact h; exact ⟨rfl, h.2⟩

theorem State.doPwrGoodFall_ok (s : State) (h : Still.ok s.still) : Still.ok (s.doPwrGoodFall).still := by
  have e := congrArg Still.host (State.cutFlash_still s)
  exact ⟨rfl, by show Tbl.rising 0 s.cutFlash.still.host = true; rw [e]; exact h.2⟩

theorem State.beginPackage_ok (s : State) (a b) (h : Still.ok s.still) : Still.ok (s.beginPackage a b).still := by
  unfold State.beginPackage; extract_lets t s1; split; exact ⟨rfl, h.2⟩; rw [State.signal_still]; exact ⟨rfl, h.2⟩

end Sys2Proof.Machine
end

