-- ==== Sys2Proof/Laws/MemoryA.lean ====
section
/-! SUPPORT. Operations that store bytes keep the canonical form of the memories, part 1 of 2. -/

namespace Sys2Proof.Machine

set_option linter.unusedSimpArgs false
set_option linter.unusedVariables false

theorem State.postLog_ok (a0 a1 a2) (h : Still.ok a0.still) : Still.ok (State.postLog a0 a1 a2).still := by
  simp only [State.postLog, still_mk, still_eta, still_ite, still_ok_ite, ite_self, State.hostWrite_ok, State.updSlice_still, h]

theorem State.logCourse_ok (a0 a1 a2 a3 a4) (h : Still.ok a0.still) : Still.ok (State.logCourse a0 a1 a2 a3 a4).still := by
  unfold State.logCourse; split; (extract_lets f; split; exact h; exact State.postLog_ok _ _ _ h); exact h

theorem State.logHost_ok (a0 a1 a2 a3 a4) (h : Still.ok a0.still) : Still.ok (State.logHost a0 a1 a2 a3 a4).still := by
  simp only [State.logHost, State.logCourse_ok, h]

theorem State.tenantHostWrite_ok (a0 a1 a2 a3 a4 a5) (h : Still.ok a0.still) : Still.ok (State.tenantHostWrite a0 a1 a2 a3 a4 a5).still := by
  simp only [State.tenantHostWrite, foldl_ok, implies_true, State.hostWrite_ok, State.count_still, State.logHost_ok, h] <;> (repeat' split) <;> (simp +contextual only [foldl_ok, implies_true, State.hostWrite_ok, State.count_still, State.logHost_ok, h]; done)

theorem State.postTenant_ok (a0 a1 a2 a3 a4) (h : Still.ok a0.still) : Still.ok (State.postTenant a0 a1 a2 a3 a4).1.still := by
  simp only [State.postTenant, still_ite, still_ok_ite, ite_self, State.tenantHostWrite_ok, h]

theorem State.tenantCopyPost_ok (a0 a1) (h : Still.ok a0.still) : Still.ok (State.tenantCopyPost a0 a1).1.still := by
  simp only [State.tenantCopyPost, still_mk, still_eta, State.updSlice_still, State.postTenant_ok, h] <;> (repeat' split) <;> (simp only [still_mk, still_eta, State.updSlice_still, State.postTenant_ok, h]; done)

theorem State.assignSeq_ok (a0 a1) (h : Still.ok a0.still) : Still.ok (State.assignSeq a0 a1).still := by
  simp only [State.assignSeq, still_mk, still_eta, still_ite, ite_self, State.tenantCopyPost_ok, State.signal_still, h]

theorem State.storeWord_ok (a0 a1 a2 a3 a4) (h : Still.ok a0.still) : Still.ok (State.storeWord a0 a1 a2 a3 a4).still := by
  simp only [State.storeWord, State.dramStore_ok, h]

theorem State.writeCoded_ok (a0 a1 a2 a3 a4) (h : Still.ok a0.still) : Still.ok (State.writeCoded a0 a1 a2 a3 a4).still := by
  unfold State.writeCoded; repeat' (first | with_reducible assumption | with_reducible apply State.storeWord_ok | with_reducible rw [State.injected_still] | with_reducible rw [State.dramTraffic_still])

theorem State.writeMap_ok (a0 a1 a2 a3) (h : Still.ok a0.still) : Still.ok (State.writeMap a0 a1 a2 a3).still := by
  unfold State.writeMap; repeat' (first | with_reducible assumption | with_reducible apply State.writeCoded_ok | with_reducible rw [State.cacheMap_still])

theorem State.mapLost_ok (a0 a1 a2) (h : Still.ok a0.still) : Still.ok (State.mapLost a0 a1 a2).still := by
  unfold State.mapLost; repeat' (first | with_reducible assumption | with_reducible refine foldl_ok _ (fun s b h => ?_) _ _ ?_ | with_reducible apply State.writeMap_ok | with_reducible rw [State.noteBad_still] | with_reducible rw [State.raise_still])

theorem State.mapRead_ok (a0 a1 a2) (h : Still.ok a0.still) : Still.ok (State.mapRead a0 a1 a2).1.still := by
  unfold State.mapRead; repeat' (first | with_reducible assumption | with_reducible apply State.mapLost_ok | with_reducible rw [State.dramTraffic_still] | with_reducible rw [State.cacheMap_still] | with_reducible rw [State.noteCorrected_still] | split | dsimp only)

theorem State.mapCheck_ok (a0 a1 a2) (h : Still.ok a0.still) : Still.ok (State.mapCheck a0 a1 a2).1.still := by
  unfold State.mapCheck; repeat' (first | with_reducible assumption | with_reducible apply State.mapRead_ok | split)

theorem State.setMapEntry_ok (a0 a1 a2 a3) (h : Still.ok a0.still) : Still.ok (State.setMapEntry a0 a1 a2 a3).still := by
  unfold State.setMapEntry; repeat' (first | with_reducible assumption | with_reducible apply State.mapCheck_ok | with_reducible apply State.writeMap_ok | split | dsimp only)

theorem State.setLineState_ok (a0 a1 a2 a3) (h : Still.ok a0.still) : Still.ok (State.setLineState a0 a1 a2 a3).still := by
  unfold State.setLineState; repeat' (first | with_reducible assumption | with_reducible apply State.mapCheck_ok | with_reducible apply State.setMapEntry_ok)

theorem State.poisonLine_ok (a0 a1 a2 a3 a4) (h : Still.ok a0.still) : Still.ok (State.poisonLine a0 a1 a2 a3 a4).still := by
  unfold State.poisonLine; repeat' (first | with_reducible assumption | with_reducible apply State.setLineState_ok | with_reducible rw [State.raise_still])

theorem State.decodeLine_ok (a0 a1 a2 a3 a4) (h : Still.ok a0.still) : Still.ok (State.decodeLine a0 a1 a2 a3 a4).1.still := by
  unfold State.decodeLine; repeat' (first | with_reducible assumption | with_reducible apply State.poisonLine_ok | with_reducible rw [State.dramTraffic_still] | with_reducible rw [State.noteCorrected_still] | with_reducible rw [State.noteBad_still] | split | dsimp only)

theorem State.chanRead_ok (a0 a1 a2 a3) (h : Still.ok a0.still) : Still.ok (State.chanRead a0 a1 a2 a3).1.still := by
  unfold State.chanRead; repeat' (first | with_reducible assumption | with_reducible apply State.decodeLine_ok | split)

theorem State.lineFetch_ok (a0 a1 a2 a3) (h : Still.ok a0.still) : Still.ok (State.lineFetch a0 a1 a2 a3).1.still := by
  unfold State.lineFetch; repeat' (first | with_reducible assumption | with_reducible apply State.mapCheck_ok | with_reducible apply State.chanRead_ok | with_reducible refine ok_of_eq (by assumption) ?_ | split | dsimp only)

theorem State.writeBase_ok (a0 a1 a2 a3 a4 a5 a6 a7 a8) (h : Still.ok a0.still) : Still.ok (State.writeBase a0 a1 a2 a3 a4 a5 a6 a7 a8).1.still := by
  unfold State.writeBase; repeat' (first | with_reducible assumption | with_reducible apply State.lineFetch_ok | with_reducible rw [State.countSectors_still] | with_reducible refine ok_of_eq (by assumption) ?_ | split)

theorem State.clearCourses_ok (a0 a1 a2 a3) (h : Still.ok a0.still) : Still.ok (State.clearCourses a0 a1 a2 a3).still := by
  unfold State.clearCourses; repeat' (first | with_reducible assumption | with_reducible apply State.mapCheck_ok | with_reducible apply State.writeMap_ok | split)

theorem State.openShare_ok (a0 a1 a2) (h : Still.ok a0.still) : Still.ok (State.openShare a0 a1 a2).still := by
  unfold State.openShare; repeat' (first | with_reducible assumption | with_reducible refine foldl_ok _ (fun s b h => ?_) _ _ ?_ | with_reducible apply State.clearCourses_ok | with_reducible rw [State.bitmapWrite_still] | split | (simp only [still_mk, still_eta]))

theorem State.sectorLost_ok (a0 a1 a2 a3 a4) (h : Still.ok a0.still) : Still.ok (State.sectorLost a0 a1 a2 a3 a4).still := by
  unfold State.sectorLost; repeat' (first | with_reducible assumption | with_reducible apply State.poisonLine_ok | with_reducible apply State.openShare_ok | with_reducible rw [State.dropWay_still] | with_reducible rw [State.dropReplica_still] | with_reducible rw [State.raise_still] | with_reducible rw [State.updWay_still] | split | (simp only [still_mk, still_eta]))

theorem State.checkSector_ok (a0 a1 a2 a3 a4) (h : Still.ok a0.still) : Still.ok (State.checkSector a0 a1 a2 a3 a4).still := by
  unfold State.checkSector; repeat' (first | with_reducible assumption | with_reducible apply State.sectorLost_ok | with_reducible rw [State.cacheCorrected_still] | with_reducible rw [State.updWay_still] | split | dsimp only)

theorem State.checkSectors_ok (a0 a1 a2 a3 a4) (h : Still.ok a0.still) : Still.ok (State.checkSectors a0 a1 a2 a3 a4).still := by
  unfold State.checkSectors; repeat' (first | with_reducible assumption | with_reducible refine foldl_ok _ (fun s b h => ?_) _ _ ?_ | with_reducible apply State.checkSector_ok)

theorem State.writeStored_ok (a0 a1 a2 a3) (h : Still.ok a0.still) : Still.ok (State.writeStored a0 a1 a2 a3).still := by
  unfold State.writeStored; repeat' (first | with_reducible assumption | with_reducible apply State.writeCoded_ok)

theorem State.chanWrite_ok (a0 a1 a2 a3 a4) (h : Still.ok a0.still) : Still.ok (State.chanWrite a0 a1 a2 a3 a4).1.still := by
  unfold State.chanWrite; repeat' (first | with_reducible assumption | with_reducible apply State.mapCheck_ok | with_reducible apply State.openShare_ok | with_reducible apply State.setLineState_ok | with_reducible apply State.writeStored_ok | with_reducible apply State.decodeLine_ok | with_reducible refine ok_of_eq (by assumption) ?_ | split | dsimp only)

theorem State.writeBackWay_ok (a0 a1 a2 a3) (h : Still.ok a0.still) : Still.ok (State.writeBackWay a0 a1 a2 a3).still := by
  unfold State.writeBackWay; repeat' (first | with_reducible assumption | with_reducible apply State.checkSectors_ok | with_reducible apply State.chanWrite_ok | with_reducible apply State.setLineState_ok | with_reducible apply State.writeStored_ok | with_reducible apply State.openShare_ok | with_reducible rw [State.updWay_still] | with_reducible rw [State.raise_still] | split | dsimp only)

theorem State.evictWay_ok (a0 a1 a2 a3) (h : Still.ok a0.still) : Still.ok (State.evictWay a0 a1 a2 a3).still := by
  simp only [State.evictWay, still_ite, ite_self, State.writeBackWay_ok, State.dropReplica_still, State.dropWay_still, h]

theorem State.claimWay_ok (a0 a1 a2 a3) (h : Still.ok a0.still) : Still.ok (State.claimWay a0 a1 a2 a3).1.still := by
  simp only [State.claimWay, State.evictWay_ok, State.countBypass_still, h] <;> (repeat' split) <;> (simp only [State.evictWay_ok, State.countBypass_still, h]; done)

theorem State.writePlace_ok (a0 a1 a2 a3 a4 a5 a6 a7) (h : Still.ok a0.still) : Still.ok (State.writePlace a0 a1 a2 a3 a4 a5 a6 a7).1.still := by
  simp only [State.writePlace, State.claimWay_ok, State.installWay_still, h] <;> (repeat' split) <;> (first | with_reducible exact h | (rename_i h1; cases congrArg Prod.fst h1; (simp only [State.claimWay_ok, State.installWay_still, h]; done)))

theorem State.writeInto_ok (a0 a1 a2 a3 a4 a5 a6 a7 a8 a9) (h : Still.ok a0.still) : Still.ok (State.writeInto a0 a1 a2 a3 a4 a5 a6 a7 a8 a9).1.still := by
  simp only [State.writeInto, State.putSectors_still, State.updWay_still, State.touchWay_still, State.tagWrite_still, State.chanWrite_ok, h] <;> (repeat' split) <;> (simp only [State.putSectors_still, State.updWay_still, State.touchWay_still, State.tagWrite_still, State.chanWrite_ok, h]; done)

theorem State.logDevice_ok (a0 a1 a2 a3) (h : Still.ok a0.still) : Still.ok (State.logDevice a0 a1 a2 a3).still := by
  simp only [State.logDevice, State.logCourse_ok, h]

theorem State.writeSectors_ok (a0 a1 a2 a3 a4 a5 a6) (h : Still.ok a0.still) : Still.ok (State.writeSectors a0 a1 a2 a3 a4 a5 a6).1.still := by
  unfold State.writeSectors; repeat' (first | with_reducible assumption | with_reducible refine foldl_ok _ (fun s b h => ?_) _ _ ?_ | with_reducible refine foldl_ok1 _ (fun s b h => ?_) _ _ ?_ | with_reducible apply State.writeBase_ok | with_reducible apply State.writePlace_ok | with_reducible apply State.writeInto_ok | with_reducible apply State.logDevice_ok | with_reducible refine ok_of_eq (by assumption) ?_ | split | (intro _ _) | dsimp only | (simp only [still_mk, still_eta]))

theorem State.checkFound_ok (a0 a1 a2 a3) (h : Still.ok a0.still) : Still.ok (State.checkFound a0 a1 a2 a3).still := by
  unfold State.checkFound; repeat' (first | with_reducible assumption | with_reducible apply State.checkSectors_ok | split)

theorem State.ucWrite_ok (a0 a1 a2 a3 a4 a5) (h : Still.ok a0.still) : Still.ok (State.ucWrite a0 a1 a2 a3 a4 a5).1.still := by
  unfold State.ucWrite; repeat' (first | with_reducible assumption | with_reducible apply State.writeSectors_ok | with_reducible apply State.checkFound_ok | with_reducible rw [State.checkTags_still] | split | dsimp only)

theorem State.writeAt_ok (a0 a1 a2 a3 a4 a5 a6) (h : Still.ok a0.still) : Still.ok (State.writeAt a0 a1 a2 a3 a4 a5 a6).1.still := by
  unfold State.writeAt; repeat' (first | with_reducible assumption | with_reducible apply State.ucWrite_ok | with_reducible rw [State.bulk_still] | with_reducible rw [State.settleDir_still] | with_reducible rw [State.holdWrite_still] | split | dsimp only)

theorem State.lineWrite_ok (a0 a1 a2 a3 a4 a5) (h : Still.ok a0.still) : Still.ok (State.lineWrite a0 a1 a2 a3 a4 a5).1.still := by
  simp only [State.lineWrite, State.writeAt_ok, h]

theorem State.trial_ok (a0 a1) (ha1 : ∀ b0, Still.ok b0.still → Still.ok (a1 b0).still) (h : Still.ok a0.still) : Still.ok (State.trial a0 a1).still := by
  unfold State.trial; repeat' (first | with_reducible assumption | with_reducible apply ha1 | (simp only [still_mk, still_eta]))

theorem State.replicaHit_ok (a0 a1 a2 a3 t b) (h0 : State.replicaHit a0 a1 a2 a3 = some (t, b)) (h : Still.ok a0.still) : Still.ok t.still := by
  unfold State.replicaHit at h0; extract_lets q s1 at h0; have e : Still.ok s1.still := (by simp only [s1]; split; exact State.checkSectors_ok _ _ _ _ _ h; exact h); clear_value s1; split at h0; rotate_left; exact nomatch h0; dsimp only at h0; split at h0; rotate_left; exact nomatch h0; have h2 := congrArg Prod.fst (Option.some.inj h0); dsimp only at h2; rw [← h2, State.countSectors_still, State.touchWay_still]; exact e

theorem State.serveOther_ok (a0 a1 a2 a3 a4 a5) (h : Still.ok a0.still) : Still.ok (State.serveOther a0 a1 a2 a3 a4 a5).still := by
  unfold State.serveOther; repeat' (first | with_reducible assumption | with_reducible refine foldl_ok _ (fun s b h => ?_) _ _ ?_ | with_reducible refine foldl_ok1 _ (fun s b h => ?_) _ _ ?_ | with_reducible rw [State.answerReq_still] | with_reducible rw [State.checkTags_still] | with_reducible rw [State.answerRead_still] | with_reducible rw [State.sendData_still] | with_reducible rw [State.enterReq_still] | with_reducible rw [State.setReq_still] | with_reducible refine State.replicaHit_ok _ _ _ _ _ _ (by assumption) ?_ | with_reducible refine ok_of_eq (by assumption) ?_ | split | (intro _ _) | dsimp only | (simp only [still_mk, still_eta]))

theorem State.readInstall_ok (a0 a1 a2 a3 a4 a5 a6 a7 a8) (h : Still.ok a0.still) : Still.ok (State.readInstall a0 a1 a2 a3 a4 a5 a6 a7 a8).still := by
  simp only [State.readInstall, State.updWay_still, State.putSectors_still, State.touchWay_still, State.tagWrite_still, State.claimWay_ok, State.installWay_still, h] <;> (repeat' split) <;> (first | (simp only [State.updWay_still, State.putSectors_still, State.touchWay_still, State.tagWrite_still, State.claimWay_ok, State.installWay_still, h]; done) | (rename_i h1; cases congrArg Prod.fst h1; (simp only [State.updWay_still, State.putSectors_still, State.touchWay_still, State.tagWrite_still, State.claimWay_ok, State.installWay_still, h]; done)))

theorem State.readFetched_ok (a0 a1 a2 a3 a4 a5 a6 a7 a8 a9 a10) (h : Still.ok a0.still) : Still.ok (State.readFetched a0 a1 a2 a3 a4 a5 a6 a7 a8 a9 a10).1.still := by
  simp only [State.readFetched, still_ite, ite_self, State.countSectors_still, State.countRar_still, State.readInstall_ok, h]

theorem State.readMiss_ok (a0 a1 a2 a3 a4) (h : Still.ok a0.still) : Still.ok (State.readMiss a0 a1 a2 a3 a4).1.still := by
  unfold State.readMiss; repeat' (first | with_reducible assumption | with_reducible apply State.lineFetch_ok | with_reducible apply State.readFetched_ok | with_reducible refine ok_of_eq (by assumption) ?_ | split)

theorem State.ucRead_ok (a0 a1 a2 a3) (h : Still.ok a0.still) : Still.ok (State.ucRead a0 a1 a2 a3).1.still := by
  unfold State.ucRead; repeat' (first | with_reducible assumption | with_reducible apply State.checkFound_ok | with_reducible apply State.readMiss_ok | with_reducible rw [State.checkTags_still] | with_reducible rw [State.readHit_still] | split | dsimp only)

theorem State.applyRead_ok (a0 a1 a2 a3 a4) (h : Still.ok a0.still) : Still.ok (State.applyRead a0 a1 a2 a3 a4).still := by
  unfold State.applyRead; repeat' (first | with_reducible assumption | with_reducible refine foldl_ok _ (fun s b h => ?_) _ _ ?_ | with_reducible refine foldl_ok1 _ (fun s b h => ?_) _ _ ?_ | with_reducible apply State.ucRead_ok | with_reducible rw [State.sendData_still] | with_reducible rw [State.sendAcross_still] | with_reducible rw [State.answerRead_still] | with_reducible rw [State.badRead_still] | with_reducible rw [State.answerReq_still] | with_reducible refine ok_of_eq (by assumption) ?_ | split | (intro _ _) | dsimp only | (simp only [still_mk, still_eta]))

theorem State.applyWrite_ok (a0 a1 a2 a3 a4) (h : Still.ok a0.still) : Still.ok (State.applyWrite a0 a1 a2 a3 a4).still := by
  unfold State.applyWrite; extract_lets b; have e0 : Still.ok b.still := (by simp only [b, State.bulk_still]; exact h); clear_value b; have e := State.ucWrite_ok b a3 a4 (reqData a2.tva a2.accs) (reqMask a2.tva a2.accs) true e0; generalize b.ucWrite a3 a4 (reqData a2.tva a2.accs) (reqMask a2.tva a2.accs) true = y at e ⊢; obtain ⟨t, r⟩ := y; dsimp only at e ⊢; cases r <;> dsimp only <;> (repeat' split) <;> (try simp only [State.answerReq_still, State.poisonWrite_still]) <;> exact e

theorem State.atomicWrite_ok (a0 a1 a2 a3 a4 a5 a6 a7) (h : Still.ok a0.still) : Still.ok (State.atomicWrite a0 a1 a2 a3 a4 a5 a6 a7).1.still := by
  simp only [State.atomicWrite, State.ucWrite_ok, h] <;> (repeat' split) <;> (rename_i h1; cases congrArg Prod.fst h1; (simp only [State.ucWrite_ok, h]; done))

theorem State.atomicHome_ok (a0 a1 a2 a3 a4 a5 a6 a7 a8) (h : Still.ok a0.still) : Still.ok (State.atomicHome a0 a1 a2 a3 a4 a5 a6 a7 a8).1.still := by
  simp only [State.atomicHome, State.ucRead_ok, State.atomicWrite_ok, h] <;> (repeat' split) <;> (first | (rename_i h1; cases congrArg Prod.fst h1; (simp only [State.ucRead_ok, State.atomicWrite_ok, h]; done)) | (rename_i h1 _; cases congrArg Prod.fst h1; (simp only [State.ucRead_ok, State.atomicWrite_ok, h]; done)))

theorem State.atomicAt_ok (a0 a1 a2 a3 a4 a5 a6) (h : Still.ok a0.still) : Still.ok (State.atomicAt a0 a1 a2 a3 a4 a5 a6).1.still := by
  simp only [State.atomicAt, State.atomicHome_ok, h]

theorem State.applyAtomic_ok (a0 a1 a2 a3 a4 a5 a6 a7) (h : Still.ok a0.still) : Still.ok (State.applyAtomic a0 a1 a2 a3 a4 a5 a6 a7).still := by
  unfold State.applyAtomic; extract_lets b; have e0 : Still.ok b.still := (by simp only [b, State.bulk_still]; exact h); clear_value b; have e := State.atomicAt_ok b (a2.dpa + a2.tva % 128) a2.atomicSize a4 a5 a6.toNat a7.toNat e0; generalize b.atomicAt (a2.dpa + a2.tva % 128) a2.atomicSize a4 a5 a6.toNat a7.toNat = y at e ⊢; obtain ⟨t, r⟩ := y; dsimp only at e ⊢; cases r <;> dsimp only <;> (repeat' split) <;> (try simp only [State.answerReq_still, State.badRead_still, State.faultReq_still, State.poisonWrite_still]) <;> exact e

theorem State.applyReq_ok (a0 a1 a2) (h : Still.ok a0.still) : Still.ok (State.applyReq a0 a1 a2).still := by
  unfold State.applyReq; repeat' (first | with_reducible assumption | with_reducible apply State.applyRead_ok | with_reducible apply State.applyWrite_ok | with_reducible apply State.applyAtomic_ok | with_reducible rw [State.onBehalf_still] | split)

theorem State.serveHome_ok (a0 a1 a2 a3 a4) (h : Still.ok a0.still) : Still.ok (State.serveHome a0 a1 a2 a3 a4).still := by
  unfold State.serveHome; repeat' (first | with_reducible assumption | with_reducible apply State.applyReq_ok | with_reducible rw [State.answerReq_still] | with_reducible rw [State.waitReq_still] | with_reducible rw [State.askInvalidate_still] | split)

theorem State.serveReq_ok (a0 a1) (h : Still.ok a0.still) : Still.ok (State.serveReq a0 a1).still := by
  unfold State.serveReq; repeat' (first | with_reducible assumption | with_reducible apply State.serveOther_ok | with_reducible apply State.serveHome_ok | with_reducible rw [State.answerReq_still] | with_reducible rw [State.onBehalf_still] | split | dsimp only)

theorem State.serveOrQueue_ok (a0 a1) (h : Still.ok a0.still) : Still.ok (State.serveOrQueue a0 a1).still := by
  unfold State.serveOrQueue; repeat' (first | with_reducible assumption | with_reducible apply State.trial_ok | with_reducible apply State.serveReq_ok | with_reducible rw [State.updChan_still] | with_reducible rw [State.enterReq_still] | with_reducible rw [State.waitReq_still] | split | (intro _ _) | (simp only [still_mk, still_eta]))

theorem serveList_ok (a0 a1 a2) (h : Still.ok a2.still) : Still.ok (serveList a0 a1 a2).still := by
  induction a1 generalizing a2 with
  | nil => (unfold serveList; repeat' (with_reducible assumption))
  | cons x t ih => (unfold serveList; repeat' (first | with_reducible assumption | with_reducible apply ih | with_reducible refine foldl_ok _ (fun s b h => ?_) _ _ ?_ | with_reducible refine foldl_ok1 _ (fun s b h => ?_) _ _ ?_ | with_reducible apply State.serveOrQueue_ok | with_reducible rw [State.unwaitReq_still] | with_reducible refine ok_of_eq (by assumption) ?_ | split | (intro _ _) | dsimp only | (simp only [still_mk, still_eta])))

theorem State.serveWaiting_ok (a0 a1) (h : Still.ok a0.still) : Still.ok (State.serveWaiting a0 a1).still := by
  simp only [State.serveWaiting, serveList_ok, h]

theorem landPieces_ok (a0 a1 a2 a3 a4) (h : Still.ok a4.still) : Still.ok (landPieces a0 a1 a2 a3 a4).1.still := by
  induction a2 generalizing a3 a4 with | nil => exact h | cons x l ih => (obtain ⟨a, n⟩ := x; unfold landPieces; split; exact ih _ _ h; (dsimp only; rename_i r _; have e := State.lineWrite_ok a4 (r.toDpa a / 128 * 128) (List.replicate (a % 128) 0 ++ a3.take n) (maskOf (a % 128) n) true (placeOf (unitPort a0)) h; generalize a4.lineWrite _ _ _ _ _ = y at e ⊢; obtain ⟨t, z⟩ := y; dsimp only at e; cases z with | ok => exact ih _ _ (State.serveWaiting_ok _ _ e) | poison => exact ih _ _ (State.serveWaiting_ok _ _ (by rw [State.raise_still]; exact e)) | shield d i => exact e))

theorem State.landBytes_ok (a0 a1 a2 a3 a4) (h : Still.ok a0.still) : Still.ok (State.landBytes a0 a1 a2 a3 a4).1.still := by
  unfold State.landBytes; repeat' (first | with_reducible assumption | with_reducible apply landPieces_ok | with_reducible rw [State.setBuffer_still] | with_reducible rw [State.inClass_still] | split)

theorem State.rxMember_ok (a0 a1 a2 a3 a4) (h : Still.ok a0.still) : Still.ok (State.rxMember a0 a1 a2 a3 a4).still := by
  simp only [State.rxMember, still_mk, still_eta, State.countSweld_still, State.landBytes_ok, State.setIn_still, State.abortIn_still, h] <;> (repeat' split) <;> (first | (simp only [still_mk, still_eta, State.countSweld_still, State.landBytes_ok, State.setIn_still, State.abortIn_still, h]; done) | (rename_i h1; cases congrArg Prod.fst h1; (simp only [still_mk, still_eta, State.countSweld_still, State.landBytes_ok, State.setIn_still, State.abortIn_still, h]; done)))

theorem State.rxMsg_ok (a0 a1 a2) (h : Still.ok a0.still) : Still.ok (State.rxMsg a0 a1 a2).still := by
  simp only [State.rxMsg, still_ite, still_ok_ite, ite_self, State.rxOpen_still, State.rxOpenAck_still, State.rxRefuse_still, State.rxMember_ok, State.rxCapstone_still, State.rxLanded_still, State.rxCapDone_still, State.rxClose_still, State.rxAbort_still, State.rxBeacon_still, h]

theorem takeMsgs_ok (a0 a1 a2 a3) (h : Still.ok a3.still) : Still.ok (takeMsgs a0 a1 a2 a3).1.still := by
  induction a1 generalizing a2 a3 with
  | zero => simp only [takeMsgs, h]
  | succ k ih => simp only [takeMsgs, State.malformed_still, State.rxMsg_ok, h, ih] <;> (repeat' split) <;> (simp only [State.malformed_still, State.rxMsg_ok, h, ih]; done)

theorem State.acceptFlit_ok (a0 a1 a2 a3) (h : Still.ok a0.still) : Still.ok (State.acceptFlit a0 a1 a2 a3).still := by
  simp only [State.acceptFlit, State.updPort_still, takeMsgs_ok, h]

theorem State.corruptLine_ok (a0 a1 a2 a3) (h : Still.ok a0.still) : Still.ok (State.corruptLine a0 a1 a2 a3).still := by
  simp only [State.corruptLine, still_ite, still_ok_ite, ite_self, State.storeWord_ok, h]

theorem State.addErrors_ok (a0 a1 a2 a3) (h : Still.ok a0.still) : Still.ok (State.addErrors a0 a1 a2 a3).still := by
  simp only [State.addErrors, still_ite, still_ok_ite, ite_self, State.corruptLine_ok, h]

theorem State.homeRead_ok (a0 a1 a2 a3 a4) (h : Still.ok a0.still) : Still.ok (State.homeRead a0 a1 a2 a3 a4).1.still := by
  unfold State.homeRead; repeat' (first | with_reducible assumption | with_reducible apply State.ucRead_ok | with_reducible rw [State.holdRead_still] | with_reducible rw [State.sendData_still] | with_reducible refine ok_of_eq (by assumption) ?_ | split)

theorem State.installReplica_ok (a0 a1 a2) (h : Still.ok a0.still) : Still.ok (State.installReplica a0 a1 a2).1.still := by
  unfold State.installReplica; repeat' (first | with_reducible assumption | with_reducible apply State.checkFound_ok | with_reducible apply State.claimWay_ok | with_reducible rw [State.carry_still] | with_reducible rw [State.touchWay_still] | with_reducible rw [State.putSectors_still] | with_reducible rw [State.installWay_still] | with_reducible refine ok_of_eq (by assumption) ?_ | split | dsimp only)

theorem State.partnerRead_ok (a0 a1 a2 a3 a4) (h : Still.ok a0.still) : Still.ok (State.partnerRead a0 a1 a2 a3 a4).1.still := by
  unfold State.partnerRead; repeat' (first | with_reducible assumption | with_reducible refine foldl_ok _ (fun s b h => ?_) _ _ ?_ | with_reducible refine foldl_ok1 _ (fun s b h => ?_) _ _ ?_ | with_reducible apply State.ucRead_ok | with_reducible apply State.installReplica_ok | with_reducible rw [State.holdRead_still] | with_reducible rw [State.sendData_still] | with_reducible rw [State.updWay_still] | with_reducible rw [State.sendAcross_still] | with_reducible refine ok_of_eq (by assumption) ?_ | split | (intro _ _) | dsimp only | (simp only [still_mk, still_eta]))

theorem State.otherRead_ok (a0 a1 a2 a3 a4) (h : Still.ok a0.still) : Still.ok (State.otherRead a0 a1 a2 a3 a4).1.still := by
  unfold State.otherRead; repeat' (first | with_reducible assumption | with_reducible refine foldl_ok _ (fun s b h => ?_) _ _ ?_ | with_reducible refine foldl_ok1 _ (fun s b h => ?_) _ _ ?_ | with_reducible apply State.partnerRead_ok | with_reducible rw [State.checkTags_still] | with_reducible rw [State.sendData_still] | with_reducible refine State.replicaHit_ok _ _ _ _ _ _ (by assumption) ?_ | with_reducible refine ok_of_eq (by assumption) ?_ | split | (intro _ _) | dsimp only | (simp only [still_mk, still_eta]))

theorem State.lineRead_ok (a0 a1 a2 a3 a4) (h : Still.ok a0.still) : Still.ok (State.lineRead a0 a1 a2 a3 a4).1.still := by
  simp only [State.lineRead, still_ite, still_ok_ite, ite_self, apply_ite Prod.fst, State.homeRead_ok, State.otherRead_ok, h]

theorem State.agReadPiece_ok (a0 a1 a2 a3 a4) (h : Still.ok a0.still) : Still.ok (State.agReadPiece a0 a1 a2 a3 a4).1.still := by
  simp only [State.agReadPiece, State.lineRead_ok, State.agFault_still, State.agAbort_still, h] <;> (repeat' split) <;> (first | (rename_i h1; cases congrArg Prod.fst h1; (simp only [State.lineRead_ok, State.agFault_still, State.agAbort_still, h]; done)) | (rename_i h1 _; cases congrArg Prod.fst h1; (simp only [State.lineRead_ok, State.agFault_still, State.agAbort_still, h]; done)))

theorem agReadPieces_ok (a0 a1 a2 a3) (h : Still.ok a3.still) : Still.ok (agReadPieces a0 a1 a2 a3).1.still := by
  induction a1 generalizing a2 a3 with
  | nil => simp only [agReadPieces, h]
  | cons x t ih => simp only [agReadPieces, State.agDpa_still, State.agReadPiece_ok, h, ih] <;> (repeat' split) <;> (first | (rename_i h1; cases congrArg Prod.fst h1; (simp only [State.agDpa_still, State.agReadPiece_ok, h, ih]; done)) | (rename_i h1 _ _ h0; cases congrArg Prod.fst h1; cases congrArg Prod.fst h0; (simp only [State.agDpa_still, State.agReadPiece_ok, h, ih]; done)) | (rename_i h1 _ _ _ h0; cases congrArg Prod.fst h1; cases congrArg Prod.fst h0; (simp only [State.agDpa_still, State.agReadPiece_ok, h, ih]; done)))

theorem State.agRead_ok (a0 a1 a2 a3) (h : Still.ok a0.still) : Still.ok (State.agRead a0 a1 a2 a3).1.still := by
  unfold State.agRead; repeat' (first | with_reducible assumption | with_reducible apply agReadPieces_ok | with_reducible rw [State.onBehalf_still])

theorem readParts_ok (a0 a1 a2 a3) (h : Still.ok a3.still) : Still.ok (readParts a0 a1 a2 a3).1.still := by
  induction a2 generalizing a3 with
  | nil => (unfold readParts; repeat' (with_reducible assumption))
  | cons x t ih => (unfold readParts; repeat' (first | with_reducible assumption | with_reducible apply ih | with_reducible refine foldl_ok _ (fun s b h => ?_) _ _ ?_ | with_reducible refine foldl_ok1 _ (fun s b h => ?_) _ _ ?_ | with_reducible apply State.agRead_ok | with_reducible refine ok_of_eq (by assumption) ?_ | split | (intro _ _) | dsimp only | (simp only [still_mk])))

theorem State.loadParts_ok (a0 a1 a2 a3) (h : Still.ok a0.still) : Still.ok (State.loadParts a0 a1 a2 a3).1.still := by
  unfold State.loadParts; repeat' (first | with_reducible assumption | with_reducible apply readParts_ok | split)

theorem State.afterLoad_ok (a0 a1 a2 a3 a4) (ha4 : ∀ b0, Still.ok b0.still → Still.ok (a4 b0).still) (h : Still.ok a0.still) : Still.ok (State.afterLoad a0 a1 a2 a3 a4).still := by
  unfold State.afterLoad; repeat' (first | with_reducible assumption | with_reducible apply ha4 | with_reducible apply State.loadParts_ok | with_reducible refine ok_of_eq (by assumption) ?_ | split)

theorem State.agWritePiece_ok (a0 a1 a2 a3 a4 a5 a6) (h : Still.ok a0.still) : Still.ok (State.agWritePiece a0 a1 a2 a3 a4 a5 a6).1.still := by
  simp only [State.agWritePiece, State.lineWrite_ok, State.serveWaiting_ok, State.poisonWrite_still, State.agAbort_still, h] <;> (repeat' split) <;> (rename_i h1; cases congrArg Prod.fst h1; (simp only [State.lineWrite_ok, State.serveWaiting_ok, State.poisonWrite_still, State.agAbort_still, h]; done))

theorem agWritePieces_ok (a0 a1 a2 a3 a4) (h : Still.ok a4.still) : Still.ok (agWritePieces a0 a1 a2 a3 a4).1.still := by
  induction a2 generalizing a3 a4 with
  | nil => simp only [agWritePieces, h]
  | cons x t ih => simp only [agWritePieces, State.agDpa_still, State.agWritePiece_ok, h, ih] <;> (repeat' split) <;> (first | (rename_i h1; cases congrArg Prod.fst h1; (simp only [State.agDpa_still, State.agWritePiece_ok, h, ih]; done)) | (rename_i h1 _ _ h0; cases congrArg Prod.fst h1; cases congrArg Prod.fst h0; (simp only [State.agDpa_still, State.agWritePiece_ok, h, ih]; done)))

theorem State.agWrite_ok (a0 a1 a2 a3) (h : Still.ok a0.still) : Still.ok (State.agWrite a0 a1 a2 a3).1.still := by
  unfold State.agWrite; repeat' (first | with_reducible assumption | with_reducible apply agWritePieces_ok | with_reducible rw [State.onBehalf_still])

theorem State.writeSaved_ok (a0 a1 a2 a3) (h : Still.ok a0.still) : Still.ok (State.writeSaved a0 a1 a2 a3).1.still := by
  unfold State.writeSaved; repeat' (first | with_reducible assumption | with_reducible apply State.agWrite_ok | (simp only [still_mk, still_eta]))

theorem State.savePart_ok (a0 a1 a2 a3) (h : Still.ok a0.still) : Still.ok (State.savePart a0 a1 a2 a3).1.still := by
  unfold State.savePart; repeat' (first | with_reducible assumption | with_reducible apply State.writeSaved_ok | split | dsimp only)

theorem State.afterSave_ok (a0 a1 a2 a3 a4) (ha4 : ∀ b0, Still.ok b0.still → Still.ok (a4 b0).still) (h : Still.ok a0.still) : Still.ok (State.afterSave a0 a1 a2 a3 a4).still := by
  unfold State.afterSave; repeat' (first | with_reducible assumption | with_reducible apply ha4 | with_reducible apply State.savePart_ok | with_reducible refine ok_of_eq (by assumption) ?_ | split)

theorem State.agHostWrite_ok (a0 a1 a2 a3 a4) (h : Still.ok a0.still) : Still.ok (State.agHostWrite a0 a1 a2 a3 a4).1.still := by
  unfold State.agHostWrite; repeat' (first | with_reducible assumption | with_reducible apply State.tenantHostWrite_ok | with_reducible rw [State.updCmd_still] | with_reducible rw [State.bulk_still] | with_reducible rw [State.onBehalf_still] | with_reducible rw [State.agFault_still] | split | dsimp only)

theorem State.agStore_ok (a0 a1 a2 a3 a4) (h : Still.ok a0.still) : Still.ok (State.agStore a0 a1 a2 a3 a4).1.still := by
  simp only [State.agStore, still_ite, still_ok_ite, ite_self, apply_ite Prod.fst, State.agHostWrite_ok, State.agWrite_ok, h]

theorem State.applyAgain_ok (a0 a1) (h : Still.ok a0.still) : Still.ok (State.applyAgain a0 a1).still := by
  simp only [State.applyAgain, State.applyReq_ok, h] <;> (repeat' split) <;> (simp only [State.applyReq_ok, h]; done)

theorem State.applyRemap_ok (a0 a1 a2 a3) (h : Still.ok a0.still) : Still.ok (State.applyRemap a0 a1 a2 a3).still := by
  simp only [State.applyRemap, still_ite, still_ok_ite, ite_self, State.dramStore_ok, State.updChan_still, h]

theorem State.applyEntry_ok (a0 a1 a2 a3 a4) (h : Still.ok a0.still) : Still.ok (State.applyEntry a0 a1 a2 a3 a4).still := by
  simp only [State.applyEntry, still_mk, still_eta, still_ite, still_ok_ite, ite_self, State.raise_still, State.applyRemap_ok, State.applyPinKill_still, h]

theorem State.applyMatch_ok {α : Type} (a0 : State) (m : Match α) (f : State → α → Nat → State) (b : State → State) (v : Nat) (hf : ∀ s r v, Still.ok s.still → Still.ok (f s r v).still) (hb : ∀ s, Still.ok s.still → Still.ok (b s).still) (h : Still.ok a0.still) : Still.ok (State.applyMatch a0 m f b v).still := by
  unfold State.applyMatch; split; exact hf _ _ _ h; (extract_lets s1; have e : Still.ok s1.still := (by simp only [s1]; split; exact hf _ _ _ h; exact h); clear_value s1; split; exact hf _ _ _ e; exact e); exact hb _ h

theorem applyEntries_ok (a0 a1 a2 a3 a4) (h : Still.ok a4.still) : Still.ok (applyEntries a0 a1 a2 a3 a4).still := by
  induction a3 generalizing a2 a4 with
  | nil => (unfold applyEntries; repeat' (with_reducible assumption))
  | cons x t ih => (unfold applyEntries; repeat' (first | with_reducible assumption | with_reducible apply ih | with_reducible refine foldl_ok _ (fun s b h => ?_) _ _ ?_ | with_reducible refine foldl_ok1 _ (fun s b h => ?_) _ _ ?_ | with_reducible apply State.applyEntry_ok | with_reducible refine ok_of_eq (by assumption) ?_ | split | (intro _ _) | dsimp only | (simp only [still_mk])))

theorem State.applyRepairs_ok (a0 a1 a2) (h : Still.ok a0.still) : Still.ok (State.applyRepairs a0 a1 a2).still := by
  simp only [State.applyRepairs, applyEntries_ok, h]

theorem State.settled_ok (a0 a1) (ha1 : ∀ b0, Still.ok b0.still → Still.ok (a1 b0).still) (h : Still.ok a0.still) : Still.ok (State.settled a0 a1).still := by
  unfold State.settled; repeat' (first | with_reducible assumption | with_reducible refine foldl_ok _ (fun s b h => ?_) _ _ ?_ | with_reducible apply State.trial_ok | with_reducible rw [State.askInvalidate_still] | split | (simp only [still_mk, still_eta]))

theorem readImages_ok (a0 a1 a2) (h : Still.ok a2.still) : Still.ok (readImages a0 a1 a2).still := by
  induction a1 generalizing a2 with
  | nil => (unfold readImages; repeat' (with_reducible assumption))
  | cons x t ih => (unfold readImages; repeat' (first | with_reducible assumption | with_reducible apply ih | with_reducible refine foldl_ok _ (fun s b h => ?_) _ _ ?_ | with_reducible refine foldl_ok1 _ (fun s b h => ?_) _ _ ?_ | with_reducible apply State.agRead_ok | with_reducible refine ok_of_eq (by assumption) ?_ | split | (intro _ _) | dsimp only | (simp only [still_mk])))

theorem State.resumeImages_ok (a0 a1 a2) (h : Still.ok a0.still) : Still.ok (State.resumeImages a0 a1 a2).still := by
  unfold State.resumeImages; repeat' (first | with_reducible assumption | with_reducible refine foldl_ok _ (fun s b h => ?_) _ _ ?_ | with_reducible apply readImages_ok | with_reducible rw [State.cacheBlock_still] | with_reducible rw [State.takeUnit_still] | with_reducible rw [State.updCmd_still])

theorem State.resumeBay_ok (a0 a1 a2) (h : Still.ok a0.still) : Still.ok (State.resumeBay a0 a1 a2).still := by
  unfold State.resumeBay; repeat' (first | with_reducible assumption | with_reducible refine foldl_ok _ (fun s b h => ?_) _ _ ?_ | with_reducible apply readImages_ok | with_reducible rw [State.takeUnit_still] | with_reducible rw [State.cacheBlock_still] | with_reducible rw [State.l1DropClean_still] | with_reducible rw [State.resumeGang_still] | with_reducible rw [State.updCmd_still] | with_reducible rw [State.fillActive_still])

theorem State.perform_ok (a0 a1 a2) (h : Still.ok a0.still) : Still.ok (State.perform a0 a1 a2).1.still := by
  unfold State.perform; repeat' (first | with_reducible assumption | with_reducible apply State.settled_ok | with_reducible apply State.resumeImages_ok | with_reducible apply State.resumeBay_ok | with_reducible rw [State.endAtArbiter_still] | with_reducible rw [State.completeWith_still] | with_reducible rw [State.begin_still] | split | (intro _ _))

theorem State.arbEdge_ok (a0) (h : Still.ok a0.still) : Still.ok (State.arbEdge a0).still := by
  unfold State.arbEdge; repeat' (first | with_reducible assumption | with_reducible apply State.perform_ok | with_reducible rw [State.handleEffects_still] | with_reducible rw [State.managerOnEdge_still] | split | (simp only [still_mk, still_eta]))

theorem State.atPort_ok (a0 a1 a2) (ha2 : ∀ b0, Still.ok b0.still → Still.ok (a2 b0).still) (h : Still.ok a0.still) : Still.ok (State.atPort a0 a1 a2).still := by
  simp only [State.atPort, still_ite, still_ok_ite, ite_self, ha2, h]

theorem State.awaiting_ok (a0 a1 a2 a3) (ha3 : ∀ b0, Still.ok b0.still → Still.ok (a3 b0).still) (h : Still.ok a0.still) : Still.ok (State.awaiting a0 a1 a2 a3).still := by
  unfold State.awaiting; repeat' (first | with_reducible assumption | with_reducible apply ha3 | with_reducible rw [State.demote_still] | split)

theorem State.pageWrite_ok (a0 a1 a2 a3) (ha3 : ∀ b0, Still.ok b0.still → Still.ok (a3 b0).still) (h : Still.ok a0.still) : Still.ok (State.pageWrite a0 a1 a2 a3).still := by
  simp only [State.pageWrite, still_ite, still_ok_ite, ite_self, State.updSlice_still, ha3, h]

theorem State.bagSpan_ok (a0 a1 a2 a3) (h : Still.ok a0.still) : Still.ok (State.bagSpan a0 a1 a2 a3).1.still := by
  simp only [State.bagSpan, State.agRead_ok, State.agFault_still, h] <;> (repeat' split) <;> (first | (simp only [State.agRead_ok, State.agFault_still, h]; done) | (rename_i h1; cases congrArg Prod.fst h1; (simp only [State.agRead_ok, State.agFault_still, h]; done)) | (rename_i h1 _; cases congrArg Prod.fst h1; (simp only [State.agRead_ok, State.agFault_still, h]; done)))

theorem State.beginBag_ok (a0 a1 a2 a3 a4) (h : Still.ok a0.still) : Still.ok (State.beginBag a0 a1 a2 a3 a4).still := by
  simp only [State.beginBag, State.bagSpan_ok, State.updCmd_still, h] <;> (repeat' split) <;> (rename_i h1; cases congrArg Prod.fst h1; (simp only [State.bagSpan_ok, State.updCmd_still, h]; done))

theorem State.takeNow_ok (a0 a1 a2) (h : Still.ok a0.still) : Still.ok (State.takeNow a0 a1 a2).still := by
  unfold State.takeNow; repeat' (first | with_reducible assumption | with_reducible apply State.applyReq_ok | with_reducible rw [State.settleLine_still] | with_reducible rw [State.holdLine_still] | with_reducible rw [State.unwaitReq_still])

theorem State.landLine_ok (a0 a1 a2) (h : Still.ok a0.still) : Still.ok (State.landLine a0 a1 a2).still := by
  simp only [State.landLine, foldl_ok, implies_true, State.takeNow_ok, h] <;> (repeat' split) <;> (simp +contextual only [foldl_ok, implies_true, State.takeNow_ok, h]; done)

theorem State.l1PutBack_ok (a0 a1 a2 a3 a4 a5) (h : Still.ok a0.still) : Still.ok (State.l1PutBack a0 a1 a2 a3 a4 a5).1.still := by
  simp only [State.l1PutBack, foldl_still, implies_true, State.lineWrite_ok, State.serveWaiting_ok, State.poisonWrite_still, State.agAbort_still, h] <;> (repeat' split) <;> (rename_i h1; cases congrArg Prod.fst h1; (simp only [foldl_still, implies_true, State.lineWrite_ok, State.serveWaiting_ok, State.poisonWrite_still, State.agAbort_still, h]; done))

theorem State.l1WritePart_ok (a0 a1 a2 a3) (h : Still.ok a0.still) : Still.ok (State.l1WritePart a0 a1 a2 a3).1.still := by
  unfold State.l1WritePart; repeat' (first | with_reducible assumption | with_reducible apply State.landLine_ok | with_reducible apply State.l1PutBack_ok | with_reducible rw [State.setL1_still] | with_reducible rw [State.agDpa_still] | with_reducible rw [State.onBehalf_still] | with_reducible refine ok_of_eq (by assumption) ?_ | split | dsimp only)

theorem State.l1WriteMask_ok (a0 a1 a2 a3) (h : Still.ok a0.still) : Still.ok (State.l1WriteMask a0 a1 a2 a3).1.still := by
  unfold State.l1WriteMask; repeat' (first | with_reducible assumption | with_reducible refine foldl_ok _ (fun s b h => ?_) _ _ ?_ | with_reducible apply State.l1WritePart_ok | with_reducible rw [State.agAbort_still] | with_reducible refine ok_of_eq (by assumption) ?_ | split)

theorem State.l1WriteBack_ok (a0 a1 a2) (h : Still.ok a0.still) : Still.ok (State.l1WriteBack a0 a1 a2).1.still := by
  simp only [State.l1WriteBack, State.l1WriteMask_ok, h]

theorem State.l1Room_ok (a0 a1) (h : Still.ok a0.still) : Still.ok (State.l1Room a0 a1).still := by
  simp only [State.l1Room, still_ite, still_ok_ite, ite_self, State.drawChoice_still, State.dropL1_still, State.l1WriteBack_ok, h]

theorem State.l1Fill_ok (a0 a1 a2 a3 a4) (h : Still.ok a0.still) : Still.ok (State.l1Fill a0 a1 a2 a3 a4).still := by
  simp only [State.l1Fill, State.setL1_still, State.l1Room_ok, h] <;> (repeat' split) <;> (simp only [State.setL1_still, State.l1Room_ok, h]; done)

theorem State.deliverLoad_ok (a0 a1 a2 a3) (h : Still.ok a0.still) : Still.ok (State.deliverLoad a0 a1 a2 a3).still := by
  simp only [State.deliverLoad, still_ite, still_ok_ite, ite_self, State.l1Fill_ok, State.deliver_still, State.settleReq_still, h]

theorem State.doReadReply_ok (a0 a1 a2) (h : Still.ok a0.still) : Still.ok (State.doReadReply a0 a1 a2).still := by
  unfold State.doReadReply; repeat' (first | with_reducible assumption | with_reducible apply State.deliverLoad_ok | with_reducible rw [State.dropReq_still] | with_reducible rw [State.settleReq_still] | with_reducible rw [State.cmdFault_still] | with_reducible rw [State.bulk_still] | with_reducible rw [State.onBehalf_still] | with_reducible rw [State.count_still] | with_reducible rw [State.deliverAtomic_still] | split)

theorem State.landReqs_ok (a0 a1) (h : Still.ok a0.still) : Still.ok (State.landReqs a0 a1).still := by
  unfold State.landReqs; repeat' (first | with_reducible assumption | with_reducible refine foldl_ok _ (fun s b h => ?_) _ _ ?_ | with_reducible apply State.takeNow_ok | with_reducible apply State.doReadReply_ok | with_reducible rw [State.takeShield_still] | with_reducible rw [State.doWriteAck_still] | split)

theorem l1WriteBackAll_ok (a0 a1 a2) (h : Still.ok a2.still) : Still.ok (l1WriteBackAll a0 a1 a2).1.still := by
  induction a1 generalizing a2 with
  | nil => simp only [l1WriteBackAll, h]
  | cons x t ih => simp only [l1WriteBackAll, State.l1WriteBack_ok, h, ih]

theorem State.l1FlushCmd_ok (a0 a1 a2) (h : Still.ok a0.still) : Still.ok (State.l1FlushCmd a0 a1 a2).still := by
  simp only [State.l1FlushCmd, State.landEnded_still, l1WriteBackAll_ok, h]

theorem State.flushCmdL1_ok (a0 a1) (h : Still.ok a0.still) : Still.ok (State.flushCmdL1 a0 a1).still := by
  simp only [State.flushCmdL1, still_ite, still_ok_ite, foldl_ok, ite_self, implies_true, State.landEnded_still, State.l1FlushCmd_ok, h] <;> (repeat' split) <;> (simp +contextual only [still_ite, still_ok_ite, foldl_ok, ite_self, implies_true, State.landEnded_still, State.l1FlushCmd_ok, h]; done)

theorem State.beginTenantReset_ok (a0 a1 a2) (h : Still.ok a0.still) : Still.ok (State.beginTenantReset a0 a1 a2).still := by
  simp only [State.beginTenantReset, foldl_still, foldl_ok, implies_true, State.noteStart_still, State.landReqs_ok, State.flushCmdL1_ok, State.updSlice_still, State.abortSends_still, State.clearStreams_still, State.abortUndispatched_still, State.zeroBaysOf_still, State.completeWith_still, h] <;> (repeat' split) <;> (simp +contextual only [foldl_still, foldl_ok, implies_true, State.noteStart_still, State.landReqs_ok, State.flushCmdL1_ok, State.updSlice_still, State.abortSends_still, State.clearStreams_still, State.abortUndispatched_still, State.zeroBaysOf_still, State.completeWith_still, h]; done)

theorem State.bumpAt_ok (a0 a1 a2 a3) (h : Still.ok a0.still) : Still.ok (State.bumpAt a0 a1 a2 a3).still := by
  unfold State.bumpAt; repeat' (first | with_reducible assumption | with_reducible refine foldl_ok _ (fun s b h => ?_) _ _ ?_ | with_reducible refine foldl_ok1 _ (fun s b h => ?_) _ _ ?_ | with_reducible apply State.atomicAt_ok | with_reducible rw [State.settleDir_still] | with_reducible rw [State.holdWrite_still] | with_reducible rw [State.onBehalf_still] | with_reducible rw [State.agFault_still] | with_reducible rw [State.poisonWrite_still] | with_reducible rw [State.agAbort_still] | with_reducible refine ok_of_eq (by assumption) ?_ | split | (intro _ _) | dsimp only | (simp only [still_mk, still_eta]))

theorem State.bumpFlag_ok (a0 a1 a2) (h : Still.ok a0.still) : Still.ok (State.bumpFlag a0 a1 a2).still := by
  simp only [State.bumpFlag, State.bumpAt_ok, State.agFault_still, h] <;> (repeat' split) <;> (simp only [State.bumpAt_ok, State.agFault_still, h]; done)

theorem State.capFlag_ok (a0 a1 a2) (h : Still.ok a0.still) : Still.ok (State.capFlag a0 a1 a2).still := by
  unfold State.capFlag; repeat' (first | with_reducible assumption | with_reducible apply State.bumpFlag_ok | with_reducible rw [State.sendFlag_still] | split)

theorem State.readFlag_ok (a0 a1 a2) (h : Still.ok a0.still) : Still.ok (State.readFlag a0 a1 a2).still := by
  unfold State.readFlag; extract_lets c; have e := State.agRead_ok a0 (a0.quoinOf a1) (swFlagAddr c.block + 8 * a2) 8 h; generalize a0.agRead (a0.quoinOf a1) (swFlagAddr c.block + 8 * a2) 8 = ye at e ⊢; obtain ⟨t, z⟩ := ye; dsimp only at e ⊢; cases z with | none => exact e | some x => (dsimp only; split; (split; (simp only [still_mk, still_eta]; exact e); exact e); exact e)

theorem State.readFlags_ok (a0 a1 a2) (h : Still.ok a0.still) : Still.ok (State.readFlags a0 a1 a2).still := by
  simp only [State.readFlags, still_ite, still_ok_ite, foldl_ok, ite_self, implies_true, State.expectDone_still, State.readFlag_ok, h] <;> (repeat' split) <;> (simp +contextual only [still_ite, still_ok_ite, foldl_ok, ite_self, implies_true, State.expectDone_still, State.readFlag_ok, h]; done)

theorem State.flagBumped_ok (a0 a1 a2) (h : Still.ok a0.still) : Still.ok (State.flagBumped a0 a1 a2).still := by
  simp only [State.flagBumped, foldl_ok, implies_true, State.readFlags_ok, h] <;> (repeat' split) <;> (simp +contextual only [foldl_ok, implies_true, State.readFlags_ok, h]; done)

theorem State.remoteAdd_ok (a0 a1 a2 a3 a4) (h : Still.ok a0.still) : Still.ok (State.remoteAdd a0 a1 a2 a3 a4).1.still := by
  unfold State.remoteAdd; repeat' (first | with_reducible assumption | with_reducible apply State.atomicAt_ok | with_reducible apply State.flagBumped_ok | with_reducible apply State.serveWaiting_ok | with_reducible rw [State.settleDir_still] | with_reducible rw [State.holdWrite_still] | with_reducible rw [State.flagFault_still] | with_reducible refine ok_of_eq (by assumption) ?_ | split | dsimp only)

theorem State.remoteBump_ok (a0 a1 a2 a3) (h : Still.ok a0.still) : Still.ok (State.remoteBump a0 a1 a2 a3).1.still := by
  unfold State.remoteBump; repeat' (first | with_reducible assumption | with_reducible refine foldl_ok _ (fun s b h => ?_) _ _ ?_ | with_reducible refine foldl_ok1 _ (fun s b h => ?_) _ _ ?_ | with_reducible apply State.remoteAdd_ok | with_reducible rw [State.flagFault_still] | with_reducible refine ok_of_eq (by assumption) ?_ | split | (intro _ _) | dsimp only | (simp only [still_mk, still_eta]))

theorem State.capstoneDone_ok (a0 a1 a2 a3) (h : Still.ok a0.still) : Still.ok (State.capstoneDone a0 a1 a2 a3).still := by
  unfold State.capstoneDone; repeat' (first | with_reducible assumption | with_reducible apply State.remoteBump_ok | with_reducible rw [State.inClass_still] | with_reducible rw [State.capstoneSaid_still] | with_reducible rw [State.abortIn_still] | with_reducible refine ok_of_eq (by assumption) ?_ | split)

theorem State.writeImage_ok (a0 a1 a2 a3) (h : Still.ok a0.still) : Still.ok (State.writeImage a0 a1 a2 a3).still := by
  unfold State.writeImage; repeat' (first | with_reducible assumption | with_reducible apply State.writeSaved_ok)

theorem State.saveBay_ok (a0 a1 a2 a3) (h : Still.ok a0.still) : Still.ok (State.saveBay a0 a1 a2 a3).still := by
  unfold State.saveBay; repeat' (first | with_reducible assumption | with_reducible refine foldl_ok _ (fun s b h => ?_) _ _ ?_ | with_reducible refine foldl_ok1 _ (fun s b h => ?_) _ _ ?_ | with_reducible apply State.landReqs_ok | with_reducible apply State.l1FlushCmd_ok | with_reducible apply State.writeImage_ok | with_reducible rw [State.doLaunch_still] | with_reducible rw [State.updGang_still] | with_reducible rw [State.updCmd_still] | with_reducible rw [State.leaveBay_still] | with_reducible rw [State.settlePhase_still] | with_reducible rw [State.noteImage_still] | with_reducible refine ok_of_eq (by assumption) ?_ | split | (intro _ _) | dsimp only | (simp only [still_mk, still_eta]))

theorem State.saveUnit_ok (a0 a1 a2 a3) (h : Still.ok a0.still) : Still.ok (State.saveUnit a0 a1 a2 a3).still := by
  simp only [State.saveUnit, State.writeImage_ok, State.updCmd_still, State.noteImage_still, State.updBay_still, State.settlePhase_still, State.unholdBay_still, h] <;> (repeat' split) <;> (simp only [State.writeImage_ok, State.updCmd_still, State.noteImage_still, State.updBay_still, State.settlePhase_still, State.unholdBay_still, h]; done)

theorem State.carryStop_ok (a0 a1 a2) (h : Still.ok a0.still) : Still.ok (State.carryStop a0 a1 a2).still := by
  unfold State.carryStop; repeat' (first | with_reducible assumption | with_reducible apply State.saveBay_ok | with_reducible apply State.saveUnit_ok | with_reducible rw [State.signalUnits_still] | split | dsimp only)

theorem State.drainBay_ok (a0 a1) (h : Still.ok a0.still) : Still.ok (State.drainBay a0 a1).still := by
  simp only [State.drainBay, still_ite, foldl_still, foldl_ok, ite_self, implies_true, State.updBay_still, State.drawChoice_still, State.carryStop_ok, State.updCmd_still, State.cutBay_still, h] <;> (repeat' split) <;> (simp +contextual only [still_ite, foldl_still, foldl_ok, ite_self, implies_true, State.updBay_still, State.drawChoice_still, State.carryStop_ok, State.updCmd_still, State.cutBay_still, h]; done)

theorem State.powerNow_ok (a0 a1 a2) (h : Still.ok a0.still) : Still.ok (State.powerNow a0 a1 a2).still := by
  simp only [State.powerNow, State.powerUp_still, State.drainBay_ok, State.drainPort_still, h] <;> (repeat' split) <;> (simp only [State.powerUp_still, State.drainBay_ok, State.drainPort_still, h]; done)

theorem State.powerRequest_ok (a0 a1 a2) (h : Still.ok a0.still) : Still.ok (State.powerRequest a0 a1 a2).still := by
  simp only [State.powerRequest, still_mk, still_eta, State.refuseUnit_still, State.powerNow_ok, h] <;> (repeat' split) <;> (simp only [still_mk, still_eta, State.refuseUnit_still, State.powerNow_ok, h]; done)

theorem State.closeSplit_ok (a0 a1) (h : Still.ok a0.still) : Still.ok (State.closeSplit a0 a1).still := by
  unfold State.closeSplit <;> (refine foldl_ok _ (fun s b h => ?_) _ _ h) <;> (repeat' split) <;> (simp only [State.powerRequest_ok, h]; done)

theorem State.collect_ok (a0 a1) (h : Still.ok a0.still) : Still.ok (State.collect a0 a1).still := by
  unfold State.collect; repeat' (first | with_reducible assumption | with_reducible apply State.assignSeq_ok)

theorem readConst_ok (a0 a1 a2 a3) (h : Still.ok a3.still) : Still.ok (readConst a0 a1 a2 a3).still := by
  induction a2 generalizing a3 with
  | nil => (unfold readConst; repeat' (with_reducible assumption))
  | cons x t ih => (unfold readConst; repeat' (first | with_reducible assumption | with_reducible apply ih | with_reducible refine foldl_ok _ (fun s b h => ?_) _ _ ?_ | with_reducible refine foldl_ok1 _ (fun s b h => ?_) _ _ ?_ | with_reducible apply State.agRead_ok | with_reducible rw [State.fillConst_still] | with_reducible refine ok_of_eq (by assumption) ?_ | split | (intro _ _) | dsimp only | (simp only [still_mk])))

theorem State.constMiss_ok (a0 a1 a2 a3) (h : Still.ok a0.still) : Still.ok (State.constMiss a0 a1 a2 a3).still := by
  unfold State.constMiss; repeat' (first | with_reducible assumption | with_reducible refine foldl_ok _ (fun s b h => ?_) _ _ ?_ | with_reducible apply readConst_ok | with_reducible apply State.agRead_ok | with_reducible rw [State.takeBus_still] | with_reducible rw [State.fillConst_still] | with_reducible rw [State.countFallbacks_still] | with_reducible refine ok_of_eq (by assumption) ?_ | split | dsimp only)

theorem State.copyBad_ok (a0 a1 a2) (h : Still.ok a0.still) : Still.ok (State.copyBad a0 a1 a2).still := by
  unfold State.copyBad; exact State.postLog_ok _ _ _ h

theorem State.markPoisoned_ok (a0 a1 a2) (h : Still.ok a0.still) : Still.ok (State.markPoisoned a0 a1 a2).still := by
  unfold State.markPoisoned; repeat' (first | with_reducible assumption | with_reducible apply State.setLineState_ok | with_reducible apply State.openShare_ok | with_reducible rw [State.dropLine_still])

theorem copyPoison_ok (a0 a1 a2 a3) (h : Still.ok a3.still) : Still.ok (copyPoison a0 a1 a2 a3).1.still := by
  induction a1 generalizing a2 a3 with
  | zero => (unfold copyPoison; repeat' (with_reducible assumption))
  | succ k ih => (unfold copyPoison; repeat' (first | with_reducible assumption | with_reducible apply ih | with_reducible refine foldl_ok _ (fun s b h => ?_) _ _ ?_ | with_reducible refine foldl_ok1 _ (fun s b h => ?_) _ _ ?_ | with_reducible apply State.serveWaiting_ok | with_reducible apply State.markPoisoned_ok | with_reducible refine ok_of_eq (by assumption) ?_ | split | (intro _ _) | dsimp only | (simp only [still_mk])))

theorem State.quietRead_ok (a0 a1 a2) (h : Still.ok a0.still) : Still.ok (State.quietRead a0 a1 a2).1.still := by
  simp only [State.quietRead, State.lineRead_ok, State.updSlice_still, h] <;> (repeat' split) <;> (first | (simp only [State.lineRead_ok, State.updSlice_still, h]; done) | (rename_i h1; cases congrArg Prod.fst h1; (simp only [State.lineRead_ok, State.updSlice_still, h]; done)))

theorem State.elided_ok (a0 a1 a2 a3 a4) (h : Still.ok a0.still) : Still.ok (State.elided a0 a1 a2 a3 a4).1.still := by
  simp only [State.elided, State.quietRead_ok, h] <;> (repeat' split) <;> (first | (simp only [State.quietRead_ok, h]; done) | (rename_i h1; cases congrArg Prod.fst h1; (simp only [State.quietRead_ok, h]; done)))

theorem copyIn_ok (a0 a1 a2 a3 a4 a5 a6) (h : Still.ok a6.still) : Still.ok (copyIn a0 a1 a2 a3 a4 a5 a6).1.still := by
  induction a4 generalizing a5 a6 with | zero => exact h | succ k ih => (unfold copyIn; dsimp only; have e0 := State.elided_ok a6 a0 a1 (a3 + 128 * a5) (lineOfData a2 a5) h; split; exact ih _ _ e0; (have e := State.lineWrite_ok _ (a3 + 128 * a5) (lineOfData a2 a5) (BitVec.allOnes 128) false (portPlace a0) e0; generalize State.lineWrite _ _ _ _ _ _ = y at e ⊢; obtain ⟨t, z⟩ := y; dsimp only at e; cases z with | ok => exact ih _ _ (State.serveWaiting_ok _ _ e) | poison => exact ih _ _ (State.serveWaiting_ok _ _ e) | shield d i => exact e))

theorem copyOut_ok (a0 a1 a2 a3 a4 a5 a6) (h : Still.ok a6.still) : Still.ok (copyOut a0 a1 a2 a3 a4 a5 a6).1.still := by
  induction a4 generalizing a5 a6 with | zero => exact h | succ k ih => (unfold copyOut; extract_lets dpa; have e := State.quietRead_ok a6 dpa (portPlace a1) h; generalize a6.quietRead dpa (portPlace a1) = y at e ⊢; obtain ⟨t, z⟩ := y; dsimp only at e; cases z with | data b r => exact ih _ _ (State.hostWrite_ok _ _ _ _ e) | bad c => exact ih _ _ (State.hostWrite_ok _ _ _ _ (State.copyBad_ok _ _ _ e)) | shield d i => exact e)

theorem State.copyWork_ok (a0 a1) (h : Still.ok a0.still) : Still.ok (State.copyWork a0 a1).still := by
  unfold State.copyWork; repeat' (first | with_reducible assumption | with_reducible apply copyPoison_ok | with_reducible apply copyIn_ok | with_reducible apply copyOut_ok | with_reducible rw [State.inClass_still] | with_reducible rw [State.copyEnd_still] | split | dsimp only)

theorem State.doAtomic_ok (a0 a1 a2 a3 a4 a5 a6 a7) (h : Still.ok a0.still) : Still.ok (State.doAtomic a0 a1 a2 a3 a4 a5 a6 a7).still := by
  unfold State.doAtomic; repeat' (first | with_reducible assumption | with_reducible apply State.l1WriteMask_ok | with_reducible rw [State.gangFault_still] | with_reducible rw [State.gangDpa_still] | with_reducible rw [State.l1Forget_still] | with_reducible rw [State.newReq_still] | with_reducible rw [State.setReq_still] | with_reducible refine ok_of_eq (by assumption) ?_ | split | dsimp only)

theorem State.rereadLines_ok (a0 a1 a2 a3 a4) (h : Still.ok a0.still) : Still.ok (State.rereadLines a0 a1 a2 a3 a4).1.still := by
  induction a4 with
  | zero => simp only [State.rereadLines, h]
  | succ k ih => simp only [State.rereadLines, State.quietRead_ok, h, ih] <;> (repeat' split) <;> (first | (simp only [State.quietRead_ok, h, ih]; done) | (rename_i h1; cases congrArg Prod.fst h1; (simp only [State.quietRead_ok, h, ih]; done)))

theorem State.reread_ok (a0 a1 a2 a3 a4) (h : Still.ok a0.still) : Still.ok (State.reread a0 a1 a2 a3 a4).1.still := by
  simp only [State.reread, State.rereadLines_ok, h]

theorem State.restoreCmd_ok (a0 a1 a2) (h : Still.ok a0.still) : Still.ok (State.restoreCmd a0 a1 a2).still := by
  unfold State.restoreCmd; dsimp only; generalize dHandleCount a1.desc = n; have e1 : Still.ok (State.mk a0.pending a0.free a0.time a0.pins a0.nv a0.dev a0.whole a0.slices a0.cmds { a0.arb with nextCmd := a0.arb.nextCmd + 1 } a0.bays a0.gangs a0.nextGang a0.reqs a0.nextReq a0.uc a0.mem a0.pool a0.sweld a0.fab a0.flt a0.tel a0.mig a0.plb a0.host).still := h; generalize State.mk a0.pending a0.free a0.time a0.pins a0.nv a0.dev a0.whole a0.slices a0.cmds _ a0.bays a0.gangs a0.nextGang a0.reqs a0.nextReq a0.uc a0.mem a0.pool a0.sweld a0.fab a0.flt a0.tel a0.mig a0.plb a0.host = s1 at e1 ⊢; have e2 : Still.ok (if n = 0 then (s1, ([] : Bytes)) else s1.reread a1.slice a2 (dHandleList a1.desc) (2 * n)).1.still := (by split; exact e1; exact State.reread_ok _ _ _ _ _ e1); generalize (if n = 0 then (s1, ([] : Bytes)) else s1.reread a1.slice a2 (dHandleList a1.desc) (2 * n)) = y at e2 ⊢; obtain ⟨t, z⟩ := y; dsimp only at e2 ⊢; have e3 : Still.ok (if hasBlock (dOpcode a1.desc) then t.reread a1.slice a2 (leAt a1.desc 0x28 8) 128 else (t, ([] : Bytes))).1.still := (by split; exact State.reread_ok _ _ _ _ _ e2; exact e2); generalize (if hasBlock (dOpcode a1.desc) then t.reread a1.slice a2 (leAt a1.desc 0x28 8) 128 else (t, ([] : Bytes))) = y2 at e3 ⊢; obtain ⟨t2, z2⟩ := y2; dsimp only at e3 ⊢; rw [State.updSq_still, State.setCmd_still]; exact e3

theorem State.installBlob_ok (a0 a1 a2 a3) (h : Still.ok a0.still) : Still.ok (State.installBlob a0 a1 a2 a3).still := by
  unfold State.installBlob; dsimp only; refine foldl_ok _ (fun s q hs => foldl_ok _ (fun s k hs => State.restoreCmd_ok _ _ _ hs) _ _ hs) _ _ ?_; simp only [State.updSlice_still]; exact h

theorem State.importBlob_ok (a0 a1 a2 a3) (h : Still.ok a0.still) : Still.ok (State.importBlob a0 a1 a2 a3).still := by
  simp only [State.importBlob, State.migEnd_still, State.installBlob_ok, h] <;> (repeat' split) <;> (simp only [State.migEnd_still, State.installBlob_ok, h]; done)

theorem State.doBlobDone_ok (a0 a1) (h : Still.ok a0.still) : Still.ok (State.doBlobDone a0 a1).still := by
  simp only [State.doBlobDone, State.migEnd_still, State.hostWrite_ok, State.importBlob_ok, h] <;> (repeat' split) <;> (simp only [State.migEnd_still, State.hostWrite_ok, State.importBlob_ok, h]; done)

theorem State.doCapstoneApply_ok (a0 a1 a2) (h : Still.ok a0.still) : Still.ok (State.doCapstoneApply a0 a1 a2).still := by
  simp only [State.doCapstoneApply, State.abortIn_still, State.countRefused_still, State.landBytes_ok, State.capstoneDone_ok, h] <;> (repeat' split) <;> (first | (simp only [State.abortIn_still, State.countRefused_still, State.landBytes_ok, State.capstoneDone_ok, h]; done) | (rename_i h1; cases congrArg Prod.fst h1; (simp only [State.abortIn_still, State.countRefused_still, State.landBytes_ok, State.capstoneDone_ok, h]; done)))

theorem State.mapLookup_ok (a0 a1 a2 a3) (h : Still.ok a0.still) : Still.ok (State.mapLookup a0 a1 a2 a3).1.still := by
  unfold State.mapLookup; repeat' (first | with_reducible assumption | with_reducible apply State.mapCheck_ok | with_reducible apply State.corruptLine_ok | split)

theorem State.reachHome_ok (a0 a1 a2) (h : Still.ok a0.still) : Still.ok (State.reachHome a0 a1 a2).still := by
  unfold State.reachHome; repeat' (first | with_reducible assumption | with_reducible apply State.serveOrQueue_ok | split)

theorem State.doChannelRead_ok (a0 a1 a2 a3 a4 a5) (h : Still.ok a0.still) : Still.ok (State.doChannelRead a0 a1 a2 a3 a4 a5).still := by
  unfold State.doChannelRead; repeat' (first | with_reducible assumption | with_reducible apply State.mapLookup_ok | with_reducible apply State.chanRead_ok | with_reducible apply State.addErrors_ok | with_reducible apply State.reachHome_ok | with_reducible rw [State.updChan_still] | with_reducible rw [State.badRead_still] | with_reducible refine ok_of_eq (by assumption) ?_ | split)

end Sys2Proof.Machine
end

