-- ==== Sys2Proof/Laws/MemoryB.lean ====
section
/-! SUPPORT. Operations that store bytes keep the canonical form of the memories, part 2 of 2. -/

namespace Sys2Proof.Machine

set_option linter.unusedSimpArgs false
set_option linter.unusedVariables false

theorem State.writeLine_ok (a0 a1 a2 a3 a4) (h : Still.ok a0.still) : Still.ok (State.writeLine a0 a1 a2 a3 a4).still := by
  simp only [State.writeLine, State.chanWrite_ok, State.raise_still, h] <;> (repeat' split) <;> (rename_i h1; cases congrArg Prod.fst h1; (simp only [State.chanWrite_ok, State.raise_still, h]; done))

theorem State.doChannelWrite_ok (a0 a1 a2 a3 a4) (h : Still.ok a0.still) : Still.ok (State.doChannelWrite a0 a1 a2 a3 a4).still := by
  simp only [State.doChannelWrite, still_ite, still_ok_ite, ite_self, State.updChan_still, State.writeLine_ok, h]

theorem State.takeRecord_ok (a0 a1) (h : Still.ok a0.still) : Still.ok (State.takeRecord a0 a1).still := by
  unfold State.takeRecord; repeat' (first | with_reducible assumption | with_reducible apply State.collect_ok | with_reducible rw [State.signalUnits_still] | with_reducible rw [State.updReporter_still] | split | (simp only [still_mk, still_eta]))

theorem State.forwardRecord_ok (a0 a1) (h : Still.ok a0.still) : Still.ok (State.forwardRecord a0 a1).still := by
  unfold State.forwardRecord; split; exact h; exact State.collect_ok _ _ h

theorem State.doCollect_ok (a0 a1 a2) (h : Still.ok a0.still) : Still.ok (State.doCollect a0 a1 a2).still := by
  simp only [State.doCollect, State.takeRecord_ok, State.forwardRecord_ok, h] <;> (repeat' split) <;> (simp only [State.takeRecord_ok, State.forwardRecord_ok, h]; done)

theorem State.doCommandComplete_ok (a0 a1) (h : Still.ok a0.still) : Still.ok (State.doCommandComplete a0 a1).still := by
  unfold State.doCommandComplete; repeat' (first | with_reducible assumption | with_reducible apply State.flushCmdL1_ok | with_reducible rw [State.completeCmd_still] | with_reducible rw [State.sendDone_still] | split | dsimp only)

theorem State.doConst_ok (a0 a1 a2 a3) (h : Still.ok a0.still) : Still.ok (State.doConst a0 a1 a2 a3).still := by
  unfold State.doConst; repeat' (first | with_reducible assumption | with_reducible apply State.constMiss_ok | with_reducible rw [State.freeLanes_still] | with_reducible rw [State.setLanes_still] | split | dsimp only)

theorem copyLines_ok (a0 a1 a2 a3 a4) (ha2 : ∀ b0 b1 b2, Still.ok b0.still → Still.ok (a2 b0 b1 b2).1.still) (h : Still.ok a4.still) : Still.ok (copyLines a0 a1 a2 a3 a4).still := by
  induction a3 generalizing a4 with | nil => exact h | cons i l ih => (unfold copyLines; dsimp only; have e := ha2 a4 (128 * i) (min 128 (a1.len - 128 * i)) h; generalize a2 a4 (128 * i) (min 128 (a1.len - 128 * i)) = y at e ⊢; obtain ⟨t, z⟩ := y; dsimp only at e; cases z with | none => exact e | some b => (dsimp only; have e2 := State.agStore_ok t a0 a1 (128 * i) b e; generalize t.agStore a0 a1 (128 * i) b = y2 at e2 ⊢; obtain ⟨t2, z2⟩ := y2; dsimp only at e2; cases z2 with | false => exact e2 | true => exact ih _ (by rw [State.updCmd_still]; exact e2)))

theorem State.doCopy_ok (a0 a1 a2) (h : Still.ok a0.still) : Still.ok (State.doCopy a0 a1 a2).still := by
  unfold State.doCopy; repeat' (first | with_reducible assumption | with_reducible apply copyLines_ok | with_reducible apply State.agRead_ok | with_reducible rw [State.agFault_still] | with_reducible rw [State.bulk_still] | with_reducible rw [State.onBehalf_still] | with_reducible rw [State.count_still] | with_reducible rw [State.workDone_still] | split | (intro _ _) | dsimp only)

theorem State.saveDirty_ok (a0 a1 a2) (h : Still.ok a0.still) : Still.ok (State.saveDirty a0 a1 a2).still := by
  unfold State.saveDirty; repeat' (first | with_reducible assumption | with_reducible apply State.poisonLine_ok | with_reducible apply State.openShare_ok | with_reducible apply State.writeBackWay_ok | split | dsimp only)

theorem State.poisonLost_ok (a0 a1) (h : Still.ok a0.still) : Still.ok (State.poisonLost a0 a1).still := by
  unfold State.poisonLost; repeat' (first | with_reducible assumption | with_reducible refine foldl_ok _ (fun s b h => ?_) _ _ ?_ | with_reducible apply State.setLineState_ok | with_reducible rw [State.raise_still])

theorem State.startDie_ok (a0 a1 a2 a3) (h : Still.ok a0.still) : Still.ok (State.startDie a0 a1 a2 a3).still := by
  unfold State.startDie; repeat' (first | with_reducible assumption | with_reducible refine foldl_ok _ (fun s b h => ?_) _ _ ?_ | with_reducible apply State.saveDirty_ok | with_reducible apply State.poisonLost_ok | with_reducible rw [State.mergeReset_still] | with_reducible rw [State.noteStart_still] | with_reducible rw [State.startBay_still] | with_reducible rw [State.startChan_still] | with_reducible rw [State.disarmIn_still] | with_reducible rw [State.clearArrays_still] | split | (simp only [still_mk, still_eta]))

theorem State.doDieReset_ok (a0 a1 a2 a3) (h : Still.ok a0.still) : Still.ok (State.doDieReset a0 a1 a2 a3).still := by
  simp only [State.doDieReset, still_ite, still_ok_ite, ite_self, State.mergeReset_still, State.startDie_ok, h]

theorem State.plumbUnitPower_ok (a0 a1 a2) (h : Still.ok a0.still) : Still.ok (State.plumbUnitPower a0 a1 a2).still := by
  simp only [State.plumbUnitPower, still_ite, still_ok_ite, ite_self, State.answer_still, State.powerRequest_ok, h]

theorem State.doPackageReset_ok (a0 a1) (h : Still.ok a0.still) : Still.ok (State.doPackageReset a0 a1).still := by
  simp only [State.doPackageReset, State.beginPackage_ok, State.refuseReset_still, h] <;> (repeat' split) <;> (simp only [State.beginPackage_ok, State.refuseReset_still, h]; done)

theorem State.plumbReset_ok (a0) (h : Still.ok a0.still) : Still.ok (State.plumbReset a0).still := by
  simp only [State.plumbReset, State.answer_still, State.doPackageReset_ok, h]

theorem State.performHeld_ok (a0 a1) (h : Still.ok a0.still) : Still.ok (State.performHeld a0 a1).still := by
  unfold State.performHeld; repeat' (first | with_reducible assumption | with_reducible apply State.powerRequest_ok | with_reducible apply State.plumbUnitPower_ok | with_reducible apply State.plumbReset_ok | with_reducible rw [State.setPlinthLimit_still] | with_reducible rw [State.setManagerLimit_still] | with_reducible rw [State.setThrottle_still] | with_reducible rw [State.readStatusWord_still] | with_reducible rw [State.doStage_still] | split)

theorem State.doFailover_ok (a0 a1) (h : Still.ok a0.still) : Still.ok (State.doFailover a0 a1).still := by
  unfold State.doFailover; repeat' (first | with_reducible assumption | with_reducible refine foldl_ok _ (fun s b h => ?_) _ _ ?_ | with_reducible refine foldl_ok1 _ (fun s b h => ?_) _ _ ?_ | with_reducible apply State.performHeld_ok | with_reducible rw [State.raise_still] | with_reducible refine ok_of_eq (by assumption) ?_ | split | (intro _ _) | dsimp only | (simp only [still_mk, still_eta]))

theorem State.postManager_ok (a0 a1 a2 a3) (h : Still.ok a0.still) : Still.ok (State.postManager a0 a1 a2 a3).1.still := by
  simp only [State.postManager, still_ite, still_ok_ite, ite_self, State.hostWrite_ok, h]

theorem State.doFaultPost_ok (a0) (h : Still.ok a0.still) : Still.ok (State.doFaultPost a0).still := by
  simp only [State.doFaultPost, still_mk, still_eta, State.postManager_ok, h] <;> (repeat' split) <;> (simp only [still_mk, still_eta, State.postManager_ok, h]; done)

theorem State.doFenceTimeout_ok (a0 a1) (h : Still.ok a0.still) : Still.ok (State.doFenceTimeout a0 a1).still := by
  simp only [State.doFenceTimeout, State.readFlags_ok, State.completeCmd_still, h] <;> (repeat' split) <;> (simp only [State.readFlags_ok, State.completeCmd_still, h]; done)

theorem State.fetchHandles_ok (a0 a1 a2) (h : Still.ok a0.still) : Still.ok (State.fetchHandles a0 a1 a2).1.still := by
  simp only [State.fetchHandles, State.agRead_ok, State.updCmd_still, h] <;> (repeat' split) <;> (first | (simp only [State.agRead_ok, State.updCmd_still, h]; done) | (rename_i h1; cases congrArg Prod.fst h1; (simp only [State.agRead_ok, State.updCmd_still, h]; done)) | (rename_i h1 _; cases congrArg Prod.fst h1; (simp only [State.agRead_ok, State.updCmd_still, h]; done)))

theorem State.fetchBlock_ok (a0 a1 a2) (h : Still.ok a0.still) : Still.ok (State.fetchBlock a0 a1 a2).1.still := by
  simp only [State.fetchBlock, State.agRead_ok, State.updCmd_still, h] <;> (repeat' split) <;> (first | (simp only [State.agRead_ok, State.updCmd_still, h]; done) | (rename_i h1; cases congrArg Prod.fst h1; (simp only [State.agRead_ok, State.updCmd_still, h]; done)) | (rename_i h1 _ _; cases congrArg Prod.fst h1; (simp only [State.agRead_ok, State.updCmd_still, h]; done)) | (rename_i h1 _ _ _; cases congrArg Prod.fst h1; (simp only [State.agRead_ok, State.updCmd_still, h]; done)))

theorem State.fetchChecks_ok (a0 a1 a2) (h : Still.ok a0.still) : Still.ok (State.fetchChecks a0 a1 a2).1.still := by
  simp only [State.fetchChecks, State.fetchHandles_ok, State.fetchBlock_ok, h] <;> (repeat' split) <;> (first | (simp only [State.fetchHandles_ok, State.fetchBlock_ok, h]; done) | (rename_i h1; cases congrArg Prod.fst h1; (simp only [State.fetchHandles_ok, State.fetchBlock_ok, h]; done)))

theorem State.fetchJudge_ok (a0 a1 a2) (h : Still.ok a0.still) : Still.ok (State.fetchJudge a0 a1 a2).still := by
  unfold State.fetchJudge; extract_lets bf s1; have e1 : Still.ok s1.still := (by simp only [s1, State.updCmd_still]; exact h); clear_value s1; have e := State.fetchChecks_ok s1 a1 a2 e1; generalize s1.fetchChecks a1 a2 = ye at e ⊢; obtain ⟨t, z⟩ := ye; dsimp only at e ⊢; cases z with | reject f => (dsimp only; rw [State.fetchEnd_still]; exact e) | faulted f => (dsimp only; split; (split <;> (rw [State.fetchEnd_still]; exact e)); (rw [State.fetchEnd_still]; exact e)) | pass => (dsimp only; generalize BitVec.ofNat _ _ = w; generalize Sq.seqCheck _ _ = y; obtain ⟨q, a⟩ := y; dsimp only; cases a <;> dsimp only <;> (try rw [State.fetchEnd_still]) <;> (try rw [State.updCmd_still]) <;> rw [State.updSq_still] <;> exact e)

theorem State.fetched_ok (a0 a1 a2 a3) (h : Still.ok a0.still) : Still.ok (State.fetched a0 a1 a2 a3).still := by
  simp only [State.fetched, still_mk, still_eta, still_ite, still_ok_ite, ite_self, State.updSq_still, State.count_still, State.raise_still, State.setCmd_still, State.fetchJudge_ok, h]

theorem State.doFetch_ok (a0 a1 a2 a3) (h : Still.ok a0.still) : Still.ok (State.doFetch a0 a1 a2 a3).still := by
  simp only [State.doFetch, State.fetchFailed_still, State.fetched_ok, h] <;> (repeat' split) <;> (simp only [State.fetchFailed_still, State.fetched_ok, h]; done)

theorem writeLines_ok (a0 a1 a2 a3 a4 a5 a6) (h : Still.ok a6.still) : Still.ok (writeLines a0 a1 a2 a3 a4 a5 a6).1.still := by
  induction a4 generalizing a5 a6 with | zero => exact h | succ k ih => (unfold writeLines; dsimp only; have e := State.lineWrite_ok a6 (a3 + 128 * a5) (lineOfData a2 a5) (BitVec.allOnes 128) a1 a0 h; generalize State.lineWrite _ _ _ _ _ _ = y at e ⊢; obtain ⟨t, z⟩ := y; dsimp only at e; cases z with | ok => exact ih _ _ (State.serveWaiting_ok _ _ e) | poison => exact ih _ _ (State.serveWaiting_ok _ _ e) | shield d i => exact e)

theorem State.doFillDone_ok (a0 a1) (h : Still.ok a0.still) : Still.ok (State.doFillDone a0 a1).still := by
  unfold State.doFillDone; repeat' (first | with_reducible assumption | with_reducible apply writeLines_ok | with_reducible rw [State.fillEnd_still] | with_reducible rw [State.inClass_still] | with_reducible refine ok_of_eq (by assumption) ?_ | split | dsimp only)

theorem State.doFlit_ok (a0 a1 a2 a3 a4) (h : Still.ok a0.still) : Still.ok (State.doFlit a0 a1 a2 a3 a4).still := by
  simp only [State.doFlit, still_ite, still_ok_ite, ite_self, State.updPort_still, State.nakOnce_still, State.takeHeader_still, State.pump_still, State.acceptFlit_ok, State.sendIdle_still, h]

theorem State.l1Flush_ok (a0 a1 a2 a3) (h : Still.ok a0.still) : Still.ok (State.l1Flush a0 a1 a2 a3).1.still := by
  unfold State.l1Flush; repeat' (first | with_reducible assumption | with_reducible apply State.l1WritePart_ok | with_reducible rw [State.setL1_still] | with_reducible refine ok_of_eq (by assumption) ?_ | split | dsimp only)

theorem flushL1_ok (a0 a1 a2 a3) (h : Still.ok a3.still) : Still.ok (flushL1 a0 a1 a2 a3).still := by
  induction a2 generalizing a3 with
  | nil => (unfold flushL1; repeat' (with_reducible assumption))
  | cons x t ih => (unfold flushL1; repeat' (first | with_reducible assumption | with_reducible apply ih | with_reducible refine foldl_ok _ (fun s b h => ?_) _ _ ?_ | with_reducible refine foldl_ok1 _ (fun s b h => ?_) _ _ ?_ | with_reducible apply State.l1Flush_ok | with_reducible rw [State.updCmd_still] | with_reducible rw [State.agAbort_still] | with_reducible refine ok_of_eq (by assumption) ?_ | split | (intro _ _) | dsimp only | (simp only [still_mk])))

theorem State.flushBay_ok (a0 a1 a2 a3 a4 a5) (h : Still.ok a0.still) : Still.ok (State.flushBay a0 a1 a2 a3 a4 a5).still := by
  unfold State.flushBay; repeat' (first | with_reducible assumption | with_reducible refine foldl_ok _ (fun s b h => ?_) _ _ ?_ | with_reducible apply flushL1_ok | with_reducible rw [State.l1Inv_still] | split)

theorem State.flushAt_ok (a0 a1 a2) (h : Still.ok a0.still) : Still.ok (State.flushAt a0 a1 a2).1.still := by
  simp only [State.flushAt, State.writeBackWay_ok, h] <;> (repeat' split) <;> (simp only [State.writeBackWay_ok, h]; done)

theorem State.flushLine_ok (a0 a1) (h : Still.ok a0.still) : Still.ok (State.flushLine a0 a1).1.still := by
  simp only [State.flushLine, State.flushAt_ok, h]

theorem flushDram_ok (a0 a1 a2) (h : Still.ok a2.still) : Still.ok (flushDram a0 a1 a2).still := by
  induction a1 generalizing a2 with
  | nil => simp only [flushDram, h]
  | cons x t ih => simp only [flushDram, State.agAbort_still, State.flushLine_ok, State.updCmd_still, h, ih] <;> (repeat' split) <;> (simp only [State.agAbort_still, State.flushLine_ok, State.updCmd_still, h, ih]; done)

theorem State.doFlush_ok (a0 a1) (h : Still.ok a0.still) : Still.ok (State.doFlush a0 a1).still := by
  unfold State.doFlush; split; exact h; (dsimp only; split; (rw [State.completeCmd_still]; exact h); (have e1 := foldl_ok (fun (s : State) (b : Nat) => s.flushBay a1 b (bitAt (byteAt (a0.cmd a1).desc 0x28) 0) (bitAt (byteAt (a0.cmd a1).desc 0x28) 1) (dOuts (a0.cmd a1).desc)) (fun s b hs => State.flushBay_ok _ _ _ _ _ _ hs) (a0.baysHeld (a0.cmd a1).slice) a0 h; generalize List.foldl _ a0 _ = s1 at e1 ⊢; generalize (if bitAt (byteAt (a0.cmd a1).desc 0x28) 2 = true then s1.flushLines (a0.cmd a1).slice (dOuts (a0.cmd a1).desc) else []) = lines; split; exact h; (rw [State.workDone_still]; have e2 := flushDram_ok (s1.quoinOf a1) lines s1 e1; split; exact foldl_ok _ (fun s b hs => by rw [State.roInvalidate_still]; exact hs) _ _ e2; exact e2)))

theorem State.doFlushRange_ok (a0 a1 a2 a3 a4) (h : Still.ok a0.still) : Still.ok (State.doFlushRange a0 a1 a2 a3 a4).still := by
  simp only [State.doFlushRange, State.gangFault_still, l1WriteBackAll_ok, State.l1Inv_still, h] <;> (repeat' split) <;> (simp only [State.gangFault_still, l1WriteBackAll_ok, State.l1Inv_still, h]; done)

theorem State.migCtl_ok (a0 a1) (ha1 : ∀ b0, Still.ok b0.still → Still.ok (a1 b0).still) (h : Still.ok a0.still) : Still.ok (State.migCtl a0 a1).still := by
  simp only [State.migCtl, still_mk, still_eta, still_ite, still_ok_ite, ite_self, ha1, h]

theorem State.doGangExit_ok (a0 a1) (h : Still.ok a0.still) : Still.ok (State.doGangExit a0 a1).still := by
  unfold State.doGangExit; repeat' (first | with_reducible assumption | with_reducible apply State.l1FlushCmd_ok | with_reducible rw [State.dropGang_still] | with_reducible rw [State.orphan_still] | with_reducible rw [State.updCmd_still] | with_reducible rw [State.fillActive_still] | with_reducible rw [State.addGang_still] | with_reducible rw [State.updBay_still] | with_reducible rw [State.unholdBay_still] | split | dsimp only)

theorem State.onBay_ok (a0 a1 a2 a3) (ha3 : ∀ b0, Still.ok b0.still → Still.ok (a3 b0).still) (h : Still.ok a0.still) : Still.ok (State.onBay a0 a1 a2 a3).still := by
  simp only [State.onBay, still_ite, still_ok_ite, ite_self, State.bayCheck_still, State.bayWrite_still, ha3, h]

theorem State.weightAt_ok (a0 a1 a2 a3) (h : Still.ok a0.still) : Still.ok (State.weightAt a0 a1 a2 a3).1.still := by
  simp only [State.weightAt, State.agRead_ok, h] <;> (repeat' split) <;> (first | (simp only [State.agRead_ok, h]; done) | (rename_i h1; cases congrArg Prod.fst h1; (simp only [State.agRead_ok, h]; done)))

theorem State.poolRow_ok (a0 a1 a2 a3 a4 a5) (h : Still.ok a0.still) : Still.ok (State.poolRow a0 a1 a2 a3 a4 a5).still := by
  simp only [State.poolRow, State.weightAt_ok, State.agRead_ok, State.countRows_still, State.updCmd_still, h] <;> (repeat' split) <;> (first | (rename_i h1; cases congrArg Prod.fst h1; (simp only [State.weightAt_ok, State.agRead_ok, State.countRows_still, State.updCmd_still, h]; done)) | (rename_i h1 _ _ h0; cases congrArg Prod.fst h1; cases congrArg Prod.fst h0; (simp only [State.weightAt_ok, State.agRead_ok, State.countRows_still, State.updCmd_still, h]; done)) | (rename_i h1 _ _ _ h0; cases congrArg Prod.fst h1; cases congrArg Prod.fst h0; (simp only [State.weightAt_ok, State.agRead_ok, State.countRows_still, State.updCmd_still, h]; done)))

theorem State.poolIndex_ok (a0 a1 a2 a3 a4) (h : Still.ok a0.still) : Still.ok (State.poolIndex a0 a1 a2 a3 a4).still := by
  simp only [State.poolIndex, State.agRead_ok, State.poolRow_ok, State.updCmd_still, State.agFault_still, h] <;> (repeat' split) <;> (first | (rename_i h1; cases congrArg Prod.fst h1; (simp only [State.agRead_ok, State.poolRow_ok, State.updCmd_still, State.agFault_still, h]; done)) | (rename_i h1 _; cases congrArg Prod.fst h1; (simp only [State.agRead_ok, State.poolRow_ok, State.updCmd_still, State.agFault_still, h]; done)) | (rename_i h1 _ _; cases congrArg Prod.fst h1; (simp only [State.agRead_ok, State.poolRow_ok, State.updCmd_still, State.agFault_still, h]; done)))

theorem State.writeBag_ok (a0 a1 a2 a3 a4) (h : Still.ok a0.still) : Still.ok (State.writeBag a0 a1 a2 a3 a4).still := by
  simp only [State.writeBag, State.updCmd_still, State.agStore_ok, State.workDone_still, h] <;> (repeat' split) <;> (first | (rename_i h1; cases congrArg Prod.fst h1; (simp only [State.updCmd_still, State.agStore_ok, State.workDone_still, h]; done)) | (rename_i h1 _ _; cases congrArg Prod.fst h1; (simp only [State.updCmd_still, State.agStore_ok, State.workDone_still, h]; done)))

theorem State.gatherStep_ok (a0 a1 a2 a3) (h : Still.ok a0.still) : Still.ok (State.gatherStep a0 a1 a2 a3).still := by
  simp only [State.gatherStep, still_ite, still_ok_ite, ite_self, State.beginBag_ok, State.poolIndex_ok, State.writeBag_ok, h]

theorem State.doGather_ok (a0 a1 a2) (h : Still.ok a0.still) : Still.ok (State.doGather a0 a1 a2).still := by
  simp only [State.doGather, implies_true, State.gatherStep_ok, State.onBay_ok, h] <;> (repeat' split) <;> (simp +contextual only [implies_true, State.gatherStep_ok, State.onBay_ok, h]; done)

theorem State.remapRow_ok (a0 a1 a2 a3) (h : Still.ok a0.still) : Still.ok (State.remapRow a0 a1 a2 a3).still := by
  simp only [State.remapRow, State.dramStore_ok, State.updChan_still, State.autoRepair_still, h]

theorem State.repairRow_ok (a0 a1 a2 a3) (h : Still.ok a0.still) : Still.ok (State.repairRow a0 a1 a2 a3).still := by
  simp only [State.repairRow, State.updChan_still, State.remapRow_ok, h] <;> (repeat' split) <;> (simp only [State.updChan_still, State.remapRow_ok, h]; done)

theorem State.doHpprTimeout_ok (a0 a1) (h : Still.ok a0.still) : Still.ok (State.doHpprTimeout a0 a1).still := by
  simp only [State.doHpprTimeout, State.repairRow_ok, State.updChan_still, h] <;> (repeat' split) <;> (simp only [State.repairRow_ok, State.updChan_still, h]; done)

theorem State.doInstallAck_ok (a0 a1) (h : Still.ok a0.still) : Still.ok (State.doInstallAck a0 a1).still := by
  simp only [State.doInstallAck, still_ite, still_ok_ite, ite_self, State.serveWaiting_ok, State.setDir_still, h]

theorem State.doInstrFetch_ok (a0 a1 a2) (h : Still.ok a0.still) : Still.ok (State.doInstrFetch a0 a1 a2).still := by
  unfold State.doInstrFetch; repeat' (first | with_reducible assumption | with_reducible apply State.lineRead_ok | with_reducible rw [State.gangFault_still] | with_reducible rw [State.onBehalf_still] | with_reducible rw [State.agFault_still] | with_reducible rw [State.roRoom_still] | with_reducible rw [State.updBay_still] | with_reducible rw [State.agAbort_still] | with_reducible refine ok_of_eq (by assumption) ?_ | split | dsimp only)

theorem State.doInvalidateAck_ok (a0 a1) (h : Still.ok a0.still) : Still.ok (State.doInvalidateAck a0 a1).still := by
  simp only [State.doInvalidateAck, still_ite, still_ok_ite, ite_self, State.serveWaiting_ok, State.setDir_still, h]

theorem State.doLane_ok (a0 a1 a2) (h : Still.ok a0.still) : Still.ok (State.doLane a0 a1 a2).still := by
  unfold State.doLane; repeat' (first | with_reducible assumption | with_reducible apply State.doConst_ok | with_reducible rw [State.setLanes_still] | with_reducible rw [State.freeLanes_still] | with_reducible rw [State.updGang_still] | split | (simp only [still_mk, still_eta]))

theorem State.issue_ok (a0 a1 a2 a3) (ha2 : ∀ b0, Still.ok b0.still → Still.ok (a2 b0).still) (h : Still.ok a0.still) : Still.ok (State.issue a0 a1 a2 a3).still := by
  simp only [State.issue, implies_true, State.countInstr_still, State.onBay_ok, ha2, h] <;> (repeat' split) <;> (simp +contextual only [implies_true, State.countInstr_still, State.onBay_ok, ha2, h]; done)

theorem State.doLaneArithmetic_ok (a0 a1 a2) (h : Still.ok a0.still) : Still.ok (State.doLaneArithmetic a0 a1 a2).still := by
  unfold State.doLaneArithmetic; repeat' (first | with_reducible assumption | with_reducible apply State.awaiting_ok | with_reducible apply State.issue_ok | with_reducible apply State.doLane_ok | with_reducible apply State.settled_ok | split | (intro _ _))

theorem State.failHostReads_ok (a0 a1) (h : Still.ok a0.still) : Still.ok (State.failHostReads a0 a1).still := by
  simp only [State.failHostReads, foldl_ok, implies_true, State.doReadReply_ok, h] <;> (repeat' split) <;> (simp +contextual only [foldl_ok, implies_true, State.doReadReply_ok, h]; done)

theorem State.doLinkDown_ok (a0 a1 a2) (h : Still.ok a0.still) : Still.ok (State.doLinkDown a0 a1 a2).still := by
  simp only [State.doLinkDown, still_ite, still_ok_ite, foldl_still, ite_self, implies_true, State.setLink_still, State.lostRecord_still, State.failCopies_still, State.failOps_still, State.failHostReads_ok, h]

theorem overLines_ok (a0 a1 a2 a3) (ha1 : ∀ b0 b1, Still.ok b0.still → Still.ok (a1 b0 b1).still) (h : Still.ok a3.still) : Still.ok (overLines a0 a1 a2 a3).still := by
  induction a2 generalizing a3 with
  | nil => simp only [overLines, h]
  | cons x t ih => simp only [overLines, still_ite, still_ok_ite, ite_self, ha1, h, ih]

theorem State.loadLine_ok (a0 a1 a2 a3 a4) (h : Still.ok a0.still) : Still.ok (State.loadLine a0 a1 a2 a3 a4).still := by
  unfold State.loadLine; extract_lets b mask on_; have e : Still.ok (a0.gangDpa a1 a4 0).1.still := (by rw [State.gangDpa_still]; exact h); generalize a0.gangDpa a1 a4 0 = y at e ⊢; obtain ⟨t, z⟩ := y; dsimp only at e; cases z with | none => exact e | some dpa => (dsimp only; split; (simp only [State.newReq_still]; exact State.l1WriteMask_ok _ _ _ _ e); (split; (split; (simp only [State.deliver_still]; exact e); (simp only [State.newReq_still]; exact e)); (simp only [State.newReq_still]; exact e)))

theorem State.doLoad_ok (a0 a1 a2 a3 a4) (h : Still.ok a0.still) : Still.ok (State.doLoad a0 a1 a2 a3 a4).still := by
  simp only [State.doLoad, foldl_still, implies_true, State.loadLine_ok, State.newHostReq_still, State.gangFault_still, overLines_ok, h] <;> (repeat' split) <;> (simp +contextual only [foldl_still, implies_true, State.loadLine_ok, State.newHostReq_still, State.gangFault_still, overLines_ok, h]; done)

theorem State.doMark_ok (a0 a1) (h : Still.ok a0.still) : Still.ok (State.doMark a0 a1).still := by
  unfold State.doMark; refine State.migCtl_ok _ _ (fun s hs => ?_) h; split; (rw [State.migEnd_still]; exact hs); (rw [State.migEnd_still]; dsimp only; have e2 := State.postLog_ok (s.clearFilters a1) a1 ((s.clearFilters a1).mig.markSerial + 1).toNat.succ (by rw [State.clearFilters_still]; exact hs); clear e2; split <;> exact State.postLog_ok _ _ _ (by rw [State.clearFilters_still]; exact hs))

theorem State.doMigCopyDone_ok (a0 a1) (h : Still.ok a0.still) : Still.ok (State.doMigCopyDone a0 a1).still := by
  simp only [State.doMigCopyDone, still_ite, still_ok_ite, ite_self, State.copyEnd_still, State.copyWork_ok, h]

theorem State.doPerstAssert_ok (a0) (h : Still.ok a0.still) : Still.ok (State.doPerstAssert a0).still := by
  unfold State.doPerstAssert; extract_lets s1; split; exact State.beginPackage_ok _ _ _ h; exact h

theorem State.doPostCompletion_ok (a0 a1 a2) (h : Still.ok a0.still) : Still.ok (State.doPostCompletion a0 a1 a2).still := by
  simp only [State.doPostCompletion, State.orderRead_still, State.postTenant_ok, State.updCq_still, h] <;> (repeat' split) <;> (simp only [State.orderRead_still, State.postTenant_ok, State.updCq_still, h]; done)

theorem State.doPostWaiting_ok (a0 a1 a2) (h : Still.ok a0.still) : Still.ok (State.doPostWaiting a0 a1 a2).still := by
  simp only [State.doPostWaiting, State.postTenant_ok, State.updCq_still, State.freePlace_still, h] <;> (repeat' split) <;> (simp only [State.postTenant_ok, State.updCq_still, State.freePlace_still, h]; done)

theorem State.mgmtOp_ok (a0 a1 a2) (ha2 : ∀ b0, Still.ok b0.still → Still.ok (a2 b0).still) (h : Still.ok a0.still) : Still.ok (State.mgmtOp a0 a1 a2).still := by
  simp only [State.mgmtOp, still_mk, still_eta, still_ite, still_ok_ite, ite_self, ha2, h]

theorem State.preemptFor_ok (a0 a1 a2) (h : Still.ok a0.still) : Still.ok (State.preemptFor a0 a1 a2).still := by
  simp only [State.preemptFor, still_ite, foldl_still, foldl_ok, ite_self, implies_true, State.carryStop_ok, State.updCmd_still, h] <;> (repeat' split) <;> (simp +contextual only [still_ite, foldl_still, foldl_ok, ite_self, implies_true, State.carryStop_ok, State.updCmd_still, h]; done)

theorem State.doPreemption_ok (a0 a1) (h : Still.ok a0.still) : Still.ok (State.doPreemption a0 a1).still := by
  unfold State.doPreemption <;> (refine foldl_ok _ (fun s b h => ?_) _ _ h) <;> (repeat' split) <;> (simp +contextual only [foldl_ok, implies_true, State.preemptFor_ok, h]; done)

theorem State.releaseHost_ok (a0 a1 a2 a3 a4 a5) (h : Still.ok a0.still) : Still.ok (State.releaseHost a0 a1 a2 a3 a4 a5).still := by
  unfold State.releaseHost; repeat' (first | with_reducible assumption | with_reducible refine foldl_ok _ (fun s b h => ?_) _ _ ?_ | with_reducible refine foldl_ok1 _ (fun s b h => ?_) _ _ ?_ | with_reducible apply State.agHostWrite_ok | with_reducible apply State.capFlag_ok | with_reducible rw [State.orderRead_still] | with_reducible rw [State.dropCap_still] | with_reducible refine ok_of_eq (by assumption) ?_ | split | (intro _ _) | dsimp only | (simp only [still_mk, still_eta]))

theorem State.releaseDevice_ok (a0 a1 a2 a3 a4) (h : Still.ok a0.still) : Still.ok (State.releaseDevice a0 a1 a2 a3 a4).still := by
  unfold State.releaseDevice; repeat' (first | with_reducible assumption | with_reducible refine foldl_ok _ (fun s b h => ?_) _ _ ?_ | with_reducible refine foldl_ok1 _ (fun s b h => ?_) _ _ ?_ | with_reducible apply State.lineWrite_ok | with_reducible apply State.capFlag_ok | with_reducible apply State.serveWaiting_ok | with_reducible rw [State.onBehalf_still] | with_reducible rw [State.dropCap_still] | with_reducible rw [State.poisonWrite_still] | with_reducible rw [State.agAbort_still] | with_reducible refine ok_of_eq (by assumption) ?_ | split | (intro _ _) | dsimp only | (simp only [still_mk, still_eta]))

theorem State.doRelease_ok (a0 a1) (h : Still.ok a0.still) : Still.ok (State.doRelease a0 a1).still := by
  unfold State.doRelease; repeat' (first | with_reducible assumption | with_reducible apply State.releaseHost_ok | with_reducible apply State.releaseDevice_ok | with_reducible rw [State.signalUnits_still] | split)

theorem State.serveSettled_ok (a0 a1) (h : Still.ok a0.still) : Still.ok (State.serveSettled a0 a1).still := by
  simp only [State.serveSettled, still_ite, still_ok_ite, ite_self, State.serveWaiting_ok, h]

theorem State.serveAllWaiting_ok (a0) (h : Still.ok a0.still) : Still.ok (State.serveAllWaiting a0).still := by
  simp only [State.serveAllWaiting, foldl_ok, implies_true, State.serveSettled_ok, h] <;> (repeat' split) <;> (simp +contextual only [foldl_ok, implies_true, State.serveSettled_ok, h]; done)

theorem State.logBlock_ok (a0 a1 a2) (h : Still.ok a0.still) : Still.ok (State.logBlock a0 a1 a2).still := by
  unfold State.logBlock; repeat' (first | with_reducible assumption | with_reducible refine foldl_ok _ (fun s b h => ?_) _ _ ?_ | with_reducible apply State.logDevice_ok | split)

theorem State.releaseAt_ok (a0 a1 a2) (h : Still.ok a0.still) : Still.ok (State.releaseAt a0 a1 a2).1.still := by
  unfold State.releaseAt; repeat' (first | with_reducible assumption | with_reducible apply State.openShare_ok | with_reducible apply State.setLineState_ok | with_reducible rw [State.holdWrite_still] | with_reducible rw [State.dropLine_still] | split | dsimp only)

theorem State.releaseLine_ok (a0 a1) (h : Still.ok a0.still) : Still.ok (State.releaseLine a0 a1).1.still := by
  unfold State.releaseLine; repeat' (first | with_reducible assumption | with_reducible apply State.releaseAt_ok)

theorem State.releasePart_ok (a0 a1 a2) (h : Still.ok a0.still) : Still.ok (State.releasePart a0 a1 a2).still := by
  unfold State.releasePart; repeat' (first | with_reducible assumption | with_reducible apply State.mapCheck_ok | with_reducible apply State.releaseLine_ok | with_reducible apply State.logDevice_ok | with_reducible rw [State.updCmd_still] | split | dsimp only)

theorem releaseParts_ok (a0 a1 a2) (h : Still.ok a2.still) : Still.ok (releaseParts a0 a1 a2).still := by
  induction a1 generalizing a2 with | nil => exact h | cons x t ih => (cases x <;> unfold releaseParts <;> repeat' (first | with_reducible assumption | with_reducible apply ih | with_reducible apply State.logBlock_ok | rw [State.freshenBlock_still] | with_reducible apply State.releasePart_ok | rw [State.updCmd_still] | rw [State.agAbort_still] | split))

theorem releaseOuts_ok (a0 a1 a2 a3) (h : Still.ok a3.still) : Still.ok (releaseOuts a0 a1 a2 a3).still := by
  induction a2 generalizing a3 with
  | nil => (unfold releaseOuts; repeat' (with_reducible assumption))
  | cons x t ih => (unfold releaseOuts; repeat' (first | with_reducible assumption | with_reducible apply ih | with_reducible refine foldl_ok _ (fun s b h => ?_) _ _ ?_ | with_reducible refine foldl_ok1 _ (fun s b h => ?_) _ _ ?_ | with_reducible apply releaseParts_ok | with_reducible rw [State.agDpa_still] | with_reducible refine ok_of_eq (by assumption) ?_ | split | (intro _ _) | dsimp only | (simp only [still_mk])))

theorem State.doReleaseCmd_ok (a0 a1) (h : Still.ok a0.still) : Still.ok (State.doReleaseCmd a0 a1).still := by
  unfold State.doReleaseCmd; repeat' (first | with_reducible assumption | with_reducible apply State.serveAllWaiting_ok | with_reducible apply releaseOuts_ok | with_reducible rw [State.workDone_still] | split)

theorem repackReads_ok (a0 a1 a2) (h : Still.ok a2.still) : Still.ok (repackReads a0 a1 a2).1.still := by
  induction a1 generalizing a2 with
  | nil => (unfold repackReads; repeat' (with_reducible assumption))
  | cons x t ih => (unfold repackReads; repeat' (first | with_reducible assumption | with_reducible apply ih | with_reducible refine foldl_ok _ (fun s b h => ?_) _ _ ?_ | with_reducible refine foldl_ok1 _ (fun s b h => ?_) _ _ ?_ | with_reducible apply State.decodeLine_ok | with_reducible refine ok_of_eq (by assumption) ?_ | split | (intro _ _) | dsimp only | (simp only [still_mk])))

theorem repackMaps_ok (a0 a1 a2) (h : Still.ok a2.still) : Still.ok (repackMaps a0 a1 a2).1.still := by
  induction a1 generalizing a2 with
  | nil => (unfold repackMaps; repeat' (with_reducible assumption))
  | cons x t ih => (unfold repackMaps; repeat' (first | with_reducible assumption | with_reducible apply ih | with_reducible refine foldl_ok _ (fun s b h => ?_) _ _ ?_ | with_reducible refine foldl_ok1 _ (fun s b h => ?_) _ _ ?_ | with_reducible apply State.mapRead_ok | with_reducible refine ok_of_eq (by assumption) ?_ | split | (intro _ _) | dsimp only | (simp only [still_mk])))

theorem State.doRepackRow_ok (a0 a1 a2) (h : Still.ok a0.still) : Still.ok (State.doRepackRow a0 a1 a2).still := by
  unfold State.doRepackRow; repeat' (first | with_reducible assumption | with_reducible refine foldl_ok _ (fun s b h => ?_) _ _ ?_ | with_reducible refine foldl_ok1 _ (fun s b h => ?_) _ _ ?_ | with_reducible apply State.addErrors_ok | with_reducible apply repackReads_ok | with_reducible apply repackMaps_ok | with_reducible apply State.writeStored_ok | with_reducible apply State.writeMap_ok | with_reducible rw [State.updChan_still] | with_reducible refine ok_of_eq (by assumption) ?_ | split | (intro _ _) | dsimp only | (simp only [still_mk, still_eta]))

theorem State.fillFrom_ok (a0 a1 a2 a3) (h : Still.ok a0.still) : Still.ok (State.fillFrom a0 a1 a2 a3).still := by
  unfold State.fillFrom; have e := foldl_ok State.applyAgain (fun s r hs => State.applyAgain_ok s r hs) a1 a0 h; generalize List.foldl _ a0 a1 = t at e ⊢; dsimp only; split; (split; (rw [State.setDir_still]; exact State.installReplica_ok _ _ _ e); exact State.installReplica_ok _ _ _ e); exact e

theorem State.doReplicaFill_ok (a0 a1) (h : Still.ok a0.still) : Still.ok (State.doReplicaFill a0 a1).still := by
  simp only [State.doReplicaFill, foldl_still, implies_true, State.answerReq_still, State.fillFrom_ok, h] <;> (repeat' split) <;> (simp only [foldl_still, implies_true, State.answerReq_still, State.fillFrom_ok, h]; done)

theorem State.doReprobe_ok (a0 a1 a2 a3) (h : Still.ok a0.still) : Still.ok (State.doReprobe a0 a1 a2 a3).still := by
  unfold State.doReprobe; repeat' (first | with_reducible assumption | with_reducible apply State.closeSplit_ok | with_reducible rw [State.resetUnit_still] | with_reducible rw [State.raise_still] | with_reducible rw [State.setMgmt_still] | with_reducible rw [State.setUnpowered_still] | split)

theorem State.postDue_ok (a0 a1 a2) (h : Still.ok a0.still) : Still.ok (State.postDue a0 a1 a2).still := by
  simp only [State.postDue, still_ite, still_ok_ite, foldl_ok, ite_self, implies_true, State.orderRead_still, State.postTenant_ok, State.updCq_still, h] <;> (repeat' split) <;> (simp +contextual only [still_ite, still_ok_ite, foldl_ok, ite_self, implies_true, State.orderRead_still, State.postTenant_ok, State.updCq_still, h]; done)

theorem State.endTenantReset_ok (a0 a1) (h : Still.ok a0.still) : Still.ok (State.endTenantReset a0 a1).still := by
  simp only [State.endTenantReset, foldl_still, foldl_ok, implies_true, State.postDue_ok, State.dropWaiting_still, State.returnBuffers_still, State.raise_still, State.updSlice_still, State.noteEnd_still, h] <;> (repeat' split) <;> (simp +contextual only [foldl_still, foldl_ok, implies_true, State.postDue_ok, State.dropWaiting_still, State.returnBuffers_still, State.raise_still, State.updSlice_still, State.noteEnd_still, h]; done)

theorem State.repairRest_ok (a0 a1) (h : Still.ok a0.still) : Still.ok (State.repairRest a0 a1).still := by
  simp only [State.repairRest, foldl_ok, implies_true, State.updChan_still, State.drawChoice_still, State.repairRow_ok, h] <;> (repeat' split) <;> (simp +contextual only [foldl_ok, implies_true, State.updChan_still, State.drawChoice_still, State.repairRow_ok, h]; done)

theorem State.finishChan_ok (a0 a1) (h : Still.ok a0.still) : Still.ok (State.finishChan a0 a1).still := by
  simp only [State.finishChan, State.updChan_still, State.repairRest_ok, State.restartPairs_still, State.setUnitState_still, h]

theorem State.finishDie_ok (a0 a1) (h : Still.ok a0.still) : Still.ok (State.finishDie a0 a1).still := by
  simp only [State.finishDie, still_mk, still_eta, foldl_still, foldl_ok, implies_true, State.applyRepairs_ok, State.finishBay_still, State.finishChan_ok, State.restartPairs_still, h] <;> (repeat' split) <;> (simp +contextual only [still_mk, still_eta, foldl_still, foldl_ok, implies_true, State.applyRepairs_ok, State.finishBay_still, State.finishChan_ok, State.restartPairs_still, h]; done)

theorem State.doResetComplete_ok (a0 a1 a2 a3) (h : Still.ok a0.still) : Still.ok (State.doResetComplete a0 a1 a2 a3).still := by
  unfold State.doResetComplete; repeat' (first | with_reducible assumption | with_reducible apply State.endTenantReset_ok | with_reducible apply State.finishChan_ok | with_reducible apply State.finishDie_ok | with_reducible rw [State.noteEnd_still] | with_reducible rw [State.openShield_still] | with_reducible rw [State.finishBay_still] | with_reducible rw [State.failChan_still] | with_reducible rw [State.failDie_still] | with_reducible rw [State.finishPort_still] | split)

theorem State.issueQueued_ok (a0 a1 a2) (h : Still.ok a0.still) : Still.ok (State.issueQueued a0 a1 a2).still := by
  unfold State.issueQueued; repeat' (first | with_reducible assumption | with_reducible apply State.serveOrQueue_ok | with_reducible apply State.doChannelRead_ok | with_reducible apply State.doChannelWrite_ok | split)

theorem issueWaiting_ok (a0 a1 a2 a3) (h : Still.ok a3.still) : Still.ok (issueWaiting a0 a1 a2 a3).still := by
  induction a1 generalizing a2 a3 with
  | nil => (unfold issueWaiting; repeat' (first | with_reducible assumption | with_reducible refine foldl_ok _ (fun s b h => ?_) _ _ ?_ | with_reducible apply State.issueQueued_ok))
  | cons x t ih => (unfold issueWaiting; repeat' (first | with_reducible assumption | with_reducible apply ih | with_reducible refine foldl_ok _ (fun s b h => ?_) _ _ ?_ | with_reducible refine foldl_ok1 _ (fun s b h => ?_) _ _ ?_ | with_reducible apply State.issueQueued_ok | with_reducible rw [State.earnStream_still] | with_reducible rw [State.updChan_still] | with_reducible refine ok_of_eq (by assumption) ?_ | split | (intro _ _) | dsimp only | (simp only [still_mk])))

theorem State.doRetrainEnd_ok (a0 a1) (h : Still.ok a0.still) : Still.ok (State.doRetrainEnd a0 a1).still := by
  unfold State.doRetrainEnd; repeat' (first | with_reducible assumption | with_reducible apply issueWaiting_ok | with_reducible rw [State.updChan_still] | with_reducible rw [State.event_still] | split | (simp only [still_mk, still_eta]))

theorem State.offlineSlice_ok (a0 a1) (h : Still.ok a0.still) : Still.ok (State.offlineSlice a0 a1).still := by
  unfold State.offlineSlice; extract_lets s1; rw [State.offline_still]; exact foldl_ok _ (fun s w hs => foldl_ok _ (fun s x hs => by split; exact State.evictWay_ok _ _ _ _ hs; exact hs) _ _ hs) _ _ h

theorem State.pathFault_ok (a0 a1 a2) (h : Still.ok a0.still) : Still.ok (State.pathFault a0 a1 a2).still := by
  simp only [State.pathFault, State.raise_still, State.offlineSlice_ok, State.stopDie_still, State.packageStop_still, State.offline_still, h] <;> (repeat' split) <;> (simp only [State.raise_still, State.offlineSlice_ok, State.stopDie_still, State.packageStop_still, State.offline_still, h]; done)

theorem State.doSample_ok (a0 a1 a2 a3) (h : Still.ok a0.still) : Still.ok (State.doSample a0 a1 a2 a3).still := by
  simp only [State.doSample, still_ite, still_ok_ite, ite_self, State.updReporter_still, State.pathFault_ok, h]

theorem State.sectorErr_ok (a0 a1 a2 a3) (h : Still.ok a0.still) : Still.ok (State.sectorErr a0 a1 a2 a3).still := by
  unfold State.sectorErr; repeat' (first | with_reducible assumption | with_reducible apply State.sectorLost_ok | with_reducible rw [State.scrubFixed_still] | with_reducible rw [State.cacheCorrected_still] | split)

theorem State.scrubData_ok (a0 a1 a2 a3) (h : Still.ok a0.still) : Still.ok (State.scrubData a0 a1 a2 a3).still := by
  unfold State.scrubData; repeat' (first | with_reducible assumption | with_reducible refine foldl_ok _ (fun s b h => ?_) _ _ ?_ | with_reducible apply State.checkSectors_ok | with_reducible apply State.sectorErr_ok | with_reducible rw [State.scrubFixed_still] | split | dsimp only)

theorem State.doScrubCache_ok (a0 a1 a2 a3 a4) (h : Still.ok a0.still) : Still.ok (State.doScrubCache a0 a1 a2 a3 a4).still := by
  unfold State.doScrubCache; repeat' (first | with_reducible assumption | with_reducible apply State.scrubData_ok | with_reducible rw [State.paySet_still] | with_reducible rw [State.scrubTags_still] | with_reducible rw [State.scrubNext_still] | with_reducible refine ok_of_eq (by assumption) ?_ | split | dsimp only)

theorem State.scrubLine_ok (a0 a1 a2 a3) (h : Still.ok a0.still) : Still.ok (State.scrubLine a0 a1 a2 a3).still := by
  unfold State.scrubLine; repeat' (first | with_reducible assumption | with_reducible refine foldl_ok _ (fun s b h => ?_) _ _ ?_ | with_reducible refine foldl_ok1 _ (fun s b h => ?_) _ _ ?_ | with_reducible apply State.addErrors_ok | with_reducible apply State.decodeLine_ok | with_reducible apply State.writeStored_ok | with_reducible rw [State.event_still] | with_reducible refine ok_of_eq (by assumption) ?_ | split | (intro _ _) | dsimp only | (simp only [still_mk, still_eta]))

theorem State.doScrubDram_ok (a0 a1 a2) (h : Still.ok a0.still) : Still.ok (State.doScrubDram a0 a1 a2).still := by
  unfold State.doScrubDram; repeat' (first | with_reducible assumption | with_reducible apply State.mapCheck_ok | with_reducible apply State.scrubLine_ok | with_reducible rw [State.scrubMove_still] | with_reducible rw [State.earnScrub_still] | with_reducible rw [State.updChan_still] | split | dsimp only)

theorem State.readEntries_ok (a0 a1 a2 a3 a4 a5 a6) (h : Still.ok a0.still) : Still.ok (State.readEntries a0 a1 a2 a3 a4 a5 a6).1.still := by
  simp only [State.readEntries, State.agRead_ok, h] <;> (repeat' split) <;> (rename_i h1; cases congrArg Prod.fst h1; (simp only [State.agRead_ok, h]; done))

theorem State.readElems_ok (a0 a1 a2 a3 a4 a5) (h : Still.ok a0.still) : Still.ok (State.readElems a0 a1 a2 a3 a4 a5).1.still := by
  simp only [State.readElems, State.agRead_ok, h] <;> (repeat' split) <;> (rename_i h1; cases congrArg Prod.fst h1; (simp only [State.agRead_ok, h]; done))

theorem State.pass1Step_ok (a0 a1 a2 a3 a4) (h : Still.ok a0.still) : Still.ok (State.pass1Step a0 a1 a2 a3 a4).still := by
  unfold State.pass1Step; repeat' (first | with_reducible assumption | with_reducible apply State.readEntries_ok | with_reducible apply State.readElems_ok | with_reducible apply State.afterSave_ok | with_reducible rw [State.countElems_still] | with_reducible rw [State.endPass1_still] | with_reducible rw [State.setBusy_still] | split | (intro _ _) | dsimp only)

theorem State.mergeStep_ok (a0 a1 a2 a3 a4) (h : Still.ok a0.still) : Still.ok (State.mergeStep a0 a1 a2 a3 a4).still := by
  unfold State.mergeStep; repeat' (first | with_reducible assumption | with_reducible apply State.afterSave_ok | with_reducible rw [State.countElems_still] | with_reducible rw [State.freeEngine_still] | with_reducible rw [State.updRow_still] | with_reducible rw [State.setBusy_still] | split | (intro _ _) | dsimp only)

theorem State.pass2Step_ok (a0 a1 a2 a3 a4) (h : Still.ok a0.still) : Still.ok (State.pass2Step a0 a1 a2 a3 a4).still := by
  unfold State.pass2Step; repeat' (first | with_reducible assumption | with_reducible apply State.readElems_ok | with_reducible apply State.afterSave_ok | with_reducible rw [State.countElems_still] | with_reducible rw [State.freeEngine_still] | with_reducible rw [State.updRow_still] | with_reducible rw [State.setBusy_still] | with_reducible refine ok_of_eq (by assumption) ?_ | split | (intro _ _) | dsimp only)

theorem readPayload_ok (a0 a1 a2 a3 a4) (h : Still.ok a4.still) : Still.ok (readPayload a0 a1 a2 a3 a4).1.still := by
  induction a3 generalizing a4 with
  | nil => simp only [readPayload, h]
  | cons x t ih => simp only [readPayload, still_ite, still_ok_ite, ite_self, apply_ite Prod.fst, State.agRead_ok, h, ih] <;> (repeat' split) <;> (first | (rename_i h1; cases congrArg Prod.fst h1; (simp only [still_ite, still_ok_ite, ite_self, apply_ite Prod.fst, State.agRead_ok, h, ih]; done)) | (rename_i h1 _ h0; cases congrArg Prod.fst h1; cases congrArg Prod.fst h0; (simp only [still_ite, still_ok_ite, ite_self, apply_ite Prod.fst, State.agRead_ok, h, ih]; done)) | (rename_i h1 _ _ h0; cases congrArg Prod.fst h1; cases congrArg Prod.fst h0; (simp only [still_ite, still_ok_ite, ite_self, apply_ite Prod.fst, State.agRead_ok, h, ih]; done)))

theorem storeParts_ok (a0 a1 a2 a3) (h : Still.ok a3.still) : Still.ok (storeParts a0 a1 a2 a3).1.still := by
  induction a2 generalizing a3 with
  | nil => simp only [storeParts, h]
  | cons x t ih => simp only [storeParts, State.agStore_ok, h, ih] <;> (repeat' split) <;> (rename_i h1; cases congrArg Prod.fst h1; (simp only [State.agStore_ok, h, ih]; done))

theorem State.finishStep_ok (a0 a1 a2 a3 a4) (h : Still.ok a0.still) : Still.ok (State.finishStep a0 a1 a2 a3 a4).still := by
  unfold State.finishStep; extract_lets b r k es; have h0 : Still.ok (if sePayload b then readPayload a1 b (a0.payBase a3) es a0 else (a0, some ([], 0, false))).1.still := (by split; exact readPayload_ok _ _ _ _ _ h; exact h); generalize (if sePayload b then readPayload a1 b (a0.payBase a3) es a0 else (a0, some ([], 0, false))) = y at h0 ⊢; obtain ⟨t, z⟩ := y; dsimp only at h0; cases z with | none => exact h0 | some v => (obtain ⟨pay, rows, oor⟩ := v; dsimp only; have h1 : Still.ok (if sePayload b = true then t.countRows a2 a3.slice rows (rows * sePLen b / 32) else t).still := (by split; (rw [State.countRows_still]; exact h0); exact h0); generalize (if sePayload b = true then t.countRows a2 a3.slice rows (rows * sePLen b / 32) else t) = s1 at h1 ⊢; generalize (_ ++ _ : List (Nat × Nat × Bytes)) = parts; have h2 := storeParts_ok a1 a3.desc parts s1 h1; generalize storeParts a1 a3.desc parts s1 = y2 at h2 ⊢; obtain ⟨t2, z2⟩ := y2; dsimp only at h2; cases z2 with | false => exact h2 | true => (dsimp only; split <;> (try rw [State.workDone_still]) <;> rw [State.updCmd_still] <;> exact h2))

theorem State.selectStep_ok (a0 a1 a2 a3) (h : Still.ok a0.still) : Still.ok (State.selectStep a0 a1 a2 a3).still := by
  unfold State.selectStep; repeat' (first | with_reducible assumption | with_reducible apply State.pass1Step_ok | with_reducible apply State.afterLoad_ok | with_reducible apply State.mergeStep_ok | with_reducible apply State.pass2Step_ok | with_reducible apply State.finishStep_ok | split | (intro _ _))

theorem State.doSelect_ok (a0 a1 a2) (h : Still.ok a0.still) : Still.ok (State.doSelect a0 a1 a2).still := by
  simp only [State.doSelect, implies_true, State.selectStep_ok, State.onBay_ok, h] <;> (repeat' split) <;> (simp +contextual only [implies_true, State.selectStep_ok, State.onBay_ok, h]; done)

theorem State.readOp_ok (a0 a1 a2 a3 a4) (h : Still.ok a0.still) : Still.ok (State.readOp a0 a1 a2 a3 a4).1.still := by
  unfold State.readOp; have e := State.agRead_ok a0 a1 (a2.addr + a3 * a2.fmt.bits / 8) (rowBytes a4 a2.fmt) h; generalize a0.agRead a1 (a2.addr + a3 * a2.fmt.bits / 8) (rowBytes a4 a2.fmt) = ye at e ⊢; obtain ⟨t, z⟩ := ye; dsimp only at e ⊢; cases z with | none => exact e | some x => (dsimp only; split; (have e2 := State.agRead_ok t a1 (a2.scale + a3 / 32) (ceilDiv a4 32) e; generalize t.agRead a1 (a2.scale + a3 / 32) (ceilDiv a4 32) = ye2 at e2 ⊢; obtain ⟨t2, z2⟩ := ye2; dsimp only at e2 ⊢; cases z2 <;> exact e2); exact e)

theorem readOps_ok (a0 a1 a2 a3 a4) (h : Still.ok a4.still) : Still.ok (readOps a0 a1 a2 a3 a4).1.still := by
  induction a3 generalizing a4 with
  | nil => simp only [readOps, h]
  | cons x t ih => simp only [readOps, State.readOp_ok, h, ih] <;> (repeat' split) <;> (first | (rename_i h1; cases congrArg Prod.fst h1; (simp only [State.readOp_ok, h, ih]; done)) | (rename_i h1 _ _ h0; cases congrArg Prod.fst h1; cases congrArg Prod.fst h0; (simp only [State.readOp_ok, h, ih]; done)) | (rename_i h1 _ _ _ h0; cases congrArg Prod.fst h1; cases congrArg Prod.fst h0; (simp only [State.readOp_ok, h, ih]; done)))

theorem readEach_ok (a0 a1 a2 a3 a4 a5 a6 a7) (h : Still.ok a7.still) : Still.ok (readEach a0 a1 a2 a3 a4 a5 a6 a7).1.still := by
  induction a6 generalizing a7 with
  | nil => (unfold readEach; repeat' (with_reducible assumption))
  | cons x t ih => (unfold readEach; repeat' (first | with_reducible assumption | with_reducible apply ih | with_reducible refine foldl_ok _ (fun s b h => ?_) _ _ ?_ | with_reducible refine foldl_ok1 _ (fun s b h => ?_) _ _ ?_ | with_reducible apply readOps_ok | with_reducible rw [State.latchTile_still] | with_reducible refine ok_of_eq (by assumption) ?_ | split | (intro _ _) | dsimp only | (simp only [still_mk])))

theorem State.weightTile_ok (a0 a1 a2 a3 a4 a5 a6) (h : Still.ok a0.still) : Still.ok (State.weightTile a0 a1 a2 a3 a4 a5 a6).1.still := by
  unfold State.weightTile; repeat' (first | with_reducible assumption | with_reducible refine foldl_ok _ (fun s b h => ?_) _ _ ?_ | with_reducible apply readOps_ok | with_reducible apply readEach_ok | with_reducible rw [State.takeBus_still] | with_reducible rw [State.latchTile_still] | with_reducible rw [State.countFallbacks_still] | with_reducible refine ok_of_eq (by assumption) ?_ | split | dsimp only)

theorem readOld_ok (a0 a1 a2 a3 a4 a5 a6) (h : Still.ok a6.still) : Still.ok (readOld a0 a1 a2 a3 a4 a5 a6).1.still := by
  induction a5 generalizing a6 with | nil => exact h | cons r l ih => (unfold readOld; have e := State.agRead_ok a6 a0 ((dOut a1 0).addr + r * slCStride a2 + 4 * a3) (4 * a4) h; generalize a6.agRead a0 ((dOut a1 0).addr + r * slCStride a2 + 4 * a3) (4 * a4) = ye at e ⊢; obtain ⟨t, z⟩ := ye; dsimp only at e ⊢; cases z with | none => exact e | some x => (dsimp only; have e2 := ih t e; generalize readOld a0 a1 a2 a3 a4 l t = ye2 at e2 ⊢; obtain ⟨t2, z2⟩ := ye2; dsimp only at e2 ⊢; cases z2 <;> exact e2))

theorem State.startAcc_ok (a0 a1 a2 a3 a4) (h : Still.ok a0.still) : Still.ok (State.startAcc a0 a1 a2 a3 a4).1.still := by
  simp only [State.startAcc, still_ite, still_ok_ite, ite_self, apply_ite Prod.fst, readOld_ok, h]

theorem State.tileReads_ok (a0 a1 a2 a3 a4) (h : Still.ok a0.still) : Still.ok (State.tileReads a0 a1 a2 a3 a4).1.still := by
  unfold State.tileReads; repeat' (first | with_reducible assumption | with_reducible refine foldl_ok _ (fun s b h => ?_) _ _ ?_ | with_reducible refine foldl_ok1 _ (fun s b h => ?_) _ _ ?_ | with_reducible apply State.weightTile_ok | with_reducible apply readOps_ok | with_reducible apply State.startAcc_ok | with_reducible refine ok_of_eq (by assumption) ?_ | split | (intro _ _) | dsimp only | (simp only [still_mk, still_eta]))

theorem writeRows_ok (a0 a1 a2 a3 a4 a5) (h : Still.ok a5.still) : Still.ok (writeRows a0 a1 a2 a3 a4 a5).1.still := by
  induction a4 generalizing a5 with
  | nil => simp only [writeRows, h]
  | cons x t ih => simp only [writeRows, still_ite, still_ok_ite, ite_self, apply_ite Prod.fst, State.updCmd_still, State.agWrite_ok, h, ih] <;> (repeat' split) <;> (first | (rename_i h1; cases congrArg Prod.fst h1; (simp only [still_ite, still_ok_ite, ite_self, apply_ite Prod.fst, State.updCmd_still, State.agWrite_ok, h, ih]; done)) | (rename_i h1 _ _ h0; cases congrArg Prod.fst h1; cases congrArg Prod.fst h0; (simp only [still_ite, still_ok_ite, ite_self, apply_ite Prod.fst, State.updCmd_still, State.agWrite_ok, h, ih]; done)))

theorem State.endItem_ok (a0 a1 a2 a3 a4 a5) (h : Still.ok a0.still) : Still.ok (State.endItem a0 a1 a2 a3 a4 a5).still := by
  simp only [State.endItem, writeRows_ok, State.updCmd_still, State.workDone_still, h] <;> (repeat' split) <;> (first | (rename_i h1; cases congrArg Prod.fst h1; (simp only [writeRows_ok, State.updCmd_still, State.workDone_still, h]; done)) | (rename_i h1 _; cases congrArg Prod.fst h1; (simp only [writeRows_ok, State.updCmd_still, State.workDone_still, h]; done)))

theorem State.slabTile_ok (a0 a1 a2 a3) (h : Still.ok a0.still) : Still.ok (State.slabTile a0 a1 a2 a3).still := by
  unfold State.slabTile; repeat' (first | with_reducible assumption | with_reducible refine foldl_ok _ (fun s b h => ?_) _ _ ?_ | with_reducible refine foldl_ok1 _ (fun s b h => ?_) _ _ ?_ | with_reducible apply State.tileReads_ok | with_reducible apply State.endItem_ok | with_reducible rw [State.countTile_still] | with_reducible rw [State.updCmd_still] | with_reducible refine ok_of_eq (by assumption) ?_ | split | (intro _ _) | dsimp only | (simp only [still_mk, still_eta]))

theorem State.doSlabRun_ok (a0 a1 a2) (h : Still.ok a0.still) : Still.ok (State.doSlabRun a0 a1 a2).still := by
  simp only [State.doSlabRun, implies_true, State.slabTile_ok, State.onBay_ok, h] <;> (repeat' split) <;> (simp +contextual only [implies_true, State.slabTile_ok, State.onBay_ok, h]; done)

theorem State.doSplitCheck_ok (a0) (h : Still.ok a0.still) : Still.ok (State.doSplitCheck a0).still := by
  simp only [State.doSplitCheck, still_ite, still_ok_ite, foldl_ok, ite_self, implies_true, State.findSplit_still, State.closeSplit_ok, h] <;> (repeat' split) <;> (simp +contextual only [still_ite, still_ok_ite, foldl_ok, ite_self, implies_true, State.findSplit_still, State.closeSplit_ok, h]; done)

theorem State.endStep2_ok (a0 a1 a2) (h : Still.ok a0.still) : Still.ok (State.endStep2 a0 a1 a2).still := by
  simp +contextual only [State.endStep2, still_mk, still_eta, still_ite, still_ok_ite, foldl_ok, ite_self, implies_true, State.journalBoot_still, State.restoreGuards_still, State.beginStep_still, State.applyRepairs_ok, State.failBringup_still, h]

theorem State.doStepEnd_ok (a0 a1) (h : Still.ok a0.still) : Still.ok (State.doStepEnd a0 a1).still := by
  unfold State.doStepEnd; repeat' (first | with_reducible assumption | with_reducible apply State.endStep2_ok | with_reducible rw [State.failBringup_still] | with_reducible rw [State.endStep3_still] | with_reducible rw [State.endStep4_still] | with_reducible rw [State.endStep5_still] | with_reducible rw [State.endStep6_still] | with_reducible rw [State.endStep7_still] | with_reducible rw [State.endStep8_still] | split)

theorem State.l1Store_ok (a0 a1 a2 a3 a4 a5) (h : Still.ok a0.still) : Still.ok (State.l1Store a0 a1 a2 a3 a4 a5).still := by
  simp only [State.l1Store, State.setL1_still, State.l1Room_ok, h] <;> (repeat' split) <;> (simp only [State.setL1_still, State.l1Room_ok, h]; done)

theorem State.plainLine_ok (a0 a1 a2 a3) (h : Still.ok a0.still) : Still.ok (State.plainLine a0 a1 a2 a3).still := by
  simp only [State.plainLine, State.gangDpa_still, State.newReq_still, State.l1Store_ok, h] <;> (repeat' split) <;> (first | (rename_i h1; cases congrArg Prod.fst h1; (simp only [State.gangDpa_still, State.newReq_still, State.l1Store_ok, h]; done)) | (rename_i h1 _; cases congrArg Prod.fst h1; (simp only [State.gangDpa_still, State.newReq_still, State.l1Store_ok, h]; done)))

theorem State.hostStore_ok (a0 a1 a2 a3 a4) (h : Still.ok a0.still) : Still.ok (State.hostStore a0 a1 a2 a3 a4).still := by
  unfold State.hostStore; repeat' (first | with_reducible assumption | with_reducible refine foldl_ok _ (fun s b h => ?_) _ _ ?_ | with_reducible apply State.agHostWrite_ok | with_reducible rw [State.updGang_still] | with_reducible rw [State.gangFault_still] | split)

theorem State.doStorePlain_ok (a0 a1 a2 a3) (h : Still.ok a0.still) : Still.ok (State.doStorePlain a0 a1 a2 a3).still := by
  simp only [State.doStorePlain, implies_true, State.plainLine_ok, State.hostStore_ok, overLines_ok, h] <;> (repeat' split) <;> (simp +contextual only [implies_true, State.plainLine_ok, State.hostStore_ok, overLines_ok, h]; done)

theorem State.doStoreVolatile_ok (a0 a1 a2 a3 a4) (h : Still.ok a0.still) : Still.ok (State.doStoreVolatile a0 a1 a2 a3 a4).still := by
  simp only [State.doStoreVolatile, implies_true, overLines_still, State.volatileLine_still, State.hostStore_ok, h] <;> (repeat' split) <;> (simp only [implies_true, overLines_still, State.volatileLine_still, State.hostStore_ok, h]; done)

theorem State.doStoreStream_ok (a0 a1 a2 a3 a4) (h : Still.ok a0.still) : Still.ok (State.doStoreStream a0 a1 a2 a3 a4).still := by
  simp only [State.doStoreStream, still_ite, still_ok_ite, ite_self, State.demote_still, State.doStoreVolatile_ok, h]

theorem State.doSweldExpect_ok (a0 a1) (h : Still.ok a0.still) : Still.ok (State.doSweldExpect a0 a1).still := by
  unfold State.doSweldExpect; split; exact h; split; (split; exact h; exact State.readFlags_ok _ _ _ h); exact h

theorem State.sendPart_ok (a0 a1 a2 a3 a4 a5 a6 a7 a8) (h : Still.ok a0.still) : Still.ok (State.sendPart a0 a1 a2 a3 a4 a5 a6 a7 a8).still := by
  simp only [State.sendPart, State.agRead_ok, State.abortOut_still, State.sendMsg_still, State.countSweld_still, State.setOut_still, h] <;> (repeat' split) <;> (rename_i h1; cases congrArg Prod.fst h1; (simp only [State.agRead_ok, State.abortOut_still, State.sendMsg_still, State.countSweld_still, State.setOut_still, h]; done))

theorem State.sendNext_ok (a0 a1 a2 a3 a4) (h : Still.ok a0.still) : Still.ok (State.sendNext a0 a1 a2 a3 a4).still := by
  simp only [State.sendNext, still_ite, still_ok_ite, ite_self, State.sendPart_ok, h]

theorem State.sendTurn_ok (a0 a1 a2 a3 a4) (h : Still.ok a0.still) : Still.ok (State.sendTurn a0 a1 a2 a3 a4).still := by
  unfold State.sendTurn; repeat' (first | with_reducible assumption | with_reducible apply State.sendNext_ok | with_reducible rw [State.updPort_still] | split)

theorem State.doSweldSend_ok (a0 a1) (h : Still.ok a0.still) : Still.ok (State.doSweldSend a0 a1).still := by
  unfold State.doSweldSend; repeat' (first | with_reducible assumption | with_reducible apply State.sendTurn_ok | with_reducible rw [State.openSend_still] | split)

theorem State.doTenantReset_ok (a0 a1 a2) (h : Still.ok a0.still) : Still.ok (State.doTenantReset a0 a1 a2).still := by
  simp only [State.doTenantReset, still_mk, still_eta, State.mergeReset_still, State.beginTenantReset_ok, State.updSlice_still, h] <;> (repeat' split) <;> (simp only [still_mk, still_eta, State.mergeReset_still, State.beginTenantReset_ok, State.updSlice_still, h]; done)

theorem postTick_ok (a0 a1 a2) (h : Still.ok a2.still) : Still.ok (postTick a0 a1 a2).1.still := by
  induction a0 generalizing a1 a2 with
  | nil => simp only [postTick, h]
  | cons x t ih => simp only [postTick, State.postManager_ok, h, ih]

theorem State.doTick_ok (a0) (h : Still.ok a0.still) : Still.ok (State.doTick a0).still := by
  simp only [State.doTick, still_mk, still_eta, still_ite, still_ok_ite, ite_self, apply_ite Prod.fst, postTick_ok, h]

theorem State.doWayDone_ok (a0) (h : Still.ok a0.still) : Still.ok (State.doWayDone a0).still := by
  simp only [State.doWayDone, still_mk, still_eta, foldl_ok, implies_true, State.evictWay_ok, h] <;> (repeat' split) <;> (simp +contextual only [still_mk, still_eta, foldl_ok, implies_true, State.evictWay_ok, h]; done)

theorem State.wayCtl_ok (a0 a1) (ha1 : ∀ b0, Still.ok b0.still → Still.ok (a1 b0).still) (h : Still.ok a0.still) : Still.ok (State.wayCtl a0 a1).still := by
  simp only [State.wayCtl, still_mk, still_eta, still_ite, still_ok_ite, ite_self, ha1, h]

theorem State.flushFrom_ok (a0 a1 a2 a3 a4) (h : Still.ok a0.still) : Still.ok (State.flushFrom a0 a1 a2 a3 a4).still := by
  unfold State.flushFrom; repeat' (first | with_reducible assumption | with_reducible apply State.doFlushRange_ok | with_reducible rw [State.gangFault_still] | split)

theorem State.issueMem_ok (a0 a1 a2) (ha2 : ∀ b0, Still.ok b0.still → Still.ok (a2 b0).still) (h : Still.ok a0.still) : Still.ok (State.issueMem a0 a1 a2).still := by
  unfold State.issueMem; repeat' (first | with_reducible assumption | with_reducible apply State.settled_ok | with_reducible apply State.issue_ok | (intro _ _))

theorem State.issueLoad_ok (a0 a1 a2 a3 a4) (h : Still.ok a0.still) : Still.ok (State.issueLoad a0 a1 a2 a3 a4).still := by
  unfold State.issueLoad; repeat' (first | with_reducible assumption | with_reducible apply State.issueMem_ok | with_reducible apply State.doLoad_ok | split | (intro _ _))

theorem State.issueStore_ok (a0 a1 a2 a3 a4) (ha4 : ∀ b0, Still.ok b0.still → Still.ok (a4 b0).still) (h : Still.ok a0.still) : Still.ok (State.issueStore a0 a1 a2 a3 a4).still := by
  unfold State.issueStore; repeat' (first | with_reducible assumption | with_reducible apply State.awaiting_ok | with_reducible apply State.issueMem_ok | split | (intro _ _))

theorem State.loadFrom_ok (a0 a1 a2 a3) (h : Still.ok a0.still) : Still.ok (State.loadFrom a0 a1 a2 a3).still := by
  unfold State.loadFrom; repeat' (first | with_reducible assumption | with_reducible apply State.issueLoad_ok | with_reducible apply State.issue_ok | with_reducible rw [State.gangFault_still] | split | (intro _ _))

end Sys2Proof.Machine
end

