-- ==== Sys2Proof/Laws/Queues.lean ====
section
/-! SUPPORT. Writes to an open doorbell page. -/

namespace Sys2Proof.Machine

theorem State.pageWrite_open {s : State} {i : Nat} {d : Bool} (h : s.pageOpen i)
    (hd : d = true → (s.slice i).reset = .none) (f : State → State) : s.pageWrite i d f = f s := by
  obtain ⟨h1, h2, h3⟩ := h
  unfold State.pageWrite
  cases d <;> simp_all

end Sys2Proof.Machine
end

