-- ==== Sys2Proof/WellFormed.lean ====
section
/-! DEFINITION. Which commands are well formed: the sizes that the spec fixes for what a command carries. -/

namespace Sys2Proof

/-- A lane's part of a load or store (spec/09 R213): 1, 2, 4 or 8 bytes, a register of the lane (spec/05 R117), and the
bytes a store writes. -/
def LaneAcc.wf (isStore : Bool) (a : LaneAcc) : Bool :=
  [1, 2, 4, 8].contains a.size && decide (a.reg < 255) && (!isStore || decide (a.data.length = a.size))

/-- Symbol errors lie at codeword positions 0 to 135 (spec/11 R247). -/
def errsWf (errs : List (Nat × Byte)) : Bool := errs.all (fun e => decide (e.1 < 136))

/-- The registers of a lane that an instruction names exist (spec/05 R117: at most 255 a lane). -/
def LaneOp.wf : LaneOp → Bool
  | .fma d a b c => decide (d < 255) && decide (a < 255) && decide (b < 255) && decide (c < 255)
  | .lane d sources => decide (d < 255) && decide (sources.length ≤ 3) && sources.all (fun r => decide (r < 255))
  | .scalar _ => true
  | .constant d offset => decide (d < 255) && decide (offset.toNat % 4 = 0)

/-- Widths of an atomic's operand kind (spec/09 Table 9.3). -/
def AtomicKind.size : AtomicKind → Nat
  | .i64 | .u64 => 8
  | _ => 4

/-- The operations, widths and kinds of Table 9.3. -/
def atomicWf (op : AtomicOp) (kind : AtomicKind) (size : Nat) : Bool :=
  decide (size = kind.size) &&
  match op, kind with
  | .add, .i32 | .add, .i64 | .add, .f32 => true
  | .min, .f32 | .max, .f32 => false
  | .min, _ | .max, _ => true
  | .add, _ => false
  | _, .f32 => false
  | _, _ => true

/-- Where a FLUSH range of an instruction starts: on a line (spec/09 R214). -/
def FlushStart.wf : FlushStart → Bool
  | .tva addr => decide (addr.toNat % 128 = 0)
  | .scratch off => decide (off.toNat % 128 = 0)

/-- The monitors of the ten guard-band domains (spec/14 R342): 32 of an ashlar die and its bed die, 8 of a quoin. -/
def monitorsWf (m : List (List Nat)) : Bool :=
  decide (m.map List.length = List.replicate 8 32 ++ List.replicate 2 8)

/-- What bring-up finds at the five regulators and the 32 packages (spec/16 R385, spec/11 R243): every supported memory
option runs at 6400 MT/s at least. -/
def StepInput.wf : StepInput → Bool
  | .fuses _ answers => decide (answers.length = 10)
  | .training _ _ rates density =>
    decide (rates.length = 32) && rates.all (fun r => r.contains 0) && decide (density.length = 32)
  | _ => true

/-- A command is well formed. -/
def Instr.wf : Instr → Bool
  | .slabRun _ a => decide (a < 192)
  | .gather _ b | .select _ b => decide (b < 48)
  | .loadPlain _ _ accs => decide (accs.length ≤ 32) && accs.all (LaneAcc.wf false)
  | .loadVolatile _ _ accs => decide (accs.length ≤ 32) && accs.all (LaneAcc.wf false)
  | .storePlain _ _ accs | .storeVolatile _ _ accs | .storeStream _ _ _ accs =>
    decide (accs.length ≤ 32) && accs.all (LaneAcc.wf true)
  | .storeCapstone _ _ _ acc flag =>
    decide (acc.data.length = acc.size) && decide (0 < acc.size) && flag.all (fun f => decide (f.toNat % 8 = 0))
  | .flushRange _ start len _ => start.wf && decide (128 ≤ len) && decide (len ≤ 2 ^ 32) && decide (len % 128 = 0)
  | .atomic _ _ acc op kind _ _ => atomicWf op kind acc.size && decide (acc.addr.toNat % acc.size = 0)
  | .channelRead _ _ errs mapErrs _ => errsWf errs && errsWf mapErrs
  | .channelWrite _ _ data _ => decide (data.length = 128)
  | .agingSample monitors answers => monitorsWf monitors && decide (answers.length = 5)
  | .bringupStepEnd input => input.wf
  | .thermalRead readings => decide (readings.length = 104)
  | .flitReceived _ flit _ _ => decide (flit.length = 256)
  | .member _ _ _ data => decide (data.length ≤ 512)
  | .capstone _ _ _ data => decide (data.length = 128)
  | .scrubDramLine _ errs => errsWf errs
  | .repackRow _ errs => errs.all (fun e => decide (e.1 < 240) && decide (e.2.1 < 136))
  | .laneArithmetic _ op => op.wf
  | _ => true

end Sys2Proof
end

