-- ==== Sys2Proof/Tests/Slice0.lean ====
section
/-! SUPPORT. Tests: for each statement of Certificates/Slice0/Obligations.lean one theorem that names concrete states and
operands which meet its hypotheses, clause by clause; ill-formed terms that the well-formedness check refuses; and
single steps against the spec's worked values. -/

namespace Sys2Proof.Tests

open Sys2Proof Sys2Proof.Machine

set_option Elab.async false

/-- A device in READY, every register at its reset value. -/
def rdy : State := { pins := { pwrGood := true }, dev := { state := .ready } }

/-- 128 bytes with fields written at their offsets. -/
def block (fields : List (Nat × Bytes)) : Bytes :=
  fields.foldl (fun d e => d.take e.1 ++ e.2 ++ d.drop (e.1 + e.2.length)) (List.replicate 128 (0 : Byte))

/-- The state that a command leaves. -/
def nx1 (o : Host.Outcome State Fault Refusal) : State :=
  match o with
  | .next t => t
  | _ => rdy

def dark : State := { pins := { pwrGood := false } }

theorem test_hyps_StepTakesFront_1 :
    ({ State.reset with pending := [.bucketLeak] } : State).pending = .bucketLeak :: [] := by decide +kernel

theorem test_hyps_StepTakesFront_2 :
    dark.pending = [] ∧ dark.pins.pwrGood = false := by decide +kernel

theorem test_hyps_StepTakesFront_3 :
    State.reset.pending = [] ∧ State.reset.pins.pwrGood = true ∧ State.reset.sweld.slewing = false := by decide +kernel

theorem test_hyps_QueueAndStraps_1 :
    nx1 (exec .prochotAssert State.reset) = { State.reset with pins := { State.reset.pins with prochotN := false }, plb := { State.reset.plb with level := 32 } } := by decide +kernel

theorem test_hyps_QueueAndStraps_2 :
    nx1 (exec .bucketLeak dark) = dark := by decide +kernel

theorem test_hyps_RegisterReads_1 :
    rdy.preReady = false := by decide +kernel

theorem test_hyps_RegisterReads_2 :
    rdy.preReady = false ∧ rdy.ready = true ∧ 300 ≤ (300#32).toNat % 2048 ∧ (300#32).toNat % 2048 ≤ 1150 := by decide +kernel

theorem test_hyps_RegisterReads_3 :
    rdy.preReady = false ∧ 300 ≤ (1150#32).toNat % 2048 ∧ (1150#32).toNat % 2048 ≤ 1150 := by decide +kernel

theorem test_hyps_RegisterReads_4 :
    rdy.preReady = false ∧ (299#32).toNat % 2048 < 300 := by decide +kernel

theorem test_hyps_RegisterReads_5 :
    rdy.preReady = false ∧ 1150 < (1151#32).toNat % 2048 := by decide +kernel

theorem test_hyps_RegisterReads_6 :
    rdy.preReady = false ∧ rdy.ready = true ∧ 70 ≤ (70#64).toNat % 128 ∧ (70#64).toNat % 128 ≤ 100 := by decide +kernel

theorem test_hyps_RegisterReads_7 :
    70 ≤ (100#64).toNat % 128 ∧ (100#64).toNat % 128 ≤ 100 := by decide +kernel

theorem test_hyps_RegisterReads_8 :
    (69#64).toNat % 128 < 70 := by decide +kernel

theorem test_hyps_RegisterReads_9 :
    100 < (101#64).toNat % 128 := by decide +kernel

def openPage : State := rdy.setSlice 3 { state := .active, defn := { sqCount := 2, cqCount := 2, tableHandles := 4 } }

def coldPage : State := rdy.setSlice 3 { state := .frozen }

def overPlumb : State := { rdy with plb := { rdy.plb with failover := true } }

theorem test_hyps_RegisterAccesses_1 :
    rdy.ready = true ∧ matchAccess bar2Map (0xFFFFF8#24).toNat true = .bad := by decide +kernel

theorem test_hyps_RegisterAccesses_2 :
    rdy.ready = true ∧ matchAccess pageMap ((0x031FF8#24).toNat % 0x10000) true = .bad := by decide +kernel

theorem test_hyps_RegisterAccesses_3 :
    coldPage.ready = true ∧ (coldPage.slice ((0x031FF8#24).toNat / 0x10000)).state = .frozen ∧
    matchAccess pageMap ((0x031FF8#24).toNat % 0x10000) true = .bad := by decide +kernel

theorem test_hyps_RegisterAccesses_4 :
    overPlumb.ready = true ∧ overPlumb.plb.failover = true ∧ rdy.plb.failover = false := by decide +kernel

theorem test_hyps_RegisterAccesses_5 :
    rdy.ready = true ∧ (0x0101#64).toNat % 256 ≠ 0 ∧ (0x0101#64).toNat / 256 % 256 ≠ 0 := by decide +kernel

theorem test_hyps_RegisterAccesses_6 :
    rdy.ready = true ∧ openPage.pageOpen 3 := by decide +kernel

theorem test_hyps_RegisterAccesses_7 :
    State.reset.preReady = true ∧ (Reg.powerLimit).live = false := by decide +kernel

theorem test_hyps_RegisterAccesses_8 :
    State.reset.preReady = true ∧ matchAccess bar2Map (0xFFFFF8#24).toNat true = .bad := by decide +kernel

def failed : State := { pins := { pwrGood := true }, dev := { state := .failed } }

def fatal : State := { pins := { pwrGood := true }, dev := { state := .fatal } }

theorem test_hyps_StoppedDevice_1 :
    failed.pins.pwrGood = true ∧ failed.dev.state = .failed ∧ fatal.pins.pwrGood = true ∧ fatal.dev.state = .fatal := by decide +kernel

theorem test_hyps_StoppedDevice_2 :
    (Instr.cfgAccessErrClear).ignoredWhenStopped = true := by decide +kernel

theorem test_hyps_StoppedDevice_3 :
    matchAccess bar2Map (0x9910#24).toNat false = .whole .thermalCfg ∧ Reg.group .thermalCfg ≠ some .fltRing := by decide +kernel

theorem test_hyps_StoppedDevice_4 :
    matchAccess pageMap ((0x030058#24).toNat % 0x10000) true = .whole .fqNotify := by decide +kernel

theorem test_hyps_StoppedDevice_5 :
    ackCovers fatal.flt.lastSeq 0 = true := by decide +kernel

theorem test_hyps_StoppedDevice_6 :
    fatal.pins.pwrGood = true ∧ fatal.powered = true := by decide +kernel

def atStep (n : Nat) : State := { State.reset with dev := { State.reset.dev with step := n } }

theorem test_hyps_DeviceStateMoves :
    nx1 (exec (.bringupStepEnd (.fuses false (List.replicate 10 true))) State.reset) = (State.reset.doStepEnd (.fuses false (List.replicate 10 true))) ∧
    (State.reset.doStepEnd (.fuses false (List.replicate 10 true))).dev.state ≠ State.reset.dev.state := by decide +kernel

theorem test_hyps_FusesOneWay :
    nx1 (step { fatal with pending := [] }) = fatal.idle := by decide +kernel

theorem test_hyps_PowerStaysInRange :
    rdy.powerInRange := by decide +kernel

theorem test_hyps_MemoryStaysCanonical :
    Memory.wf rdy = true := by decide +kernel

theorem test_hyps_StoredBytesReadBack :
    (99 < 100 ∨ 100 + ([1, 0, 3] : Bytes).length ≤ 99) ∧ (103 < 100 ∨ 100 + ([1, 0, 3] : Bytes).length ≤ 103) := by decide +kernel

theorem test_hyps_MemoryUntouched :
    (Instr.prochotAssert).storesNothing = true := by decide +kernel

def ring64 : Ring := { enable := true, sizeLog2 := 6, tail := 5, posted := 5 }

def queues : State := rdy.setSlice 3 { state := .active, defn := { quotaMib := 768, sqCount := 1, cqCount := 1, classMask := 255, maxDepth := 16, tableHandles := 4, pasids := [{ pasid := 0, ports := 3 }] }, sqs := [(0, { enable := true, sizeLog2 := 6, head := 1, tail := 2 })], cqs := [(0, ring64)] }

def iced : State := queues.updSlice 3 fun v => { v with state := .frozen }

def resetting : State := queues.updSlice 3 fun v => { v with reset := .running }

def failedFetch (s : State) (st : Nat) : State := (s.updSq 3 0 fun y => { y with stopped := true }).raise fcHostAccess { unit := unitQueue false, slice := some 3, info0 := st, info1 := 128 }

def linked : State := { queues with dev := { queues.dev with linkUp0 := true } }

def fetched (s : State) : State := ((({ ((s.updSq 3 0 fun y => { y with head := 2 }).count 3 12 128) with
  arb := { s.arb with nextCmd := 1 } } : State).setCmd 0 { slice := 3, sq := 0, ring := 1, desc := block [], fetchTime := 0 }).updSq 3 0
    fun y => { y with window := y.window ++ [0] }).fetchJudge 0 (quoinAgent 0 3 false)

theorem test_hyps_DoorbellsAndFetch_1 :
    queues.ready = true ∧ (queues.slice 2).state = .off := by decide +kernel

theorem test_hyps_DoorbellsAndFetch_2 :
    iced.ready = true ∧ (iced.slice 3).state = .frozen := by decide +kernel

theorem test_hyps_DoorbellsAndFetch_3 :
    resetting.ready = true ∧ resetting.pageOpen 3 ∧ (resetting.slice 3).reset ≠ .none := by decide +kernel

theorem test_hyps_DoorbellsAndFetch_4 :
    queues.ready = true ∧ queues.pageOpen 3 ∧ (queues.slice 3).reset = .none ∧ (queues.slice 3).defn.sqCount ≤ (1#4).toNat := by decide +kernel

theorem test_hyps_DoorbellsAndFetch_5 :
    (0#4).toNat < (queues.slice 3).defn.sqCount ∧ 2 ^ ((queues.slice 3).sq 0).sizeLog2.toNat ≤ (64#32).toNat % 65536 := by decide +kernel

theorem test_hyps_DoorbellsAndFetch_6 :
    ((queues.slice 3).sq 0).ahead 1 < ((queues.slice 3).sq 0).ahead ((queues.slice 3).sq 0).tail := by decide +kernel

theorem test_hyps_DoorbellsAndFetch_7 :
    ((queues.slice 3).sq 0).enable = true ∧ (63#32).toNat % 65536 < 2 ^ ((queues.slice 3).sq 0).sizeLog2.toNat ∧
    ((queues.slice 3).sq 0).ahead ((queues.slice 3).sq 0).tail ≤ ((queues.slice 3).sq 0).ahead 63 := by decide +kernel

theorem test_hyps_DoorbellsAndFetch_8 :
    ring64.enable = true ∧ 5 < ring64.size ∧ (5 + ring64.size - ring64.head) % ring64.size ≤ ring64.posted := by decide +kernel

theorem test_hyps_DoorbellsAndFetch_9 :
    ring64.posted < (6 + ring64.size - ring64.head) % ring64.size ∧ ring64.size ≤ 64 := by decide +kernel

theorem test_hyps_DoorbellsAndFetch_10 :
    (0#4).toNat < (queues.slice 3).defn.cqCount ∧ queues.stopRegs = true := by decide +kernel

theorem test_hyps_DoorbellsAndFetch_11 :
    queues.linkUp false = false ∧ (queues.slice 3).state = .active ∧ (queues.slice 3).reset ≠ .running ∧
    ((queues.slice 3).sq 0).stopped = false ∧ ((queues.slice 3).sq 0).head ≠ ((queues.slice 3).sq 0).tail ∧
    ((queues.slice 3).sq 0).window.length < 64 ∧ ((queues.slice 3).sq 0).port = false ∧ (0#4).toNat < (queues.slice 3).defn.sqCount ∧
    ((queues.slice 3).sq 0).enable = true := by decide +kernel

theorem test_hyps_DoorbellsAndFetch_12 :
    linked.linkUp false = true := by decide +kernel

theorem test_hyps_DoorbellsAndFetch_13 :
    (block [(2, [1])]).length = 128 ∧ dCq (block [(3, [1])]) = 1 ∧ (linked.slice 3).defn.cqCount ≤ 1 := by decide +kernel

theorem test_hyps_DoorbellsAndFetch_14 :
    dCq (block []) < (linked.slice 3).defn.cqCount ∧ ((linked.slice 3).cq (dCq (block []))).enable = true ∧ linked.goesThrough fetched := by decide +kernel

def enableCfg : W64 := 0x01A00000

def disabled : State := queues.updSq 3 0 fun y => { y with enable := false }

def owned : State := (queues.setBuffer 0 { owner := some 3, gen := 1 }).setBuffer 16383 { owner := some 4, gen := 1 }

theorem test_hyps_QueueRegisters_1 :
    (tenantCfg enableCfg).enable = true ∧ (tenantCfg enableCfg).sizeLog2 = 6 ∧ ({} : Ring).enable = false := by decide +kernel

theorem test_hyps_QueueRegisters_2 :
    ring64.enable = true ∧ (tenantCfg 0).enable = false ∧ ring64.reserved = 0 := by decide +kernel

theorem test_hyps_QueueRegisters_3 :
    ({ ring64 with reserved := 1 } : Ring).reserved ≠ 0 := by decide +kernel

theorem test_hyps_QueueRegisters_4 :
    disabled.pageOpen 3 ∧ (0#4).toNat < (disabled.slice 3).defn.sqCount ∧ ((disabled.slice 3).sq 0).enable = false ∧
    (disabled.slice 3).defn.mayEnable (tenantCfg enableCfg) = true := by decide +kernel

theorem test_hyps_QueueRegisters_5 :
    (tenantCfg 0x00200000).enable = true ∧ (disabled.slice 3).defn.mayEnable (tenantCfg 0x00200000) = false := by decide +kernel

theorem test_hyps_QueueRegisters_6 :
    queues.pageOpen 3 ∧ ((queues.slice 3).sq 0).enable = true ∧ ((queues.slice 3).sq 0).window = [] := by decide +kernel

theorem test_hyps_QueueRegisters_7 :
    ((queues.slice 3).cq 0).waiting = [] := by decide +kernel

theorem test_hyps_QueueRegisters_8 :
    owned.pageOpen 3 ∧ (owned.buffer 0).owner = some 3 ∧ (owned.buffer 0).gen = (0x4000#32).extractLsb' 14 16 ∧
    (0x4000#32).extractLsb' 30 2 = 0 := by decide +kernel

theorem test_hyps_QueueRegisters_9 :
    (0xC0004000#32).extractLsb' 30 2 ≠ 0 := by decide +kernel

theorem test_hyps_QueueRegisters_10 :
    (owned.buffer 16383).gen = (0x7FFF#32).extractLsb' 14 16 ∧ (∃ j, j < 5 ∧ (owned.buffer 16383).owner = some j ∧ j ≠ 3) := by decide +kernel

theorem test_hyps_QueueRegisters_11 :
    (owned.buffer 1).owner = none ∧ (owned.buffer 0).gen ≠ (0#32).extractLsb' 14 16 := by decide +kernel

theorem test_hyps_QueueRegisters_12 :
    (0xC3#32).toNat % 256 = 0xC3 ∧ (owned.slice 3).reset = .none ∧ (0xC2#32).toNat % 256 ≠ 0xC3 ∧
    resetting.pageOpen 3 ∧ (resetting.slice 3).reset ≠ .none := by decide +kernel

theorem test_hyps_SequenceOnce :
    (({} : Sq).seqCheck 5).2 = .accept ∧ (5#32 - 5).toNat < 2 ^ 31 ∧ (6#32 - 5).toNat < 2 ^ 31 ∧ (1028#32 - 5).toNat < 2 ^ 31 := by decide +kernel

def classed : State := { queues with whole := { queues.whole with classes := [{ share := 1000, preempts := true }] } }

def waiting : State := (classed.setCmd 7 { slice := 3, desc := block [(8, List.replicate 8 255)] }).updSq 3 0 fun y => { y with window := [7] }

def blocked : State := (classed.setCmd 7 { slice := 3, items := 1, desc := block [(0, [4]), (8, List.replicate 8 255), (0x38, [1, 1])] }).updSq 3 0 fun y => { y with window := [7] }

def full : State := { blocked with bays := (List.range 48).map fun b => (b, { mgmt := .off }) }

def stuck : State := { blocked with slices := [(3, { (blocked.slice 3) with defn := { (blocked.slice 3).defn with dedicated := 1 } })], bays := [(0, { hod := some 9 })] }

def victim9 : State := (stuck.updBay 0 fun b => { b with hod := some 9 }).setCmd 9 {
  slice := 3, items := 1, next := 1, phase := .running, dispatched := true, grant := [(0, 1)], busy := [(0, {})]
  desc := block [(0, [4]), (2, [1]), (8, List.replicate 8 255), (0x38, [1, 1])] }

theorem test_hyps_ArbiterEdge_1 :
    queues.ready = true ∧ (queues.chooseClass ((((List.range 8).filterMap fun c => (queues.classAct c).map fun a => (c, a))).map
    (·.1))).1 = none := by decide +kernel

theorem test_hyps_ArbiterEdge_2 :
    let acts := (List.range 8).filterMap fun c => (waiting.classAct c).map fun a => (c, a)
    (waiting.chooseClass (acts.map (·.1))).1 = some 0 ∧ acts.find? (fun e => e.1 == 0) = some (0, 7, .go []) := by decide +kernel

theorem test_hyps_ArbiterEdge_3 :
    0 < 8 ∧ (∀ c, c < 8 → (stuck.prio c).preempts = decide (c = 0)) ∧
    (firstOfSlices (stuck.ranked 0) []).map (·.1) = [7] ∧ usesBays (dOpcode (stuck.cmd 7).desc) = true ∧
    stuck.actOn (stuck.cmd 7) = none ∧ (stuck.preemptPlan (stuck.cmd 7)).isEmpty = true := by decide +kernel

theorem test_hyps_ArbiterEdge_4 :
    stuck.goesThrough fun t => (((t.preemptPlan (t.cmd 7)).map (·.cmd)).eraseDups).foldl (fun t v =>
    if dOpcode (t.cmd v).desc = opLaunch then t.updCmd v (fun c => { c with saves := c.saves + 1 }) else t)
    ((t.preemptPlan (t.cmd 7)).foldl (fun t x => t.carryStop 5 x) t) := by decide +kernel

theorem test_hyps_ArbiterEdge_5 :
    (victim9.preemptPlan (victim9.cmd 7)).map (·.unit) = [0] ∧ victim9.actOn (victim9.cmd 7) = none ∧
    (firstOfSlices (victim9.ranked 0) []).map (·.1) = [7] := by decide +kernel

theorem test_hyps_ShareCredits :
    ([0, 7] : List Nat) ≠ [] ∧ ∀ c ∈ [0, 7], c < 8 := by decide +kernel

def tva0 : Range := { access := 7, tva := 0, dpa := 0, courses := 64 }

def slice3 : Slice := { (queues.slice 3) with defn := { (queues.slice 3).defn with ranges := [tva0] } }

def base3 : State := linked.setSlice 3 slice3

def running (d : Bytes) : State := base3.setCmd 7 { slice := 3, desc := d, phase := .running, dispatched := true }

def nop7 : State := running (block [])

def set7 : State := running (block [(0, [8]), (0x28, [2, 0, 1]), (0x30, [0, 16]), (0x38, [0, 32])])

def flip7 : State := running (block [(0, [9]), (0x28, [2, 0])])

def held : State := { base3 with dev := { base3.dev with handleBusy := true } }

def effect (h : Nat) (set : Option Bool) : State := { held with dev := { held.dev with handleOp := some (3, h, set, 0x1000, 0x2000) } }

theorem test_hyps_HandlesAndNop_1 :
    nop7.doing 7 opNop = true := by decide +kernel

theorem test_hyps_HandlesAndNop_2 :
    (set7.cmd 7).handleOpPending opHandleSet = true := by decide +kernel

theorem test_hyps_HandlesAndNop_3 :
    (flip7.cmd 7).handleOpPending opEpochFlip = true := by decide +kernel

theorem test_hyps_HandlesAndNop_4 :
    held.ready = true ∧ held.dev.handleBusy = true ∧ base3.dev.handleBusy = false ∧ base3.dev.handleOp = none := by decide +kernel

theorem test_hyps_HandlesAndNop_5 :
    (effect 4 none).dev.handleOp = some (3, 4, none, 0x1000, 0x2000) ∧ (effect 4 none).managerCheck 3 4 none 0x1000 0x2000 ≠ 0 := by decide +kernel

theorem test_hyps_HandlesAndNop_6 :
    (effect 2 (some true)).managerCheck 3 2 (some true) 0x1000 0x2000 = 0 := by decide +kernel

theorem test_hyps_HandlesAndNop_7 :
    (effect 2 none).managerCheck 3 2 none 0x1000 0x2000 = 0 := by decide +kernel

def ending : State := base3.setCmd 7 { slice := 3, desc := block [(0, [1])], phase := .finishing, dispatched := true }

def unlanded : State := ending.setReq 0 { kind := .write, cmd := 7 }

theorem test_hyps_CommandCompletes_1 :
    (ending.cmd 7).phase = .finishing ∧ (ending.cmd 7).ended = [] ∧ (∀ b, b < 48 → (ending.bay b).l1 = []) ∧
    ending.writesLanded 7 = true := by decide +kernel

theorem test_hyps_CommandCompletes_2 :
    (unlanded.cmd 7).phase = .finishing ∧ unlanded.writesLanded 7 = false := by decide +kernel

def due : State := base3.updCq 3 0 fun r => { r with due := [{ bytes := List.replicate 128 1 }], reserved := 1, tail := 63 }

def wait3 : State := base3.updCq 3 0 fun r => { r with waiting := [{ bytes := List.replicate 128 1 }], posted := 62, reserved := 1 }

theorem test_hyps_RecordsPosted_1 :
    due.ready = true ∧ due.linkUp ((due.slice 3).cq 0).port = true ∧ (due.slice 3).logging = false ∧
    ((due.slice 3).cq 0).notifyEn = false ∧ (takeReady (due.recReady 3 ((due.slice 3).cq 0).due) ((due.slice 3).cq 0).due).isSome = true := by decide +kernel

theorem test_hyps_RecordsPosted_2 :
    ((wait3.slice 3).cq 0).waiting = [{ bytes := List.replicate 128 1 }] ∧ ((wait3.slice 3).cq 0).enable = true ∧
    ((wait3.slice 3).cq 0).free ≠ 0 ∧ wait3.recReady 3 ((wait3.slice 3).cq 0).due { bytes := List.replicate 128 1 } = true := by decide +kernel

theorem test_hyps_RecordsPosted_3 :
    (63 : Nat) + 1 = ring64.size ∧ 5 + 1 ≠ ring64.size := by decide +kernel

def copyTo (source : List (Nat × Bytes)) : Bytes := block ([(0, [1]), (0x24, [1]), (0x48, [128])] ++ source)

def hostCopy : State := running (copyTo [(0x30, [128]), (0x37, [128])])

def hostCopied (t : State) : State :=
  (copyLines (hostCopy.quoinOf 7) (dOut (hostCopy.cmd 7).desc 0)
    (fun t off n => (t, some (bytesAt (bytesAt (List.replicate 128 7) 0 128) off n))) [0]
    (((t.count 3 12 128).onBehalf 7).bulk 8 (placeOf (hostCopy.quoinOf 7).unit) 128 true)).workDone 7

def devCopy : State := running (copyTo [(0x28, [0, 4]), (0x30, [128])])

def devCopied (t : State) : State :=
  (copyLines (devCopy.quoinOf 7) (dOut (devCopy.cmd 7).desc 0)
    (fun t off n => t.agRead (devCopy.quoinOf 7) ((copySource (devCopy.cmd 7).desc).addr + off) n) [0] t).workDone 7

def release7 : State := running (block [(0, [6])])

def flush7 (flags : Byte) : State := running (block [(0, [7]), (0x28, [flags])])

def flushed (t : State) : State :=
  let bays := (flush7 15).baysHeld 3
  let v := bays.foldl (fun t b => t.flushBay 7 b true true []) t
  (bays.foldl (fun t b => t.roInvalidate b) (flushDram (v.quoinOf 7) (v.flushLines 3 []) v)).workDone 7

theorem test_hyps_CopyReleaseFlush_1 :
    hostCopy.doing 7 opCopy = true ∧ (copySource (hostCopy.cmd 7).desc).host = true ∧ hostCopy.linkUp (hostCopy.hostPort 7 0) = true := by decide +kernel

theorem test_hyps_CopyReleaseFlush_2 :
    (copySource (hostCopy.cmd 7).desc).len = 128 ∧ hostCopy.hostPort 7 (copySource (hostCopy.cmd 7).desc).pasid = false ∧
    hostCopy.goesThrough hostCopied := by decide +kernel

theorem test_hyps_CopyReleaseFlush_3 :
    devCopy.doing 7 opCopy = true ∧ (copySource (devCopy.cmd 7).desc).host = false := by decide +kernel

theorem test_hyps_CopyReleaseFlush_4 :
    devCopy.goesThrough devCopied := by decide +kernel

theorem test_hyps_CopyReleaseFlush_5 :
    release7.doing 7 opRelease = true ∧ release7.goesThrough fun t =>
    ((releaseOuts (release7.quoinOf 7) false (dOuts (release7.cmd 7).desc) t).serveAllWaiting).workDone 7 := by decide +kernel

theorem test_hyps_CopyReleaseFlush_6 :
    (flush7 0).doing 7 opFlush = true ∧ byteAt ((flush7 0).cmd 7).desc 0x28 = 0 := by decide +kernel

theorem test_hyps_CopyReleaseFlush_7 :
    (flush7 15).doing 7 opFlush = true ∧ byteAt ((flush7 15).cmd 7).desc 0x28 ≠ 0 ∧
    (flush7 15).flushLines 3 (dOuts ((flush7 15).cmd 7).desc) = [] := by decide +kernel

theorem test_hyps_CopyReleaseFlush_8 :
    dOuts ((flush7 15).cmd 7).desc = [] ∧ (flush7 15).goesThrough flushed := by decide +kernel

def slabBlock : Bytes := block [(0x20, [32]), (0x24, [32]), (0x28, [128]), (0x2C, leBytes 4 0x3F800000), (0x30, [32]), (0x34, [32]), (0x38, [2, 2, 3]), (0x08, [0, 16])]

def slabDesc : Bytes := block [(0, [3]), (0x24, [1]), (0x38, [1]), (0x41, [32]), (0x48, [128])]

def slab7 (busy : Tbl Item) : State := (running slabDesc).updCmd 7 fun c => { c with block := slabBlock, items := 1, grant := [(0, 1)], busy := busy }

def slabBusy : State := (slab7 [(0, {})]).updCmd 7 fun c => { c with next := 1 }

def slabLong : State := slabBusy.updCmd 7 fun c => { c with block := block [(0x20, [0, 4]), (0x24, [0, 4]), (0x28, [128]), (0x2C, leBytes 4 0x3F800000), (0x30, [32]), (0x34, [0, 4]), (0x38, [2, 2, 3]), (0x08, [0, 16])] }

theorem test_hyps_SlabItems_1 :
    (slab7 []).doing 7 opSlab = true ∧ (∃ e ∈ ((slab7 []).cmd 7).grant, e.1 = 0) ∧ Tbl.find? ((slab7 []).cmd 7).busy 0 = none ∧
    ((slab7 []).cmd 7).next < ((slab7 []).cmd 7).items := by decide +kernel

theorem test_hyps_SlabItems_2 :
    (running slabDesc).doing 7 opSlab = true ∧ ((running slabDesc).cmd 7).items ≤ ((running slabDesc).cmd 7).next := by decide +kernel

theorem test_hyps_SlabItems_3 :
    slabBusy.doing 7 opSlab = true ∧ Tbl.find? (slabBusy.cmd 7).busy 0 = some {} ∧ (slabBusy.bay 0).errs = [] ∧
    slKTiles slabBlock ≤ 0 + 1 ∧ (match slabBusy.begun.tileReads 7 0 (slabBusy.agentOn 7 0) {} with
      | (t, some (ws, as, acc)) =>
        let b := slabBlock
        let span := itemSpan slabDesc b 0
        let done := { ({ acc := acc : Item }).tile (fmtOf (slAFmt b)) (fmtOf (slWFmt b)) as ws with pos := 1 }
        decide ((((t.countTile 7 0 done true (span.2.1 * span.2.2.2 * min (slTileK b) (slK b))).endItem
          (slabBusy.agentOn 7 0) 7 0 done span.2.1).bayWrite 7 0).uc.held = false)
      | (_, none) => false) = true := by decide +kernel

theorem test_hyps_SlabItems_4 :
    slabLong.doing 7 opSlab = true ∧ 0 + 1 < slKTiles (slabLong.cmd 7).block ∧
    (match slabLong.begun.tileReads 7 0 (slabLong.agentOn 7 0) {} with
      | (t, some _) => t.uc.held
      | (_, none) => true) = false := by decide +kernel

theorem test_hyps_IntegerTileExact :
    ([3, 254] : List Nat).length = ([2, 1] : List Nat).length := by decide +kernel

def gaBlock (skip : Byte) : Bytes := block [(0x00, [0, 1]), (0x18, [0, 2]), (0x20, [4]), (0x28, [32]), (0x2C, [8]), (0x30, [1]), (0x34, [32]), (0x38, [3, 3, skip])]

def gather7 (skip : Byte) (it : Item) : State := (running (block [(0, [4]), (0x24, [1]), (0x41, [32]), (0x48, [32])])).updCmd 7 fun c => { c with block := gaBlock skip, items := 1, next := 1, grant := [(0, 1)], busy := [(0, it)] }

def bagItem : Item := { phase := 2, bagEnd := 1, acc := List.replicate 8 0 }

def noRows (skip : Byte) : State := (gather7 skip bagItem).updCmd 7 fun c => { c with block := block [(0x00, [0, 1]), (0x28, [32]), (0x2C, [8]), (0x30, [1]), (0x34, [32]), (0x38, [3, 3, skip])] }

def seBlock : Bytes := block [(0x08, [32]), (0x0C, [8]), (0x10, [1]), (0x14, [2, 1])]

def select7 (next : Nat) (busy : Tbl Item) (rows : Tbl RowAcc) : State := (running (block [(0, [5]), (0x24, [1]), (0x41, [32]), (0x48, [32])])).updCmd 7 fun c => { c with block := seBlock, items := 1, next := next, grant := [(0, 1)], busy := busy, rows := rows }

theorem test_hyps_GatherAndSelect_1 :
    (gather7 0 {}).doing 7 opGather = true ∧ Tbl.find? ((gather7 0 {}).cmd 7).busy 0 = some {} ∧ ((gather7 0 {}).bay 0).errs = [] ∧
    ({} : Item).phase = 1 := by decide +kernel

theorem test_hyps_GatherAndSelect_2 :
    (gather7 0 {}).goesThrough fun t => (t.beginBag ((gather7 0 {}).agentOn 7 0) 0 (gaBlock 0) {}).bayWrite 7 0 := by decide +kernel

theorem test_hyps_GatherAndSelect_3 :
    bagItem.phase ≠ 1 ∧ bagItem.pos < bagItem.bagEnd ∧
    ((gather7 0 bagItem).begun.agRead ((gather7 0 bagItem).agentOn 7 0) (gaIndex (gaBlock 0)) 4).2 = some [0, 0, 0, 0] ∧
    0 < gaRows (gaBlock 0) := by decide +kernel

theorem test_hyps_GatherAndSelect_4 :
    ({ bagItem with pos := 1 } : Item).bagEnd ≤ 1 ∧ (gather7 0 { bagItem with pos := 1, kept := 1 }).goesThrough fun t =>
    (t.writeBag ((gather7 0 {}).agentOn 7 0) 0 ((gather7 0 { bagItem with pos := 1, kept := 1 }).cmd 7)
      { bagItem with pos := 1, kept := 1 }).bayWrite 7 0 := by decide +kernel

theorem test_hyps_GatherAndSelect_5 :
    gaRows ((noRows 16).cmd 7).block ≤ 0 ∧ gaIndexSize ((noRows 16).cmd 7).block = 4 ∧
    ((noRows 16).begun.agRead ((noRows 16).agentOn 7 0) (gaIndex ((noRows 16).cmd 7).block) 4).2 = some [0, 0, 0, 0] ∧ gaSkip ((noRows 16).cmd 7).block = true ∧ gaSkip ((noRows 0).cmd 7).block = false := by decide +kernel

theorem test_hyps_GatherAndSelect_6 :
    ∀ ph ∈ [1, 2, 3, 4], (select7 1 [(0, { phase := ph })] [(0, {})]).doing 7 opSelect = true ∧
    Tbl.find? ((select7 1 [(0, { phase := ph })] [(0, {})]).cmd 7).busy 0 = some { phase := ph } := by decide +kernel

theorem test_hyps_GatherAndSelect_7 :
    ∀ ph ∈ [2, 3, 4], (select7 1 [(0, { phase := ph })] [(0, {})]).goesThrough fun t => (t.afterLoad (t.agentOn 7 0) { phase := ph }
    [0] fun t => match ph with
      | 2 => t.mergeStep (t.agentOn 7 0) 0 (t.cmd 7) { phase := 2 }
      | 3 => t.pass2Step (t.agentOn 7 0) 0 (t.cmd 7) { phase := 3 }
      | _ => t.finishStep (t.agentOn 7 0) 0 (t.cmd 7) { phase := 4 }).bayWrite 7 0 := by decide +kernel

theorem test_hyps_GatherAndSelect_8 :
    seS seBlock = 1 ∧ (select7 1 [(0, {})] [(0, {})]).goesThrough fun t => (t.pass1Step (t.agentOn 7 0) 0 (t.cmd 7) {}).bayWrite 7 0 := by decide +kernel

theorem test_hyps_GatherAndSelect_9 :
    (select7 0 [] []).doing 7 opSelect = true ∧ Tbl.find? ((select7 0 [] []).cmd 7).busy 0 = none ∧
    ((select7 0 [] []).cmd 7).readyItem = some {} := by decide +kernel

theorem test_hyps_SelectionList :
    ([] : List Entry).length ≤ 2 := by decide +kernel

def launchDesc : Bytes := block [(0, [2]), (0x38, [3]), (0x3C, [1]), (0x3E, [2]), (0x30, [5])]

def launchBlock : Bytes := block [(0x0C, [16, 1, 1]), (0x10, [0, 1]), (0x00, [0, 16])]

def launch7 : State := (running launchDesc).updCmd 7 fun c => { c with block := launchBlock, items := 3, grant := [(8, 2)], bays := [1] }

def gang0 : Gang := { newGang (launch7.cmd 7) 7 0 1 0 0 [0] with active := true }

def live : State := { (launch7.updCmd 7 fun c => { c with next := 1 }) with gangs := [(0, gang0)], nextGang := 1 }

theorem test_hyps_LaunchAndExit_1 :
    dOpcode (launch7.cmd 7).desc = opLaunch ∧ (launch7.cmd 7).runs = true ∧ (launch7.cmd 7).next = 0 := by decide +kernel

theorem test_hyps_LaunchAndExit_2 :
    live.runsGang 0 ∧ dOutSlots (live.cmd 7).desc < 2 ∧ (live.cmd 7).next < (live.cmd 7).items ∧ live.hasGang live.nextGang = false := by decide +kernel

def lane (k : Fin 32) (addr : W64) (data : Bytes) : LaneAcc := { lane := k, addr := addr, size := 4, reg := 4, data := data }

def two : List LaneAcc := [lane 0 124 [1, 2, 3, 4], lane 31 128 [5, 6, 7, 8]]

def noL1 : State := live.updBay 1 fun v => { v with split := 16 }

theorem test_hyps_LineRequests_1 :
    live.runsGang 0 ∧ live.mapsLines 0 (linesOf two) (fun _ => tva0) ∧ linesOf two = [0, 1] ∧
    (∀ l ∈ linesOf two, Tbl.find? (live.bay (live.gang 0).bay).l1 l = none) ∧
    (∀ l ∈ linesOf two, tva0.canRead = true) ∧ (∀ l ∈ linesOf two, tva0.canWrite = true) ∧
    (∀ e ∈ live.awaited 0, storedRegs two e = false) ∧ ∀ n : Fin 4, LoadAttr.volatile ≠ .capstone n := by decide +kernel

theorem test_hyps_LineRequests_2 :
    (noL1.bay (noL1.gang 0).bay).l1Lines = 0 ∧ noL1.runsGang 0 := by decide +kernel

theorem test_hyps_LineRequests_3 :
    (Tbl.get [] (live.gang 0).members 3).length + (linesOf two).length ≤ 256 := by decide +kernel

def l1Hit : State := live.updBay 1 fun v => { v with l1 := [(0, { data := List.replicate 128 9, valid := BitVec.allOnes 128, dirty := 0, cmds := [] })] }

theorem test_hyps_L1Accesses_1 :
    l1Hit.runsGang 0 ∧ linesOf [lane 5 8 [1, 2, 3, 4]] = [0] ∧ l1Hit.mapsLines 0 [0] (fun _ => tva0) ∧
    (Tbl.find? (l1Hit.bay (l1Hit.gang 0).bay).l1 0).isSome = true ∧ tva0.canWrite = true ∧ 0 < (l1Hit.bay 1).l1Lines ∧ l1Hit.awaited 0 = [] := by decide +kernel

theorem test_hyps_L1Accesses_2 :
    (lane 5 8 []).size = 4 ∧ tva0.canRead = true ∧ reqMask (128 * 0) [lane 5 8 []] &&& ~~~(BitVec.allOnes 128) = 0 ∧ (lane 5 8 []).reg < laRegs (l1Hit.cmd 7).block ∧ (lane 5 8 []).reg < 255 := by decide +kernel

def word : LaneAcc := { lane := 0, addr := 64, size := 4, reg := 4, data := [] }

def storing : State := live.updGang 0 fun v => { v with stores := [4] }

def cap5 : Capstone := { gang := 0, cmd := 7, slice := 3, stream := 2, dpa := 64, tva := 64, data := [1, 2, 3, 4], held := true }

def withCap : State := { live with uc := { live.uc with capstones := [(5, cap5)] }, nextReq := 6 }

def capWaits : State := { withCap with uc := { withCap.uc with capstones := [(5, { cap5 with waits := [3] })] } }

def capOld : State := { withCap with time := 64000000 }

theorem test_hyps_AtomicsFencesCapstones_1 :
    live.runsGang 0 ∧ findRange (live.slice (live.cmd 7).slice).defn.ranges (128 * (word.addr.toNat / 128)) = some tva0 ∧
    tva0.canRead = true ∧ tva0.canWrite = true ∧ Tbl.find? (live.bay (live.gang 0).bay).l1 0 = none ∧ word.size ≠ 0 ∧
    word.addr.toNat % 128 + word.size ≤ 128 := by decide +kernel

theorem test_hyps_AtomicsFencesCapstones_2 :
    (live.gang 0).stores = [] := by decide +kernel

theorem test_hyps_AtomicsFencesCapstones_3 :
    storing.runsGang 0 ∧ (storing.gang 0).stores ≠ [] := by decide +kernel

theorem test_hyps_AtomicsFencesCapstones_4 :
    (live.bay (live.gang 0).bay).l1 = [] := by decide +kernel

theorem test_hyps_AtomicsFencesCapstones_5 :
    inRange (live.slice (live.cmd 7).slice).defn 0 256 (fun _ => true) = true := by decide +kernel

theorem test_hyps_AtomicsFencesCapstones_6 :
    4 ≤ (lane 0 64 [1, 2, 3, 4]).data.length ∧ 64 % 128 + 4 ≤ 128 ∧
    live.homeShield (homeOf live.density (tva0.toDpa (128 * (64 / 128)))).1 = none := by decide +kernel

theorem test_hyps_AtomicsFencesCapstones_7 :
    withCap.ready = true ∧ Tbl.find? withCap.uc.capstones 5 = some cap5 ∧ cap5.held = true ∧ cap5.failed = false ∧ cap5.waits = [] ∧
    cap5.host = none ∧ withCap.mustWait 5 0 0 (maskOf (cap5.dpa % 128) cap5.data.length) = false ∧
    (match ((withCap.begun.signalUnits .releaseToken (unitBay 1) (withCap.capUnit cap5)).onBehalf 7).lineWrite 0
        (List.replicate 64 0 ++ cap5.data) (maskOf 64 4) true (placeOf (unitBay 1)) with
      | (t, .ok) => (((t.serveWaiting 0).dropCap 5 (some (homeOf withCap.density 64).1)).capFlag
          { cmd := 7, slice := 3, unit := unitBay 1 } cap5).uc.held
      | _ => true) = false := by decide +kernel

theorem test_hyps_AtomicsFencesCapstones_8 :
    Tbl.find? capWaits.uc.capstones 5 = some { cap5 with waits := [3] } ∧ ({ cap5 with waits := [3] } : Capstone).waits ≠ [] := by decide +kernel

theorem test_hyps_AtomicsFencesCapstones_9 :
    capOld.powered = true ∧ Tbl.find? capOld.uc.capstones 5 = some cap5 ∧ cap5.arrived + 64000000 ≤ capOld.time := by decide +kernel

def deep (n k : Nat) : State := live.updGang 0 fun v => { v with stack := List.replicate n { active := 3, pending := 1, rpc := 7 }, spilled := k }

def top0 (k : Nat) : State := live.updGang 0 fun v => { v with stack := [{ active := 3, pending := 0, rpc := 7 }], spilled := k }

def fetchKey : Nat := (live.gang 0).core * 2 ^ 50 + laCode (live.cmd 7).block / 128

def cached : State := live.updBay 1 fun v => { v with icache := [(fetchKey, [])] }

def consts : State := live.updCmd 7 fun c => { c with block := block [(0x0C, [16, 1, 1]), (0x10, [0, 1]), (0x00, [0, 16]), (0x20, [0, 4]), (0x28, [128])] }

def constant (s : State) : State := s.updBay 1 fun v => { v with ccache := [(laConst (s.cmd 7).block / 128, List.replicate 124 0 ++ [1, 2, 3, 4])] }

theorem test_hyps_GangInstructions_1 :
    live.runsGang 0 ∧ (live.gang 0).stack.length + (live.gang 0).spilled < 16 + laSpill (live.cmd 7).block ∧
    (live.gang 0).stack.length < 16 := by decide +kernel

theorem test_hyps_GangInstructions_2 :
    (deep 16 0).runsGang 0 ∧ 16 + 0 < 16 + laSpill ((deep 16 0).cmd 7).block ∧ 16 ≤ ((deep 16 0).gang 0).stack.length ∧
    ((deep 16 0).gang 0).stack.getLast?.isSome = true := by decide +kernel

theorem test_hyps_GangInstructions_3 :
    ((deep 2 0).gang 0).stack = { active := 3, pending := 1, rpc := 7 } :: [{ active := 3, pending := 1, rpc := 7 }] ∧
    ({ active := 3, pending := 1, rpc := 7 } : MaskEntry).pending ≠ 0 := by decide +kernel

theorem test_hyps_GangInstructions_4 :
    (top0 0).runsGang 0 ∧ ((top0 0).gang 0).spilled = 0 ∧ 0 < ((top0 1).gang 0).spilled := by decide +kernel

theorem test_hyps_GangInstructions_5 :
    live.runsGang 0 ∧ 15 < laRegs (live.cmd 7).block ∧ live.awaited 0 = [] := by decide +kernel

theorem test_hyps_GangInstructions_6 :
    0 + 256 ≤ laScratch (live.cmd 7).block ∧ (List.replicate 256 (1 : Byte)).length = 256 ∧ 252 + 4 ≤ laScratch (live.cmd 7).block := by decide +kernel

theorem test_hyps_GangInstructions_7 :
    (Tbl.find? (cached.bay 1).icache fetchKey).isSome = true ∧ cached.runsGang 0 := by decide +kernel

theorem test_hyps_GangInstructions_8 :
    Tbl.find? (live.bay 1).icache fetchKey = none ∧ findRange (live.slice 3).defn.ranges (laCode (live.cmd 7).block) = some tva0 ∧
    tva0.canExec = true ∧ live.flt.inject.armed = false ∧ laCode (live.cmd 7).block % 128 = 0 := by decide +kernel

theorem test_hyps_GangInstructions_9 :
    ((live.countInstr 0).lineRead (tva0.toDpa (laCode (live.cmd 7).block)) 15 (placeOf (unitBay 1)) false).2
    = .data (List.replicate 128 0) false := by decide +kernel

theorem test_hyps_GangInstructions_10 :
    (match ((live.begun.countInstr 0).onBehalf 7).lineRead (tva0.toDpa (laCode (live.cmd 7).block)) 15 (placeOf (unitBay 1)) false with
      | (t, .data b false) =>
        let room := t.roRoom (t.bay 1).icache (fun k => decide (k / 2 ^ 50 = (live.gang 0).core)) icacheLines
        ((room.2.updBay 1 fun x => { x with icache := Tbl.put room.1 fetchKey b }).bayWrite 7 1).uc.held
      | _ => true) = false := by decide +kernel

theorem test_hyps_GangInstructions_11 :
    (4 : Nat) < laRegs (live.cmd 7).block ∧ (∀ e ∈ live.awaited 0, e.2 ∉ [1, 2]) ∧ laConstLen (live.cmd 7).block < (0#32).toNat + 4 := by decide +kernel

theorem test_hyps_GangInstructions_12 :
    (constant consts).runsGang 0 ∧ (124#32).toNat + 4 ≤ laConstLen ((constant consts).cmd 7).block ∧
    (Tbl.find? ((constant consts).bay 1).ccache ((laConst ((constant consts).cmd 7).block + 124) / 128)).isSome = true := by decide +kernel

theorem test_hyps_GangInstructions_13 :
    Tbl.find? (consts.bay 1).ccache (laConst (consts.cmd 7).block / 128) = none ∧
    (let t := (consts.begun.countInstr 0).constMiss 7 1 (laConst (consts.cmd 7).block / 128)
     match Tbl.find? (t.bay 1).ccache (laConst (consts.cmd 7).block / 128) with
      | some x => ((t.setLanes 0 4 fun _ _ => BitVec.ofNat 32 (leAt x 0 4)).bayWrite 7 1).uc.held
      | none => true) = false := by decide +kernel

def acked : State := (live.updGang 0 fun v => { v with stores := [4] }).setReq 4 { kind := .write, cmd := 7, slice := 3, answer := some .ack }

def req4 (s : State) : Req := (Tbl.find? s.reqs 4).getD {}

def shielded : State := live.setReq 4 { kind := .read, cmd := 7, slice := 3, answer := some (.shield 3 5) }

def stale4 : State := live.setReq 4 { kind := .read, cmd := 7, slice := 3, tenantEpoch := 9, answer := some .ack }

def loaded : State := (live.updGang 0 fun v => { v with loads := [4] }).setReq 4 { kind := .read, cmd := 7, slice := 3, volatile := true, accs := [lane 5 124 []], answer := some (.data (List.replicate 124 0 ++ [1, 2, 3, 4])) }

theorem test_hyps_Replies_1 :
    acked.powered = true ∧ (Tbl.find? acked.reqs 4).isSome = true ∧ acked.stale (req4 acked) = false ∧ (req4 acked).dead = false ∧ (req4 acked).kind = .write ∧
    (req4 acked).answer = some .ack ∧ acked.hasGang (req4 acked).gang = true := by decide +kernel

theorem test_hyps_Replies_2 :
    shielded.stale (req4 shielded) = false ∧ (req4 shielded).dead = false ∧ shielded.shieldFirst 4 (req4 shielded) = true ∧
    (req4 shielded).parked = false ∧ (req4 shielded).answer = some (.shield 3 5) ∧ (shielded.cmd (req4 shielded).cmd).live = true ∧
    (shielded.cmd (req4 shielded).cmd).stop = none := by decide +kernel

theorem test_hyps_Replies_3 :
    (req4 stale4).parked = false ∧ (req4 stale4).answer.isSome = true ∧ stale4.stale (req4 stale4) = true := by decide +kernel

theorem test_hyps_Replies_4 :
    loaded.stale (req4 loaded) = false ∧ (req4 loaded).dead = false ∧ (req4 loaded).kind = .read ∧
    (req4 loaded).parked = false ∧ (req4 loaded).host = none ∧ (req4 loaded).volatile = true ∧
    (req4 loaded).accs = [lane 5 124 []] ∧ (req4 loaded).tva % 128 = 0 ∧ 124 + 4 ≤ (req4 loaded).tva + 128 ∧
    loaded.hasGang 0 = true ∧ (4 : Nat) < laRegs (loaded.cmd 7).block := by decide +kernel

theorem test_hyps_SliceHashOneToOne :
    (2 : Nat) < 3 ∧ usable 2 - 128 < usable 2 ∧ (usable 2 - 128) % 128 = 0 ∧ 0 < usable 0 := by decide +kernel

def line9 : List Byte := List.replicate 128 9

def homed (kind : ReqKind) : State := { (live.setReq 4 { kind := kind, cmd := 7, slice := 3, volatile := true, accs := [lane 5 8 [1, 2, 3, 4]] }) with uc := { live.uc with ways := [(wayKey 0 0 3, { valid := 15, owner := 3, data := line9 })] } }

def behind : State := (homed .read).setReq 3 { kind := .write, cmd := 7, slice := 3, accs := [lane 5 8 [1, 2, 3, 4]] }

def closed (k : ReqKind) : State := (homed k).updChan 0 fun v => { v with unit := .down }

def moving (k : ReqKind) (d : Dir) : State := { (homed k) with uc := { (homed k).uc with ways := [(wayKey 0 0 3, { valid := 15, owner := 3, data := line9, dir := d })] } }

def wayBusy : State := { rdy with uc := { rdy.uc with wayBusy := true, wayOp := some (511, 15, true) } }

def wayFull (d : Dir) : State := { wayBusy with uc := { wayBusy.uc with ways := [(wayKey 511 7 15, { valid := 15, data := line9, dir := d })] } }

def dieOff : State := { rdy with dev := { rdy.dev with dies := [(7, .down)] } }

theorem test_hyps_HomeSlice_1 :
    homeOf 0 0 = (0, 0) := by decide +kernel

theorem test_hyps_HomeSlice_2 :
    ∀ k ∈ [ReqKind.read, .write], (homed k).powered = true ∧ (Tbl.find? (homed k).reqs 4).isSome = true ∧ 4 ∉ (homed k).uc.waiting ∧ (req4 (homed k)).dead = false ∧ (req4 (homed k)).missed = false ∧
    (homed k).queuedAtChan 4 = false ∧ (req4 (homed k)).answer = none ∧ (req4 (homed k)).parked = false ∧ (req4 (homed k)).kind = k ∧
    (homed k).mem.chans = [] ∧ (homed k).pairedLine 0 = false ∧ (homed k).mustWait 4 0 0 (reqMask 0 [lane 5 8 [1, 2, 3, 4]]) = false ∧
    ((homed k).chan (chanOfUcSlice 0)).retraining = false ∧ (homed k).homeShield 0 = none ∧
    (homed k).findWay 0 0 false = some 3 ∧ ((homed k).way (wayKey 0 0 3)).valid = 15 := by decide +kernel

theorem test_hyps_HomeSlice_3 :
    touchedSectors (reqMask 0 [lane 5 8 [1, 2, 3, 4]]) &&& ~~~(15#4) = 0 ∧ (homed .write).flt.inject.armed = false ∧
    reqMask 0 [lane 5 8 [1, 2, 3, 4]] ≠ 0 ∧ ((homed .write).slice 0).logging = false ∧
    (∀ v, v < 16 → ((homed .read).way (wayKey 0 0 v)).tagErr = 0) ∧ ((homed .read).way (wayKey 0 0 3)).dataErr = 0 ∧
    ((homed .read).way (wayKey 0 0 3)).released = false ∧ ((homed .read).way (wayKey 0 0 3)).dir = .none := by decide +kernel

theorem test_hyps_HomeSlice_4 :
    behind.mustWait 4 0 0 (reqMask 0 [lane 5 8 [1, 2, 3, 4]]) = true := by decide +kernel

theorem test_hyps_HomeSlice_5 :
    (closed .read).homeShield 0 = some (3, 0) ∧ (closed .write).homeShield 0 = some (3, 0) := by decide +kernel

theorem test_hyps_HomeSlice_6 :
    (moving .read .filling).dirOf 0 0 = .filling ∧ (moving .read .filling).homeShield 0 = none ∧ (moving .write .replica).dirOf 0 0 = .replica ∧
    (moving .write .replica).homeShield 0 = none ∧ (moving .read .filling).mustWait 4 0 0 (reqMask 0 [lane 5 8 [1, 2, 3, 4]]) = false ∧
    (moving .write .invalidating).dirOf 0 0 = .invalidating := by decide +kernel

theorem test_hyps_HomeSlice_7 :
    wayBusy.ready = true ∧ wayBusy.uc.wayBusy = true ∧ rdy.uc.wayBusy = false := by decide +kernel

theorem test_hyps_HomeSlice_8 :
    rdy.dieState (dieOfUcSlice 511) = .up ∧ rdy.ucOffline 511 = false ∧ wayBusy.powered = true ∧
    wayBusy.uc.wayOp = some ((511#9).toNat, (15 : Fin 16).val, true) ∧ wayBusy.setsHeld 511 15 = [] := by decide +kernel

theorem test_hyps_HomeSlice_9 :
    (wayBusy.setsHeld 511 15).all (wayBusy.canEmpty 511 15) = true ∧ wayBusy.goesThrough fun t => { t with uc := { t.uc with
    wayOff := Tbl.upd 0 t.uc.wayOff 511 (fun m => setBit m 15 true), wayOp := none, wayBusy := false, wayDone := true } } := by decide +kernel

theorem test_hyps_HomeSlice_10 :
    (wayFull .none).setsHeld 511 15 = [7] ∧ ((wayFull .none).setsHeld 511 15).all ((wayFull .none).canEmpty 511 15) = true ∧
    ((wayFull .filling).setsHeld 511 15).all ((wayFull .filling).canEmpty 511 15) = false := by decide +kernel

theorem test_hyps_HomeSlice_11 :
    dieOff.dieState (dieOfUcSlice 511) ≠ .up ∧ dieOff.ready = true := by decide +kernel

def withDir (d : Dir) (rs : Tbl Req) : State := { (rdy.setSlice 0 { defn := { quotaMib := 768 } }) with uc := { rdy.uc with ways := [(wayKey 0 0 3, { valid := 15, data := line9, dir := d })] }, reqs := rs }

def missing : State := withDir .none [(4, { missed := true })]

def freed : State := { missing with uc := { missing.uc with ways := [(wayKey 0 0 3, { valid := 15, data := line9, released := true })] } }

def farDown : State := missing.updChan 64 fun v => { v with unit := .down }

def noWay : State := { missing with uc := { missing.uc with wayOff := [(256, 65535)] } }

theorem test_hyps_ReplicaProtocol_1 :
    (withDir .filling []).powered = true ∧ (withDir .filling []).dirOf 0 0 = .filling ∧ (withDir .invalidating []).dirOf 0 0 = .invalidating ∧
    (withDir .invalidating []).findWay (0 ^^^ 256) 0 true = none := by decide +kernel

theorem test_hyps_ReplicaProtocol_2 :
    (withDir .invalidating []).powered = true := by decide +kernel

theorem test_hyps_ReplicaProtocol_3 :
    missing.dirOf 0 0 ≠ .filling ∧ missing.dirOf 0 0 ≠ .invalidating ∧ missing.missedReads 0 ≠ [] ∧ missing.homeShield (0 ^^^ 256) = none ∧
    (((missing.missedReads 0).foldl State.applyAgain missing.begun).mayReplicate 0 0) = true ∧
    (((missing.missedReads 0).foldl State.applyAgain missing.begun).installReplica 0 0).2 = true ∧
    (((((missing.missedReads 0).foldl State.applyAgain missing.begun).installReplica 0 0).1).setDir 0 0 .filling).uc.held = false := by decide +kernel

theorem test_hyps_ReplicaProtocol_4 :
    freed.missedReads 0 ≠ [] ∧ (((freed.missedReads 0).foldl State.applyAgain freed.begun).mayReplicate 0 0) = false ∧
    ((freed.missedReads 0).foldl State.applyAgain freed.begun).uc.held = false := by decide +kernel

theorem test_hyps_ReplicaProtocol_5 :
    farDown.homeShield (0 ^^^ 256) = some (3, 64) ∧ farDown.missedReads 0 ≠ [] ∧
    farDown.goesThrough fun u => (farDown.missedReads 0).foldl (fun t rid => t.answerReq rid (.shield 3 64)) u := by decide +kernel

theorem test_hyps_ReplicaProtocol_6 :
    noWay.missedReads 0 ≠ [] ∧ noWay.homeShield (0 ^^^ 256) = none ∧
    (((noWay.missedReads 0).foldl State.applyAgain noWay.begun).mayReplicate 0 0) = true ∧
    (((noWay.missedReads 0).foldl State.applyAgain noWay.begun).installReplica 0 0).2 = false ∧
    (((noWay.missedReads 0).foldl State.applyAgain noWay.begun).installReplica 0 0).1.uc.held = false := by decide +kernel

def trained (f : Chan → Chan) : State := rdy.setChan 5 (f { trained := true })

def paused : State := trained fun v => { v with retraining := true }

def at5 : BitVec 44 := BitVec.ofNat 44 (dpaOf 0 (lineOfChan 5 0).1 (lineOfChan 5 0).2)

def asking (s : State) : State := s.setReq 4 { kind := .read, dpa := at5.toNat, volatile := true }

def opened : State := (trained id).openShare 5 ((trained id).blockOfLine 5 0)

def badMap : State := { opened with mem := { opened.mem with mapCache := [] } }

def mapErrs : List (Nat × Byte) := (List.range 5).map fun k => (k, 1)

def poisoned : State := ((trained id).openShare 5 ((trained id).blockOfLine 5 0)).setLineState 5 0 .poisoned

theorem test_hyps_ChannelAccess_1 :
    0 < chanLines (trained id).density ∧ chanLines 0 - 1 < chanLines (trained id).density ∧ rdy.chanServes 5 = false ∧
    (trained id).chanServes 5 = true ∧ ((trained id).chan 5).retraining = false := by decide +kernel

theorem test_hyps_ChannelAccess_2 :
    paused.chanServes 5 = true ∧ (paused.chan 5).retraining = true := by decide +kernel

theorem test_hyps_ChannelAccess_3 :
    (asking (trained id)).requestFor 5 0 4 = true ∧ (asking paused).requestFor 5 0 4 = true ∧ (trained id).requestFor 5 0 4 = false ∧
    ((trained id).mapLookup 5 0 []).2 = true := by decide +kernel

set_option maxRecDepth 100000 in
theorem test_hyps_ChannelAccess_4 :
    ((asking badMap).mapLookup 5 0 mapErrs).2 = false ∧ (asking badMap).requestFor 5 0 4 = true ∧
    (Tbl.find? ((asking badMap).mapLookup 5 0 mapErrs).1.reqs 4).isSome = true := by decide +kernel

theorem test_hyps_ChannelAccess_5 :
    ((trained id).chanWrite 5 0 line9 (BitVec.allOnes 128)).2 = false := by decide +kernel

theorem test_hyps_ChannelAccess_6 :
    (poisoned.chanWrite 5 0 line9 1).2 = true := by decide +kernel

def due5 (max : Nat) : State := { (trained id) with time := 3906250, whole := { rdy.whole with retrainMax := max } }

def before5 : State := { (trained id) with time := 3905250 }

def killed5 : State := trained fun v => { v with killed := some 0 }

def repairing : State := rdy.setChan 5 { unit := .resetting, pprRun := [9, 10], pprQueue := [9, 10] }

def repack : State := trained fun v => { v with repacking := true, killed := some 2, repackRow := 3 }

def repackEnd : State := trained fun v => { v with repacking := true, killed := some 2, repackRow := rowsOfChan 0 - 1 }

theorem test_hyps_ChannelService_1 :
    (due5 1).mayRetrain 5 = true ∧ retrainPoint 5 (due5 1).time = true ∧ (due5 1).retrainingNow < (due5 1).whole.retrainMax := by decide +kernel

theorem test_hyps_ChannelService_2 :
    (due5 0).mayRetrain 5 = true ∧ (due5 0).whole.retrainMax ≤ (due5 0).retrainingNow := by decide +kernel

theorem test_hyps_ChannelService_3 :
    (paused.chan 5).retraining = true ∧ (paused.chan 5).queued = [] := by decide +kernel

theorem test_hyps_ChannelService_4 :
    before5.mayRetrain 5 = true ∧ retrainPoint 5 (before5.time + 1000) = true := by decide +kernel

theorem test_hyps_ChannelService_5 :
    killed5.ready = true ∧ (killed5.chan 5).killed.isSome = true ∧ ((trained id).chan 5).killed = none := by decide +kernel

theorem test_hyps_ChannelService_6 :
    repairing.powered = true ∧ (repairing.chan 5).unit = .resetting ∧ (repairing.chan 5).pprRun = 9 :: [10] ∧ (repairing.chan 5).freeSpare = some 0 := by decide +kernel

theorem test_hyps_ChannelService_7 :
    repack.chanServes 5 = true ∧ (repack.chan 5).repacking = true ∧ mapLinesOfRow repack.density 3 = [] ∧
    ∀ q ∈ linesOfRow repack.density 3, repack.lineState 5 q ≠ .written := by decide +kernel

theorem test_hyps_ChannelService_8 :
    rowsOfChan repackEnd.density ≤ (repackEnd.chan 5).repackRow + 1 ∧ mapLinesOfRow repackEnd.density (rowsOfChan 0 - 1) = [] ∧
    ∀ q ∈ linesOfRow repackEnd.density (rowsOfChan 0 - 1), repackEnd.lineState 5 q ≠ .written := by decide +kernel

def mgr : ResetSource := .manager 0

def bayDown : State := live.updBay 47 fun v => { v with unit := .resetting }

def pprDue : State := trained fun v => { v with pprArmed := true, pprQueue := [9] }

theorem test_hyps_PhysicalResets_1 :
    mayAsk dark mgr = false ∧ mayAsk live mgr = true ∧ mayAsk live .fault = true ∧ (live.bay 1).unit ≠ .resetting ∧ live.dieState (dieOfBay 1) ≠ .resetting := by decide +kernel

theorem test_hyps_PhysicalResets_2 :
    (bayDown.bay 47).unit = .resetting ∧ mayAsk bayDown mgr = true := by decide +kernel

theorem test_hyps_PhysicalResets_3 :
    (trained fun v => { v with unit := .resetting }).stopRegs = true ∧ ((trained fun v => { v with unit := .resetting }).chan 5).unit = .resetting := by decide +kernel

theorem test_hyps_PhysicalResets_4 :
    mayAsk pprDue mgr = true ∧ (pprDue.chan 5).unit ≠ .resetting ∧ pprDue.dieState (dieOfChan 5) ≠ .resetting ∧ isManager mgr = true ∧
    (pprDue.chan 5).pprArmed = true := by decide +kernel

theorem test_hyps_PhysicalResets_5 :
    live.dieState 7 ≠ .resetting := by decide +kernel

theorem test_hyps_PhysicalResets_6 :
    (live.port 15).unit ≠ .resetting := by decide +kernel

def asked : State := queues.updSlice 3 fun v => { v with reset := .held }

def holding : State := queues.updBay 47 fun v => { v with holder := some 3, scratch := [(0, 1)] }

theorem test_hyps_TenantReset_1 :
    resetting.stopRegs = true ∧ (resetting.slice 3).reset ≠ .none := by decide +kernel

theorem test_hyps_TenantReset_2 :
    iced.stopRegs = true ∧ (iced.slice 3).reset = .none ∧ iced.mayResetTenant 3 = false := by decide +kernel

theorem test_hyps_TenantReset_3 :
    queues.stopRegs = true ∧ (queues.slice 3).reset = .none ∧ queues.mayResetTenant 3 = true := by decide +kernel

theorem test_hyps_TenantReset_4 :
    asked.powered = true ∧ (asked.slice 3).reset = .held ∧ asked.mayResetTenant 3 = true := by decide +kernel

theorem test_hyps_TenantReset_5 :
    holding.cmds = [] ∧ holding.reqs = [] ∧ holding.sweld.outs = [] ∧ holding.bayHolder 47 = some 3 := by decide +kernel

def ticked (s : State) : State := { s with dev := { s.dev with ticks := s.dev.ticks + 2000 } }

def bayEnd : State := ticked (nx1 (exec (.bayReset 47 mgr) rdy))

def bayCut : State := bayEnd.updBay 47 fun v => { v with mgmt := .off }

def chanEnd : State := ticked (nx1 (exec (.channelReset 127 .fault) rdy))

def dieEnd : State := ticked (nx1 (exec (.dieReset 7 false mgr) rdy))

def portEnd : State := ticked (nx1 (exec (.sweldPortReset 15 mgr) rdy))

def tenantEnd : State := ticked (queues.beginTenantReset 3 true)

theorem test_hyps_ResetCompletes_1 :
    bayEnd.powered = true ∧ (bayEnd.bay 47).unit = .resetting ∧ bayEnd.resetLasted domBay 47 = true ∧
    bayEnd.dieState (dieOfBay 47) ≠ .resetting ∧ (bayEnd.bay 47).mgmt = .on := by decide +kernel

theorem test_hyps_ResetCompletes_2 :
    (bayCut.bay 47).unit = .resetting ∧ (bayCut.bay 47).mgmt = .off := by decide +kernel

theorem test_hyps_ResetCompletes_3 :
    (chanEnd.chan 127).unit = .resetting ∧ chanEnd.resetLasted domChan 127 = true ∧ chanEnd.dieState (dieOfChan 127) ≠ .resetting ∧
    (chanEnd.chan 127).pprRun = [] := by decide +kernel

theorem test_hyps_ResetCompletes_4 :
    dieEnd.dieState 7 = .resetting ∧ dieEnd.resetLasted domDie 7 = true ∧ Tbl.get [] dieEnd.nv.repairs 7 = [] := by decide +kernel

theorem test_hyps_ResetCompletes_5 :
    (portEnd.port 15).unit = .resetting ∧ portEnd.resetLasted domPort 15 = true ∧ (portEnd.port 15).mgmt = .on := by decide +kernel

theorem test_hyps_ResetCompletes_6 :
    (tenantEnd.slice 3).reset = .running ∧ tenantEnd.resetLasted domTenant 3 = true ∧ tenantEnd.copiesPosted 3 = true := by decide +kernel

def failingOver : State := { rdy with plb := { rdy.plb with failover := true } }

def heldReset : State := nx1 (exec .perstNAssert rdy)

def storeCut : State := { rdy with nv := { rdy.nv with flash := [(3, [1])] }, dev := { rdy.dev with imageOp := some { op := 3, slice := 0, slotB := true, port := false, addr := 0, len := 512 } } }

theorem test_hyps_PackageResets_1 :
    failed.stopRegs = true ∧ rdy.stopRegs = true ∧ (0x5B : Byte) ≠ 0x5A ∧ rdy.powered = true ∧ rdy.plb.failover = false := by decide +kernel

theorem test_hyps_PackageResets_2 :
    failingOver.powered = true ∧ failingOver.plb.failover = true := by decide +kernel

theorem test_hyps_PackageResets_3 :
    dark.powered = false ∧ dark.pins.pwrGood = false := by decide +kernel

theorem test_hyps_PackageResets_4 :
    heldReset.powered = true ∧ heldReset.dev.perstHold = true := by decide +kernel

theorem test_hyps_PackageResets_5 :
    dark.pins.perstN = true ∧ ({ dark with pins := { dark.pins with perstN := false } } : State).pins.perstN = false := by decide +kernel

theorem test_hyps_PackageResets_6 :
    live.dev.imageOp = none ∧ live.dev.fwOp = none ∧ live.dev.journalAt = none := by decide +kernel

theorem test_hyps_PackageResets_7 :
    storeCut.dev.imageOp = some { op := 3, slice := 0, slotB := true, port := false, addr := 0, len := 512 } ∧ storeCut.whole.loadedFrom ≠ portBit true := by decide +kernel

/-- Firmware of 320 bytes, signed with a key made for these tests, and the fuse that holds the key's hash. -/
  def firmware : Bytes := leBytes 320
  0xc4c1e68c99958aa47439d3a41e43d40d64f5ea7f7be943e98e606c0825ae2798eeaf401f32dc78ff779df6bc03618da7aef91330a91238130a2f276eb1f935c5f2f5e28ceabbfcf7f5cb8cb5dbc65537f2c3b6e3f73f01dfd72af8f85f33ad605e00c050381e310d67d69aa46c69b04cb297da9ab89fd09ae6ac1d43aab4902ae07cb8960e8eac43b0d8f4bc74d5e5d8fb6c22b7b3d7730a7ae82cc1c44a1152e8c8f507706ef830b86120d4c1c86acdf1b7e0b6ac50c62839edbe549e33492800000000474953510000000000000000000000000000000000000000000000000000000000000000000000000000000500000000000000000d08000000000140000000014d574651

def keyed : Nv := { keys := [(0, 0x32b9c24e1d11e1a38c73962adb017b510cd5ac6b15d533ab23de0ad6243050059ba4f70a246da75fa816070f5ffa449c)], flash := [(0, firmware)] }

def atStep6 : State := { (atStep 6) with nv := keyed }

def late : State := { State.reset with dev := { State.reset.dev with ticks := 100000001 } }

def busyPort : State := { rdy with dev := { rdy.dev with linkUp0 := true, imageBusy := true, imageOp := some { op := 2, slice := 0, slotB := false, port := false, addr := 0, len := 0 }, fwBusy := true, fwOp := some { op := 1, slice := 0, slotB := false, port := false, addr := 0, len := 0 }, fillBusy := true }, mig := { rdy.mig with copyBusy := true } }

theorem test_hyps_BringupAndLinks_1 :
    ∀ n ∈ [2, 3, 4, 5, 6, 7, 8], (atStep n).powered = true ∧ (atStep n).dev.state = .bringup ∧ (atStep n).dev.perstHold = false ∧
    (atStep n).dev.step = n ∧ (atStep n).overdue = false := by decide +kernel

theorem test_hyps_BringupAndLinks_2 :
    ∀ e ∈ [(3 : Fin 8), 7], (3 : Fin 8) ≤ e := by decide +kernel

theorem test_hyps_BringupAndLinks_3 :
    badMemory [5] [] [] = some (3, 5) ∧ badMemory [5] [2] [] = some (3, 8) ∧
    badMemory [] [] ((List.replicate 31 2) ++ [1]) = some (4, 124) ∧ badMemory [] [] (List.replicate 32 2) = none := by decide +kernel

theorem test_hyps_BringupAndLinks_4 :
    pickSlot ((atStep 6).slotFw false) ((atStep 6).slotFw true) = none := by decide +kernel

theorem test_hyps_BringupAndLinks_5 :
    pickSlot (atStep6.slotFw false) (atStep6.slotFw true) ≠ none ∧ pickSlot (atStep6.slotWhole false) (atStep6.slotWhole true) = none := by decide +kernel

theorem test_hyps_BringupAndLinks_6 :
    stepLimit late.dev.step < late.dev.ticks - late.dev.stepTime - late.dev.stepWaited := by decide +kernel

theorem test_hyps_BringupAndLinks_7 :
    rdy.powered = true ∧ rdy.dev.perstHold = false := by decide +kernel

theorem test_hyps_BringupAndLinks_8 :
    busyPort.linkUp false = true ∧ busyPort.reqs = [] ∧ (busyPort.dev.imageOp.map (·.port)) = some false ∧
    (busyPort.dev.fwOp.map (·.port)) = some false ∧ busyPort.dev.fillBusy = true ∧ busyPort.dev.fillPort = false ∧
    busyPort.mig.copyBusy = true ∧ busyPort.mig.copyPort = false ∧ mcPoison busyPort.mig.copyCtl.toNat = false := by decide +kernel

def sized (n : Nat) : State := { rdy with nv := keyed, dev := { rdy.dev with imageLen := n, fwLen := n, linkUp0 := true } }

def imageWait (n : Nat) : State := { (sized n) with dev := { (sized n).dev with state := .imageWait } }

/-- A SLICE image that turns slice 3 off, signed with the same key. -/
  def turnOff : Bytes := leBytes 512
  0xd1b788cdc2da3ca95abed2fcdfac89878ca3c3bfc6fba004b6f8960c22fba0fef18d1ac459621c07699faf2c067bc306aef91330a91238130a2f276eb1f935c5f2f5e28ceabbfcf7f5cb8cb5dbc65537f2c3b6e3f73f01dfd72af8f85f33ad605e00c050381e310d67d69aa46c69b04cb297da9ab89fd09ae6ac1d43aab4902ae07cb8960e8eac43b0d8f4bc74d5e5d8fb6c22b7b3d7730a7ae82cc1c44a1152e8c8f507706ef830b86120d4c1c86acdf1b7e0b6ac50c62839edbe549e3349280000000047495351000000000000000000000000000000000000000000000000000000000000000000000000000000000000000000000000000000000000000000000000000000030000000000000000000000000000000000000000000000000000000000000000000000000000000000000000000000000000000100000010000000c00000000100000000000000000000000000000000000000000000000000000000000000000000000000000000000000000000000000000000000000000000000000000000000000000000000000000000000000000000000000000000000000000000000000000000000000080000000300100d0800000001000002000301000153485451

def fetching (op : Nat) : State := { (sized 512) with dev := { (sized 512).dev with imageBusy := true, imageOp := some { op := op, slice := 3, slotB := true, port := false, addr := 0, len := 512 } }, slices := [(3, { state := .applying, prior := .drained })] }

def opOf (op : Nat) : ImageOp := { op := op, slice := 3, slotB := true, port := false, addr := 0, len := 512 }

theorem test_hyps_ImageOperations_1 :
    rdy.imageRegs = true ∧ rdy.dev.imageBusy = false ∧ busyPort.imageRegs = true ∧ busyPort.dev.imageBusy = true := by decide +kernel

theorem test_hyps_ImageOperations_2 :
    badImgLen (sized 0x180).dev.imageLen = false ∧ badImgLen (sized 0x100000).dev.imageLen = false ∧ (sized 0x180).dev.imageBusy = false ∧
    (sized 0x180).ready = true ∧ ((sized 0x180).slice 3).state = .off := by decide +kernel

theorem test_hyps_ImageOperations_3 :
    (imageWait 0x180).imageRegs = true ∧ (imageWait 0x180).dev.state = .imageWait ∧ (sized 0x180).dev.state ≠ .imageWait ∧
    (imageWait 0x180).ready = false := by decide +kernel

theorem test_hyps_ImageOperations_4 :
    ∀ op ∈ [1, 2, 3], (fetching op).imageRegs = true ∧ (fetching op).dev.imageOp = some (opOf op) ∧
    (fetching op).fetchedBytes (opOf op) .linkDown = none ∧
    (fetching op).fetchedBytes (opOf op) (.ok []) = some (List.replicate 512 0) ∧
    wholeCheck (fetching op).nv (fetching op).density (List.replicate 512 0) (some 512) ≠ none := by decide +kernel

theorem test_hyps_ImageOperations_5 :
    (fetching 1).fetchedBytes (opOf 1) (.ok turnOff) = some turnOff := by decide +kernel

theorem test_hyps_ImageOperations_6 :
    (fetching 1).applyCheck 3 (List.replicate 512 0) 512 ≠ none ∧ (fetching 1).applyCheck 3 turnOff 512 = none := by decide +kernel

def fwWait (n : Nat) : State := { (sized n) with dev := { (sized n).dev with state := .fwWait } }

def fwOp (op : Nat) (b : Bool) : ImageOp := { op := op, slice := 0, slotB := b, port := false, addr := 0, len := 320 }

def fwFetch (op : Nat) (b : Bool) : State := { (fwWait 320) with dev := { (fwWait 320).dev with fwBusy := true, fwOp := some (fwOp op b) } }

theorem test_hyps_FirmwareOperations_1 :
    (fwWait 320).imageRegs = true ∧ (fwWait 320).dev.state = .fwWait ∧ (fwWait 320).dev.fwBusy = false ∧ badFwLen (fwWait 320).dev.fwLen = false ∧
    (fwWait 320).ready = false ∧ (sized 320).dev.state ≠ .fwWait ∧ (sized 320).ready = true ∧ busyPort.dev.fwBusy = true := by decide +kernel

theorem test_hyps_FirmwareOperations_2 :
    (fwFetch 1 false).imageRegs = true ∧ (fwFetch 1 false).dev.fwOp = some (fwOp 1 false) ∧
    (fwFetch 1 false).fetchedBytes (fwOp 1 false) .linkDown = none ∧
    (fwFetch 1 false).fetchedBytes (fwOp 1 false) (.ok firmware) = some firmware ∧ firmware.length = 320 ∧
    firmwareCheck keyed (List.replicate 320 0) (some 320) ≠ none := by decide +kernel

theorem test_hyps_FirmwareOperations_3 :
    firmwareCheck keyed firmware (some 320) = none := by decide +kernel

theorem test_hyps_FirmwareOperations_4 :
    (fwFetch 2 true).fwActive true = false ∧ (fwFetch 2 true).nv.journal.worn (portBit true) = false ∧
    ({ (fwFetch 2 false) with dev := { (fwFetch 2 false).dev with fwRunning := true } } : State).fwActive false = true := by decide +kernel

def draining : State := disabled.updSlice 3 fun v => { v with state := .draining, cqs := [] }

def drained (bad : Bool) : State := queues.updSlice 3 fun v => { v with state := .drained, descBad := bad }

def twoKeys : State := { rdy with nv := { rdy.nv with keys := [(0, 1), (3, 2)] } }

def repairsFull : State := { rdy with nv := { rdy.nv with repairs := [(7, List.replicate 64 0)] } }

def blowing : State := { twoKeys with flt := { twoKeys.flt with repairBusy := true, blowing := [(7, 0x55, true)] } }

theorem test_hyps_SliceStatesAndFuses_1 :
    rdy.ready = true ∧ (queues.slice 3).state = .active ∧ (iced.slice 3).state ≠ .active := by decide +kernel

theorem test_hyps_SliceStatesAndFuses_2 :
    (draining.slice 3).state = .draining ∧ draining.quiescent 3 = true ∧ (ending.updSlice 3 fun v => { v with state := .draining }).quiescent 3 = false := by decide +kernel

theorem test_hyps_SliceStatesAndFuses_3 :
    ((drained false).slice 3).state = .drained ∧ ((drained false).slice 3).descBad = false ∧ ((drained true).slice 3).descBad = true := by decide +kernel

theorem test_hyps_SliceStatesAndFuses_4 :
    ∃ k, k < 4 ∧ bitAt twoKeys.nv.usableKeys k = true ∧ bitAt (twoKeys.dev.secRevoke ||| (1#4).toNat % 16) k = false := by decide +kernel

theorem test_hyps_SliceStatesAndFuses_5 :
    ∀ k, k < 4 → bitAt twoKeys.nv.usableKeys k = true → bitAt (twoKeys.dev.secRevoke ||| (9#4).toNat % 16) k = true := by decide +kernel

theorem test_hyps_SliceStatesAndFuses_6 :
    (0xA4 : Byte) ≠ 0xA5 ∧ (0xC4 : Byte) ≠ 0xC5 ∧ twoKeys.flt.repairBusy = false ∧ twoKeys.repairSlots 7 < 64 := by decide +kernel

theorem test_hyps_SliceStatesAndFuses_7 :
    64 ≤ repairsFull.repairSlots 7 ∧ repairsFull.flt.repairBusy = false := by decide +kernel

theorem test_hyps_SliceStatesAndFuses_8 :
    blowing.flt.repairBusy = true ∧ blowing.flt.blowing = (7, 0x55, true) :: [] ∧ twoKeys.flt.blowing = [] := by decide +kernel

def fillOf (len : Nat) (cls : Nat) : W64 := BitVec.ofNat 64 (2 ^ 63 + 3 * 2 ^ 40 + cls * 2 ^ 37 + len)

def fillAt (dst : W64) : State := { base3 with dev := { base3.dev with fillDst := dst, fillSrc := 0x5000 } }

def filling (len : Nat) : State := { (fillAt 0x80) with dev := { (fillAt 0x80).dev with fillBusy := true, fillCtl := fillOf len 0, fillFrom := (0x5000, 0x80) } }

def filled (u : State) : State :=
  let w := writeLines (portPlace false) true line9 0x80 1 0 (u.inClass 0)
  w.1.fillEnd (if w.2 = .ok then 0 else 5)

def copyOf (len : Nat) (flags : Nat) : W64 := BitVec.ofNat 64 (2 ^ 63 + 3 * 2 ^ 40 + flags * 2 ^ 37 + len)

def copyAt (src dst : W64) (busy : Bool) (ctl : W64) : State := { base3 with mig := { base3.mig with copySrc := src, copyDst := dst, copyBusy := busy, copyCtl := ctl, copyFrom := (src.toNat, dst.toNat), copyPoisoned := 9 } }

def outs7 : State := copyAt 0x80 0x7000 true (copyOf 128 0)

def ins7 : State := copyAt 0x7000 0x80 true (copyOf 128 1)

def poisons7 : State := copyAt 0 0x80 true (copyOf 128 4)

def copied (work : State → State × CopyEnd) (u : State) : State :=
  (work (u.inClass 7)).1.copyEnd (if (work (u.inClass 7)).2 = .ok then 0 else 3)

def copyBad : State := copyAt 0x80 0x7000 true (copyOf 0 0)

theorem test_hyps_FillsAndCopies_1 :
    (fillAt 0x80).ready = true ∧ bitAt (BitVec.toNat (0 : W64)) 63 = false ∧ bitAt (fillOf 128 0).toNat 63 = true ∧
    (filling 128).ready = true ∧ (filling 128).dev.fillBusy = true ∧ (fillAt 0x80).dev.fillBusy = false := by decide +kernel

theorem test_hyps_FillsAndCopies_2 :
    (fillAt 0x80).fillCheck (fillOf 128 0).toNat 0x80 = .inr 0x80 ∧
    (fillAt 0x3FF80).fillCheck (fillOf 128 7).toNat 0x3FF80 = .inr 0x3FF80 ∧
    (fillAt 0x3FF80).fillCheck (fillOf 256 0).toNat 0x3FF80 = .inl 1 ∧ (fillAt 0x81).fillCheck (fillOf 128 0).toNat 0x81 = .inl 1 ∧
    (fillAt 0x80).fillCheck (fillOf 0 0).toNat 0x80 = .inl 1 := by decide +kernel

theorem test_hyps_FillsAndCopies_3 :
    (filling 128).fillCheck (filling 128).dev.fillCtl.toNat (filling 128).dev.fillFrom.2 = .inr 0x80 ∧
    (filling 128).hostData (filling 128).dev.fillPort (.error 1) = none ∧ (filling 128).hostData (filling 128).dev.fillPort (.ok line9) = some line9 := by decide +kernel

theorem test_hyps_FillsAndCopies_4 :
    (filling 128).dev.fillPort = false ∧ fillLen (filling 128).dev.fillCtl.toNat / 128 = 1 ∧ fillClass (filling 128).dev.fillCtl.toNat = 0 ∧
    (filling 128).goesThrough filled := by decide +kernel

theorem test_hyps_FillsAndCopies_5 :
    (filling 0).fillCheck (filling 0).dev.fillCtl.toNat (filling 0).dev.fillFrom.2 = .inl 1 ∧ (filling 0).dev.fillBusy = true := by decide +kernel

theorem test_hyps_FillsAndCopies_6 :
    (copyAt 0 0 true 0).ready = true ∧ (copyAt 0 0 true 0).mig.copyBusy = true ∧ (copyAt 0 0 false 0).mig.copyBusy = false ∧
    (copyAt 0x3FF80 0 false 0).copyOk (copyOf 128 0).toNat 0x3FF80 0 = true ∧ (copyAt 0x3FF80 0 false 0).copyOk (copyOf 256 0).toNat 0x3FF80 0 = false := by decide +kernel

theorem test_hyps_FillsAndCopies_7 :
    (∀ s ∈ [outs7, ins7, poisons7], s.ready = true ∧ s.mig.copyBusy = true ∧ s.copyOk s.mig.copyCtl.toNat s.mig.copyFrom.1 s.mig.copyFrom.2 = true) ∧
    mcPoison poisons7.mig.copyCtl.toNat = true ∧ mcPoison outs7.mig.copyCtl.toNat = false ∧ mcPoison ins7.mig.copyCtl.toNat = false ∧
    mcToDevice ins7.mig.copyCtl.toNat = true ∧ mcToDevice outs7.mig.copyCtl.toNat = false ∧
    outs7.hostData outs7.mig.copyPort (.error 1) = none ∧ ins7.hostData ins7.mig.copyPort (.ok line9) = some line9 ∧ outs7.hostData outs7.mig.copyPort (.ok []) = some [] := by decide +kernel

theorem test_hyps_FillsAndCopies_8 :
    ins7.goesThrough (copied (copyIn false false line9 0x80 1 0)) ∧ outs7.goesThrough (copied (copyOut 3 false 0x80 0x7000 1 0)) ∧
    poisons7.goesThrough (copied (copyPoison 0x80 1 0)) ∧ mcSlice outs7.mig.copyCtl.toNat = 3 ∧ mcElide ins7.mig.copyCtl.toNat = false ∧
    mcLen outs7.mig.copyCtl.toNat / 128 = 1 := by decide +kernel

theorem test_hyps_FillsAndCopies_9 :
    copyBad.mig.copyBusy = true ∧ copyBad.copyOk copyBad.mig.copyCtl.toNat copyBad.mig.copyFrom.1 copyBad.mig.copyFrom.2 = false := by decide +kernel

def bayOff (b : Nat) : State := rdy.updBay b fun v => { v with mgmt := .off, unit := .down }

def splitBay : State := rdy.updBay 47 fun v => { v with mgmt := .off }

def knownSplit : State := { splitBay with plb := { splitBay.plb with openSplits := [47] } }

def deadBay : State := rdy.updBay 47 fun v => { v with unit := .down }

def deadSplit : State := { deadBay with plb := { deadBay.plb with openSplits := [47] } }

def failing (s : State) : State := { s with plb := { s.plb with failover := true } }

def portUpAt (p : Nat) : State := rdy.updPort p fun v => { v with state := .up, rxSeq := 5, creditData := 9, creditCtrl := 9 }

def portDrains (p t : Nat) : State := { ((portUpAt p).updPort p fun v => { v with mgmt := .draining, draining := some 1000 }) with time := t }

theorem test_hyps_UnitPower_1 :
    rdy.ready = true ∧ (failing rdy).ready = true ∧ (failing rdy).plb.failover = true ∧ rdy.plb.failover = false ∧
    rdy.mgmtState 0x40 = none ∧ rdy.mgmtState 47 = some .on ∧ (bayOff 47).mgmtState 47 = some .off ∧ rdy.mgmtState (unitPort 15) = some .on := by decide +kernel

theorem test_hyps_UnitPower_2 :
    knownSplit.ready = true ∧ knownSplit.plb.failover = false ∧ knownSplit.plb.openSplits.contains 47 = true ∧
    knownSplit.mgmtState 47 = some .off ∧ knownSplit.mgmtState 47 ≠ some (if true then MgmtState.on else .off) := by decide +kernel

theorem test_hyps_UnitPower_3 :
    (bayOff 47).plb.openSplits.contains 47 = false ∧ ((bayOff 47).bay 47).mgmt = .off ∧ (bayOff 47).powered = true ∧
    ((bayOff 47).bay 47).unit ≠ .resetting ∧ (bayOff 47).dieState (dieOfBay 47) ≠ .resetting := by decide +kernel

theorem test_hyps_UnitPower_4 :
    (rdy.bay 47).mgmt = .on ∧ (rdy.bay 47).idle = true ∧ (rdy.bay 47).unit ≠ .resetting ∧ rdy.cmds = [] := by decide +kernel

theorem test_hyps_UnitPower_5 :
    ((rdy.updBay 0 fun v => { v with mgmt := .draining }).bay 0).mgmt = .draining ∧ (unitPort 15) = 0xCF := by decide +kernel

theorem test_hyps_UnitPower_6 :
    (portUpAt 15).ready = true ∧ ((portUpAt 15).port 15).mgmt = .on ∧ ((portUpAt 15).port 15).unit = .up ∧
    (portUpAt 15).sweld.outs = [] ∧ (portUpAt 15).sweld.ins = [] := by decide +kernel

theorem test_hyps_UnitPower_7 :
    (portDrains 15 64000999).ready = true ∧ ((portDrains 15 64000999).port 15).unit = .up ∧ ((portDrains 15 64000999).port 15).draining = some 1000 ∧
    (portDrains 15 64001000).ready = true ∧ ((portDrains 15 64001000).port 15).unit = .up ∧ ((portDrains 15 64001000).port 15).draining = some 1000 ∧
    (portDrains 15 64001000).sweld.outs = [] ∧ (portDrains 15 64001000).sweld.ins = [] := by decide +kernel

theorem test_hyps_UnitPower_8 :
    (∀ u ∈ splitUnits, rdy.isSplit u = false) ∧ rdy.plb.openSplits = [] ∧ splitBay.isSplit 47 = true ∧ deadBay.isSplit 47 = true ∧
    splitBay.plb.openSplits.contains 47 = false := by decide +kernel

theorem test_hyps_UnitPower_9 :
    knownSplit.isSplit 47 = true ∧ deadSplit.isSplit 47 = true ∧ deadSplit.mgmtState 47 = some .on ∧ knownSplit.mgmtState 47 ≠ some .on ∧
    deadSplit.plb.openSplits.contains 47 = true ∧ knownSplit.unitIdle 47 = true := by decide +kernel

def fwB : State := { (sized 0) with dev := { (sized 0).dev with fwSlotB := true, fwRunning := true } }

theorem test_hyps_PlumbCommands_1 :
    rdy.pins.pwrGood = true ∧ (0 : Byte).toNat = 0 ∧ 8 < (9 : Byte).toNat ∧ rdy.powered = true ∧ rdy.dev.perstHold = false := by decide +kernel

theorem test_hyps_PlumbCommands_2 :
    rdy.ready = true ∧ rdy.plb.failover = false ∧ badFwLen ([] : Bytes).length = true ∧ badImgLen ([] : Bytes).length = true ∧
    (sized 0).ready = true ∧ (sized 0).plb.failover = false ∧ badFwLen firmware.length = false ∧ badFwLen (List.replicate 320 (0 : Byte)).length = false ∧
    (firmwareCheck (sized 0).nv (List.replicate 320 0) (some 320)).isSome = true ∧
    firmwareCheck (sized 0).nv firmware (some firmware.length) = none ∧ (sized 0).fwActive true = false ∧ (sized 0).nv.journal.worn 1 = false := by decide +kernel

theorem test_hyps_PlumbCommands_3 :
    fwB.ready = true ∧ fwB.plb.failover = false ∧ fwB.fwActive true = true ∧ fwB.nv = (sized 0).nv := by decide +kernel

theorem test_hyps_PlumbCommands_4 :
    (failing rdy).powered = true ∧ (failing rdy).plb.failover = true := by decide +kernel

theorem test_hyps_PlumbCommands_5 :
    (splitBay.plb.openSplits = []) ∧ knownSplit.unitIdle 47 = true ∧ (false = false ∨ true = false) ∧
    ({ knownSplit with cmds := [(7, { phase := .running, slice := 3, grant := [(47, 1)] })], bays := [(47, { mgmt := .off, hod := some 7 })] } : State).unitIdle 47 = false := by decide +kernel

def loopAt (t level : Nat) (limit : Nat) : State := { rdy with time := t, plb := { rdy.plb with level := level, mgrLimit := limit, lastLoop := some 0 } }

def lowPin : State := { (loopAt 10000 0 1000) with pins := { rdy.pins with prochotN := false } }

def overNow : State := { (loopAt 10000 0 1000) with plb := { (loopAt 10000 0 1000).plb with overCurrentUntil := 10001, thermal := true } }

def hotAt (i : Nat) : State := { rdy with plb := { rdy.plb with hot := [i] } }

theorem test_hyps_PowerLoop_1 :
    rdy.powered = true ∧ rdy.ready = true ∧ (300#32).toNat % 2048 = 300 ∧ (1150#32).toNat % 2048 = 1150 ∧ (1151#32).toNat % 2048 = 1151 ∧
    (299#32).toNat % 2048 = 299 ∧ failed.powered = true ∧ failed.ready = false := by decide +kernel

theorem test_hyps_PowerLoop_2 :
    rdy.plb.failover = false ∧ 300 ≤ (300#16).toNat ∧ (300#16).toNat ≤ 1150 ∧ (299#16).toNat < 300 ∧ 1150 < (1151#16).toNat := by decide +kernel

theorem test_hyps_PowerLoop_3 :
    (loopAt 10001 0 1000).time % 10000 ≠ 0 ∧ some (loopAt 0 0 1000).time = (loopAt 0 0 1000).plb.lastLoop ∧ (loopAt 10001 0 1000).powered = true ∧
    ([0, 40, 88].all fun k : Nat => let s := loopAt 10000 k 1000
      s.powered && s.time % 10000 == 0 && s.plb.lastLoop != some s.time && decide (s.plb.overCurrentUntil ≤ s.time) &&
        s.pins.prochotN && s.powerLimit == 1000 && !s.plb.thermal) = true := by decide +kernel

theorem test_hyps_PowerLoop_4 :
    lowPin.powered = true ∧ lowPin.plb.level ≤ 88 ∧ lowPin.plb.level ≤ 88 ∧ lowPin.time % 10000 = 0 ∧ lowPin.plb.lastLoop ≠ some lowPin.time ∧
    overNow.powered = true ∧ overNow.time < overNow.plb.overCurrentUntil ∧ overNow.plb.thermal = true ∧ overNow.time % 10000 = 0 ∧ overNow.plb.lastLoop ≠ some overNow.time := by decide +kernel

theorem test_hyps_PowerLoop_5 :
    (failing rdy).ready = true ∧ (failing rdy).plb.failover = true := by decide +kernel

theorem test_hyps_PowerLoop_6 :
    (∀ i ∈ rdy.plb.hot, (List.replicate 104 115).getD i 0 < 115) ∧ (∀ i ∈ (hotAt 103).plb.hot, (List.replicate 104 114).getD i 0 < 115) ∧
    103 ∈ (hotAt 103).plb.hot ∧ 103 < 104 ∧ 115 ≤ (List.replicate 104 115).getD 103 0 ∧ (hotAt 103).powered = true ∧
    (∃ x ∈ List.replicate 104 95, (hotAt 103).plb.tjThrottle ≤ x) ∧ (∀ x ∈ List.replicate 104 93, x + 2 ≤ (hotAt 103).plb.tjThrottle) := by decide +kernel

def noisy (n : Nat) (code unit : Nat) : State := rdy.updReporter 5 fun r => { r with queue := List.replicate n { code := code, unit := unit, count := 3 }, lostNext := true }

def info5 : FaultInfo := { unit := 5, slice := some 255, count := 2, info0 := 7, info1 := 9 }

theorem test_hyps_FaultRecorded :
    info5.carrier = 5 ∧ ((noisy 3 fcPinKill 5).reporter info5.carrier).queue.length < 4 ∧
    4 ≤ ((noisy 4 fcPinKill 5).reporter info5.carrier).queue.length ∧
    ((noisy 4 fcPinKill 5).reporter info5.carrier).queue.getLast? = some { code := fcPinKill, unit := 5, count := 3 } ∧
    fcPinKill ≠ fcMalformed ∧ ((noisy 4 fcMalformed 5).reporter info5.carrier).queue.getLast? = some { code := fcMalformed, unit := 5, count := 3 } ∧
    info5.slice = some 255 ∧ tenantCopy fcHostAccess = true := by decide +kernel

def rec1 : FaultRec := { code := fcPinKill, unit := 5, time := 9 }

def recU : FaultRec := { code := fcChannelDown, unit := 5, time := 9 }

def queued (u : Nat) (q : List FaultRec) : State := rdy.updReporter u fun r => { r with queue := q, err := true, errN := false }

def collected : State := { rdy with flt := { rdy.flt with collectors := [(0, [rec1])] } }

def quietPair : State := rdy.updReporter 5 fun r => { r with queue := [rec1] }

def holding1 (port : Bool) : State := { rdy with dev := { rdy.dev with linkUp0 := true }, flt := { rdy.flt with held := [recU], ring := { ring64 with port := port, posted := 63 } } }

def sampled (eq em : Nat) (q : List FaultRec) : State := rdy.updReporter 5 fun r => { r with equalEdges := eq, emptyEdges := em, queue := q }

theorem test_hyps_ReportingPath_1 :
    dieOfUnit (47#12).toNat = some 7 ∧ ((queued 47 [rec1]).reporter 47).queue = [rec1] ∧ (Tbl.get [] (queued 47 [rec1]).flt.collectors 7).length < 64 ∧
    dieOfUnit (0xC0#12).toNat = none ∧ ((queued 0xC0 [recU]).reporter 0xC0).queue = [recU] ∧ (queued 47 [rec1]).pins.pwrGood = true ∧
    dieOfUnit (5#12).toNat = some 0 ∧ (collected.reporter 5).queue = [] ∧ Tbl.get [] collected.flt.collectors 0 = [rec1] := by decide +kernel

theorem test_hyps_ReportingPath_2 :
    hasPair (47#12).toNat = true ∧ ((queued 47 [rec1]).reporter 47).err = true ∧ hasPair (5#12).toNat = true ∧ (quietPair.reporter 5).err = false := by decide +kernel

theorem test_hyps_ReportingPath_3 :
    tenantCopy rec1.code = false ∧ tenantCopy recU.code = false ∧ faultClass recU.code = 1 ∧ rdy.flt.held.length < 256 ∧ rdy.flt.held = [] := by decide +kernel

theorem test_hyps_ReportingPath_4 :
    (holding1 false).pins.pwrGood = true ∧ (holding1 false).flt.held = [recU] ∧ (holding1 false).flt.ring.enable = true ∧ 0 < (holding1 false).flt.ring.free ∧
    ((holding1 false).ringPort (holding1 false).flt.ring).isSome = true := by decide +kernel

theorem test_hyps_ReportingPath_5 :
    hasPair (0x110#12).toNat = false ∧ hasPair (0x30#12).toNat = false ∧ hasPair (5#12).toNat = true ∧ ((sampled 2 0 []).reporter 5).forced = 0 ∧
    ((sampled 2 0 []).reporter 5).equalEdges < 3 ∧ ((sampled 3 0 []).reporter 5).equalEdges = 3 ∧ ((sampled 3 0 [rec1]).reporter 5).queue ≠ [] ∧
    ((sampled 0 63 []).reporter 5).queue = [] ∧ ((sampled 0 63 []).reporter 5).emptyEdges = 63 := by decide +kernel

def leaking (t : Nat) : State := { rdy with time := t, flt := { rdy.flt with leak := 1, buckets := [(0, 1), (5, 32)] } }

def acking : State := { rdy with flt := { rdy.flt with lastSeq := 9, nextSeq := 10, openRecs := [(8, 1), (9, 2)] } }

def armed47 : State := nx1 (exec (.arm 0x3C 47 3 0x81 1) rdy)

def dieDown : State := { rdy with dev := { rdy.dev with dies := [(7, .resetting)] } }

def flaky : State := rdy.updBridge 13 fun v => { v with recent := List.replicate 15 (127, 0) }

theorem test_hyps_InjectionAndLogicFaults_1 :
    (leaking 1).ready = true ∧ (leaking 1).time % ((leaking 1).flt.leak * 1000000000) ≠ 0 ∧ (leaking 0).time = (leaking 0).flt.lastLeak ∧
    0 < (leaking 1000000000).flt.leak ∧ (leaking 1000000000).time % ((leaking 1000000000).flt.leak * 1000000000) = 0 ∧
    (leaking 1000000000).time ≠ (leaking 1000000000).flt.lastLeak ∧ Tbl.rising 0 (leaking 1000000000).flt.buckets = true := by decide +kernel

theorem test_hyps_InjectionAndLogicFaults_2 :
    acking.ready = true ∧ ackCovers acking.flt.lastSeq 8 = true ∧ ackCovers acking.flt.lastSeq 9 = true ∧ ackCovers acking.flt.lastSeq 10 = false := by decide +kernel

theorem test_hyps_InjectionAndLogicFaults_3 :
    (0x3C : Byte) ≠ 0x3D ∧ checkerSuits (3 : Fin 8).val (47#12).toNat = true ∧ checkerSuits (3 : Fin 8).val (0x40#12).toNat = false ∧ rdy.flt.inject.armed = false ∧
    forceable (0xF0#12).toNat = false ∧ forceable (0x3FF#12).toNat = true ∧ (1#16) ≠ 0 := by decide +kernel

theorem test_hyps_InjectionAndLogicFaults_4 :
    armed47.ready = true ∧ armed47.flt.inject.armed = true := by decide +kernel

theorem test_hyps_InjectionAndLogicFaults_5 :
    dieDown.ready = true ∧ dieDown.dieState 7 ≠ .up ∧ rdy.dieState 7 = .up ∧ rdy.dieState (dieOfUcSlice (511#9).toNat) = .up := by decide +kernel

theorem test_hyps_InjectionAndLogicFaults_6 :
    (((127, rdy.time) :: (flaky.bridge 13).recent.filter fun e : Nat × Nat => decide (rdy.time < e.2 + 1000000000)).filter
    fun e : Nat × Nat => decide (e.1 = 127)).length = 16 := by decide +kernel

theorem test_hyps_InjectionAndLogicFaults_7 :
    ((rdy.bridge (13 : Fin 14).val).recent.filter fun e : Nat × Nat => decide (e.1 = (127#7).toNat)).length < 15 := by decide +kernel

def twoCopies (state : SliceState) (a b : Bytes) : State := rdy.setSlice 255 { state := state, copy0 := a, copy1 := b }

def sealed (x : Bytes) : Bytes := x ++ leBytes 4 (crc32c x).toNat

def goodCopy : Bytes := sealed (List.replicate 124 0)

def metered (s : State) : State := { s with whole := { s.whole with scrubCache := 1000, scrubLs := 1000 }, dev := { s.dev with ticks := 1000000 } }

def lastSet : State := metered { rdy with uc := { rdy.uc with scrubSet := [(511, 1535)] } }

def rowAt (n : Nat) : State := (metered rdy).updBay 47 fun v => { v with scrubRow := n }

def scrub5 (f : Chan → Chan) (budget : Nat) (fresh : Bool) : State := let s := (trained f); { s with dev := { s.dev with ticks := 80000 }, whole := { s.whole with scrubPassH := 24, scrubDram := budget }, mem := { s.mem with notFresh := if fresh then [] else [(freshKey 5 (s.blockOfLine 5 0), true)] } }

def scrubW (budget : Nat) : State := (scrub5 id budget false).setLineState 5 0 .written

def passEnd : State := trained fun v => { v with scrubPos := chanLines 0 - 1, scrubPasses := 65535 }

theorem test_hyps_Scrubbers_1 :
    (splitItems {} goodCopy).length = 1 ∧ copyOk {} goodCopy = true ∧ copyOk {} (1 :: goodCopy.drop 1) = false ∧
    firstDiff goodCopy (1 :: goodCopy.drop 1) 0 = some 0 ∧ firstDiff (1 :: goodCopy.drop 1) goodCopy 0 = some 0 ∧ rdy.ready = true := by decide +kernel

theorem test_hyps_Scrubbers_2 :
    rdy.ucOffline 511 = false ∧ rdy.dieState (dieOfUcSlice 511) = .up ∧ dieDown.dieState (dieOfUcSlice 511) ≠ .up ∧ rdy.uc.ways = [] := by decide +kernel

theorem test_hyps_Scrubbers_3 :
    lastSet.ready = true ∧ lastSet.uc.ways = [] ∧ Tbl.get 0 lastSet.uc.scrubSet 511 = 1535 ∧ 10000 ≤ lastSet.cacheCredit 511 ∧
    10000 ≤ (metered rdy).cacheCredit 511 ∧ rdy.cacheCredit 511 < 10000 := by decide +kernel

theorem test_hyps_Scrubbers_4 :
    ((bayOff 47).bay 47).mgmt = .off ∧ ((rowAt 16382).bay 47).mgmt ≠ .off ∧ ((rowAt 16382).bay 47).unit ≠ .resetting ∧ ((rowAt 16382).bay 47).errs = [] ∧
    ((rowAt 16382).bay 47).scrubRow + 1 < 16384 ∧ 16384 ≤ ((rowAt 16383).bay 47).scrubRow + 1 ∧ ((rowAt 16383).bay 47).errs = [] ∧
    1000 ≤ (rowAt 16382).rowCredit 47 ∧ 1000 ≤ (rowAt 16383).rowCredit 47 ∧ rdy.rowCredit 47 < 1000 := by decide +kernel

set_option maxRecDepth 100000 in
theorem test_hyps_Scrubbers_5 :
    (scrub5 id 5 true).chanServes 5 = true ∧ ((scrub5 id 5 true).chan 5).repacking = false ∧ ((scrub5 id 5 true).chan 5).retraining = false ∧
    (scrub5 id 5 true).scrubDue 5 = true ∧ rdy.scrubDue 5 = false ∧ rdy.chanServes 5 = false ∧ (scrub5 id 5 true).fresh 5 ((scrub5 id 5 true).blockOfLine 5 0) = true ∧
    (scrub5 id 5 false).fresh 5 ((scrub5 id 5 false).blockOfLine 5 0) = false ∧ (((scrub5 id 5 false).mapCheck 5 0).1.lineState 5 0) ≠ .written ∧
    (scrub5 id 5 false).chanServes 5 = true ∧ (scrub5 id 5 false).scrubDue 5 = true := by decide +kernel

set_option maxRecDepth 100000 in
theorem test_hyps_Scrubbers_6 :
    (scrubW 0).chanServes 5 = true ∧ (scrubW 0).scrubDue 5 = true ∧ (scrubW 0).fresh 5 ((scrubW 0).blockOfLine 5 0) = false ∧
    ((scrubW 0).mapCheck 5 0).1.lineState 5 0 = .written ∧ ((((scrubW 0).mapCheck 5 0).1.earnScrub 5).chan 5).scrubCredit < 40000 ∧
    ((scrubW 5).mapCheck 5 0).1.lineState 5 0 = .written ∧ 40000 ≤ ((((scrubW 5).mapCheck 5 0).1.earnScrub 5).chan 5).scrubCredit := by decide +kernel

theorem test_hyps_Scrubbers_7 :
    (passEnd.chan 5).scrubPos + 1 = chanLines passEnd.density ∧ chanLines passEnd.density ≤ (passEnd.chan 5).scrubPos + 1 := by decide +kernel

def counting : State := { rdy with tel := { rdy.tel with counters := [(0, { sel := 3, value := 9, ovf := true, snap := 1 }), (127, { sel := 5, value := 8, snap := 2, snapOvf := true })] } }

def tickAt (t : Nat) (r : Ring) (sl : SliceState) : State := { (rdy.setSlice 255 { state := sl }) with time := t, tel := { rdy.tel with ring := r } }

def ticked0 : State := { (tickAt 0 {} .off) with tel := { rdy.tel with lastTick := some 0 } }

def fullRing : Ring := { enable := true, sizeLog2 := 6, posted := 64 }

def aged (n m g : Nat) : State := { rdy with tel := { rdy.tel with aging := [(9, { guardMv := g, samples := List.replicate n m })] } }

theorem test_hyps_Telemetry_1 :
    counting.ready = true ∧ (127 : Nat) < 128 ∧ (0x8000#16).getLsbD (127 / 8) = true ∧ (0x8000#16).getLsbD (0 / 8) = false := by decide +kernel

theorem test_hyps_Telemetry_2 :
    (tickAt 1 {} .off).ready = true ∧ (tickAt 1 {} .off).time % 1000000 ≠ 0 ∧ (ticked0).tel.lastTick = some ticked0.time ∧
    (tickAt 1000000 {} .off).time % 1000000 = 0 ∧ (tickAt 1000000 {} .off).tel.lastTick ≠ some 1000000 ∧ (tickAt 1000000 {} .off).tel.ring.enable = false ∧
    (tickAt 1000000 fullRing .active).tel.ring.enable = true ∧ (tickAt 1000000 fullRing .active).tel.ring.free = 0 ∧ 255 < 256 ∧ ((tickAt 1000000 fullRing .active).slice 255).state ≠ .off := by decide +kernel

theorem test_hyps_Telemetry_3 :
    (failing rdy).powered = true ∧ (failing rdy).plb.failover = true ∧ (aged 58 0 40).powered = true ∧ (aged 58 0 40).plb.failover = false ∧
    (Tbl.get {} (aged 58 0 40).tel.aging 9).samples.length < 59 ∧ (Tbl.get {} (aged 59 0 40).tel.aging 9).guardMv ≤ 40 := by decide +kernel

theorem test_hyps_Telemetry_4 :
    (aged 58 0 40).tel.agingAt = none ∧ ({ rdy with tel := { rdy.tel with agingAt := some 0 } } : State).tel.agingAt = some 0 ∧ rdy.dev.ticks < 0 + 1000000000 := by decide +kernel

def migBusy : State := { rdy with mig := { rdy.mig with busy := true } }

def hasSlice (v : Slice) : State := { (rdy.setSlice 3 v) with mig := { rdy.mig with blobAddr := 0x10000 } }

def frozen3 : State := hasSlice { state := .frozen }

def logs (n : Nat) : State := (List.range n).foldl (fun s k => s.setSlice (100 + k) { state := .active, logging := true }) (hasSlice { state := .active })

def marking : State := { (logs 1) with dev := { rdy.dev with linkUp0 := true }, mig := { (logs 1).mig with ring := { ring64 with posted := 63 }, filters := [(0, [(100, 7), (3, 8)])] } }

def drainedWith (cqs : Tbl Ring) : State := hasSlice { state := .drained, cqs := cqs }

def dueRing : Ring := { due := [{ bytes := [] }] }

def freezing : State := nx1 (exec (.freeze 3) (drainedWith []))

def inbound : State := { freezing with sweld := { freezing.sweld with ins := [(5, { dst := 3 })] }, time := 63999999 }

def exporting : State := { (nx1 (exec (.migExport 3 false) frozen3)) with dev := { rdy.dev with linkUp0 := true } }

def importing : State := { (nx1 (exec (.migImport 3 false) (drainedWith []))) with dev := { rdy.dev with linkUp0 := true } }

theorem test_hyps_Migration_1 :
    migBusy.ready = true ∧ migBusy.mig.busy = true ∧ rdy.mig.busy = false := by decide +kernel

theorem test_hyps_Migration_2 :
    ((logs 4).slice 3).logging = false ∧ ((logs 4).slice 3).state = .active ∧ 4 ≤ ((logs 4).slices.filter fun e : Nat × Slice => e.2.logging).length ∧
    ((logs 3).slices.filter fun e : Nat × Slice => e.2.logging).length < 4 ∧ (logs 4).ready = true ∧ (logs 4).mig.busy = false ∧ ((logs 4).slice 100).logging = true := by decide +kernel

theorem test_hyps_Migration_3 :
    marking.ready = true ∧ marking.mig.busy = false ∧ (marking.slice 100).logging = true ∧ marking.logRoom = true := by decide +kernel

theorem test_hyps_Migration_4 :
    (rdy.slice 3).state ≠ .drained ∧ ((drainedWith []).slice 3).state = .drained ∧ ((drainedWith []).setBuffer 0 { owner := some 3 }).holdsBuffer 3 = true ∧
    (drainedWith []).holdsBuffer 3 = false ∧ ((drainedWith [(15, dueRing)]).slice 3).recordsWait = true ∧ (drainedWith [(15, dueRing)]).holdsBuffer 3 = false ∧
    ((drainedWith []).slice 3).recordsWait = false ∧ (frozen3.slice 3).state = .frozen ∧ (drainedWith [(15, { enable := true })]).queuesOff 3 = false ∧ (drainedWith []).queuesOff 3 = true := by decide +kernel

theorem test_hyps_Migration_5 :
    freezing.mig.op = some (4, 3, false, 0x10000) ∧ (freezing.slice 3).state = .drained ∧ (freezing.slice 3).reset ≠ .running ∧ (freezing.slice 3).freezing = some 0 ∧
    freezing.noInbound 3 = true ∧ inbound.noInbound 3 = false ∧ inbound.time < 0 + 64000000 ∧ (inbound.slice 3).freezing = some 0 := by decide +kernel

theorem test_hyps_Migration_6 :
    exporting.ready = true ∧ exporting.mig.op = some (5, 3, false, 0x10000) ∧ exporting.hostData false (.error 1) = none ∧ exporting.hostData false (.ok []) ≠ none ∧
    importing.ready = true ∧ importing.mig.op = some (7, 3, false, 0x10000) ∧ importing.importFails 3 = none ∧ importing.hostData false .linkDown = none ∧
    importing.hostData false (.ok []) = some [] ∧ blobGood (bytesAt [] 0 0x40000) = false ∧ (iced.setSlice 3 {}).importFails 3 = some 1 := by decide +kernel

def linkOf (v : Port) : State := rdy.setPort 15 v

def upLink : Port := { state := .up, rxSeq := 4095, creditData := 5, creditCtrl := 64, remotePkg := 2, remoteValid := true }

def recov (t : Nat) : State := { (linkOf { upLink with state := .recovering, recoverFrom := 1 }) with time := t }

def sent (n t : Nat) : State := { (linkOf { upLink with replay := [{ lseq := 7, ctrl := true, payload := [1], resends := n }], progress := 5 }) with time := t }

def flitOf (lseq ty : Nat) (b : Bytes) : Bytes := flitBytes lseq ty 0 0 0 0 b 0

theorem test_hyps_LinkLayer_1 :
    (linkOf { state := .training }).powered = true ∧ ((linkOf { state := .training }).port 15).state = .training ∧ ((linkOf { state := .training }).port 15).unit = .up ∧
    (linkOf upLink).portUp 15 = true := by decide +kernel

theorem test_hyps_LinkLayer_2 :
    (recov 20000000).powered = true ∧ ((recov 20000000).port 15).state = .recovering ∧ ((recov 20000000).port 15).unit ≠ .resetting ∧ (recov 0).sweld.outs = [] ∧
    (recov 0).sweld.ins = [] ∧ ((recov 0).port 15).aborts = [] ∧ (recov 20000000).time < ((recov 20000000).port 15).recoverFrom + 20000000 ∧ ((recov 20000001).port 15).recoverFrom + 20000000 ≤ (recov 20000001).time ∧ ((recov 0).port 15).unit = .up := by decide +kernel

theorem test_hyps_LinkLayer_3 :
    (sent 6 2004).portUp 15 = true ∧ (sent 6 2004).time < ((sent 6 2004).port 15).progress + 2000 ∧ ((sent 6 2005).port 15).replay ≠ [] ∧
    ((sent 6 2005).port 15).progress + 2000 ≤ (sent 6 2005).time ∧ (∃ f ∈ ((sent 7 2005).port 15).replay, 7 ≤ f.resends) := by decide +kernel

theorem test_hyps_LinkLayer_4 :
    leAt (flitOf 4095 2 []) 252 4 = (crc32c ((flitOf 4095 2 []).take 252)).toNat ∧ ¬ leAt (1 :: (flitOf 4095 2 []).drop 1) 252 4 = (crc32c ((1 :: (flitOf 4095 2 []).drop 1).take 252)).toNat ∧
    leAt (flitOf 4095 2 []) 0 2 / 4096 = 2 ∧ leAt (flitOf 0 1 []) 0 2 / 4096 = 1 ∧ leAt (flitOf 0 0 []) 0 2 / 4096 = 0 ∧
    (let s := ((linkOf upLink).updPort 15 fun v => { v with fecCorrected := satAdd 32 v.fecCorrected 3 }).takeHeader 15 (flitOf 4095 2 []); s.portUp 15 = true ∧ (BitVec.ofNat 12 (leAt (flitOf 4095 2 []) 0 2) - (s.port 15).rxSeq).toNat = 0) ∧
    (BitVec.ofNat 12 (leAt (flitOf 2046 1 []) 0 2) - upLink.rxSeq).toNat = 2047 ∧ (BitVec.ofNat 12 (leAt (flitOf 2047 1 []) 0 2) - upLink.rxSeq).toNat = 2048 ∧
    ((linkOf { upLink with nakSent := true }).port 15).nakSent = true := by decide +kernel

def steered : State := { (linkOf upLink) with fab := { (linkOf upLink).fab with beaconAt := some 0 }, dev := { (linkOf upLink).dev with ticks := 999 } }

def steerNow : State := { steered with dev := { steered.dev with ticks := 1000 } }

theorem test_hyps_Beacons_1 :
    (linkOf upLink).portUp (15 : Fin 16).val = true ∧ (0 : W64).toNat = 0 ∧ ((linkOf upLink).port 15).beaconTx = 0 ∧ (linkOf upLink).time + 1000 < (1001#64).toNat ∧
    (1000#64).toNat ≤ (linkOf upLink).time + 1000 := by decide +kernel

theorem test_hyps_Beacons_2 :
    steered.portUp 15 = true ∧ steered.fab.beaconAt.any (fun t => decide (steered.dev.ticks < t + 1000)) = true ∧
    steerNow.fab.beaconAt.any (fun t => decide (steerNow.dev.ticks < t + 1000)) = false ∧ steerNow.portUp 15 = true := by decide +kernel

def peered : State := queues.updSlice 3 fun v => { v with defn := { v.defn with classMask := 0x80 }, accepts := [(2, { pkg := 1, remote := 9, valid := true })] }

theorem test_hyps_PeersAndAccepts :
    rdy.ready = true ∧ (rdy.slice 255).state = .off ∧ peered.ready = true ∧ (peered.slice 3).state ≠ .off ∧
    bitAt (peered.slice 3).defn.classMask (0 : Fin 8).val = false ∧ bitAt (peered.slice 3).defn.classMask (7 : Fin 8).val = true ∧
    (∃ e ∈ (peered.slice 3).accepts, e.1 ≠ (15 : Fin 16).val ∧ e.2.valid = true ∧ e.2.pkg = (1#4).toNat ∧ e.2.remote = (9#8).toNat) ∧
    (∀ e ∈ (peered.slice 3).accepts, e.1 = (2 : Fin 16).val ∨ e.2.valid = false ∨ e.2.pkg ≠ (1#4).toNat ∨ e.2.remote ≠ (9#8).toNat) := by decide +kernel

def streams : State := { base3 with sweld := { base3.sweld with ports := [(15, upLink)] }, slices := [(3, { (base3.slice 3) with accepts := [(2, { pkg := 2, remote := 9, valid := true })], defn := { (base3.slice 3).defn with payloadBuffers := 1 } })] }

def body3 (arrival : Bool) (dest : W64) : OpenBody := { src := 9, dst := 3, arrival := arrival, flag := false, dest := dest, len := 1000, flagAddr := 0, tag := 5 }

def withIn (i : InStream) : State := streams.setIn 15 0xFFFF i

def withOut (o : OutStream) : State := streams.setOut 15 0xFFFF o

def retry (t : Nat) (busy : Option Nat) : State := { (withOut { cmd := 7, firstOpen := 1, busyAt := busy }) with time := t }

theorem test_hyps_StreamsOpen_1 :
    streams.portUp 15 = true ∧ (streams.inStream 15 0xFFFF) = none ∧ (streams.port 15).mgmt = .on ∧ ((withIn {}).inStream 15 0xFFFF).isSome = true ∧ (withIn {}).portUp 15 = true ∧
    streams.openReason 15 (body3 false 0x80) (streams.acceptFor 15 (body3 false 0x80)) = none ∧ streams.openReason 15 (body3 true 0) (streams.acceptFor 15 (body3 true 0)) = none ∧
    streams.openReason 15 (body3 false 0x3FFFF) (streams.acceptFor 15 (body3 false 0x3FFFF)) = some 5 := by decide +kernel

theorem test_hyps_StreamsOpen_2 :
    streams.outStream 15 0xFFFF = none ∧ (retry 0 none).outStream 15 0xFFFF = some { cmd := 7, firstOpen := 1 } ∧ (retry 0 none).portUp 15 = true ∧
    (retry 10099 (some 100)).streamOf 7 = some (15, 0xFFFF, { cmd := 7, firstOpen := 1, busyAt := some 100 }) ∧ 10099 < 100 + 10000 ∧ 100 + 10000 ≤ 10100 ∧
    (retry 1000001 (some 100)).portUp 15 = true ∧ 1 + 1000000 ≤ (retry 1000001 (some 100)).time ∧ (retry 1000000 (some 100)).time < 1 + 1000000 := by decide +kernel

def in3 : InStream := { src := 9, dst := 3, dest := 0x80, len := 1152, landed := 1, marks := 4, reported := 0 }

def shut : State := { (withIn in3) with dev := { base3.dev with dies := (List.range 8).map fun d => (d, .resetting) } }

def landedIn (l r t : Nat) : State := { (withIn { in3 with landed := l, reported := r, reportTime := 5 }) with time := t }

def capIn : InStream := { in3 with landed := 2, capstone := some line9 }

def out7 : OutStream := { cmd := 7, opened := true, capSent := true, capTop := true, sent := 2, top := 2 }

theorem test_hyps_StreamData_1 :
    (withIn in3).portUp 15 = true ∧ (withIn in3).inStream 15 0xFFFF = some in3 ∧ streams.inStream 15 0xFFFF = none ∧ (0#32).toNat < in3.landed ∧ in3.marks.getLsbD ((3#32).toNat - in3.landed) = true ∧
    in3.landed ≤ (1#32).toNat ∧ in3.marks.getLsbD ((1#32).toNat - in3.landed) = false ∧ (1#32).toNat - in3.landed < 1024 ∧ (1#32).toNat < membersOf in3.len.toNat ∧ line9.length ≠ memberLen in3.len.toNat 1 ∧
    (List.replicate 512 (7 : Byte)).length = memberLen in3.len.toNat 1 ∧ membersOf in3.len.toNat ≤ (2#32).toNat ∧ in3.marks.getLsbD ((2#32).toNat - in3.landed) = false ∧ 1024 ≤ (1025#32).toNat - in3.landed ∧ in3.marks.getLsbD ((1025#32).toNat - in3.landed) = false := by decide +kernel

theorem test_hyps_StreamData_2 :
    (((withIn { in3 with buffer := some 16383 }).begun.countSweld 15 3 512 false).landBytes 15 { in3 with buffer := some 16383 } 512 (List.replicate 512 7)).2 = true ∧
    (((withIn { in3 with buffer := some 16383 }).begun.countSweld 15 3 512 false).landBytes 15 { in3 with buffer := some 16383 } 512 (List.replicate 512 7)).1.uc.held = false := by decide +kernel

theorem test_hyps_StreamData_3 :
    shut.portUp 15 = true ∧ (((shut.begun.countSweld 15 3 512 false).landBytes 15 in3 512 (List.replicate 512 7)).2 = false) ∧
    ((((shut.begun.countSweld 15 3 512 false).landBytes 15 in3 512 (List.replicate 512 7)).1).abortIn 15 0xFFFF 4).uc.held = false := by decide +kernel

theorem test_hyps_StreamData_4 :
    (landedIn 64 0 5).portUp 15 = true ∧ (landedIn 64 0 5).inStream 15 0xFFFF = some { in3 with landed := 64, reported := 0, reportTime := 5 } ∧ (0 : Nat) + 64 ≤ 64 ∧ (5 : Nat) + 2000 ≤ 2005 ∧
    (landedIn 63 0 2004).inStream 15 0xFFFF = some { in3 with landed := 63, reported := 0, reportTime := 5 } ∧ (2004 : Nat) < 5 + 2000 ∧ (landedIn 63 63 9000).inStream 15 0xFFFF = some { in3 with landed := 63, reported := 63, reportTime := 5 } ∧
    (withOut { top := 9 }).outStream 15 0xFFFF = some { top := 9 } := by decide +kernel

theorem test_hyps_StreamData_5 :
    (withIn capIn).portUp 15 = true ∧ (withIn { capIn with applied := true }).inStream 15 0xFFFF = some { capIn with applied := true } ∧ (2#32).toNat = membersOf in3.len.toNat ∧ (3#32).toNat ≠ membersOf in3.len.toNat ∧ capIn.capstone.isSome = true ∧
    (withIn capIn).inStream 15 0xFFFF = some capIn ∧ capIn.landed = membersOf capIn.len.toNat ∧ capIn.arrival = false ∧ in3.landed ≠ membersOf in3.len.toNat ∧
    ((withIn { capIn with buffer := some 16383 }).begun.landBytes 15 { capIn with buffer := some 16383 } (1152 - 128) line9).2 = true ∧ (shut.begun.landBytes 15 capIn (1152 - 128) line9).2 = false ∧
    ((shut.begun.landBytes 15 capIn (1152 - 128) line9).1.abortIn 15 0xFFFF 4).uc.held = false ∧
    (((withIn capIn).begun.landBytes 15 capIn (1152 - 128) line9).1.capstoneDone 15 0xFFFF capIn).uc.held = false ∧
    ((withIn capIn).begun.landBytes 15 capIn (1152 - 128) line9).2 = true ∧
    (withIn { capIn with arrival := true, cq := 15 }).noCq 3 15 = true ∧
    ((withIn { capIn with arrival := true, cq := 15 }).goesThrough fun s => (s.countRefused 3 true).abortIn 15 0xFFFF 10) := by decide +kernel

theorem test_hyps_StreamData_6 :
    (withOut out7).portUp 15 = true ∧ (withOut out7).outStream 15 0xFFFF = some out7 ∧ out7.closing = false ∧ out7.capTop = true ∧ (withOut { out7 with closing := true }).outStream 15 0xFFFF = some { out7 with closing := true } ∧
    streams.inStream 15 0xFFFF = none ∧ (10#32).toNat = 10 ∧ (4#32) ≠ 0 := by decide +kernel

def swBlock (kind : Byte) : Bytes := block [(0, [kind, 2]), (0x08, [0x80]), (0x10, [0x80, 4]), (0x20, [0x80, 0x10]), (0x28, [1])]

def sending (peers : Tbl Peer) (outs : Tbl OutStream) : State := { ((running (block [(0, [10])])).updCmd 7 fun c => { c with block := swBlock 0 }) with sweld := { ports := [(14, { upLink with outCtrl := [{ bytes := [1] }] }), (15, upLink)], outs := outs }, slices := [(3, { (base3.slice 3) with peers := peers })] }

def peer2 : Tbl Peer := [(2, { pkg := 2, remote := 4, valid := true })]

def far3 : Tbl Peer := [(2, { pkg := 3, valid := true })]

def first : OutStream := { cmd := 7, slice := 3, remote := 4 }

def part : OutStream := { out7 with slice := 3, capSent := false, capTop := false, sent := 1, top := 1 }

def sendsOn (outs : Tbl OutStream) : State := sending peer2 outs

def mine : State := sendsOn [(streamKey 15 0, part)]

def turnGone (s : State) : State := match mine.nextStream 15 with
  | some (_, f) => (s.updPort 15 fun v => { v with rr := f.spend (s.background (s.outClass part)) (msgFlits 512 - 1) }).sendNext 7 15 0 part
  | none => s

def others : State := { (sendsOn [(streamKey 15 0, part), (streamKey 15 1, { part with cmd := 8, sent := 0, top := 0 })]) with
  cmds := ((sendsOn []).setCmd 8 { ((sendsOn []).cmd 7) with slice := 3, desc := block [(0, [10])] }).cmds }

def expecting (read : Bool) (t : Nat) : State := { ((running (block [(0, [10])])).updCmd 7 fun c => { c with block := swBlock 1 }) with time := t, sweld := { expects := [(7, { slice := 3, fenceEnd := 50, read := read })] } }

theorem test_hyps_SendAndExpect_1 :
    (sending [] []).doing 7 opSweld = true ∧ swExpect ((sending [] []).cmd 7).block = false ∧ (sending [] []).streamOf 7 = none ∧ ((sending [] []).peerOf ((sending [] []).cmd 7)).valid = false ∧
    ((sending peer2 []).peerOf ((sending peer2 []).cmd 7)).valid = true ∧ (sending peer2 []).choosePort 2 = some 15 ∧ (sending peer2 []).choosePort 3 = none ∧
    (sending peer2 [(streamKey 15 0, out7)]).streamOf 7 = some (15, 0, out7) ∧ (sending peer2 [(streamKey 15 0, out7)]).portUp 15 = true ∧ out7.opened = true ∧
    (sending peer2 [(streamKey 15 0, { out7 with opened := false })]).streamOf 7 = some (15, 0, { out7 with opened := false }) ∧ (sending peer2 [(streamKey 15 0, { out7 with opened := false })]).doing 7 opSweld = true := by decide +kernel

theorem test_hyps_SendAndExpect_2 :
    ((sending far3 []).peerOf ((sending far3 []).cmd 7)).valid = true ∧ (sending far3 []).goesThrough (fun s => s.refuseSend 7 2) ∧
    (sending [] []).goesThrough (fun s => s.refuseSend 7 1) ∧ (sending peer2 []).freeStream 15 = 0 ∧
    (sending peer2 []).goesThrough (fun s => (s.setOut 15 0 first).sendOpenMsg 15 0 7 4) := by decide +kernel

theorem test_hyps_SendAndExpect_3 :
    mine.streamOf 7 = some (15, 0, part) ∧ mine.portUp 15 = true ∧ part.opened = true ∧ (mine.nextStream 15).map (·.1) = some 0 ∧
    memberLen (swLen (mine.cmd 7).block) 1 = 512 ∧ 1 < membersOf (swLen (mine.cmd 7).block) ∧ mine.goesThrough turnGone := by decide +kernel

theorem test_hyps_SendAndExpect_4 :
    others.streamOf 7 = some (15, 0, part) ∧ (sendsOn [(streamKey 15 0, out7)]).nextStream 15 = none := by decide +kernel

theorem test_hyps_SendAndExpect_5 :
    (others.nextStream 15).map (·.1) = some 0 ∧ others.doing 8 opSweld = true ∧ (others.streamOf 8).map (fun x => (x.1, x.2.1)) = some (15, 1) ∧
    swExpect (others.cmd 8).block = false := by decide +kernel

theorem test_hyps_SendAndExpect_6 :
    (expecting true 50).doing 7 opSweld = true ∧ swExpect ((expecting true 50).cmd 7).block = true ∧ Tbl.find? (expecting true 50).sweld.expects 7 = some { slice := 3, fenceEnd := 50, read := true } ∧
    (expecting true 50).time ≤ 50 ∧ 50 < (expecting false 51).time ∧ Tbl.find? (expecting false 51).sweld.expects 7 = some { slice := 3, fenceEnd := 50 } ∧ (expecting false 51).doing 7 opSweld = true := by decide +kernel

theorem test_hyps_SendAndExpect_7 :
    (expecting false 3).goesThrough fun s => ({ s with sweld := { s.sweld with
    expects := Tbl.put s.sweld.expects 7 { slice := 3, fenceEnd := 50, read := true } } }).readFlags 7 (expectSlots ((expecting false 3).cmd 7)) := by decide +kernel

/-! ## Well-formedness: one ill-formed term for each check -/

theorem test_wf_engine_numbers :
    (Instr.slabRun 0 192).wf = false ∧ (Instr.slabRun 0 191).wf = true ∧ (Instr.gather 0 48).wf = false ∧
      (Instr.select 0 48).wf = false ∧ (Instr.select 0 47).wf = true := by decide +kernel

theorem test_wf_lanes :
    (Instr.loadPlain 0 .tva [{ lane := 0, addr := 0, size := 3 }]).wf = false ∧
      (Instr.loadVolatile 0 { space := .tva } [{ lane := 0, addr := 0, size := 4, reg := 255 }]).wf = false ∧
      (Instr.loadPlain 0 .tva (List.replicate 33 { lane := 0, addr := 0, size := 4 })).wf = false ∧
      (Instr.storePlain 0 .tva [{ lane := 0, addr := 0, size := 4, data := [1] }]).wf = false ∧
      (Instr.storeVolatile 0 .tva (List.replicate 33 (lane 0 0 [1, 2, 3, 4]))).wf = false ∧
      (Instr.storeStream 0 3 .tva [{ lane := 0, addr := 0, size := 5, data := [1, 2, 3, 4, 5] }]).wf = false ∧
      (Instr.storeCapstone 0 3 .tva { lane := 0, addr := 0, size := 0 } none).wf = false ∧
      (Instr.storeStream 0 3 .tva [lane 31 0 [1, 2, 3, 4]]).wf = true := by decide +kernel

theorem test_wf_flush_ranges :
    (Instr.flushRange 0 (.tva 64) 128 .wb).wf = false ∧ (Instr.flushRange 0 (.tva 128) 0 .wb).wf = false ∧
      (Instr.flushRange 0 (.scratch 64) 128 .wb).wf = false ∧ (Instr.flushRange 0 (.tva 128) (2 ^ 32 + 128) .inv).wf = false ∧
      (Instr.flushRange 0 (.tva 128) 192 .inv).wf = false ∧ (Instr.flushRange 0 (.tva 128) (2 ^ 32) .inv).wf = true ∧
      (Instr.storeCapstone 0 3 .tva (lane 0 0 [1, 2, 3, 4]) (some 4)).wf = false := by decide +kernel

theorem test_wf_bring_up :
    (Instr.bringupStepEnd (.fuses true (List.replicate 9 true))).wf = false ∧
      (Instr.bringupStepEnd (.training [] [] (List.replicate 32 [1]) (List.replicate 32 0))).wf = false ∧
      (Instr.bringupStepEnd (.training [] [] (List.replicate 32 [0]) (List.replicate 31 0))).wf = false ∧
      (Instr.bringupStepEnd (.training [] [] (List.replicate 32 [0, 2]) (List.replicate 32 0))).wf = true := by decide +kernel

theorem test_wf_atomics :
    (Instr.atomic 0 .tva (lane 0 0 []) .min .f32 0 0).wf = false ∧ (Instr.atomic 0 .tva (lane 0 2 []) .add .i32 0 0).wf = false ∧
      (Instr.atomic 0 .tva (lane 0 0 []) .add .i64 0 0).wf = false ∧ (Instr.atomic 0 .tva (lane 0 4 []) .add .f32 0 0).wf = true := by
  decide +kernel

theorem test_wf_channels :
    (Instr.channelRead 0 0 [(136, 1)] [] none).wf = false ∧ (Instr.channelRead 0 0 [] [(136, 1)] none).wf = false ∧
      (Instr.channelRead 0 0 [(135, 1)] [(0, 1)] none).wf = true ∧ (Instr.channelWrite 0 0 (line9.take 127) 1).wf = false ∧
      (Instr.scrubDramLine 0 [(136, 1)]).wf = false ∧ (Instr.repackRow 0 [(240, 0, 1)]).wf = false ∧
      (Instr.repackRow 0 [(0, 136, 1)]).wf = false := by decide +kernel

theorem test_wf_samples_and_messages :
    (Instr.agingSample (List.replicate 9 []) (List.replicate 5 true)).wf = false ∧
      (Instr.agingSample (List.replicate 8 (List.replicate 32 0) ++ List.replicate 2 (List.replicate 8 0)) []).wf = false ∧ (Instr.thermalRead (List.replicate 103 0)).wf = false ∧
      (Instr.flitReceived 0 (List.replicate 255 0) true 0).wf = false ∧ (Instr.member 0 0 0 (List.replicate 513 0)).wf = false ∧
      (Instr.capstone 0 0 0 []).wf = false ∧ (Instr.laneArithmetic 0 (.fma 255 0 0 0)).wf = false ∧
      (Instr.laneArithmetic 0 (.lane 255 [])).wf = false ∧ (Instr.laneArithmetic 0 (.lane 3 [1, 2, 3, 4])).wf = false ∧
      (Instr.laneArithmetic 0 (.constant 3 2)).wf = false ∧ (Instr.laneArithmetic 0 (.fma 254 0 0 254)).wf = true := by
  decide +kernel

/-! ## Worked values of the spec -/

/-- No row of the opcode table has bits, so no word spells a command. -/
theorem test_no_word_spells_a_command :
    decodeTableWord 32 0 = none ∧ (rdy.withFetchWord 32 0).pending = [] := by decide +kernel

/-- Spec/08 Table 8.8: the home of DPA 0x12_3456_7880 at 64 GiB. -/
theorem test_home_of_the_spec_row :
    spreadTop 2 = 0x1A320000000 ∧ homeOf 2 0x1234567880 = (390, 1193046) ∧ chanOfUcSlice 390 = 97 ∧ dieOfUcSlice 390 = 6 ∧
      setOf 1193046 = 1110 ∧ 1193046 / 1536 = 776 ∧ distance 0 6 = 2 * 40 + 60 := by decide +kernel

/-- Spec/14: positions of one scrub pass at 64 GiB. -/
theorem test_scrub_positions : chanLines 2 = 125566976 := by decide +kernel

/-- Spec/00: resident gangs for each core. -/
theorem test_resident_gangs : laRegsLimit (block [(0x0C, [64])]) = 32 ∧ laRegsLimit (block [(0x0C, [96])]) = 21 := by
  decide +kernel

/-- Spec/05 Table 5.8: the kernel as submitted, on the 24 dedicated bays of spec/02's slice 1. -/
def kernel (steps : Byte) (scratch : Nat) : State :=
  { rdy with
    slices := [(1, { state := .active, defn := { dedicated := 0x1C71C71C71C7 } })]
    cmds := [(7, {
      slice := 1, items := 8000, desc := block [(0, [2]), (0x38, leBytes 4 8000), (0x3C, leBytes 2 2000), (0x3E, leBytes 2 4000)]
      block := block [(0x0C, [96, steps, 8]), (0x10, leBytes 4 scratch)] })] }

theorem test_fit_of_the_spec_kernel :
    laFoot ((kernel 12 24576).cmd 7).block = 24832 ∧ (kernel 12 24576).fitOf ((kernel 12 24576).cmd 7) = 1512 ∧
      (kernel 12 24576).nofitResult ((kernel 12 24576).cmd 7) = 0x000018003F1505E8 ∧
      (kernel 12 24576).nofitDetail ((kernel 12 24576).cmd 7) = 3 := by decide +kernel

theorem test_repairs_of_the_spec_kernel :
    (kernel 12 16384).fitOf ((kernel 12 16384).cmd 7) = 2256 ∧ (kernel 16 24576).fitOf ((kernel 16 24576).cmd 7) = 2016 := by
  decide +kernel

/-- Spec/04 Table 4.12: the sequence window over the four descriptors. -/
def seqAfter (l : List W32) : Sq := l.foldl (fun q n => (q.seqCheck n).1) {}

theorem test_sequence_window :
    ((seqAfter [0x12F04]).seqCheck 0x12F05).2 = .accept ∧ ((seqAfter [0x12F04, 0x12F05]).seqCheck 0x12F04).2 = .duplicate 0 ∧
      ((seqAfter [0x12F04, 0x12F05]).seqCheck 0x12B00).2 = .duplicate 1 := by decide +kernel

/-- Spec/07 Table 7.11: −∞ is fifth; equal values, and −0 beside +0, go by position. -/
def elem (pos : Nat) (value : W32) : Entry := { index := BitVec.ofNat 64 pos, value := value, source := 0, order := pos }

theorem test_selection_order :
    (selectInto true 4 [] [elem 4 0x80000000, elem 5 0x40400000, elem 9 0xFF800000, elem 11 0, elem 17 0x40400000]).map
      (·.order) = [5, 17, 4, 11] := by decide +kernel

/-- Spec/06: infinity into F8A with SAT 0 is the canonical NaN and sets NAN_OUT. -/
theorem test_infinity_into_f8a : convert .f8a false .rne (.inf false) = (0x7F, { nanOut := true }) := by decide +kernel

/-- Spec/12: the two worked values of the CRC-8. -/
theorem test_crc8 : crc8 [1] = 0x07 ∧ crc8 [0x31, 0x32, 0x33, 0x34, 0x35, 0x36, 0x37, 0x38, 0x39] = 0xF4 := by decide +kernel

/-- Spec/16 Table 16.7: the throttle level over three ticks after the limit becomes 1,125 W. -/
def tick (s : State) (us watts : Nat) : State := nx1 (exec (.powerLoopTick { watts := watts, prochotN := true }) { s with time := us * 1000 })

theorem test_power_loop :
    let s0 := nx1 (exec (.setPowerLimit 1125) rdy)
    let s1 := tick s0 10 1140
    let s2 := tick s1 20 1128
    let s3 := tick s2 30 1115
    s0.powerLimit = 1125 ∧ s1.plb.level = 1 ∧ s2.plb.level = 2 ∧ s3.plb.level = 2 := by decide +kernel

/-- Spec/03 Table 3.10: a manager reset of channel 37 shows in CFG_UNIT_STATE3 bits [11:10], and its epoch advances. -/
theorem test_channel_reset :
    let s := rdy.setChan 37 { trained := true, epoch := 0x12 }
    let t := nx1 (exec (.channelReset 37 (.manager 0)) s)
    (t.chan 37).epoch = 0x13 ∧ bitsOf (t.readBar2 0x258 true) 11 10 = 1 ∧ bitsOf (s.readBar2 0x258 true) 11 10 = 0 := by
  decide +kernel

/-- Spec/17 Table 17.10: where the registers of channel 97, slice 1 and its SQ 3 stand; a 32-bit read of a 64-bit register
returns zero (R11). -/
theorem test_register_addresses :
    matchAccess bar2Map 0x8308 true = .whole (.chanStatus 97) ∧ matchAccess bar2Map 0x8B08 true = .whole (.scrubStatus 97) ∧
      matchAccess bar2Map 0x4C30 true = .whole (.ucStatus 390) ∧ matchAccess bar2Map 0xA4A0 true = .whole (.bucket 20) ∧
      (rdy.setSlice 1 { state := .drained }).readBar2 0x180 true = 0x30 ∧
      (rdy.setSlice 1 { state := .drained }).readBar2 0x180 false = 0 := by decide +kernel

end Sys2Proof.Tests
end

/-! ## A nanosecond without a command (O1) -/

namespace Sys2Proof.Machine

set_option Elab.async false

/-! ### What a nanosecond does to the memory -/

theorem State.step_of_empty {s : State} (h : s.pending = []) : step s = .next s.idle := by
  simp [step, h]

@[simp] theorem State.tickTime_mem (s : State) : s.tickTime.mem = s.mem := rfl

@[simp] theorem State.tickSkew_mem (s : State) : s.tickSkew.mem = s.mem := by
  simp only [State.tickSkew]

theorem State.tickCounts_mem (s : State) : s.tickCounts.mem = s.tickBays.tickFabric.mem := by
  dsimp only [State.tickCounts]
  split <;> rfl

/-- Of the parts of an idle nanosecond only the fabric's edges can reach the memory. -/
theorem State.idle_mem {s : State} (hg : s.pins.pwrGood = true) (ht : s.plb.thermtrip = false) :
    s.idle.mem = (s.event 0x01 0 none s.tickEdges).tickBays.tickFabric.mem := by
  have hp : (s.event 0x01 0 none s.tickEdges).powered = true := by simp [State.powered, State.event, hg, ht]
  simp only [State.idle, hg, hp, if_true, State.tickTime_mem, State.tickCounts_mem]

/-- A nanosecond that holds a single NCLK edge. -/
theorem State.tickFabric_mem_of_one_edge {s : State} (h : s.nclkEdges = 1) : s.tickFabric.mem = s.fabricEdge.mem := by
  simp [State.tickFabric, h, List.range_one]

/-- A free choice among one is no choice. -/
theorem State.drawChoice_one (s : State) : s.drawChoice 1 = (0, { s with free := s.free + 1 }) := by
  simp [State.drawChoice, Nat.mod_one]

/-- A flit that an injection has spoilt is replayed; on a bridge with one link left, on that link. -/
theorem State.bridgeSlot_last_link {s t : State} {k mask : Nat} {out : List BulkMsg} {m : BulkMsg} {g : Flow}
    (hflit : (Tbl.get ({} : Flow) s.fab.flows k).next (s.weight (k / 2)) s.background = some (m, g))
    (hbad : s.injected 4 (unitBridge (k / 2)) = (mask + 1, t)) (hlink : (t.bridge (k / 2)).linksGood = 1) :
    s.bridgeSlot k out = (({ t with free := t.free + 1 }).doFlitReplay (k / 2) 0, out, true) := by
  simp [State.bridgeSlot, hflit, hbad, hlink, State.drawChoice_one]

/-- A fabric in which one direction of one bridge has flits, one slot for them, and none gets across. -/
theorem State.fabricEdge_mem_of_one_slot {s t : State} {k : Nat} {f : Flow} (hflows : s.fab.flows = [(k, f)])
    (hlink : (s.bridge (k / 2)).linksGood = 1) (hslot : s.bridgeSlot k [] = (t, [], true)) :
    s.fabricEdge.mem = t.mem := by
  simp [State.fabricEdge, hflows, hlink, bridgeSlots, hslot]

/-! ### The counterexample -/

/-- A READY device whose quoin bridge 10 runs on its last link (spec/10 R233), which has been replayed 15 times within the
second, while an armed injection inverts the CRC-16 of the one flit that waits there (spec/13 Table 13.6). -/
def lastLink : State :=
  { pins := { pwrGood := true }
    dev := { state := .ready }
    fab := {
      bridges := [(10, { linksGood := 1, degraded := true, retries := 15, recent := List.replicate 15 (0, 0) })]
      flows := [(20, { waiting := [{ num := 0, cls := 0, response := false, flits := 1, rest := [] }] })] }
    flt := { inject := { armed := true, checker := 4, unit := unitBridge 10, mask := 1, remaining := 1 } } }

/-- The same device with its flit spoilt: the injection is spent. -/
def lastLinkSpoilt : State := (lastLink.injected 4 (unitBridge 10)).2

/-- The 16th replay has taken the bridge's last link, and the package stops (R233, R70). -/
def lastLinkLost : State := ({ lastLinkSpoilt with free := lastLinkSpoilt.free + 1 }).doFlitReplay 10 0

theorem lastLink_bridgeSlot : lastLink.bridgeSlot 20 [] = (lastLinkLost, [], true) :=
  State.bridgeSlot_last_link (k := 20) (mask := 0) (t := lastLinkSpoilt) (m := ⟨0, 0, false, false, 1, []⟩)
    (g := { turn := 0, left := 0 }) (by decide +kernel) (by decide +kernel) (by decide +kernel)

/-- No counter selects SCLK and no slice holds a bay, so the nanosecond comes to the fabric as it was. -/
theorem lastLink_reaches_fabric : (lastLink.event 0x01 0 none lastLink.tickEdges).tickBays = lastLink := by decide +kernel

theorem lastLink_idle_mem : lastLink.idle.mem = lastLinkLost.mem := by
  rw [State.idle_mem rfl rfl, lastLink_reaches_fabric, State.tickFabric_mem_of_one_edge (by decide)]
  exact State.fabricEdge_mem_of_one_slot rfl rfl lastLink_bridgeSlot

/-- A package stop closes every shield, and the epochs of the channels advance (R70, R78). -/
theorem lastLinkLost_epoch : (lastLinkLost.chan 0).epoch = 1 := by decide +kernel

/-- Refutes O1: a nanosecond without a command is not without effect on memory. Where an injected CRC error makes the 16th
replay of a bridge's last link, the edge that sends the flit stops the package (R233, R70), which advances the epoch of
every channel (R78): `mem` changes in an idle step. -/
theorem not_stepTakesFront : ¬ Obligations.StepTakesFront := by
  rintro ⟨-, -, hidle⟩
  obtain ⟨t, k, hstep, -, -, -, -, hmem, -⟩ := hidle lastLink rfl rfl
  obtain rfl : lastLink.idle = t := by simpa [State.step_of_empty (s := lastLink) rfl] using hstep
  have hepoch : (lastLinkLost.chan 0).epoch = (lastLink.chan 0).epoch := by
    simp only [State.chan, ← lastLink_idle_mem, hmem]
  rw [lastLinkLost_epoch] at hepoch
  exact absurd hepoch (by decide)

end Sys2Proof.Machine

/-! ## Register accesses (O5) -/

namespace Sys2Proof.Machine

set_option Elab.async false

/-! ### Written values -/

/-- A field that starts at bit `lo` takes the written value without the bits below (spec/00 R9). -/
theorem fromBit_toNat (v : W64) (lo : Nat) : fromBit lo v.toNat = v &&& ~~~(BitVec.ofNat 64 (2 ^ lo - 1)) := by
  apply BitVec.eq_of_getLsbD_eq
  intro i hi
  rw [fromBit, ← Nat.shiftRight_eq_div_pow, ← Nat.shiftLeft_eq]
  simp only [BitVec.getLsbD_ofNat, BitVec.getLsbD_and, BitVec.getLsbD_not, Nat.testBit_shiftLeft, Nat.testBit_shiftRight,
    Nat.testBit_two_pow_sub_one, hi, decide_true, Bool.true_and]
  by_cases h : lo ≤ i
  · simp [h, Nat.add_sub_cancel' h, Nat.not_lt.mpr h, BitVec.getLsbD]
  · simp [h, Nat.lt_of_not_le h]

theorem bitAt_toNat (v : W64) (i : Nat) : bitAt v.toNat i = v.getLsbD i := by
  simp [bitAt, BitVec.getLsbD, Nat.testBit_eq_decide_div_mod_eq]

theorem w1c_toNat (v : W64) (i : Nat) (old : Bool) : w1c v.toNat i old = (old && !v.getLsbD i) := by
  rw [w1c, bitAt_toNat]

/-- The page and the offset in it of an access to BAR0 (spec/17 R397). -/
theorem pageOffset_toNat (i : BitVec 8) (o : BitVec 16) : (i ++ o).toNat = i.toNat * 0x10000 + o.toNat := by
  rw [BitVec.toNat_append, ← Nat.shiftLeft_add_eq_or_of_lt o.isLt, Nat.shiftLeft_eq]

/-! ### When registers act -/

section Ready
variable {s : State}

theorem State.pwrGood_of_ready (h : s.ready = true) : s.pins.pwrGood = true := by
  simp only [State.ready, State.powered, Bool.and_eq_true] at h
  exact h.1.1

theorem State.devState_of_ready (h : s.ready = true) : s.dev.state = .ready := by
  simp only [State.ready, Bool.and_eq_true, decide_eq_true_eq] at h
  exact h.2

theorem State.preReady_of_ready (h : s.ready = true) : s.preReady = false := by
  simp [State.preReady, State.devState_of_ready h]

theorem State.stopRegs_of_ready (h : s.ready = true) : s.stopRegs = true := by
  simp [State.stopRegs, h]

theorem State.imageRegs_of_ready (h : s.ready = true) : s.imageRegs = true := by
  have hp : s.powered = true := by
    simp only [State.ready, Bool.and_eq_true] at h
    exact h.1
  simp [State.imageRegs, hp, State.devState_of_ready h]

theorem State.not_ready_of_preReady (h : s.preReady = true) : s.ready = false := by
  cases hr : s.ready
  · rfl
  · rw [State.preReady_of_ready hr] at h
    exact absurd h (by decide)

end Ready

/-! ### How a write reaches its register -/

section Reach
variable {s : State} {off : BitVec 24} {r : Reg} {port : Bool}

/-- Only FLT_ACK and CFG_FW_CTL act otherwise as halves of a 64-bit write than on their own (R399). -/
theorem State.writeHalf_eq_writeReg (hack : r ≠ .ack) (hfw : r ≠ .fwCtl) (n : Nat) :
    s.writeHalf port r n = s.writeReg r n := by
  unfold State.writeHalf
  split
  · exact absurd rfl hack
  · exact absurd rfl hfw
  · rfl

theorem State.writeHalf_ack (n : Nat) : s.writeHalf port .ack n = s.doAck (BitVec.ofNat 32 n) := rfl

theorem exec_write_wide (h : matchAccess bar2Map off.toNat true = .whole r) (hack : r ≠ .ack) (hfw : r ≠ .fwCtl) (v : W64) :
    exec (.registerWrite { bar0 := false, port := port } off true v) s = .next (s.writeReg r v.toNat) := by
  simp [exec, execRegisterWrite, State.doRegisterWrite, h, State.applyMatch, State.writeHalf_eq_writeReg hack hfw]

theorem exec_write_narrow (h : matchAccess bar2Map off.toNat false = .whole r) (v : W64) :
    exec (.registerWrite { bar0 := false, port := port } off false v) s = .next (s.writeReg r (v.toNat % 2 ^ 32)) := by
  simp [exec, execRegisterWrite, State.doRegisterWrite, h, State.applyMatch]

/-- Both halves of a 64-bit write over two 32-bit registers act, the low one first (R399). -/
theorem exec_write_halves {hi : Reg} (h : matchAccess bar2Map off.toNat true = .halves (some r) (some hi)) (v : W64) :
    exec (.registerWrite { bar0 := false, port := port } off true v) s
      = .next ((s.writeHalf port r (v.toNat % 2 ^ 32)).writeHalf port hi (v.toNat / 2 ^ 32)) := by
  simp [exec, execRegisterWrite, State.doRegisterWrite, h, State.applyMatch]

theorem exec_write_low_half (h : matchAccess bar2Map off.toNat true = .halves (some r) none) (v : W64) :
    exec (.registerWrite { bar0 := false, port := port } off true v) s
      = .next (s.writeHalf port r (v.toNat % 2 ^ 32)) := by
  simp [exec, execRegisterWrite, State.doRegisterWrite, h, State.applyMatch]

theorem exec_write_page {i : BitVec 8} {o : BitVec 16} {p : PageReg} (h : matchAccess pageMap o.toNat true = .whole p) (v : W64) :
    exec (.registerWrite { bar0 := true, port := port } (i ++ o) true v) s = .next (s.writePage i.toNat p v.toNat) := by
  have hpage : (i ++ o).toNat / 0x10000 = i.toNat := by rw [pageOffset_toNat]; omega
  have hoff : (i ++ o).toNat % 0x10000 = o.toNat := by rw [pageOffset_toNat]; omega
  simp only [exec, execRegisterWrite, State.doRegisterWrite, hpage, hoff, h, State.applyMatch, if_true]

end Reach

/-! ### PLB_THERMAL_CFG (R79, R391): at once, or held while a failover runs -/

section Throttle
variable {s : State}

theorem State.mgmtOp_now (h : s.plb.failover = false) (i : HeldOp) (f : State → State) : s.mgmtOp i f = f s := by
  simp [State.mgmtOp, h]

theorem State.mgmtOp_held (h : s.plb.failover = true) (i : HeldOp) (f : State → State) :
    s.mgmtOp i f = { s with plb := { s.plb with heldOps := s.plb.heldOps ++ [i] } } := by
  simp [State.mgmtOp, h]

theorem State.setThrottle_taken {c : Nat} (hlo : 70 ≤ c) (hhi : c ≤ 100) :
    s.setThrottle c = { s with plb := { s.plb with tjThrottle := c } } := by
  simp [State.setThrottle, hlo, hhi]

theorem State.setThrottle_ignored {c : Nat} (h : c < 70 ∨ 100 < c) : s.setThrottle c = s := by
  rw [State.setThrottle, if_neg (by omega)]

end Throttle

/-! ### Writes in READY -/

section Writes
variable {s : State} (hr : s.ready = true) (v : W64) (port : Bool)
include hr

theorem exec_write_imageAddr : exec (.registerWrite { bar0 := false, port := port } 0x100 true v) s
    = .next { s with dev := { s.dev with imageAddr := v &&& ~~~(63#64) } } := by
  rw [exec_write_wide (r := .imageAddr) (by decide +kernel) (by decide) (by decide)]
  simp [State.writeReg, Reg.group, State.writeImageReg, State.imageRegs_of_ready hr, fromBit_toNat]

theorem exec_write_imageLen : exec (.registerWrite { bar0 := false, port := port } 0x108 false v) s
    = .next { s with dev := { s.dev with imageLen := v.toNat % 2 ^ 21 } } := by
  rw [exec_write_narrow (r := .imageLen) (by decide +kernel)]
  simp [State.writeReg, Reg.group, State.writeImageReg, State.imageRegs_of_ready hr]

theorem exec_write_imageStatus : exec (.registerWrite { bar0 := false, port := port } 0x118 true v) s
    = .next { s with dev := { s.dev with
        imageDone := s.dev.imageDone && !v.getLsbD 1, imageOverrun := s.dev.imageOverrun && !v.getLsbD 2 } } := by
  rw [exec_write_wide (r := .imageStatus) (by decide +kernel) (by decide) (by decide)]
  simp [State.writeReg, Reg.group, State.writeImageReg, State.imageRegs_of_ready hr, w1c_toNat]

theorem exec_write_fwAddr : exec (.registerWrite { bar0 := false, port := port } 0x228 true v) s
    = .next { s with dev := { s.dev with fwAddr := v &&& ~~~(63#64) } } := by
  rw [exec_write_wide (r := .fwAddr) (by decide +kernel) (by decide) (by decide)]
  simp [State.writeReg, Reg.group, State.writeImageReg, State.imageRegs_of_ready hr, fromBit_toNat]

theorem exec_write_resetStatus : exec (.registerWrite { bar0 := false, port := port } 0x218 true v) s
    = .next { s with dev := { s.dev with
        resetDone := s.dev.resetDone && !v.getLsbD 0, resetMerged := s.dev.resetMerged && !v.getLsbD 1
        resetRefused := s.dev.resetRefused && !v.getLsbD 2 } } := by
  rw [exec_write_wide (r := .resetStatus) (by decide +kernel) (by decide) (by decide)]
  simp [State.writeReg, Reg.group, State.writeCfg, hr, w1c_toNat]

theorem exec_write_handleBaseA : exec (.registerWrite { bar0 := false, port := port } 0x308 true v) s
    = .next { s with dev := { s.dev with handleBaseA := v } } := by
  rw [exec_write_wide (r := .handleBaseA) (by decide +kernel) (by decide) (by decide)]
  simp [State.writeReg, Reg.group, State.writeCfg, hr]

theorem exec_write_fillSrc : exec (.registerWrite { bar0 := false, port := port } 0x320 true v) s
    = .next { s with dev := { s.dev with fillSrc := v &&& ~~~(127#64) } } := by
  rw [exec_write_wide (r := .fillSrc) (by decide +kernel) (by decide) (by decide)]
  simp [State.writeReg, Reg.group, State.writeCfg, hr, fromBit_toNat]

theorem State.writeReg_errMask (n : Nat) : s.writeReg .errMask n = { s with flt := { s.flt with mask := n % 8 } } := by
  simp [State.writeReg, Reg.group, State.writeFltRing, State.stopRegs_of_ready hr]

theorem exec_write_errMask : exec (.registerWrite { bar0 := false, port := port } 0xA028 false v) s
    = .next { s with flt := { s.flt with mask := v.toNat % 8 } } := by
  rw [exec_write_narrow (r := .errMask) (by decide +kernel), State.writeReg_errMask hr]
  simp

/-- FLT_ERR_MASK and FLT_ACK stand side by side. -/
theorem exec_write_errMask_ack : exec (.registerWrite { bar0 := false, port := port } 0xA028 true v) s
    = .next ({ s with flt := { s.flt with mask := v.toNat % 2 ^ 32 % 8 } }.doAck (BitVec.ofNat 32 (v.toNat / 2 ^ 32))) := by
  rw [exec_write_halves (r := .errMask) (hi := .ack) (by decide +kernel),
    State.writeHalf_eq_writeReg (r := .errMask) (by decide) (by decide), State.writeReg_errMask hr, State.writeHalf_ack]

theorem exec_write_fltNotify : exec (.registerWrite { bar0 := false, port := port } 0xA010 true v) s
    = .next { s with flt := { s.flt with ring := { s.flt.ring with notifyAddr := v &&& ~~~(3#64) } } } := by
  rw [exec_write_wide (r := .fltNotify) (by decide +kernel) (by decide) (by decide)]
  simp [State.writeReg, Reg.group, State.writeFltRing, State.stopRegs_of_ready hr, Ring.setNotify, fromBit_toNat]

theorem State.writeReg_bucketCfg {n : Nat} (ht : n % 256 ≠ 0) (hl : bitsOf n 15 8 ≠ 0) :
    s.writeReg .bucketCfg n = { s with flt := { s.flt with threshold := n % 256, leak := bitsOf n 15 8 } } := by
  simp [State.writeReg, Reg.group, State.writeFlt, hr, ht, hl]

theorem exec_write_bucketCfg (ht : v.toNat % 256 ≠ 0) (hl : v.toNat / 256 % 256 ≠ 0) :
    exec (.registerWrite { bar0 := false, port := port } 0xA040 false v) s
      = .next { s with flt := { s.flt with threshold := v.toNat % 256, leak := v.toNat / 256 % 256 } } := by
  have hthr : v.toNat % 2 ^ 32 % 256 = v.toNat % 256 := by omega
  have hleak : bitsOf (v.toNat % 2 ^ 32) 15 8 = v.toNat / 256 % 256 := by simp only [bitsOf]; omega
  rw [exec_write_narrow (r := .bucketCfg) (by decide +kernel),
    State.writeReg_bucketCfg hr (by rwa [hthr]) (by rwa [hleak]), hthr, hleak]

theorem exec_write_thermalCfg : exec (.registerWrite { bar0 := false, port := port } 0x9910 false v) s
    = .next (s.mgmtOp (.throttle (v.toNat % 2 ^ 32 % 128)) fun s => s.setThrottle (v.toNat % 128)) := by
  rw [exec_write_narrow (r := .thermalCfg) (by decide +kernel)]
  simp [State.writeReg, Reg.group, State.writePlb, hr]

theorem exec_write_thermalCfg_taken (hf : s.plb.failover = false) (hlo : 70 ≤ v.toNat % 128) (hhi : v.toNat % 128 ≤ 100) :
    exec (.registerWrite { bar0 := false, port := port } 0x9910 false v) s
      = .next { s with plb := { s.plb with tjThrottle := v.toNat % 128 } } := by
  rw [exec_write_thermalCfg hr, State.mgmtOp_now hf, State.setThrottle_taken hlo hhi]

theorem exec_write_thermalCfg_ignored (hf : s.plb.failover = false) (hout : v.toNat % 128 < 70 ∨ 100 < v.toNat % 128) :
    exec (.registerWrite { bar0 := false, port := port } 0x9910 false v) s = .next s := by
  rw [exec_write_thermalCfg hr, State.mgmtOp_now hf, State.setThrottle_ignored hout]

theorem exec_write_thermalCfg_held (hf : s.plb.failover = true) :
    exec (.registerWrite { bar0 := false, port := port } 0x9910 false v) s
      = .next { s with plb := { s.plb with heldOps := s.plb.heldOps ++ [.throttle (v.toNat % 2 ^ 32 % 128)] } } := by
  rw [exec_write_thermalCfg hr, State.mgmtOp_held hf]

theorem exec_write_telNotify : exec (.registerWrite { bar0 := false, port := port } 0xC010 true v) s
    = .next { s with tel := { s.tel with ring := { s.tel.ring with notifyAddr := v &&& ~~~(3#64) } } } := by
  rw [exec_write_wide (r := .telNotify) (by decide +kernel) (by decide) (by decide)]
  simp [State.writeReg, Reg.group, State.writeTel, hr, Ring.setNotify, fromBit_toNat]

theorem exec_write_blobAddr : exec (.registerWrite { bar0 := false, port := port } 0xD008 true v) s
    = .next { s with mig := { s.mig with blobAddr := v &&& ~~~(0xFFF#64) } } := by
  rw [exec_write_wide (r := .blobAddr) (by decide +kernel) (by decide) (by decide)]
  simp [State.writeReg, Reg.group, State.writeTel, hr, fromBit_toNat]

end Writes

section ReadOnly
variable (s : State) (v : W64) (port : Bool)

/-- CFG_DEVICE_ID fills the low half of its place, and no register the high one. -/
theorem exec_write_deviceId : exec (.registerWrite { bar0 := false, port := port } 0x0000 true v) s = .next s := by
  rw [exec_write_low_half (r := .deviceId) (by decide +kernel)]
  rfl

theorem exec_write_time : exec (.registerWrite { bar0 := false, port := port } 0x0010 true v) s = .next s := by
  rw [exec_write_wide (r := .time) (by decide +kernel) (by decide) (by decide)]
  rfl

end ReadOnly

theorem exec_write_fqNotify {s : State} {i : BitVec 8} (ho : s.pageOpen i.toNat) (v : W64) (port : Bool) :
    exec (.registerWrite { bar0 := true, port := port } (i ++ 0x0058#16) true v) s
      = .next (s.updSlice i.toNat fun x => { x with fq := { x.fq with notifyAddr := v &&& ~~~(3#64) } }) := by
  rw [exec_write_page (p := .fqNotify) (by decide +kernel), State.writePage, State.pageWrite_open ho (by simp)]
  simp [Ring.setNotify, fromBit_toNat]

/-! ### Bad accesses (R399, R400, R368) -/

/-- A write of a page that asks for nothing: it shows only where the page is FROZEN. -/
theorem State.pageWrite_nothing {s : State} (hr : s.ready = true) (i : Nat) :
    s.pageWrite i false (fun s => s) = if (s.slice i).state = .frozen then
      s.updSlice i fun v => { v with lateWrites := satAdd 32 v.lateWrites 1 } else s := by
  unfold State.pageWrite
  by_cases hf : (s.slice i).state = .frozen <;> simp [hr, hf]

theorem State.countAccess_of_ready {s : State} (hr : s.ready = true) (bar0 : Bool) (off : BitVec 24) (w : Bool) :
    s.countAccess bar0 off w = { s with dev := { s.dev with
      accessErr := satAdd 32 s.dev.accessErr 1, lastOffset := off, lastBar := bar0, lastWrite := w } } := by
  simp [State.countAccess, State.pwrGood_of_ready hr, State.preReady_of_ready hr]

theorem State.countAccess_of_preReady {s : State} (h : s.preReady = true) (bar0 : Bool) (off : BitVec 24) (w : Bool) :
    s.countAccess bar0 off w = s := by
  simp [State.countAccess, h]

/-- A counted access leaves the device READY and the slices as they are. -/
theorem State.badWrite_of_ready {s : State} (hr : s.ready = true) (bar0 : Bool) (off : BitVec 24) :
    s.badWrite bar0 off = if bar0 ∧ (s.slice (off.toNat / 0x10000)).state = .frozen then
      (s.countAccess bar0 off true).updSlice (off.toNat / 0x10000) fun v =>
        { v with lateWrites := satAdd 32 v.lateWrites 1 }
      else s.countAccess bar0 off true := by
  have hr' : (s.countAccess bar0 off true).ready = true := by rw [State.countAccess_of_ready hr]; exact hr
  have hsl : ∀ i, (s.countAccess bar0 off true).slice i = s.slice i := by
    intro i; rw [State.countAccess_of_ready hr]; rfl
  cases bar0
  · simp [State.badWrite]
  · simp [State.badWrite, State.pageWrite_nothing hr', hsl]

theorem State.badWrite_of_preReady {s : State} (h : s.preReady = true) (bar0 : Bool) (off : BitVec 24) :
    s.badWrite bar0 off = s := by
  simp [State.badWrite, State.countAccess_of_preReady h, State.pageWrite, State.not_ready_of_preReady h]

theorem exec_badAccess_of_ready {s : State} (hr : s.ready = true) (bar0 : Bool) (off : BitVec 24) (isWrite : Bool) :
    exec (.badAccess bar0 off isWrite) s = .next
      (if isWrite && bar0 && decide ((s.slice (off.toNat / 0x10000)).state = .frozen) then
        (s.countAccess bar0 off isWrite).updSlice (off.toNat / 0x10000) fun v =>
          { v with lateWrites := satAdd 32 v.lateWrites 1 }
      else s.countAccess bar0 off isWrite) := by
  cases isWrite <;> simp [exec, execBadAccess, State.badWrite_of_ready hr]

theorem exec_badAccess_of_preReady {s : State} (h : s.preReady = true) (bar0 : Bool) (off : BitVec 24) (isWrite : Bool) :
    exec (.badAccess bar0 off isWrite) s = .next s := by
  cases isWrite <;>
    simp [exec, execBadAccess, State.badWrite_of_preReady h, State.countAccess_of_preReady h]

/-- A write that matches no register is a bad access. -/
theorem exec_write_bad {s : State} {bar0 : Bool} {off : BitVec 24} {wide : Bool}
    (h : if bar0 then matchAccess pageMap (off.toNat % 0x10000) wide = .bad else matchAccess bar2Map off.toNat wide = .bad)
    (port : Bool) (v : W64) :
    exec (.registerWrite { bar0 := bar0, port := port } off wide v) s = exec (.badAccess bar0 off true) s := by
  cases bar0 <;> simp only [if_true, if_false, Bool.false_eq_true] at h <;>
    simp [exec, execRegisterWrite, execBadAccess, State.doRegisterWrite, h, State.applyMatch]

/-! ### Reads before READY (R66, R398) -/

theorem State.readReg_of_preReady {s : State} (h : s.preReady = true) {r : Reg} (hl : r.live = false) :
    s.readReg r = s.resetView.regValue r := by
  simp [State.readReg, h, hl]

theorem State.readBar0_of_not_ready {s : State} (h : s.ready = false) (off : Nat) (wide : Bool) : s.readBar0 off wide = 0 := by
  simp [State.readBar0, h]

theorem State.readBar2_bad (s : State) {off : Nat} {wide : Bool} (h : matchAccess bar2Map off wide = .bad) :
    s.readBar2 off wide = 0 := by
  simp [State.readBar2, h]

/-! ### Counters that a write clears (R400, R136) -/

theorem exec_cfgAccessErrClear {s : State} (hr : s.ready = true) :
    exec .cfgAccessErrClear s = .next { s with dev := { s.dev with accessErr := 0 } } := by
  simp [exec, execCfgAccessErrClear, State.doClearAccess, hr]

theorem exec_mcStatsClear {s : State} (hr : s.ready = true) :
    exec .mcStatsClear s = .next { s with dev := { s.dev with preempts := 0, preemptWorst := 0 } } := by
  simp [exec, execMcStatsClear, State.doClearStats, hr]

/-! ### The statement -/

/-- Settles O5: each register's write is a lemma of its own, found through the map; a bad access is counted in READY and
not before. -/
theorem registerAccesses : Obligations.RegisterAccesses := by
  unfold Obligations.RegisterAccesses
  refine ⟨fun s hr => ⟨fun bar0 port off isWrite => ?_, exec_cfgAccessErrClear hr, exec_mcStatsClear hr, fun v port => ?_⟩,
    fun s h => ⟨exec_badAccess_of_preReady h, fun r => State.readReg_of_preReady h,
      State.readBar0_of_not_ready (State.not_ready_of_preReady h), fun off => s.readBar2_bad⟩⟩
  · have hbad := exec_badAccess_of_ready hr bar0 off isWrite
    rw [State.countAccess_of_ready hr] at hbad
    refine ⟨hbad, fun wide v hm hw => ?_⟩
    subst hw
    exact (exec_write_bad hm port v).trans hbad
  · exact ⟨exec_write_imageAddr hr v port, exec_write_imageLen hr v port, exec_write_imageStatus hr v port,
      exec_write_fwAddr hr v port, exec_write_resetStatus hr v port, exec_write_handleBaseA hr v port,
      exec_write_fillSrc hr v port, exec_write_errMask hr v port, exec_write_errMask_ack hr v port,
      exec_write_fltNotify hr v port, exec_write_bucketCfg hr v port, exec_write_thermalCfg_taken hr v port,
      exec_write_thermalCfg_ignored hr v port, exec_write_thermalCfg_held hr v port, exec_write_telNotify hr v port,
      exec_write_blobAddr hr v port, exec_write_deviceId s v port, exec_write_time s v port,
      fun i ho => exec_write_fqNotify ho v port⟩

end Sys2Proof.Machine

/-! ## What fuses hold only grows (O8) -/

namespace Sys2Proof.Machine

/-! ### Commands that leave the rarely changed part alone -/

/-- The commands that can change the part of the state that `Kept` names: those that blow fuses, begin a package reset,
sample the straps, or move a power limit, the throttle temperature or the throttle level. -/
def changesKept : Instr → Bool
  | .fuseBlowDone _ | .coldStart .. | .pwrGoodFall | .perstNAssert | .packageReset _ | .plumbPackageReset
  | .plbPowerLimitWrite _ | .setPowerLimit _ | .registerWrite .. | .plumbFailover _ | .powerLoopTick _ | .prochotAssert
  | .vrAlert .. => true
  | _ => false

/-- A command answers a next state, which has that part as it was. -/
def Keeps (o : Host.Outcome State Fault Refusal) (s : State) : Prop := ∃ t, o = .next t ∧ t.kept = s.kept

theorem next_keeps {s t : State} (h : t.kept = s.kept) : Keeps (.next t) s := ⟨t, rfl, h⟩

theorem State.kept_if {c : Prop} [Decidable c] {s t : State} (h : t.kept = s.kept) :
    (if c then t else s).kept = s.kept := by
  rw [kept_ite, h, ite_self]

/-- Each command through the law of its own operation. -/
theorem exec_keeps (c : Instr) (s : State) (h : changesKept c = false) : Keeps (exec c s) s := by
  cases c with
  | nop => exact next_keeps (State.doNop_kept ..)
  | copy => exact next_keeps (State.settled_kept _ _ fun _ => State.doCopy_kept ..)
  | launch => exact next_keeps (State.doLaunch_kept ..)
  | slabRun => exact next_keeps (State.settled_kept _ _ fun _ => State.doSlabRun_kept ..)
  | gather => exact next_keeps (State.settled_kept _ _ fun _ => State.doGather_kept ..)
  | select => exact next_keeps (State.settled_kept _ _ fun _ => State.doSelect_kept ..)
  | release => exact next_keeps (State.settled_kept _ _ fun _ => State.doReleaseCmd_kept ..)
  | flush => exact next_keeps (State.settled_kept _ _ fun _ => State.doFlush_kept ..)
  | handleSet => exact next_keeps (State.doHandleOp_kept ..)
  | epochFlip => exact next_keeps (State.doHandleOp_kept ..)
  | sweldSend => exact next_keeps (State.settled_kept _ _ fun _ => State.doSweldSend_kept ..)
  | sweldExpect => exact next_keeps (State.settled_kept _ _ fun _ => State.doSweldExpect_kept ..)
  | sqTailDoorbell => exact next_keeps (State.doSqTail_kept ..)
  | cqHeadDoorbell => exact next_keeps (State.doHead_kept ..)
  | queueCfgWrite => exact next_keeps (State.doQueueCfg_kept ..)
  | qeTenantReset => exact next_keeps (State.doTenantResetRequest_kept ..)
  | qePoolFree => exact next_keeps (State.doPoolFree_kept ..)
  | fetchDescriptor => exact next_keeps (State.settled_kept _ _ fun _ => State.doFetch_kept ..)
  | dispatch => exact next_keeps (State.kept_if (State.arbEdge_kept ..))
  | preemption => exact next_keeps (State.kept_if (State.settled_kept _ _ fun _ => State.doPreemption_kept ..))
  | commandComplete => exact next_keeps (State.settled_kept _ _ fun _ => State.doCommandComplete_kept ..)
  | postCompletionRecord => exact next_keeps (State.doPostCompletion_kept ..)
  | postWaitingRecord => exact next_keeps (State.doPostWaiting_kept ..)
  | gangExit => exact next_keeps (State.issueMem_kept _ _ _ fun _ => State.doGangExit_kept ..)
  | workItemClaim => exact next_keeps (State.settled_kept _ _ fun _ => State.doClaim_kept ..)
  | loadPlain => exact next_keeps (State.issueLoad_kept ..)
  | storePlain => exact next_keeps (State.issueStore_kept _ _ _ _ _ fun _ => State.doStorePlain_kept ..)
  | loadVolatile => exact next_keeps (State.loadFrom_kept ..)
  | storeVolatile => exact next_keeps (State.issueStore_kept _ _ _ _ _ fun _ => State.doStoreVolatile_kept ..)
  | storeStream => exact next_keeps (State.issueStore_kept _ _ _ _ _ fun _ => State.doStoreStream_kept ..)
  | storeCapstone => exact next_keeps (State.issue_kept _ _ _ _ fun _ => State.doStoreCapstone_kept ..)
  | capstoneReleaseToken => exact next_keeps (State.settled_kept _ _ fun _ => State.doRelease_kept ..)
  | capstoneDiscard => exact next_keeps (State.doDiscard_kept ..)
  | atomic => exact next_keeps (State.issueMem_kept _ _ _ fun _ => State.doAtomic_kept ..)
  | flushRange => exact next_keeps (State.issueMem_kept _ _ _ fun _ => State.flushFrom_kept ..)
  | fence => exact next_keeps (State.kept_if (State.issue_kept _ _ _ _ fun _ => rfl))
  | flushAll => exact next_keeps (State.issueMem_kept _ _ _ fun _ => State.l1FlushCmd_kept ..)
  | maskPush => exact next_keeps (State.issue_kept _ _ _ _ fun _ => State.doMaskPush_kept ..)
  | maskReconverge => exact next_keeps (State.issue_kept _ _ _ _ fun _ => State.doReconverge_kept ..)
  | cacheRead => exact next_keeps (State.reachHome_kept ..)
  | cacheWrite => exact next_keeps (State.reachHome_kept ..)
  | replicaFill => exact next_keeps (State.settled_kept _ _ fun _ => State.doReplicaFill_kept ..)
  | replicaInstallAck => exact next_keeps (State.doInstallAck_kept ..)
  | replicaInvalidate => exact next_keeps (State.doInvalidate_kept ..)
  | invalidateAck => exact next_keeps (State.doInvalidateAck_kept ..)
  | channelRead => exact next_keeps (State.doChannelRead_kept ..)
  | channelWrite => exact next_keeps (State.doChannelWrite_kept ..)
  | refresh => exact next_keeps (State.doRefresh_kept ..)
  | retrainStart => exact next_keeps (State.doRetrainStart_kept ..)
  | retrainEnd => exact next_keeps (State.doRetrainEnd_kept ..)
  | hpprTimeout => exact next_keeps (State.doHpprTimeout_kept ..)
  | shieldAnswer => exact next_keeps (State.doShieldAnswer_kept ..)
  | staleReplyDiscard => exact next_keeps (State.doStaleDiscard_kept ..)
  | tenantReset => exact next_keeps (State.doTenantReset_kept ..)
  | bayReset => exact next_keeps (State.doBayReset_kept ..)
  | channelReset => exact next_keeps (State.doChannelReset_kept ..)
  | dieReset => exact next_keeps (State.doDieReset_kept ..)
  | sweldPortReset => exact next_keeps (State.doPortReset_kept ..)
  | resetComplete => exact next_keeps (State.doResetComplete_kept ..)
  | bringupStepTimeout => exact next_keeps (State.doStepTimeout_kept ..)
  | pcieLinkDown => exact next_keeps (State.doLinkDown_kept ..)
  | applySlice => exact next_keeps (State.startImage_kept ..)
  | loadWhole => exact next_keeps (State.startImage_kept ..)
  | storeSlot => exact next_keeps (State.startImage_kept ..)
  | revoke => exact next_keeps (State.doRevoke_kept ..)
  | raiseFloor => exact next_keeps (State.doRaiseFloor_kept ..)
  | drain => exact next_keeps (State.doDrain_kept ..)
  | resume => exact next_keeps (State.doResume_kept ..)
  | sliceDrained => exact next_keeps (State.doSliceDrained_kept ..)
  | fwLoad => exact next_keeps (State.startFw_kept ..)
  | fwStoreSlot => exact next_keeps (State.startFw_kept ..)
  | cfgHandleSet => exact next_keeps (State.startHandleOp_kept ..)
  | cfgHandleFlip => exact next_keeps (State.startHandleOp_kept ..)
  | managerHandleEffect => exact next_keeps (State.doManagerHandleEffect_kept ..)
  | cfgFill => exact next_keeps (State.doFill_kept ..)
  | cfgAccessErrClear => exact next_keeps (State.doClearAccess_kept ..)
  | badAccess => exact next_keeps ((kept_ite ..).trans (by rw [State.badWrite_kept, State.countAccess_kept, ite_self]))
  | mcStatsClear => exact next_keeps (State.doClearStats_kept ..)
  | killPin => exact next_keeps (State.doKillPin_kept ..)
  | applyPpr => exact next_keeps (State.kept_if ((State.memDone_kept _).trans (State.updChan_kept ..)))
  | wayDisable => exact next_keeps (State.wayCtl_kept _ _ fun _ => rfl)
  | wayEnable => exact next_keeps (State.doWayEnable_kept ..)
  | peer => exact next_keeps (State.doPeer_kept ..)
  | accept => exact next_keeps (State.doAccept_kept ..)
  | powerOff => exact next_keeps (State.kept_if (State.mgmtOp_kept _ _ _ fun _ => State.powerRequest_kept ..))
  | powerOn => exact next_keeps (State.kept_if (State.mgmtOp_kept _ _ _ fun _ => State.powerRequest_kept ..))
  | fltAck => exact next_keeps (State.doAck_kept ..)
  | arm => exact next_keeps (State.doArm_kept ..)
  | disarm => exact next_keeps (State.doDisarm_kept ..)
  | forcePath => exact next_keeps (State.doForcePath_kept ..)
  | fltRepairGo => exact next_keeps (State.doRepairGo_kept ..)
  | snap => exact next_keeps (State.doSnap_kept ..)
  | clear => exact next_keeps (State.doClear_kept ..)
  | telSelWrite => exact next_keeps (State.doTelSel_kept ..)
  | logOn => exact next_keeps (State.doLogOn_kept ..)
  | logOff => exact next_keeps (State.doLogOff_kept ..)
  | mark => exact next_keeps (State.doMark_kept ..)
  | freeze => exact next_keeps (State.doFreeze_kept ..)
  | sliceFrozen => exact next_keeps (State.doSliceFrozen_kept ..)
  | migExport => exact next_keeps (State.doMigExport_kept ..)
  | thaw => exact next_keeps (State.doThaw_kept ..)
  | migImport => exact next_keeps (State.doMigImport_kept ..)
  | migCopy => exact next_keeps (State.doMigCopy_kept ..)
  | getDeviceState => exact next_keeps (State.answer_kept ..)
  | getUnitState => exact next_keeps (State.answer_kept ..)
  | unitPower => exact next_keeps (State.kept_if (State.mgmtOp_kept _ _ _ fun _ => State.plumbUnitPower_kept ..))
  | readFaultSummary => exact next_keeps (State.doFaultSummary_kept ..)
  | readTelemetry => exact next_keeps (State.answer_kept ..)
  | stageFlash => exact next_keeps (State.kept_if (State.mgmtOp_kept _ _ _ fun _ => State.doStage_kept ..))
  | unknownPlumbCommand => exact next_keeps (State.doUnknownPlumb_kept ..)
  | portTrained => exact next_keeps (State.doPortTrained_kept ..)
  | flitReceived => exact next_keeps (State.doFlit_kept ..)
  | replayTimeout => exact next_keeps (State.doReplayTimeout_kept ..)
  | linkRecovery => exact next_keeps (State.kept_if (State.recover_kept ..))
  | linkRecovered => exact next_keeps (State.doLinkRecovered_kept ..)
  | recoveryTimeout => exact next_keeps (State.doRecoveryTimeout_kept ..)
  | sweldOpen => exact next_keeps (State.atPort_kept _ _ _ fun _ => State.rxOpen_kept ..)
  | openAck => exact next_keeps (State.atPort_kept _ _ _ fun _ => State.rxOpenAck_kept ..)
  | refuse => exact next_keeps (State.atPort_kept _ _ _ fun _ => State.rxRefuse_kept ..)
  | busyRetry => exact next_keeps (State.doBusyRetry_kept ..)
  | member => exact next_keeps (State.settled_kept _ _ fun _ => State.atPort_kept _ _ _ fun _ => State.rxMember_kept ..)
  | landedReport => exact next_keeps (State.doLandedReport_kept ..)
  | landed => exact next_keeps (State.atPort_kept _ _ _ fun _ => State.rxLanded_kept ..)
  | capstone => exact next_keeps (State.atPort_kept _ _ _ fun _ => State.rxCapstone_kept ..)
  | capstoneApply => exact next_keeps (State.settled_kept _ _ fun _ => State.doCapstoneApply_kept ..)
  | capDone => exact next_keeps (State.atPort_kept _ _ _ fun _ => State.rxCapDone_kept ..)
  | close => exact next_keeps (State.atPort_kept _ _ _ fun _ => State.rxClose_kept ..)
  | abort => exact next_keeps (State.atPort_kept _ _ _ fun _ => State.rxAbort_kept ..)
  | beaconSend => exact next_keeps (State.doBeaconSend_kept ..)
  | beacon => exact next_keeps (State.kept_if (State.rxBeacon_kept ..))
  | malformedMessage => exact next_keeps (State.kept_if (State.malformed_kept ..))
  | fenceTimeout => exact next_keeps (State.doFenceTimeout_kept ..)
  | timeBeacon => exact next_keeps (State.doTimeBeacon_kept ..)
  | bridgeFlitReplay => exact next_keeps (State.doFlitReplay_kept ..)
  | faultRecordCollect => exact next_keeps (State.doCollect_kept ..)
  | faultRecordPost => exact next_keeps (State.doFaultPost_kept ..)
  | reporterPath => exact next_keeps (State.doSample_kept ..)
  | bucketLeak => exact next_keeps (State.doLeak_kept ..)
  | descriptorScrub => exact next_keeps (State.doDescScrub_kept ..)
  | scrubDramLine => exact next_keeps (State.doScrubDram_kept ..)
  | scrubCacheSet => exact next_keeps (State.doScrubCache_kept ..)
  | scrubLsRow => exact next_keeps (State.doScrubLs_kept ..)
  | agingSample => exact next_keeps (State.doAging_kept ..)
  | telemetryTick => exact next_keeps (State.doTick_kept ..)
  | thermalRead => exact next_keeps (State.doThermal_kept ..)
  | splitCheck => exact next_keeps (State.doSplitCheck_kept ..)
  | splitReprobe => exact next_keeps (State.doReprobe_kept ..)
  | bringupStepEnd => exact next_keeps (State.doStepEnd_kept ..)
  | perstNRelease => exact next_keeps (State.doPerstRelease_kept ..)
  | pcieLinkUp => exact next_keeps (State.doLinkUp_kept ..)
  | imageOperationFinish => exact next_keeps (State.doImageFinish_kept ..)
  | firmwareOperationFinish => exact next_keeps (State.doFwFinish_kept ..)
  | fillDone => exact next_keeps (State.settled_kept _ _ fun _ => State.doFillDone_kept ..)
  | migCopyDone => exact next_keeps (State.settled_kept _ _ fun _ => State.doMigCopyDone_kept ..)
  | migrationBlobDone => exact next_keeps (State.doBlobDone_kept ..)
  | wayOperationDone => exact next_keeps (State.settled_kept _ _ fun _ => State.doWayDone_kept ..)
  | repackRow => exact next_keeps (State.doRepackRow_kept ..)
  | portDrainTimeout => exact next_keeps (State.doPortDrain_kept ..)
  | holdNotice => exact next_keeps (State.doHoldNotice_kept ..)
  | writeAcknowledgement => exact next_keeps (State.doWriteAck_kept ..)
  | readReply => exact next_keeps (State.settled_kept _ _ fun _ => State.doReadReply_kept ..)
  | laneArithmetic => exact next_keeps (State.doLaneArithmetic_kept ..)
  | instructionFetch => exact next_keeps (State.issueMem_kept _ _ _ fun _ => State.doInstrFetch_kept ..)
  | scratchAccess => exact next_keeps (State.issue_kept _ _ _ _ fun _ => State.doScratch_kept ..)
  | logicFaultDetected => exact next_keeps (State.doLogicFault_kept ..)
  | entdaa => exact next_keeps (State.doEntdaa_kept ..)
  | fuseBlowDone | coldStart | pwrGoodFall | perstNAssert | packageReset | plumbPackageReset | plbPowerLimitWrite
  | setPowerLimit | registerWrite | plumbFailover | powerLoopTick | prochotAssert | vrAlert => cases h

/-! ### The fuses -/

/-- What fuses hold: key hashes, revocations and floor (spec/02 R39, R60), and the field repairs (spec/13 R319). -/
structure Fuses where
  keys : Tbl Nat
  revoked : Nat
  floor : Nat
  repairs : Tbl (List W64)

/-- The fuses of a state. -/
def State.fuses (s : State) : Fuses := ⟨s.nv.keys, s.nv.revoked, s.nv.floor, s.nv.repairs⟩

theorem State.fuses_of_kept {s t : State} (h : t.kept = s.kept) : t.fuses = s.fuses :=
  congrArg (fun k : Kept => (⟨k.keys, k.revoked, k.floor, k.repairs⟩ : Fuses)) h

theorem State.fuses_if {c : Prop} [Decidable c] {s t : State} (h : t.fuses = s.fuses) :
    (if c then t else s).fuses = s.fuses := by
  rw [apply_ite State.fuses, h, ite_self]

/-! ### Resets and straps -/

theorem State.fuses_signal (s : State) : s.signal.fuses = s.fuses := fuses_of_kept s.signal_kept

theorem State.fuses_beginPackage (s : State) (cause : Nat) (hold : Bool) :
    (s.beginPackage cause hold).fuses = s.fuses := by
  unfold State.beginPackage
  dsimp only
  split
  · rfl
  · exact State.fuses_signal _

theorem State.fuses_doPackageReset (s : State) (src : ResetSource) : (s.doPackageReset src).fuses = s.fuses := by
  cases src with
  | manager u =>
    simp only [State.doPackageReset]
    (repeat' split)
    · rfl
    · rfl
    · exact s.fuses_beginPackage causeManager false
    · rfl
  | management => exact fuses_if (s.fuses_beginPackage causePlinth false)
  | _ => rfl

theorem State.fuses_doColdStart (s : State) (pkgId : BitVec 4) (traySel : Bool) :
    (s.doColdStart pkgId traySel).fuses = s.fuses := by
  unfold State.doColdStart
  split <;> rfl

/-- The loss of power spoils slots of the flash and its journal, not the fuses. -/
theorem State.fuses_doPwrGoodFall (s : State) : s.doPwrGoodFall.fuses = s.fuses :=
  (fuses_of_kept s.cutFlash_kept : s.cutFlash.fuses = s.fuses)

theorem State.fuses_doPerstAssert (s : State) : s.doPerstAssert.fuses = s.fuses := by
  unfold State.doPerstAssert
  dsimp only
  split
  · exact State.fuses_beginPackage _ _ _
  · rfl

/-! ### Power and management operations -/

theorem State.fuses_mgmtOp (s : State) (i : HeldOp) {f : State → State} (h : (f s).fuses = s.fuses) :
    (s.mgmtOp i f).fuses = s.fuses := by
  unfold State.mgmtOp
  split
  · rfl
  · exact h

theorem State.fuses_setManagerLimit (s : State) (w : Nat) : (s.setManagerLimit w).fuses = s.fuses := fuses_if rfl

theorem State.fuses_setThrottle (s : State) (c : Nat) : (s.setThrottle c).fuses = s.fuses := fuses_if rfl

theorem State.fuses_answer (s : State) (status : Nat) (b : Bytes) : (s.answer status b).fuses = s.fuses :=
  fuses_of_kept (s.answer_kept status b)

theorem State.fuses_setPlinthLimit (s : State) (w : Nat) : (s.setPlinthLimit w).fuses = s.fuses := by
  unfold State.setPlinthLimit
  split
  · exact s.fuses_answer 0 []
  · exact State.fuses_answer _ _ _

theorem State.fuses_plumbReset (s : State) : s.plumbReset.fuses = s.fuses :=
  (State.fuses_answer _ 0 []).trans (s.fuses_doPackageReset .management)

theorem State.fuses_readStatusWord (s : State) (reg : Nat) (acked overCurrent : Bool) :
    (s.readStatusWord reg acked overCurrent).fuses = s.fuses := by
  have hvr := fuses_of_kept (s.vrTransaction_kept reg acked)
  unfold State.readStatusWord
  split <;> exact hvr

theorem State.fuses_doVrAlert (s : State) (reg : Fin 5) (acked overCurrent : Bool) :
    (s.doVrAlert reg acked overCurrent).fuses = s.fuses := by
  unfold State.doVrAlert
  split
  · rfl
  · exact s.fuses_mgmtOp _ (s.fuses_readStatusWord reg.val acked overCurrent)

theorem State.fuses_doPowerLoop (s : State) (sense : PowerSense) : (s.doPowerLoop sense).fuses = s.fuses := by
  unfold State.doPowerLoop
  extract_lets watts s1
  split <;> rfl

theorem State.fuses_doProchot (s : State) : s.doProchot.fuses = s.fuses := by
  unfold State.doProchot
  dsimp only
  split <;> rfl

/-- Whatever a failover held leaves the fuses alone once it is performed. -/
theorem State.fuses_performHeld (s : State) (op : HeldOp) : (s.performHeld op).fuses = s.fuses := by
  cases op with
  | power on u => exact fuses_if (fuses_of_kept (s.powerRequest_kept u.toNat on))
  | managerLimit w => exact fuses_if (s.fuses_setManagerLimit w)
  | throttle c => exact fuses_if (s.fuses_setThrottle c)
  | alert reg acked oc => exact s.fuses_readStatusWord reg.val acked oc
  | limit w => exact s.fuses_setPlinthLimit w.toNat
  | unitPower on u => exact fuses_of_kept (s.plumbUnitPower_kept on u.toNat)
  | packageReset => exact s.fuses_plumbReset
  | stage area b ok => exact fuses_of_kept (s.doStage_kept area.val b ok)

/-- A fold of steps that each keep a part of what they act on keeps it. -/
theorem foldl_keeps {σ α β : Type} (g : σ → β) {f : σ → α → σ} (h : ∀ s a, g (f s a) = g s) (l : List α) (s : σ) :
    g (l.foldl f s) = g s := by
  induction l generalizing s with
  | nil => rfl
  | cons a l ih => exact (ih (f s a)).trans (h s a)

theorem State.fuses_doFailover (s : State) (ended : Bool) : (s.doFailover ended).fuses = s.fuses := by
  unfold State.doFailover
  (repeat' split)
  · rfl
  · exact foldl_keeps State.fuses State.fuses_performHeld _ _
  · rfl
  · rfl
  · exact fuses_of_kept (State.raise_kept ..)

/-! ### Register writes -/

theorem State.fuses_writePlb (s : State) (r : Reg) (v : Nat) : (s.writePlb r v).fuses = s.fuses := by
  unfold State.writePlb
  (repeat' split)
  case h_6 => exact s.fuses_mgmtOp _ (s.fuses_setThrottle _)
  all_goals rfl

theorem State.fuses_writeReg (s : State) (r : Reg) (v : Nat) : (s.writeReg r v).fuses = s.fuses := by
  unfold State.writeReg
  split
  · exact fuses_of_kept (s.writeImageReg_kept r v)
  · exact fuses_of_kept (s.writeCfg_kept r v)
  · exact s.fuses_writePlb r v
  · exact fuses_of_kept (s.writeFltRing_kept r v)
  · exact fuses_of_kept (s.writeFlt_kept r v)
  · exact fuses_of_kept (s.writeTel_kept r v)
  · rfl

theorem State.fuses_writeHalf (s : State) (port : Bool) (r : Reg) (v : Nat) : (s.writeHalf port r v).fuses = s.fuses := by
  unfold State.writeHalf
  (repeat' split)
  · exact fuses_of_kept (s.doAck_kept _)
  · exact fuses_of_kept (s.startFw_kept ..)
  · exact fuses_of_kept (s.startFw_kept ..)
  · exact s.fuses_writeReg _ _
  · exact s.fuses_writeReg _ _

theorem State.fuses_applyMatch {α : Type} (s : State) (m : Match α) {f : State → α → Nat → State}
    {bad : State → State} (v : Nat) (hf : ∀ s r v, (f s r v).fuses = s.fuses) (hbad : (bad s).fuses = s.fuses) :
    (s.applyMatch m f bad v).fuses = s.fuses := by
  cases m with
  | whole r => exact hf s r v
  | halves lo hi => cases lo <;> cases hi <;> simp [State.applyMatch, hf]
  | bad => exact hbad

theorem State.fuses_doRegisterWrite (s : State) (w : Window) (off : BitVec 24) (wide : Bool) (value : Nat) :
    (s.doRegisterWrite w off wide value).fuses = s.fuses := by
  have hbad : (s.badWrite w.bar0 off).fuses = s.fuses := fuses_of_kept (s.badWrite_kept w.bar0 off)
  unfold State.doRegisterWrite
  extract_lets v bad
  split
  · exact s.fuses_applyMatch _ v (fun s r v => fuses_of_kept (s.writePage_kept _ r v)) hbad
  · refine s.fuses_applyMatch _ v (fun s r v => ?_) hbad
    split
    · exact s.fuses_writeHalf w.port r v
    · exact s.fuses_writeReg r v

/-! ### Blowing fuses -/

/-- Fuses that hold all that others hold: the same keys, and revocations, floor and repair entries that have only been
added to. -/
structure Fuses.grewTo (f g : Fuses) : Prop where
  keys : g.keys = f.keys
  revoked : ∀ k, bitAt f.revoked k = true → bitAt g.revoked k = true
  floor : f.floor ≤ g.floor
  repairs : ∀ d, ∃ new, Tbl.get [] g.repairs d = Tbl.get [] f.repairs d ++ new

theorem Fuses.grewTo_of_eq {f g : Fuses} (h : g = f) : f.grewTo g := by
  subst h
  exact ⟨rfl, fun _ hk => hk, Nat.le_refl _, fun d => ⟨[], (List.append_nil _).symm⟩⟩

theorem bitAt_eq_testBit (n i : Nat) : bitAt n i = n.testBit i := by
  rw [Nat.testBit_eq_decide_div_mod_eq, bitAt]

theorem bitAt_or (m n i : Nat) : bitAt (m ||| n) i = (bitAt m i || bitAt n i) := by
  simp only [bitAt_eq_testBit, Nat.testBit_or]

theorem Tbl.get_upd_append {α : Type} [DecidableEq α] (t : Tbl (List α)) (i j : Nat) (new : List α) :
    Tbl.get [] (Tbl.upd [] t i (· ++ new)) j = Tbl.get [] t j ++ (if j = i then new else []) := by
  rw [Tbl.get_upd]
  split
  · subst_vars; rfl
  · exact (List.append_nil _).symm

/-- A blow adds an entry to one die's repairs, or revocations and a floor to the key fuses, or nothing. -/
theorem State.doBlowDone_grew (s : State) (ok : Bool) : s.fuses.grewTo (s.doBlowDone ok).fuses := by
  unfold State.doBlowDone
  split
  · exact Fuses.grewTo_of_eq rfl
  · split
    · exact ⟨rfl, fun _ hk => hk, Nat.le_refl _, fun d => ⟨_, Tbl.get_upd_append _ _ d _⟩⟩
    · cases ok with
      | true =>
        exact ⟨rfl, fun _ hk => (bitAt_or ..).trans (Bool.or_eq_true_iff.mpr (.inl hk)), Nat.le_max_left _ _,
          fun d => ⟨[], (List.append_nil _).symm⟩⟩
      | false => exact Fuses.grewTo_of_eq rfl

/-! ### Every step -/

/-- A command answers a next state, whose fuses hold all that they held. -/
def Grows (o : Host.Outcome State Fault Refusal) (s : State) : Prop := ∃ t, o = .next t ∧ s.fuses.grewTo t.fuses

theorem next_grows {s t : State} (h : t.fuses = s.fuses) : Grows (.next t) s := ⟨t, rfl, Fuses.grewTo_of_eq h⟩

/-- Of all commands FUSE_BLOW_DONE alone changes what the fuses hold, and it adds to it. -/
theorem exec_grows (c : Instr) (s : State) : Grows (exec c s) s := by
  cases hc : changesKept c with
  | false =>
    obtain ⟨t, ht, hk⟩ := exec_keeps c s hc
    exact ⟨t, ht, Fuses.grewTo_of_eq (State.fuses_of_kept hk)⟩
  | true =>
    cases c with
    | fuseBlowDone ok => exact ⟨_, rfl, s.doBlowDone_grew ok⟩
    | coldStart pkgId traySel => exact next_grows (s.fuses_doColdStart pkgId traySel)
    | pwrGoodFall => exact next_grows s.fuses_doPwrGoodFall
    | perstNAssert => exact next_grows s.fuses_doPerstAssert
    | packageReset src => exact next_grows (s.fuses_doPackageReset src)
    | plumbPackageReset => exact next_grows (State.fuses_if (s.fuses_mgmtOp _ s.fuses_plumbReset))
    | plbPowerLimitWrite v => exact next_grows (State.fuses_if (s.fuses_mgmtOp _ (s.fuses_setManagerLimit _)))
    | setPowerLimit w => exact next_grows (State.fuses_if (s.fuses_mgmtOp _ (s.fuses_setPlinthLimit _)))
    | registerWrite w off wide v => exact next_grows (s.fuses_doRegisterWrite w off wide v.toNat)
    | plumbFailover ended => exact next_grows (s.fuses_doFailover ended)
    | powerLoopTick sense => exact next_grows (s.fuses_doPowerLoop sense)
    | prochotAssert => exact next_grows s.fuses_doProchot
    | vrAlert reg acked oc => exact next_grows (s.fuses_doVrAlert reg acked oc)
    | _ => cases hc

theorem step_fuses_grew {s t : State} (h : step s = .next t) : s.fuses.grewTo t.fuses := by
  unfold step at h
  cases hp : s.pending with
  | nil =>
    rw [hp] at h
    obtain rfl := Host.Outcome.next.inj h
    exact Fuses.grewTo_of_eq (State.fuses_of_kept s.idle_kept)
  | cons c rest =>
    rw [hp] at h
    obtain ⟨u, hu, hgrew⟩ := exec_grows c { s with pending := rest }
    obtain rfl := Host.Outcome.next.inj (hu.symm.trans h)
    exact hgrew

/-- Settles O8: every command but FUSE_BLOW_DONE leaves the fuses as they are, and that one adds to them. -/
theorem fusesOneWay : Obligations.FusesOneWay := by
  intro s t h
  obtain ⟨hkeys, hrevoked, hfloor, hrepairs⟩ := step_fuses_grew h
  exact ⟨hkeys, hrevoked, hfloor, hrepairs⟩

end Sys2Proof.Machine

/-! ## Slice states and fuse writes (O44) -/

namespace Sys2Proof.Machine

/-! ### DRAIN, SLICE_DRAINED and RESUME (R42, R43, R321) -/

section SliceStates
variable {s : State} (hr : s.ready = true) (i : BitVec 8)
include hr

theorem exec_drain : exec (.drain i) s = .next (if (s.slice i.toNat).state = .active then
    s.updSlice i.toNat fun v => { v with state := .draining } else s.wrongState) := by
  simp [exec, execDrain, State.doDrain, hr]

theorem exec_sliceDrained : exec (.sliceDrained i) s
    = .next (if (s.slice i.toNat).state = .draining ∧ s.quiescent i.toNat = true then
        s.updSlice i.toNat fun v => { v with state := .drained } else s) := by
  simp [exec, execSliceDrained, State.doSliceDrained, hr]

theorem exec_resume : exec (.resume i) s
    = .next (if (s.slice i.toNat).state = .drained ∧ (s.slice i.toNat).descBad = false then
        s.updSlice i.toNat fun v => { v with state := .active, freezing := none } else s.wrongState) := by
  simp [exec, execResume, State.doResume, hr]

end SliceStates

/-! ### CFG_SEC_CTL (R39, R60) -/

section KeyFuses
variable {s : State}

theorem exec_revoke_taken (hr : s.ready = true) {mask : BitVec 4}
    (h : ∃ k < 4, bitAt s.nv.usableKeys k = true ∧ bitAt (s.dev.secRevoke ||| mask.toNat % 16) k = false) :
    exec (.revoke 0xA5 mask) s
      = .next { s with dev := { s.dev with secRevoke := s.dev.secRevoke ||| mask.toNat % 16 } } := by
  have hleft : (List.range 4).any (fun k => bitAt s.nv.usableKeys k && !bitAt (s.dev.secRevoke ||| mask.toNat % 16) k)
      = true := by simpa using h
  simp only [exec, execRevoke, State.doRevoke, hr, hleft]
  rfl

theorem exec_revoke_refused {mask : BitVec 4}
    (h : ∀ k < 4, bitAt s.nv.usableKeys k = true → bitAt (s.dev.secRevoke ||| mask.toNat % 16) k = true) :
    exec (.revoke 0xA5 mask) s = .next s := by
  have hnone : (List.range 4).any (fun k => bitAt s.nv.usableKeys k && !bitAt (s.dev.secRevoke ||| mask.toNat % 16) k)
      = false := by simpa using h
  simp only [exec, execRevoke, State.doRevoke, hnone, Bool.and_false, Bool.false_eq_true, if_false]

theorem exec_revoke_locked {u : Byte} (hu : u ≠ 0xA5) (mask : BitVec 4) : exec (.revoke u mask) s = .next s := by
  have hu' : u.toNat ≠ 0xA5 := fun h => hu (BitVec.eq_of_toNat_eq h)
  simp [exec, execRevoke, State.doRevoke, hu']

theorem exec_raiseFloor (hr : s.ready = true) : exec (.raiseFloor 0xA5) s = .next { s with dev := { s.dev with
    secFloor := max s.dev.secFloor (min 64 s.whole.secVersion.toNat) } } := by
  simp [exec, execRaiseFloor, State.doRaiseFloor, hr]

theorem exec_raiseFloor_locked {u : Byte} (hu : u ≠ 0xA5) : exec (.raiseFloor u) s = .next s := by
  have hu' : u.toNat ≠ 0xA5 := fun h => hu (BitVec.eq_of_toNat_eq h)
  simp [exec, execRaiseFloor, State.doRaiseFloor, hu']

end KeyFuses

/-! ### FLT_REPAIR_CTL (R319, R331) -/

section Repairs
variable {s : State} (d : Fin 8)

theorem exec_fltRepairGo_locked {u : Byte} (hu : u ≠ 0xC5) : exec (.fltRepairGo u d) s = .next s := by
  have hu' : u.toNat ≠ 0xC5 := fun h => hu (BitVec.eq_of_toNat_eq h)
  simp [exec, execFltRepairGo, State.doRepairGo, hu']

theorem exec_fltRepairGo_busy (hb : s.flt.repairBusy = true) : exec (.fltRepairGo 0xC5 d) s = .next s := by
  simp [exec, execFltRepairGo, State.doRepairGo, hb]

theorem exec_fltRepairGo (hr : s.ready = true) (hb : s.flt.repairBusy = false) : exec (.fltRepairGo 0xC5 d) s
    = .next (if 64 ≤ s.repairSlots d.val then { s with flt := { s.flt with repairFull := true } }
      else { s with flt := { s.flt with
        repairBusy := true
        blowing := s.flt.blowing ++ [(d.val, BitVec.ofNat 64 (repairEntryWithCrc (s.flt.repairEntry.toNat % 2 ^ 56)),
          true)] } }) := by
  simp [exec, execFltRepairGo, State.doRepairGo, hr, hb]

end Repairs

/-! ### FUSE_BLOW_DONE (R39, R60, R319) -/

/-- The entry that a blow leaves in its slot: a failed one inverts its top byte. -/
def blownEntry (e : W64) (ok : Bool) : W64 := if ok then e else e ^^^ 0xFF00000000000000#64

theorem blownEntry_failed_ne (e : W64) : blownEntry e false ≠ e := by
  intro h
  have hbit := congrArg (fun x : W64 => x.getLsbD 63) h
  simp [blownEntry] at hbit

section Blows
variable {s : State} (hp : s.powered = true)
include hp

theorem exec_fuseBlowDone_repair {d : Nat} {e : W64} {byManager : Bool} {rest : List (Nat × W64 × Bool)}
    (hb : s.flt.blowing = (d, e, byManager) :: rest) (ok : Bool) :
    exec (.fuseBlowDone ok) s = .next { s with
      nv := { s.nv with repairs := Tbl.upd [] s.nv.repairs d (· ++ [blownEntry e ok]) }
      flt := { s.flt with
        blowing := rest
        repairBusy := s.flt.repairBusy && !byManager
        repairDone := s.flt.repairDone || (byManager && ok)
        repairFailed := s.flt.repairFailed || !ok } } := by
  simp [exec, execFuseBlowDone, State.doBlowDone, hp, hb, blownEntry]

theorem exec_fuseBlowDone_keys (hb : s.flt.blowing = []) : exec (.fuseBlowDone true) s = .next { s with
    nv := { s.nv with revoked := s.nv.revoked ||| s.dev.secRevoke, floor := max s.nv.floor s.dev.secFloor }
    dev := { s.dev with secRevoke := 0, secFloor := 0 } } := by
  simp [exec, execFuseBlowDone, State.doBlowDone, hp, hb]

end Blows

/-! ### The statement -/

theorem State.powered_of_ready {s : State} (h : s.ready = true) : s.powered = true := by
  simp only [State.ready, Bool.and_eq_true] at h
  exact h.1

/-- Settles O44: each command by its own law. -/
theorem sliceStatesAndFuses : Obligations.SliceStatesAndFuses := by
  unfold Obligations.SliceStatesAndFuses
  refine ⟨fun s i hr => ?_, fun s hr => ?_⟩
  · rw [exec_drain hr, exec_sliceDrained hr, exec_resume hr]
    refine ⟨fun h => ?_, fun h => ?_, fun h hq => ?_, fun h => ?_, fun h hd => ?_, fun h => ?_⟩
    · rw [if_pos h]
    · rw [if_neg h]; rfl
    · rw [if_pos ⟨h, hq⟩]
    · rw [if_neg fun hd => h.elim (fun hst => hst hd.1) fun hq => Bool.false_ne_true (hq.symm.trans hd.2)]
    · rw [if_pos ⟨h, hd⟩]
    · rw [if_neg fun hd => h.elim (fun hst => hst hd.1) fun hbad => Bool.false_ne_true (hd.2.symm.trans hbad)]; rfl
  · have hp := State.powered_of_ready hr
    refine ⟨fun mask => ⟨exec_revoke_taken hr, exec_revoke_refused⟩,
      fun u mask hu => ⟨exec_revoke_locked hu mask, exec_raiseFloor_locked hu⟩, exec_raiseFloor hr,
      fun u d hu => exec_fltRepairGo_locked d hu, fun d hb => exec_fltRepairGo_busy d hb, fun d hb h => ?_,
      fun d hb h => ?_, fun d e rest ok hb => ⟨_, blownEntry e ok, exec_fuseBlowDone_repair hp hb ok, ?_⟩,
      fun hb => ⟨_, exec_fuseBlowDone_keys hp hb, rfl, rfl, rfl, rfl⟩⟩
    · rw [exec_fltRepairGo d hr hb, if_pos h]
    · rw [exec_fltRepairGo d hr hb, if_neg (Nat.not_le.mpr h)]
    · refine ⟨fun hok => by simp [hok, blownEntry], fun hok => hok ▸ blownEntry_failed_ne e, ?_, fun k hk => ?_,
        rfl, rfl, rfl, rfl, ?_, fun hok => ?_, fun hok => ?_⟩
      · simp [Tbl.get_upd]
      · simp [Tbl.get_upd, hk]
      · simp
      · simp [hok]
      · simp [hok]

end Sys2Proof.Machine

/-! ## Image operations (O42) -/

namespace Sys2Proof.Machine

/-! ### What installing a slice leaves of the slices -/

theorem State.slice_of_slices {s t : State} (h : t.slices = s.slices) (k : Nat) : t.slice k = s.slice k := by
  rw [State.slice, State.slice, h]

theorem State.stopCmd_slices (s : State) (id : Nat) (st : Stop) : (s.stopCmd id st).slices = s.slices :=
  s.stopCmd_sameBut id st .slices (by decide)

/-- A fault that names no slice changes none. -/
theorem State.raise_slices {s : State} {code : Nat} {f : FaultInfo} (h : f.slice = none) :
    (s.raise code f).slices = s.slices := by
  have hcount : ∀ b : Bool, (if b then s.countFault code f else s) = s := by simp [State.countFault, h]
  have hmask : (s.maskFault code f).1 = s := by simp [State.maskFault, h]
  unfold State.raise
  extract_lets own seq e r merged
  have he : e.1 = s := by simp only [e, hcount, hmask]
  calc _ = ((e.1.queueRecord f.carrier r).fillBucket r).slices := State.endFault_sameBut _ _ _ .slices (by decide)
    _ = (e.1.queueRecord f.carrier r).slices := State.fillBucket_sameBut _ _ .slices (by decide)
    _ = e.1.slices := State.queueRecord_sameBut _ _ _ .slices (by decide)
    _ = s.slices := by rw [he]

theorem State.bumpEpoch_slices (s : State) (u : Nat) : (s.bumpEpoch u).slices = s.slices := by
  unfold State.bumpEpoch
  split <;> rfl

theorem State.closeShield_slices (s : State) (u detail arg : Nat) : (s.closeShield u detail arg).slices = s.slices := by
  unfold State.closeShield
  refine (foldl_keeps State.slices (fun t e => ?_) _ _).trans (s.bumpEpoch_slices u)
  split
  · exact t.stopCmd_slices _ _
  · rfl

theorem State.abortBay_slices (s : State) (b detail arg : Nat) : (s.abortBay b detail arg).slices = s.slices :=
  foldl_keeps State.slices (fun t _ => t.stopCmd_slices _ _) _ s

theorem State.setUnitState_slices (s : State) (u : Nat) (x : UnitState) : (s.setUnitState u x).slices = s.slices := by
  unfold State.setUnitState
  split <;> rfl

theorem State.offline_slices (s : State) (u : Nat) : (s.offline u).slices = s.slices := by
  unfold State.offline
  split
  · exact (State.closeShield_slices ..).trans (s.abortBay_slices ..)
  · exact (State.setUnitState_slices ..).trans (s.closeShield_slices ..)
  · exact s.closeShield_slices ..
  · rfl
  · rfl

theorem State.injected_slices (s : State) (checker unit : Nat) : (s.injected checker unit).2.slices = s.slices := by
  unfold State.injected
  dsimp only
  split <;> rfl

theorem State.bitmapWrite_slices (s : State) (c : Nat) : (s.bitmapWrite c).slices = s.slices := by
  unfold State.bitmapWrite
  dsimp only
  split
  · exact ((State.offline_slices ..).trans (State.raise_slices rfl)).trans (s.injected_slices ..)
  · exact s.injected_slices ..

theorem State.holdAt_slices (s : State) (c : Option Nat) : (s.holdAt c).slices = s.slices := by
  unfold State.holdAt
  split <;> rfl

theorem State.holdWrite_slices (s : State) (x n : Nat) : (s.holdWrite x n).slices = s.slices := by
  unfold State.holdWrite
  split
  · rfl
  · exact s.holdAt_slices none
  · exact s.holdAt_slices none
  · dsimp only
    split <;> exact s.holdAt_slices none

theorem State.dropWay_slices (s : State) (x set w : Nat) : (s.dropWay x set w).slices = s.slices := by
  unfold State.dropWay State.mapAges
  refine foldl_keeps State.slices (fun t v => ?_) _ _
  split <;> rfl

/-- Making blocks fresh drops cache lines and writes bitmap words; it can take a channel DOWN, but names no slice. -/
theorem State.freshenWhere_slices (s : State) (sel : Nat → Bool) : (s.freshenWhere sel).slices = s.slices := by
  unfold State.freshenWhere
  extract_lets d hit s1 s2 was mem s3
  have h1 : s1.slices = s.slices := by
    refine foldl_keeps State.slices (fun t e => ?_) _ s
    split
    · rfl
    · exact t.holdWrite_slices _ _
  have h2 : s2.slices = s1.slices := foldl_keeps State.slices (fun t e => t.dropWay_slices _ _ _) _ s1
  have h3 : s3.slices = s2.slices := rfl
  rw [foldl_keeps State.slices fun t (e : Nat × Nat) => t.bitmapWrite_slices e.1, h3, h2, h1]

theorem State.returnBuffers_slices (s : State) (i : Nat) (all : Bool) : (s.returnBuffers i all).slices = s.slices := by
  refine foldl_keeps State.slices (fun t k => ?_) _ s
  split <;> rfl

theorem State.applyModes_slices (s : State) (old new : SliceDef) (quarters : Nat) :
    (s.applyModes old new quarters).slices = s.slices := by
  refine foldl_keeps State.slices (fun t b => ?_) _ s
  (repeat' split) <;> rfl

theorem writeItems_slices (quoin : Bool) (items : List Bytes) (s : State) :
    (writeItems quoin items s).1.slices = s.slices := by
  induction items generalizing s with
  | nil => rfl
  | cons x t ih => exact (ih _).trans (s.injected_slices ..)

/-- An owner change clears its own slice alone. -/
theorem State.clearOwner_slice {s : State} {i k : Nat} (h : k ≠ i) : (s.clearOwner i).slice k = s.slice k := by
  unfold State.clearOwner
  dsimp only
  refine (State.slice_of_slices (foldl_keeps State.slices (fun t b => ?_) _ _) k).trans ?_
  · split <;> rfl
  · rw [State.slice_updSlice, if_neg h]
    exact State.slice_of_slices (s.returnBuffers_slices i true) k

/-! ### The slice that is installed -/

/-- What an apply sets of a slice, and neither its queues nor its stored copies hold: definition, mark of a bad descriptor
and state. -/
def Slice.setting (v : Slice) : SliceDef × Bool × SliceState := (v.defn, v.descBad, v.state)

/-- Trimming the queues leaves what the queues do not hold. -/
theorem Slice.trimQueues_keeps {β : Type} (g : Slice → β) (hsq : ∀ v q x, g (v.setSq q x) = g v)
    (hcq : ∀ v q x, g (v.setCq q x) = g v) (hfq : ∀ v r, g { v with fq := r } = g v) (v : Slice) :
    g v.trimQueues = g v := by
  unfold Slice.trimQueues
  dsimp only
  rw [hfq, foldl_keeps g fun v q => hcq v q _, foldl_keeps g fun v q => hsq v q _]

theorem Slice.setting_trimQueues (v : Slice) : v.trimQueues.setting = v.setting :=
  v.trimQueues_keeps Slice.setting (fun _ _ _ => rfl) (fun _ _ _ => rfl) fun _ _ => rfl

/-- Writing the items of both copies touches no slice yet. -/
theorem State.writeItems_both_slice (s : State) (n k : Nat) (items : List Bytes) :
    (writeItems true items (writeItems false items (s.drawChoice n).2).1).1.slice k = s.slice k :=
  State.slice_of_slices ((writeItems_slices ..).trans (writeItems_slices ..)) k

theorem State.setting_writeCopies (s : State) (i : Nat) : ((s.writeCopies i).slice i).setting = (s.slice i).setting := by
  simp only [State.writeCopies, State.slice_updSlice_same, State.writeItems_both_slice, Slice.setting]

theorem State.writeCopies_slice {s : State} {i k : Nat} (h : k ≠ i) : (s.writeCopies i).slice k = s.slice k := by
  simp only [State.writeCopies, State.slice_updSlice, State.writeItems_both_slice, if_neg h]

/-- An apply sets the definition of its slice, and the state that follows from it (R44). -/
theorem State.setting_installSlice (s : State) (i : Nat) (b : Bytes) : ((s.installSlice i b).slice i).setting
    = (defOf b i, false, if (defOf b i).enabled then .drained else .off) := by
  unfold State.installSlice
  dsimp only
  rw [State.setting_writeCopies, State.slice_updSlice_same]
  rw [apply_ite Slice.setting, Slice.setting_trimQueues, ite_self, Slice.setting]

/-- An apply changes no other slice. -/
theorem State.installSlice_slice {s : State} {i k : Nat} (b : Bytes) (h : k ≠ i) :
    (s.installSlice i b).slice k = s.slice k := by
  unfold State.installSlice
  dsimp only
  rw [State.writeCopies_slice h, State.slice_updSlice, if_neg h, State.slice_of_slices (State.applyModes_slices ..)]
  split
  · rw [State.clearOwner_slice h, State.slice_of_slices (State.freshenWhere_slices ..)]
  · rw [State.slice_of_slices (State.freshenWhere_slices ..)]

/-! ### Starting an operation (R56) -/

section Start
variable {s : State}

theorem State.startImage_busy (hi : s.imageRegs = true) (hb : s.dev.imageBusy = true) (op slice : Nat)
    (slotB port : Bool) : s.startImage op slice slotB port = { s with dev := { s.dev with imageOverrun := true } } := by
  simp [State.startImage, hi, hb]

theorem State.startImage_unsuited (hi : s.imageRegs = true) (hb : s.dev.imageBusy = false) {op slice : Nat}
    (hs : s.imageSuits op slice = false) (slotB port : Bool) :
    s.startImage op slice slotB port = s.imageDone op slice (some { code := irWrongState }) := by
  simp [State.startImage, hi, hb, hs]

theorem State.startImage_accepted (hi : s.imageRegs = true) (hb : s.dev.imageBusy = false) {op slice : Nat}
    (hs : s.imageSuits op slice = true) (slotB port : Bool) : s.startImage op slice slotB port = s.imageBegin
      { op := op, slice := slice, slotB := slotB, port := port, addr := s.dev.imageAddr, len := s.dev.imageLen } := by
  simp [State.startImage, hi, hb, hs]

theorem State.imageBegin_apply {o : ImageOp} (ho : o.op = 1) (hl : badImgLen o.len = false) : s.imageBegin o
    = ({ s with dev := { s.dev with imageBusy := true, imageOp := some o } }.updSlice o.slice fun v =>
        { v with prior := v.state, state := .applying }).breakInbound o.slice := by
  simp [State.imageBegin, ho, hl]

theorem State.imageBegin_other {o : ImageOp} (ho : o.op ≠ 1) (hl : badImgLen o.len = false) :
    s.imageBegin o = { s with dev := { s.dev with imageBusy := true, imageOp := some o } } := by
  simp [State.imageBegin, ho, hl]

end Start

/-! ### Failing (R46) -/

theorem State.imageDone_slice (s : State) (op slice : Nat) (bad : Option Bad) (k : Nat) :
    (s.imageDone op slice bad).slice k = s.slice k := rfl

/-- A failed operation shows its RESULT and OFFSET and has taken no effect; the slice of an apply is back in its prior
state. -/
theorem State.imageFail_effect (s : State) (op slice : Nat) (bad : Bad) :
    let t := s.imageFail op slice bad
    t.dev.imageBusy = false ∧ t.dev.imageDone = true ∧ t.dev.imageResult = bad.code ∧ t.dev.imageOffset = bad.off ∧
      t.dev.imageLastOp = op ∧ t.whole = s.whole ∧ t.nv.flash = s.nv.flash ∧
      (op = 1 → t.slice slice = { s.slice slice with state := (s.slice slice).prior }) ∧
      ∀ k, (op = 1 → k ≠ slice) → t.slice k = s.slice k := by
  unfold State.imageFail
  dsimp only
  split
  case isTrue h =>
    refine ⟨rfl, rfl, rfl, rfl, rfl, rfl, rfl, fun _ => ?_, fun k hk => ?_⟩
    · rw [State.imageDone_slice, State.slice_updSlice_same]
    · rw [State.imageDone_slice, State.slice_updSlice, if_neg (hk h)]
  case isFalse h =>
    exact ⟨rfl, rfl, rfl, rfl, rfl, rfl, rfl, fun ho => absurd ho h, fun _ _ => rfl⟩

/-! ### Taking effect -/

section Effect
variable {s : State} {o : ImageOp} {b : Bytes}

theorem State.imageEffect_applyFails (ho : o.op = 1) {e : Bad} (h : s.applyCheck o.slice b o.len = some e) (ok : Bool) :
    s.imageEffect o b ok = s.imageFail 1 o.slice e := by
  simp [State.imageEffect, ho, h]

theorem State.imageEffect_applies (ho : o.op = 1) (h : s.applyCheck o.slice b o.len = none) (ok : Bool) :
    s.imageEffect o b ok = (s.installSlice o.slice b).imageDone 1 o.slice none := by
  simp [State.imageEffect, ho, h]

theorem State.imageEffect_wholeFails (ho : o.op ≠ 1) {e : Bad} (h : wholeCheck s.nv s.density b (some o.len) = some e)
    (ok : Bool) : s.imageEffect o b ok = s.imageFail o.op o.slice e := by
  simp [State.imageEffect, ho, h]

theorem State.imageEffect_loads (ho : o.op = 2) (h : wholeCheck s.nv s.density b (some o.len) = none) (ok : Bool) :
    s.imageEffect o b ok = ((s.loadImage b 2).beginStep 7).imageDone 2 o.slice none := by
  simp [State.imageEffect, ho, h]

theorem State.imageEffect_stores (ho : o.op = 3) (h : wholeCheck s.nv s.density b (some o.len) = none) (ok : Bool) :
    s.imageEffect o b ok = s.imageStore o b ok := by
  simp [State.imageEffect, ho, h]

theorem State.imageStore_active (h : s.whole.loadedFrom = portBit o.slotB) (ok : Bool) :
    s.imageStore o b ok = s.imageFail o.op o.slice { code := irActiveSlot } := by
  simp [State.imageStore, h]

end Effect

theorem State.enterState_state (s : State) (x : DevState) : (s.enterState x).dev.state = x := by
  unfold State.enterState
  split
  · assumption
  · simp

theorem State.enterState_step (s : State) (x : DevState) : (s.enterState x).dev.step = s.dev.step := by
  unfold State.enterState
  split
  · rfl
  · simp

theorem State.enterState_whole (s : State) (x : DevState) : (s.enterState x).whole = s.whole := by
  unfold State.enterState
  split
  · rfl
  · simp

theorem State.beginStep_state (s : State) (n : Nat) : (s.beginStep n).dev.state = .bringup := State.enterState_state _ _

theorem State.beginStep_step (s : State) (n : Nat) : (s.beginStep n).dev.step = n := State.enterState_step _ _

theorem State.beginStep_whole (s : State) (n : Nat) : (s.beginStep n).whole = s.whole := State.enterState_whole _ _

/-- A store to an area that is not worn out writes the image there and leaves the rest of the flash. -/
theorem State.storeFlash_ok {s : State} {area : Nat} (h : s.nv.journal.worn area = false) (b : Bytes) :
    ∃ t, s.storeFlash area b true = (t, true) ∧ t.whole = s.whole ∧
      t.nv.flash = Tbl.set [] s.nv.flash area (storedArea (Tbl.get [] s.nv.flash area) b) := by
  simp [State.storeFlash, h, State.appendJournal]

theorem State.imageStore_stored {s : State} {o : ImageOp} (b : Bytes) (ha : s.whole.loadedFrom ≠ portBit o.slotB)
    (hw : s.nv.journal.worn (2 + portBit o.slotB) = false) : (s.imageStore o b true).dev.imageResult = 0 ∧
      (s.imageStore o b true).whole = s.whole ∧ (s.imageStore o b true).nv.flash = Tbl.set [] s.nv.flash
        (2 + portBit o.slotB) (storedArea (Tbl.get [] s.nv.flash (2 + portBit o.slotB)) b) := by
  obtain ⟨t, ht, hwhole, hflash⟩ := State.storeFlash_ok hw b
  have hdone : s.imageStore o b true = t.imageDone o.op o.slice none := by simp [State.imageStore, ha, ht]
  rw [hdone]
  exact ⟨rfl, hwhole, hflash⟩

/-! ### The commands -/

section Commands
variable {s : State}

theorem State.imageSuits_apply {i : Nat} (hr : s.ready = true)
    (hst : (s.slice i).state = .off ∨ (s.slice i).state = .drained) : s.imageSuits 1 i = true := by
  simp [State.imageSuits, hr, hst]

theorem State.not_imageSuits_apply {i : Nat}
    (h : s.ready = false ∨ ((s.slice i).state ≠ .off ∧ (s.slice i).state ≠ .drained)) : s.imageSuits 1 i = false := by
  rcases h with hr | ⟨hoff, hdrained⟩
  · simp [State.imageSuits, hr]
  · simp [State.imageSuits, hoff, hdrained]

theorem exec_imageFinish_unread {o : ImageOp} {reply : HostReply} (hi : s.imageRegs = true)
    (ho : s.dev.imageOp = some o) (hf : s.fetchedBytes o reply = none) (ok : Bool) :
    exec (.imageOperationFinish reply ok) s = .next (s.imageFail o.op o.slice { code := irFetch }) := by
  simp [exec, execImageOperationFinish, State.doImageFinish, ho, hi, hf]

theorem exec_imageFinish {o : ImageOp} {reply : HostReply} {b : Bytes} (hi : s.imageRegs = true)
    (ho : s.dev.imageOp = some o) (hf : s.fetchedBytes o reply = some b) (ok : Bool) :
    exec (.imageOperationFinish reply ok) s = .next (s.imageEffect o b ok) := by
  simp [exec, execImageOperationFinish, State.doImageFinish, ho, hi, hf]

/-- A WHOLE image that passes its checks is the running configuration, and bring-up goes on at step 7 (R48). -/
theorem State.imageEffect_load {o : ImageOp} {b : Bytes} (ho : o.op = 2)
    (h : wholeCheck s.nv s.density b (some o.len) = none) (ok : Bool) :
    (s.imageEffect o b ok).whole = wholeOf b 2 ∧ (s.imageEffect o b ok).dev.imageResult = 0 ∧
      (s.imageEffect o b ok).dev.state = .bringup ∧ (s.imageEffect o b ok).dev.step = 7 := by
  rw [State.imageEffect_loads ho h]
  have hloaded : (s.loadImage b 2).whole = wholeOf b 2 := rfl
  exact ⟨(State.beginStep_whole _ 7).trans hloaded, rfl, State.beginStep_state _ 7, State.beginStep_step _ 7⟩

end Commands

/-! ### The statement -/

/-- Settles O42: a write starts an operation or ends it WRONG_STATE; a fetched image fails at its first bad field, or takes
effect. -/
theorem imageOperations : Obligations.ImageOperations := by
  intro s hi
  dsimp only
  refine ⟨fun hb i b port => ?_, fun hb hl => ⟨fun i port hr hst => ?_, fun port hst => ?_, fun b port => ?_⟩,
    fun hb i port hst => ?_, fun hb hst port => ?_, fun o reply ok ho => ⟨fun hf => ?_, fun b hf => ?_⟩⟩
  · have hbusy := State.startImage_busy hi hb
    exact ⟨congrArg _ (hbusy ..), congrArg _ (hbusy ..), congrArg _ (hbusy ..)⟩
  · have h := State.startImage_accepted hi hb (State.imageSuits_apply hr hst) false port
    exact congrArg _ (h.trans (State.imageBegin_apply rfl hl))
  · have h := State.startImage_accepted hi hb (op := 2) (slice := 0) (by simp [State.imageSuits, hst]) false port
    exact congrArg _ (h.trans (State.imageBegin_other (by simp) hl))
  · have h := State.startImage_accepted hi hb (op := 3) (slice := 0) rfl b port
    exact congrArg _ (h.trans (State.imageBegin_other (by simp) hl))
  · exact congrArg _ (State.startImage_unsuited hi hb (State.not_imageSuits_apply hst) false port)
  · exact congrArg _ (State.startImage_unsuited hi hb (by simp [State.imageSuits, hst]) false port)
  · exact ⟨_, exec_imageFinish_unread hi ho hf ok, s.imageFail_effect ..⟩
  · have hgo := exec_imageFinish hi ho hf ok
    refine ⟨fun hop e hc => ?_, fun hop hc => ?_, fun hop e hc => ?_, fun hop hc => ?_, fun hop hc ha => ?_,
      fun hop hc ha hok hw => ?_⟩
    · exact ⟨_, hgo.trans (congrArg _ (State.imageEffect_applyFails hop hc ok)), s.imageFail_effect ..⟩
    · have hset := s.setting_installSlice o.slice b
      simp only [Slice.setting, Prod.mk.injEq] at hset
      obtain ⟨hdefn, hbad, hstate⟩ := hset
      refine ⟨_, hgo.trans (congrArg _ (State.imageEffect_applies hop hc ok)), rfl, rfl, rfl, rfl, ?_⟩
      simp only [State.imageDone_slice]
      exact ⟨hdefn, hbad, hstate, fun k hk => s.installSlice_slice b hk⟩
    · exact ⟨_, hgo.trans (congrArg _ (State.imageEffect_wholeFails hop hc ok)), s.imageFail_effect ..⟩
    · exact ⟨_, hgo, State.imageEffect_load hop hc ok⟩
    · have hst := (State.imageEffect_stores hop hc ok).trans (State.imageStore_active ha ok)
      exact ⟨_, hgo.trans (congrArg _ (hop ▸ hst)), s.imageFail_effect ..⟩
    · subst hok
      obtain ⟨hres, hwhole, hflash⟩ := State.imageStore_stored b ha hw
      rw [← State.imageEffect_stores hop hc true] at hres hwhole hflash
      exact ⟨_, hgo, hres, hwhole, hflash⟩

end Sys2Proof.Machine

/-! ## A tile of integers (O23) -/

namespace Sys2Proof.Machine

/-- The first n groups of 32 of a list are its first 32 × n entries. -/
theorem flatten_range_groups32 {α : Type} (l : List α) (n : Nat) :
    ((List.range n).map fun j => (l.drop (32 * j)).take 32).flatten = l.take (32 * n) := by
  induction n with
  | zero => simp
  | succ n ih => simp [List.range_succ, ih, Nat.mul_succ, List.take_add]

theorem flatten_groups32 {α : Type} (l : List α) : (groups32 l).flatten = l := by
  rw [groups32, flatten_range_groups32]
  exact List.take_of_length_le (by simp only [ceilDiv]; omega)

/-- The sum of the products of pairs of integer elements. -/
def intDot (fa fw : Fmt) (ps : List (Nat × Nat)) : Int := (ps.map fun e => intElem fa e.1 * intElem fw e.2).sum

theorem intDot_append (fa fw : Fmt) (ps qs : List (Nat × Nat)) :
    intDot fa fw (ps ++ qs) = intDot fa fw ps + intDot fa fw qs := by
  simp only [intDot, List.map_append, List.sum_append]

/-- The sum of the groups' sums is the sum over all their pairs. -/
theorem intDot_flatten (fa fw : Fmt) (gs : List (List (Nat × Nat))) :
    intDot fa fw gs.flatten = (gs.map (intDot fa fw)).sum := by
  induction gs with
  | nil => rfl
  | cons g gs ih => rw [List.flatten_cons, intDot_append, ih, List.map_cons, List.sum_cons]

theorem intDot_foldl (fa fw : Fmt) (ps : List (Nat × Nat)) :
    ps.foldl (fun z p => z + intElem fa p.1 * intElem fw p.2) 0 = intDot fa fw ps := by
  rw [intDot, List.sum_eq_foldl, List.foldl_map]

/-- The sum of group j of the pairs. -/
def intGroupDot (fa fw : Fmt) (ps : List (Nat × Nat)) (j : Nat) : Int := intDot fa fw ((ps.drop (32 * j)).take 32)

theorem sum_intGroupDot (fa fw : Fmt) (ps : List (Nat × Nat)) :
    ((List.range (ceilDiv ps.length 32)).map (intGroupDot fa fw ps)).sum = intDot fa fw ps := by
  calc _ = ((groups32 ps).map (intDot fa fw)).sum := by rw [groups32, List.map_map]; rfl
    _ = intDot fa fw ps := by rw [← intDot_flatten, flatten_groups32]

/-- Without block scales a group's sum is that of its products, in whole units (R140, R148). -/
theorem intGroup_unscaled (fa fw : Fmt) (a w : List Nat) (j : Nat) :
    intGroup fa fw { codes := a, scales := [] } { codes := w, scales := [] } j
      = some (intGroupDot fa fw (a.zip w) j * 2 ^ intUnit) := by
  simp [intGroup, OpRow.intExp, intDot_foldl, intGroupDot, List.zip, List.take_zipWith, List.drop_zipWith]

/-- A fold whose every step adds is the sum. -/
theorem foldl_some_add {f : Option Int → Nat → Option Int} {y : Nat → Int} (h : ∀ x j, f (some x) j = some (x + y j))
    (js : List Nat) (x : Int) : js.foldl f (some x) = some (x + (js.map y).sum) := by
  induction js generalizing x with
  | nil => rw [List.foldl_nil, List.map_nil, List.sum_nil, Int.add_zero]
  | cons j js ih => rw [List.foldl_cons, h, ih, List.map_cons, List.sum_cons, Int.add_assoc]

/-- The unit of the accumulator comes out of the sum of the groups. -/
theorem sum_map_mul_unit (y : Nat → Int) (u : Int) (js : List Nat) :
    (js.map fun j => y j * u).sum = (js.map y).sum * u := by
  induction js with
  | nil => rw [List.map_nil, List.map_nil, List.sum_nil, Int.zero_mul]
  | cons j js ih => rw [List.map_cons, List.map_cons, List.sum_cons, List.sum_cons, ih, Int.add_mul]

/-- Settles O23: each group adds its sum to the accumulator, and the groups of a tile partition its pairs, so together they
add the sum of all products. -/
theorem integerTileExact : Obligations.IntegerTileExact := by
  intro a w fa fw acc h
  have hlen : (a.zip w).length = a.length := by simp [h]
  calc _ = some (acc + ((List.range (ceilDiv a.length 32)).map fun j => intGroupDot fa fw (a.zip w) j * 2 ^ intUnit).sum) :=
      foldl_some_add (fun x j => by simp only [intGroup_unscaled]) _ acc
    _ = some (acc + intDot fa fw (a.zip w) * 2 ^ intUnit) := by rw [sum_map_mul_unit, ← hlen, sum_intGroupDot]

end Sys2Proof.Machine

/-! ## Work items and the slab arrays (O22) -/

namespace Sys2Proof.Machine

section Claim
variable {s : State} {id u : Nat}

theorem State.stop_of_doing {op : Nat} (h : s.doing id op = true) : (s.cmd id).stop = none := by
  simp only [State.doing, Bool.and_eq_true, Option.isNone_iff_eq_none] at h
  exact h.2

/-- A free engine of the grant takes the next item that has not started. -/
theorem State.claimItem_takes (hg : ∃ e ∈ (s.cmd id).grant, e.1 = u) (hb : Tbl.find? (s.cmd id).busy u = none)
    (hn : (s.cmd id).next < (s.cmd id).items) : s.claimItem id u = s.updCmd id fun c => { c with
      busy := Tbl.put c.busy u { item := c.next, engine := u }, next := c.next + 1 } := by
  have hg : (s.cmd id).grant.any (fun e => e.1 == u) = true := by simpa using hg
  simp [State.claimItem, hg, hb, hn]

/-- None is taken once all have started. -/
theorem State.claimItem_none_left (hn : (s.cmd id).items ≤ (s.cmd id).next) : s.claimItem id u = s := by
  simp [State.claimItem, Nat.not_lt.mpr hn]

/-- WORK_ITEM_CLAIM in a slab run or a gather. -/
theorem exec_workItemClaim {v : State} (hdo : s.doing id opSlab = true ∨ s.doing id opGather = true)
    (hv : s.begun.claimItem id u = v) (hgo : v.uc.held = false) : exec (.workItemClaim id u) s = .next (s.ended v) := by
  have hdo' : s.begun.doing id opSlab = true ∨ s.begun.doing id opGather = true := hdo
  have hclaim : s.begun.doClaim id u = v := by rw [State.doClaim, if_pos (by simpa using hdo'), hv]
  exact congrArg _ (State.settled_ended hclaim hgo)

end Claim

/-! ### One K tile -/

section Tile
variable {s t : State} {id u : Nat} {it : Item} {ws as : List OpRow} {acc : List Int}

@[simp] theorem Item.tile_pos (it : Item) (fa fw : Fmt) (as ws : List OpRow) : (it.tile fa fw as ws).pos = it.pos := by
  unfold Item.tile
  dsimp only
  split <;> rfl

/-- The item after the K tile whose operands have been read. -/
def Item.accumulate (it : Item) (b : Bytes) (ws as : List OpRow) (acc : List Int) : Item :=
  { ({ it with acc := acc }).tile (fmtOf (slAFmt b)) (fmtOf (slWFmt b)) as ws with pos := it.pos + 1 }

/-- The multiply-accumulates of an item's next K tile. -/
def Item.macs (it : Item) (d b : Bytes) : Nat :=
  (itemSpan d b it.item).2.1 * (itemSpan d b it.item).2.2.2 * min (slTileK b) (slK b - it.pos * slTileK b)

/-- Once its operands are read an array accumulates its tile (R148), and writes the item's rows behind the last one
(R150). -/
theorem State.slabTile_of_reads (h : s.tileReads id u (s.agentOn id (u / 4)) it = (t, some (ws, as, acc))) :
    let c := s.cmd id
    let done := it.accumulate c.block ws as acc
    let macs := it.macs c.desc c.block
    s.slabTile id u it =
      if slKTiles c.block ≤ it.pos + 1 then
        (t.countTile id u done true macs).endItem (s.agentOn id (u / 4)) id u done (itemSpan c.desc c.block it.item).2.1
      else (t.countTile id u done false macs).updCmd id fun c => { c with busy := Tbl.put c.busy u done } := by
  unfold State.slabTile
  simp only [h, Item.tile_pos, decide_eq_true_eq]
  split
  case isTrue hlast => simp only [hlast, decide_true]; rfl
  case isFalse hlast => simp only [hlast, decide_false]; rfl

/-- SLAB_RUN on an array that holds an item, on a bay whose words all check. -/
theorem exec_slabRun {v : State} (hdo : s.doing id opSlab = true) (hit : Tbl.find? (s.cmd id).busy u = some it)
    (hck : (s.bay (u / 4)).errs = []) (hv : (s.begun.slabTile id u it).bayWrite id (u / 4) = v)
    (hgo : v.uc.held = false) : exec (.slabRun id u) s = .next (s.ended v) := by
  refine congrArg _ (State.settled_ended (Eq.trans ?_ hv) hgo)
  have hdo' : s.begun.doing id opSlab = true := hdo
  have hit' : Tbl.find? (s.begun.cmd id).busy u = some it := hit
  have hck' : s.begun.bayCheck id (u / 4) = s.begun := State.bayCheck_clean hck
  simp [State.doSlabRun, State.onBay, hdo', hit', hck', State.stop_of_doing hdo']

end Tile

/-- Settles O22: a claim takes the next item or finds none left; a tile whose operands are read is accumulated, and the
last one ends its item. -/
theorem slabItems : Obligations.SlabItems := by
  intro s id u
  dsimp only
  refine ⟨fun hdo hg hb hn => ?_, fun hdo hn => ?_, fun it t ws as acc hdo hit hck hreads => ⟨fun hmore hgo => ?_,
    fun hlast hgo => ?_⟩⟩
  · exact exec_workItemClaim hdo (State.claimItem_takes (s := s.begun) hg hb hn) rfl
  · exact exec_workItemClaim (v := s.begun) hdo (State.claimItem_none_left (s := s.begun) hn) rfl
  · have htile := (State.slabTile_of_reads (s := s.begun) hreads).trans (if_neg (Nat.not_le.mpr hmore))
    exact exec_slabRun hdo hit hck (congrArg (State.bayWrite · id (u / 4)) htile) hgo
  · have htile := (State.slabTile_of_reads (s := s.begun) hreads).trans (if_pos hlast)
    exact exec_slabRun hdo hit hck (congrArg (State.bayWrite · id (u / 4)) htile) hgo

end Sys2Proof.Machine

/-! ## Bags and selections (O24) -/

namespace Sys2Proof.Machine

/-- The work of a command that has not stopped, on a bay whose words all check (R318). -/
theorem State.onBay_clean {s : State} {id b : Nat} (hck : (s.bay b).errs = []) (hrun : (s.cmd id).stop = none)
    (f : State → State) : s.onBay id b f = (f s).bayWrite id b := by
  simp [State.onBay, State.bayCheck_clean hck, hrun]

/-! ### The steps of a hod engine -/

section Gather
variable {s t : State} {id u : Nat} {it : Item}

/-- GATHER on a bay that holds an item, and whose words all check, is the item's next step. -/
theorem exec_gather (hdo : s.doing id opGather = true) (hit : Tbl.find? (s.cmd id).busy u = some it)
    (hck : (s.bay u).errs = []) (hstep : s.begun.gatherStep id u it = t) (hgo : (t.bayWrite id u).uc.held = false) :
    exec (.gather id u) s = .next (s.ended (t.bayWrite id u)) := by
  have hdo' : s.begun.doing id opGather = true := hdo
  have hit' : Tbl.find? (s.begun.cmd id).busy u = some it := hit
  have hbay := State.onBay_clean (s := s.begun) hck (State.stop_of_doing hdo') fun v => v.gatherStep id u it
  have hrun : s.begun.doGather id u = t.bayWrite id u := by simp [State.doGather, hdo', hit', hbay, hstep]
  exact congrArg _ (State.settled_ended hrun hgo)

theorem State.gatherStep_begins (h : it.phase = 1) :
    s.gatherStep id u it = s.beginBag (s.agentOn id u) u (s.cmd id).block it := if_pos h

theorem State.gatherStep_writes (h : it.phase ≠ 1) (hend : it.bagEnd ≤ it.pos) :
    s.gatherStep id u it = s.writeBag (s.agentOn id u) u (s.cmd id) it :=
  (if_neg h).trans (if_neg (Nat.not_lt.mpr hend))

theorem State.gatherStep_pools (h : it.phase ≠ 1) (hmore : it.pos < it.bagEnd) :
    s.gatherStep id u it = s.poolIndex (s.agentOn id u) u (s.cmd id) it := (if_neg h).trans (if_pos hmore)

end Gather

section PoolIndex
variable {s t : State} {g : Agent} {u : Nat} {c : Cmd} {it : Item} {raw : Bytes}

/-- The index of an item's list position, from the bytes read (R164). -/
def Cmd.indexOf (c : Cmd) (raw : Bytes) : Int := signedOf (8 * gaIndexSize c.block) (leVal raw)

variable (hread : s.agRead g (gaIndex c.block + gaIndexSize c.block * it.pos) (gaIndexSize c.block) = (t, some raw))
include hread

theorem State.poolIndex_pools (hlo : 0 ≤ c.indexOf raw) (hhi : c.indexOf raw < gaRows c.block) :
    s.poolIndex g u c it = t.poolRow g u c it (c.indexOf raw).toNat := by
  simp only [State.poolIndex, hread]
  exact if_pos ⟨hlo, hhi⟩

theorem State.poolIndex_skips (hout : c.indexOf raw < 0 ∨ (gaRows c.block : Int) ≤ c.indexOf raw)
    (hskip : gaSkip c.block = true) : s.poolIndex g u c it = t.updCmd g.cmd fun c => { c with
      skipped := c.skipped + 1, busy := Tbl.put c.busy u { it with pos := it.pos + 1 } } := by
  simp only [State.poolIndex, hread]
  exact (if_neg fun ⟨hlo, hhi⟩ => hout.elim (Int.not_lt.mpr hlo) (Int.not_le.mpr hhi)).trans (if_pos hskip)

theorem State.poolIndex_faults (hout : c.indexOf raw < 0 ∨ (gaRows c.block : Int) ≤ c.indexOf raw)
    (hskip : gaSkip c.block = false) : s.poolIndex g u c it = t.agFault g fcHodIndex
      { unit := g.unit, info0 := it.pos, info1 := unsignedOf 64 (c.indexOf raw) } := by
  simp only [State.poolIndex, hread]
  exact (if_neg fun ⟨hlo, hhi⟩ => hout.elim (Int.not_lt.mpr hlo) (Int.not_le.mpr hhi)).trans (if_neg (by simp [hskip]))

end PoolIndex

/-! ### The steps and claims of a riddle unit -/

section Select
variable {s t : State} {id u : Nat} {it : Item}

/-- SELECT on a bay that holds an item, and whose words all check, is the item's next step. -/
theorem exec_select {f : State → State} (hdo : s.doing id opSelect = true)
    (hit : Tbl.find? (s.cmd id).busy u = some it) (hck : (s.bay u).errs = [])
    (hstep : s.begun.selectStep id u it = f s.begun) (hgo : s.goesThrough fun t => (f t).bayWrite id u) :
    exec (.select id u) s = .next (s.through fun t => (f t).bayWrite id u) := by
  have hdo' : s.begun.doing id opSelect = true := hdo
  have hit' : Tbl.find? (s.begun.cmd id).busy u = some it := hit
  have hbay := State.onBay_clean (s := s.begun) hck (State.stop_of_doing hdo') fun v => v.selectStep id u it
  have hrun : s.begun.doSelect id u = (f s.begun).bayWrite id u := by simp [State.doSelect, hdo', hit', hbay, hstep]
  exact congrArg _ (State.settled_through hrun hgo)

/-- Each phase of an item has its own step (R173). -/
theorem State.selectStep_phase (s : State) (id u : Nat) (it : Item) :
    let c := s.cmd id
    let g := s.agentOn id u
    let all := List.range (seS c.block)
    (it.phase = 1 → s.selectStep id u it = s.pass1Step g u c it) ∧
    (it.phase = 2 → s.selectStep id u it = s.afterLoad g it all fun t => t.mergeStep g u c it) ∧
    (it.phase = 3 → s.selectStep id u it = s.afterLoad g it [0] fun t => t.pass2Step g u c it) ∧
    (it.phase = 4 → s.selectStep id u it = s.afterLoad g it all fun t => t.finishStep g u c it) := by
  refine ⟨fun h => ?_, fun h => ?_, fun h => ?_, fun h => ?_⟩ <;> simp [State.selectStep, h]

/-- What a claim of an item changes of its command: an item of pass 1 is the next one, the first of a row opens the row, and
the unit holds the item (R173). -/
def Cmd.claimed (c : Cmd) (u : Nat) (it : Item) : Cmd :=
  { c with
    next := c.next + (if it.phase = 1 then 1 else 0)
    rows := if (Tbl.find? c.rows it.row).isSome then c.rows
      else Tbl.put c.rows it.row { Tbl.get {} c.rows it.row with
        pass1Left := seS c.block, pass2Left := if seExp c.block then seS c.block else 0 }
    busy := Tbl.put c.busy u { it with engine := u } }

/-- A free unit of the grant takes the ready item. -/
theorem State.claimSelect_takes (hg : ∃ e ∈ (s.cmd id).grant, e.1 = u) (hb : Tbl.find? (s.cmd id).busy u = none)
    (hit : (s.cmd id).readyItem = some it) : (s.claimSelect id u).cmd id = (s.cmd id).claimed u it := by
  have hg : (s.cmd id).grant.any (fun e => e.1 == u) = true := by simpa using hg
  simp only [State.claimSelect, hg, hb, hit, Option.isNone_none, Bool.and_self, if_true, Cmd.claimed]
  by_cases hpass1 : it.phase = 1 <;> by_cases hopen : (Tbl.find? (s.cmd id).rows it.row).isSome = true <;>
    simp [hpass1, hopen, State.setBusy, State.updRow]

theorem State.claimSelect_sameBut (s : State) (id u : Nat) : s.sameBut (s.claimSelect id u) [.cmds] := by
  unfold State.claimSelect
  extract_lets c n
  split
  · split
    · exact s.sameBut_refl _
    · next it _ =>
      extract_lets s1 s2
      have h1 : s.sameBut s1 [.cmds] := by
        unfold s1
        split
        · exact s.updCmd_sameBut id _
        · exact s.sameBut_refl _
      have h2 : s1.sameBut s2 [.cmds] := by
        unfold s2
        split
        · exact s1.sameBut_refl _
        · exact s1.updCmd_sameBut id _
      exact (h1.trans h2).trans (s2.updCmd_sameBut id _)
  · exact s.sameBut_refl _

theorem State.opcode_of_doing {op : Nat} (h : s.doing id op = true) : dOpcode (s.cmd id).desc = op := by
  simp only [State.doing, Bool.and_eq_true, decide_eq_true_eq] at h
  obtain ⟨⟨⟨_, hop⟩, _⟩, _⟩ := h
  exact hop

/-- A command does the work of one opcode alone. -/
theorem State.not_doing_of_ne {op op' : Nat} (h : s.doing id op = true) (hne : op ≠ op') : s.doing id op' = false :=
  Bool.eq_false_iff.mpr fun h' => hne ((State.opcode_of_doing h).symm.trans (State.opcode_of_doing h'))

/-- WORK_ITEM_CLAIM in a selection, which reads no memory and so never waits. -/
theorem exec_workItemClaim_select (hdo : s.doing id opSelect = true) :
    exec (.workItemClaim id u) s = .next (s.ended (s.begun.claimSelect id u)) := by
  have hsel : s.begun.doing id opSelect = true := hdo
  have hslab := State.not_doing_of_ne hsel (op' := opSlab) (by decide)
  have hgather := State.not_doing_of_ne hsel (op' := opGather) (by decide)
  have hclaim : s.begun.doClaim id u = s.begun.claimSelect id u := by simp [State.doClaim, hslab, hgather, hsel]
  have huc : (s.begun.claimSelect id u).uc = s.begun.uc := s.begun.claimSelect_sameBut id u .uc (by decide)
  exact congrArg _ (State.settled_ended hclaim (congrArg Uc.held huc))

/-- Ending a step restores the waiting it began with, and so changes no part that the step has kept. -/
theorem State.ended_sameBut {ps : List Part} (hsame : s.begun.sameBut t ps) : s.sameBut (s.ended t) ps := by
  intro p hp
  cases p with
  | uc => exact congrArg (·.waitAs s.uc) (hsame .uc hp)
  | _ => exact hsame _ hp

end Select

/-! ### The statement -/

/-- Settles O24: what a step of a gather or a selection does follows its item's phase, and in a gather the index read; a
claim takes the ready item. -/
theorem gatherAndSelect : Obligations.GatherAndSelect := by
  refine ⟨fun s id u it hdo hit hck => ⟨fun hp hgo => ?_, fun hp hend hgo => ?_, fun t raw hp hmore hread => ?_⟩,
    fun s id u => ⟨fun it hdo hit hck => ?_, fun it hdo hg hb hready => ?_⟩⟩
  · exact exec_gather hdo hit hck (State.gatherStep_begins hp) hgo
  · exact exec_gather hdo hit hck (State.gatherStep_writes hp hend) hgo
  · have hstep := State.gatherStep_pools (s := s.begun) (id := id) (u := u) hp hmore
    refine ⟨fun hlo hhi hgo => ?_, fun hout hskip hgo => ?_, fun hout hskip hgo => ?_⟩
    · exact exec_gather hdo hit hck (hstep.trans (State.poolIndex_pools hread hlo hhi)) hgo
    · exact exec_gather hdo hit hck (hstep.trans (State.poolIndex_skips hread hout hskip)) hgo
    · exact exec_gather hdo hit hck (hstep.trans (State.poolIndex_faults hread hout hskip)) hgo
  · obtain ⟨h1, h2, h3, h4⟩ := s.begun.selectStep_phase id u it
    exact ⟨fun hp => exec_select hdo hit hck (h1 hp), fun hp => exec_select hdo hit hck (h2 hp),
      fun hp => exec_select hdo hit hck (h3 hp), fun hp => exec_select hdo hit hck (h4 hp)⟩
  · have hcmd := State.claimSelect_takes (s := s.begun) hg hb hready
    refine ⟨_, exec_workItemClaim_select hdo, State.ended_sameBut (s.begun.claimSelect_sameBut id u), ?_, ?_⟩
    · exact (congrArg (fun c : Cmd => Tbl.find? c.busy u) hcmd).trans (by simp [Cmd.claimed, Tbl.find?_put])
    · exact congrArg Cmd.next hcmd

end Sys2Proof.Machine

/-! ## The slice hash (O32) -/

namespace Sys2Proof.Machine

theorem foldFuel_lt (w fuel v : Nat) : foldFuel w fuel v < 2 ^ w := by
  induction fuel generalizing v with
  | zero => exact Nat.two_pow_pos w
  | succ fuel ih => exact Nat.xor_lt_two_pow (Nat.mod_lt v (Nat.two_pow_pos w)) (ih _)

theorem foldXor_lt (w v : Nat) : foldXor w v < 2 ^ w := foldFuel_lt w 8 v

/-- A mask applied twice is gone. -/
theorem xor_mask_twice (a mask : Nat) : a ^^^ mask ^^^ mask = a := by
  rw [Nat.xor_assoc, Nat.xor_self, Nat.xor_zero]

/-- The spread window and the local windows share a channel's blocks (Table 8.2). -/
theorem spreadBlocks_add_localBlocks (density : Nat) :
    spreadBlocks density + localBlocks density = blocksPerChan density := by
  have hle : localBlocks density ≤ blocksPerChan density := Nat.div_le_self _ _
  exact Nat.sub_add_cancel hle

/-! ### Places in a channel (R244) -/

theorem lineOfChan_chanLine (x n : Nat) : lineOfChan (chanOfUcSlice x) (chanLine x n) = (x, n) := by
  simp only [lineOfChan, chanOfUcSlice, chanLine, Prod.mk.injEq]
  omega

/-- Each usable block of a channel holds 4,096 line numbers of each of its four slices. -/
theorem chanLine_lt_chanLines {density n : Nat} (x : Nat) (hn : n / 4096 < blocksPerChan density) :
    chanLine x n < chanLines density := by
  simp only [chanLine, chanLines]
  omega

/-! ### The two windows (R190) -/

theorem dpaOf_spread {density g mid : Nat} (x : Nat) (hg : g < spreadBlocks density) (hmid : mid < 4096) :
    dpaOf density x (g * 4096 + mid) = (g * 2 ^ 21 + mid * 512 + (x ^^^ foldXor 9 mid ^^^ foldXor 9 g)) * 128 := by
  have hn : g * 4096 + mid < spreadBlocks density * 4096 := by omega
  have hdiv : (g * 4096 + mid) / 4096 = g := by omega
  have hmod : (g * 4096 + mid) % 4096 = mid := by omega
  simp only [dpaOf, if_pos hn, hdiv, hmod]

theorem dpaOf_local (density x q : Nat) :
    dpaOf density x (spreadBlocks density * 4096 + q) =
      (spreadTop density / 128 + x / 64 * (262144 * localBlocks density) + q * 64 + ((x % 64) ^^^ foldXor 6 q)) * 128 := by
  simp only [dpaOf, if_neg (Nat.not_lt.mpr (Nat.le_add_right _ _)), Nat.add_sub_cancel_left]

/-- A line's home slice and line number lie in the device, and the line's address follows from them. -/
def InvertibleHome (density dpa : Nat) (h : Nat × Nat) : Prop :=
  h.1 < 512 ∧ h.2 / 4096 < blocksPerChan density ∧ dpaOf density h.1 h.2 = dpa

/-- In the spread window the masks that the hash folds out of a line's address fold back to its low bits. -/
theorem homeOf_invertible_of_spread {density dpa : Nat} (hwin : dpa < spreadTop density) (hline : dpa % 128 = 0) :
    InvertibleHome density dpa (homeOf density dpa) := by
  have hsplit := spreadBlocks_add_localBlocks density
  simp only [InvertibleHome, homeOf, if_pos hwin]
  have hg : dpa / 128 / 2 ^ 21 < spreadBlocks density := by
    simp only [spreadTop] at hwin
    omega
  have hmid : dpa / 128 / 512 % 4096 < 4096 := Nat.mod_lt _ (by decide)
  rw [dpaOf_spread _ hg hmid]
  generalize hmid_eq : dpa / 128 / 512 % 4096 = mid at hmid ⊢
  generalize hg_eq : dpa / 128 / 2 ^ 21 = g at hg ⊢
  have hback : dpa / 128 % 512 ^^^ foldXor 9 mid ^^^ foldXor 9 g ^^^ foldXor 9 mid ^^^ foldXor 9 g = dpa / 128 % 512 := by
    rw [Nat.xor_assoc _ (foldXor 9 g), Nat.xor_comm (foldXor 9 g), ← Nat.xor_assoc, xor_mask_twice, xor_mask_twice]
  rw [hback]
  have hlow : dpa / 128 % 512 < 2 ^ 9 := Nat.mod_lt _ (by decide)
  exact ⟨Nat.xor_lt_two_pow (Nat.xor_lt_two_pow hlow (foldXor_lt 9 mid)) (foldXor_lt 9 g), by omega, by omega⟩

/-- In a die's local window the slice within the die is hashed alone, and each die keeps its own lines. -/
theorem homeOf_invertible_of_local {density dpa : Nat} (hwin : spreadTop density ≤ dpa) (htop : dpa < usable density)
    (hline : dpa % 128 = 0) : InvertibleHome density dpa (homeOf density dpa) := by
  have hsplit := spreadBlocks_add_localBlocks density
  simp only [InvertibleHome, homeOf, if_neg (Nat.not_lt.mpr hwin), dpaOf_local]
  simp only [usable, localLen, spreadTop] at hwin htop ⊢
  generalize spreadBlocks density = sb at hwin htop hsplit ⊢
  generalize localBlocks density = lb at htop hsplit ⊢
  generalize hl : dpa / 128 - sb * 0x10000000 / 128 = l
  generalize hlen : 262144 * lb = len
  have hdie : l / len < 8 := Nat.div_lt_of_lt_mul (by omega)
  have hin : l % len < len := Nat.mod_lt l (by omega)
  have hjoin : l / len * len + l % len = l := Nat.div_add_mod' l len
  generalize l / len = die at hdie hjoin ⊢
  generalize l % len = r at hin hjoin ⊢
  have hhash : r % 64 ^^^ foldXor 6 (r / 64) < 2 ^ 6 := Nat.xor_lt_two_pow (Nat.mod_lt _ (by decide)) (foldXor_lt 6 _)
  have hback : r % 64 ^^^ foldXor 6 (r / 64) ^^^ foldXor 6 (r / 64) = r % 64 := xor_mask_twice _ _
  generalize r % 64 ^^^ foldXor 6 (r / 64) = hash at hhash hback ⊢
  have hslice : (64 * die + hash) / 64 = die := by omega
  have hcol : (64 * die + hash) % 64 = hash := by omega
  rw [hslice, hcol, hback]
  exact ⟨by omega, by omega, by omega⟩

/-- A home line is its channel's line 4 n + x mod 4, and found again there. -/
theorem InvertibleHome.place {density dpa : Nat} {h : Nat × Nat} (hhome : InvertibleHome density dpa h) :
    h.1 < 512 ∧ dpaOf density h.1 h.2 = dpa ∧ chanOfUcSlice h.1 < 128 ∧ chanLine h.1 h.2 < chanLines density ∧
      lineOfChan (chanOfUcSlice h.1) (chanLine h.1 h.2) = h := by
  obtain ⟨hslice, hn, hinv⟩ := hhome
  exact ⟨hslice, hinv, Nat.div_lt_of_lt_mul hslice, chanLine_lt_chanLines h.1 hn, lineOfChan_chanLine h.1 h.2⟩

/-- Settles O32: the hash has an inverse in each of the two windows. -/
theorem sliceHashOneToOne : Obligations.SliceHashOneToOne := by
  intro density dpa _ htop hline
  rcases Nat.lt_or_ge dpa (spreadTop density) with hwin | hwin
  · exact (homeOf_invertible_of_spread hwin hline).place
  · exact (homeOf_invertible_of_local hwin htop hline).place

end Sys2Proof.Machine

/-! ## The home slice (O33) -/

namespace Sys2Proof.Machine

/-! ### What frames say of a fold -/

theorem foldl_sameBut {α : Type} {f : State → α → State} {ps : List Part} (hf : ∀ (s : State) a, s.sameBut (f s a) ps)
    (l : List α) (s : State) : s.sameBut (l.foldl f s) ps := by
  induction l generalizing s with
  | nil => exact s.sameBut_refl ps
  | cons a l ih => exact (hf s a).trans (ih (f s a))

/-- A fold each of whose steps leaves the state alone. -/
theorem foldl_eq_self {α : Type} {f : State → α → State} {l : List α} {s : State} (hf : ∀ a ∈ l, f s a = s) :
    l.foldl f s = s := by
  induction l with
  | nil => rfl
  | cons a l ih =>
    rw [List.foldl_cons, hf a List.mem_cons_self]
    exact ih fun b hb => hf b (List.mem_cons_of_mem a hb)

/-! ### Traffic and counters -/

theorem State.event_sameBut (s : State) (e u : Nat) (x : Option Nat) (n : Nat) : s.sameBut (s.event e u x n) [.tel] := by
  intro p hp
  cases p with
  | tel => exact absurd List.mem_cons_self hp
  | _ => rfl

theorem State.updBridge_sameBut (s : State) (b : Nat) (f : Bridge → Bridge) : s.sameBut (s.updBridge b f) [.fab] := by
  intro p hp
  cases p with
  | fab => exact absurd List.mem_cons_self hp
  | _ => rfl

theorem State.withFab_sameBut (s : State) (v : Fab) : s.sameBut { s with fab := v } [.fab] := by
  intro p hp
  cases p with
  | fab => exact absurd List.mem_cons_self hp
  | _ => rfl

theorem State.carry_sameBut (s : State) (path : List (Nat × Nat)) (n : Nat) (response : Bool) :
    s.sameBut (s.carry path n response) [.fab, .tel] := by
  unfold State.carry
  extract_lets t
  have hcount : s.sameBut t [.fab, .tel] := foldl_sameBut (fun s e =>
    ((s.updBridge_sameBut _ _).mono (by decide)).trans ((State.event_sameBut _ _ _ _ _).mono (by decide))) path s
  split
  · exact hcount
  · exact hcount.trans ((t.withFab_sameBut _).mono (by decide))

theorem State.drawChoice_sameBut (s : State) (n : Nat) : s.sameBut (s.drawChoice n).2 [.free] := by
  intro p hp
  cases p with
  | free => exact absurd List.mem_cons_self hp
  | _ => rfl

theorem State.bulk_sameBut (s : State) (src dst n : Nat) (response : Bool) :
    s.sameBut (s.bulk src dst n response) [.free, .fab, .tel] := by
  have hcarry : ∀ (t : State) path, t.sameBut (t.carry path n response) [.free, .fab, .tel] := fun t path =>
    (t.carry_sameBut path n response).mono (by decide)
  unfold State.bulk
  split
  · exact s.sameBut_refl _
  · split
    · exact hcarry s _
    · split
      · exact hcarry s _
      · split
        · exact hcarry s _
        · exact ((s.drawChoice_sameBut 2).mono (by decide)).trans (hcarry _ _)

theorem State.countSectors_sameBut (s : State) (x owner hits misses : Nat) :
    s.sameBut (s.countSectors x owner hits misses) [.slices, .tel] := by
  have hcount : ∀ (t : State) i n, t.sameBut (t.count owner i n) [.slices, .tel] := fun t i n =>
    (t.updSlice_sameBut owner _).mono (by decide)
  have hevent : ∀ (t : State) e n, t.sameBut (t.event e (unitUcSlice x) (some owner) n) [.slices, .tel] := fun t e n =>
    (t.event_sameBut _ _ _ _).mono (by decide)
  exact ((hcount _ 9 _).trans (hcount _ 10 _)).trans (((hevent _ _ _).trans (hevent _ _ _)).trans (hevent _ _ _))

/-! ### The waiting of a step -/

/-- Two states wait alike. -/
def State.sameWait (s t : State) : Prop := t.uc.waitAs s.uc = t.uc

theorem State.sameWait_of_uc {s t : State} (h : t.uc = s.uc) : s.sameWait t := by
  unfold State.sameWait
  rw [h]
  rfl

theorem State.sameWait.trans {s t u : State} (hst : s.sameWait t) (htu : t.sameWait u) : s.sameWait u := by
  unfold State.sameWait at *
  calc u.uc.waitAs s.uc = u.uc.waitAs (t.uc.waitAs s.uc) := rfl
    _ = u.uc := by rw [hst, htu]

theorem State.sameWait.held {s t : State} (h : s.sameWait t) : t.uc.held = s.uc.held := (congrArg Uc.held h).symm

/-- A step that would run alike outside the waiting ends as it would there. -/
theorem State.ended_begun_of_sameWait {s t : State} (h : s.sameWait t) : s.ended t.begun = t :=
  congrArg (fun v => { t with uc := v }) h

/-! ### The arrays of a cache slice -/

theorem State.way_updWay (s : State) (x set w j : Nat) (f : Way → Way) :
    (s.updWay x set w f).way j = if j = wayKey x set w then f (s.way (wayKey x set w)) else s.way j :=
  State.way_setWay s (wayKey x set w) j _

/-- A write to a cache slice's arrays that changes no DIRTY bit: it may spend an injection, and nothing comes to wait. -/
structure State.ArrayWrite (s t : State) : Prop where
  frame : s.sameBut t [.uc, .flt]
  wait : s.sameWait t
  dirty : ∀ j, (t.way j).dirty = (s.way j).dirty

theorem State.arrayWrite_refl (s : State) : s.ArrayWrite s := ⟨s.sameBut_refl _, rfl, fun _ => rfl⟩

theorem State.ArrayWrite.trans {s t u : State} (hst : s.ArrayWrite t) (htu : t.ArrayWrite u) : s.ArrayWrite u :=
  ⟨hst.frame.trans htu.frame, hst.wait.trans htu.wait, fun j => (htu.dirty j).trans (hst.dirty j)⟩

theorem foldl_arrayWrite {α : Type} {f : State → α → State} (hf : ∀ (s : State) a, s.ArrayWrite (f s a)) (l : List α)
    (s : State) : s.ArrayWrite (l.foldl f s) := by
  induction l generalizing s with
  | nil => exact s.arrayWrite_refl
  | cons a l ih => exact (hf s a).trans (ih (f s a))

theorem State.updWay_sameBut (s : State) (x set w : Nat) (f : Way → Way) : s.sameBut (s.updWay x set w f) [.uc] := by
  intro p hp
  cases p with
  | uc => exact absurd List.mem_cons_self hp
  | _ => rfl

theorem State.updWay_arrayWrite (s : State) (x set w : Nat) {f : Way → Way}
    (hf : ∀ y, (f y).dirty = y.dirty := by intro y; rfl) :
    s.ArrayWrite (s.updWay x set w f) := by
  refine ⟨(s.updWay_sameBut x set w f).mono (by decide), rfl, fun j => ?_⟩
  rw [State.way_updWay]
  split
  case isTrue hj => rw [hf, hj]
  case isFalse => rfl

theorem State.injected_arrayWrite (s : State) (checker unit : Nat) : s.ArrayWrite (s.injected checker unit).2 := by
  unfold State.injected
  dsimp only
  split
  · refine ⟨fun p hp => ?_, rfl, fun _ => rfl⟩
    cases p with
    | flt => exact absurd (by decide) hp
    | _ => rfl
  · exact s.arrayWrite_refl

theorem State.mapAges_arrayWrite (s : State) (x set : Nat) (f : Nat → Nat) : s.ArrayWrite (s.mapAges x set f) := by
  refine foldl_arrayWrite (fun t w => ?_) _ s
  split
  · exact t.updWay_arrayWrite x set w
  · exact t.arrayWrite_refl

theorem State.touchWay_arrayWrite (s : State) (x set w : Nat) : s.ArrayWrite (s.touchWay x set w) := by
  unfold State.touchWay
  exact (s.mapAges_arrayWrite x set _).trans (State.updWay_arrayWrite _ x set w)

theorem State.tagWrite_arrayWrite (s : State) (x set w : Nat) : s.ArrayWrite (s.tagWrite x set w) := by
  unfold State.tagWrite
  exact (s.injected_arrayWrite 2 (unitUcSlice x)).trans (State.updWay_arrayWrite _ x set w)

theorem State.putSectors_arrayWrite (s : State) (x set w : Nat) (secs : BitVec 4) (data : Bytes) :
    s.ArrayWrite (s.putSectors x set w secs data) :=
  (s.updWay_arrayWrite x set w).trans (foldl_arrayWrite (fun t _ =>
    (t.injected_arrayWrite 1 (unitUcSlice x)).trans (State.updWay_arrayWrite _ x set w)) _ _)

theorem State.setDir_arrayWrite (s : State) (x n : Nat) (d : Dir) : s.ArrayWrite (s.setDir x n d) := by
  unfold State.setDir
  split
  · exact (s.updWay_arrayWrite _ _ _).trans (State.tagWrite_arrayWrite _ _ _ _)
  · exact s.arrayWrite_refl

/-! ### A line found intact in a way -/

/-- Way w of the slice holds line n, the slice serves, and the tags of the set and the line's sectors check (R202). -/
structure State.Intact (s : State) (x n w : Nat) : Prop where
  serves : s.homeShield x = none
  found : s.findWay x n false = some w
  tags : ∀ v, v < 16 → (s.way (wayKey x (setOf n) v)).tagErr = 0
  sectors : (s.way (wayKey x (setOf n) w)).dataErr = 0

section Intact
variable {s : State} {x n w : Nat}

theorem State.checkTags_clean {set : Nat} (htags : ∀ v, v < 16 → (s.way (wayKey x set v)).tagErr = 0) :
    s.checkTags x set = s :=
  foldl_eq_self fun v hv => if_pos (htags v (List.mem_range.mp hv))

theorem State.checkSectors_clean {set : Nat} (hdata : (s.way (wayKey x set w)).dataErr = 0) (secs : BitVec 4) :
    s.checkSectors x set w secs = s :=
  foldl_eq_self fun j _ => if_pos (by simp [hdata, bitsOf])

theorem State.foundWay_of_findWay (h : s.findWay x n false = some w) : s.foundWay x n = s.way (wayKey x (setOf n) w) := by
  simp only [State.foundWay, h]

theorem State.dirOf_of_findWay (h : s.findWay x n false = some w) : s.dirOf x n = (s.way (wayKey x (setOf n) w)).dir := by
  simp only [State.dirOf, h]

theorem State.checkFound_clean (h : s.Intact x n w) (secs : BitVec 4) : s.checkFound x n secs = s := by
  simp only [State.checkFound, h.found, State.checkSectors_clean h.sectors]

/-- A read of sectors that an intact line holds is a hit. -/
theorem State.ucRead_hit (h : s.Intact x n w) {secs : BitVec 4}
    (hheld : secs &&& ~~~(s.way (wayKey x (setOf n) w)).valid = 0) : s.ucRead x n secs = s.readHit x n secs := by
  simp only [State.ucRead, h.serves, State.checkTags_clean h.tags, State.checkFound_clean h,
    State.foundWay_of_findWay h.found, hheld, if_true]

theorem State.readHit_unreleased (hfound : s.findWay x n false = some w)
    (hrel : (s.way (wayKey x (setOf n) w)).released = false) (secs : BitVec 4) :
    s.readHit x n secs =
      ((s.touchWay x (setOf n) w).countSectors x ((s.ownerOf (dpaOf s.density x n)).getD 0) (popCount 4 secs.toNat) 0,
        .data (bytesAt (s.way (wayKey x (setOf n) w)).data 0 128) false) := by
  simp [State.readHit, hfound, State.foundWay_of_findWay hfound, hrel]

/-- The masked bytes of a write go to a way: its arrays are written, and the touched sectors are dirty. -/
theorem State.writeInto_way (s : State) (x n w : Nat) (had valid touched : BitVec 4) (new data : Bytes) (mask : BitVec 128) :
    ∃ t, s.writeInto x n (some w) had valid touched new data mask = (t, .ok) ∧ s.sameBut t [.uc, .flt] ∧ s.sameWait t ∧
      (t.way (wayKey x (setOf n) w)).dirty = (s.way (wayKey x (setOf n) w)).dirty ||| touched := by
  have hput := s.putSectors_arrayWrite x (setOf n) w ((valid &&& ~~~had) ||| touched) new
  generalize hu : s.putSectors x (setOf n) w ((valid &&& ~~~had) ||| touched) new = u at hput
  generalize hv : u.updWay x (setOf n) w (fun y => { y with dirty := y.dirty ||| touched, released := false }) = v
  have hdirty : (v.way (wayKey x (setOf n) w)).dirty = (u.way (wayKey x (setOf n) w)).dirty ||| touched := by
    rw [← hv, State.way_updWay, if_pos rfl]
  have hframe : u.sameBut v [.uc, .flt] := hv ▸ (u.updWay_sameBut _ _ _ _).mono (by decide)
  have hwait : u.sameWait v := hv ▸ rfl
  have hrest := (v.tagWrite_arrayWrite x (setOf n) w).trans (State.touchWay_arrayWrite _ x (setOf n) w)
  refine ⟨(v.tagWrite x (setOf n) w).touchWay x (setOf n) w, ?_, (hput.frame.trans hframe).trans hrest.frame,
    (hput.wait.trans hwait).trans hrest.wait, ?_⟩
  · simp only [State.writeInto, hu, hv]
  · rw [hrest.dirty, hdirty, hput.dirty]

/-- A dirty-course log takes no entry for a slice that is not logged (R362). -/
theorem State.logDevice_off {owner : Nat} (h : (s.slice owner).logging = false) (y dpa : Nat) :
    s.logDevice owner y dpa = s :=
  if_neg (by simp [h])

theorem State.sameBut.slice_eq {t : State} {ps : List Part} (h : s.sameBut t ps) (hps : Part.slices ∉ ps) (i : Nat) :
    t.slice i = s.slice i :=
  congrArg (fun l => Tbl.get ({} : Slice) l i) (h .slices hps)

/-- A write to an intact line that is held whole goes to its way. -/
theorem State.ucWrite_hit (h : s.Intact x n w) (hwhole : (s.way (wayKey x (setOf n) w)).valid = 15) (data : Bytes)
    {mask : BitVec 128} (hmask : mask ≠ 0) {log : Bool}
    (hlog : (s.slice ((s.ownerOf (dpaOf s.density x n)).getD 0)).logging = false) :
    ∃ t, s.ucWrite x n data mask log = (t, .ok) ∧ s.sameBut t [.uc, .flt] ∧ s.sameWait t ∧
      (t.way (wayKey x (setOf n) w)).dirty = (s.way (wayKey x (setOf n) w)).dirty ||| touchedSectors mask := by
  obtain ⟨t, hwrite, hframe, hwait, hdirty⟩ := s.writeInto_way x n w 15 15 (touchedSectors mask)
    (mergeBytes (bytesAt (s.way (wayKey x (setOf n) w)).data 0 128) data mask) data mask
  have hnolog : (t.slice ((s.ownerOf (dpaOf s.density x n)).getD 0)).logging = false := by
    rw [hframe.slice_eq (by decide), hlog]
  have hsectors : ∀ part, s.writeSectors x n data mask part log = (t, .ok) := fun part => by
    simp only [State.writeSectors, h.found, State.foundWay_of_findWay h.found, State.writeBase, hwhole, true_or, if_true,
      State.writePlace, Option.isSome_some, hwrite, State.logDevice_off hnolog, ite_self]
  refine ⟨t, ?_, hframe, hwait, hdirty⟩
  simp only [State.ucWrite, h.serves, State.checkTags_clean h.tags, if_neg hmask, State.checkFound_clean h, hsectors]

end Intact

/-! ### A request that an intact line serves -/

theorem State.sameBut.way_eq {s t : State} {ps : List Part} (h : s.sameBut t ps) (hps : Part.uc ∉ ps) (j : Nat) :
    t.way j = s.way j :=
  congrArg (fun u : Uc => Tbl.get ({} : Way) u.ways j) (h .uc hps)

theorem State.sameBut.sameWait {s t : State} {ps : List Part} (h : s.sameBut t ps) (hps : Part.uc ∉ ps) : s.sameWait t :=
  State.sameWait_of_uc (h .uc hps)

theorem State.answerReq_sameBut (s : State) (rid : Nat) (a : Answer) : s.sameBut (s.answerReq rid a) [.reqs] := by
  unfold State.answerReq
  split
  · intro p hp
    cases p with
    | reqs => exact absurd List.mem_cons_self hp
    | _ => rfl
  · exact s.sameBut_refl _

theorem State.answerReq_answer {s : State} {rid : Nat} {r : Req} (hreq : Tbl.find? s.reqs rid = some r) (a : Answer) :
    (Tbl.find? (s.answerReq rid a).reqs rid).map (·.answer) = some (some a) := by
  simp [State.answerReq, hreq, State.setReq, Tbl.find?_put]

/-- A request has its answer, and the step has touched neither DRAM nor the host's memory and has met no wait. -/
structure State.Answered (s t : State) (rid : Nat) (a : Answer) : Prop where
  mem : t.mem = s.mem
  host : t.host = s.host
  wait : s.sameWait t
  answer : (Tbl.find? t.reqs rid).map (·.answer) = some (some a)

theorem State.answered_of_frame {s t : State} {rid : Nat} {r : Req}
    (hframe : s.sameBut t [.uc, .flt, .slices, .tel, .free, .fab]) (hwait : s.sameWait t)
    (hreq : Tbl.find? s.reqs rid = some r) (a : Answer) : s.Answered (t.answerReq rid a) rid a := by
  have hreqs : t.reqs = s.reqs := hframe .reqs (by decide)
  have hans := t.answerReq_sameBut rid a
  exact ⟨(hans .mem (by decide)).trans (hframe .mem (by decide)), (hans .host (by decide)).trans (hframe .host (by decide)),
    hwait.trans (hans.sameWait (by decide)), State.answerReq_answer (hreqs ▸ hreq) a⟩

section Hit
variable {s : State} {x n w rid : Nat} {r : Req}

theorem State.Intact.congr {t : State} (h : s.Intact x n w) (huc : t.uc = s.uc) (hdev : t.dev = s.dev)
    (hmem : t.mem = s.mem) : t.Intact x n w := by
  have hway : ∀ j, t.way j = s.way j := fun j => by simp only [State.way, huc]
  have hshield : t.homeShield x = s.homeShield x := by
    unfold State.homeShield State.dieState State.chan
    rw [hdev, hmem]
  have hfind : t.findWay x n false = s.findWay x n false := by simp only [State.findWay, State.setWays, hway]
  exact ⟨hshield.trans h.serves, hfind.trans h.found, fun v hv => by rw [hway, h.tags v hv], by rw [hway, h.sectors]⟩

/-- R194: a read of sectors that the line's way holds is answered with the line's bytes. -/
theorem State.applyRead_hit (h : s.Intact x n w) (hreq : Tbl.find? s.reqs rid = some r) (hfirst : r.missed = false)
    (hrel : (s.way (wayKey x (setOf n) w)).released = false)
    (hheld : touchedSectors (reqMask r.tva r.accs) &&& ~~~(s.way (wayKey x (setOf n) w)).valid = 0) :
    s.Answered (s.applyRead rid r x n) rid (.data (bytesAt (s.way (wayKey x (setOf n) w)).data 0 128)) := by
  generalize hsecs : touchedSectors (reqMask r.tva r.accs) = secs at hheld
  have htouch := s.touchWay_arrayWrite x (setOf n) w
  generalize ht : s.touchWay x (setOf n) w = t at htouch
  have hcount := t.countSectors_sameBut x ((s.ownerOf (dpaOf s.density x n)).getD 0) (popCount 4 secs.toNat) 0
  generalize hu : t.countSectors x ((s.ownerOf (dpaOf s.density x n)).getD 0) (popCount 4 secs.toNat) 0 = u at hcount
  have hsend := u.bulk_sameBut (dieOfUcSlice x) (placeOf r.unit) (32 * popCount 4 secs.toNat) true
  have hrun : s.applyRead rid r x n = (u.sendData x (placeOf r.unit) secs).answerReq rid
      (.data (bytesAt (s.way (wayKey x (setOf n) w)).data 0 128)) := by
    simp [State.applyRead, hsecs, State.ucRead_hit h hheld, State.readHit_unreleased h.found hrel, hfirst,
      State.answerRead, ht, hu]
  rw [hrun]
  refine State.answered_of_frame ((htouch.frame.mono ?_).trans ((hcount.mono ?_).trans (hsend.mono ?_)))
    (htouch.wait.trans ((hcount.sameWait ?_).trans (hsend.sameWait ?_))) hreq _ <;> decide

/-- R195: a write to a line held whole is acknowledged, and the sectors it touches are dirty. -/
theorem State.applyWrite_hit (h : s.Intact x n w) (hreq : Tbl.find? s.reqs rid = some r)
    (hwhole : (s.way (wayKey x (setOf n) w)).valid = 15) (hmask : reqMask r.tva r.accs ≠ 0)
    (hlog : (s.slice ((s.ownerOf (dpaOf s.density x n)).getD 0)).logging = false) :
    s.Answered (s.applyWrite rid r x n) rid .ack ∧
      ((s.applyWrite rid r x n).way (wayKey x (setOf n) w)).dirty =
        (s.way (wayKey x (setOf n) w)).dirty ||| touchedSectors (reqMask r.tva r.accs) := by
  have hbulk := s.bulk_sameBut (placeOf r.unit) (dieOfUcSlice x) (popCount 128 (reqMask r.tva r.accs).toNat) false
  generalize ht : s.bulk (placeOf r.unit) (dieOfUcSlice x) (popCount 128 (reqMask r.tva r.accs).toNat) = t at hbulk
  have hway := hbulk.way_eq (by decide) (wayKey x (setOf n) w)
  have hint : t.Intact x n w := h.congr (hbulk .uc (by decide)) (hbulk .dev (by decide)) (hbulk .mem (by decide))
  have hslices : t.slices = s.slices := hbulk .slices (by decide)
  have hdev : t.dev = s.dev := hbulk .dev (by decide)
  have howner : t.ownerOf (dpaOf t.density x n) = s.ownerOf (dpaOf s.density x n) := by
    simp only [State.ownerOf, State.density, hslices, hdev]
  obtain ⟨u, hwrite, hframe, hwait, hdirty⟩ := State.ucWrite_hit hint (hway ▸ hwhole) (reqData r.tva r.accs) hmask (log := true)
    (by rw [howner, hbulk.slice_eq (by decide), hlog])
  have hsignal : u.sameBut (u.signalUnits .ack (unitUcSlice x) r.unit) [.fab] := u.withFab_sameBut _
  have hrun : s.applyWrite rid r x n = (u.signalUnits .ack (unitUcSlice x) r.unit).answerReq rid .ack := by
    simp only [State.applyWrite, ht, hwrite]
  rw [hrun]
  refine ⟨State.answered_of_frame ((hbulk.mono ?_).trans ((hframe.mono ?_).trans (hsignal.mono ?_)))
    ((hbulk.sameWait ?_).trans (hwait.trans (hsignal.sameWait ?_))) hreq _, ?_⟩
  any_goals decide
  rw [(State.answerReq_sameBut _ rid .ack).way_eq (by decide), hsignal.way_eq (by decide), hdirty, hway]

end Hit

/-! ### A request reaches its home slice -/

/-- A request of a gang that goes to its line's home slice: unanswered, to device memory, neither parked nor dead, not
queued anywhere, and to a line outside PAIRED ranges. -/
structure State.Arriving (s : State) (rid : Nat) (r : Req) : Prop where
  powered : s.powered = true
  req : Tbl.find? s.reqs rid = some r
  unanswered : r.answer = none
  device : r.host = none
  awake : r.parked = false
  live : r.dead = false
  first : r.missed = false
  notWaiting : rid ∉ s.uc.waiting
  notQueued : s.queuedAtChan rid = false
  unpaired : s.pairedLine r.dpa = false

section Arriving
variable {s : State} {rid : Nat} {r : Req}

theorem State.Arriving.begun (h : s.Arriving rid r) : s.begun.Arriving rid r :=
  ⟨h.powered, h.req, h.unanswered, h.device, h.awake, h.live, h.first, h.notWaiting, h.notQueued, h.unpaired⟩

/-- CACHE_READ takes the reads and CACHE_WRITE the other requests. -/
theorem exec_cache {t : State} (ht : s.reachHome rid (decide (r.kind = .read)) = t) :
    (r.kind = .read → exec (.cacheRead rid) s = .next t) ∧ (r.kind ≠ .read → exec (.cacheWrite rid) s = .next t) := by
  refine ⟨fun hkind => ?_, fun hkind => ?_⟩ <;> rw [← ht]
  · rw [decide_eq_true hkind]
    rfl
  · rw [decide_eq_false hkind]
    rfl

/-- R211: an earlier access of its gang holds a request back. -/
theorem State.Arriving.reachHome_mustWait (h : s.Arriving rid r)
    (hwait : s.mustWait rid r.gang r.dpa (reqMask r.tva r.accs) = true) :
    s.reachHome rid (decide (r.kind = .read)) = s := by
  simp [State.reachHome, h.req, hwait]

theorem State.Arriving.reachHome_serves (h : s.Arriving rid r)
    (hgo : s.mustWait rid r.gang r.dpa (reqMask r.tva r.accs) = false) :
    s.reachHome rid (decide (r.kind = .read)) = s.serveOrQueue rid := by
  simp [State.reachHome, h.req, hgo, h.powered, h.device, h.awake, h.notWaiting, h.notQueued]

theorem State.serveOrQueue_ended {v : State} (hv : s.begun.serveReq rid = v) (hgo : v.uc.held = false) :
    s.serveOrQueue rid = s.ended v := by
  have htrial : s.trial (fun s => s.serveReq rid) = v := hv
  simp [State.serveOrQueue, htrial, hgo]

/-- R191: a line outside PAIRED ranges is served by its home slice alone. -/
theorem State.Arriving.serveReq_home (h : s.Arriving rid r) :
    s.serveReq rid = s.serveHome rid r (homeOf s.density r.dpa).1 (homeOf s.density r.dpa).2 := by
  simp [State.serveReq, h.req, h.unanswered, h.device, h.awake, h.live, h.first, h.unpaired]

/-- A request that nothing holds back is served at its home slice in a step that waits for nothing. -/
theorem State.Arriving.exec_served (h : s.Arriving rid r)
    (hgo : s.mustWait rid r.gang r.dpa (reqMask r.tva r.accs) = false) {v : State}
    (hv : s.begun.serveHome rid r (homeOf s.density r.dpa).1 (homeOf s.density r.dpa).2 = v) (hwait : s.begun.sameWait v) :
    (r.kind = .read → exec (.cacheRead rid) s = .next (s.ended v)) ∧
      (r.kind ≠ .read → exec (.cacheWrite rid) s = .next (s.ended v)) :=
  exec_cache ((h.reachHome_serves hgo).trans (State.serveOrQueue_ended (h.begun.serveReq_home.trans hv) hwait.held))

/-- The same where the waiting does not show in what serving does. -/
theorem State.Arriving.exec_served_begun (h : s.Arriving rid r)
    (hgo : s.mustWait rid r.gang r.dpa (reqMask r.tva r.accs) = false) {t : State}
    (ht : s.begun.serveHome rid r (homeOf s.density r.dpa).1 (homeOf s.density r.dpa).2 = t.begun) (hwait : s.sameWait t) :
    (r.kind = .read → exec (.cacheRead rid) s = .next t) ∧ (r.kind ≠ .read → exec (.cacheWrite rid) s = .next t) := by
  have hserved := h.exec_served hgo ht rfl
  rwa [State.ended_begun_of_sameWait hwait] at hserved

end Arriving

/-! ### What the directory says of the line (R193) -/

section Directory
variable {s : State} {rid x n : Nat} {r : Req}

theorem State.serveHome_shielded {d a : Nat} (hshield : s.homeShield x = some (d, a)) :
    s.serveHome rid r x n = s.answerReq rid (.shield d a) := by
  simp only [State.serveHome, hshield]

theorem State.serveHome_waits (hopen : s.homeShield x = none) (hdir : s.dirOf x n = .filling ∨ s.dirOf x n = .invalidating) :
    s.serveHome rid r x n = s.waitReq rid := by
  rcases hdir with hdir | hdir <;> simp only [State.serveHome, hopen, hdir]

theorem State.serveHome_invalidates (hopen : s.homeShield x = none) (hdir : s.dirOf x n = .replica) (hkind : r.kind ≠ .read) :
    s.serveHome rid r x n = (s.askInvalidate x n).waitReq rid := by
  simp only [State.serveHome, hopen, hdir, if_neg hkind]

theorem State.serveHome_applies (hopen : s.homeShield x = none) (hdir : s.dirOf x n = .none) :
    s.serveHome rid r x n = s.applyReq rid r := by
  simp only [State.serveHome, hopen, hdir]

end Directory

/-! ### Answers, waits and invalidates do not depend on the waiting of the step -/

section Waiting
variable (s : State)

theorem State.answerReq_begun (rid : Nat) (a : Answer) : s.begun.answerReq rid a = (s.answerReq rid a).begun := by
  cases hreq : Tbl.find? s.reqs rid with
  | none => simp only [State.answerReq, hreq]
  | some r =>
    simp only [State.answerReq, hreq]
    rfl

theorem State.enterReq_begun (rid : Nat) : s.begun.enterReq rid = (s.enterReq rid).begun := by
  cases hreq : Tbl.find? s.reqs rid with
  | none => simp only [State.enterReq, hreq]
  | some r =>
    cases hent : r.entered.isSome with
    | true => simp only [State.enterReq, hreq, hent, if_true]
    | false =>
      simp only [State.enterReq, hreq, hent, Bool.false_eq_true, if_false]
      rfl

theorem State.enterReq_sameWait (rid : Nat) : s.sameWait (s.enterReq rid) := by
  unfold State.enterReq
  split
  · split <;> rfl
  · rfl

theorem State.waitReq_begun (rid : Nat) : s.begun.waitReq rid = (s.waitReq rid).begun := by
  have hin : s.begun.uc.waiting.contains rid = s.uc.waiting.contains rid := rfl
  cases hwait : s.uc.waiting.contains rid
  · simp only [State.waitReq, hin, hwait, State.enterReq_begun]
    rfl
  · simp only [State.waitReq, hin, hwait, if_true]

theorem State.waitReq_sameWait (rid : Nat) : s.sameWait (s.waitReq rid) := by
  unfold State.waitReq
  split
  · rfl
  · exact (s.enterReq_sameWait rid).trans rfl

theorem State.tagWrite_begun (x set w : Nat) : s.begun.tagWrite x set w = (s.tagWrite x set w).begun := by
  unfold State.tagWrite State.injected
  dsimp only
  split <;> rfl

theorem State.setDir_begun (x n : Nat) (d : Dir) : s.begun.setDir x n d = (s.setDir x n d).begun := by
  have hfind : s.begun.findWay x n false = s.findWay x n false := rfl
  cases hway : s.findWay x n false with
  | none => simp only [State.setDir, hfind, hway]
  | some w =>
    simp only [State.setDir, hfind, hway]
    exact State.tagWrite_begun (s.updWay x (setOf n) w fun y => { y with dir := d }) x (setOf n) w

theorem State.askInvalidate_begun (x n : Nat) : s.begun.askInvalidate x n = (s.askInvalidate x n).begun := by
  simp only [State.askInvalidate, State.setDir_begun]
  rfl

theorem State.askInvalidate_sameWait (x n : Nat) : s.sameWait (s.askInvalidate x n) :=
  (s.setDir_arrayWrite x n .invalidating).wait

end Waiting

/-! ### Ways (R203, R208) -/

section Ways
variable {s : State} {x way : Nat}

theorem State.wayCtl_busy (hready : s.ready = true) (hbusy : s.uc.wayBusy = true) (f : State → State) :
    s.wayCtl f = { s with uc := { s.uc with wayOverrun := true } } := by
  simp [State.wayCtl, hready, hbusy]

theorem State.wayCtl_idle (hready : s.ready = true) (hidle : s.uc.wayBusy = false) (f : State → State) :
    s.wayCtl f = f s := by
  simp [State.wayCtl, hready, hidle]

theorem State.doWayEnable_serves (hready : s.ready = true) (hidle : s.uc.wayBusy = false)
    (hup : s.dieState (dieOfUcSlice x) = .up) (hon : s.ucOffline x = false) :
    s.doWayEnable x way = { s with uc := { s.uc with
      wayOff := Tbl.upd 0 s.uc.wayOff x (fun m => setBit m way false), wayDone := true } } := by
  simp [State.doWayEnable, State.wayCtl_idle hready hidle, hup, hon]

theorem State.doWayEnable_offline (hready : s.ready = true) (hidle : s.uc.wayBusy = false)
    (hup : s.dieState (dieOfUcSlice x) = .up) (hoff : s.ucOffline x = true) :
    s.doWayEnable x way = { s with uc := { s.uc with wayDone := true } } := by
  simp [State.doWayEnable, State.wayCtl_idle hready hidle, hup, hoff]

theorem State.doWayEnable_dieDown (hready : s.ready = true) (hidle : s.uc.wayBusy = false)
    (hdown : s.dieState (dieOfUcSlice x) ≠ .up) : s.doWayEnable x way = s := by
  simp [State.doWayEnable, State.wayCtl_idle hready hidle, hdown]

/-- The disable has emptied its way of every set: the way is excluded, and the operation is done. -/
def State.wayExcluded (s : State) (x way : Nat) (sets : List Nat) : State :=
  let t := sets.foldl (fun a set => a.evictWay x set way) s
  { t with uc := { t.uc with wayOff := Tbl.upd 0 t.uc.wayOff x (fun m => setBit m way true)
                             wayOp := none, wayBusy := false, wayDone := true } }

theorem State.doWayDone_waits {k : Bool} (hop : s.uc.wayOp = some (x, way, k))
    (hsets : (s.setsHeld x way).all (s.canEmpty x way) = false) : s.doWayDone = s := by
  simp only [State.doWayDone, hop, hsets, Bool.not_false, Bool.or_true, if_true]

theorem State.doWayDone_excludes {k : Bool} (hpow : s.powered = true) (hop : s.uc.wayOp = some (x, way, k))
    (hsets : (s.setsHeld x way).all (s.canEmpty x way) = true) :
    s.doWayDone = s.wayExcluded x way (s.setsHeld x way) := by
  simp only [State.doWayDone, hop, hsets, hpow, Bool.not_true, Bool.or_false]
  rfl

end Ways

/-! ### A request that its home slice serves from a way -/

section Served
variable {s : State} {rid w : Nat} {r : Req}

theorem State.Intact.serveHome {x n : Nat} (h : s.Intact x n w) (hdir : (s.way (wayKey x (setOf n) w)).dir = .none) :
    s.serveHome rid r x n = s.applyReq rid r :=
  State.serveHome_applies h.serves ((State.dirOf_of_findWay h.found).trans hdir)

theorem State.applyReq_read (hkind : r.kind = .read) :
    s.applyReq rid r = (s.onBehalf r.cmd).applyRead rid r (homeOf s.density r.dpa).1 (homeOf s.density r.dpa).2 := by
  simp only [State.applyReq, hkind]
  rfl

theorem State.applyReq_write (hkind : r.kind = .write) :
    s.applyReq rid r = (s.onBehalf r.cmd).applyWrite rid r (homeOf s.density r.dpa).1 (homeOf s.density r.dpa).2 := by
  simp only [State.applyReq, hkind]
  rfl

/-- Where a line stands intact in a way, it does so for the step too. -/
theorem State.Intact.begun {x n : Nat} (h : s.Intact x n w) : s.begun.Intact x n w :=
  ⟨h.serves, h.found, h.tags, h.sectors⟩

theorem State.way_ended (s u : State) (j : Nat) : (s.ended u).way j = u.way j := rfl

/-- A step that answers the request, told of the state it leaves. -/
theorem State.Arriving.exec_answered (h : s.Arriving rid r)
    (hgo : s.mustWait rid r.gang r.dpa (reqMask r.tva r.accs) = false) {v : State} {a : Answer}
    (hv : s.begun.serveHome rid r (homeOf s.density r.dpa).1 (homeOf s.density r.dpa).2 = v)
    (hans : (s.begun.onBehalf r.cmd).Answered v rid a) :
    ((r.kind = .read → exec (.cacheRead rid) s = .next (s.ended v)) ∧
      (r.kind ≠ .read → exec (.cacheWrite rid) s = .next (s.ended v))) ∧
    (s.ended v).mem = s.mem ∧ (s.ended v).host = s.host ∧
      (Tbl.find? (s.ended v).reqs rid).map (·.answer) = some (some a) :=
  ⟨h.exec_served hgo hv hans.wait, hans.mem, hans.host, hans.answer⟩

theorem State.Arriving.exec_readHit (h : s.Arriving rid r)
    (hgo : s.mustWait rid r.gang r.dpa (reqMask r.tva r.accs) = false)
    (hint : s.Intact (homeOf s.density r.dpa).1 (homeOf s.density r.dpa).2 w) :
    let y := s.way (wayKey (homeOf s.density r.dpa).1 (setOf (homeOf s.density r.dpa).2) w)
    y.dir = .none → y.released = false → r.kind = .read → touchedSectors (reqMask r.tva r.accs) &&& ~~~y.valid = 0 →
      ∃ t, exec (.cacheRead rid) s = .next t ∧ t.mem = s.mem ∧ t.host = s.host ∧
        (Tbl.find? t.reqs rid).map (·.answer) = some (some (.data (bytesAt y.data 0 128))) := by
  intro y hdir hrel hkind hheld
  have hint' := hint.begun.congr (t := s.begun.onBehalf r.cmd) rfl rfl rfl
  have hhit := State.applyRead_hit hint' h.req h.first hrel hheld
  have hserved := (hint.begun.serveHome (rid := rid) (r := r) hdir).trans (State.applyReq_read hkind)
  obtain ⟨harrives, hleft⟩ := h.exec_answered hgo hserved hhit
  exact ⟨_, harrives.1 hkind, hleft⟩

theorem State.Arriving.exec_writeHit (h : s.Arriving rid r)
    (hgo : s.mustWait rid r.gang r.dpa (reqMask r.tva r.accs) = false)
    (hint : s.Intact (homeOf s.density r.dpa).1 (homeOf s.density r.dpa).2 w)
    (hlog : (s.slice ((s.ownerOf (dpaOf s.density (homeOf s.density r.dpa).1 (homeOf s.density r.dpa).2)).getD 0)).logging
      = false) :
    let key := wayKey (homeOf s.density r.dpa).1 (setOf (homeOf s.density r.dpa).2) w
    let y := s.way key
    y.dir = .none → y.valid = 15 → r.kind = .write → reqMask r.tva r.accs ≠ 0 →
      ∃ t, exec (.cacheWrite rid) s = .next t ∧ t.mem = s.mem ∧ t.host = s.host ∧
        (Tbl.find? t.reqs rid).map (·.answer) = some (some .ack) ∧
        (t.way key).dirty = y.dirty ||| touchedSectors (reqMask r.tva r.accs) := by
  intro key y hdir hwhole hkind hmask
  have hint' := hint.begun.congr (t := s.begun.onBehalf r.cmd) rfl rfl rfl
  obtain ⟨hhit, hdirty⟩ := State.applyWrite_hit hint' h.req hwhole hmask hlog
  have hserved := (hint.begun.serveHome (rid := rid) (r := r) hdir).trans (State.applyReq_write hkind)
  obtain ⟨harrives, hmem, hhost, hanswer⟩ := h.exec_answered hgo hserved hhit
  exact ⟨_, harrives.2 (by simp [hkind]), hmem, hhost, hanswer, (congrArg Way.dirty (State.way_ended _ _ _)).trans hdirty⟩

end Served

/-! ### The statement -/

/-- Settles O33: a request that arrives is held back, answered by the shield, made to wait, or served from its line's way;
the way operations follow UC_WAY_CTL's state. -/
theorem homeSlice : Obligations.HomeSlice := by
  refine ⟨fun s rid r w hpow hreq hans hhost hpark hdead hmiss hnowait hnoqueue hpair => ?_, fun s x way => ?_⟩
  · have harr : s.Arriving rid r := ⟨hpow, hreq, hans, hhost, hpark, hdead, hmiss, hnowait, hnoqueue, hpair⟩
    dsimp only
    refine ⟨fun hwait => exec_cache (harr.reachHome_mustWait hwait), fun hgo => ⟨fun d a hshield => ?_, fun hopen hdir => ?_,
      fun hopen hdir hkind => ?_, fun hopen hfound htags hdata hrel hdir => ⟨fun hkind hheld => ?_,
      fun hkind hwhole _ hmask hlog => ?_⟩⟩⟩
    · refine harr.exec_served_begun hgo ?_ ((s.answerReq_sameBut rid _).sameWait (by decide))
      exact (State.serveHome_shielded (s := s.begun) hshield).trans (s.answerReq_begun rid _)
    · refine harr.exec_served_begun hgo ?_ (s.waitReq_sameWait rid)
      exact (State.serveHome_waits (s := s.begun) hopen hdir).trans (s.waitReq_begun rid)
    · refine harr.exec_served_begun hgo ?_ ((s.askInvalidate_sameWait _ _).trans (State.waitReq_sameWait _ rid))
      rw [State.serveHome_invalidates (s := s.begun) hopen hdir hkind, State.askInvalidate_begun, State.waitReq_begun]
    · exact harr.exec_readHit hgo ⟨hopen, hfound, htags, hdata⟩ hdir hrel hkind hheld
    · exact harr.exec_writeHit hgo ⟨hopen, hfound, htags, hdata⟩ hlog hdir hwhole hkind hmask
  · refine ⟨fun hready hbusy => ⟨congrArg _ (State.wayCtl_busy hready hbusy _), congrArg _ (State.wayCtl_busy hready hbusy _)⟩,
      fun hready hidle => ⟨congrArg _ (State.wayCtl_idle hready hidle _),
        fun hup hon => congrArg _ (State.doWayEnable_serves hready hidle hup hon),
        fun hup hoff => congrArg _ (State.doWayEnable_offline hready hidle hup hoff),
        fun hdown => congrArg _ (State.doWayEnable_dieDown hready hidle hdown)⟩,
      fun hpow k hop => ⟨fun hsets => ?_, fun hsets => ?_⟩⟩
    · exact congrArg _ (State.settled_ended (State.doWayDone_waits (s := s.begun) hop hsets) rfl)
    · intro f hgo
      exact congrArg _ (State.settled_through (State.doWayDone_excludes (s := s.begun) hpow hop hsets) hgo)

end Sys2Proof.Machine

/-! ## Replicas (O34) -/

namespace Sys2Proof.Machine

section Replicas
variable {s : State} {line : Nat} {dpa : BitVec 44}

theorem State.doInstallAck_filling (hpow : s.powered = true)
    (hdir : s.dirOf (homeOf s.density line).1 (homeOf s.density line).2 = .filling) :
    s.doInstallAck line =
      (s.setDir (homeOf s.density line).1 (homeOf s.density line).2 .replica).serveWaiting line :=
  if_pos (by simp [hpow, hdir])

theorem State.invalidateAt_invalidating {x n : Nat} (hpow : s.powered = true) (hdir : s.dirOf x n = .invalidating) :
    s.invalidateAt x n =
      (s.dropReplica x n).signalUnits .invalidateAck (unitUcSlice (x ^^^ 256)) (unitUcSlice x) :=
  if_pos (by simp [hpow, hdir])

theorem State.doInvalidateAck_invalidating (hpow : s.powered = true)
    (hdir : s.dirOf (homeOf s.density line).1 (homeOf s.density line).2 = .invalidating)
    (hgone : s.findWay ((homeOf s.density line).1 ^^^ 256) (homeOf s.density line).2 true = none) :
    s.doInvalidateAck line = (s.setDir (homeOf s.density line).1 (homeOf s.density line).2 .none).serveWaiting line :=
  if_pos (by simp [hpow, hdir, hgone])

/-! ### REPLICA_FILL -/

/-- The fill of a line whose directory state does not hold it back. -/
theorem State.doReplicaFill_of_missed (hpow : s.powered = true)
    (hfill : s.dirOf (homeOf s.density line).1 (homeOf s.density line).2 ≠ .filling)
    (hinv : s.dirOf (homeOf s.density line).1 (homeOf s.density line).2 ≠ .invalidating)
    (hmiss : s.missedReads line ≠ []) :
    (∀ d a, s.homeShield ((homeOf s.density line).1 ^^^ 256) = some (d, a) →
      s.doReplicaFill line = (s.missedReads line).foldl (fun s rid => s.answerReq rid (.shield d a)) s) ∧
    (s.homeShield ((homeOf s.density line).1 ^^^ 256) = none →
      s.doReplicaFill line = s.fillFrom (s.missedReads line) (homeOf s.density line).1 (homeOf s.density line).2) := by
  refine ⟨fun d a hshield => ?_, fun hopen => ?_⟩
  · simp [State.doReplicaFill, hpow, hfill, hinv, hmiss, hshield]
  · simp [State.doReplicaFill, hpow, hfill, hinv, hmiss, hopen]

theorem State.fillFrom_answers_only {missed : List Nat} {x n : Nat}
    (hmay : (missed.foldl State.applyAgain s).mayReplicate x n = false) :
    s.fillFrom missed x n = missed.foldl State.applyAgain s :=
  if_neg (by simp [hmay])

theorem State.fillFrom_replicates {missed : List Nat} {x n : Nat}
    (hmay : (missed.foldl State.applyAgain s).mayReplicate x n = true) :
    s.fillFrom missed x n =
      let u := (missed.foldl State.applyAgain s).installReplica x n
      if u.2 then u.1.setDir x n .filling else u.1 :=
  if_pos hmay

theorem exec_replicaFill {v : State} (hv : s.begun.doReplicaFill (lineOf dpa) = v) (hgo : v.uc.held = false) :
    exec (.replicaFill dpa) s = .next (s.ended v) :=
  congrArg _ (State.settled_ended hv hgo)

end Replicas

/-- Settles O34: each command of the replica protocol acts on the line's directory state; a fill meets the partner's
shield, or answers the reads that missed and installs a replica where it may and can. -/
theorem replicaProtocol : Obligations.ReplicaProtocol := by
  intro s dpa hpow
  dsimp only
  refine ⟨fun hdir => congrArg _ (State.doInstallAck_filling hpow hdir),
    fun hdir => congrArg _ (State.invalidateAt_invalidating hpow hdir),
    fun hdir hgone => congrArg _ (State.doInvalidateAck_invalidating hpow hdir hgone),
    fun hfill hinv hmiss => ?_⟩
  obtain ⟨hshut, hserved⟩ := State.doReplicaFill_of_missed (s := s.begun) (line := lineOf dpa) hpow hfill hinv hmiss
  refine ⟨fun d a hshield => exec_replicaFill (hshut d a hshield), fun hopen => ⟨fun hmay hgo => ?_, fun hmay hway hgo => ?_,
    fun hmay hway hgo => ?_⟩⟩
  · exact exec_replicaFill ((hserved hopen).trans (State.fillFrom_answers_only hmay)) hgo
  · exact exec_replicaFill ((hserved hopen).trans ((State.fillFrom_replicates hmay).trans (if_pos hway))) hgo
  · exact exec_replicaFill ((hserved hopen).trans ((State.fillFrom_replicates hmay).trans (if_neg (by simp [hway])))) hgo

end Sys2Proof.Machine

/-! ## Loads and stores of lines that L1 does not hold (O27) -/

namespace Sys2Proof

/-- A put takes the place of the put before it at the same key. -/
theorem Tbl.put_put {α : Type} (t : Tbl α) (i : Nat) (v w : α) : Tbl.put (Tbl.put t i v) i w = Tbl.put t i w := by
  induction t with
  | nil => simp [Tbl.put]
  | cons e t ih =>
    obtain ⟨k, x⟩ := e
    simp only [Tbl.put]
    split
    · simp [Tbl.put]
    · split
      · simp [Tbl.put]
      · simp [Tbl.put, *]

end Sys2Proof

namespace Sys2Proof.Machine

/-! ### One request (R78, R212) -/

/-- Requests that a gang notes as members of its stream `n`. -/
def Gang.joined (n : Nat) (ids : List Nat) (v : Gang) : Gang :=
  { v with members := Tbl.upd [] v.members n (· ++ ids) }

/-- What a gang notes of requests it has sent: loads to wait for, or stores and members of a stream to be
acknowledged. -/
def Gang.sent (kind : ReqKind) (stream : Option Nat) (ids : List Nat) (v : Gang) : Gang :=
  let w := if kind = .read then { v with loads := v.loads ++ ids } else { v with stores := v.stores ++ ids }
  match stream with
  | some n => w.joined n ids
  | none => w

theorem Gang.sent_place (kind : ReqKind) (stream : Option Nat) (ids : List Nat) (v : Gang) :
    (v.sent kind stream ids).cmd = v.cmd ∧ (v.sent kind stream ids).bay = v.bay := by
  unfold Gang.sent
  cases stream <;> dsimp only <;> split <;> exact ⟨rfl, rfl⟩

theorem Gang.sent_nil (kind : ReqKind) (v : Gang) : v.sent kind none [] = v := by
  unfold Gang.sent
  dsimp only
  split <;> simp

/-- Outside a stream, requests noted in two lots are noted as one. -/
theorem Gang.sent_sent (kind : ReqKind) (as bs : List Nat) (v : Gang) :
    (v.sent kind none as).sent kind none bs = v.sent kind none (as ++ bs) := by
  unfold Gang.sent
  dsimp only
  split <;> simp

section NewReq
variable (s : State) (g : Nat) (kind : ReqKind) (line dpa : Nat) (accs : List LaneAcc) (vol : Bool) (stream : Option Nat)

/-- Two updates of a gang are one. -/
theorem State.updGang_updGang (i : Nat) (f h : Gang → Gang) :
    (s.updGang i f).updGang i h = s.updGang i fun v => h (f v) := by
  simp [State.updGang, State.setGang, State.gang, Tbl.get_put, Tbl.put_put]

/-- A request of one line: it is listed under the next number, and its gang notes it. -/
theorem State.newReq_eq : s.newReq g kind line dpa (accsOn line accs) vol stream =
    { (s.setReq s.nextReq (s.lineReq g kind line dpa accs vol stream)).updGang g (Gang.sent kind stream [s.nextReq])
      with nextReq := s.nextReq + 1 } := by
  cases stream with
  | none => rfl
  | some n =>
    exact State.updGang_updGang
      { s.setReq s.nextReq (s.lineReq g kind line dpa accs vol (some n)) with nextReq := s.nextReq + 1 } g
      (Gang.sent kind none [s.nextReq]) (Gang.joined n [s.nextReq])

theorem State.newReq_sameBut :
    s.sameBut (s.newReq g kind line dpa (accsOn line accs) vol stream) [.reqs, .nextReq, .gangs] := by
  rw [State.newReq_eq]
  intro p hp
  cases p with
  | reqs | nextReq | gangs => exact absurd (by decide) hp
  | _ => rfl

theorem State.newReq_nextReq : (s.newReq g kind line dpa (accsOn line accs) vol stream).nextReq = s.nextReq + 1 := by
  rw [State.newReq_eq]

theorem State.newReq_find? (k : Nat) : Tbl.find? (s.newReq g kind line dpa (accsOn line accs) vol stream).reqs k =
    if k = s.nextReq then some (s.lineReq g kind line dpa accs vol stream) else Tbl.find? s.reqs k := by
  rw [State.newReq_eq]
  exact Tbl.find?_put _ _ _ _

theorem State.newReq_gang : (s.newReq g kind line dpa (accsOn line accs) vol stream).gang g =
    (s.gang g).sent kind stream [s.nextReq] := by
  rw [State.newReq_eq]
  exact State.gang_updGang_same _ g _

end NewReq

/-! ### While an instruction issues -/

/-- `t` is met while gang `g` issues an instruction in `s`: only requests, what gangs note of them, the counters and the
unified cache may differ so far. -/
structure State.Issuing (s t : State) (g : Nat) : Prop where
  frame : s.sameBut t [.reqs, .nextReq, .gangs, .tel, .uc]
  cmd : (t.gang g).cmd = (s.gang g).cmd
  bay : (t.gang g).bay = (s.gang g).bay

section Issuing
variable {s t : State} {g : Nat}

theorem State.issuing_begun (s : State) (g : Nat) : s.Issuing (s.begun.countInstr g) g := by
  refine ⟨fun p hp => ?_, rfl, rfl⟩
  cases p with
  | tel | uc => exact absurd (by decide) hp
  | _ => rfl

theorem State.Issuing.newReq (h : s.Issuing t g) (kind : ReqKind) (line dpa : Nat) (accs : List LaneAcc) (vol : Bool)
    (stream : Option Nat) : s.Issuing (t.newReq g kind line dpa (accsOn line accs) vol stream) g := by
  obtain ⟨hcmd, hbay⟩ := (t.gang g).sent_place kind stream [t.nextReq]
  refine ⟨h.frame.trans ((t.newReq_sameBut g kind line dpa accs vol stream).mono (by decide)), ?_, ?_⟩
  · rw [State.newReq_gang, hcmd, h.cmd]
  · rw [State.newReq_gang, hbay, h.bay]

theorem State.Issuing.cmd_eq (h : s.Issuing t g) (i : Nat) : t.cmd i = s.cmd i := by
  have hcmds : t.cmds = s.cmds := h.frame .cmds (by decide)
  simp only [State.cmd, hcmds]

theorem State.Issuing.bay_eq (h : s.Issuing t g) (i : Nat) : t.bay i = s.bay i := by
  have hbays : t.bays = s.bays := h.frame .bays (by decide)
  simp only [State.bay, hbays]

theorem State.Issuing.slice_eq (h : s.Issuing t g) (i : Nat) : t.slice i = s.slice i :=
  h.frame.slice_eq (by decide) i

theorem State.Issuing.unitEpoch_eq (h : s.Issuing t g) (u : Nat) : t.unitEpoch u = s.unitEpoch u := by
  have hmem : t.mem = s.mem := h.frame .mem (by decide)
  have hsweld : t.sweld = s.sweld := h.frame .sweld (by decide)
  simp only [State.unitEpoch, State.chan, State.port, h.bay_eq, hmem, hsweld]

/-- A request of the instruction is the same wherever in it it is sent. -/
theorem State.Issuing.lineReq_eq (h : s.Issuing t g) (kind : ReqKind) (line dpa : Nat) (accs : List LaneAcc) (vol : Bool)
    (stream : Option Nat) : t.lineReq g kind line dpa accs vol stream = s.lineReq g kind line dpa accs vol stream := by
  have htime : t.time = s.time := h.frame .time (by decide)
  have hdev : t.dev = s.dev := h.frame .dev (by decide)
  simp only [State.lineReq, State.homeUnit, State.density, h.cmd, h.bay, h.cmd_eq, h.slice_eq, h.unitEpoch_eq, htime,
    hdev]

theorem State.Issuing.maps {line : Nat} {r : Range} (h : s.Issuing t g)
    (hmap : findRange (s.slice (s.cmd (s.gang g).cmd).slice).defn.ranges (128 * line) = some r) :
    findRange (t.slice (t.cmd (t.gang g).cmd).slice).defn.ranges (128 * line) = some r := by
  rw [h.cmd, h.cmd_eq, h.slice_eq, hmap]

theorem State.Issuing.missesL1 {line : Nat} (h : s.Issuing t g)
    (hmiss : Tbl.find? (s.bay (s.gang g).bay).l1 line = none) : Tbl.find? (t.bay (t.gang g).bay).l1 line = none := by
  rw [h.bay, h.bay_eq, hmiss]

end Issuing

/-! ### The requests of an instruction, one a line -/

/-- Sends one request for each of some lines, in order. -/
def State.sendLines (s : State) (g : Nat) (kind : ReqKind) (d : Nat → Range) (accs : List LaneAcc) (vol : Bool)
    (stream : Option Nat) (ls : List Nat) : State :=
  ls.foldl (fun t l => t.newReq g kind l ((d l).toDpa (128 * l)) (accsOn l accs) vol stream) s

section SendLines
variable (s : State) (g : Nat) (kind : ReqKind) (d : Nat → Range) (accs : List LaneAcc) (vol : Bool) (stream : Option Nat)
  (ls : List Nat)

theorem State.sendLines_sameBut : s.sameBut (s.sendLines g kind d accs vol stream ls) [.reqs, .nextReq, .gangs] :=
  foldl_sameBut (fun t l => t.newReq_sameBut g kind l _ accs vol stream) ls s

theorem State.sendLines_nextReq : (s.sendLines g kind d accs vol stream ls).nextReq = s.nextReq + ls.length := by
  induction ls generalizing s with
  | nil => rfl
  | cons l ls ih =>
    refine (ih _).trans ?_
    rw [State.newReq_nextReq, List.length_cons]
    omega

/-- The requests sent before stand under smaller numbers, and stay. -/
theorem State.sendLines_find?_of_lt {k : Nat} (hk : k < s.nextReq) :
    Tbl.find? (s.sendLines g kind d accs vol stream ls).reqs k = Tbl.find? s.reqs k := by
  induction ls generalizing s with
  | nil => rfl
  | cons l ls ih =>
    have hlt : k < (s.newReq g kind l ((d l).toDpa (128 * l)) (accsOn l accs) vol stream).nextReq := by
      rw [State.newReq_nextReq]
      omega
    refine (ih _ hlt).trans ?_
    rw [State.newReq_find?, if_neg (Nat.ne_of_lt hk)]

variable {s g} in
theorem State.Issuing.sendLines_find? {t : State} (h : s.Issuing t g) {k l : Nat} (hk : ls[k]? = some l) :
    Tbl.find? (t.sendLines g kind d accs vol stream ls).reqs (t.nextReq + k) =
      some (s.lineReq g kind l ((d l).toDpa (128 * l)) accs vol stream) := by
  induction ls generalizing t k with
  | nil => exact absurd hk (by simp)
  | cons l' ls ih =>
    have hnext := t.newReq_nextReq g kind l' ((d l').toDpa (128 * l')) accs vol stream
    cases k with
    | zero =>
      obtain rfl : l' = l := by simpa using hk
      have hlt := Nat.lt_of_lt_of_eq (Nat.lt_succ_self t.nextReq) hnext.symm
      refine (State.sendLines_find?_of_lt _ g kind d accs vol stream ls hlt).trans ?_
      rw [State.newReq_find?, if_pos rfl, h.lineReq_eq]
    | succ k =>
      have hrest := ih (h.newReq kind l' ((d l').toDpa (128 * l')) accs vol stream) (by simpa using hk)
      rwa [hnext, Nat.add_right_comm] at hrest

/-- The numbers of the next requests. -/
theorem range_succ_map (n k : Nat) : (List.range (k + 1)).map (n + ·) = n :: (List.range k).map (n + 1 + ·) := by
  simp [List.range_succ_eq_map, Function.comp_def, Nat.add_assoc, Nat.add_comm 1]

theorem State.sendLines_gang : (s.sendLines g kind d accs vol none ls).gang g =
    (s.gang g).sent kind none ((List.range ls.length).map (s.nextReq + ·)) := by
  induction ls generalizing s with
  | nil => exact (Gang.sent_nil kind _).symm
  | cons l ls ih =>
    refine (ih _).trans ?_
    rw [State.newReq_gang, State.newReq_nextReq, Gang.sent_sent, List.length_cons, range_succ_map]
    rfl

theorem State.sendLines_stream (n : Nat) :
    let ids := (List.range ls.length).map (s.nextReq + ·)
    let v := (s.sendLines g .write d accs vol (some n) ls).gang g
    v.stores = (s.gang g).stores ++ ids ∧ Tbl.get [] v.members n = Tbl.get [] (s.gang g).members n ++ ids := by
  induction ls generalizing s with
  | nil => exact ⟨(List.append_nil _).symm, (List.append_nil _).symm⟩
  | cons l ls ih =>
    obtain ⟨hstores, hmembers⟩ := ih (s.newReq g .write l ((d l).toDpa (128 * l)) (accsOn l accs) vol (some n))
    rw [State.newReq_gang, State.newReq_nextReq] at hstores hmembers
    dsimp only
    rw [List.length_cons, range_succ_map]
    refine ⟨hstores.trans ?_, hmembers.trans ?_⟩ <;> simp [Gang.sent, Gang.joined, Tbl.get_upd]

end SendLines

/-! ### An instruction whose every line becomes a request -/

section Lines
variable {s t : State} {g : Nat}

theorem State.runsGang.not_stopped (h : s.runsGang g) : (s.cmd (s.gang g).cmd).stop.isSome = false := by
  obtain ⟨hissues, -⟩ := h
  simp only [State.issues, Cmd.runs, Bool.and_eq_true, Option.isNone_iff_eq_none] at hissues
  simp [hissues]

/-- A launch that nothing stops runs every line of its instruction. -/
theorem State.Issuing.overLines_eq {kind : ReqKind} {d : Nat → Range} {accs : List LaneAcc} {vol : Bool}
    {stream : Option Nat} {f : State → Nat → State} {ls : List Nat} (h : s.Issuing t g) (hrun : s.runsGang g)
    (hf : ∀ u l, l ∈ ls → s.Issuing u g →
      f u l = u.newReq g kind l ((d l).toDpa (128 * l)) (accsOn l accs) vol stream) :
    overLines g f ls t = t.sendLines g kind d accs vol stream ls := by
  induction ls generalizing t with
  | nil => rfl
  | cons l ls ih =>
    have hgo : (t.cmd (t.gang g).cmd).stop.isSome = false := by rw [h.cmd, h.cmd_eq, hrun.not_stopped]
    rw [overLines, if_neg (by simp [hgo]), hf t l List.mem_cons_self h]
    exact ih (h.newReq kind l _ accs vol stream) fun u l' hl' => hf u l' (List.mem_cons_of_mem l hl')

/-- An instruction that changes neither the injection nor the cache ends in the state its effect leaves. -/
theorem State.issueMem_quiet {u : State} {f : State → State} (hrun : s.runsGang g) (hf : f (s.begun.countInstr g) = u)
    (hflt : u.flt = s.flt) (huc : u.uc = s.begun.uc) : s.issueMem g f = s.ended u := by
  refine State.issueMem_eq hrun f ?_ (congrArg Uc.held huc)
  rw [hf]
  exact State.bayWrite_idle (by rw [hflt]; exact hrun.2.2) _ _

/-- The state after an instruction whose every line became a request. -/
def State.afterLines (s : State) (g : Nat) (kind : ReqKind) (d : Nat → Range) (accs : List LaneAcc) (vol : Bool)
    (stream : Option Nat) : State :=
  s.ended ((s.begun.countInstr g).sendLines g kind d accs vol stream (linesOf accs))

theorem State.issueMem_lines {kind : ReqKind} {d : Nat → Range} {accs : List LaneAcc} {vol : Bool} {stream : Option Nat}
    {f : State → State} {fl : State → Nat → State} (hrun : s.runsGang g)
    (hf : f (s.begun.countInstr g) = overLines g fl (linesOf accs) (s.begun.countInstr g))
    (hfl : ∀ u l, l ∈ linesOf accs → s.Issuing u g →
      fl u l = u.newReq g kind l ((d l).toDpa (128 * l)) (accsOn l accs) vol stream) :
    s.issueMem g f = s.afterLines g kind d accs vol stream := by
  have hsent := hf.trans ((s.issuing_begun g).overLines_eq hrun hfl)
  have hsame := (s.begun.countInstr g).sendLines_sameBut g kind d accs vol stream (linesOf accs)
  exact State.issueMem_quiet hrun hsent (hsame .flt (by decide)) (hsame .uc (by decide))

section After
variable (s g) (kind : ReqKind) (d : Nat → Range) (accs : List LaneAcc) (vol : Bool) (stream : Option Nat)

theorem State.afterLines_sentLines : s.sentLines (s.afterLines g kind d accs vol stream) g kind d accs vol stream :=
  ⟨State.sendLines_nextReq _ g kind d accs vol stream _, fun _ _ hk =>
    (s.issuing_begun g).sendLines_find? kind d accs vol stream _ hk⟩

theorem State.afterLines_sameBut : s.sameBut (s.afterLines g kind d accs vol stream) [.reqs, .nextReq, .gangs, .tel] :=
  State.ended_sameBut (((s.begun.countInstr_sameBut g false).mono (by decide)).trans
    ((State.sendLines_sameBut _ g kind d accs vol stream _).mono (by decide)))

theorem State.afterLines_gang : (s.afterLines g kind d accs vol none).gang g =
    (s.gang g).sent kind none (s.sentIds accs) :=
  State.sendLines_gang _ g kind d accs vol _

theorem State.afterLines_stream (n : Nat) :
    let v := (s.afterLines g .write d accs vol (some n)).gang g
    v.stores = (s.gang g).stores ++ s.sentIds accs ∧
      Tbl.get [] v.members n = Tbl.get [] (s.gang g).members n ++ s.sentIds accs :=
  State.sendLines_stream _ g d accs vol _ n

end After

/-! ### The lines of loads and stores -/

section OneLine
variable {line need : Nat} {accs : List LaneAcc} {r : Range}

/-- R30: a line that a range of the gang's slice permits is translated. -/
theorem State.gangDpa_mapped
    (hmap : findRange (s.slice (s.cmd (s.gang g).cmd).slice).defn.ranges (128 * line) = some r)
    (hmay : ((need ≠ 0 || r.canRead) && (need ≠ 1 || r.canWrite) && (need ≠ 3 || (r.canRead && r.canWrite))) = true) :
    s.gangDpa g line need = (s, some (r.toDpa (128 * line))) := by
  simp only [State.gangDpa, hmap, hmay, if_true]

theorem State.l1WriteMask_miss {b : Nat} (hmiss : Tbl.find? (s.bay b).l1 line = none) (mask : BitVec 128) :
    s.l1WriteMask b line mask = (s, false) := by
  simp only [State.l1WriteMask, State.l1WritePart, hmiss]

theorem State.l1Update_miss {b : Nat} (hmiss : Tbl.find? (s.bay b).l1 line = none) (data : Bytes) (mask : BitVec 128) :
    s.l1Update b line data mask = s := by
  simp only [State.l1Update, hmiss]

variable (hmap : findRange (s.slice (s.cmd (s.gang g).cmd).slice).defn.ranges (128 * line) = some r)
  (hmiss : Tbl.find? (s.bay (s.gang g).bay).l1 line = none)
include hmap

theorem State.plainLine_noL1 (hwr : r.canWrite = true) (hnone : (s.bay (s.gang g).bay).l1Lines = 0) :
    s.plainLine g accs line = s.newReq g .write line (r.toDpa (128 * line)) (accsOn line accs) true none := by
  simp only [State.plainLine, State.gangDpa_mapped (need := 1) hmap (by simp [hwr]), hnone, if_true]

include hmiss

theorem State.loadLine_miss (hrd : r.canRead = true) (vol : Bool) :
    s.loadLine g vol accs line = s.newReq g .read line (r.toDpa (128 * line)) (accsOn line accs) vol none := by
  cases vol <;>
    simp [State.loadLine, State.gangDpa_mapped (need := 0) hmap (by simp [hrd]), State.l1WriteMask_miss hmiss, hmiss]

theorem State.volatileLine_miss (hwr : r.canWrite = true) (stream : Option Nat) :
    s.volatileLine g stream accs line =
      s.newReq g .write line (r.toDpa (128 * line)) (accsOn line accs) true stream := by
  simp only [State.volatileLine, State.gangDpa_mapped (need := 1) hmap (by simp [hwr]), State.l1Update_miss hmiss]

end OneLine

/-! ### The instructions -/

section Instructions
variable {accs : List LaneAcc} {d : Nat → Range} (hrun : s.runsGang g) (hmaps : s.mapsLines g (linesOf accs) d)
  (hmiss : ∀ l ∈ linesOf accs, Tbl.find? (s.bay (s.gang g).bay).l1 l = none)
include hrun hmaps

theorem State.issueMem_doStorePlain (hwr : ∀ l ∈ linesOf accs, (d l).canWrite = true)
    (hnone : (s.bay (s.gang g).bay).l1Lines = 0) :
    s.issueMem g (fun u => u.doStorePlain g .tva accs) = s.afterLines g .write d accs true none :=
  State.issueMem_lines hrun rfl fun _ l hl hu =>
    State.plainLine_noL1 (hu.maps (hmaps l hl)) (hwr l hl) (by rw [hu.bay, hu.bay_eq, hnone])

include hmiss

theorem State.issueLoad_tva (hrd : ∀ l ∈ linesOf accs, (d l).canRead = true) (vol : Bool) :
    s.issueLoad g vol .tva accs = s.afterLines g .read d accs vol none :=
  State.issueMem_lines hrun rfl fun _ l hl hu =>
    State.loadLine_miss (hu.maps (hmaps l hl)) (hu.missesL1 (hmiss l hl)) (hrd l hl) vol

theorem State.issueMem_doStoreVolatile (hwr : ∀ l ∈ linesOf accs, (d l).canWrite = true) (stream : Option Nat) :
    s.issueMem g (fun u => u.doStoreVolatile g stream .tva accs) = s.afterLines g .write d accs true stream :=
  State.issueMem_lines hrun rfl fun _ l hl hu =>
    State.volatileLine_miss (hu.maps (hmaps l hl)) (hu.missesL1 (hmiss l hl)) (hwr l hl) stream

/-- R218: a stream with room for its new members takes them. -/
theorem State.issueMem_doStoreStream (hwr : ∀ l ∈ linesOf accs, (d l).canWrite = true) {n : Nat}
    (hroom : (Tbl.get [] (s.gang g).members n).length + (linesOf accs).length ≤ 256) :
    s.issueMem g (fun u => u.doStoreStream g n .tva accs) = s.afterLines g .write d accs true (some n) :=
  State.issueMem_lines hrun (if_neg (Nat.not_lt.mpr hroom)) fun _ l hl hu =>
    State.volatileLine_miss (hu.maps (hmaps l hl)) (hu.missesL1 (hmiss l hl)) (hwr l hl) (some n)

end Instructions

/-- A store of device memory whose registers no load has still to fill issues. -/
theorem State.issueStore_tva {accs : List LaneAcc} (hfilled : ∀ e ∈ s.awaited g, storedRegs accs e = false)
    (f : State → State) : s.issueStore g .tva accs f = s.issueMem g f :=
  if_neg (by simpa using hfilled)

end Lines

/-- Settles O27: L1 holds no line of the access, so each becomes one request, in address order; the gang notes them as
loads, as stores, or as stores that are members of their stream. -/
theorem lineRequests : Obligations.LineRequests := by
  intro s g accs d hrun hmaps v parts hmiss
  have hsame := fun kind vol stream => s.afterLines_sameBut g kind d accs vol stream
  have hsent := fun kind vol stream => s.afterLines_sentLines g kind d accs vol stream
  have hgang := fun kind vol => s.afterLines_gang g kind d accs vol
  refine ⟨fun hrd => ?_, fun sp n => congrArg _ (State.issue_writes hrun _ false), fun hwr hfilled => ?_⟩
  · have hload := State.issueLoad_tva hrun hmaps hmiss hrd
    refine ⟨⟨_, congrArg Host.Outcome.next (hload false), hsent _ _ _, hsame _ _ _, hgang _ _⟩, fun a ha => ?_⟩
    cases a with
    | volatile | stream _ =>
      exact ⟨_, congrArg Host.Outcome.next (hload true), hsent _ _ _, hsame _ _ _, hgang _ _⟩
    | capstone n => exact absurd rfl (ha n)
  · have hissue := State.issueStore_tva hfilled
    refine ⟨fun hnone => ?_, ?_, fun n hroom => ?_⟩
    · have hstore := (hissue _).trans (State.issueMem_doStorePlain hrun hmaps hwr hnone)
      exact ⟨_, congrArg Host.Outcome.next hstore, hsent _ _ _, hsame _ _ _, hgang _ _⟩
    · have hstore := (hissue _).trans (State.issueMem_doStoreVolatile hrun hmaps hmiss hwr none)
      exact ⟨_, congrArg Host.Outcome.next hstore, hsent _ _ _, hsame _ _ _, hgang _ _⟩
    · have hstore := (hissue _).trans (State.issueMem_doStoreStream hrun hmaps hmiss hwr hroom)
      exact ⟨_, congrArg Host.Outcome.next hstore, hsent _ _ _, hsame _ _ _, s.afterLines_stream g d accs true n.val⟩

end Sys2Proof.Machine

/-! ## Atomics, fences, flushes and capstones (O29) -/

namespace Sys2Proof

/-- No entry of a table stands at a key that has been removed. -/
theorem Tbl.key_ne_of_mem_del {α : Type} {t : Tbl α} {i : Nat} {e : Nat × α} (he : e ∈ Tbl.del t i) : e.1 ≠ i := by
  induction t with
  | nil => exact absurd he List.not_mem_nil
  | cons x t ih =>
    obtain ⟨k, w⟩ := x
    simp only [Tbl.del] at he
    split at he
    case isTrue => exact ih he
    case isFalse hk =>
      rcases List.mem_cons.mp he with rfl | he
      · exact fun h => hk h.symm
      · exact ih he

end Sys2Proof

namespace Sys2Proof.Machine

section Instructions
variable {s : State} {g : Nat}

/-! ### Atomics (R216) -/

/-- An access touches the line of its first byte. -/
theorem accsOn_own_line {a : LaneAcc} (hsize : a.size ≠ 0) : accsOn (a.addr.toNat / 128) [a] = [a] := by
  have hon : overlap a.addr.toNat a.size (128 * (a.addr.toNat / 128)) 128 = true := by
    simp only [overlap, Bool.and_eq_true, decide_eq_true_eq]
    omega
  simp [accsOn, hon]

theorem State.l1Forget_miss {b line : Nat} (hmiss : Tbl.find? (s.bay b).l1 line = none) (mask : BitVec 128) :
    s.l1Forget b line mask = s := by
  simp only [State.l1Forget, hmiss]

/-- A request that its gang notes as a store is sent. -/
def State.withStore (s : State) (g : Nat) (r : Req) : State :=
  { (s.setReq s.nextReq r).updGang g fun v => { v with stores := v.stores ++ [s.nextReq] }
    with nextReq := s.nextReq + 1 }

theorem State.withStore_begun (s : State) (g : Nat) (r : Req) : s.begun.withStore g r = (s.withStore g r).begun := rfl

theorem State.withStore_sameBut (s : State) (g : Nat) (r : Req) :
    s.sameBut (s.withStore g r) [.reqs, .nextReq, .gangs] := by
  intro p hp
  cases p with
  | reqs | nextReq | gangs => exact absurd (by decide) hp
  | _ => rfl

/-- An atomic on a line that L1 does not hold: one request, which keeps the operand's own TVA. -/
theorem State.doAtomic_miss {a : LaneAcc} {r : Range} (op : AtomicOp) (kind : AtomicKind) (x y : W64)
    (hmap : findRange (s.slice (s.cmd (s.gang g).cmd).slice).defn.ranges (128 * (a.addr.toNat / 128)) = some r)
    (hrd : r.canRead = true) (hwr : r.canWrite = true)
    (hmiss : Tbl.find? (s.bay (s.gang g).bay).l1 (a.addr.toNat / 128) = none) (hsize : a.size ≠ 0) :
    s.doAtomic g .tva a op kind x y =
      s.withStore g { s.lineReq g (.atomic op kind x y) (a.addr.toNat / 128) (r.toDpa (128 * (a.addr.toNat / 128))) [a]
        true none with tva := a.addr.toNat } := by
  have hsent := s.newReq_eq g (.atomic op kind x y) (a.addr.toNat / 128) (r.toDpa (128 * (a.addr.toNat / 128))) [a]
    true none
  rw [accsOn_own_line hsize] at hsent
  simp only [State.doAtomic, State.gangDpa_mapped (need := 3) hmap (by simp [hrd, hwr]), State.l1WriteMask_miss hmiss,
    State.l1Forget_miss hmiss, hsent, Nat.add_sub_cancel, State.updGang_reqs, State.setReq, Tbl.find?_put, if_true,
    Tbl.put_put]
  rfl

/-- An instruction that changes neither the injection nor the cache, and whose effect does not depend on the waiting of
the step. -/
theorem State.issueMem_begun {t : State} {f : State → State} (hrun : s.runsGang g)
    (hf : f (s.countInstr g).begun = t.begun) (hflt : t.flt = s.flt) (huc : t.uc = s.uc) : s.issueMem g f = t := by
  have hcalm : t.begun.uc = s.begun.uc := congrArg (fun u : Uc => { u.calm with mayWait := true }) huc
  exact (State.issueMem_quiet hrun hf hflt hcalm).trans (State.ended_begun_of_sameWait (State.sameWait_of_uc huc))

theorem State.issueMem_withStore {f : State → State} {r : Req} (hrun : s.runsGang g)
    (hf : f (s.countInstr g).begun = (s.countInstr g).begun.withStore g r) :
    s.issueMem g f = (s.countInstr g).withStore g r :=
  State.issueMem_begun hrun (hf.trans ((s.countInstr g).withStore_begun g r))
    ((s.countInstr g).withStore_sameBut g r .flt (by decide)) ((s.countInstr g).withStore_sameBut g r .uc (by decide))

/-! ### FENCE and FLUSH (R214) -/

/-- A bay whose L1 holds nothing that a launch has dirtied has nothing to write back for it. -/
theorem State.l1FlushCmd_clean {b id : Nat} (hclean : ∀ e ∈ (s.bay b).l1, id ∉ e.2.cmds) :
    s.l1FlushCmd b id = s.landEnded id b := by
  have hnone : s.l1DirtyOf b id = [] := by
    simpa [State.l1DirtyOf, List.filter_eq_nil_iff] using hclean
  simp only [State.l1FlushCmd, hnone, l1WriteBackAll]

theorem State.landEnded_sameBut (s : State) (id b : Nat) : s.sameBut (s.landEnded id b) [.cmds] := by
  intro p hp
  cases p with
  | cmds => exact absurd List.mem_cons_self hp
  | _ => rfl

theorem State.doFlushRange_inv {addr len : Nat}
    (hin : inRange (s.slice (s.cmd (s.gang g).cmd).slice).defn addr len (fun _ => true) = true) :
    s.doFlushRange g addr len .inv = s.l1Inv (s.gang g).bay addr len := by
  simp [State.doFlushRange, hin]

theorem State.l1Inv_begun (s : State) (b addr len : Nat) : s.begun.l1Inv b addr len = (s.l1Inv b addr len).begun := rfl

theorem State.l1Inv_sameBut (s : State) (b addr len : Nat) : s.sameBut (s.l1Inv b addr len) [.bays] :=
  s.updBay_sameBut b _

theorem State.gangFault_sameBut (s : State) (g code : Nat) (f : FaultInfo) :
    s.sameBut (s.gangFault g code f) [.slices, .cmds, .flt, .dev] :=
  s.raise_sameBut _ _

theorem State.bayWrite_held (s : State) (id b : Nat) : (s.bayWrite id b).uc.held = s.uc.held := by
  have hinj := (s.injected_arrayWrite 3 (unitBay b)).wait.held
  unfold State.bayWrite
  dsimp only
  split <;> exact hinj

/-! ### Capstones are sent (R219) -/

theorem State.setCap_sameBut (s : State) (id : Nat) (c : Capstone) : s.sameBut (s.setCap id c) [.uc] := by
  intro p hp
  cases p with
  | uc => exact absurd List.mem_cons_self hp
  | _ => rfl

theorem State.setCap_find? (s : State) (id k : Nat) (c : Capstone) :
    Tbl.find? (s.setCap id c).uc.capstones k = if k = id then some c else Tbl.find? s.uc.capstones k :=
  Tbl.find?_put _ _ _ _

/-- A gang whose stream `n` has ended in capstone `id`: the next member is the first of a new one. -/
def Gang.capped (n id : Nat) (v : Gang) : Gang :=
  { v with members := Tbl.set [] v.members n [], failed := setBit v.failed n false
           hostPorts := Tbl.set 0 v.hostPorts n 0, stores := v.stores ++ [id] }

/-- The capstone that a gang sends to device memory: it waits for the members of its stream so far. -/
def State.deviceCap (s : State) (g n : Nat) (a : LaneAcc) (flag : Option W64) (r : Range) : Capstone :=
  let v := s.gang g
  let line := r.toDpa (128 * (a.addr.toNat / 128))
  { gang := g, cmd := v.cmd, slice := (s.cmd v.cmd).slice, stream := n, waits := Tbl.get [] v.members n
    failed := bitAt v.failed n, ports := Tbl.get 0 v.hostPorts n, data := a.data, flag := flag, arrived := s.time
    dpa := line + a.addr.toNat % 128, tva := a.addr.toNat
    held := decide (s.capsHeld (some (homeOf s.density line).1) < 64) }

/-- The state after a capstone store to device memory. -/
def State.cappedTo (s : State) (g n : Nat) (a : LaneAcc) (flag : Option W64) (r : Range) : State :=
  ({ s with nextReq := s.nextReq + 1 }.updGang g (Gang.capped n s.nextReq)).setCap s.nextReq (s.deviceCap g n a flag r)

theorem State.doStoreCapstone_tva {n : Nat} {a : LaneAcc} {r : Range} (flag : Option W64) (hlen : 4 ≤ a.data.length)
    (hfits : a.addr.toNat % 128 + a.data.length ≤ 128)
    (hmap : findRange (s.slice (s.cmd (s.gang g).cmd).slice).defn.ranges (128 * (a.addr.toNat / 128)) = some r)
    (hwr : r.canWrite = true)
    (hopen : s.homeShield (homeOf s.density (r.toDpa (128 * (a.addr.toNat / 128)))).1 = none) :
    s.doStoreCapstone g n .tva a flag = s.cappedTo g n a flag r := by
  have hwhole : ¬(a.data.length < 4 ∨ 128 < a.addr.toNat % 128 + a.data.length) := by omega
  simp only [State.doStoreCapstone, hwhole, if_false, State.gangDpa_mapped (need := 1) hmap (by simp [hwr]), hopen]
  rfl

theorem State.cappedTo_sameBut (s : State) (g n : Nat) (a : LaneAcc) (flag : Option W64) (r : Range) :
    s.sameBut (s.cappedTo g n a flag r) [.nextReq, .gangs, .uc] := by
  intro p hp
  cases p with
  | nextReq | gangs | uc => exact absurd (by decide) hp
  | _ => rfl

theorem State.cappedTo_gang (s : State) (g n : Nat) (a : LaneAcc) (flag : Option W64) (r : Range) :
    (s.cappedTo g n a flag r).gang g = (s.gang g).capped n s.nextReq :=
  State.gang_updGang_same _ g _

theorem State.cappedTo_find? (s : State) (g n : Nat) (a : LaneAcc) (flag : Option W64) (r : Range) :
    Tbl.find? (s.cappedTo g n a flag r).uc.capstones s.nextReq = some (s.deviceCap g n a flag r) :=
  (State.setCap_find? _ _ _ _).trans (if_pos rfl)

theorem exec_storeCapstone_tva {n : Fin 4} {a : LaneAcc} {r : Range} (flag : Option W64) (hrun : s.runsGang g)
    (hlen : 4 ≤ a.data.length) (hfits : a.addr.toNat % 128 + a.data.length ≤ 128)
    (hmap : findRange (s.slice (s.cmd (s.gang g).cmd).slice).defn.ranges (128 * (a.addr.toNat / 128)) = some r)
    (hwr : r.canWrite = true)
    (hopen : s.homeShield (homeOf s.density (r.toDpa (128 * (a.addr.toNat / 128)))).1 = none) :
    exec (.storeCapstone g n .tva a flag) s = .next ((s.countInstr g).cappedTo g n.val a flag r) := by
  have hstore : (s.countInstr g).doStoreCapstone g n.val .tva a flag = _ :=
    State.doStoreCapstone_tva flag hlen hfits hmap hwr hopen
  refine congrArg Host.Outcome.next ((State.issue_eq hrun _ ?_).trans hstore)
  rw [hstore]
  exact State.cappedTo_sameBut _ g n.val a flag r .flt (by decide)

end Instructions

/-! ### Capstones are released and discarded (R219, R221) -/

section Capstones
variable {s : State} {id : Nat} {c : Capstone}

/-- R219: a release token writes a held capstone of device memory whose members are all acknowledged. -/
theorem State.doRelease_device {t : State} (hready : s.ready = true) (hcap : Tbl.find? s.uc.capstones id = some c)
    (hheld : c.held = true) (hok : c.failed = false) (hacked : c.waits = []) (hdev : c.host = none)
    (hgo : s.mustWait id c.gang (c.dpa / 128 * 128) (maskOf (c.dpa % 128) c.data.length) = false)
    (hwrite : ((s.signalUnits .releaseToken (unitBay (s.gang c.gang).bay) (s.capUnit c)).onBehalf c.cmd).lineWrite
      (c.dpa / 128 * 128) (List.replicate (c.dpa % 128) 0 ++ c.data) (maskOf (c.dpa % 128) c.data.length) true
      (placeOf (unitBay (s.gang c.gang).bay)) = (t, .ok)) :
    s.doRelease id = ((t.serveWaiting (c.dpa / 128 * 128)).dropCap id (some (homeOf s.density c.dpa).1)).capFlag
      { cmd := c.cmd, slice := c.slice, unit := unitBay (s.gang c.gang).bay } c := by
  have hslice : ∀ u : State, u.capSlice c = some (homeOf u.density c.dpa).1 := fun u => by simp [State.capSlice, hdev]
  simp only [State.doRelease, hcap, hready, hheld, hok, hacked, hdev, Capstone.mask, hgo, State.releaseDevice, hwrite,
    hslice]
  rfl

/-- A capstone that is not there, has members outstanding or has failed is not released. -/
theorem State.doRelease_refused (hno : ∀ c, Tbl.find? s.uc.capstones id = some c → c.waits ≠ [] ∨ c.failed = true) :
    s.doRelease id = s := by
  cases hcap : Tbl.find? s.uc.capstones id with
  | none => simp only [State.doRelease, hcap]
  | some c => rcases hno c hcap with hwaits | hfailed <;> simp [State.doRelease, *]

/-- A capstone is gone from where it was held, and from what its gang waits for. -/
def State.withoutCap (s : State) (id : Nat) : State :=
  { s with uc := { s.uc with capstones := Tbl.del s.uc.capstones id }
           gangs := Tbl.mapVals s.gangs fun _ g => { g with stores := g.stores.filter (· != id) } }

/-- When a capstone goes, nothing else happens, or another one takes its place. -/
theorem State.dropCap_cases (s : State) (id : Nat) (x : Option Nat) : s.dropCap id x = s.withoutCap id ∨
    ∃ k c, k ≠ id ∧ s.dropCap id x = (s.withoutCap id).setCap k c := by
  unfold State.dropCap
  dsimp only
  split
  · exact .inl rfl
  · split
    next e he =>
      split
      · have hmem := (List.mem_filter.mp (List.mem_of_mem_head? he)).1
        exact .inr ⟨e.1, _, Tbl.key_ne_of_mem_del hmem, rfl⟩
      · exact .inl rfl
    · exact .inl rfl

theorem State.withoutCap_sameBut (s : State) (id : Nat) : s.sameBut (s.withoutCap id) [.uc, .gangs] := by
  intro p hp
  cases p with
  | uc | gangs => exact absurd (by decide) hp
  | _ => rfl

theorem State.dropCap_sameBut (s : State) (id : Nat) (x : Option Nat) : s.sameBut (s.dropCap id x) [.uc, .gangs] := by
  have hgone := s.withoutCap_sameBut id
  rcases s.dropCap_cases id x with heq | ⟨k, c, -, heq⟩ <;> rw [heq]
  · exact hgone
  · exact hgone.trans ((State.setCap_sameBut _ k c).mono (by decide))

theorem State.dropCap_find? (s : State) (id : Nat) (x : Option Nat) :
    Tbl.find? (s.dropCap id x).uc.capstones id = none := by
  have hgone : Tbl.find? (s.withoutCap id).uc.capstones id = none := (Tbl.find?_del _ _ _).trans (if_pos rfl)
  rcases s.dropCap_cases id x with heq | ⟨k, c, hne, heq⟩ <;> rw [heq]
  · exact hgone
  · rw [State.setCap_find?, if_neg (Ne.symm hne), hgone]

/-- Of the unified cache only capstones and HELD_MAX differ when a capstone goes. -/
theorem State.dropCap_uc (s : State) (id : Nat) (x : Option Nat) :
    (s.dropCap id x).uc.ways = s.uc.ways ∧ (s.dropCap id x).uc.discarded = s.uc.discarded := by
  rcases s.dropCap_cases id x with heq | ⟨k, c, -, heq⟩ <;> rw [heq] <;> exact ⟨rfl, rfl⟩

theorem State.doDiscard_due (hpow : s.powered = true) (hcap : Tbl.find? s.uc.capstones id = some c)
    (hheld : c.held = true) (hdue : c.arrived + 64000000 ≤ s.time) :
    s.doDiscard id =
      let t := s.dropCap id (s.capSlice c)
      { t with uc := { t.uc with discarded := satAdd 32 t.uc.discarded 1 } } := by
  simp [State.doDiscard, hcap, hpow, hheld, hdue]

end Capstones

/-! ### The statement -/

/-- Settles O29: each instruction issues and has its effect; a capstone is stored, released or left as its stream and
its home slice allow, and discarded once it is 64 ms old. -/
theorem atomicsFencesCapstones : Obligations.AtomicsFencesCapstones := by
  refine ⟨fun s g hrun => ⟨fun a op kind x y r hmap hrd hwr hmiss hsize _ => ?_, fun hnone => ?_, fun hsome => ?_,
      fun hclean => ?_, fun addr len hin => ?_, fun off len mode => ?_⟩,
    fun s g n a flag r hrun hlen hfits hmap hwr hopen => ?_,
    fun s t id c hready hcap hheld hok hacked hdev hgo hwrite hfree => ?_, fun s id hno => ?_,
    fun s id c hpow hcap hheld hdue => ?_⟩
  · have hatomic := State.doAtomic_miss (s := s.begun.countInstr g) op kind x y hmap hrd hwr hmiss hsize
    rw [(s.issuing_begun g).lineReq_eq] at hatomic
    exact congrArg Host.Outcome.next (State.issueMem_withStore hrun hatomic)
  · have hfenced : s.fenced g = true := by simp [State.fenced, hnone]
    exact congrArg Host.Outcome.next ((if_pos hfenced).trans (State.issue_eq hrun (fun u => u) rfl))
  · have hwaits : ¬s.fenced g = true := by simp [State.fenced, hsome]
    exact congrArg Host.Outcome.next (if_neg hwaits)
  · have hended := State.l1FlushCmd_clean (s := s.begun.countInstr g) hclean
    have hsame := (s.begun.countInstr g).landEnded_sameBut (s.gang g).cmd (s.gang g).bay
    refine ⟨_, congrArg Host.Outcome.next (State.issueMem_quiet hrun hended ?_ ?_),
      State.ended_sameBut (((s.begun.countInstr_sameBut g false).mono (by decide)).trans (hsame.mono (by decide)))⟩
    · exact hsame .flt (by decide)
    · exact hsame .uc (by decide)
  · have hinv := State.doFlushRange_inv (s := (s.countInstr g).begun) hin
    have hsame := (s.countInstr g).l1Inv_sameBut (s.gang g).bay addr.toNat len
    exact congrArg Host.Outcome.next (State.issueMem_begun hrun (hinv.trans (State.l1Inv_begun _ _ _ _))
      (hsame .flt (by decide)) (hsame .uc (by decide)))
  · refine congrArg Host.Outcome.next (State.issueMem_eq hrun _ rfl ?_)
    rw [State.bayWrite_held]
    exact congrArg Uc.held (State.gangFault_sameBut _ g fcScratchRange _ .uc (by decide))
  · have hsame := (s.countInstr_sameBut g false).mono (qs := [.tel, .nextReq, .gangs, .uc]) (by decide)
    exact ⟨_, exec_storeCapstone_tva flag hrun hlen hfits hmap hwr hopen, rfl,
      hsame.trans ((State.cappedTo_sameBut _ g n.val a flag r).mono (by decide)), State.cappedTo_gang _ g n.val a flag r,
      State.cappedTo_find? _ g n.val a flag r⟩
  · exact congrArg Host.Outcome.next (State.settled_ended
      (State.doRelease_device (s := s.begun) hready hcap hheld hok hacked hdev hgo hwrite) hfree)
  · have hleft := State.doRelease_refused (s := s.begun) hno
    exact congrArg Host.Outcome.next ((State.settled_ended hleft rfl).trans s.ended_begun)
  · obtain ⟨hways, hcount⟩ := s.dropCap_uc id (s.capSlice c)
    have hsame := s.dropCap_sameBut id (s.capSlice c)
    refine ⟨_, congrArg Host.Outcome.next (State.doDiscard_due hpow hcap hheld hdue), fun p hp => ?_, s.dropCap_find? id _,
      congrArg (satAdd 32 · 1) hcount, hways⟩
    cases p with
    | uc => exact absurd List.mem_cons_self hp
    | _ => exact hsame _ hp

end Sys2Proof.Machine

/-! ## The two addressed memories (O10, O11, O12) -/

namespace Sys2Proof.Machine

set_option Elab.async false

/-! ### Commands that store nothing -/

/-- A command answers a next state, which has DRAM and the host's memory as they were. -/
def RestsMemory (o : Host.Outcome State Fault Refusal) (s : State) : Prop := ∃ t, o = .next t ∧ t.still = s.still

theorem next_restsMemory {s t : State} (h : t.still = s.still) : RestsMemory (.next t) s := ⟨t, rfl, h⟩

theorem State.still_if {c : Prop} [Decidable c] {s t : State} (h : t.still = s.still) :
    (if c then t else s).still = s.still := by
  rw [still_ite, h, ite_self]

/-- Each command that stores nothing, through the law of its own operation. -/
theorem exec_restsMemory (c : Instr) (s : State) (h : c.storesNothing = true) : RestsMemory (exec c s) s := by
  cases c with
  | nop => exact next_restsMemory (State.doNop_still ..)
  | launch => exact next_restsMemory (State.doLaunch_still ..)
  | handleSet => exact next_restsMemory (State.doHandleOp_still ..)
  | epochFlip => exact next_restsMemory (State.doHandleOp_still ..)
  | sqTailDoorbell => exact next_restsMemory (State.doSqTail_still ..)
  | cqHeadDoorbell => exact next_restsMemory (State.doHead_still ..)
  | queueCfgWrite => exact next_restsMemory (State.doQueueCfg_still ..)
  | qeTenantReset => exact next_restsMemory (State.doTenantResetRequest_still ..)
  | qePoolFree => exact next_restsMemory (State.doPoolFree_still ..)
  | workItemClaim => exact next_restsMemory (State.settled_still _ _ fun _ => State.doClaim_still ..)
  | storeCapstone => exact next_restsMemory (State.issue_still _ _ _ _ fun _ => State.doStoreCapstone_still ..)
  | capstoneDiscard => exact next_restsMemory (State.doDiscard_still ..)
  | fence => exact next_restsMemory (State.still_if (State.issue_still _ _ _ _ fun _ => rfl))
  | maskPush => exact next_restsMemory (State.issue_still _ _ _ _ fun _ => State.doMaskPush_still ..)
  | maskReconverge => exact next_restsMemory (State.issue_still _ _ _ _ fun _ => State.doReconverge_still ..)
  | replicaInvalidate => exact next_restsMemory (State.doInvalidate_still ..)
  | refresh => exact next_restsMemory (State.doRefresh_still ..)
  | retrainStart => exact next_restsMemory (State.doRetrainStart_still ..)
  | shieldAnswer => exact next_restsMemory (State.doShieldAnswer_still ..)
  | staleReplyDiscard => exact next_restsMemory (State.doStaleDiscard_still ..)
  | bayReset => exact next_restsMemory (State.doBayReset_still ..)
  | channelReset => exact next_restsMemory (State.doChannelReset_still ..)
  | sweldPortReset => exact next_restsMemory (State.doPortReset_still ..)
  | bringupStepTimeout => exact next_restsMemory (State.doStepTimeout_still ..)
  | applySlice => exact next_restsMemory (State.startImage_still ..)
  | loadWhole => exact next_restsMemory (State.startImage_still ..)
  | storeSlot => exact next_restsMemory (State.startImage_still ..)
  | revoke => exact next_restsMemory (State.doRevoke_still ..)
  | raiseFloor => exact next_restsMemory (State.doRaiseFloor_still ..)
  | drain => exact next_restsMemory (State.doDrain_still ..)
  | resume => exact next_restsMemory (State.doResume_still ..)
  | sliceDrained => exact next_restsMemory (State.doSliceDrained_still ..)
  | fwLoad => exact next_restsMemory (State.startFw_still ..)
  | fwStoreSlot => exact next_restsMemory (State.startFw_still ..)
  | cfgHandleSet => exact next_restsMemory (State.startHandleOp_still ..)
  | cfgHandleFlip => exact next_restsMemory (State.startHandleOp_still ..)
  | managerHandleEffect => exact next_restsMemory (State.doManagerHandleEffect_still ..)
  | cfgFill => exact next_restsMemory (State.doFill_still ..)
  | cfgAccessErrClear => exact next_restsMemory (State.doClearAccess_still ..)
  | badAccess bar0 off isWrite =>
    cases isWrite with
    | true => exact next_restsMemory (State.badWrite_still ..)
    | false => exact next_restsMemory (State.countAccess_still ..)
  | registerWrite => exact next_restsMemory (State.doRegisterWrite_still ..)
  | mcStatsClear => exact next_restsMemory (State.doClearStats_still ..)
  | killPin => exact next_restsMemory (State.doKillPin_still ..)
  | applyPpr => exact next_restsMemory (State.still_if ((State.memDone_still _).trans (State.updChan_still ..)))
  | wayDisable => exact next_restsMemory (State.wayCtl_still _ _ fun _ => rfl)
  | wayEnable => exact next_restsMemory (State.doWayEnable_still ..)
  | peer => exact next_restsMemory (State.doPeer_still ..)
  | accept => exact next_restsMemory (State.doAccept_still ..)
  | plbPowerLimitWrite => exact next_restsMemory (State.doPowerLimit_still ..)
  | fltAck => exact next_restsMemory (State.doAck_still ..)
  | arm => exact next_restsMemory (State.doArm_still ..)
  | disarm => exact next_restsMemory (State.doDisarm_still ..)
  | forcePath => exact next_restsMemory (State.doForcePath_still ..)
  | fltRepairGo => exact next_restsMemory (State.doRepairGo_still ..)
  | snap => exact next_restsMemory (State.doSnap_still ..)
  | clear => exact next_restsMemory (State.doClear_still ..)
  | telSelWrite => exact next_restsMemory (State.doTelSel_still ..)
  | logOn => exact next_restsMemory (State.doLogOn_still ..)
  | logOff => exact next_restsMemory (State.doLogOff_still ..)
  | freeze => exact next_restsMemory (State.doFreeze_still ..)
  | sliceFrozen => exact next_restsMemory (State.doSliceFrozen_still ..)
  | migExport => exact next_restsMemory (State.doMigExport_still ..)
  | thaw => exact next_restsMemory (State.doThaw_still ..)
  | migImport => exact next_restsMemory (State.doMigImport_still ..)
  | migCopy => exact next_restsMemory (State.doMigCopy_still ..)
  | getDeviceState => exact next_restsMemory (State.answer_still ..)
  | getUnitState => exact next_restsMemory (State.answer_still ..)
  | setPowerLimit =>
    exact next_restsMemory (State.still_if (State.mgmtOp_still _ _ _ fun _ => State.setPlinthLimit_still ..))
  | readFaultSummary => exact next_restsMemory (State.doFaultSummary_still ..)
  | readTelemetry => exact next_restsMemory (State.answer_still ..)
  | stageFlash => exact next_restsMemory (State.still_if (State.mgmtOp_still _ _ _ fun _ => State.doStage_still ..))
  | unknownPlumbCommand => exact next_restsMemory (State.doUnknownPlumb_still ..)
  | portTrained => exact next_restsMemory (State.doPortTrained_still ..)
  | replayTimeout => exact next_restsMemory (State.doReplayTimeout_still ..)
  | linkRecovery => exact next_restsMemory (State.still_if (State.recover_still ..))
  | linkRecovered => exact next_restsMemory (State.doLinkRecovered_still ..)
  | recoveryTimeout => exact next_restsMemory (State.doRecoveryTimeout_still ..)
  | sweldOpen => exact next_restsMemory (State.atPort_still _ _ _ fun _ => State.rxOpen_still ..)
  | openAck => exact next_restsMemory (State.atPort_still _ _ _ fun _ => State.rxOpenAck_still ..)
  | refuse => exact next_restsMemory (State.atPort_still _ _ _ fun _ => State.rxRefuse_still ..)
  | busyRetry => exact next_restsMemory (State.doBusyRetry_still ..)
  | landedReport => exact next_restsMemory (State.doLandedReport_still ..)
  | landed => exact next_restsMemory (State.atPort_still _ _ _ fun _ => State.rxLanded_still ..)
  | capstone => exact next_restsMemory (State.atPort_still _ _ _ fun _ => State.rxCapstone_still ..)
  | capDone => exact next_restsMemory (State.atPort_still _ _ _ fun _ => State.rxCapDone_still ..)
  | close => exact next_restsMemory (State.atPort_still _ _ _ fun _ => State.rxClose_still ..)
  | abort => exact next_restsMemory (State.atPort_still _ _ _ fun _ => State.rxAbort_still ..)
  | beaconSend => exact next_restsMemory (State.doBeaconSend_still ..)
  | beacon => exact next_restsMemory (State.still_if (State.rxBeacon_still ..))
  | malformedMessage => exact next_restsMemory (State.still_if (State.malformed_still ..))
  | timeBeacon => exact next_restsMemory (State.doTimeBeacon_still ..)
  | bridgeFlitReplay => exact next_restsMemory (State.doFlitReplay_still ..)
  | bucketLeak => exact next_restsMemory (State.doLeak_still ..)
  | descriptorScrub => exact next_restsMemory (State.doDescScrub_still ..)
  | scrubLsRow => exact next_restsMemory (State.doScrubLs_still ..)
  | agingSample => exact next_restsMemory (State.doAging_still ..)
  | powerLoopTick => exact next_restsMemory (State.doPowerLoop_still ..)
  | prochotAssert => exact next_restsMemory (State.doProchot_still ..)
  | thermalRead => exact next_restsMemory (State.doThermal_still ..)
  | vrAlert => exact next_restsMemory (State.doVrAlert_still ..)
  | perstNRelease => exact next_restsMemory (State.doPerstRelease_still ..)
  | pcieLinkUp => exact next_restsMemory (State.doLinkUp_still ..)
  | imageOperationFinish => exact next_restsMemory (State.doImageFinish_still ..)
  | firmwareOperationFinish => exact next_restsMemory (State.doFwFinish_still ..)
  | fuseBlowDone => exact next_restsMemory (State.doBlowDone_still ..)
  | portDrainTimeout => exact next_restsMemory (State.doPortDrain_still ..)
  | holdNotice => exact next_restsMemory (State.doHoldNotice_still ..)
  | writeAcknowledgement => exact next_restsMemory (State.doWriteAck_still ..)
  | scratchAccess => exact next_restsMemory (State.issue_still _ _ _ _ fun _ => State.doScratch_still ..)
  | logicFaultDetected => exact next_restsMemory (State.doLogicFault_still ..)
  | entdaa => exact next_restsMemory (State.doEntdaa_still ..)
  | _ => cases h

/-- Settles O12: the law of each command that stores nothing says that both memories are as they were. -/
theorem memoryUntouched : Obligations.MemoryUntouched := by
  intro c s t hc ht
  obtain ⟨u, hu, hstill⟩ := exec_restsMemory c s hc
  obtain rfl := Host.Outcome.next.inj (hu.symm.trans ht)
  exact ⟨congrArg Still.dram hstill, congrArg Still.host hstill⟩

/-! ### The canonical form -/

theorem Memory.wf_iff (s : State) : Memory.wf s = true ↔ s.still.ok := by
  simp only [Memory.wf, Bool.and_eq_true, Still.ok, State.still]

/-- A command answers a next state, whose memories are in their canonical form. -/
def FormsMemory (o : Host.Outcome State Fault Refusal) : Prop := ∃ t, o = .next t ∧ t.still.ok

theorem next_formed {t : State} (h : t.still.ok) : FormsMemory (.next t) := ⟨t, rfl, h⟩

theorem State.ok_if {c : Prop} [Decidable c] {s t : State} (ht : t.still.ok) (hs : s.still.ok) :
    (if c then t else s).still.ok := by
  split
  · exact ht
  · exact hs

theorem settled_formed {s : State} {f : State → State} (hf : ∀ u : State, u.still.ok → (f u).still.ok)
    (h : s.still.ok) : FormsMemory (.next (s.settled f)) :=
  next_formed (State.settled_ok s f hf h)

theorem mgmtOp_formed {c : Prop} [Decidable c] {s : State} {op : HeldOp} {f : State → State}
    (hf : ∀ u : State, u.still.ok → (f u).still.ok) (h : s.still.ok) :
    FormsMemory (.next (if c then s.mgmtOp op f else s)) :=
  next_formed (State.ok_if (State.mgmtOp_ok s op f hf h) h)

/-- Each command that stores bytes keeps the form, through the law of its own operation; the others leave the memories
as they are. -/
theorem exec_formsMemory (c : Instr) (s : State) (h : s.still.ok) : FormsMemory (exec c s) := by
  cases hc : c.storesNothing with
  | true =>
    obtain ⟨t, ht, hstill⟩ := exec_restsMemory c s hc
    exact ⟨t, ht, hstill ▸ h⟩
  | false =>
    cases c with
    | copy => exact settled_formed (fun _ h => State.doCopy_ok (h := h) ..) h
    | slabRun => exact settled_formed (fun _ h => State.doSlabRun_ok (h := h) ..) h
    | gather => exact settled_formed (fun _ h => State.doGather_ok (h := h) ..) h
    | select => exact settled_formed (fun _ h => State.doSelect_ok (h := h) ..) h
    | release => exact settled_formed (fun _ h => State.doReleaseCmd_ok (h := h) ..) h
    | flush => exact settled_formed (fun _ h => State.doFlush_ok (h := h) ..) h
    | sweldSend => exact settled_formed (fun _ h => State.doSweldSend_ok (h := h) ..) h
    | sweldExpect => exact settled_formed (fun _ h => State.doSweldExpect_ok (h := h) ..) h
    | fetchDescriptor => exact settled_formed (fun _ h => State.doFetch_ok (h := h) ..) h
    | dispatch => exact next_formed (State.ok_if (State.arbEdge_ok (h := h) ..) h)
    | preemption =>
      exact next_formed (State.ok_if (State.settled_ok _ _ (fun _ h => State.doPreemption_ok (h := h) ..) h) h)
    | commandComplete => exact settled_formed (fun _ h => State.doCommandComplete_ok (h := h) ..) h
    | postCompletionRecord => exact next_formed (State.doPostCompletion_ok (h := h) ..)
    | postWaitingRecord => exact next_formed (State.doPostWaiting_ok (h := h) ..)
    | gangExit => exact next_formed (State.issueMem_ok _ _ _ (fun _ h => State.doGangExit_ok (h := h) ..) h)
    | loadPlain => exact next_formed (State.issueLoad_ok (h := h) ..)
    | storePlain => exact next_formed (State.issueStore_ok _ _ _ _ _ (fun _ h => State.doStorePlain_ok (h := h) ..) h)
    | loadVolatile => exact next_formed (State.loadFrom_ok (h := h) ..)
    | storeVolatile =>
      exact next_formed (State.issueStore_ok _ _ _ _ _ (fun _ h => State.doStoreVolatile_ok (h := h) ..) h)
    | storeStream => exact next_formed (State.issueStore_ok _ _ _ _ _ (fun _ h => State.doStoreStream_ok (h := h) ..) h)
    | capstoneReleaseToken => exact settled_formed (fun _ h => State.doRelease_ok (h := h) ..) h
    | atomic => exact next_formed (State.issueMem_ok _ _ _ (fun _ h => State.doAtomic_ok (h := h) ..) h)
    | flushRange => exact next_formed (State.issueMem_ok _ _ _ (fun _ h => State.flushFrom_ok (h := h) ..) h)
    | flushAll => exact next_formed (State.issueMem_ok _ _ _ (fun _ h => State.l1FlushCmd_ok (h := h) ..) h)
    | cacheRead => exact next_formed (State.reachHome_ok (h := h) ..)
    | cacheWrite => exact next_formed (State.reachHome_ok (h := h) ..)
    | replicaFill => exact settled_formed (fun _ h => State.doReplicaFill_ok (h := h) ..) h
    | replicaInstallAck => exact next_formed (State.doInstallAck_ok (h := h) ..)
    | invalidateAck => exact next_formed (State.doInvalidateAck_ok (h := h) ..)
    | channelRead => exact next_formed (State.doChannelRead_ok (h := h) ..)
    | channelWrite => exact next_formed (State.doChannelWrite_ok (h := h) ..)
    | retrainEnd => exact next_formed (State.doRetrainEnd_ok (h := h) ..)
    | hpprTimeout => exact next_formed (State.doHpprTimeout_ok (h := h) ..)
    | tenantReset => exact next_formed (State.doTenantReset_ok (h := h) ..)
    | dieReset => exact next_formed (State.doDieReset_ok (h := h) ..)
    | packageReset => exact next_formed (State.doPackageReset_ok (h := h) ..)
    | resetComplete => exact next_formed (State.doResetComplete_ok (h := h) ..)
    | coldStart => exact next_formed (State.doColdStart_ok (h := h) ..)
    | pwrGoodFall => exact next_formed (State.doPwrGoodFall_ok (h := h) ..)
    | perstNAssert => exact next_formed (State.doPerstAssert_ok (h := h) ..)
    | pcieLinkDown => exact next_formed (State.doLinkDown_ok (h := h) ..)
    | powerOff => exact mgmtOp_formed (fun _ h => State.powerRequest_ok (h := h) ..) h
    | powerOn => exact mgmtOp_formed (fun _ h => State.powerRequest_ok (h := h) ..) h
    | mark => exact next_formed (State.doMark_ok (h := h) ..)
    | unitPower => exact mgmtOp_formed (fun _ h => State.plumbUnitPower_ok (h := h) ..) h
    | plumbPackageReset => exact mgmtOp_formed (fun _ h => State.plumbReset_ok (h := h) ..) h
    | flitReceived => exact next_formed (State.doFlit_ok (h := h) ..)
    | member =>
      exact settled_formed (fun _ h => State.atPort_ok _ _ _ (fun _ h => State.rxMember_ok (h := h) ..) h) h
    | capstoneApply => exact settled_formed (fun _ h => State.doCapstoneApply_ok (h := h) ..) h
    | fenceTimeout => exact next_formed (State.doFenceTimeout_ok (h := h) ..)
    | faultRecordCollect => exact next_formed (State.doCollect_ok (h := h) ..)
    | faultRecordPost => exact next_formed (State.doFaultPost_ok (h := h) ..)
    | reporterPath => exact next_formed (State.doSample_ok (h := h) ..)
    | scrubDramLine => exact next_formed (State.doScrubDram_ok (h := h) ..)
    | scrubCacheSet => exact next_formed (State.doScrubCache_ok (h := h) ..)
    | telemetryTick => exact next_formed (State.doTick_ok (h := h) ..)
    | splitCheck => exact next_formed (State.doSplitCheck_ok (h := h) ..)
    | splitReprobe => exact next_formed (State.doReprobe_ok (h := h) ..)
    | plumbFailover => exact next_formed (State.doFailover_ok (h := h) ..)
    | bringupStepEnd => exact next_formed (State.doStepEnd_ok (h := h) ..)
    | fillDone => exact settled_formed (fun _ h => State.doFillDone_ok (h := h) ..) h
    | migCopyDone => exact settled_formed (fun _ h => State.doMigCopyDone_ok (h := h) ..) h
    | migrationBlobDone => exact next_formed (State.doBlobDone_ok (h := h) ..)
    | wayOperationDone => exact settled_formed (fun _ h => State.doWayDone_ok (h := h) ..) h
    | repackRow => exact next_formed (State.doRepackRow_ok (h := h) ..)
    | readReply => exact settled_formed (fun _ h => State.doReadReply_ok (h := h) ..) h
    | laneArithmetic => exact next_formed (State.doLaneArithmetic_ok (h := h) ..)
    | instructionFetch => exact next_formed (State.issueMem_ok _ _ _ (fun _ h => State.doInstrFetch_ok (h := h) ..) h)
    | _ => cases hc

/-- A step runs the command at the front of the queue, or lets a nanosecond pass, which stores nothing. -/
theorem step_formsMemory {s t : State} (hs : s.still.ok) (h : step s = .next t) : t.still.ok := by
  unfold step at h
  cases hp : s.pending with
  | nil =>
    rw [hp] at h
    obtain rfl := Host.Outcome.next.inj h
    exact s.idle_still ▸ hs
  | cons c rest =>
    rw [hp] at h
    obtain ⟨u, hu, hok⟩ := exec_formsMemory c { s with pending := rest } hs
    obtain rfl := Host.Outcome.next.inj (hu.symm.trans h)
    exact hok

/-- Settles O10: every store keeps rising addresses and lists no byte of DRAM that an unlisted address reads as, and
every command that stores does so through these. The form is the model's own (notes/assumptions/66.md). -/
theorem memoryStaysCanonical : Obligations.MemoryStaysCanonical := by
  intro s t hwf hstep
  exact (Memory.wf_iff t).mpr (step_formsMemory ((Memory.wf_iff s).mp hwf) hstep)

/-! ### Stored bytes -/

/-- What stands at an address other than the first one written is decided by the bytes behind the first. -/
theorem stored_behind_first {β : Type} {a k : Nat} (hk : k ≠ a) (x : Byte) (xs : Bytes) (f : Byte → β) (old : β) :
    (if a + 1 ≤ k ∧ k < a + 1 + xs.length then f (xs.getD (k - (a + 1)) 0) else old) =
      if a ≤ k ∧ k < a + (x :: xs).length then f ((x :: xs).getD (k - a) 0) else old := by
  have hiff : (a ≤ k ∧ k < a + (x :: xs).length) ↔ a + 1 ≤ k ∧ k < a + 1 + xs.length := by
    simp only [List.length_cons]
    omega
  by_cases hin : a + 1 ≤ k ∧ k < a + 1 + xs.length
  · rw [if_pos hin, if_pos (hiff.mpr hin), show k - a = k - (a + 1) + 1 by omega, List.getD_cons_succ]
  · rw [if_neg hin, if_neg (mt hiff.mp hin)]

/-- DRAM holds stored bytes where they were stored, and elsewhere what it held. -/
theorem get_dramPut (t : Tbl Byte) (a : Nat) (b : Bytes) (k : Nat) :
    Tbl.get 0 (dramPut t a b) k = if a ≤ k ∧ k < a + b.length then b.getD (k - a) 0 else Tbl.get 0 t k := by
  induction b generalizing t a with
  | nil => exact (if_neg (by rw [List.length_nil]; omega)).symm
  | cons x xs ih =>
    rw [dramPut, ih, Tbl.get_set]
    by_cases hk : k = a
    · subst hk
      rw [if_neg (by omega), if_pos rfl, if_pos ⟨Nat.le_refl k, Nat.lt_add_of_pos_right (Nat.succ_pos _)⟩, Nat.sub_self,
        List.getD_cons_zero]
    · rw [if_neg hk]
      exact stored_behind_first hk x xs id _

/-- So does the host's memory, which lists every byte stored. -/
theorem find?_putAll (t : Tbl Byte) (a : Nat) (b : Bytes) (k : Nat) :
    Tbl.find? (putAll t a b) k = if a ≤ k ∧ k < a + b.length then some (b.getD (k - a) 0) else Tbl.find? t k := by
  induction b generalizing t a with
  | nil => exact (if_neg (by rw [List.length_nil]; omega)).symm
  | cons x xs ih =>
    rw [putAll, ih, Tbl.find?_put]
    by_cases hk : k = a
    · subst hk
      rw [if_neg (by omega), if_pos rfl, if_pos ⟨Nat.le_refl k, Nat.lt_add_of_pos_right (Nat.succ_pos _)⟩, Nat.sub_self,
        List.getD_cons_zero]
    · rw [if_neg hk]
      exact stored_behind_first hk x xs some _

theorem State.dramBytes_dramStore (s : State) (a : Nat) (b : Bytes) : (s.dramStore a b).dramBytes a b.length = b := by
  refine List.ext_getElem (by simp [State.dramBytes]) fun i _ hi => ?_
  simp only [State.dramBytes, State.dramStore, List.getElem_map, List.getElem_range]
  rw [get_dramPut, if_pos (by omega), Nat.add_sub_cancel_left, List.getD_eq_getElem?_getD,
    List.getElem?_eq_getElem hi, Option.getD_some]

/-- Settles O11: both memories hold stored bytes where they were stored, and elsewhere what they held. -/
theorem storedBytesReadBack : Obligations.StoredBytesReadBack := by
  intro s a b
  refine ⟨s.dramBytes_dramStore a b, fun k hk => ?_, fun sp => ⟨fun k hk => ?_, fun k hk => ?_⟩⟩
  · exact (get_dramPut _ _ _ _).trans (if_neg (by omega))
  · exact (find?_putAll _ _ _ _).trans ((if_pos ⟨by omega, by omega⟩).trans (by rw [Nat.add_sub_cancel_left]))
  · exact (find?_putAll _ _ _ _).trans (if_neg (by omega))

end Sys2Proof.Machine

/-! ## Reads and writes of a channel's lines (O35) -/

namespace Sys2Proof.Machine

set_option Elab.async false

section Access
variable {s : State} {c q : Nat} (errs mapErrs : List (Nat × Byte))

theorem State.doChannelRead_unserved (h : s.chanServes c = false) (rid : Option Nat) :
    s.doChannelRead c q errs mapErrs rid = s := by
  simp [State.doChannelRead, h]

/-- A read for no request waits in a hold; else it ends at the map line, or decodes the line. -/
theorem State.doChannelRead_none (hs : s.chanServes c = true) (hq : q < chanLines s.density) :
    s.doChannelRead c q errs mapErrs none =
      if (s.chan c).retraining then s.updChan c (fun v => { v with queued := v.queued ++ [.read q] })
      else if (s.mapLookup c q mapErrs).2 then (((s.mapLookup c q mapErrs).1.addErrors c q errs).chanRead c q).1
      else (s.mapLookup c q mapErrs).1 := by
  simp only [State.doChannelRead, hs, Nat.not_le.mpr hq, decide_false, Bool.not_true, Bool.or_self, Bool.false_eq_true,
    if_false]
  generalize s.mapLookup c q mapErrs = m
  obtain ⟨t, _ | _⟩ := m <;> rfl

/-- A read for a request that does not wait for the line is none. -/
theorem State.doChannelRead_other {id : Nat} (h : s.requestFor c q id = false) :
    s.doChannelRead c q errs mapErrs (some id) = s := by
  simp [State.doChannelRead, h]

/-- A read for a request goes to its home slice, unless the map line could not be decoded. -/
theorem State.doChannelRead_request (hs : s.chanServes c = true) (hq : q < chanLines s.density) {id : Nat} {r : Req}
    (hreq : Tbl.find? s.reqs id = some r) (hfor : s.requestFor c q id = true) :
    s.doChannelRead c q errs mapErrs (some id) =
      if (s.chan c).retraining then s.reachHome id (decide (r.kind = .read))
      else if (s.mapLookup c q mapErrs).2 then
        ((s.mapLookup c q mapErrs).1.addErrors c q errs).reachHome id (decide (r.kind = .read))
      else match Tbl.find? (s.mapLookup c q mapErrs).1.reqs id with
        | some r => (s.mapLookup c q mapErrs).1.badRead id r 2
        | none => (s.mapLookup c q mapErrs).1 := by
  simp only [State.doChannelRead, hs, Nat.not_le.mpr hq, decide_false, Bool.not_true, Bool.or_self, Bool.false_eq_true,
    if_false, hfor, hreq]
  generalize s.mapLookup c q mapErrs = m
  obtain ⟨t, _ | _⟩ := m <;> rfl

variable (data : Bytes) (mask : BitVec 128)

theorem State.doChannelWrite_unserved (h : s.chanServes c = false) : s.doChannelWrite c q data mask = s := by
  simp [State.doChannelWrite, h]

theorem State.doChannelWrite_served (hs : s.chanServes c = true) (hq : q < chanLines s.density) :
    s.doChannelWrite c q data mask =
      if (s.chan c).retraining then s.updChan c (fun v => { v with queued := v.queued ++ [.write q data mask] })
      else s.writeLine c q data mask := by
  simp only [State.doChannelWrite, hs, Nat.not_le.mpr hq, decide_false, Bool.not_true, Bool.or_self,
    Bool.false_eq_true, if_false]

end Access

/-- Settles O35: a channel that serves holds an access back while it retrains; else a read is decoded, or ends where its
map line cannot be used, and a write is made, or refused and reported. -/
theorem channelAccess : Obligations.ChannelAccess := by
  intro s c q errs mapErrs data mask hq
  refine ⟨fun hs => ⟨fun rid => ?_, ?_⟩, fun hs hhold => ⟨?_, ?_, fun id r hreq hfor => ?_⟩, fun hs id hno => ?_,
    fun hs hopen => ⟨fun hbad => ?_, fun hok => ?_, fun id r hreq hfor => ⟨fun hok => ?_, fun hbad r' hreq' => ?_⟩,
      fun t hmade => ?_, fun t hrefused => ?_⟩⟩
  all_goals refine congrArg Host.Outcome.next ?_
  · exact State.doChannelRead_unserved errs mapErrs hs rid
  · exact State.doChannelWrite_unserved data mask hs
  · exact (State.doChannelRead_none errs mapErrs hs hq).trans (if_pos hhold)
  · exact (State.doChannelWrite_served data mask hs hq).trans (if_pos hhold)
  · exact (State.doChannelRead_request errs mapErrs hs hq hreq hfor).trans (if_pos hhold)
  · exact State.doChannelRead_other errs mapErrs hno
  · simp [State.doChannelRead_none errs mapErrs hs hq, hopen, hbad]
  · simp [State.doChannelRead_none errs mapErrs hs hq, hopen, hok]
  · simp [State.doChannelRead_request errs mapErrs hs hq hreq hfor, hopen, hok]
  · simp [State.doChannelRead_request errs mapErrs hs hq hreq hfor, hopen, hbad, hreq']
  · simp [State.doChannelWrite_served data mask hs hq, hopen, State.writeLine, hmade]
  · simp [State.doChannelWrite_served data mask hs hq, hopen, State.writeLine, hrefused]

end Sys2Proof.Machine

/-! ## A channel's services (O36) -/

namespace Sys2Proof.Machine

set_option Elab.async false

/-! ### What a repair entry and a report leave alone -/

theorem State.sameBut.chan_eq {s t : State} {ps : List Part} (h : s.sameBut t ps) (hps : Part.mem ∉ ps) (k : Nat) :
    t.chan k = s.chan k :=
  congrArg (fun m : Mem => Tbl.get ({} : Chan) m.chans k) (h .mem hps)

theorem State.sameBut.host_eq {s t : State} {ps : List Part} (h : s.sameBut t ps) (hps : Part.host ∉ ps) :
    t.host = s.host := h .host hps

theorem State.withFlt_sameBut (s : State) (v : Flt) : s.sameBut { s with flt := v } [.flt] := by
  intro p hp
  cases p with
  | flt => exact absurd List.mem_cons_self hp
  | _ => rfl

theorem State.withMem_sameBut (s : State) (v : Mem) : s.sameBut { s with mem := v } [.mem] := by
  intro p hp
  cases p with
  | mem => exact absurd List.mem_cons_self hp
  | _ => rfl

theorem State.updChan_sameBut (s : State) (c : Nat) (f : Chan → Chan) : s.sameBut (s.updChan c f) [.mem] :=
  s.withMem_sameBut _

theorem State.autoRepair_sameBut (s : State) (d entry : Nat) :
    s.sameBut (s.autoRepair d entry) [.slices, .cmds, .flt, .dev] := by
  unfold State.autoRepair
  dsimp only
  split
  · exact (s.withFlt_sameBut _).mono (by decide)
  · exact s.raise_sameBut _ _

/-! ### Retraining (R256) -/

section Retraining
variable {s : State} {c : Nat}

theorem State.doRetrainStart_due (hmay : s.mayRetrain c = true)
    (hdue : retrainPoint c s.time = true ∨ (s.chan c).deferred = true) :
    s.doRetrainStart c =
      if s.whole.retrainMax ≤ s.retrainingNow then s.updChan c (fun v => { v with deferred := true })
      else s.updChan c (fun v =>
        { v with retraining := true, retrainFrom := s.time, deferred := false, notice := false }) :=
  if_neg (by rcases hdue with hdue | hdue <;> simp [hmay, hdue])

/-- The hold that ends is recorded in the two counts of holds and in the selected counters. -/
def State.recordHold (s : State) (c : Nat) : State :=
  let ns := s.time - (s.chan c).retrainFrom
  let t := s.updChan c (fun v => { v with retraining := false, queued := [] })
  { t with mem := { t.mem with
      holds := satAdd 32 t.mem.holds 1, worstHold := max t.mem.worstHold (min ns (2 ^ 32 - 1)) } }.event
    0x33 (unitChan c) none ns

theorem State.doRetrainEnd_held (h : (s.chan c).retraining = true) :
    s.doRetrainEnd c = issueWaiting c (s.chan c).queued [] (s.recordHold c) :=
  if_neg (by simp [h])

theorem State.recordHold_sameBut (s : State) (c : Nat) : s.sameBut (s.recordHold c) [.mem, .tel] :=
  ((s.withMem_sameBut _).mono (by decide)).trans ((State.event_sameBut _ _ _ _ _).mono (by decide))

end Retraining

/-! ### Pin-kill (R248, R265) -/

section PinKill
variable {s : State} {c : Nat}

/-- The channel as a pin is killed: it repacks from row 0, and its scrubber's time does not count meanwhile (R338). -/
def Chan.pinKilled (v : Chan) (pin now : Nat) : Chan :=
  { v.pauseScrub now with killed := some pin, repacking := true, repackRow := 0 }

/-- The pin that is to be killed is reported. -/
def State.pinReported (s : State) (c pin : Nat) : State := s.raise fcPinKill { unit := unitChan c, info0 := pin }

theorem State.pinReported_sameBut (s : State) (c pin : Nat) :
    s.sameBut (s.pinReported c pin) [.slices, .cmds, .flt, .dev] :=
  s.raise_sameBut _ _

/-- Once the pin is reported the channel repacks, and a repair entry is written. -/
theorem State.killPin_sameBut (h : (s.chan c).killed = none) (pin : Nat) :
    ((s.pinReported c pin).updChan c fun v => v.pinKilled pin (s.pinReported c pin).dev.ticks).sameBut (s.killPin c pin)
      [.slices, .cmds, .flt, .dev] := by
  simp only [State.killPin, h]
  exact State.autoRepair_sameBut _ _ _

theorem State.killPin_chan (h : (s.chan c).killed = none) (pin k : Nat) :
    (s.killPin c pin).chan k =
      if k = c then (s.chan c).pinKilled pin (s.pinReported c pin).dev.ticks else s.chan k := by
  have hreport := s.pinReported_sameBut c pin
  rw [(State.killPin_sameBut h pin).chan_eq (by decide), State.chan_updChan, hreport.chan_eq (by decide),
    hreport.chan_eq (by decide)]

theorem State.killPin_host (h : (s.chan c).killed = none) (pin : Nat) : (s.killPin c pin).host = s.host := by
  rw [(State.killPin_sameBut h pin).host_eq (by decide), State.updChan_host,
    (s.pinReported_sameBut c pin).host_eq (by decide)]

theorem State.doKillPin_killed (hr : s.ready = true) (h : (s.chan c).killed.isSome = true) (pin : Nat) :
    s.doKillPin c pin = s.memRefused := by
  simp [State.doKillPin, hr, h]

theorem State.doKillPin_fresh (hr : s.ready = true) (h : (s.chan c).killed = none) (pin : Nat) :
    s.doKillPin c pin = (s.killPin c pin).memDone := by
  simp [State.doKillPin, hr, h]

end PinKill

/-! ### Row repair (R254) -/

section RowRepair
variable {s : State} {c row i : Nat}

@[simp] theorem State.chan_dramStore (s : State) (a k : Nat) (b : Bytes) : (s.dramStore a b).chan k = s.chan k := rfl

@[simp] theorem State.dramStore_host (s : State) (a : Nat) (b : Bytes) : (s.dramStore a b).host = s.host := rfl

/-- A row stays on its spare: its channel maps it there. -/
theorem State.remapRow_chan (s : State) (c row i : Nat) :
    (s.remapRow c row i).chan c = { s.chan c with remaps := Tbl.put (s.chan c).remaps row i } := by
  simp only [State.remapRow]
  rw [(State.autoRepair_sameBut _ _ _).chan_eq (by decide), State.chan_updChan_same, State.chan_dramStore]

theorem State.remapRow_host (s : State) (c row i : Nat) : (s.remapRow c row i).host = s.host := by
  simp only [State.remapRow]
  rw [(State.autoRepair_sameBut _ _ _).host_eq (by decide), State.updChan_host, State.dramStore_host]

/-- A row that is repaired without hPPR leaves the queue and stays on the lowest free spare. -/
theorem State.repairRow_spare (hfree : (s.chan c).freeSpare = some i) :
    s.repairRow c row false =
      (s.updChan c fun v => { v with pprQueue := v.pprQueue.filter (· != row) }).remapRow c row i := by
  simp only [State.repairRow, hfree, Bool.false_eq_true, if_false]

theorem State.doHpprTimeout_running (hpow : s.powered = true) (hunit : (s.chan c).unit = .resetting) {rest : List Nat}
    (hrun : (s.chan c).pprRun = row :: rest) :
    s.doHpprTimeout c = (s.updChan c fun v => { v with pprRun := rest }).repairRow c row false := by
  simp [State.doHpprTimeout, hrun, hpow, hunit]

end RowRepair

/-! ### Repacking (R248) -/

section Repacking
variable {s : State} {c : Nat}

theorem State.addErrors_unwritten {q : Nat} (h : s.lineState c q ≠ .written) (errs : List (Nat × Byte)) :
    s.addErrors c q errs = s :=
  if_neg h

theorem repackReads_unwritten {l : List Nat} (h : ∀ q ∈ l, s.lineState c q ≠ .written) :
    repackReads c l s = (s, []) := by
  induction l with
  | nil => rfl
  | cons q l ih =>
    rw [repackReads, if_neg (h q List.mem_cons_self)]
    exact ih fun p hp => h p (List.mem_cons_of_mem q hp)

theorem mem_linesOfRow {density row i : Nat} (hi : i < 240) (hq : 240 * row + i < chanLines density) :
    240 * row + i ∈ linesOfRow density row := by
  simp [linesOfRow, hi, hq]

@[simp] theorem Chan.goOnScrub_repackRow (v : Chan) (now : Nat) : (v.goOnScrub now).repackRow = v.repackRow := by
  unfold Chan.goOnScrub
  (repeat' split) <;> rfl

@[simp] theorem Chan.goOnScrub_repacking (v : Chan) (now : Nat) : (v.goOnScrub now).repacking = v.repacking := by
  unfold Chan.goOnScrub
  (repeat' split) <;> rfl

/-- The channel moves on to the row behind the one repacked; behind the last it repacks no more. -/
def Chan.repackNext (density : Nat) (v : Chan) : Chan :=
  let last := decide (rowsOfChan density ≤ v.repackRow + 1)
  { v with repackRow := if last then v.repackRow else v.repackRow + 1, repacking := !last }

/-- A row without map lines and with nothing written is passed over: there is nothing to rewrite. -/
theorem State.doRepackRow_empty (hserve : s.chanServes c = true) (hrep : (s.chan c).repacking = true)
    (hmaps : mapLinesOfRow s.density (s.chan c).repackRow = [])
    (hlines : ∀ q ∈ linesOfRow s.density (s.chan c).repackRow, s.lineState c q ≠ .written)
    {errs : List (Nat × Nat × Byte)} (herrs : ∀ e ∈ errs, e.1 < 240) :
    s.doRepackRow c errs =
      (s.updChan c (Chan.repackNext s.density)).updChan c fun v => v.goOnScrub s.dev.ticks := by
  have hfold : errs.foldl (fun t e => if 240 * (s.chan c).repackRow + e.1 < chanLines t.density
      then t.addErrors c (240 * (s.chan c).repackRow + e.1) [(e.2.1, e.2.2)] else t) s = s :=
    foldl_eq_self fun e he => by
      split
      · next hin => exact State.addErrors_unwritten (hlines _ (mem_linesOfRow (herrs e he) hin)) _
      · rfl
  simp only [State.doRepackRow, hserve, hrep, Bool.not_true, Bool.or_self, Bool.false_eq_true, if_false, hfold,
    repackReads_unwritten hlines, hmaps, repackMaps, List.foldl_nil]
  rfl

end Repacking

/-! ### The statement -/

/-- Settles O36: refresh, retraining and its notice by their guards; a killed pin, a row on its spare and a row passed
over by what each changes of its channel. -/
theorem channelService : Obligations.ChannelService := by
  refine ⟨fun s c bank => ⟨rfl, fun hmay hdue => ⟨fun hmax => ?_, fun hmax => ?_⟩, fun hret => ?_,
      fun hmay hpoint => ?_⟩,
    fun s c pin => ⟨fun hr hk => ?_, fun hr hk => ?_, fun hr => ?_, fun row rest i hpow hunit hrun hfree => ?_,
      fun hserve hrep hmaps hlines errs herrs => ?_⟩⟩
  · exact congrArg Host.Outcome.next ((State.doRetrainStart_due hmay hdue).trans (if_pos hmax))
  · exact congrArg Host.Outcome.next ((State.doRetrainStart_due hmay hdue).trans (if_neg (Nat.not_le.mpr hmax)))
  · exact ⟨s.recordHold c.val, congrArg Host.Outcome.next (State.doRetrainEnd_held hret),
      s.recordHold_sameBut c.val, rfl⟩
  · exact congrArg Host.Outcome.next (if_pos (by simp [hmay, hpoint]))
  · exact congrArg Host.Outcome.next (State.doKillPin_killed hr hk pin.val)
  · have hchan := State.killPin_chan hk pin.val
    have hown : (s.killPin c.val pin.val).memDone.chan c.val = _ := (hchan c.val).trans (if_pos rfl)
    exact ⟨_, congrArg Host.Outcome.next (State.doKillPin_fresh hr hk pin.val), congrArg Chan.killed hown,
      congrArg Chan.repacking hown, congrArg Chan.repackRow hown, rfl,
      congrArg Still.dram (s.killPin_still c.val pin.val), State.killPin_host hk pin.val,
      fun k hne => (hchan k).trans (if_neg hne)⟩
  · exact congrArg Host.Outcome.next (if_pos hr)
  · have hnext := State.chan_updChan_same s c.val fun v => { v with pprRun := rest }
    have hspare := State.repairRow_spare (row := row) ((congrArg Chan.freeSpare hnext).trans hfree)
    refine ⟨_, congrArg Host.Outcome.next ((State.doHpprTimeout_running hpow hunit hrun).trans hspare), ?_, ?_, ?_, ?_⟩
    · simp [State.remapRow_chan]
    · simp [State.remapRow_chan, Tbl.get_put]
    · simp [State.remapRow_chan]
    · simp [State.remapRow_host]
  · refine ⟨_, congrArg Host.Outcome.next (State.doRepackRow_empty hserve hrep hmaps hlines herrs), rfl, ?_, ?_⟩
    · simp [Chan.repackNext]
    · simp [Chan.repackNext]

end Sys2Proof.Machine

/-! ## The manager's fills and copies (O45) -/

namespace Sys2Proof.Machine

set_option Elab.async false

/-! ### Fills (R261, R267) -/

section Fill
variable {s : State} {value : Nat} {port : Bool}

theorem State.doFill_stopped (hgo : bitAt value 63 = false) : s.doFill value port = s := by
  simp [State.doFill, hgo]

theorem State.doFill_overrun (hr : s.ready = true) (hgo : bitAt value 63 = true) (hbusy : s.dev.fillBusy = true) :
    s.doFill value port = { s with dev := { s.dev with fillOverrun := true } } := by
  simp [State.doFill, hr, hgo, hbusy]

theorem State.doFill_fails (hr : s.ready = true) (hgo : bitAt value 63 = true) (hidle : s.dev.fillBusy = false)
    {r : Nat} (hcheck : s.fillCheck value s.dev.fillDst.toNat = .inl r) : s.doFill value port = s.fillEnd r := by
  simp [State.doFill, hr, hgo, hidle, hcheck]

theorem State.doFill_starts (hr : s.ready = true) (hgo : bitAt value 63 = true) (hidle : s.dev.fillBusy = false)
    {d : Nat} (hcheck : s.fillCheck value s.dev.fillDst.toNat = .inr d) :
    s.doFill value port = { s with dev := { s.dev with
      fillBusy := true, fillCtl := BitVec.ofNat 64 value, fillPort := port
      fillFrom := (s.dev.fillSrc.toNat, s.dev.fillDst.toNat) } } := by
  simp [State.doFill, hr, hgo, hidle, hcheck]

variable (hr : s.ready = true) (hbusy : s.dev.fillBusy = true) {reply : HostReply}
include hr hbusy

theorem State.doFillDone_fails {r : Nat} (hcheck : s.fillCheck s.dev.fillCtl.toNat s.dev.fillFrom.2 = .inl r) :
    s.doFillDone reply = s.fillEnd r := by
  simp [State.doFillDone, hr, hbusy, hcheck]

variable {dpa : Nat} (hcheck : s.fillCheck s.dev.fillCtl.toNat s.dev.fillFrom.2 = .inr dpa)
include hcheck

theorem State.doFillDone_unread (hdata : s.hostData s.dev.fillPort reply = none) :
    s.doFillDone reply = s.fillEnd 4 := by
  simp [State.doFillDone, hr, hbusy, hcheck, hdata]

/-- The lines written, the fill ends well, or at the shield that answered. -/
theorem State.doFillDone_writes {b : Bytes} (hdata : s.hostData s.dev.fillPort reply = some b) :
    s.doFillDone reply =
      let w := writeLines (portPlace s.dev.fillPort) true b dpa (fillLen s.dev.fillCtl.toNat / 128) 0
        (s.inClass (fillClass s.dev.fillCtl.toNat))
      w.1.fillEnd (if w.2 = .ok then 0 else 5) := by
  simp only [State.doFillDone, hr, hbusy, Bool.not_true, Bool.or_self, Bool.false_eq_true, if_false, hcheck, hdata]
  generalize writeLines _ _ _ _ _ _ _ = w
  obtain ⟨t, _ | _⟩ := w <;> rfl

end Fill

/-! ### Copies (R366, R373) -/

section Copy
variable {s : State} {value : Nat} {port : Bool}

theorem State.doMigCopy_overrun (hr : s.ready = true) (hbusy : s.mig.copyBusy = true) :
    s.doMigCopy value port = { s with mig := { s.mig with copyOverrun := true } } := by
  simp [State.doMigCopy, hr, hbusy]

theorem State.doMigCopy_stopped (hr : s.ready = true) (hidle : s.mig.copyBusy = false) (hgo : bitAt value 63 = false) :
    s.doMigCopy value port = s := by
  simp [State.doMigCopy, hr, hidle, hgo]

/-- No line of the copy that is asked for has been poisoned yet. -/
def State.copyCleared (s : State) : State := { s with mig := { s.mig with copyPoisoned := 0 } }

/-- A copy that is asked for fails its check, or begins. -/
theorem State.doMigCopy_asked (hr : s.ready = true) (hidle : s.mig.copyBusy = false) (hgo : bitAt value 63 = true) :
    s.doMigCopy value port =
      if !s.copyOk value s.mig.copySrc.toNat s.mig.copyDst.toNat then s.copyCleared.copyEnd 1
      else { s.copyCleared with mig := { s.copyCleared.mig with
        copyBusy := true, copyCtl := BitVec.ofNat 64 value, copyPort := port
        copyFrom := (s.mig.copySrc.toNat, s.mig.copyDst.toNat) } } :=
  (if_neg (by simp [hr])).trans ((if_neg (by simp [hidle])).trans (if_neg (by simp [hgo])))

variable {reply : HostReply}

theorem State.doMigCopyDone_fails (hr : s.ready = true) (hbusy : s.mig.copyBusy = true)
    (hcheck : s.copyOk s.mig.copyCtl.toNat s.mig.copyFrom.1 s.mig.copyFrom.2 = false) :
    s.doMigCopyDone reply = s.copyEnd 1 := by
  simp [State.doMigCopyDone, hr, hbusy, hcheck]

theorem State.doMigCopyDone_works (hr : s.ready = true) (hbusy : s.mig.copyBusy = true)
    (hcheck : s.copyOk s.mig.copyCtl.toNat s.mig.copyFrom.1 s.mig.copyFrom.2 = true) :
    s.doMigCopyDone reply = s.copyWork reply := by
  simp [State.doMigCopyDone, hr, hbusy, hcheck]

/-- The work of a copy that has run ends it well, or at the shield that answered. -/
def State.copyRun (s : State) (work : State → State × CopyEnd) : State :=
  (work (s.inClass 7)).1.copyEnd (if (work (s.inClass 7)).2 = .ok then 0 else 3)

theorem State.copyWork_poison (hp : mcPoison s.mig.copyCtl.toNat = true) :
    s.copyWork reply = s.copyRun (copyPoison s.mig.copyFrom.2 (mcLen s.mig.copyCtl.toNat / 128) 0) :=
  if_pos hp

variable (hp : mcPoison s.mig.copyCtl.toNat = false)
include hp

theorem State.copyWork_unread (hdata : s.hostData s.mig.copyPort reply = none) :
    s.copyWork reply = (s.inClass 7).copyEnd 2 := by
  have hdata' : (s.inClass 7).hostData s.mig.copyPort reply = none := hdata
  simp [State.copyWork, hp, hdata']

variable {b : Bytes} (hdata : s.hostData s.mig.copyPort reply = some b)
include hdata

theorem State.copyWork_in (hto : mcToDevice s.mig.copyCtl.toNat = true) :
    s.copyWork reply = s.copyRun (copyIn s.mig.copyPort (mcElide s.mig.copyCtl.toNat) b s.mig.copyFrom.2
      (mcLen s.mig.copyCtl.toNat / 128) 0) := by
  have hdata' : (s.inClass 7).hostData s.mig.copyPort reply = some b := hdata
  simp only [State.copyWork, State.inClass_mig, hp, hdata', hto, Bool.false_eq_true, if_true, if_false]
  rfl

theorem State.copyWork_out (hto : mcToDevice s.mig.copyCtl.toNat = false) :
    s.copyWork reply = s.copyRun (copyOut (mcSlice s.mig.copyCtl.toNat) s.mig.copyPort s.mig.copyFrom.1 s.mig.copyFrom.2
      (mcLen s.mig.copyCtl.toNat / 128) 0) := by
  have hdata' : (s.inClass 7).hostData s.mig.copyPort reply = some b := hdata
  simp only [State.copyWork, State.inClass_mig, hp, hdata', hto, Bool.false_eq_true, if_false]
  rfl

end Copy

/-- Settles O45: a fill or copy is checked as it is asked for and again as its data lands (notes/assumptions/56.md); its
work then ends it with a RESULT. -/
theorem fillsAndCopies : Obligations.FillsAndCopies := by
  intro s v port hr
  refine ⟨fun hgo => ?_, fun hgo hbusy => ?_, fun hgo hidle r hcheck => ?_, fun hgo hidle d hcheck => ?_,
    fun hbusy reply dpa hcheck => ⟨fun hdata => ?_, fun b hdata hthrough => ?_⟩, fun hbusy reply r hcheck => ?_,
    fun hbusy => ?_, fun hidle hgo => ?_, fun hidle hgo => ⟨fun hbad => ?_, fun hok => ?_⟩, fun hbusy hbad reply => ?_,
    fun hbusy hok reply => ?_⟩
  · exact congrArg Host.Outcome.next (State.doFill_stopped hgo)
  · exact congrArg Host.Outcome.next (State.doFill_overrun hr hgo hbusy)
  · exact congrArg Host.Outcome.next (State.doFill_fails hr hgo hidle hcheck)
  · refine congrArg Host.Outcome.next ((State.doFill_starts hr hgo hidle hcheck).trans ?_)
    rw [BitVec.ofNat_toNat, BitVec.setWidth_eq]
  · exact congrArg Host.Outcome.next
      ((State.settled_ended (State.doFillDone_unread (s := s.begun) hr hbusy hcheck hdata) rfl).trans rfl)
  · exact congrArg Host.Outcome.next
      (State.settled_through (State.doFillDone_writes (s := s.begun) hr hbusy hcheck hdata) hthrough)
  · exact congrArg Host.Outcome.next
      ((State.settled_ended (State.doFillDone_fails (s := s.begun) hr hbusy hcheck) rfl).trans rfl)
  · exact congrArg Host.Outcome.next (State.doMigCopy_overrun hr hbusy)
  · exact congrArg Host.Outcome.next (State.doMigCopy_stopped hr hidle hgo)
  · exact congrArg Host.Outcome.next ((State.doMigCopy_asked hr hidle hgo).trans (if_pos (by simp [hbad])))
  · refine congrArg Host.Outcome.next ((State.doMigCopy_asked hr hidle hgo).trans ((if_neg (by simp [hok])).trans ?_))
    rw [BitVec.ofNat_toNat, BitVec.setWidth_eq]
    rfl
  · exact congrArg Host.Outcome.next
      ((State.settled_ended (State.doMigCopyDone_fails (s := s.begun) hr hbusy hbad) rfl).trans rfl)
  · have hworks := State.doMigCopyDone_works (s := s.begun) (reply := reply) hr hbusy hok
    refine ⟨fun hp hthrough => ?_, fun hp hdata => ?_,
      fun hp b hdata => ⟨fun hto hthrough => ?_, fun hto hthrough => ?_⟩⟩
    · exact congrArg Host.Outcome.next
        (State.settled_through (hworks.trans (State.copyWork_poison (s := s.begun) hp)) hthrough)
    · exact congrArg Host.Outcome.next
        ((State.settled_ended (hworks.trans (State.copyWork_unread (s := s.begun) hp hdata)) rfl).trans rfl)
    · exact congrArg Host.Outcome.next
        (State.settled_through (hworks.trans (State.copyWork_in (s := s.begun) hp hdata hto)) hthrough)
    · exact congrArg Host.Outcome.next
        (State.settled_through (hworks.trans (State.copyWork_out (s := s.begun) hp hdata hto)) hthrough)

end Sys2Proof.Machine

/-! ## The link layer (O55) -/

namespace Sys2Proof.Machine

set_option Elab.async false

/-! ### Ports and the TIME master -/

theorem State.portUp_iff {s : State} {p : Nat} :
    s.portUp p = true ↔ s.powered = true ∧ (s.port p).state = .up ∧ (s.port p).unit = .up := by
  simp [State.portUp, and_assoc]

theorem State.withSweld_sameBut (s : State) (v : Sweld) : s.sameBut { s with sweld := v } [.sweld] := by
  intro p hp
  cases p with
  | sweld => exact absurd List.mem_cons_self hp
  | _ => rfl

theorem State.updPort_sameBut (s : State) (p : Nat) (f : Port → Port) : s.sameBut (s.updPort p f) [.sweld] :=
  s.withSweld_sameBut _

/-- Choosing the TIME master again (R284) leaves all but Sweld alone. -/
theorem State.remaster_sameBut (s : State) : s.sameBut s.remaster [.sweld] := by
  unfold State.remaster
  dsimp only
  split
  · exact s.sameBut_refl _
  · exact s.withSweld_sameBut _

@[simp] theorem State.remaster_port (s : State) (k : Nat) : s.remaster.port k = s.port k := by
  unfold State.remaster
  dsimp only
  split <;> rfl

@[simp] theorem State.remaster_outs (s : State) : s.remaster.sweld.outs = s.sweld.outs := by
  unfold State.remaster
  dsimp only
  split <;> rfl

@[simp] theorem State.remaster_ins (s : State) : s.remaster.sweld.ins = s.sweld.ins := by
  unfold State.remaster
  dsimp only
  split <;> rfl

/-- A port changes and the TIME master is chosen again, as when a link comes up or goes down. -/
theorem State.updPort_remaster_sameBut (s : State) (p : Nat) (f : Port → Port) :
    s.sameBut (s.updPort p f).remaster [.sweld] :=
  (s.updPort_sameBut p f).trans (State.remaster_sameBut _)

theorem State.updPort_remaster_port_same (s : State) (p : Nat) (f : Port → Port) :
    (s.updPort p f).remaster.port p = f (s.port p) := by
  simp

theorem State.updPort_remaster_port_ne (s : State) {p k : Nat} (hne : k ≠ p) (f : Port → Port) :
    (s.updPort p f).remaster.port k = s.port k := by
  simp [State.port_updPort, hne]

@[simp] theorem State.updPort_outs (s : State) (p : Nat) (f : Port → Port) :
    (s.updPort p f).sweld.outs = s.sweld.outs := rfl

@[simp] theorem State.updPort_ins (s : State) (p : Nat) (f : Port → Port) :
    (s.updPort p f).sweld.ins = s.sweld.ins := rfl

theorem State.insOn_nil {s : State} (h : s.sweld.ins = []) (p : Nat) : s.insOn p = [] := by
  simp [State.insOn, h]

theorem State.outsOn_nil {s : State} (h : s.sweld.outs = []) (p : Nat) : s.outsOn p = [] := by
  simp [State.outsOn, h]

section Link
variable {s : State} {p : Nat}

/-! ### Training and recovery (R268, R272) -/

/-- The port of a link that training has brought up. -/
def Port.trained (v : Port) (lanes : Byte) (pkg far : Nat) : Port :=
  { (v.freshLink).setLanes lanes with state := .up, remotePkg := pkg, remotePort := far, remoteValid := true }

theorem State.doPortTrained_training (hpow : s.powered = true) (hstate : (s.port p).state = .training)
    (hunit : (s.port p).unit = .up) (lanes : Byte) (pkg far : Nat) :
    s.doPortTrained p lanes pkg far = (s.updPort p fun v => v.trained lanes pkg far).remaster :=
  if_pos (by simp [hpow, hstate, hunit])

/-- The port of a link that has begun to recover. -/
def Port.recovering (v : Port) (now : Nat) : Port :=
  { v.freshLink with state := .recovering, recoverFrom := now, recoveries := satAdd 16 v.recoveries 1 }

theorem State.recover_eq (s : State) (p : Nat) : s.recover p = (s.updPort p fun v => v.recovering s.time).remaster := rfl

theorem State.recover_port (s : State) (p : Nat) : (s.recover p).port p = (s.port p).recovering s.time :=
  s.updPort_remaster_port_same p _

/-- A recovered port that holds no stream and owes no ABORT has nothing to send again. -/
theorem State.doLinkRecovered_noStreams (hpow : s.powered = true) (hstate : (s.port p).state = .recovering)
    (hunit : (s.port p).unit = .up) (houts : s.sweld.outs = []) (hins : s.sweld.ins = [])
    (haborts : (s.port p).aborts = []) (lanes : Byte) :
    s.doLinkRecovered p lanes = (s.updPort p fun v => { (v.freshLink).setLanes lanes with state := .up }).remaster := by
  simp [State.doLinkRecovered, hpow, hstate, hunit, haborts, State.insOn_nil, hins, State.outsOn_nil, houts]

theorem State.doRecoveryTimeout_early (h : s.time < (s.port p).recoverFrom + 20000000) :
    s.doRecoveryTimeout p = s :=
  if_neg (by simp [Nat.not_le.mpr h])

theorem State.doRecoveryTimeout_due (hpow : s.powered = true) (hstate : (s.port p).state = .recovering)
    (hunit : (s.port p).unit ≠ .resetting) (h : (s.port p).recoverFrom + 20000000 ≤ s.time) :
    s.doRecoveryTimeout p = s.startPort p false :=
  if_pos (by simp [hpow, hstate, hunit, h])

/-! ### Retry (R271) -/

theorem State.doReplayTimeout_early (h : (s.port p).replay = [] ∨ s.time < (s.port p).progress + 2000) :
    s.doReplayTimeout p = s :=
  if_neg (by rcases h with h | h <;> simp [h])

theorem State.doReplayTimeout_due (hup : s.portUp p = true) (hrep : (s.port p).replay ≠ [])
    (h : (s.port p).progress + 2000 ≤ s.time) : s.doReplayTimeout p = s.resend p :=
  if_pos (by simp [hup, hrep, h])

/-- A flit that would be resent an eighth time in a row brings link recovery. -/
theorem State.resend_recovers (h : ∃ f ∈ (s.port p).replay, 7 ≤ f.resends) :
    ((s.resend p).port p).state = .recovering := by
  have hany : (s.port p).replay.any (fun f => decide (7 ≤ f.resends)) = true := by simpa using h
  simp only [State.resend, hany, if_true, State.recover_port]
  rfl

theorem State.nakOnce_sent (h : (s.port p).nakSent = true) : s.nakOnce p = s := if_pos h

/-! ### Flits received (R270, R271) -/

/-- The symbols that the FEC corrected are counted. -/
def State.countFec (s : State) (p k : Nat) : State :=
  s.updPort p fun v => { v with fecCorrected := satAdd 32 v.fecCorrected k }

/-- What a good flit does once its acknowledgement, credits and NAK are taken, and the link is still up. -/
def State.takeBody (s : State) (p : Nat) (flit : Bytes) : State :=
  let ftype := leAt flit 0 2 / 4096
  let ahead := (BitVec.ofNat 12 (leAt flit 0 2) - (s.port p).rxSeq).toNat
  if ftype = 0 then s.pump p
  else if 2 < ftype then s
  else if ahead = 0 then
    let t := (s.acceptFlit p (ftype == 2) (bytesAt flit 12 240)).pump p
    if t.portUp p then t.sendIdle p false else t
  else if ahead < 2048 then s.nakOnce p
  else s.sendIdle p false

variable {flit : Bytes} {fecOk : Bool} {k : Nat}

theorem State.doFlit_up (hup : s.portUp p = true) : s.doFlit p flit fecOk k =
    let t := (s.countFec p k).takeHeader p flit
    if !fecOk || decide (leAt flit 252 4 ≠ (crc32c (flit.take 252)).toNat) then (s.countFec p k).nakOnce p
    else if !t.portUp p then t
    else t.takeBody p flit :=
  if_neg (by simp [hup])

theorem State.doFlit_damaged (hup : s.portUp p = true)
    (h : fecOk = false ∨ ¬ leAt flit 252 4 = (crc32c (flit.take 252)).toNat) :
    s.doFlit p flit fecOk k = (s.countFec p k).nakOnce p :=
  (State.doFlit_up hup).trans (if_pos (by rcases h with h | h <;> simp [h]))

theorem State.doFlit_good (hup : s.portUp p = true) (hfec : fecOk = true)
    (hcrc : leAt flit 252 4 = (crc32c (flit.take 252)).toNat)
    (hstill : ((s.countFec p k).takeHeader p flit).portUp p = true) :
    s.doFlit p flit fecOk k = ((s.countFec p k).takeHeader p flit).takeBody p flit :=
  (State.doFlit_up hup).trans ((if_neg (by simp [hfec, hcrc])).trans (if_neg (by simp [hstill])))

theorem State.takeBody_idle (hty : leAt flit 0 2 / 4096 = 0) : s.takeBody p flit = s.pump p := if_pos hty

section Payload
variable {ty : Nat} (hpay : ty = 1 ∨ ty = 2) (hty : leAt flit 0 2 / 4096 = ty)
include hpay hty

/-- A flit of CTRL or DATA is judged by how far its LSEQ lies ahead of the next to accept. -/
theorem State.takeBody_payload : s.takeBody p flit =
    let ahead := (BitVec.ofNat 12 (leAt flit 0 2) - (s.port p).rxSeq).toNat
    let t := (s.acceptFlit p (ty == 2) (bytesAt flit 12 240)).pump p
    if ahead = 0 then if t.portUp p then t.sendIdle p false else t
    else if ahead < 2048 then s.nakOnce p else s.sendIdle p false := by
  have hnot0 : ¬ ty = 0 := by omega
  have hle : ¬ 2 < ty := by omega
  simp only [State.takeBody, hty, if_neg hnot0, if_neg hle]

theorem State.takeBody_expected (h : (BitVec.ofNat 12 (leAt flit 0 2) - (s.port p).rxSeq).toNat = 0) :
    s.takeBody p flit =
      let t := (s.acceptFlit p (ty == 2) (bytesAt flit 12 240)).pump p
      if t.portUp p then t.sendIdle p false else t :=
  (State.takeBody_payload hpay hty).trans (if_pos h)

theorem State.takeBody_early (h0 : 0 < (BitVec.ofNat 12 (leAt flit 0 2) - (s.port p).rxSeq).toNat)
    (h : (BitVec.ofNat 12 (leAt flit 0 2) - (s.port p).rxSeq).toNat < 2048) : s.takeBody p flit = s.nakOnce p :=
  (State.takeBody_payload hpay hty).trans ((if_neg h0.ne').trans (if_pos h))

theorem State.takeBody_repeated (h : 2048 ≤ (BitVec.ofNat 12 (leAt flit 0 2) - (s.port p).rxSeq).toNat) :
    s.takeBody p flit = s.sendIdle p false :=
  (State.takeBody_payload hpay hty).trans ((if_neg (by omega)).trans (if_neg (Nat.not_lt.mpr h)))

end Payload

end Link

/-! ### The statement -/

/-- Settles O55: a link that comes up or recovers changes its own port and the choice of the TIME master; a flit is judged
by its check, then its type, then its LSEQ. -/
theorem linkLayer : Obligations.LinkLayer := by
  intro s p n v
  refine ⟨fun lanes pkg far hpow hstate hunit => ?_, fun hup => ?_,
    fun lanes hpow hstate hunit houts hins haborts => ?_, fun hpow hstate hunit => ⟨fun hearly => ?_, fun hdue => ?_⟩,
    fun hup => ⟨fun hearly => ?_, fun hrep hdue => ?_, State.resend_recovers⟩, fun mt hup => ?_,
    fun flit fecOk k hup => ⟨fun hbad => ?_, fun hfec hgood hstill => ⟨fun hty => ?_, fun ty hpay hty =>
      ⟨fun hahead => ?_, fun hpos hahead => ?_, fun hahead => ?_⟩⟩, State.nakOnce_sent⟩⟩
  · exact ⟨_, congrArg Host.Outcome.next (State.doPortTrained_training hpow hstate hunit lanes pkg.toNat far.toNat),
      s.updPort_remaster_port_same n _, fun k hne => s.updPort_remaster_port_ne hne _, s.updPort_remaster_sameBut n _⟩
  · exact ⟨s.recover n, congrArg Host.Outcome.next (if_pos hup), s.updPort_remaster_sameBut n _, s.recover_port n,
      State.remaster_outs _, State.remaster_ins _⟩
  · exact ⟨_, congrArg Host.Outcome.next (State.doLinkRecovered_noStreams hpow hstate hunit houts hins haborts lanes),
      s.updPort_remaster_sameBut n _, s.updPort_remaster_port_same n _⟩
  · exact congrArg Host.Outcome.next (State.doRecoveryTimeout_early hearly)
  · exact congrArg Host.Outcome.next (State.doRecoveryTimeout_due hpow hstate hunit hdue)
  · exact congrArg Host.Outcome.next (State.doReplayTimeout_early hearly)
  · exact congrArg Host.Outcome.next (State.doReplayTimeout_due hup hrep hdue)
  · exact congrArg Host.Outcome.next (if_pos hup)
  · exact congrArg Host.Outcome.next (State.doFlit_damaged hup hbad)
  all_goals have hbody := State.doFlit_good (s := s) (k := k) hup hfec hgood hstill
  · exact congrArg Host.Outcome.next (hbody.trans (State.takeBody_idle hty))
  · exact ⟨_, rfl, congrArg Host.Outcome.next (hbody.trans (State.takeBody_expected hpay hty hahead))⟩
  · exact congrArg Host.Outcome.next (hbody.trans (State.takeBody_early hpay hty hpos hahead))
  · exact congrArg Host.Outcome.next (hbody.trans (State.takeBody_repeated hpay hty hahead))

end Sys2Proof.Machine

/-! ## Peer and accept entries (O57) -/

namespace Sys2Proof.Machine

set_option Elab.async false

section Peers
variable {s : State} {slice index pkg remote cls cq : Nat} {valid : Bool} (hr : s.ready = true)
include hr

/-! ### PEER (R293) -/

theorem State.doPeer_off (hoff : (s.slice slice).state = .off) :
    s.doPeer slice index pkg remote valid = s.peerResult 1 := by
  simp [State.doPeer, hr, hoff]

theorem State.doPeer_sets (hon : (s.slice slice).state ≠ .off) :
    s.doPeer slice index pkg remote valid = (s.updSlice slice fun v => { v with
      peers := Tbl.set {} v.peers index
        (if valid then { pkg := pkg, remote := remote, valid := true } else {}) }).peerResult 0 := by
  simp [State.doPeer, hr, hon]

/-! ### ACCEPT (R293) -/

theorem State.doAccept_off (hoff : (s.slice slice).state = .off) :
    s.doAccept slice index pkg remote valid cls cq = s.peerResult 1 := by
  simp [State.doAccept, hr, hoff]

variable (hon : (s.slice slice).state ≠ .off)
include hon

theorem State.doAccept_classNotPermitted (hcls : bitAt (s.slice slice).defn.classMask cls = false) :
    s.doAccept slice index pkg remote valid cls cq = s.peerResult 2 := by
  simp [State.doAccept, hr, hon, hcls]

variable (hcls : bitAt (s.slice slice).defn.classMask cls = true)
include hcls

theorem State.doAccept_duplicate (hvalid : valid = true)
    (hdup : ∃ e ∈ (s.slice slice).accepts, e.1 ≠ index ∧ e.2.valid = true ∧ e.2.pkg = pkg ∧ e.2.remote = remote) :
    s.doAccept slice index pkg remote valid cls cq = s.peerResult 3 := by
  obtain ⟨e, he, hindex, hev, hpkg, hremote⟩ := hdup
  have hany : (s.slice slice).accepts.any (fun e => decide (e.1 ≠ index) && e.2.valid && decide (e.2.pkg = pkg)
      && decide (e.2.remote = remote)) = true :=
    List.any_eq_true.mpr ⟨e, he, by simp [hindex, hev, hpkg, hremote]⟩
  simp only [State.doAccept, hr, hon, hcls, hvalid, hany, Bool.not_true, Bool.and_self, Bool.false_eq_true, if_false,
    if_true]

theorem State.doAccept_sets (hnew : valid = false ∨ ∀ e ∈ (s.slice slice).accepts,
      e.1 = index ∨ e.2.valid = false ∨ e.2.pkg ≠ pkg ∨ e.2.remote ≠ remote) :
    s.doAccept slice index pkg remote valid cls cq = (s.updSlice slice fun v => { v with
      accepts := Tbl.set {} v.accepts index
        (if valid then { pkg := pkg, remote := remote, valid := true, cls := cls, cq := cq } else {}) }).peerResult 0 := by
  have hany : (valid && (s.slice slice).accepts.any (fun e => decide (e.1 ≠ index) && e.2.valid
      && decide (e.2.pkg = pkg) && decide (e.2.remote = remote))) = false := by
    rcases hnew with hnew | hnew
    · simp [hnew]
    · refine Bool.and_eq_false_iff.mpr (.inr (List.any_eq_false.mpr fun e he => ?_))
      rcases hnew e he with h | h | h | h <;> simp [h]
  simp only [State.doAccept, hr, hon, hcls, hany, Bool.not_true, Bool.false_eq_true, if_false]

end Peers

/-! ### The statement -/

/-- Settles O57: the checks of SWD_PEER_CTL are made in order, and the entry is set once all of them pass. -/
theorem peersAndAccepts : Obligations.PeersAndAccepts := by
  intro s i k pkg far valid cls cq hr
  refine ⟨fun hoff => ⟨?_, ?_⟩, fun hon => ⟨⟨_, ?_, rfl⟩, fun hcls => ?_, fun hcls hvalid hdup => ?_,
    fun hcls hnew => ⟨_, ?_, rfl⟩⟩⟩
  all_goals refine congrArg Host.Outcome.next ?_
  · exact State.doPeer_off hr hoff
  · exact State.doAccept_off hr hoff
  · exact State.doPeer_sets hr hon
  · exact State.doAccept_classNotPermitted hr hon hcls
  · exact State.doAccept_duplicate hr hon hcls hvalid hdup
  · exact State.doAccept_sets hr hon hcls hnew

end Sys2Proof.Machine

/-! ## Streams open (O58) -/

namespace Sys2Proof.Machine

set_option Elab.async false

/-- A message at an UP port takes its effect. -/
theorem State.atPort_up {s : State} {p : Nat} (hup : s.portUp p = true) (f : State → State) : s.atPort p f = f s :=
  if_pos hup

section Open
variable {s : State} {p n : Nat}

/-! ### OPEN at the receiver (R276) -/

theorem State.rxOpen_held (hheld : (s.inStream p n).isSome = true) (b : OpenBody) :
    s.rxOpen p n b = s.sendMsg p mtOpenAck n 0 [] :=
  if_pos hheld

/-- The stream that an OPEN which passes its checks opens. -/
def InStream.ofOpen (b : OpenBody) (a : Peer) (buffer : Option Nat) (now : Nat) : InStream :=
  { src := b.src.toNat, dst := b.dst.toNat, arrival := b.arrival, flag := b.flag, dest := b.dest, len := b.len
    flagAddr := b.flagAddr, tag := b.tag, cls := a.cls, cq := a.cq, buffer := buffer, reportTime := now }

variable {b : OpenBody} (hnew : s.inStream p n = none) (hon : (s.port p).mgmt = .on)
include hnew hon

theorem State.rxOpen_refused {r : Nat} (hbad : s.openReason p b (s.acceptFor p b) = some r) :
    s.rxOpen p n b = (s.countRefused b.dst.toNat (r == 7 || r == 8)).sendMsg p mtRefuse n r [] := by
  simp [State.rxOpen, hnew, hon, hbad]

variable (hok : s.openReason p b (s.acceptFor p b) = none)
include hok

theorem State.rxOpen_memory (hmem : b.arrival = false) :
    s.rxOpen p n b =
      (s.setIn p n (InStream.ofOpen b ((s.acceptFor p b).getD {}) none s.time)).sendMsg p mtOpenAck n 0 [] := by
  simp [State.rxOpen, hnew, hon, hok, hmem, InStream.ofOpen]

theorem State.rxOpen_buffer (harr : b.arrival = true) {m : Nat} (hfree : s.freeBufferFor p = some m) :
    s.rxOpen p n b = ((s.allocBuffer m b.dst.toNat).setIn p n
      (InStream.ofOpen b ((s.acceptFor p b).getD {}) (some m) s.time)).sendMsg p mtOpenAck n 0 [] := by
  simp [State.rxOpen, hnew, hon, hok, harr, hfree, InStream.ofOpen, State.allocBuffer]

end Open

/-- An arrival is refused where no buffer is free, so one that passes the open checks finds a buffer. -/
theorem State.openReason_noBuffer {s : State} {p : Nat} {b : OpenBody} (harr : b.arrival = true)
    (hnone : s.freeBufferFor p = none) (e : Option Peer) : s.openReason p b e ≠ none := by
  cases e with
  | none => exact Option.some_ne_none 3
  | some e =>
    simp only [State.openReason, harr, hnone, Option.isNone_none, Bool.and_self, if_true]
    split_ifs <;> exact Option.some_ne_none _

/-! ### OPEN_ACK, REFUSE and BUSY at the sender (R276, R280) -/

section Sender
variable {s : State} {p n : Nat}

theorem State.rxOpenAck_none (hnone : s.outStream p n = none) : s.rxOpenAck p n = s := by
  simp [State.rxOpenAck, hnone]

theorem State.rxRefuse_none (hnone : s.outStream p n = none) (reason : Nat) : s.rxRefuse p n reason = s := by
  simp [State.rxRefuse, hnone]

section Unopened
variable {o : OutStream} (hout : s.outStream p n = some o) (hopen : o.opened = false)
include hout hopen

theorem State.rxOpenAck_opens : s.rxOpenAck p n = s.setOut p n { o with opened := true, busyAt := none } := by
  simp [State.rxOpenAck, hout, hopen]

theorem State.rxRefuse_busy : s.rxRefuse p n 9 = s.setOut p n { o with busyAt := some s.time } := by
  simp [State.rxRefuse, hout, hopen]

theorem State.rxRefuse_ends {reason : Nat} (hne : reason ≠ 9) :
    s.rxRefuse p n reason = (s.delOut p n).refuseSend o.cmd reason := by
  simp [State.rxRefuse, hout, hopen, hne]

end Unopened

/-- BUSY_RETRY for a stream that has met BUSY. -/
theorem State.doBusyRetry_busy {id t0 : Nat} {o : OutStream} (hup : s.portUp p = true)
    (hstream : s.streamOf id = some (p, n, o)) (hbusy : o.busyAt = some t0) : s.doBusyRetry id =
      if o.firstOpen + 1000000 ≤ s.time then (s.delOut p n).refuseSend id 9
      else if t0 + 10000 ≤ s.time then (s.setOut p n { o with busyAt := none }).sendOpenMsg p n id o.remote
      else s := by
  simp [State.doBusyRetry, hstream, hbusy, hup]

end Sender

/-! ### The statement -/

/-- Settles O58: an OPEN is answered by whether its stream is held and by its first failing check; OPEN_ACK, REFUSE and
BUSY_RETRY act on the outbound stream as it stands. -/
theorem streamsOpen : Obligations.StreamsOpen := by
  intro s p n hup k q
  have hmsg := fun f => congrArg (Host.Outcome.next (φ := Fault) (ρ := Refusal)) (State.atPort_up hup f)
  refine ⟨fun b => ⟨fun hheld => ?_, fun hnew hon r hbad => ?_, fun hnew hon hok hmem => ?_,
      fun hnew hon hok harr => ?_⟩,
    fun hnone => ⟨?_, fun r => ?_⟩, fun o hout hopen => ⟨?_, ?_, fun r hne => ?_⟩,
    fun id o t0 hstream hbusy => ?_⟩
  · exact (hmsg _).trans (congrArg _ (State.rxOpen_held hheld b))
  · exact (hmsg _).trans (congrArg _ (State.rxOpen_refused hnew hon hbad))
  · exact ⟨_, _, (hmsg _).trans (congrArg _ (State.rxOpen_memory hnew hon hok hmem)), rfl,
      rfl, rfl, rfl, rfl, rfl, rfl, rfl, rfl, rfl, rfl⟩
  · obtain ⟨m, hfree⟩ := Option.ne_none_iff_exists'.mp fun hnone => State.openReason_noBuffer harr hnone _ hok
    exact ⟨_, m, _, (hmsg _).trans (congrArg _ (State.rxOpen_buffer hnew hon hok harr hfree)), hfree, rfl, rfl⟩
  · exact (hmsg _).trans (congrArg _ (State.rxOpenAck_none hnone))
  · exact (hmsg _).trans (congrArg _ (State.rxRefuse_none hnone r.toNat))
  · exact (hmsg _).trans (congrArg _ (State.rxOpenAck_opens hout hopen))
  · exact (hmsg _).trans (congrArg _ (State.rxRefuse_busy hout hopen))
  · have hreason : r.toNat ≠ 9 := fun h => hne (BitVec.eq_of_toNat_eq h)
    exact (hmsg _).trans (congrArg _ (State.rxRefuse_ends hout hopen hreason))
  · have hretry := State.doBusyRetry_busy hup hstream hbusy
    refine ⟨fun hlate => ?_, fun hin hdue => ?_, fun hin hearly => ?_⟩
    · exact congrArg Host.Outcome.next (hretry.trans (if_pos hlate))
    · exact congrArg Host.Outcome.next (hretry.trans ((if_neg (Nat.not_le.mpr hin)).trans (if_pos hdue)))
    · exact congrArg Host.Outcome.next
        (hretry.trans ((if_neg (Nat.not_le.mpr hin)).trans (if_neg (Nat.not_le.mpr hearly))))

end Sys2Proof.Machine

/-! ## Members, capstones and the end of a stream (O59) -/

namespace Sys2Proof.Machine

set_option Elab.async false

/-- A message at an UP port, in a step whose accesses can wait. -/
theorem State.settled_atPort {s v : State} {p : Nat} {f : State → State} (hup : s.portUp p = true) (h : f s.begun = v)
    (k : v.uc.held = false) : s.settled (fun s => s.atPort p f) = s.ended v :=
  State.settled_ended ((State.atPort_up (s := s.begun) hup f).trans h) k

/-- A step that leaves the state it began in changes nothing. -/
theorem State.settled_unchanged {s : State} {f : State → State} (h : f s.begun = s.begun) : s.settled f = s :=
  (State.settled_ended h rfl).trans s.ended_begun

theorem State.settled_atPort_unchanged {s : State} {p : Nat} {f : State → State} (hup : s.portUp p = true)
    (h : f s.begun = s.begun) : s.settled (fun s => s.atPort p f) = s :=
  State.settled_unchanged ((State.atPort_up (s := s.begun) hup f).trans h)

/-! ### The members landed in order (R277) -/

theorem advancePrefix_landed_le (fuel : Nat) (i : InStream) : i.landed ≤ (advancePrefix fuel i).landed := by
  induction fuel generalizing i with
  | zero => exact Nat.le_refl _
  | succ fuel ih =>
    rw [advancePrefix]
    split
    · exact Nat.le_trans (Nat.le_succ _) (ih { i with landed := i.landed + 1, marks := i.marks >>> 1 })
    · exact Nat.le_refl _

/-- The landed count moves over marked members only. -/
theorem advancePrefix_marked {fuel x : Nat} {i : InStream} (hlo : i.landed ≤ x)
    (hhi : x < (advancePrefix fuel i).landed) : i.marks.getLsbD (x - i.landed) = true := by
  induction fuel generalizing i with
  | zero => exact absurd hhi (Nat.not_lt.mpr hlo)
  | succ fuel ih =>
    rw [advancePrefix] at hhi
    split at hhi
    · next hfirst =>
      rcases Nat.eq_or_lt_of_le hlo with heq | hlt
      · rwa [← heq, Nat.sub_self]
      · have hrest := ih (i := { i with landed := i.landed + 1, marks := i.marks >>> 1 }) hlt hhi
        rwa [BitVec.getLsbD_ushiftRight, show 1 + (x - (i.landed + 1)) = x - i.landed by omega] at hrest
    · exact absurd hhi (Nat.not_lt.mpr hlo)

/-- Nothing of a stream but its landed count and its marks changes as the count moves on. -/
theorem advancePrefix_rest (fuel : Nat) (i : InStream) :
    { advancePrefix fuel i with landed := i.landed, marks := i.marks } = i := by
  induction fuel generalizing i with
  | zero => rfl
  | succ fuel ih =>
    rw [advancePrefix]
    split
    · exact congrArg (fun j : InStream => { j with landed := i.landed, marks := i.marks }) (ih _)
    · rfl

/-- The stream once its member `j` has landed. -/
def InStream.withMember (i : InStream) (j : Nat) : InStream :=
  advancePrefix 1025 { i with marks := i.marks ||| (1#1024 <<< (j - i.landed)) }

theorem InStream.withMember_landed_le (i : InStream) (j : Nat) : i.landed ≤ (i.withMember j).landed :=
  advancePrefix_landed_le 1025 { i with marks := i.marks ||| (1#1024 <<< (j - i.landed)) }

/-- What the landed count has moved over is the member that landed or was marked before. -/
theorem InStream.withMember_marked {i : InStream} {j x : Nat} (hj : i.landed ≤ j) (hlo : i.landed ≤ x)
    (hhi : x < (i.withMember j).landed) : x = j ∨ i.marks.getLsbD (x - i.landed) = true := by
  have hmark := advancePrefix_marked (i := { i with marks := i.marks ||| (1#1024 <<< (j - i.landed)) }) hlo hhi
  rw [BitVec.getLsbD_or, Bool.or_eq_true] at hmark
  rcases hmark with hold | hnew
  · exact .inr hold
  · simp only [BitVec.getLsbD_shiftLeft, BitVec.getLsbD_one, Bool.and_eq_true, Bool.not_eq_true', decide_eq_true_eq,
      decide_eq_false_iff_not] at hnew
    omega

theorem InStream.withMember_rest (i : InStream) (j : Nat) :
    { i.withMember j with landed := i.landed, marks := i.marks } = i :=
  congrArg (fun v : InStream => { v with marks := i.marks }) (advancePrefix_rest 1025 _)

theorem InStream.withMember_place (i : InStream) (j : Nat) :
    (i.withMember j).dest = i.dest ∧ (i.withMember j).len = i.len ∧ (i.withMember j).buffer = i.buffer ∧
      (i.withMember j).applied = i.applied := by
  have hrest := i.withMember_rest j
  exact ⟨(congrArg InStream.dest hrest :), (congrArg InStream.len hrest :), (congrArg InStream.buffer hrest :),
    (congrArg InStream.applied hrest :)⟩

section Streams
variable {s : State} {p n : Nat}

/-! ### MEMBER and LANDED (R277, R280) -/

theorem State.rxMember_none (hnone : s.inStream p n = none) (j : Nat) (d : Bytes) : s.rxMember p n j d = s := by
  simp [State.rxMember, hnone]

section Member
variable {i : InStream} {j : Nat} {d : Bytes} (hin : s.inStream p n = some i)
include hin

theorem State.rxMember_repeated (hdup : j < i.landed ∨ i.marks.getLsbD (j - i.landed) = true) :
    s.rxMember p n j d = { s with sweld := { s.sweld with duplicates := satAdd 16 s.sweld.duplicates 1 } } := by
  simp only [State.rxMember, hin, if_pos hdup]

variable (hlo : i.landed ≤ j) (hmark : i.marks.getLsbD (j - i.landed) = false)
include hlo hmark

omit hin in
theorem InStream.not_repeated : ¬ (j < i.landed ∨ i.marks.getLsbD (j - i.landed) = true) := by
  simp [hlo, hmark]

theorem State.rxMember_outside
    (hout : 1024 ≤ j - i.landed ∨ membersOf i.len.toNat ≤ j ∨ d.length ≠ memberLen i.len.toNat j) :
    s.rxMember p n j d = s := by
  simp only [State.rxMember, hin, if_neg (InStream.not_repeated hlo hmark), if_pos hout]

/-- A member inside the window lands, or meets a closed shield. -/
theorem State.rxMember_inside (hwin : j - i.landed < 1024) (hcount : j < membersOf i.len.toNat)
    (hlen : d.length = memberLen i.len.toNat j) : s.rxMember p n j d =
      let w := (s.countSweld p i.dst d.length false).landBytes p i (512 * j) d
      if w.2 then w.1.setIn p n (i.withMember j) else w.1.abortIn p n 4 := by
  have hout : ¬ (1024 ≤ j - i.landed ∨ membersOf i.len.toNat ≤ j ∨ d.length ≠ memberLen i.len.toNat j) := by omega
  simp only [State.rxMember, hin, if_neg (InStream.not_repeated hlo hmark), if_neg hout]
  rcases (s.countSweld p i.dst d.length false).landBytes p i (512 * j) d with ⟨t, _ | _⟩ <;> rfl

end Member

section Report
variable {i : InStream} (hin : s.inStream p n = some i)
include hin

theorem State.doLandedReport_due (hup : s.portUp p = true)
    (hdue : i.reported + 64 ≤ i.landed ∨ i.reportTime + 2000 ≤ s.time) :
    s.doLandedReport p n =
      (s.setIn p n { i with reported := i.landed, reportTime := s.time }).sendMsg p mtLanded n i.landed [] := by
  rcases hdue with hdue | hdue <;> simp [State.doLandedReport, hin, hup, hdue]

theorem State.doLandedReport_early (hfew : i.landed < i.reported + 64) (hearly : s.time < i.reportTime + 2000) :
    s.doLandedReport p n = s := by
  simp [State.doLandedReport, hin, Nat.not_le.mpr hfew, Nat.not_le.mpr hearly]

end Report

theorem State.rxLanded_none (hnone : s.outStream p n = none) (u : Nat) : s.rxLanded p n u = s := by
  simp [State.rxLanded, hnone]

theorem State.rxLanded_advances {o : OutStream} (hout : s.outStream p n = some o) (u : Nat) :
    s.rxLanded p n u =
      let l := max o.landed (min u o.top)
      s.setOut p n { o with landed := l, sent := max o.sent l } := by
  simp only [State.rxLanded, hout]

/-! ### CAPSTONE and CAPSTONE_APPLY (R278, R280) -/

section Capstone
variable {i : InStream} (hin : s.inStream p n = some i)
include hin

theorem State.rxCapstone_applied (happ : i.applied = true) (j : Nat) (d : Bytes) :
    s.rxCapstone p n j d = s.sendMsg p mtCapDone n 0 [] := by
  simp [State.rxCapstone, hin, happ]

theorem State.rxCapstone_held (happ : i.applied = false) (hcap : i.capstone = none) {j : Nat}
    (hj : j = membersOf i.len.toNat) (d : Bytes) :
    s.rxCapstone p n j d = (s.countSweld p i.dst 128 false).setIn p n { i with capstone := some d } := by
  simp [State.rxCapstone, hin, happ, hcap, hj]

theorem State.rxCapstone_ignored (happ : i.applied = false) {j : Nat}
    (h : i.capstone.isSome = true ∨ j ≠ membersOf i.len.toNat) (d : Bytes) : s.rxCapstone p n j d = s := by
  simp [State.rxCapstone, hin, happ, h]

section Apply
variable {d : Bytes} (hcap : i.capstone = some d)
include hcap

theorem State.doCapstoneApply_waits (hmissing : i.landed ≠ membersOf i.len.toNat) : s.doCapstoneApply p n = s := by
  simp [State.doCapstoneApply, hin, hcap, hmissing]

variable (hup : s.portUp p = true) (happ : i.applied = false) (hall : i.landed = membersOf i.len.toNat)
include hup happ hall

/-- With all members landed the capstone is judged: an ARRIVAL needs its CQ, and its bytes land. -/
theorem State.doCapstoneApply_landed : s.doCapstoneApply p n =
    let w := s.landBytes p i (i.len.toNat - 128) d
    if i.arrival && s.noCq i.dst i.cq then (s.countRefused i.dst true).abortIn p n 10
    else if w.2 then w.1.capstoneDone p n i else w.1.abortIn p n 4 := by
  obtain ⟨hpow, -, -⟩ := State.portUp_iff.mp hup
  simp only [State.doCapstoneApply, hin, hcap, hpow, happ, hall, ne_eq, not_true_eq_false, decide_false, Bool.not_true,
    Bool.or_self, Bool.false_eq_true, if_false]
  congr 1
  rcases s.landBytes p i (i.len.toNat - 128) d with ⟨t, _ | _⟩ <;> rfl

theorem State.doCapstoneApply_noCq (harr : i.arrival = true) (hcq : s.noCq i.dst i.cq = true) :
    s.doCapstoneApply p n = (s.countRefused i.dst true).abortIn p n 10 :=
  (State.doCapstoneApply_landed hin hcap hup happ hall).trans (if_pos (by simp [harr, hcq]))

theorem State.doCapstoneApply_lands (hcq : i.arrival = false ∨ s.noCq i.dst i.cq = false) :
    s.doCapstoneApply p n =
      let w := s.landBytes p i (i.len.toNat - 128) d
      if w.2 then w.1.capstoneDone p n i else w.1.abortIn p n 4 :=
  (State.doCapstoneApply_landed hin hcap hup happ hall).trans (if_neg (by rcases hcq with h | h <;> simp [h]))

end Apply

end Capstone

theorem State.capstoneDone_noFlag {i : InStream} (hflag : i.flag = false) :
    s.capstoneDone p n i = s.capstoneSaid p n i := by
  simp [State.capstoneDone, hflag]

theorem State.capstoneDone_flag {i : InStream} (hflag : i.flag = true) : s.capstoneDone p n i =
    let b := (s.inClass i.cls).remoteBump p i.dst i.flagAddr.toNat
    if b.2 then b.1.capstoneSaid p n i else b.1.abortIn p n 4 := by
  simp only [State.capstoneDone, hflag, if_true]
  rcases (s.inClass i.cls).remoteBump p i.dst i.flagAddr.toNat with ⟨t, _ | _⟩ <;> rfl

/-! ### CAP_DONE, CLOSE and ABORT (R278, R280, R281) -/

section Ends
variable {o : OutStream} (hout : s.outStream p n = some o)
include hout

theorem State.rxCapDone_ignored (h : o.closing = true ∨ o.capTop = false) : s.rxCapDone p n = s := by
  rcases h with h | h <;> simp [State.rxCapDone, hout, h]

theorem State.rxCapDone_completes (hopen : o.closing = false) (hsent : o.capTop = true) :
    s.rxCapDone p n = ((((s.updCmd o.cmd fun c => { c with resA := p, resB := o.resends }).completeCmd o.cmd doneStop
      s.time).setOut p n { o with closing := true })).sendMsg p mtClose n 0 [] := by
  simp [State.rxCapDone, hout, hopen, hsent]

theorem State.rxAbort_noCq (hopen : o.closing = false) :
    s.rxAbort p n 10 = ((s.delOut p n).countBroken).refuseSend o.cmd 10 := by
  simp [State.rxAbort, hout, hopen]

theorem State.rxAbort_receiver (hopen : o.closing = false) {r : Nat} (h0 : r ≠ 0) (h10 : r ≠ 10) :
    s.rxAbort p n r = s.breakOut p n { outcome := ocAborted, detail := 6, arg := 0 } := by
  simp [State.rxAbort, hout, hopen, h0, h10]

end Ends

theorem State.rxAbort_sender : s.rxAbort p n 0 = s.breakIn p n := rfl

theorem State.breakIn_none (hnone : s.inStream p n = none) : s.breakIn p n = s := by
  simp [State.breakIn, hnone]

theorem State.rxClose_none (hnone : s.inStream p n = none) : s.rxClose p n = s := by
  simp [State.rxClose, hnone]

theorem State.rxClose_some {i : InStream} (hin : s.inStream p n = some i) :
    s.rxClose p n = if i.applied then s.delIn p n else s.breakIn p n := by
  simp only [State.rxClose, hin]

end Streams

/-! ### The statement -/

/-- Settles O59: each message acts on its stream as it stands; one that lands bytes is a step whose accesses can wait. -/
theorem streamData : Obligations.StreamData := by
  constructor
  · intro s p n hup k q
    have hmsg := fun f => congrArg (Host.Outcome.next (φ := Fault) (ρ := Refusal)) (State.atPort_up hup f)
    refine ⟨fun hnone j d => ?_, fun i j d hin => ⟨fun hdup => ?_, fun hlo hmark hout => ?_,
        fun hlo hmark hwin hcount hlen => ⟨fun hlands hheld => ?_, fun hshut hheld => ?_⟩⟩,
      fun i hin => ⟨fun hdue => ?_, fun hfew hearly => ?_⟩, fun o u hout => ?_, fun hnone u => ?_⟩
    · exact congrArg Host.Outcome.next
        (State.settled_atPort_unchanged hup (State.rxMember_none (s := s.begun) hnone j.toNat d))
    · exact congrArg Host.Outcome.next
        ((State.settled_atPort hup (State.rxMember_repeated (s := s.begun) hin hdup) rfl).trans rfl)
    · exact congrArg Host.Outcome.next
        (State.settled_atPort_unchanged hup (State.rxMember_outside (s := s.begun) hin hlo hmark hout))
    · have hinside := State.rxMember_inside (s := s.begun) hin hlo hmark hwin hcount hlen
      exact ⟨i.withMember j.toNat,
        congrArg Host.Outcome.next (State.settled_atPort hup (hinside.trans (if_pos hlands)) hheld),
        i.withMember_landed_le _, fun x hlo' hhi => InStream.withMember_marked hlo hlo' hhi,
        i.withMember_place _⟩
    · have hinside := State.rxMember_inside (s := s.begun) hin hlo hmark hwin hcount hlen
      exact congrArg Host.Outcome.next
        (State.settled_atPort hup (hinside.trans (if_neg (Bool.eq_false_iff.mp hshut))) hheld)
    · exact congrArg Host.Outcome.next (State.doLandedReport_due hin hup hdue)
    · exact congrArg Host.Outcome.next (State.doLandedReport_early hin hfew hearly)
    · exact (hmsg _).trans (congrArg _ (State.rxLanded_advances hout u.toNat))
    · exact (hmsg _).trans (congrArg _ (State.rxLanded_none hnone u.toNat))
  · intro s p n hup k q
    have hmsg := fun f => congrArg (Host.Outcome.next (φ := Fault) (ρ := Refusal)) (State.atPort_up hup f)
    refine ⟨fun i j d hin => ⟨fun happ => ?_, fun happ hcap hj => ?_, fun happ hno => ?_⟩,
      fun i d hin hcap happ => ⟨fun hmissing => ?_, fun hall hcq hheld => ?_, fun hall harr hcq hthrough => ?_⟩,
      fun t i => ⟨State.capstoneDone_noFlag, State.capstoneDone_flag⟩,
      fun o hout => ⟨fun hno => ?_, fun hopen hsent => ?_⟩, fun hnone => ⟨?_, ?_⟩,
      fun i hin => ⟨fun happ => ?_, fun happ => ?_, ?_⟩,
      fun o r hout hopen hr => ⟨fun hten => ?_, fun hten => ?_⟩⟩
    · exact (hmsg _).trans (congrArg _ (State.rxCapstone_applied hin happ j.toNat d))
    · exact (hmsg _).trans (congrArg _ (State.rxCapstone_held hin happ hcap hj d))
    · exact (hmsg _).trans (congrArg _ (State.rxCapstone_ignored hin happ hno d))
    · exact congrArg Host.Outcome.next
        (State.settled_unchanged (State.doCapstoneApply_waits (s := s.begun) hin hcap hmissing))
    · exact congrArg Host.Outcome.next
        (State.settled_ended (State.doCapstoneApply_lands (s := s.begun) hin hcap hup happ hall hcq) hheld)
    · exact congrArg Host.Outcome.next
        (State.settled_through (State.doCapstoneApply_noCq (s := s.begun) hin hcap hup happ hall harr hcq) hthrough)
    · exact (hmsg _).trans (congrArg _ (State.rxCapDone_ignored hout hno))
    · exact (hmsg _).trans (congrArg _ (State.rxCapDone_completes hout hopen hsent))
    · exact (hmsg _).trans (congrArg _ (State.rxClose_none hnone))
    · exact (hmsg _).trans (congrArg _ (State.breakIn_none hnone))
    · exact (hmsg _).trans (congrArg _ ((State.rxClose_some hin).trans (if_pos happ)))
    · exact (hmsg _).trans (congrArg _ ((State.rxClose_some hin).trans (if_neg (Bool.eq_false_iff.mp happ))))
    · exact (hmsg _).trans (congrArg _ State.rxAbort_sender)
    · subst hten
      exact (hmsg _).trans (congrArg _ (State.rxAbort_noCq hout hopen))
    · have h0 : r.toNat ≠ 0 := fun h => hr (BitVec.eq_of_toNat_eq h)
      have h10 : r.toNat ≠ 10 := fun h => hten (BitVec.eq_of_toNat_eq h)
      exact (hmsg _).trans (congrArg _ (State.rxAbort_receiver hout hopen h0 h10))

end Sys2Proof.Machine

/-! ## Reads and completions take no time -/

namespace Sys2Proof.Machine

set_option Elab.async false

section Time
variable (s : State)

theorem foldl_time {α : Type} {f : State → α → State} (hf : ∀ s a, (f s a).time = s.time) (l : List α) (s : State) :
    (l.foldl f s).time = s.time := by
  induction l generalizing s with
  | nil => rfl
  | cons a l ih => rw [List.foldl_cons, ih, hf]

/-- The state that an operation with an answer leaves. -/
theorem State.time_of_eq {α : Type} {r : State × α} {t : State} {a : α} (h : r = (t, a)) : t.time = r.1.time := by
  rw [h]

/-! ### Completing a command -/

section Complete
variable (id b slice n : Nat)

@[simp] theorem State.resultOr_time (r : Option Nat) : (s.resultOr r).2.time = s.time := by
  cases r <;> rfl

@[simp] theorem State.countOutcome_time (outcome : Nat) : (s.countOutcome slice outcome).time = s.time := by
  simp [State.countOutcome, apply_ite State.time]

@[simp] theorem State.setCmd_time (c : Cmd) : (s.setCmd id c).time = s.time := rfl

@[simp] theorem State.updHandle_time (f : Handle → Handle) : (s.updHandle slice n f).time = s.time := rfl

@[simp] theorem State.updCq_time (f : Ring → Ring) : (s.updCq slice n f).time = s.time := rfl

@[simp] theorem State.waitRecord_time (cq : Nat) (r : Rec) : (s.waitRecord slice cq r).time = s.time := rfl

@[simp] theorem State.retireHandle_time : (s.retireHandle slice n).time = s.time := by
  unfold State.retireHandle
  dsimp only
  (repeat' split) <;> rfl

@[simp] theorem State.releaseRefs_time : (s.releaseRefs id).time = s.time := by
  simp [State.releaseRefs, foldl_time]

@[simp] theorem State.bumpEpoch_time (u : Nat) : (s.bumpEpoch u).time = s.time := by
  unfold State.bumpEpoch
  split <;> rfl

@[simp] theorem State.unholdBay_time : (s.unholdBay b).time = s.time := by
  simp [State.unholdBay, State.cutBay, apply_ite State.time]

@[simp] theorem State.leaveBay_time : (s.leaveBay id b).time = s.time :=
  State.unholdBay_time _ b

@[simp] theorem State.leaveEngines_time : (s.leaveEngines id).time = s.time := by
  simp [State.leaveEngines, State.orphan, foldl_time]

@[simp] theorem State.finishUndispatched_time (outcome detail arg : Nat) (result await : Option Nat) :
    (s.finishUndispatched id outcome detail arg result await).time = s.time := by
  simp [State.finishUndispatched]

@[simp] theorem resolveWindow_time (ids : List Nat) (gone : List (Nat × Option Nat)) :
    (resolveWindow ids gone s).time = s.time := by
  induction ids generalizing gone s with
  | nil => rfl
  | cons id ids ih =>
    unfold resolveWindow
    dsimp only
    (repeat' split) <;> simp [ih]

@[simp] theorem State.completeCmd_time (st : Stop) (timeDone : Nat) : (s.completeCmd id st timeDone).time = s.time := by
  simp [State.completeCmd, State.completeWith, State.resolveEarlier, apply_ite State.time]

end Complete

/-! ### Faults, shields and lost units -/

section Faults
variable (id u b d c q x set w detail arg : Nat)

@[simp] theorem State.raise_time (code : Nat) (f : FaultInfo) : (s.raise code f).time = s.time :=
  s.raise_sameBut code f .time (by decide)

@[simp] theorem State.agFault_time (g : Agent) (code : Nat) (f : FaultInfo) : (s.agFault g code f).time = s.time :=
  s.raise_time code _

@[simp] theorem State.stopCmd_time (st : Stop) : (s.stopCmd id st).time = s.time :=
  s.stopCmd_sameBut id st .time (by decide)

@[simp] theorem State.abortBay_time : (s.abortBay b detail arg).time = s.time :=
  foldl_time (fun s id => s.stopCmd_time id _) _ s

@[simp] theorem State.closeShield_time : (s.closeShield u detail arg).time = s.time := by
  simp [State.closeShield, State.signalUnits, State.control, foldl_time, apply_ite State.time]

@[simp] theorem State.setUnitState_time (st : UnitState) : (s.setUnitState u st).time = s.time := by
  unfold State.setUnitState
  split <;> rfl

@[simp] theorem State.offline_time : (s.offline u).time = s.time := by
  unfold State.offline
  split <;> simp

@[simp] theorem State.dieStop_time : (s.dieStop d b).time = s.time := by
  simp [State.dieStop, State.stopDie, foldl_time]

@[simp] theorem State.autoRepair_time (entry : Nat) : (s.autoRepair d entry).time = s.time :=
  s.autoRepair_sameBut d entry .time (by decide)

@[simp] theorem State.killPin_time (pin : Nat) : (s.killPin c pin).time = s.time := by
  unfold State.killPin
  split <;> simp [apply_ite State.time]

end Faults

/-! ### Channels -/

section Channels
variable (c q k l u : Nat)

@[simp] theorem State.injected_time (checker : Nat) : (s.injected checker u).2.time = s.time := by
  unfold State.injected
  dsimp only
  split <;> rfl

@[simp] theorem State.holdAt_time (o : Option Nat) : (s.holdAt o).time = s.time := by
  unfold State.holdAt
  split <;> rfl

@[simp] theorem State.dramTraffic_time (bytes : Nat) (isWrite : Bool) :
    (s.dramTraffic c q bytes isWrite).time = s.time := by
  unfold State.dramTraffic
  dsimp only
  (repeat' split) <;> simp

@[simp] theorem State.cacheMap_time (es : List W64) : (s.cacheMap c l es).time = s.time := by
  simp [State.cacheMap, State.mapRoom, State.drawChoice, apply_ite State.time]

@[simp] theorem State.queueRow_time (row : Nat) : (s.queueRow c row).time = s.time := rfl

@[simp] theorem State.noteBad_time : (s.noteBad c q).time = s.time := rfl

@[simp] theorem State.noteCorrected_time (pos : List Nat) : (s.noteCorrected c q pos).time = s.time := by
  simp [State.noteCorrected, foldl_time, apply_ite State.time]

@[simp] theorem State.writeCoded_time (data : Bytes) (bytes : Nat) : (s.writeCoded c q data bytes).time = s.time := by
  simp [State.writeCoded, State.storeWord, State.dramStore]

@[simp] theorem State.writeStored_time (data : Bytes) : (s.writeStored c q data).time = s.time :=
  s.writeCoded_time c q data 128

@[simp] theorem State.writeMap_time (es : List W64) : (s.writeMap c l es).time = s.time := by
  simp [State.writeMap]

@[simp] theorem State.mapLost_time : (s.mapLost c l).time = s.time := by
  simp [State.mapLost, foldl_time]

@[simp] theorem State.mapRead_time : (s.mapRead c l).1.time = s.time := by
  unfold State.mapRead
  dsimp only
  split <;> simp

@[simp] theorem State.mapCheck_time : (s.mapCheck c k).1.time = s.time := by
  simp [State.mapCheck, apply_ite Prod.fst, apply_ite State.time]

@[simp] theorem State.setMapEntry_time (e : W64) : (s.setMapEntry c k e).time = s.time := by
  simp [State.setMapEntry, apply_ite State.time]

@[simp] theorem State.setLineState_time (st : LineState) : (s.setLineState c q st).time = s.time := by
  simp [State.setLineState]

@[simp] theorem State.poisonLine_time (cause : Nat) : (s.poisonLine c q cause u).time = s.time := by
  simp [State.poisonLine]

@[simp] theorem State.clearCourses_time (ks : List Nat) : (s.clearCourses c l ks).time = s.time := by
  simp [State.clearCourses, apply_ite State.time]

@[simp] theorem State.bitmapWrite_time : (s.bitmapWrite c).time = s.time := by
  simp [State.bitmapWrite, apply_ite State.time]

@[simp] theorem State.openShare_time (β : Nat) : (s.openShare c β).time = s.time := by
  simp [State.openShare, foldl_time, apply_ite State.time]

@[simp] theorem State.decodeLine_time (bytes cause : Nat) : (s.decodeLine c q bytes cause).1.time = s.time := by
  unfold State.decodeLine
  dsimp only
  split <;> simp

@[simp] theorem State.chanRead_time (bytes : Nat) : (s.chanRead c q bytes).1.time = s.time := by
  unfold State.chanRead
  split <;> simp

@[simp] theorem State.chanWrite_time (data : Bytes) (mask : BitVec 128) :
    (s.chanWrite c q data mask).1.time = s.time := by
  unfold State.chanWrite
  dsimp only
  split
  · rfl
  · split
    · simp
    · split
      · simp
      · split <;> next heq => simp [State.time_of_eq heq]
      · simp

end Channels

/-! ### The cache -/

section Cache
variable (x n set w j owner : Nat)

@[simp] theorem State.updWay_time (f : Way → Way) : (s.updWay x set w f).time = s.time := rfl

@[simp] theorem State.countSectors_time (hits misses : Nat) : (s.countSectors x owner hits misses).time = s.time :=
  s.countSectors_sameBut x owner hits misses .time (by decide)

@[simp] theorem State.bulk_time (src dst : Nat) (response : Bool) : (s.bulk src dst n response).time = s.time :=
  s.bulk_sameBut src dst n response .time (by decide)

@[simp] theorem State.carry_time (path : List (Nat × Nat)) (response : Bool) : (s.carry path n response).time = s.time :=
  s.carry_sameBut path n response .time (by decide)

@[simp] theorem State.cacheCorrected_time (what : Nat) : (s.cacheCorrected x what).time = s.time := by
  simp [State.cacheCorrected]

@[simp] theorem State.checkTags_time : (s.checkTags x set).time = s.time := by
  simp [State.checkTags, State.lostTags, foldl_time, apply_ite State.time]

@[simp] theorem State.mapAges_time (f : Nat → Nat) : (s.mapAges x set f).time = s.time := by
  simp [State.mapAges, foldl_time, apply_ite State.time]

@[simp] theorem State.dropWay_time : (s.dropWay x set w).time = s.time := by
  simp [State.dropWay]

@[simp] theorem State.dropReplica_time : (s.dropReplica x n).time = s.time := by
  unfold State.dropReplica
  split <;> simp

@[simp] theorem State.sectorLost_time : (s.sectorLost x set w j).time = s.time := by
  simp [State.sectorLost, apply_ite State.time]

@[simp] theorem State.checkSectors_time (secs : BitVec 4) : (s.checkSectors x set w secs).time = s.time := by
  simp [State.checkSectors, State.checkSector, foldl_time, apply_ite State.time]

@[simp] theorem State.checkFound_time (secs : BitVec 4) : (s.checkFound x n secs).time = s.time := by
  unfold State.checkFound
  split <;> simp

@[simp] theorem State.touchWay_time : (s.touchWay x set w).time = s.time := by
  simp [State.touchWay]

@[simp] theorem State.countRar_time : (s.countRar owner).time = s.time := rfl

@[simp] theorem State.readHit_time (secs : BitVec 4) : (s.readHit x n secs).1.time = s.time := by
  unfold State.readHit
  dsimp only
  (repeat' split) <;> simp

@[simp] theorem State.putSectors_time (secs : BitVec 4) (data : Bytes) :
    (s.putSectors x set w secs data).time = s.time := by
  simp [State.putSectors, foldl_time]

@[simp] theorem State.tagWrite_time : (s.tagWrite x set w).time = s.time := by
  simp [State.tagWrite]

@[simp] theorem State.installWay_time (y : Way) : (s.installWay x set w y).time = s.time := by
  simp [State.installWay]

@[simp] theorem State.writeBackWay_time : (s.writeBackWay x set w).time = s.time := by
  simp [State.writeBackWay, apply_ite State.time, apply_ite Prod.fst]

@[simp] theorem State.evictWay_time : (s.evictWay x set w).time = s.time := by
  simp [State.evictWay, apply_ite State.time]

@[simp] theorem State.claimWay_time (t : Nat) : (s.claimWay x n t).1.time = s.time := by
  unfold State.claimWay State.countBypass
  (repeat' split) <;> simp

/-! ### Reads of a line -/

@[simp] theorem State.lineFetch_time (sectors : Nat) : (s.lineFetch x n sectors).1.time = s.time := by
  unfold State.lineFetch
  dsimp only
  split
  · rfl
  · split <;> next heq => simp [State.time_of_eq heq]

@[simp] theorem State.readInstall_time (found : Option Nat) (y : Way) (miss : BitVec 4) (bytes : Bytes) (rel : Bool) :
    (s.readInstall x n found y owner miss bytes rel).time = s.time := by
  unfold State.readInstall
  dsimp only
  split
  · simp
  · split <;> next heq => simp [State.time_of_eq heq]

@[simp] theorem State.readFetched_time (found : Option Nat) (y : Way) (secs miss : BitVec 4) (bytes : Bytes) (rel : Bool)
    (fetched : Nat) : (s.readFetched x n found y owner secs miss bytes rel fetched).1.time = s.time := by
  simp [State.readFetched, apply_ite State.time]

@[simp] theorem State.readMiss_time (secs miss : BitVec 4) : (s.readMiss x n secs miss).1.time = s.time := by
  unfold State.readMiss
  dsimp only
  split <;> next heq => simp [State.time_of_eq heq]

@[simp] theorem State.ucRead_time (secs : BitVec 4) : (s.ucRead x n secs).1.time = s.time := by
  unfold State.ucRead
  dsimp only
  (repeat' split) <;> simp

@[simp] theorem State.holdRead_time : (s.holdRead x n).time = s.time := by
  unfold State.holdRead
  split <;> simp

@[simp] theorem State.sendData_time (place : Nat) (secs : BitVec 4) : (s.sendData x place secs).time = s.time :=
  s.bulk_time _ _ _ _

@[simp] theorem State.homeRead_time (secs : BitVec 4) (place : Nat) : (s.homeRead x n secs place).1.time = s.time := by
  unfold State.homeRead
  split
  · next heq => simp [State.time_of_eq heq]
  · simp

theorem State.replicaHit_time {secs : BitVec 4} {t : State} {b : Bytes} (h : s.replicaHit x n secs = some (t, b)) :
    t.time = s.time := by
  unfold State.replicaHit at h
  extract_lets p u at h
  have hu : u.time = s.time := by
    dsimp only [u]
    split <;> simp
  split at h
  · extract_lets y at h
    split at h
    · obtain ⟨rfl, -⟩ := Prod.mk.inj (Option.some.inj h)
      simp [hu]
    · cases h
  · cases h

@[simp] theorem State.installReplica_time : (s.installReplica x n).1.time = s.time := by
  unfold State.installReplica
  dsimp only
  split
  · simp
  · split
    · simp
    · split <;> next heq => simp [State.time_of_eq heq]

@[simp] theorem State.partnerRead_time (secs : BitVec 4) (place : Nat) :
    (s.partnerRead x n secs place).1.time = s.time := by
  unfold State.partnerRead State.sendAcross
  split
  · next t b rar heq =>
    have ht : t.time = s.time := by simp [State.time_of_eq heq]
    split
    · split
      next hfill => simp [apply_ite Prod.fst, apply_ite State.time, State.time_of_eq hfill, ht]
    · simp [apply_ite State.time, ht]
  · simp

@[simp] theorem State.otherRead_time (secs : BitVec 4) (place : Nat) : (s.otherRead x n secs place).1.time = s.time := by
  unfold State.otherRead
  dsimp only
  split
  · rfl
  · split
    · simp
    · split
      · next heq => simp [State.replicaHit_time _ _ _ heq]
      · simp

@[simp] theorem State.lineRead_time (dpa place : Nat) (secs : BitVec 4) (direct : Bool) :
    (s.lineRead dpa secs place direct).1.time = s.time := by
  unfold State.lineRead
  dsimp only
  split <;> simp

end Cache

/-! ### An engine's reads -/

section Agents
variable (g : Agent)

@[simp] theorem State.agDpa_time (tva need : Nat) : (s.agDpa g tva need).1.time = s.time := by
  unfold State.agDpa
  (repeat' split) <;> simp

@[simp] theorem State.agReadPiece_time (a n dpa : Nat) : (s.agReadPiece g a n dpa).1.time = s.time := by
  unfold State.agReadPiece State.agAbort
  split
  · next heq => split <;> simp [State.time_of_eq heq]
  all_goals next heq => simp [State.time_of_eq heq]

@[simp] theorem agReadPieces_time (ps : List (Nat × Nat)) (acc : Bytes) : (agReadPieces g ps acc s).1.time = s.time := by
  induction ps generalizing acc s with
  | nil => rfl
  | cons p ps ih =>
    unfold agReadPieces
    split
    · next heq => simp [State.time_of_eq heq]
    · next hdpa =>
      split <;> next heq => simp [ih, State.time_of_eq heq, State.time_of_eq hdpa]

@[simp] theorem State.agRead_time (tva len : Nat) : (s.agRead g tva len).1.time = s.time :=
  agReadPieces_time (s.onBehalf g.cmd) g _ _

end Agents

/-! ### The flags of an EXPECT (R283) -/

@[simp] theorem State.readFlag_time (id i : Nat) : (s.readFlag id i).time = s.time := by
  unfold State.readFlag
  dsimp only
  split
  · next heq => simp [State.time_of_eq heq]
  · next heq => (repeat' split) <;> simp [State.time_of_eq heq]

@[simp] theorem State.expectDone_time (id : Nat) : (s.expectDone id).time = s.time := by
  simp [State.expectDone, apply_ite State.time]

@[simp] theorem State.readFlags_time (id : Nat) (slots : List Nat) : (s.readFlags id slots).time = s.time := by
  simp [State.readFlags, foldl_time, apply_ite State.time]

end Time
end Sys2Proof.Machine

/-! ## SEND and EXPECT (O60) -/

namespace Sys2Proof.Machine

set_option Elab.async false

/-! ### The port of a new stream (R276) -/

/-- The port that the balance chooses is the first with the fewest bytes queued among those on which streams may open. -/
theorem State.choosePort_eq_argmin (s : State) (pkg : Nat) : s.choosePort pkg =
    List.argmin (fun p => (s.port p).queued) ((List.range 16).filter fun p => s.portOpens p pkg) := by
  unfold State.choosePort List.argmin
  congr 1
  funext best p
  cases best <;> rfl

section Chosen
variable {s : State} {p pkg : Nat} (h : s.choosePort pkg = some p)
include h

theorem State.choosePort_opens : p < 16 ∧ s.portOpens p pkg = true := by
  rw [State.choosePort_eq_argmin] at h
  simpa using List.argmin_mem h

theorem State.choosePort_fewest {k : Nat} (hk : k < 16) (hopens : s.portOpens k pkg = true) :
    (s.port p).queued ≤ (s.port k).queued := by
  rw [State.choosePort_eq_argmin] at h
  exact List.le_of_mem_argmin (f := fun p => (s.port p).queued) (by simp [hk, hopens]) h

end Chosen

section Commands
variable {s : State} {id p n : Nat}

/-! ### SEND (R276, R277) -/

theorem State.openSend_noPeer (hpeer : (s.peerOf (s.cmd id)).valid = false) : s.openSend id = s.refuseSend id 1 := by
  simp [State.openSend, hpeer]

section Valid
variable (hpeer : (s.peerOf (s.cmd id)).valid = true)
include hpeer

theorem State.openSend_noPath (hport : s.choosePort (s.peerOf (s.cmd id)).pkg = none) :
    s.openSend id = s.refuseSend id 2 := by
  simp [State.openSend, hpeer, hport]

theorem State.openSend_opens (hport : s.choosePort (s.peerOf (s.cmd id)).pkg = some p) :
    s.openSend id = (s.setOut p (s.freeStream p)
      { cmd := id, slice := (s.cmd id).slice, remote := (s.peerOf (s.cmd id)).remote, firstOpen := s.time }).sendOpenMsg
        p (s.freeStream p) id (s.peerOf (s.cmd id)).remote := by
  simp [State.openSend, hpeer, hport]

end Valid

/-- The bytes of the next member of a stream, or of its capstone. -/
def State.nextBody (s : State) (id : Nat) (o : OutStream) : Nat :=
  let len := swLen (s.cmd id).block
  if o.sent < membersOf len then memberLen len o.sent else 128

section Turn
variable {o : OutStream}

theorem State.sendTurn_none (hnext : s.nextStream p = none) : s.sendTurn id p n o = s := by
  simp only [State.sendTurn, hnext]

variable {k : Nat} {f : Flow} (hnext : s.nextStream p = some (k, f))
include hnext

theorem State.sendTurn_other (hne : k ≠ n) : s.sendTurn id p n o = s := by
  simp only [State.sendTurn, hnext, if_pos hne]

theorem State.sendTurn_own (heq : k = n) : s.sendTurn id p n o =
    (s.updPort p fun v => { v with
      rr := f.spend (s.background (s.outClass o)) (msgFlits (s.nextBody id o) - 1) }).sendNext id p n o := by
  simp only [State.sendTurn, hnext, if_neg (not_not_intro heq)]
  rfl

end Turn

section Send
variable (hdo : s.doing id opSweld = true) (hsend : swExpect (s.cmd id).block = false)
include hdo hsend

theorem State.doSweldSend_new (hnone : s.streamOf id = none) : s.doSweldSend id = s.openSend id := by
  simp [State.doSweldSend, hdo, hsend, hnone]

variable {o : OutStream} (hstream : s.streamOf id = some (p, n, o))
include hstream

theorem State.doSweldSend_open (hopen : o.opened = true) (hup : s.portUp p = true) :
    s.doSweldSend id = s.sendTurn id p n o := by
  simp [State.doSweldSend, hdo, hsend, hstream, hopen, hup]

theorem State.doSweldSend_waits (h : o.opened = false ∨ s.portUp p = false) : s.doSweldSend id = s := by
  rcases h with h | h <;> simp [State.doSweldSend, hdo, hsend, hstream, h]

end Send

/-! ### EXPECT (R283) -/

/-- The reads of an EXPECT at its dispatch are noted as made. -/
def State.markRead (s : State) (id : Nat) (x : Expect) : State :=
  { s with sweld := { s.sweld with expects := Tbl.put s.sweld.expects id { x with read := true } } }

section Expects
variable {x : Expect} (hx : Tbl.find? s.sweld.expects id = some x)

section Dispatch
variable (hdo : s.doing id opSweld = true) (hexp : swExpect (s.cmd id).block = true)
include hx hdo hexp

theorem State.doSweldExpect_read (hread : x.read = true) : s.doSweldExpect id = s := by
  simp [State.doSweldExpect, hdo, hexp, hx, hread]

theorem State.doSweldExpect_reads (hread : x.read = false) :
    s.doSweldExpect id = (s.markRead id x).readFlags id (expectSlots (s.cmd id)) := by
  simp only [State.doSweldExpect, hdo, hexp, hx, hread, Bool.not_true, Bool.or_self, Bool.false_eq_true, if_false]
  rfl

end Dispatch

include hx

theorem State.doFenceTimeout_early (hearly : s.time ≤ x.fenceEnd) : s.doFenceTimeout id = s := by
  simp [State.doFenceTimeout, hx, hearly]

/-- Past FENCE_END the flags are read a last time, which takes no time; the command ends PARTIAL unless the reads have
ended it. -/
theorem State.doFenceTimeout_late (hdo : s.doing id opSweld = true) (hlate : x.fenceEnd < s.time) :
    s.doFenceTimeout id =
      let t := s.readFlags id (expectSlots (s.cmd id))
      let left := (expectSlots (t.cmd id)).length - (t.committedOf id).length
      if t.doing id opSweld && t.hasCmd id then
        t.completeCmd id { outcome := ocPartial, detail := 2, arg := left } s.time
      else t := by
  simp only [State.doFenceTimeout, hx, hdo, decide_eq_false (Nat.not_le.mpr hlate), Bool.not_true, Bool.or_self,
    Bool.false_eq_true, if_false, State.readFlags_time]

end Expects

end Commands

/-! ### The statement -/

/-- Settles O60: a SEND opens its stream on the port with the fewest bytes queued and sends in its turn; an EXPECT reads
its flags once at dispatch and a last time past FENCE_END. -/
theorem sendAndExpect : Obligations.SendAndExpect := by
  intro s id c e
  refine ⟨fun hdo hsend => ⟨fun hnone hpeer hthrough => ?_, fun hnone hpeer hport hthrough => ?_,
      fun p hnone hpeer hport hthrough => ?_, fun p n o hstream hopen hup hnext => ?_,
      fun p n o k f hstream hopen hup hnext => ⟨fun hne => ?_, fun heq hthrough => ?_⟩, fun p n o hstream hwaits => ?_⟩,
    fun p pkg hport => ?_,
    fun x hdo hexp hx => ⟨fun hread => ?_, fun hread hthrough => ?_⟩,
    fun x hdo hx => ⟨fun hearly => ?_, fun hlate => ⟨fun hdoing hhas => ?_, fun hended => ?_⟩⟩⟩
  · have hnew := State.doSweldSend_new (s := s.begun) hdo hsend hnone
    exact congrArg Host.Outcome.next (State.settled_through (hnew.trans (State.openSend_noPeer hpeer)) hthrough)
  · have hnew := State.doSweldSend_new (s := s.begun) hdo hsend hnone
    exact congrArg Host.Outcome.next (State.settled_through (hnew.trans (State.openSend_noPath hpeer hport)) hthrough)
  · have hnew := State.doSweldSend_new (s := s.begun) hdo hsend hnone
    exact congrArg Host.Outcome.next (State.settled_through (hnew.trans (State.openSend_opens hpeer hport)) hthrough)
  · have hturn := State.doSweldSend_open (s := s.begun) hdo hsend hstream hopen hup
    exact congrArg Host.Outcome.next (State.settled_unchanged (hturn.trans (State.sendTurn_none hnext)))
  · have hturn := State.doSweldSend_open (s := s.begun) hdo hsend hstream hopen hup
    exact congrArg Host.Outcome.next (State.settled_unchanged (hturn.trans (State.sendTurn_other hnext hne)))
  · have hturn := State.doSweldSend_open (s := s.begun) hdo hsend hstream hopen hup
    exact congrArg Host.Outcome.next (State.settled_through (hturn.trans (State.sendTurn_own hnext heq)) hthrough)
  · exact congrArg Host.Outcome.next
      (State.settled_unchanged (State.doSweldSend_waits (s := s.begun) hdo hsend hstream hwaits))
  · obtain ⟨hlt, hopens⟩ := State.choosePort_opens hport
    exact ⟨hlt, hopens, fun k hk hother => State.choosePort_fewest hport hk hother⟩
  · exact congrArg Host.Outcome.next
      (State.settled_unchanged (State.doSweldExpect_read (s := s.begun) hx hdo hexp hread))
  · exact congrArg Host.Outcome.next
      (State.settled_through (State.doSweldExpect_reads (s := s.begun) hx hdo hexp hread) hthrough)
  · exact congrArg Host.Outcome.next (State.doFenceTimeout_early hx hearly)
  · exact congrArg Host.Outcome.next
      ((State.doFenceTimeout_late hx hdo hlate).trans (if_pos (Bool.and_eq_true_iff.mpr ⟨hdoing, hhas⟩)))
  · exact congrArg Host.Outcome.next
      ((State.doFenceTimeout_late hx hdo hlate).trans (if_neg (Bool.eq_false_iff.mp (Bool.and_eq_false_iff.mpr hended))))

end Sys2Proof.Machine

/-! ## Power settings, the queue and the straps (O9, O2) -/

namespace Sys2Proof.Machine

/-! ### What every command keeps -/

/-- The queue is as it was, and power settings in their ranges stay in them. -/
structure State.Orderly (s t : State) : Prop where
  pending : t.pending = s.pending
  power : s.powerInRange → t.powerInRange

/-- The straps are as they were, too. -/
structure State.Steady (s t : State) : Prop extends s.Orderly t where
  pkgId : t.pins.pkgId = s.pins.pkgId
  traySel : t.pins.traySel = s.pins.traySel

section Steady
variable {s t u : State}

theorem State.powerInRange_of_kept (h : t.kept = s.kept) (hs : s.powerInRange) : t.powerInRange := by
  have hmgr : t.plb.mgrLimit = s.plb.mgrLimit := congrArg Kept.mgrLimit h
  have hplinth : t.plb.plinthLimit = s.plb.plinthLimit := congrArg Kept.plinthLimit h
  have htj : t.plb.tjThrottle = s.plb.tjThrottle := congrArg Kept.tjThrottle h
  have hlevel : t.plb.level = s.plb.level := congrArg Kept.level h
  rwa [State.powerInRange, hmgr, hplinth, htj, hlevel]

theorem State.steady_of_kept (h : t.kept = s.kept) : s.Steady t :=
  ⟨⟨congrArg Kept.pending h, State.powerInRange_of_kept h⟩, congrArg Kept.pkgId h, congrArg Kept.traySel h⟩

theorem State.steady_refl (s : State) : s.Steady s := State.steady_of_kept rfl

theorem State.Steady.trans (h : s.Steady t) (k : t.Steady u) : s.Steady u :=
  ⟨⟨k.pending.trans h.pending, k.power ∘ h.power⟩, k.pkgId.trans h.pkgId, k.traySel.trans h.traySel⟩

theorem State.steady_if {c : Prop} [Decidable c] (h : c → s.Steady t) : s.Steady (if c then t else s) := by
  split
  next hc => exact h hc
  next => exact s.steady_refl

theorem foldl_steady {α : Type} {f : State → α → State} (hf : ∀ (s : State) a, s.Steady (f s a)) (l : List α)
    (s : State) : s.Steady (l.foldl f s) := by
  induction l generalizing s with
  | nil => exact s.steady_refl
  | cons a l ih => exact (hf s a).trans (ih (f s a))

end Steady

/-! ### Resets -/

/-- Tables 17.3 to 17.8: the limits and the throttle temperature are reset to values in their ranges. -/
theorem State.powerInRange_of_reset {s : State} {k : Nat} (h : s.plb = { level := k }) (hk : k ≤ 88) : s.powerInRange := by
  rw [State.powerInRange, h]
  dsimp only
  omega

theorem resetLevel_le (prochotN : Bool) : (if prochotN then 0 else 32) ≤ 88 := by cases prochotN <;> decide

theorem State.beginPackage_steady (s : State) (cause : Nat) (hold : Bool) : s.Steady (s.beginPackage cause hold) := by
  have hlevel := resetLevel_le s.pins.prochotN
  unfold State.beginPackage
  extract_lets ticks _ _ t
  have ht : s.Steady t := ⟨⟨rfl, fun _ => State.powerInRange_of_reset rfl hlevel⟩, rfl, rfl⟩
  split
  · exact ht
  · exact ht.trans (State.steady_of_kept t.signal_kept)

theorem State.doPackageReset_steady (s : State) (src : ResetSource) : s.Steady (s.doPackageReset src) := by
  cases src with
  | manager u =>
    simp only [State.doPackageReset]
    split
    · exact s.steady_refl
    · split
      · exact State.steady_of_kept rfl
      · exact State.steady_if fun _ => s.beginPackage_steady causeManager false
  | management => exact State.steady_if fun _ => s.beginPackage_steady causePlinth false
  | _ => exact s.steady_refl

theorem State.doPerstAssert_steady (s : State) : s.Steady s.doPerstAssert := by
  have hlow : s.Steady { s with pins := { s.pins with perstN := false } } := State.steady_of_kept rfl
  exact hlow.trans (State.steady_if fun _ => State.beginPackage_steady _ causePerst true)

theorem State.doColdStart_orderly (s : State) (pkgId : BitVec 4) (traySel : Bool) :
    s.Orderly (s.doColdStart pkgId traySel) := by
  unfold State.doColdStart
  split
  · exact s.steady_refl.toOrderly
  · exact ⟨rfl, fun _ => State.powerInRange_of_reset rfl (resetLevel_le s.pins.prochotN)⟩

theorem State.doPwrGoodFall_orderly (s : State) : s.Orderly s.doPwrGoodFall :=
  ⟨congrArg Kept.pending s.cutFlash_kept, fun _ => State.powerInRange_of_reset (k := 0) rfl (by decide)⟩

theorem State.doBlowDone_steady (s : State) (ok : Bool) : s.Steady (s.doBlowDone ok) := by
  unfold State.doBlowDone
  split
  · exact s.steady_refl
  · split <;> exact ⟨⟨rfl, id⟩, rfl, rfl⟩

/-! ### Power settings (R385, R386, R391) -/

theorem limitOk_iff {w : Nat} : limitOk w = true ↔ 300 ≤ w ∧ w ≤ 1150 := by simp [limitOk]

theorem State.mgmtOp_steady {s : State} {f : State → State} (i : HeldOp) (h : s.Steady (f s)) : s.Steady (s.mgmtOp i f) := by
  unfold State.mgmtOp
  split
  · exact State.steady_of_kept rfl
  · exact h

theorem State.setManagerLimit_steady (s : State) (w : Nat) : s.Steady (s.setManagerLimit w) :=
  State.steady_if fun hw => ⟨⟨rfl, fun ⟨_, _, hrest⟩ => ⟨(limitOk_iff.mp hw).1, (limitOk_iff.mp hw).2, hrest⟩⟩, rfl, rfl⟩

theorem State.setThrottle_steady (s : State) (c : Nat) : s.Steady (s.setThrottle c) :=
  State.steady_if fun ⟨hlo, hhi⟩ =>
    ⟨⟨rfl, fun ⟨hm1, hm2, hp1, hp2, _, _, hlevel⟩ => ⟨hm1, hm2, hp1, hp2, hlo, hhi, hlevel⟩⟩, rfl, rfl⟩

theorem State.setPlinthLimit_steady (s : State) (w : Nat) : s.Steady (s.setPlinthLimit w) := by
  unfold State.setPlinthLimit
  split
  next hw =>
    obtain ⟨hlo, hhi⟩ := limitOk_iff.mp hw
    have hset : (s.answer 0 []).Steady { (s.answer 0 []) with plb := { (s.answer 0 []).plb with plinthLimit := w } } :=
      ⟨⟨rfl, fun ⟨hm1, hm2, _, _, hrest⟩ => ⟨hm1, hm2, hlo, hhi, hrest⟩⟩, rfl, rfl⟩
    exact (State.steady_of_kept (s.answer_kept 0 [])).trans hset
  next => exact State.steady_of_kept ((State.answer_kept _ _ _).trans rfl)

/-- Of the power settings the level alone moves, and stays at most 88. -/
theorem State.steady_of_level {s t : State} (hpending : t.pending = s.pending) (hpkg : t.pins.pkgId = s.pins.pkgId)
    (htray : t.pins.traySel = s.pins.traySel) (hmgr : t.plb.mgrLimit = s.plb.mgrLimit)
    (hplinth : t.plb.plinthLimit = s.plb.plinthLimit) (htj : t.plb.tjThrottle = s.plb.tjThrottle)
    (hlevel : s.plb.level ≤ 88 → t.plb.level ≤ 88) : s.Steady t := by
  refine ⟨⟨hpending, fun ⟨hm1, hm2, hp1, hp2, ht1, ht2, hk⟩ => ?_⟩, hpkg, htray⟩
  rw [State.powerInRange, hmgr, hplinth, htj]
  exact ⟨hm1, hm2, hp1, hp2, ht1, ht2, hlevel hk⟩

theorem State.nextLevel_le {s : State} (h : s.plb.level ≤ 88) (watts : Nat) : s.nextLevel watts ≤ 88 := by
  have hmax : maxLevel = 88 := rfl
  unfold State.nextLevel
  simp only [hmax]
  repeat' split
  all_goals omega

theorem State.doPowerLoop_steady (s : State) (sense : PowerSense) : s.Steady (s.doPowerLoop sense) := by
  have hsensed : s.Steady { s with pins := { s.pins with prochotN := sense.prochotN } } := State.steady_of_kept rfl
  refine hsensed.trans ?_
  unfold State.doPowerLoop
  dsimp only
  split
  · exact State.steady_refl _
  · exact State.steady_of_level rfl rfl rfl rfl rfl rfl fun h => State.nextLevel_le h sense.watts

theorem State.doProchot_steady (s : State) : s.Steady s.doProchot := by
  have hlow : s.Steady { s with pins := { s.pins with prochotN := false } } := State.steady_of_kept rfl
  refine hlow.trans (State.steady_if fun _ => ?_)
  exact State.steady_of_level rfl rfl rfl rfl rfl rfl fun h => Nat.max_le.mpr ⟨by decide, h⟩

theorem State.readStatusWord_steady (s : State) (reg : Nat) (acked overCurrent : Bool) :
    s.Steady (s.readStatusWord reg acked overCurrent) := by
  have hvr : s.Steady (s.vrTransaction reg acked) := State.steady_of_kept (s.vrTransaction_kept reg acked)
  unfold State.readStatusWord
  split
  · exact hvr.trans (State.steady_of_level rfl rfl rfl rfl rfl rfl fun _ => Nat.le_refl _)
  · exact hvr

theorem State.doVrAlert_steady (s : State) (reg : Fin 5) (acked overCurrent : Bool) :
    s.Steady (s.doVrAlert reg acked overCurrent) := by
  unfold State.doVrAlert
  split
  · exact s.steady_refl
  · exact State.mgmtOp_steady _ (s.readStatusWord_steady reg.val acked overCurrent)

/-! ### Management operations (R79) -/

theorem State.plumbReset_steady (s : State) : s.Steady s.plumbReset :=
  (s.doPackageReset_steady .management).trans (State.steady_of_kept (State.answer_kept _ 0 []))

/-- So does whatever a failover held. -/
theorem State.performHeld_steady (s : State) (op : HeldOp) : s.Steady (s.performHeld op) := by
  cases op with
  | power on u => exact State.steady_if fun _ => State.steady_of_kept (s.powerRequest_kept u.toNat on)
  | managerLimit w => exact State.steady_if fun _ => s.setManagerLimit_steady w
  | throttle c => exact State.steady_if fun _ => s.setThrottle_steady c
  | alert reg acked oc => exact s.readStatusWord_steady reg.val acked oc
  | limit w => exact s.setPlinthLimit_steady w.toNat
  | unitPower on u => exact State.steady_of_kept (s.plumbUnitPower_kept on u.toNat)
  | packageReset => exact s.plumbReset_steady
  | stage area b ok => exact State.steady_of_kept (s.doStage_kept area.val b ok)

theorem State.doFailover_steady (s : State) (ended : Bool) : s.Steady (s.doFailover ended) := by
  unfold State.doFailover
  split
  · exact s.steady_refl
  · split
    · split
      · extract_lets ops
        have hbegun : s.Steady { s with plb := { s.plb with failover := false, heldOps := [] } } :=
          State.steady_of_kept rfl
        exact hbegun.trans (foldl_steady State.performHeld_steady ops _)
      · exact s.steady_refl
    · split
      · exact s.steady_refl
      · exact State.steady_of_kept (State.raise_kept ..)

/-! ### Register writes -/

theorem State.writePlb_steady (s : State) (r : Reg) (v : Nat) : s.Steady (s.writePlb r v) := by
  unfold State.writePlb
  split
  · exact s.steady_refl
  · split
    case h_6 => exact State.mgmtOp_steady _ (s.setThrottle_steady _)
    all_goals (repeat' split) <;> exact State.steady_of_kept rfl

theorem State.writeReg_steady (s : State) (r : Reg) (v : Nat) : s.Steady (s.writeReg r v) := by
  unfold State.writeReg
  split
  · exact State.steady_of_kept (s.writeImageReg_kept r v)
  · exact State.steady_of_kept (s.writeCfg_kept r v)
  · exact s.writePlb_steady r v
  · exact State.steady_of_kept (s.writeFltRing_kept r v)
  · exact State.steady_of_kept (s.writeFlt_kept r v)
  · exact State.steady_of_kept (s.writeTel_kept r v)
  · exact s.steady_refl

theorem State.writeHalf_steady (s : State) (port : Bool) (r : Reg) (v : Nat) : s.Steady (s.writeHalf port r v) := by
  unfold State.writeHalf
  split
  · exact State.steady_of_kept (s.doAck_kept _)
  · split
    · exact State.steady_of_kept (s.startFw_kept ..)
    · exact State.steady_of_kept (s.startFw_kept ..)
    · exact s.writeReg_steady _ _
  · exact s.writeReg_steady _ _

theorem State.applyMatch_steady {α : Type} (s : State) (m : Match α) {f : State → α → Nat → State}
    {bad : State → State} (v : Nat) (hf : ∀ (s : State) r v, s.Steady (f s r v)) (hbad : s.Steady (bad s)) :
    s.Steady (s.applyMatch m f bad v) := by
  cases m with
  | whole r => exact hf s r v
  | halves lo hi =>
    cases lo with
    | none =>
      cases hi with
      | none => exact s.steady_refl
      | some r => exact hf s r _
    | some q =>
      cases hi with
      | none => exact hf s q _
      | some r => exact (hf s q _).trans (hf _ r _)
  | bad => exact hbad

theorem State.doRegisterWrite_steady (s : State) (w : Window) (off : BitVec 24) (wide : Bool) (value : Nat) :
    s.Steady (s.doRegisterWrite w off wide value) := by
  have hbad : s.Steady (s.badWrite w.bar0 off) := State.steady_of_kept (s.badWrite_kept w.bar0 off)
  unfold State.doRegisterWrite
  extract_lets v bad
  split
  · exact s.applyMatch_steady _ v (fun s r v => State.steady_of_kept (s.writePage_kept _ r v)) hbad
  · refine s.applyMatch_steady _ v (fun s r v => ?_) hbad
    split
    · exact s.writeHalf_steady w.port r v
    · exact s.writeReg_steady r v

/-! ### Every command -/

/-- The commands that sample the straps or lose them (R376). -/
def cyclesPower : Instr → Bool
  | .coldStart .. | .pwrGoodFall => true
  | _ => false

/-- A command answers a next state, with the queue, the straps and the ranges kept. -/
def Steadies (o : Host.Outcome State Fault Refusal) (s : State) : Prop := ∃ t, o = .next t ∧ s.Steady t

theorem next_steadies {s t : State} (h : s.Steady t) : Steadies (.next t) s := ⟨t, rfl, h⟩

theorem exec_steady (c : Instr) (s : State) (hc : cyclesPower c = false) : Steadies (exec c s) s := by
  cases hk : changesKept c with
  | false =>
    obtain ⟨t, ht, hkept⟩ := exec_keeps c s hk
    exact ⟨t, ht, State.steady_of_kept hkept⟩
  | true =>
    cases c with
    | fuseBlowDone ok => exact next_steadies (s.doBlowDone_steady ok)
    | perstNAssert => exact next_steadies s.doPerstAssert_steady
    | packageReset src => exact next_steadies (s.doPackageReset_steady src)
    | plumbPackageReset => exact next_steadies (State.steady_if fun _ => State.mgmtOp_steady _ s.plumbReset_steady)
    | plbPowerLimitWrite v =>
      exact next_steadies (State.steady_if fun _ => State.mgmtOp_steady _ (s.setManagerLimit_steady _))
    | setPowerLimit w =>
      exact next_steadies (State.steady_if fun _ => State.mgmtOp_steady _ (s.setPlinthLimit_steady _))
    | registerWrite w off wide v => exact next_steadies (s.doRegisterWrite_steady w off wide v.toNat)
    | plumbFailover ended => exact next_steadies (s.doFailover_steady ended)
    | powerLoopTick sense => exact next_steadies (s.doPowerLoop_steady sense)
    | prochotAssert => exact next_steadies s.doProchot_steady
    | vrAlert reg acked oc => exact next_steadies (s.doVrAlert_steady reg acked oc)
    | coldStart | pwrGoodFall => cases hc
    | _ => cases hk

/-- A power cycle keeps all but the straps. -/
theorem exec_orderly (c : Instr) (s : State) : ∃ t, exec c s = .next t ∧ s.Orderly t := by
  cases hc : cyclesPower c with
  | false =>
    obtain ⟨t, ht, hsteady⟩ := exec_steady c s hc
    exact ⟨t, ht, hsteady.toOrderly⟩
  | true =>
    cases c with
    | coldStart pkgId traySel => exact ⟨_, rfl, s.doColdStart_orderly pkgId traySel⟩
    | pwrGoodFall => exact ⟨_, rfl, s.doPwrGoodFall_orderly⟩
    | _ => cases hc

/-- Settles O2: every command keeps the queue, and all but those of a power cycle keep the straps. -/
theorem queueAndStraps : Obligations.QueueAndStraps := by
  intro c s t h
  obtain ⟨u, hu, horderly⟩ := exec_orderly c s
  obtain rfl := Host.Outcome.next.inj (hu.symm.trans h)
  refine ⟨horderly.pending, fun hcold hfall => ?_⟩
  have hc : cyclesPower c = false := by
    cases c with
    | coldStart k b => exact absurd rfl (hcold k b)
    | pwrGoodFall => exact absurd rfl hfall
    | _ => rfl
  obtain ⟨v, hv, hsteady⟩ := exec_steady c s hc
  obtain rfl := Host.Outcome.next.inj (hv.symm.trans h)
  exact ⟨hsteady.pkgId, hsteady.traySel⟩

/-- Settles O9: every command takes only values in the ranges, and an idle nanosecond takes none. -/
theorem powerStaysInRange : Obligations.PowerStaysInRange := by
  intro s t hs h
  unfold step at h
  cases hp : s.pending with
  | nil =>
    rw [hp] at h
    obtain rfl := Host.Outcome.next.inj h
    exact State.powerInRange_of_kept s.idle_kept hs
  | cons c rest =>
    rw [hp] at h
    obtain ⟨u, hu, horderly⟩ := exec_orderly c { s with pending := rest }
    obtain rfl := Host.Outcome.next.inj (hu.symm.trans h)
    exact horderly.power hs

end Sys2Proof.Machine

/-! ## The power loop, regulators and temperature (O48) -/

namespace Sys2Proof.Machine

/-! ### Power limits (R386) -/

section Limits
variable {s : State} {w : Nat}

theorem limitOk_of_range (hlo : 300 ≤ w) (hhi : w ≤ 1150) : limitOk w = true := limitOk_iff.mpr ⟨hlo, hhi⟩

theorem limitOk_outside (h : w < 300 ∨ 1150 < w) : limitOk w = false := by
  rw [Bool.eq_false_iff, ne_eq, limitOk_iff]
  omega

theorem State.setManagerLimit_taken (hlo : 300 ≤ w) (hhi : w ≤ 1150) :
    s.setManagerLimit w = { s with plb := { s.plb with mgrLimit := w } } := by
  rw [State.setManagerLimit, limitOk_of_range hlo hhi, if_pos rfl]

theorem State.setManagerLimit_ignored (h : w < 300 ∨ 1150 < w) : s.setManagerLimit w = s := by
  simp [State.setManagerLimit, limitOk_outside h]

theorem State.pwrGood_of_powered (h : s.powered = true) : s.pins.pwrGood = true := by
  simp only [State.powered, Bool.and_eq_true] at h
  exact h.1

theorem State.not_thermtrip_of_powered (h : s.powered = true) : s.plb.thermtrip = false := by
  simp only [State.powered, Bool.and_eq_true, Bool.not_eq_true'] at h
  exact h.2

theorem State.answer_pwrGood (h : s.pins.pwrGood = true) (status : Nat) (b : Bytes) :
    s.answer status b = { s with plb := { s.plb with answer := (status, b) } } := by
  simp [State.answer, h]

theorem State.answer_sameBut (s : State) (status : Nat) (b : Bytes) : s.sameBut (s.answer status b) [.plb] := by
  unfold State.answer
  split
  · intro p hp
    cases p with
    | plb => exact absurd List.mem_cons_self hp
    | _ => rfl
  · exact s.sameBut_refl _

theorem State.answer_plinthLimit (s : State) (status : Nat) (b : Bytes) :
    (s.answer status b).plb.plinthLimit = s.plb.plinthLimit := congrArg Kept.plinthLimit (s.answer_kept status b)

theorem State.setPlinthLimit_taken (hpow : s.powered = true) (hlo : 300 ≤ w) (hhi : w ≤ 1150) :
    s.setPlinthLimit w = { s with plb := { s.plb with answer := (0, []), plinthLimit := w } } := by
  simp [State.setPlinthLimit, limitOk_of_range hlo hhi, State.answer_pwrGood (State.pwrGood_of_powered hpow)]

theorem State.setPlinthLimit_refused (h : w < 300 ∨ 1150 < w) :
    s.setPlinthLimit w = (s.drawChoice 256).2.answer (s.drawChoice 256).1 [] := by
  simp [State.setPlinthLimit, limitOk_outside h]

theorem exec_plbPowerLimitWrite (hready : s.ready = true) (hfail : s.plb.failover = false) (v : W32) :
    exec (.plbPowerLimitWrite v) s = .next (s.setManagerLimit (v.toNat % 2048)) := by
  have hbits : bitsOf v.toNat 10 0 = v.toNat % 2048 := by simp [bitsOf]
  simp [exec, execPlbPowerLimitWrite, State.doPowerLimit, hready, State.mgmtOp_now hfail, hbits]

theorem exec_plbPowerLimitWrite_ignored (v : W32) (h : s.ready = false ∨
    s.plb.failover = false ∧ (v.toNat % 2048 < 300 ∨ 1150 < v.toNat % 2048)) :
    exec (.plbPowerLimitWrite v) s = .next s := by
  rcases h with hready | ⟨hfail, hout⟩
  · simp [exec, execPlbPowerLimitWrite, State.doPowerLimit, hready]
  · cases hready : s.ready with
    | false => simp [exec, execPlbPowerLimitWrite, State.doPowerLimit, hready]
    | true => rw [exec_plbPowerLimitWrite hready hfail, State.setManagerLimit_ignored hout]

theorem exec_setPowerLimit (hpow : s.powered = true) (hfail : s.plb.failover = false) (w : BitVec 16) :
    exec (.setPowerLimit w) s = .next (s.setPlinthLimit w.toNat) := by
  simp [exec, execSetPowerLimit, hpow, State.mgmtOp_now hfail]

end Limits

/-! ### The loop (R386, R391) and PROCHOT_N -/

section Loop
variable {s : State}

/-- The state in which the loop finds PROCHOT_N. -/
def State.senseProchot (s : State) (prochotN : Bool) : State := { s with pins := { s.pins with prochotN := prochotN } }

theorem exec_powerLoopTick_idle (sense : PowerSense) (h : s.time % 10000 ≠ 0 ∨ s.plb.lastLoop = some s.time) :
    exec (.powerLoopTick sense) s = .next (s.senseProchot sense.prochotN) := by
  refine congrArg Host.Outcome.next (if_pos ?_)
  rcases h with htime | hdone
  · simp [htime]
  · simp [hdone]

/-- What the loop leaves where it acts: its level follows from the estimate. -/
theorem exec_powerLoopTick (hpow : s.powered = true) (sense : PowerSense) (htime : s.time % 10000 = 0)
    (hnew : s.plb.lastLoop ≠ some s.time) :
    ∃ t, exec (.powerLoopTick sense) s = .next t ∧ s.sameBut t [.plb, .pins] ∧
      t.pins = { s.pins with prochotN := sense.prochotN } ∧ t.plb.estimates.head? = some sense.watts ∧
      t.plb.mgrLimit = s.plb.mgrLimit ∧ t.plb.plinthLimit = s.plb.plinthLimit ∧
      t.plb.level = (s.senseProchot sense.prochotN).nextLevel sense.watts := by
  have hpow' : State.powered { s with pins := { s.pins with prochotN := sense.prochotN } } = true := hpow
  refine ⟨_, congrArg Host.Outcome.next (if_neg (by simp [hpow', htime, hnew])), fun p hp => ?_, rfl, rfl, rfl, rfl, rfl⟩
  cases p with
  | plb | pins => exact absurd (by decide) hp
  | _ => rfl

/-- The level while neither an over-current nor PROCHOT_N forces it. -/
theorem State.nextLevel_free {watts : Nat} (hoc : s.plb.overCurrentUntil ≤ s.time) (hpin : s.pins.prochotN = true) :
    s.nextLevel watts = if s.powerLimit < watts ∨ s.plb.thermal = true then min 88 (s.plb.level + 1)
      else if watts + 25 < s.powerLimit then s.plb.level - 1 else s.plb.level := by
  have hoc' : ¬s.time < s.plb.overCurrentUntil := Nat.not_lt.mpr hoc
  simp [State.nextLevel, hoc', hpin, maxLevel]

theorem State.nextLevel_low {watts : Nat} (hpin : s.pins.prochotN = false) : 32 ≤ s.nextLevel watts := by
  unfold State.nextLevel
  simp only [hpin, maxLevel]
  split
  · decide
  · exact Nat.le_max_left _ _

theorem State.nextLevel_overCurrent {watts : Nat} (hoc : s.time < s.plb.overCurrentUntil) : s.nextLevel watts = 88 := by
  simp [State.nextLevel, hoc, maxLevel]

theorem exec_prochotAssert (hpow : s.powered = true) : exec .prochotAssert s = .next { s with
    pins := { s.pins with prochotN := false }, plb := { s.plb with level := max 32 s.plb.level } } :=
  congrArg Host.Outcome.next (if_pos hpow)

/-- R385: STATUS_WORD is read; an over-current sets the greatest level for 10 ms. -/
theorem exec_vrAlert (hpow : s.powered = true) (hfail : s.plb.failover = false) (reg : Fin 5) (acked oc : Bool) :
    exec (.vrAlert reg acked oc) s = .next (if acked && oc then
        { s.vrTransaction reg.val acked with plb := { (s.vrTransaction reg.val acked).plb with
          level := 88, overCurrentUntil := s.time + 10000000 } }
      else s.vrTransaction reg.val acked) := by
  simp [exec, execVrAlert, State.doVrAlert, hpow, State.mgmtOp_now hfail, State.readStatusWord]
  rfl

end Loop

/-! ### Temperature (R388, R389) -/

section Thermal
variable {s : State}

/-- The sensors that a reading finds at 115 degrees or more. -/
def hotSensors (r : List Nat) : List Nat := (List.range 104).filter fun i => decide (115 ≤ r.getD i 0)

theorem mem_hotSensors {r : List Nat} {i : Nat} : i ∈ hotSensors r ↔ i < 104 ∧ 115 ≤ r.getD i 0 := by
  simp [hotSensors]

/-- The state after a reading that trips nothing. -/
def State.afterReading (s : State) (r : List Nat) : State :=
  { s.readSensors r with plb := { (s.readSensors r).plb with hot := hotSensors r } }

theorem State.doThermal_eq (hpow : s.powered = true) (r : List Nat) :
    s.doThermal r = if (hotSensors r).any (fun i => s.plb.hot.contains i) then (s.afterReading r).thermTrip
      else s.afterReading r := by
  simp only [State.doThermal, hpow]
  rfl

/-- A trip needs one sensor at 115 degrees in two readings that follow each other. -/
theorem trips_iff {hot r : List Nat} : (hotSensors r).any (fun i => hot.contains i) = true ↔
    ∃ i ∈ hot, i < 104 ∧ 115 ≤ r.getD i 0 := by
  simp only [List.any_eq_true, mem_hotSensors, List.contains_iff_mem]
  exact ⟨fun ⟨i, hi, hmem⟩ => ⟨i, hmem, hi⟩, fun ⟨i, hmem, hi⟩ => ⟨i, hi, hmem⟩⟩

theorem State.afterReading_sameBut (s : State) (r : List Nat) : s.sameBut (s.afterReading r) [.plb] := by
  intro p hp
  cases p with
  | plb => exact absurd List.mem_cons_self hp
  | _ => rfl

/-- R388: the thermal trigger. -/
theorem State.afterReading_thermal (s : State) (r : List Nat) : (s.afterReading r).plb.thermal =
    (r.any (fun t => decide (s.plb.tjThrottle ≤ t)) ||
      (s.plb.thermal && !r.all (fun t => decide (t + 2 ≤ s.plb.tjThrottle)))) := rfl

theorem State.afterReading_hot (s : State) {r : List Nat} (h : ∃ x ∈ r, s.plb.tjThrottle ≤ x) :
    (s.afterReading r).plb.thermal = true := by
  have hany : r.any (fun t => decide (s.plb.tjThrottle ≤ t)) = true := by simpa using h
  rw [State.afterReading_thermal, hany, Bool.true_or]

theorem State.afterReading_cool (s : State) {r : List Nat} (h : ∀ x ∈ r, x + 2 ≤ s.plb.tjThrottle) :
    (s.afterReading r).plb.thermal = false := by
  have hnone : r.any (fun t => decide (s.plb.tjThrottle ≤ t)) = false := by
    simp only [List.any_eq_false, decide_eq_true_eq]
    intro x hx
    have := h x hx
    omega
  have hall : r.all (fun t => decide (t + 2 ≤ s.plb.tjThrottle)) = true := by simpa using h
  rw [State.afterReading_thermal, hnone, hall]
  simp

/-- R389: after THERMTRIP the device is FATAL, its clocks and its links are still. -/
theorem State.thermTrip_stopped (s : State) : s.thermTrip.plb.thermtrip = true ∧ s.thermTrip.dev.state = .fatal ∧
    s.thermTrip.powered = false ∧ s.thermTrip.linkUp false = false ∧ s.thermTrip.linkUp true = false := by
  have hfatal := State.enterState_state (s.packageStop (unitPlumb false) 3) .fatal
  unfold State.thermTrip
  generalize (s.packageStop (unitPlumb false) 3).enterState .fatal = t at hfatal
  exact ⟨rfl, hfatal, Bool.and_false _, rfl, rfl⟩

end Thermal

/-! ### The statement -/

/-- Settles O48: limits by their ranges, the level by the estimate, PROCHOT_N and the over-current, and a trip by two
readings. -/
theorem powerLoop : Obligations.PowerLoop := by
  intro s hpow
  refine ⟨fun v => ⟨fun hready hfail hlo hhi => ?_, exec_plbPowerLimitWrite_ignored v⟩, fun w hfail hlo hhi => ?_,
    fun w hfail hout => ?_, exec_powerLoopTick_idle, fun x htime hnew => ?_, exec_prochotAssert hpow,
    fun reg acked oc hfail => exec_vrAlert hpow hfail reg acked oc, fun r hcool => ?_, fun r i hwas hi hhot => ?_⟩
  · rw [exec_plbPowerLimitWrite hready hfail, State.setManagerLimit_taken hlo hhi]
  · rw [exec_setPowerLimit hpow hfail, State.setPlinthLimit_taken hpow hlo hhi]
  · refine ⟨_, (exec_setPowerLimit hpow hfail w).trans (congrArg _ (State.setPlinthLimit_refused hout)), ?_, ?_⟩
    · exact State.answer_plinthLimit _ _ _
    · exact ((s.drawChoice_sameBut 256).mono (by decide)).trans ((State.answer_sameBut _ _ _).mono (by decide))
  · obtain ⟨t, ht, hsame, hpins, hest, hmgr, hplinth, hlevel⟩ := exec_powerLoopTick hpow x htime hnew
    refine ⟨t, ht, hsame, hpins, hest, hmgr, hplinth, fun hoc hpin => ?_, fun hpin _ => ?_, fun hoc => ?_⟩
    · rw [hlevel, State.nextLevel_free (s := s.senseProchot x.prochotN) hoc hpin]
      refine ⟨fun hup => if_pos hup, fun hbelow hcold => ?_, fun hle hnear hcold => ?_⟩
      · have hnot : ¬(s.powerLimit < x.watts ∨ s.plb.thermal = true) := by
          simp only [hcold, Bool.false_eq_true, or_false]
          omega
        exact (if_neg hnot).trans (if_pos hbelow)
      · have hnot : ¬(s.powerLimit < x.watts ∨ s.plb.thermal = true) := by
          simp only [hcold, Bool.false_eq_true, or_false]
          omega
        exact (if_neg hnot).trans (if_neg (Nat.not_lt.mpr hnear))
    · rw [hlevel]
      exact State.nextLevel_low hpin
    · rw [hlevel]
      exact State.nextLevel_overCurrent hoc
  · have hno : ¬(hotSensors r).any (fun i => s.plb.hot.contains i) = true := by
      rw [trips_iff]
      rintro ⟨i, hwas, -, hhot⟩
      exact absurd (hcool i hwas) (Nat.not_lt.mpr hhot)
    refine ⟨_, congrArg Host.Outcome.next ((State.doThermal_eq hpow r).trans (if_neg hno)),
      State.not_thermtrip_of_powered hpow, s.afterReading_sameBut r, fun i hi => ?_, s.afterReading_hot, s.afterReading_cool⟩
    exact mem_hotSensors.trans (and_iff_right hi)
  · have htrip := trips_iff.mpr ⟨i, hwas, hi, hhot⟩
    exact ⟨_, congrArg Host.Outcome.next ((State.doThermal_eq hpow r).trans (if_pos htrip)),
      (s.afterReading r).thermTrip_stopped⟩

end Sys2Proof.Machine

/-! ## A device in FAILED or FATAL (O6) -/

namespace Sys2Proof.Machine

/-- The device is FAILED or FATAL, with power (R70, R402). -/
structure State.Stopped (s : State) : Prop where
  pwrGood : s.pins.pwrGood = true
  state : s.dev.state = .failed ∨ s.dev.state = .fatal

namespace State.Stopped
variable {s : State}

theorem not_ready (h : s.Stopped) : s.ready = false := by
  rcases h.state with hs | hs <;> simp [State.ready, hs]

theorem not_imageRegs (h : s.Stopped) : s.imageRegs = false := by
  rcases h.state with hs | hs <;> simp [State.imageRegs, hs]

theorem stopRegs (h : s.Stopped) : s.stopRegs = true := by
  rcases h.state with hs | hs <;> simp [State.stopRegs, h.pwrGood, hs]

theorem not_preReady (h : s.Stopped) : s.preReady = false := by
  rcases h.state with hs | hs <;> simp [State.preReady, hs]

end State.Stopped

/-! ### Writes that wait for READY -/

section NotReady
variable {s : State} (hr : s.ready = false)
include hr

theorem State.pageWrite_of_not_ready (i : Nat) (doorbell : Bool) (f : State → State) : s.pageWrite i doorbell f = s := by
  simp [State.pageWrite, hr]

theorem State.migCtl_of_not_ready (f : State → State) : s.migCtl f = s := by simp [State.migCtl, hr]

theorem State.wayCtl_of_not_ready (f : State → State) : s.wayCtl f = s := by simp [State.wayCtl, hr]

theorem State.doHead_of_not_ready {r : RingId} (hflt : r ≠ .flt) (v : Nat) : s.doHead r v = s := by
  cases r with
  | flt => exact absurd rfl hflt
  | _ => simp [State.doHead, State.pageWrite_of_not_ready hr, hr]

theorem State.doQueueCfg_of_not_ready {reg : QueueReg} (hcfg : reg ≠ .ringCfg .flt) (hbase : reg ≠ .ringBase .flt)
    (v : W64) : s.doQueueCfg reg v = s := by
  cases reg with
  | sqCfg i q | sqBase i q => exact State.pageWrite_of_not_ready hr _ _ _
  | ringCfg r =>
    cases r with
    | flt => exact absurd rfl hcfg
    | _ => simp [State.doQueueCfg, State.onManagerRing, State.pageWrite_of_not_ready hr, hr]
  | ringBase r =>
    cases r with
    | flt => exact absurd rfl hbase
    | _ => simp [State.doQueueCfg, State.onManagerRing, State.pageWrite_of_not_ready hr, hr]

end NotReady

/-! ### Commands of registers that a stopped device ignores -/

/-- A write that an operation's first check turns away. -/
theorem if_guarded {b : Bool} (h : b = true) (s t : State) : (if b then s else t) = s := if_pos h

theorem if_unguarded {b : Bool} (h : b = false) (s t : State) : (if b then t else s) = s := by simp [h]

section Ignored
variable {s : State} (h : s.Stopped)
include h

theorem exec_ignored_of_stopped (c : Instr) (hc : c.ignoredWhenStopped = true) : exec c s = .next s := by
  have hr := h.not_ready
  have hnr : (!s.ready) = true := by simp [hr]
  have hnimg : (!s.imageRegs) = true := by simp [h.not_imageRegs]
  cases c with
  | sqTailDoorbell => exact congrArg _ (State.pageWrite_of_not_ready hr _ _ _)
  | cqHeadDoorbell r v =>
    refine congrArg _ (State.doHead_of_not_ready hr (r := r) ?_ _)
    rintro rfl
    cases hc
  | queueCfgWrite reg v =>
    refine congrArg _ (State.doQueueCfg_of_not_ready hr (reg := reg) ?_ ?_ v) <;> rintro rfl <;> cases hc
  | qeTenantReset => exact congrArg _ (State.pageWrite_of_not_ready hr _ _ _)
  | qePoolFree => exact congrArg _ (State.pageWrite_of_not_ready hr _ _ _)
  | applySlice => exact congrArg _ (if_guarded hnimg s _)
  | loadWhole => exact congrArg _ (if_guarded hnimg s _)
  | storeSlot => exact congrArg _ (if_guarded hnimg s _)
  | fwLoad => exact congrArg _ (if_guarded hnimg s _)
  | fwStoreSlot => exact congrArg _ (if_guarded hnimg s _)
  | revoke => simp [exec, execRevoke, State.doRevoke, hr]
  | raiseFloor => simp [exec, execRaiseFloor, State.doRaiseFloor, hr]
  | drain => exact congrArg _ (if_guarded hnr s _)
  | resume => exact congrArg _ (if_guarded hnr s _)
  | cfgHandleSet => exact congrArg _ (if_guarded hnr s _)
  | cfgHandleFlip => exact congrArg _ (if_guarded hnr s _)
  | cfgFill => simp [exec, execCfgFill, State.doFill, hr]
  | cfgAccessErrClear => exact congrArg _ (if_unguarded hr s _)
  | mcStatsClear => exact congrArg _ (if_unguarded hr s _)
  | killPin => exact congrArg _ (if_guarded hnr s _)
  | applyPpr => exact congrArg _ (if_unguarded hr s _)
  | wayDisable => exact congrArg _ (State.wayCtl_of_not_ready hr _)
  | wayEnable => exact congrArg _ (State.wayCtl_of_not_ready hr _)
  | peer => exact congrArg _ (if_guarded hnr s _)
  | accept => exact congrArg _ (if_guarded hnr s _)
  | powerOff => exact congrArg _ (if_unguarded hr s _)
  | powerOn => exact congrArg _ (if_unguarded hr s _)
  | plbPowerLimitWrite => exact congrArg _ (if_unguarded hr s _)
  | arm => exact congrArg _ (if_guarded hnr s _)
  | disarm => exact congrArg _ (if_guarded hnr s _)
  | forcePath => exact congrArg _ (if_guarded hnr s _)
  | fltRepairGo => simp [exec, execFltRepairGo, State.doRepairGo, hr]
  | snap => exact congrArg _ (if_guarded hnr s _)
  | clear => exact congrArg _ (if_unguarded hr s _)
  | telSelWrite => exact congrArg _ (if_guarded hnr s _)
  | logOn => exact congrArg _ (State.migCtl_of_not_ready hr _)
  | logOff => exact congrArg _ (State.migCtl_of_not_ready hr _)
  | mark => exact congrArg _ (State.migCtl_of_not_ready hr _)
  | freeze => exact congrArg _ (State.migCtl_of_not_ready hr _)
  | thaw => exact congrArg _ (State.migCtl_of_not_ready hr _)
  | migExport => exact congrArg _ (State.migCtl_of_not_ready hr _)
  | migImport => exact congrArg _ (State.migCtl_of_not_ready hr _)
  | migCopy => exact congrArg _ (if_guarded hnr s _)
  | _ => cases hc

end Ignored

/-! ### Register writes that a stopped device ignores -/

theorem Bank.at?_eq_some {α : Type} {k : Bank α} {off : Nat} {w : Bool} {r : α} (h : k.at? off = some (w, r)) :
    k.wide = w ∧ ∃ n, k.reg n = r := by
  unfold Bank.at? at h
  split at h
  · obtain ⟨hw, hreg⟩ := Prod.mk.inj (Option.some.inj h)
    exact ⟨hw, _, hreg⟩
  · cases h

/-- A 64-bit access that is one register's finds it in a family of 64-bit registers. -/
theorem bank_of_matchAccess {α : Type} {m : List (Bank α)} {off : Nat} {r : α} (h : matchAccess m off true = .whole r) :
    ∃ k ∈ m, k.wide = true ∧ ∃ n, k.reg n = r := by
  unfold matchAccess at h
  rw [if_pos rfl] at h
  split at h
  · cases h
  · split at h
    next q hq =>
      cases h
      obtain ⟨k, hk, hat⟩ := List.exists_of_findSome?_eq_some hq
      exact ⟨k, hk, Bank.at?_eq_some hat⟩
    next => split at h <;> cases h

/-- FLT_ACK and CFG_FW_CTL are 32 bits wide (Tables 17.3, 17.7). -/
theorem wide_register_ne {off : Nat} {r : Reg} (h : matchAccess bar2Map off true = .whole r) : r ≠ .ack ∧ r ≠ .fwCtl := by
  have hmap : ∀ k ∈ bar2Map, k.wide = true → ∀ n, k.reg n ≠ .ack ∧ k.reg n ≠ .fwCtl := by
    simp [bar2Map, mapCfgMc, mapUcSwd, mapFltMig, one]
  obtain ⟨k, hk, hwide, n, rfl⟩ := bank_of_matchAccess h
  exact hmap k hk hwide n

section StoppedWrites
variable {s : State} (h : s.Stopped)
include h

theorem State.writeReg_of_stopped {r : Reg} (hgroup : r.group ≠ some .fltRing) (hctl : r ≠ .resetCtl) (n : Nat) :
    s.writeReg r n = s := by
  have hr := h.not_ready
  unfold State.writeReg
  split
  · simp [State.writeImageReg, h.not_imageRegs]
  · unfold State.writeCfg
    dsimp only
    split
    · exact absurd rfl hctl
    · simp [hr]
  · simp [State.writePlb, hr]
  next hflt => exact absurd hflt hgroup
  · simp [State.writeFlt, hr]
  · simp [State.writeTel, hr]
  · rfl

theorem exec_write_of_stopped {off : BitVec 24} {wide : Bool} {r : Reg} (hm : matchAccess bar2Map off.toNat wide = .whole r)
    (hgroup : r.group ≠ some .fltRing) (hctl : r ≠ .resetCtl) (port : Bool) (v : W64) :
    exec (.registerWrite ⟨false, port⟩ off wide v) s = .next s := by
  cases wide with
  | false => rw [exec_write_narrow hm, State.writeReg_of_stopped h hgroup hctl]
  | true =>
    obtain ⟨hack, hfw⟩ := wide_register_ne hm
    rw [exec_write_wide hm hack hfw, State.writeReg_of_stopped h hgroup hctl]

theorem exec_write_page_of_stopped {off : BitVec 24} {wide : Bool} {r : PageReg}
    (hm : matchAccess pageMap (off.toNat % 0x10000) wide = .whole r) (port : Bool) (v : W64) :
    exec (.registerWrite ⟨true, port⟩ off wide v) s = .next s := by
  simp [exec, execRegisterWrite, State.doRegisterWrite, hm, State.applyMatch, State.writePage,
    State.pageWrite_of_not_ready h.not_ready]

/-! ### What a stopped device takes -/

theorem exec_write_errMask_of_stopped (port : Bool) (v : W64) : exec (.registerWrite ⟨false, port⟩ 0xA028 false v) s
    = .next { s with flt := { s.flt with mask := v.toNat % 8 } } := by
  rw [exec_write_narrow (r := .errMask) (by decide +kernel)]
  simp [State.writeReg, Reg.group, State.writeFltRing, h.stopRegs]

theorem exec_packageReset_of_stopped (hpow : s.powered = true) :
    exec (.packageReset (.manager 0x5A)) s = .next (s.beginPackage causeManager false) := by
  simp [exec, execPackageReset, State.doPackageReset, h.stopRegs, hpow]

end StoppedWrites

theorem exec_fltHead {s : State} (h : s.stopRegs = true) (v : W32) : exec (.cqHeadDoorbell .flt v) s
    = .next { s with flt := { s.flt with ring := s.flt.ring.headDoorbell (v.toNat % 65536) } } :=
  congrArg Host.Outcome.next (if_pos h)

theorem exec_fltAck {s : State} (h : s.stopRegs = true) (v : W32) : exec (.fltAck v) s = .next { s with flt := { s.flt with
    ack := if ackCovers s.flt.lastSeq v then v else s.flt.lastSeq
    openRecs := s.flt.openRecs.filter fun e : W32 × Nat =>
      !ackCovers (if ackCovers s.flt.lastSeq v then v else s.flt.lastSeq) e.1 } } := by
  simp [exec, execFltAck, State.doAck, h]

theorem State.beginPackage_state (s : State) (cause : Nat) (hold : Bool) :
    (s.beginPackage cause hold).dev.state = .bringup := by
  unfold State.beginPackage
  dsimp only
  split
  · rfl
  · rw [State.signal_dev]

/-! ### The statement -/

/-- Settles O6: nothing that waits for READY or for the image registers acts, and the registers of R402 do. -/
theorem stoppedDevice : Obligations.StoppedDevice := by
  intro s hpwr hstate
  have h : s.Stopped := ⟨hpwr, hstate⟩
  refine ⟨fun r => ?_, State.readBar0_of_not_ready h.not_ready, exec_ignored_of_stopped h,
    fun off port wide v r hm hgroup hctl => exec_write_of_stopped h hm hgroup hctl port v,
    fun off port wide v r hm => exec_write_page_of_stopped h hm port v, exec_write_errMask_of_stopped h,
    exec_fltHead h.stopRegs, fun v hcovers => ?_, fun hpow => ?_⟩
  · simp [State.readReg, h.not_preReady]
  · rw [exec_fltAck h.stopRegs]
    simp only [hcovers, if_true]
  · exact ⟨_, exec_packageReset_of_stopped h hpow, s.beginPackage_state _ _⟩

end Sys2Proof.Machine

/-! ## What reset leaves (O3) -/

namespace Sys2Proof.Machine

/-- Settles O3: the registers are read at the one state that reset leaves, which is in range by its own law. -/
theorem resetState : Obligations.ResetState :=
  ⟨by decide +kernel, State.powerInRange_of_reset (k := 0) rfl (by decide), by decide +kernel⟩

end Sys2Proof.Machine

/-! ## A fault's record (O49) -/

namespace Sys2Proof.Machine

/-! ### The package collector and the buckets leave the reporters alone (R310, R316) -/

/-- Only a record with a tenant copy concerns a slice (R312). -/
theorem State.tenantCopyPost_none (s : State) {r : FaultRec} (h : r.slice = none ∨ tenantCopy r.code = false) :
    s.tenantCopyPost r = (s, r) := by
  unfold State.tenantCopyPost
  split
  next i hi =>
    rcases h with hnone | hcode
    · rw [hnone] at hi
      cases hi
    · rw [hcode, if_neg Bool.false_ne_true]
  next => rfl

/-- What a record changes in the package collector, where it has no tenant copy. -/
theorem State.assignSeq_flt (s : State) {r : FaultRec} (h : r.slice = none ∨ tenantCopy r.code = false) :
    (s.assignSeq r).flt.reporters = s.flt.reporters ∧ (s.assignSeq r).flt.reportsLost = s.flt.reportsLost := by
  have hcopy := s.tenantCopyPost_none (r := { r with seq := s.flt.nextSeq }) h
  unfold State.assignSeq
  rw [hcopy]
  dsimp only
  split <;> simp

theorem State.fillBucket_flt (s : State) (r : FaultRec) :
    (s.fillBucket r).flt.reporters = s.flt.reporters ∧ (s.fillBucket r).flt.reportsLost = s.flt.reportsLost := by
  unfold State.fillBucket
  dsimp only
  split
  · split
    · exact State.assignSeq_flt _ (.inl rfl)
    · exact ⟨rfl, rfl⟩
  · exact ⟨rfl, rfl⟩

/-! ### A reporter's queue (R309) -/

section Queue
variable {s : State} {u : Nat} {r e : FaultRec}

theorem State.queueRecord_room (h : (s.reporter u).queue.length < 4) : s.queueRecord u r = s.updReporter u fun v =>
    { v with queue := v.queue ++ [{ r with lost := v.lostNext }], lostNext := false, err := true, errN := false } := by
  simp only [State.queueRecord, h, if_true]

theorem State.queueRecord_merges (hfull : 4 ≤ (s.reporter u).queue.length) (hlast : (s.reporter u).queue.getLast? = some e)
    (hcode : e.code = r.code) (hunit : e.unit = r.unit) : s.queueRecord u r = s.updReporter u fun v =>
      { v with queue := v.queue.dropLast ++ [{ e with count := min 65535 (e.count + 1) }] } := by
  simp only [State.queueRecord, Nat.not_lt.mpr hfull, if_false, hlast, hcode, hunit, and_self, if_true]

theorem State.queueRecord_loses (hfull : 4 ≤ (s.reporter u).queue.length) (hlast : (s.reporter u).queue.getLast? = some e)
    (hne : ¬(e.code = r.code ∧ e.unit = r.unit)) :
    (s.queueRecord u r).reporter u = { s.reporter u with lostNext := true } ∧
      (s.queueRecord u r).flt.reportsLost = satAdd 16 s.flt.reportsLost 1 := by
  simp only [State.queueRecord, Nat.not_lt.mpr hfull, if_false, hlast, hne]
  exact ⟨s.reporter_updReporter_same u fun v => { v with lostNext := true }, rfl⟩

end Queue

/-! ### How `raise` comes to the reporter -/

/-- The state in which a fault's record is queued, and its masks' part of ACTION: the owner's counters have moved, and the
masks have acted. -/
def State.masked (s : State) (code : Nat) (f : FaultInfo) : State × Nat :=
  (if s.ownRecord f.carrier then s.countFault code f else s).maskFault code f

/-- The record of a fault, with the SLICE_SEQ that it takes. -/
def State.recordOf (s : State) (code : Nat) (f : FaultInfo) : FaultRec :=
  f.record (s.masked code f).1 code (s.masked code f).2 (if s.ownRecord f.carrier then s.faultSeq code f else 0)

section Raise
variable (s : State) (code : Nat) (f : FaultInfo)

theorem State.masked_sameBut : s.sameBut (s.masked code f).1 [.slices, .cmds, .dev] :=
  ((s.ownCount_sameBut _ _ _).mono (by decide)).trans (State.maskFault_sameBut _ _ _)

theorem State.masked_reporter (u : Nat) : (s.masked code f).1.reporter u = s.reporter u := by
  rw [State.reporter, State.reporter, (s.masked_sameBut code f .flt (by decide) : (s.masked code f).1.flt = s.flt)]

/-- Behind the queue no step of a fault touches a reporter. -/
theorem State.raise_flt : (s.raise code f).flt.reporters =
      ((s.masked code f).1.queueRecord f.carrier (s.recordOf code f)).flt.reporters ∧
    (s.raise code f).flt.reportsLost =
      ((s.masked code f).1.queueRecord f.carrier (s.recordOf code f)).flt.reportsLost := by
  have hend : (s.raise code f).flt =
      (((s.masked code f).1.queueRecord f.carrier (s.recordOf code f)).fillBucket (s.recordOf code f)).flt :=
    State.endFault_sameBut _ _ _ .flt (by decide)
  rw [hend]
  exact State.fillBucket_flt _ _

theorem State.raise_reporter (u : Nat) : (s.raise code f).reporter u =
    ((s.masked code f).1.queueRecord f.carrier (s.recordOf code f)).reporter u := by
  rw [State.reporter, State.reporter, (s.raise_flt code f).1]

end Raise

/-! ### SLICE_SEQ (R312) -/

section SliceSeq
variable {s : State} {code i : Nat} {f : FaultInfo}

theorem State.askTenantReset_sliceSeq (s : State) (k j : Nat) :
    ((s.askTenantReset k).slice j).sliceSeq = (s.slice j).sliceSeq := by
  unfold State.askTenantReset
  split
  · rw [State.slice_updSlice]
    split <;> simp [*]
  · rfl

/-- The masks ask for a reset or a drain; they number nothing. -/
theorem State.maskFault_sliceSeq (s : State) (code : Nat) (f : FaultInfo) (j : Nat) :
    ((s.maskFault code f).1.slice j).sliceSeq = (s.slice j).sliceSeq := by
  unfold State.maskFault
  split
  next k _ =>
    unfold State.escalate
    extract_lets v g esc qui t t' t''
    have hdrain : (t.slice j).sliceSeq = (s.slice j).sliceSeq := by
      simp only [t]
      split
      · rw [State.slice_updSlice]
        split <;> simp [*]
      · rfl
    have hmark : t'.slice j = t.slice j := by
      simp only [t']
      (repeat' split) <;> rfl
    simp only [t'']
    split
    · rw [State.askTenantReset_sliceSeq, hmark, hdrain]
    · exact hdrain
  next => rfl

theorem State.raise_sliceSeq (hi : f.slice = some i) (hcopy : tenantCopy code = true) :
    ((s.raise code f).slice i).sliceSeq =
      if (s.reporter f.carrier).queue.length < 4 then (s.slice i).sliceSeq + 1 else (s.slice i).sliceSeq := by
  have hend : ((s.raise code f).slice i).sliceSeq = ((s.masked code f).1.slice i).sliceSeq :=
    congrArg Slice.sliceSeq ((((State.queueRecord_sameBut _ _ _).mono (qs := [.flt, .cmds]) (by decide)).trans
      (((State.fillBucket_sameBut _ _).mono (by decide)).trans
        ((State.endFault_sameBut _ _ _).mono (by decide)))).slice_eq (by decide) i)
  rw [hend, State.masked, State.maskFault_sliceSeq]
  by_cases hroom : (s.reporter f.carrier).queue.length < 4 <;>
    simp [State.ownRecord, hroom, State.countFault, hi, hcopy]

end SliceSeq

/-! ### The statement -/

/-- Settles O49: the record meets its reporter's queue as it was, which has room, merges it or loses it. -/
theorem faultRecorded : Obligations.FaultRecorded := by
  intro s code f
  have hrep := s.raise_reporter code f f.carrier
  have hmasked := s.masked_reporter code f f.carrier
  refine ⟨s.raise_sameBut code f, fun hroom => ?_, fun e hfull hlast hcode hunit => ?_, fun e hfull hlast hne => ?_,
    fun i hi hcopy => State.raise_sliceSeq hi hcopy⟩
  · rw [hrep, State.queueRecord_room (by rwa [hmasked]), State.reporter_updReporter_same, hmasked]
    have htime : (s.masked code f).1.time = s.time := s.masked_sameBut code f .time (by decide)
    exact ⟨_, rfl, rfl, htime, rfl, rfl, rfl, rfl, rfl, rfl, rfl, rfl⟩
  · rw [hrep, State.queueRecord_merges (by rwa [hmasked]) (by rwa [hmasked]) hcode hunit,
      State.reporter_updReporter_same, hmasked]
    exact ⟨rfl, rfl⟩
  · obtain ⟨hlost, hcount⟩ := State.queueRecord_loses (r := s.recordOf code f) (by rwa [hmasked]) (by rwa [hmasked])
      (not_and_or.mpr hne)
    have hflt : (s.masked code f).1.flt = s.flt := s.masked_sameBut code f .flt (by decide)
    rw [hrep, hlost, hmasked, (s.raise_flt code f).2, hcount, hflt]
    exact ⟨rfl, rfl, rfl⟩

end Sys2Proof.Machine

/-! ## The reporting path (O50) -/

namespace Sys2Proof.Machine

theorem State.updReporter_sameBut (s : State) (u : Nat) (f : Reporter → Reporter) : s.sameBut (s.updReporter u f) [.flt] :=
  s.withFlt_sameBut _

theorem State.signalUnits_sameBut (s : State) (kind : CtrlKind) (src dst : Nat) :
    s.sameBut (s.signalUnits kind src dst) [.fab] :=
  s.withFab_sameBut _

/-! ### From a reporter to its collector (R307, R310) -/

/-- A reporter gives up its oldest record, and drives its pair by what is left. -/
def State.dropRecord (s : State) (u : Nat) (rest : List FaultRec) : State :=
  (s.updReporter u fun v => { v with queue := rest, err := !rest.isEmpty, errN := rest.isEmpty }).signalUnits
    .report u (collectorOf u)

section Take
variable {s : State} {u : Nat} {r : FaultRec} {rest : List FaultRec}

theorem State.dropRecord_sameBut (s : State) (u : Nat) (rest : List FaultRec) :
    s.sameBut (s.dropRecord u rest) [.flt, .fab] :=
  ((s.updReporter_sameBut u _).mono (by decide)).trans ((State.signalUnits_sameBut _ _ _ _).mono (by decide))

theorem State.dropRecord_reporter (s : State) (u : Nat) (rest : List FaultRec) : (s.dropRecord u rest).reporter u =
    { s.reporter u with queue := rest, err := !rest.isEmpty, errN := rest.isEmpty } :=
  s.reporter_updReporter_same u fun v => { v with queue := rest, err := !rest.isEmpty, errN := rest.isEmpty }

theorem State.takeRecord_none (h : (s.reporter u).queue = []) : s.takeRecord u = s := by
  simp only [State.takeRecord, h]

/-- A pair that shows no error is not served. -/
theorem State.takeRecord_quiet (hpair : hasPair u = true) (herr : (s.reporter u).err = false) : s.takeRecord u = s := by
  unfold State.takeRecord
  split
  · rfl
  · simp [hpair, herr]

theorem shows_guard {b e : Bool} (h : b = true → e = true) : (b && !e) = false := by
  cases b <;> simp_all

variable (hq : (s.reporter u).queue = r :: rest) (hshows : hasPair u = true → (s.reporter u).err = true)
include hq hshows

theorem State.takeRecord_die {d : Nat} (hdie : dieOfUnit u = some d)
    (hroom : (Tbl.get [] s.flt.collectors d).length < 64) : s.takeRecord u =
      { s.dropRecord u rest with flt := { (s.dropRecord u rest).flt with
        collectors := Tbl.set [] s.flt.collectors d (Tbl.get [] s.flt.collectors d ++ [r]) } } := by
  simp only [State.takeRecord, hq, shows_guard hshows, hdie, hroom, if_true]
  rfl

theorem State.takeRecord_quoin (hdie : dieOfUnit u = none) : s.takeRecord u = (s.dropRecord u rest).collect r := by
  simp only [State.takeRecord, hq, shows_guard hshows, hdie]
  rfl

end Take

section Collect
variable {s : State} (hp : s.pins.pwrGood = true)
include hp

theorem exec_collect_take (u : BitVec 12) : exec (.faultRecordCollect u false) s = .next (s.takeRecord u.toNat) := by
  simp [exec, execFaultRecordCollect, State.doCollect, hp]

theorem exec_collect_quoin {u : BitVec 12} (hdie : dieOfUnit u.toNat = none) (forward : Bool) :
    exec (.faultRecordCollect u forward) s = .next (s.takeRecord u.toNat) := by
  cases forward <;> simp [exec, execFaultRecordCollect, State.doCollect, hp, hdie]

theorem exec_collect_forward {u : BitVec 12} {d : Nat} (hdie : dieOfUnit u.toNat = some d) :
    exec (.faultRecordCollect u true) s = .next ((s.takeRecord u.toNat).forwardRecord d) := by
  simp [exec, execFaultRecordCollect, State.doCollect, hp, hdie]

theorem exec_faultRecordPost {r : FaultRec} {rest : List FaultRec} (hheld : s.flt.held = r :: rest)
    (hen : s.flt.ring.enable = true) (hfree : 0 < s.flt.ring.free) (hport : (s.ringPort s.flt.ring).isSome = true) :
    ∃ t, exec .faultRecordPost s = .next t ∧ t.flt.held = rest ∧ t.flt.ring = s.flt.ring.advance := by
  simp only [exec, execFaultRecordPost, State.doFaultPost, hheld, hp, hen, hfree, hport, decide_true, Bool.and_true,
    if_true]
  exact ⟨_, rfl, rfl, rfl⟩

end Collect

/-- A record's number and its place in FLT_LAST and in the hold buffer (R310, R314), where it has no tenant copy. -/
theorem State.assignSeq_numbers (s : State) {r : FaultRec} (h : tenantCopy r.code = false) :
    let t := s.assignSeq r
    t.flt.nextSeq = s.flt.nextSeq + 1 ∧ t.flt.lastSeq = s.flt.nextSeq ∧
      t.flt.last.head? = some { r with seq := s.flt.nextSeq } ∧
      (faultClass r.code = 1 → s.flt.held.length < 256 → t.flt.held = s.flt.held ++ [{ r with seq := s.flt.nextSeq }]) := by
  have hcopy := s.tenantCopyPost_none (r := { r with seq := s.flt.nextSeq }) (.inr h)
  simp only [State.assignSeq, hcopy, apply_ite State.flt, State.signal_flt, ite_self]
  refine ⟨trivial, trivial, rfl, fun hcls hroom => ?_⟩
  have hfits : ¬256 ≤ s.flt.held.length := Nat.not_le.mpr hroom
  simp [hcls, hfits]

/-! ### The pair of a reporter (R307, R308) -/

section Sample
variable {s : State} {u : BitVec 12} (hp : s.pins.pwrGood = true)
include hp

theorem exec_reporterPath_noPair (hpair : hasPair u.toNat = false) (a b : Bool) : exec (.reporterPath u a b) s = .next s := by
  simp [exec, execReporterPath, State.doSample, hp, hpair]

variable (hpair : hasPair u.toNat = true) (hforced : (s.reporter u.toNat).forced = 0)
include hpair hforced

/-- Both lines equal: the edge counts, and the fourth in a row is a stuck path. -/
theorem exec_reporterPath_equal (e : Bool) {k : Nat} (hk : min 5 ((s.reporter u.toNat).equalEdges + 1) = k) :
    let t := s.updReporter u.toNat fun _ => { s.reporter u.toNat with equalEdges := k, emptyEdges := 0 }
    exec (.reporterPath u e e) s = .next (if k = 4 then t.pathFault u.toNat (if e then 3 else 0) else t) := by
  simp [exec, execReporterPath, State.doSample, hp, hpair, hforced, hk]

/-- A pair that shows an error of a reporter without a record. -/
theorem exec_reporterPath_empty (hq : (s.reporter u.toNat).queue = []) {k : Nat}
    (hk : min 65 ((s.reporter u.toNat).emptyEdges + 1) = k) :
    let t := s.updReporter u.toNat fun _ => { s.reporter u.toNat with
      err := true, errN := false, equalEdges := 0, emptyEdges := k }
    exec (.reporterPath u true false) s = .next (if k = 64 then t.pathFault u.toNat 2 else t) := by
  simp [exec, execReporterPath, State.doSample, hp, hpair, hforced, hk, hq]

/-- Any other differing pair starts both counts again. -/
theorem exec_reporterPath_differing (e : Bool) (h : e = true → (s.reporter u.toNat).queue ≠ []) :
    exec (.reporterPath u e !e) s = .next (s.updReporter u.toNat fun _ => { s.reporter u.toNat with
      err := e, errN := !e, equalEdges := 0, emptyEdges := 0 }) := by
  cases e with
  | false => simp [exec, execReporterPath, State.doSample, hp, hpair, hforced]
  | true => simp [exec, execReporterPath, State.doSample, hp, hpair, hforced, h rfl]

end Sample

/-! ### The statement -/

/-- Settles O50: each stage of the path hands a record on, and a pair is judged by its last edges. -/
theorem reportingPath : Obligations.ReportingPath := by
  refine ⟨fun s hp => ⟨fun u d r rest hdie hq hshows hroom => ?_, fun u r rest hdie hq hshows f => ?_,
      fun u hpair herr => ?_, fun u d r rest hdie hq hcol => ?_, fun r hcode => s.assignSeq_numbers hcode,
      fun hheld => ?_, fun r rest hheld hen hfree hport => ?_⟩,
    fun s u hp => ⟨exec_reporterPath_noPair hp, fun hpair hforced => ⟨fun e hfew => ?_, fun e hthree => ?_, fun hq => ?_,
      ?_, fun hq hlast => ?_⟩⟩⟩
  · refine ⟨_, (exec_collect_take hp u).trans (congrArg _ (State.takeRecord_die hq hshows hdie hroom)), ?_, ?_, ?_, rfl⟩
    · exact congrArg Reporter.queue (s.dropRecord_reporter u.toNat rest)
    · exact Tbl.get_set_same _ _ _ _
    · exact (s.dropRecord_sameBut u.toNat rest).trans ((State.withFlt_sameBut _ _).mono (by decide))
  · exact (exec_collect_quoin hp hdie f).trans (congrArg _ (State.takeRecord_quoin hq hshows hdie))
  · rw [exec_collect_take hp, State.takeRecord_quiet hpair herr]
  · rw [exec_collect_forward hp hdie, State.takeRecord_none hq]
    simp only [State.forwardRecord, hcol]
  · simp only [exec, execFaultRecordPost, State.doFaultPost, hheld]
  · obtain ⟨t, ht, hrest, hring⟩ := exec_faultRecordPost hp hheld hen hfree hport
    exact ⟨t, ht, hrest, congrArg Ring.posted hring, congrArg Ring.tail hring⟩
  · have hk : min 5 ((s.reporter u.toNat).equalEdges + 1) = (s.reporter u.toNat).equalEdges + 1 := by omega
    have hnot : ¬(s.reporter u.toNat).equalEdges + 1 = 4 := by omega
    refine ⟨_, (exec_reporterPath_equal hp hpair hforced e hk).trans (congrArg _ (if_neg hnot)),
      s.updReporter_sameBut _ _, ?_, ?_⟩ <;> rw [State.reporter_updReporter_same]
  · exact exec_reporterPath_equal hp hpair hforced e (k := 4) (by omega)
  · refine ⟨_, exec_reporterPath_differing hp hpair hforced true fun _ => hq, s.updReporter_sameBut _ _, ?_, ?_⟩ <;>
      rw [State.reporter_updReporter_same]
  · refine ⟨_, exec_reporterPath_differing hp hpair hforced false nofun, s.updReporter_sameBut _ _, ?_, ?_⟩ <;>
      rw [State.reporter_updReporter_same]
  · exact exec_reporterPath_empty hp hpair hforced hq (k := 64) (by omega)

end Sys2Proof.Machine

/-! ## Buckets, acknowledgement, injection and faults of logic (O51) -/

namespace Sys2Proof.Machine

/-! ### BUCKET_LEAK (R316) -/

theorem Tbl.get_of_lt {α : Type} {d : α} {t : Tbl α} {lo i : Nat} (hr : Tbl.rising lo t = true) (hi : i < lo) :
    Tbl.get d t i = d := by
  induction t generalizing lo with
  | nil => rfl
  | cons e t ih =>
    obtain ⟨k, v⟩ := e
    simp only [Tbl.rising, Bool.and_eq_true, decide_eq_true_eq] at hr
    obtain ⟨hk, hrest⟩ := hr
    rw [Tbl.get, if_neg (by omega), ih hrest (by omega)]

/-- Every bucket loses one; those that are empty are not listed. -/
theorem Tbl.get_leaked {t : Tbl Nat} {lo : Nat} (hr : Tbl.rising lo t = true) (i : Nat) :
    Tbl.get 0 ((Tbl.mapVals t fun _ n => n - 1).filter fun e : Nat × Nat => decide (e.2 ≠ 0)) i = Tbl.get 0 t i - 1 := by
  induction t generalizing lo with
  | nil => rfl
  | cons e t ih =>
    obtain ⟨k, n⟩ := e
    simp only [Tbl.rising, Bool.and_eq_true] at hr
    have hrest := ih hr.2
    simp only [Tbl.mapVals, List.map_cons, List.filter_cons, Tbl.get, ne_eq, decide_not] at hrest ⊢
    by_cases hn : n - 1 = 0 <;> by_cases hi : i = k
    · subst hi
      have habsent : Tbl.get 0 t i = 0 := Tbl.get_of_lt hr.2 (Nat.lt_succ_self i)
      simp [hn, hrest, habsent]
    · simp [hn, hi, hrest]
    · simp [hn, hi, Tbl.get]
    · simp [hn, hi, hrest, Tbl.get]

section Leak
variable {s : State}

theorem exec_bucketLeak_idle (h : s.flt.leak = 0 ∨ s.time % (s.flt.leak * 1000000000) ≠ 0 ∨ s.time = s.flt.lastLeak) :
    exec .bucketLeak s = .next s := by
  refine congrArg Host.Outcome.next (if_neg ?_)
  rcases h with hleak | htime | hlast
  · simp [hleak]
  · simp [htime]
  · simp [hlast]

theorem exec_bucketLeak (hpow : s.powered = true) (hleak : 0 < s.flt.leak)
    (htime : s.time % (s.flt.leak * 1000000000) = 0) (hlast : s.time ≠ s.flt.lastLeak) :
    exec .bucketLeak s = .next { s with flt := { s.flt with
      lastLeak := s.time
      buckets := (Tbl.mapVals s.flt.buckets fun _ n => n - 1).filter fun e : Nat × Nat => decide (e.2 ≠ 0) } } :=
  congrArg Host.Outcome.next (if_pos (by simp [hpow, hleak, htime, hlast]))

end Leak

/-! ### Check-bit injection (R318, R330) -/

theorem unlock_ne {key : Byte} (h : key ≠ 0x3C) : key.toNat ≠ injectUnlock := fun heq => h (BitVec.eq_of_toNat_eq heq)

section Inject
variable {s : State} (hr : s.ready = true) (u : BitVec 12) (k : Fin 8) (m : Byte) (n : BitVec 16)
include hr

theorem exec_arming_refused {key : Byte}
    (h : key ≠ 0x3C ∨ n = 0 ∨ checkerSuits k.val u.toNat = false ∨ s.flt.inject.armed = true) :
    exec (.arm key u k m n) s = .next s.refuseInject := by
  refine congrArg Host.Outcome.next ((if_neg (by simp [hr])).trans (if_pos ?_))
  rcases h with hkey | hn | hsuits | harmed
  · simp [unlock_ne hkey]
  · simp [hn]
  · simp [hsuits]
  · simp [harmed]

theorem exec_arm (hn : n ≠ 0) (hsuits : checkerSuits k.val u.toNat = true) (harmed : s.flt.inject.armed = false) :
    exec (.arm 0x3C u k m n) s = .next { s with flt := { s.flt with inject := { s.flt.inject with
      armed := true, checker := k.val, unit := u.toNat, mask := m.toNat, remaining := n.toNat } } } := by
  have hcount : n.toNat ≠ 0 := fun h => hn (BitVec.eq_of_toNat_eq h)
  simp [exec, execArm, State.doArm, hr, hcount, hsuits, harmed, injectUnlock]

theorem exec_disarming_refused {key : Byte} (h : key ≠ 0x3C) : exec (.disarm key) s = .next s.refuseInject := by
  simp [exec, execDisarm, State.doDisarm, hr, unlock_ne h]

theorem exec_disarm : exec (.disarm 0x3C) s = .next { s with flt := { s.flt with inject := { s.flt.inject with
    armed := false, remaining := 0 } } } := by
  simp [exec, execDisarm, State.doDisarm, hr, injectUnlock]

theorem exec_forcePath_refused {key : Byte} (h : key ≠ 0x3C ∨ forceable u.toNat = false) :
    exec (.forcePath key u) s = .next s.refuseInject := by
  refine congrArg Host.Outcome.next ((if_neg (by simp [hr])).trans (if_pos ?_))
  rcases h with hkey | hunit
  · simp [unlock_ne hkey]
  · simp [hunit]

theorem exec_forcePath (h : forceable u.toNat = true) :
    exec (.forcePath 0x3C u) s = .next (s.updReporter u.toNat fun r => { r with forced := 8 }) := by
  simp [exec, execForcePath, State.doForcePath, hr, injectUnlock, h]

end Inject

/-! ### Faults of logic (R303) and bridges (R233) -/

/-- R70: a package stop takes a READY device to FATAL. -/
theorem State.packageStop_fatal {s : State} (h : s.dev.state = .ready) (unit cause : Nat) :
    (s.packageStop unit cause).dev.state = .fatal := by
  have hraised : (s.raise fcPackageStop { unit := unit, info0 := cause }).dev.state = .ready :=
    (State.raise_dstate _ _ _).trans h
  unfold State.packageStop
  generalize s.raise fcPackageStop { unit := unit, info0 := cause } = t at hraised ⊢
  simp only [hraised, if_true]
  have hlast := State.enterState_state t .fatal
  generalize t.enterState .fatal = t' at hlast ⊢
  exact (State.bumpAll_dstate _).trans ((foldl_dstate _ (fun _ _ => State.stopCmd_dstate _ _ _) _ t').trans hlast)

section Logic
variable {s : State} (hpow : s.powered = true)
include hpow

theorem exec_logicFault (f : LogicFault) : exec (.logicFaultDetected f) s = .next (match f with
    | .bothTags x set => if s.dieState (dieOfUcSlice x.toNat) = .up then s.lostTags x.toNat (set % 1536) else s
    | .onDieLinkBit d router => s.raise fcLinkCorrected { unit := unitDieCollector d.val, info0 := router.val }
    | .onDieLink d => if s.dieState d.val = .up then s.dieStop d.val 1 else s
    | .dieLogic d => if s.dieState d.val = .up then s.dieStop d.val 2 else s
    | .bridgeLost b => s.packageStop (unitBridge b.val) 0
    | .quoinLogic => s.packageStop 0xF6 1
    | .noPlumb => s.packageStop (unitPlumb false) 4) := by
  simp only [exec, execLogicFaultDetected, State.doLogicFault, hpow]
  rfl

/-- R233: a replay is counted, and remembered for a second. -/
theorem exec_bridgeFlitReplay (b : Fin 14) (link : BitVec 7) :
    let recent := (link.toNat, s.time) ::
      (s.bridge b.val).recent.filter fun e : Nat × Nat => decide (s.time < e.2 + 1000000000)
    let t := s.updBridge b.val fun v => { v with retries := satAdd 32 v.retries 1, recent := recent }
    exec (.bridgeFlitReplay b link) s = .next
      (if 16 ≤ (recent.filter fun e : Nat × Nat => decide (e.1 = link.toNat)).length then t.failLink b.val link.toNat
        else t) := by
  simp only [exec, execBridgeFlitReplay, State.doFlitReplay, hpow, State.bridge_updBridge_same]
  rfl

end Logic

/-! ### The statement -/

/-- Settles O51: each command by its guards; a fault of logic stops its die or the package. -/
theorem injectionAndLogicFaults : Obligations.InjectionAndLogicFaults := by
  refine ⟨fun s hr => ⟨exec_bucketLeak_idle, fun hleak htime hlast hrising => ?_, fun v hcovers => ?_,
      fun v hcovers => ?_, fun u k m n => ⟨fun key => exec_arming_refused hr u k m n, exec_arm hr u k m n, fun key hkey =>
        ⟨exec_disarming_refused hr hkey, exec_forcePath_refused hr u (.inl hkey)⟩, exec_disarm hr,
        fun hno => exec_forcePath_refused hr u (.inr hno), exec_forcePath hr u⟩⟩,
    fun s hr => ?_⟩
  · refine ⟨_, exec_bucketLeak (State.powered_of_ready hr) hleak htime hlast, s.withFlt_sameBut _, rfl, ?_⟩
    exact Tbl.get_leaked hrising
  · rw [exec_fltAck (State.stopRegs_of_ready hr)]
    simp only [hcovers, if_true]
  · rw [exec_fltAck (State.stopRegs_of_ready hr)]
    simp [hcovers]
  · have hpow := State.powered_of_ready hr
    have hfatal := State.packageStop_fatal (State.devState_of_ready hr)
    refine ⟨fun d hdown => ⟨?_, ?_⟩, fun d hup => ⟨?_, ?_⟩, ⟨_, exec_logicFault hpow _, hfatal _ _⟩,
      ⟨_, exec_logicFault hpow _, hfatal _ _⟩, fun b => ⟨_, exec_logicFault hpow _, hfatal _ _⟩,
      fun d r => exec_logicFault hpow _, fun x set hdown => ?_, fun x set hup => ?_, fun b link => ⟨fun hfew => ?_, fun hmany => ?_⟩⟩
    · exact (exec_logicFault hpow _).trans (congrArg _ (if_neg hdown))
    · exact (exec_logicFault hpow _).trans (congrArg _ (if_neg hdown))
    · exact (exec_logicFault hpow _).trans (congrArg _ (if_pos hup))
    · exact (exec_logicFault hpow _).trans (congrArg _ (if_pos hup))
    · exact (exec_logicFault hpow _).trans (congrArg _ (if_neg hdown))
    · exact (exec_logicFault hpow _).trans (congrArg _ (if_pos hup))
    · exact (exec_bridgeFlitReplay hpow b link).trans (congrArg _ (if_neg (Nat.not_le.mpr hfew)))
    · exact (exec_bridgeFlitReplay hpow b link).trans (congrArg _ (if_pos hmany))

end Sys2Proof.Machine

/-! ## Counters, ticks and aging monitors (O53) -/

namespace Sys2Proof.Machine

theorem State.withTel_sameBut (s : State) (v : Tel) : s.sameBut { s with tel := v } [.tel] := by
  intro p hp
  cases p with
  | tel => exact absurd List.mem_cons_self hp
  | _ => rfl

/-! ### Counter groups (R349 to R354) -/

/-- A function that keeps the default reads as itself. -/
theorem Tbl.get_mapVals {α : Type} {d : α} {f : Nat → α → α} (hd : ∀ k, f k d = d) (t : Tbl α) (i : Nat) :
    Tbl.get d (Tbl.mapVals t f) i = f i (Tbl.get d t i) := by
  induction t with
  | nil => exact (hd i).symm
  | cons e t ih =>
    obtain ⟨k, v⟩ := e
    simp only [Tbl.mapVals, List.map_cons, Tbl.get] at ih ⊢
    split
    next hk => rw [hk]
    next => exact ih

theorem bitAt_getLsbD {w : Nat} (v : BitVec w) (i : Nat) : bitAt v.toNat i = v.getLsbD i := bitAt_eq_testBit _ _

theorem selector_toNat (v : W64) : BitVec.ofNat 64 (v.toNat % 2 ^ 29) = v &&& 0x1FFFFFFF := by
  apply BitVec.eq_of_toNat_eq
  have hmask : BitVec.toNat (0x1FFFFFFF : W64) = 2 ^ 29 - 1 := by decide
  have hlt : v.toNat % 2 ^ 29 < 2 ^ 64 := by omega
  rw [BitVec.toNat_and, hmask, Nat.and_two_pow_sub_one_eq_mod, BitVec.toNat_ofNat, Nat.mod_eq_of_lt hlt]

/-- A counter that counts what the selector `v` says (R349). -/
def Counter.selecting (v : W64) (c : Counter) : Counter := { c with sel := v &&& 0x1FFFFFFF }

/-- The state in which counter `n` counts what the selector `v` says (R349). -/
def State.selectCounter (s : State) (n : Nat) (v : W64) : State :=
  { s with tel := { s.tel with
    counters := Tbl.upd {} s.tel.counters n (Counter.selecting v) } }

theorem State.counter_select (s : State) (n : Nat) (v : W64) (k : Nat) :
    Tbl.get {} (s.selectCounter n v).tel.counters k =
      if k = n then (Tbl.get {} s.tel.counters n).selecting v else Tbl.get {} s.tel.counters k :=
  Tbl.get_upd _ _ _ _ _

section Groups
variable {s : State} (hr : s.ready = true)

/-- A counter of a group that the mask names, and one of another. -/
theorem State.mapGroups_get (s : State) {w : Nat} (mask : BitVec w) {f : Counter → Counter} (hf : f {} = {}) (k : Nat) :
    Tbl.get {} (s.mapGroups mask.toNat f).tel.counters k =
      if mask.getLsbD (k / 8) then f (Tbl.get {} s.tel.counters k) else Tbl.get {} s.tel.counters k := by
  have hdefault : ∀ k, (if bitAt mask.toNat (k / 8) then f {} else {}) = ({} : Counter) := fun k => by rw [hf, ite_self]
  refine (Tbl.get_mapVals (f := fun k c => if bitAt mask.toNat (k / 8) then f c else c) hdefault _ k).trans ?_
  simp only [bitAt_getLsbD]

theorem State.mapGroups_sameBut (s : State) (mask : Nat) (f : Counter → Counter) :
    s.sameBut (s.mapGroups mask f) [.tel] := s.withTel_sameBut _

include hr

/-- R351: the snapshot is taken before the clear of the same write. -/
theorem exec_snap (g c : BitVec 16) : ∃ t, exec (.snap g c) s = .next t ∧ s.sameBut t [.tel] ∧ ∀ k,
    let old := Tbl.get {} s.tel.counters k
    let shot := if g.getLsbD (k / 8) then { old with snap := old.value, snapOvf := old.ovf } else old
    Tbl.get {} t.tel.counters k = if c.getLsbD (k / 8) then { shot with value := 0, ovf := false } else shot := by
  refine ⟨_, congrArg Host.Outcome.next (if_neg (by simp [hr])), ?_, fun k => ?_⟩
  · exact (s.mapGroups_sameBut _ _).trans ((State.withTel_sameBut _ _).trans (State.mapGroups_sameBut _ _ _))
  · rw [State.clearGroups, State.mapGroups_get _ c rfl]
    simp only [State.mapGroups_get s g (f := fun c => { c with snap := c.value, snapOvf := c.ovf }) rfl]

theorem exec_clear (g : BitVec 16) : ∃ t, exec (.clear g) s = .next t ∧ s.sameBut t [.tel] ∧ ∀ k,
    let old := Tbl.get {} s.tel.counters k
    Tbl.get {} t.tel.counters k = if g.getLsbD (k / 8) then { old with value := 0, ovf := false } else old :=
  ⟨_, congrArg Host.Outcome.next (if_pos hr), s.mapGroups_sameBut _ _, s.mapGroups_get g rfl⟩

theorem exec_telSelWrite (g : Fin 16) (i : Fin 8) (v : W64) :
    exec (.telSelWrite g i v) s = .next (s.selectCounter (8 * g.val + i.val) v) := by
  unfold State.selectCounter Counter.selecting
  rw [← selector_toNat]
  exact congrArg Host.Outcome.next (if_neg (by simp [hr]))

end Groups

/-! ### The tick (R346, R347) -/

theorem State.postManager_tel (s : State) (r : Ring) (phaseOff : Nat) (rec : Rec) :
    (s.postManager r phaseOff rec).1.tel = s.tel ∧ (s.postManager r phaseOff rec).1.time = s.time := by
  unfold State.postManager
  dsimp only
  split <;> exact ⟨rfl, rfl⟩

/-- Posting the records of a tick moves neither the telemetry's state nor TIME. -/
theorem postTick_tel (who : List Nat) (r : Ring) (s : State) :
    (postTick who r s).1.tel = s.tel ∧ (postTick who r s).1.time = s.time := by
  induction who generalizing r s with
  | nil => exact ⟨rfl, rfl⟩
  | cons i who ih =>
    obtain ⟨htel, htime⟩ := ih (s.postManager r 0x0D { bytes := s.telRecord i, notify := who.isEmpty }).2
      (s.postManager r 0x0D { bytes := s.telRecord i, notify := who.isEmpty }).1
    obtain ⟨htel', htime'⟩ := s.postManager_tel r 0x0D { bytes := s.telRecord i, notify := who.isEmpty }
    exact ⟨htel.trans htel', htime.trans htime'⟩

section Tick
variable {s : State}

theorem exec_telemetryTick_idle (h : s.time % 1000000 ≠ 0 ∨ s.tel.lastTick = some s.time) :
    exec .telemetryTick s = .next s := by
  refine congrArg Host.Outcome.next (if_pos ?_)
  rcases h with htime | hlast
  · simp [htime]
  · simp [hlast]

/-- The slices for which a tick posts a record. -/
def State.ticked (s : State) : List Nat := (List.range 256).filter fun i => decide ((s.slice i).state ≠ .off)

/-- The ring takes all the records of a tick. -/
def State.tickFits (s : State) : Bool :=
  s.tel.ring.enable && decide (s.ticked.length ≤ s.tel.ring.free) && (s.ringPort s.tel.ring).isSome

variable (hpow : s.powered = true) (htime : s.time % 1000000 = 0) (hlast : s.tel.lastTick ≠ some s.time)
include hpow htime hlast

/-- What a tick leaves behind the records it has posted. -/
theorem exec_telemetryTick :
    let p := if s.tickFits then postTick s.ticked s.tel.ring s else (s, s.tel.ring)
    exec .telemetryTick s = .next { p.1 with tel := { p.1.tel with
      ring := p.2, lastTick := some p.1.time, tickSeq := p.1.tel.tickSeq + 1
      droppedTicks := if p.2.enable && !s.tickFits then satAdd 32 p.1.tel.droppedTicks 1
        else p.1.tel.droppedTicks } } := by
  intro p
  refine congrArg Host.Outcome.next ?_
  unfold State.doTick
  rw [if_neg (by simp [hpow, htime, hlast])]
  rfl

theorem exec_telemetryTick_unposted (h : s.tickFits = false) : exec .telemetryTick s = .next { s with tel := { s.tel with
    lastTick := some s.time, tickSeq := s.tel.tickSeq + 1
    droppedTicks := if s.tel.ring.enable then satAdd 32 s.tel.droppedTicks 1 else s.tel.droppedTicks } } := by
  rw [exec_telemetryTick hpow htime hlast, h]
  simp

theorem exec_telemetryTick_counts :
    ∃ t, exec .telemetryTick s = .next t ∧ t.tel.lastTick = some s.time ∧ t.tel.tickSeq = s.tel.tickSeq + 1 := by
  refine ⟨_, exec_telemetryTick hpow htime hlast, ?_, ?_⟩ <;> dsimp only <;> split
  · rw [(postTick_tel _ _ s).2]
  · rfl
  · rw [(postTick_tel _ _ s).1]
  · rfl

end Tick

/-! ### Aging monitors (R342) -/

/-- What a domain's monitors hold. -/
def State.agingOf (s : State) (d : Nat) : Aging := Tbl.get {} s.tel.aging d

/-- The margin of a domain in a sample: the least that any of its monitors reports. -/
def sampleMargin (monitors : List (List Nat)) (d : Nat) : Nat := (least (monitors.getD d [])).getD 255

/-- The state in which a domain has taken the sample `m`. -/
def State.noteMargin (s : State) (d m : Nat) : State :=
  s.updAging d fun a => { a with marginPs := min 255 m, samples := (m :: a.samples).take 60 }

/-- What a sample `m` may make of a domain: its margin is kept; without 60 samples it is not judged; its guard-band rises
to 40 mV at most. -/
structure Aging.SampledTo (a b : Aging) (m : Nat) : Prop where
  margin : b.marginPs = min 255 m
  unjudged : a.samples.length < 59 → b.guardMv = a.guardMv ∧ b.exhausted = a.exhausted
  raised : a.guardMv ≤ 40 → b.guardMv ≤ 40 ∧ a.guardMv ≤ b.guardMv

section Aging
variable (s : State) (d m : Nat)

theorem State.agingOf_updAging (f : Aging → Aging) (k : Nat) :
    (s.updAging d f).agingOf k = if k = d then f (s.agingOf d) else s.agingOf k := Tbl.get_upd _ _ _ _ _

theorem State.updAging_sameBut (f : Aging → Aging) : s.sameBut (s.updAging d f) [.tel] := s.withTel_sameBut _

theorem State.appendJournal_sameBut (j : Journal) : s.sameBut (s.appendJournal j) [.nv, .dev] := by
  intro p hp
  cases p with
  | nv | dev => exact absurd (by decide) hp
  | _ => rfl

/-- A judgement leaves the domain alone, finds it exhausted, or raises its guard-band once it has 60 samples. -/
theorem State.judgeAging_cases : s.judgeAging d = s ∨
    (60 ≤ (s.agingOf d).samples.length ∧ 40 ≤ (s.agingOf d).guardMv ∧
      s.judgeAging d = s.updAging d fun a => { a with exhausted := true }) ∨
    (60 ≤ (s.agingOf d).samples.length ∧ ∃ wait, s.judgeAging d = (s.updAging d fun a => { a with
      guardMv := min 40 (a.guardMv + 5), raises := satAdd 32 a.raises 1, waitUntil := wait }).appendJournal
        s.nv.journal) := by
  unfold State.judgeAging
  dsimp only
  split
  · exact .inl rfl
  next hjudged =>
    have hfull : 60 ≤ (s.agingOf d).samples.length := by
      simp only [State.agingOf]
      omega
    split
    next hforty => exact .inr (.inl ⟨hfull, hforty, rfl⟩)
    next =>
      split
      · exact .inl rfl
      · exact .inr (.inr ⟨hfull, _, rfl⟩)

theorem State.judgeAging_sameBut : s.sameBut (s.judgeAging d) [.tel, .nv, .dev] := by
  rcases s.judgeAging_cases d with heq | ⟨-, -, heq⟩ | ⟨-, wait, heq⟩ <;> rw [heq]
  · exact s.sameBut_refl _
  · exact (s.updAging_sameBut d _).mono (by decide)
  · exact ((s.updAging_sameBut d _).mono (by decide)).trans ((State.appendJournal_sameBut _ _).mono (by decide))

theorem State.judgeAging_agingAt : (s.judgeAging d).tel.agingAt = s.tel.agingAt := by
  rcases s.judgeAging_cases d with heq | ⟨-, -, heq⟩ | ⟨-, wait, heq⟩ <;> rw [heq] <;> rfl

theorem State.judgeAging_ne {k : Nat} (hk : k ≠ d) : (s.judgeAging d).agingOf k = s.agingOf k := by
  rcases s.judgeAging_cases d with heq | ⟨-, -, heq⟩ | ⟨-, wait, heq⟩ <;> rw [heq]
  · exact (s.agingOf_updAging d _ k).trans (if_neg hk)
  · exact (s.agingOf_updAging d _ k).trans (if_neg hk)

/-- One domain's sample, judged. -/
theorem State.judge_noteMargin :
    (s.agingOf d).SampledTo (((s.noteMargin d m).judgeAging d).agingOf d) m := by
  have hnoted : (s.noteMargin d m).agingOf d =
      { s.agingOf d with marginPs := min 255 m, samples := (m :: (s.agingOf d).samples).take 60 } :=
    (s.agingOf_updAging d _ d).trans (if_pos rfl)
  have hlen : (s.agingOf d).samples.length < 59 → ((s.noteMargin d m).agingOf d).samples.length < 60 := by
    rw [hnoted]
    intro h
    simp
    omega
  rcases (s.noteMargin d m).judgeAging_cases d with heq | ⟨hfull, hforty, heq⟩ | ⟨hfull, wait, heq⟩ <;> rw [heq]
  · rw [hnoted]
    exact ⟨rfl, fun _ => ⟨rfl, rfl⟩, fun h => ⟨h, Nat.le_refl _⟩⟩
  · rw [State.agingOf_updAging, if_pos rfl, hnoted]
    exact ⟨rfl, fun h => absurd (hlen h) (Nat.not_lt.mpr hfull), fun h => ⟨h, Nat.le_refl _⟩⟩
  · have hraised := (State.agingOf_updAging (s.noteMargin d m) d (fun a => { a with
      guardMv := min 40 (a.guardMv + 5), raises := satAdd 32 a.raises 1, waitUntil := wait }) d).trans (if_pos rfl)
    rw [hnoted] at hraised
    refine ⟨(congrArg Aging.marginPs hraised), fun h => absurd (hlen h) (Nat.not_lt.mpr hfull), fun h => ?_⟩
    have hguard : ((((s.noteMargin d m).updAging d fun a => { a with
        guardMv := min 40 (a.guardMv + 5), raises := satAdd 32 a.raises 1, waitUntil := wait }).appendJournal
          (s.noteMargin d m).nv.journal).agingOf d).guardMv = min 40 ((s.agingOf d).guardMv + 5) :=
      congrArg Aging.guardMv hraised
    omega

/-- One domain's step of a sample. -/
def State.sampleDomain (ms : List (List Nat)) (s : State) (d : Nat) : State :=
  (s.noteMargin d (sampleMargin ms d)).judgeAging d

theorem State.sampleDomain_sameBut (ms : List (List Nat)) : s.sameBut (s.sampleDomain ms d) [.tel, .nv, .dev] :=
  ((s.updAging_sameBut d _).mono (by decide)).trans (State.judgeAging_sameBut _ d)

theorem State.sampleDomain_agingAt (ms : List (List Nat)) : (s.sampleDomain ms d).tel.agingAt = s.tel.agingAt :=
  State.judgeAging_agingAt _ d

theorem State.sampleDomain_ne (ms : List (List Nat)) {k : Nat} (hk : k ≠ d) :
    (s.sampleDomain ms d).agingOf k = s.agingOf k :=
  (State.judgeAging_ne _ d hk).trans ((s.agingOf_updAging d _ k).trans (if_neg hk))

/-- After the steps of the domains below `n`, these have taken their samples and the others stand as they did. -/
theorem sampleDomains_agingOf (ms : List (List Nat)) (n k : Nat) :
    let t := (List.range n).foldl (State.sampleDomain ms) s
    (k < n → (s.agingOf k).SampledTo (t.agingOf k) (sampleMargin ms k)) ∧ (n ≤ k → t.agingOf k = s.agingOf k) := by
  induction n with
  | zero => exact ⟨fun h => absurd h (Nat.not_lt_zero k), fun _ => rfl⟩
  | succ n ih =>
    obtain ⟨hdone, hrest⟩ := ih
    rw [List.range_succ, List.foldl_append, List.foldl_cons, List.foldl_nil]
    by_cases hk : k = n
    · subst hk
      refine ⟨fun _ => ?_, fun h => absurd h (Nat.not_succ_le_self k)⟩
      rw [← hrest (Nat.le_refl k)]
      exact State.judge_noteMargin _ k _
    · have hkept := State.sampleDomain_ne ((List.range n).foldl (State.sampleDomain ms) s) n ms hk
      dsimp only
      rw [hkept]
      exact ⟨fun h => hdone (by omega), fun h => hrest (by omega)⟩

theorem State.withPlb_sameBut (p : Plb) : s.sameBut { s with plb := p } [.plb] := by
  intro q hq
  cases q with
  | plb => exact absurd List.mem_cons_self hq
  | _ => rfl

theorem State.writeSetPoint_sameBut (reg : Nat) : s.sameBut (s.writeSetPoint reg) [.plb] := by
  unfold State.writeSetPoint
  split
  · exact s.sameBut_refl _
  · exact s.withPlb_sameBut _

theorem State.adjustRail_sameBut (reg : Nat) (acked : Bool) : s.sameBut (s.adjustRail reg acked) [.plb] := by
  unfold State.adjustRail
  split
  · exact s.sameBut_refl _
  · refine State.sameBut.trans ?_ (State.withPlb_sameBut _ _)
    split
    · exact s.writeSetPoint_sameBut reg
    · exact s.sameBut_refl _

end Aging

theorem State.sameBut.tel_eq {s t : State} {ps : List Part} (h : s.sameBut t ps) (hps : Part.tel ∉ ps := by decide) :
    t.tel = s.tel := h .tel hps

theorem State.agingOf_of_tel {s t : State} (h : t.tel = s.tel) (d : Nat) : t.agingOf d = s.agingOf d := by
  rw [State.agingOf, h, State.agingOf]

/-- The state in which the ten domains have taken the samples `ms`. -/
def State.sampled (s : State) (ms : List (List Nat)) : State :=
  (List.range 10).foldl (State.sampleDomain ms) { s with tel := { s.tel with agingAt := some s.dev.ticks } }

theorem State.sampled_sameBut (s : State) (ms : List (List Nat)) : s.sameBut (s.sampled ms) [.tel, .nv, .dev] :=
  ((s.withTel_sameBut _).mono (by decide)).trans (foldl_sameBut (fun s d => s.sampleDomain_sameBut d ms) _ _)

theorem State.sampled_agingAt (s : State) (ms : List (List Nat)) : (s.sampled ms).tel.agingAt = some s.dev.ticks := by
  unfold State.sampled
  exact (foldl_keeps (f := State.sampleDomain ms) (fun u : State => u.tel.agingAt)
    (fun u d => u.sampleDomain_agingAt d ms) (List.range 10) _).trans rfl

theorem State.sampled_agingOf (s : State) (ms : List (List Nat)) {d : Nat} (hd : d < 10) :
    (s.agingOf d).SampledTo ((s.sampled ms).agingOf d) (sampleMargin ms d) := by
  unfold State.sampled
  exact (sampleDomains_agingOf { s with tel := { s.tel with agingAt := some s.dev.ticks } } ms 10 d).1 hd

section Sampling
variable {s : State} (ms : List (List Nat)) (answers : List Bool)

theorem exec_agingSample_idle
    (h : s.plb.failover = true ∨ ∃ t0, s.tel.agingAt = some t0 ∧ s.dev.ticks < t0 + 1000000000) :
    exec (.agingSample ms answers) s = .next s := by
  refine congrArg Host.Outcome.next ?_
  unfold State.doAging
  rw [if_pos]
  rcases h with hfail | ⟨t0, hat, hsoon⟩
  · rw [hfail, Bool.or_true, Bool.true_or]
  · rw [hat, Option.any_some, decide_eq_true hsoon, Bool.or_true]

variable (hpow : s.powered = true) (hfail : s.plb.failover = false)
  (hdue : ∀ t0, s.tel.agingAt = some t0 → t0 + 1000000000 ≤ s.dev.ticks)
include hpow hfail hdue

/-- A sample that is due: the ten domains, then the five supplies. -/
theorem exec_agingSample_due : exec (.agingSample ms answers) s = .next
    ((List.range 5).foldl (fun s r => s.adjustRail r (answers.getD r true)) (s.sampled ms)) := by
  have hsoon : s.tel.agingAt.any (fun t => decide (s.dev.ticks < t + 1000000000)) = false := by
    cases hat : s.tel.agingAt with
    | none => rfl
    | some t0 => rw [Option.any_some, decide_eq_false (Nat.not_lt.mpr (hdue t0 hat))]
  refine congrArg Host.Outcome.next ?_
  unfold State.doAging
  rw [hpow, hfail, hsoon, if_neg (by decide)]
  rfl

theorem exec_agingSample_sampled : ∃ t, exec (.agingSample ms answers) s = .next t ∧
    s.sameBut t [.tel, .nv, .plb, .dev] ∧ t.tel.agingAt = some s.dev.ticks ∧
    ∀ d, d < 10 → (s.agingOf d).SampledTo (t.agingOf d) (sampleMargin ms d) := by
  have hrails := foldl_sameBut (f := fun s r => s.adjustRail r (answers.getD r true))
    (fun s r => s.adjustRail_sameBut r _) (List.range 5) (s.sampled ms)
  refine ⟨_, exec_agingSample_due ms answers hpow hfail hdue, ?_, ?_, fun d hd => ?_⟩
  · exact ((s.sampled_sameBut ms).mono (by decide)).trans (hrails.mono (by decide))
  · exact (congrArg Tel.agingAt hrails.tel_eq).trans (s.sampled_agingAt ms)
  · rw [State.agingOf_of_tel hrails.tel_eq]
    exact s.sampled_agingOf ms hd

end Sampling

theorem State.ticked_ne_nil {s : State} (h : ∃ i, i < 256 ∧ (s.slice i).state ≠ .off) : 0 < s.ticked.length := by
  obtain ⟨i, hi, hon⟩ := h
  exact List.length_pos_of_mem (List.mem_filter.mpr ⟨List.mem_range.mpr hi, decide_eq_true hon⟩)

/-- Settles O53: a snapshot and a clear act group by group, a tick either posts all its records or counts as dropped, and
a sample goes through the domains one by one. -/
theorem telemetry : Obligations.Telemetry := by
  unfold Obligations.Telemetry
  refine ⟨fun s hr => ?_, fun s ms answers hpow => ⟨exec_agingSample_idle ms answers, fun hfail hdue => ?_⟩⟩
  · have hpow := State.powered_of_ready hr
    refine ⟨fun g c k _ => ?_, fun g k _ => ?_, fun g i v => ?_, exec_telemetryTick_idle,
      fun htime hlast hoff => ?_, fun htime hlast hen hfull hon => ?_, exec_telemetryTick_counts hpow⟩
    · obtain ⟨t, hexec, hsame, hget⟩ := exec_snap hr g c
      refine ⟨t, hexec, hsame, ?_⟩
      rw [hget k]
      cases g.getLsbD (k / 8) <;> cases c.getLsbD (k / 8) <;> simp
    · obtain ⟨t, hexec, hsame, hget⟩ := exec_clear hr g
      exact ⟨t, hexec, hsame, hget k⟩
    · refine ⟨_, exec_telSelWrite hr g i v, s.withTel_sameBut _, fun k hk => ?_, ?_⟩
      · exact (s.counter_select _ v k).trans (if_neg hk)
      · exact (s.counter_select _ v _).trans (if_pos rfl)
    · rw [exec_telemetryTick_unposted hpow htime hlast (by simp [State.tickFits, hoff]), hoff]
      rfl
    · have hunfit : s.tickFits = false := by
        have hmany : ¬ s.ticked.length ≤ 0 := Nat.not_le.mpr (State.ticked_ne_nil hon)
        rw [State.tickFits, hfull, decide_eq_false hmany, Bool.and_false, Bool.false_and]
      rw [exec_telemetryTick_unposted hpow htime hlast hunfit, hen]
      rfl
  · obtain ⟨t, hexec, hsame, hat, hall⟩ := exec_agingSample_sampled ms answers hpow hfail hdue
    exact ⟨t, hexec, hsame, hat, fun d hd => (hall d hd).margin, fun d hd => (hall d hd).unjudged,
      fun d hd => (hall d hd).raised⟩

end Sys2Proof.Machine

/-! ## Migration operations and blobs (O54) -/

namespace Sys2Proof.Machine

/-! ### One operation at a time (R362) -/

section MigCtl
variable {s : State} (hr : s.ready = true)
include hr

theorem State.migCtl_busy (hbusy : s.mig.busy = true) (f : State → State) :
    s.migCtl f = { s with mig := { s.mig with overrun := true } } := by simp [State.migCtl, hr, hbusy]

theorem State.migCtl_idle (hidle : s.mig.busy = false) (f : State → State) : s.migCtl f = f s := by
  simp [State.migCtl, hr, hidle]

end MigCtl

/-- A slice from LOG_ON (R362). -/
def Slice.startLog (v : Slice) : Slice := { v with logging := true, logLost := false, logInvalid := false }

/-- The state in which LOG_ON has begun the log of slice `n`. -/
def State.startLog (s : State) (n : Nat) : State := (s.updSlice n Slice.startLog).clearFilters n

theorem State.slice_startLog (s : State) (n j : Nat) :
    (s.startLog n).slice j = if j = n then (s.slice n).startLog else s.slice j := s.slice_updSlice n j _

theorem State.clearFilters_sameBut (s : State) (n : Nat) : s.sameBut (s.clearFilters n) [.mig] := by
  intro p hp
  cases p with
  | mig => exact absurd List.mem_cons_self hp
  | _ => rfl

theorem State.startLog_sameBut (s : State) (n : Nat) : s.sameBut (s.startLog n) [.slices, .mig] :=
  ((s.updSlice_sameBut n _).mono (by decide)).trans ((State.clearFilters_sameBut _ _).mono (by decide))

section Operations
variable {s : State} {i : BitVec 8} (hr : s.ready = true) (hidle : s.mig.busy = false)
include hr hidle

/-! ### Logging and marks (R362, R367) -/

theorem exec_logOn_wrongState (h : (s.slice i.toNat).logging = true ∨ ((s.slice i.toNat).state ≠ .active ∧
    (s.slice i.toNat).state ≠ .draining ∧ (s.slice i.toNat).state ≠ .drained)) :
    exec (.logOn i) s = .next (s.migEnd 1 i.toNat mrWrongState) := by
  refine congrArg Host.Outcome.next ((s.migCtl_idle hr hidle _).trans (if_pos ?_))
  rcases h with hlog | ⟨hactive, hdraining, hdrained⟩
  · simp [hlog]
  · simp [hactive, hdraining, hdrained]

section Slots
variable (hlog : (s.slice i.toNat).logging = false)
  (hstate : (s.slice i.toNat).state = .active ∨ (s.slice i.toNat).state = .draining ∨ (s.slice i.toNat).state = .drained)
include hlog hstate

/-- LOG_ON for a slice that may be logged turns on whether one of the four log slots is left. -/
theorem exec_logOn_slots : exec (.logOn i) s = .next
    (if 4 ≤ (s.slices.filter fun e : Nat × Slice => e.2.logging).length then s.migEnd 1 i.toNat mrLogSlots
      else (s.startLog i.toNat).migEnd 1 i.toNat mrOk) := by
  refine congrArg Host.Outcome.next ((s.migCtl_idle hr hidle _).trans (if_neg ?_))
  rcases hstate with h | h | h <;> simp [hlog, h]

end Slots

theorem exec_logOff (hlog : (s.slice i.toNat).logging = true) : exec (.logOff i) s = .next
    ((s.updSlice i.toNat fun v => { v with logging := false }).migEnd 2 i.toNat mrOk) :=
  congrArg Host.Outcome.next ((s.migCtl_idle hr hidle _).trans (if_pos hlog))

theorem exec_logOff_wrongState (hlog : (s.slice i.toNat).logging = false) :
    exec (.logOff i) s = .next (s.migEnd 2 i.toNat mrWrongState) :=
  congrArg Host.Outcome.next ((s.migCtl_idle hr hidle _).trans (if_neg (by simp [hlog])))

theorem exec_mark_wrongState (hlog : (s.slice i.toNat).logging = false) :
    exec (.mark i) s = .next (s.migEnd 3 i.toNat mrWrongState) :=
  congrArg Host.Outcome.next ((s.migCtl_idle hr hidle _).trans (if_pos (by simp [hlog])))

/-- The MARK entry of a slice with a serial (Table 15.1). -/
def markEntry (n : Nat) (serial : W32) : Nat := serial.toNat + field 45 2 + field 52 n

theorem exec_mark (hlog : (s.slice i.toNat).logging = true) (hroom : s.logRoom = true) :
    let u := (s.clearFilters i.toNat).postLog i.toNat (markEntry i.toNat (s.mig.markSerial + 1))
    exec (.mark i) s = .next
      (({ u with mig := { u.mig with markSerial := s.mig.markSerial + 1 } } : State).migEnd 3 i.toNat mrOk) := by
  refine congrArg Host.Outcome.next ((s.migCtl_idle hr hidle _).trans ((if_neg (by simp [hlog])).trans ?_))
  have hposted : (s.clearFilters i.toNat).logRoom = true := hroom
  simp only [hposted, if_true]
  rfl

/-! ### Freeze and thaw (R367, R368) -/

theorem exec_freeze_wrongState (hstate : (s.slice i.toNat).state ≠ .drained) :
    exec (.freeze i) s = .next (s.migEnd 4 i.toNat mrWrongState) :=
  congrArg Host.Outcome.next ((s.migCtl_idle hr hidle _).trans (if_pos hstate))

/-- FREEZE of a drained slice turns on its buffers, then on its waiting records. -/
theorem exec_freeze_drained (hstate : (s.slice i.toNat).state = .drained) : exec (.freeze i) s = .next
    (if s.holdsBuffer i.toNat then s.migEnd 4 i.toNat mrPoolHeld
      else if (s.slice i.toNat).recordsWait then s.migEnd 4 i.toNat mrRecords
      else (s.updSlice i.toNat fun v => { v with freezing := some s.time }).migBegin 4 i.toNat false) :=
  congrArg Host.Outcome.next ((s.migCtl_idle hr hidle _).trans (if_neg (not_not_intro hstate)))

theorem exec_thaw (hstate : (s.slice i.toNat).state = .frozen) : exec (.thaw i) s = .next
    ((s.updSlice i.toNat fun v => { v with state := .drained }).migEnd 6 i.toNat mrOk) :=
  congrArg Host.Outcome.next ((s.migCtl_idle hr hidle _).trans (if_pos hstate))

theorem exec_thaw_wrongState (hstate : (s.slice i.toNat).state ≠ .frozen) :
    exec (.thaw i) s = .next (s.migEnd 6 i.toNat mrWrongState) :=
  congrArg Host.Outcome.next ((s.migCtl_idle hr hidle _).trans (if_neg hstate))

/-! ### Export and import accepted (R369, R370) -/

theorem exec_migExport (port : Bool) (hstate : (s.slice i.toNat).state = .frozen) :
    exec (.migExport i port) s = .next (s.migBegin 5 i.toNat port) :=
  congrArg Host.Outcome.next ((s.migCtl_idle hr hidle _).trans (if_pos hstate))

theorem exec_migExport_wrongState (port : Bool) (hstate : (s.slice i.toNat).state ≠ .frozen) :
    exec (.migExport i port) s = .next (s.migEnd 5 i.toNat mrWrongState) :=
  congrArg Host.Outcome.next ((s.migCtl_idle hr hidle _).trans (if_neg hstate))

theorem exec_migImport_fails (port : Bool) {k : Nat} (hfails : s.importFails i.toNat = some k) :
    exec (.migImport i port) s = .next (s.migEnd 7 i.toNat k) := by
  refine congrArg Host.Outcome.next ((s.migCtl_idle hr hidle _).trans ?_)
  simp only [hfails]

theorem exec_migImport (port : Bool) (hfails : s.importFails i.toNat = none) :
    exec (.migImport i port) s = .next (s.migBegin 7 i.toNat port) := by
  refine congrArg Host.Outcome.next ((s.migCtl_idle hr hidle _).trans ?_)
  simp only [hfails]

end Operations

section Conditions
variable {s : State} {i : Nat}

theorem State.importFails_wrongState (h : (s.slice i).state ≠ .drained) : s.importFails i = some mrWrongState := if_pos h

theorem State.importFails_queues (h : (s.slice i).state = .drained) (hqueues : s.queuesOff i = false) :
    s.importFails i = some mrQueues := by simp [State.importFails, h, hqueues]

theorem State.importFails_none (h : (s.slice i).state = .drained) (hqueues : s.queuesOff i = true) :
    s.importFails i = none := by simp [State.importFails, h, hqueues]

theorem State.postLog_filters (s : State) (n entry : Nat) :
    (s.postLog n entry).mig.filters = s.mig.filters := by
  unfold State.postLog
  dsimp only
  split
  · split <;> rfl
  · rfl

/-- No logging point holds a filter entry of a slice whose entries were cleared. -/
theorem State.clearFilters_cleared (s : State) (n : Nat) :
    ∀ e ∈ (s.clearFilters n).mig.filters, ∀ f ∈ e.2, f.1 ≠ n := by
  intro e he f hf
  obtain ⟨hmapped, -⟩ := List.mem_filter.mp he
  obtain ⟨e', -, rfl⟩ := List.mem_map.mp hmapped
  exact of_decide_eq_true (List.mem_filter.mp hf).2

/-- Where no inbound stream of the slice is open, none is broken. -/
theorem State.breakInbound_closed (h : s.noInbound i = true) : s.breakInbound i = s := by
  have hnone : s.sweld.ins.filter (fun e : Nat × InStream => decide (e.2.dst = i)) = [] := by
    rw [List.filter_eq_nil_iff]
    simpa [State.noInbound] using h
  rw [State.breakInbound, hnone, List.foldl_nil]

/-! ### The end of a freeze (R368) -/

section Freezing
variable {n : BitVec 8} {port : Bool} {a t0 : Nat} (hr : s.ready = true) (hop : s.mig.op = some (4, n.toNat, port, a))
  (hstate : (s.slice n.toNat).state = .drained)
  (hfreezing : (s.slice n.toNat).freezing = some t0)
include hr hop hstate hfreezing

theorem exec_sliceFrozen_closed (hreset : (s.slice n.toNat).reset ≠ .running) (hclosed : s.noInbound n.toNat = true) :
    exec (.sliceFrozen n) s = .next ((s.updSlice n.toNat fun v => { v with
      state := .frozen, freezing := none, timeFrozen := s.time }).migEnd 4 n.toNat mrOk) := by
  refine congrArg Host.Outcome.next ?_
  simp [State.doSliceFrozen, hr, hop, hstate, hreset, hfreezing, hclosed, State.breakInbound_closed hclosed]

theorem exec_sliceFrozen_waits (hopen : s.noInbound n.toNat = false) (hsoon : s.time < t0 + 64000000) :
    exec (.sliceFrozen n) s = .next s := by
  refine congrArg Host.Outcome.next ?_
  simp [State.doSliceFrozen, hr, hop, hstate, hfreezing, hopen, hsoon]

end Freezing
end Conditions

/-! ### The blob's data (R369, R370) -/

section Blob
variable {s : State} {i a : Nat} {port : Bool} {reply : HostReply} (hr : s.ready = true)
include hr

section Export
variable (hop : s.mig.op = some (5, i, port, a))
include hop

theorem exec_exportDone : exec (.migrationBlobDone reply) s = .next
    (if (s.hostData port reply).isNone then s.migEnd 5 i mrFetch
      else (s.hostWrite none a (s.blobOf i)).migEnd 5 i mrOk) := by
  refine congrArg Host.Outcome.next ?_
  simp only [State.doBlobDone, hr, hop, Bool.not_true, Bool.false_eq_true, if_false]

end Export

section Import
variable (hop : s.mig.op = some (7, i, port, a))
include hop

theorem exec_importDone_none (hdata : s.hostData port reply = none) :
    exec (.migrationBlobDone reply) s = .next (s.migEnd 7 i mrFetch) := by
  refine congrArg Host.Outcome.next ?_
  simp only [State.doBlobDone, hr, hop, hdata, Bool.not_true, Bool.false_eq_true, if_false]

theorem exec_importDone {d : Bytes} (hdata : s.hostData port reply = some d) :
    exec (.migrationBlobDone reply) s = .next (s.importBlob i (bytesAt d 0 0x40000) port) := by
  refine congrArg Host.Outcome.next ?_
  simp only [State.doBlobDone, hr, hop, hdata, Bool.not_true, Bool.false_eq_true, if_false]

end Import
end Blob

section ImportBlob
variable {s : State} {i : Nat} {b : Bytes} {port : Bool}

theorem State.importBlob_fails {k : Nat} (h : s.importFails i = some k) : s.importBlob i b port = s.migEnd 7 i k := by
  simp only [State.importBlob, h]

/-- The checks of an accepted import in their order. -/
theorem State.importBlob_accepted (h : s.importFails i = none) :
    s.importBlob i b port =
      if !blobGood b then s.migEnd 7 i mrBadBlob
      else if !blobFits (s.slice i).defn b (scramble (bytesAt b 0x100 0x2BF00)) then s.migEnd 7 i mrGrantShort
      else (s.installBlob i (scramble (bytesAt b 0x100 0x2BF00)) (portPlace port)).migEnd 7 i mrOk := by
  simp only [State.importBlob, h]

end ImportBlob

/-- Settles O54: each operation's condition decides its RESULT, and the checks of a blob go in their order. -/
theorem migration : Obligations.Migration := by
  unfold Obligations.Migration
  refine ⟨fun s i port hr => ⟨fun hbusy => ?_, fun hidle => ?_, fun p a hop hstate hreset t0 hfreezing => ?_⟩,
    fun s i a port reply hr => ⟨fun hop => ?_, fun hop => ?_⟩⟩
  · have hover := fun f => congrArg (Host.Outcome.next (φ := Fault) (ρ := Refusal)) (s.migCtl_busy hr hbusy f)
    exact ⟨hover _, hover _, hover _, hover _, hover _, hover _, hover _⟩
  · refine ⟨exec_logOn_wrongState hr hidle, fun hlog hstate => ⟨fun hfull => ?_, fun hroom => ?_⟩,
      fun hlog => ⟨exec_logOff_wrongState hr hidle hlog, exec_mark_wrongState hr hidle hlog⟩, exec_logOff hr hidle,
      fun hlog hroom => ?_, exec_freeze_wrongState hr hidle, fun hstate hheld => ?_, fun hstate hheld hwait => ?_,
      fun hstate hheld hwait => ?_, fun hstate => ⟨exec_thaw hr hidle hstate, exec_migExport hr hidle port hstate⟩,
      fun hstate => ⟨exec_thaw_wrongState hr hidle hstate, exec_migExport_wrongState hr hidle port hstate⟩,
      fun hstate => exec_migImport_fails hr hidle port (State.importFails_wrongState hstate),
      fun hstate hqueues => exec_migImport_fails hr hidle port (State.importFails_queues hstate hqueues),
      fun hstate hqueues => exec_migImport hr hidle port (State.importFails_none hstate hqueues)⟩
    · rw [exec_logOn_slots hr hidle hlog hstate, if_pos hfull]
      rfl
    · refine ⟨s.startLog i.toNat, ?_, s.startLog_sameBut _, (s.slice_startLog _ _).trans (if_pos rfl),
        fun j hj => (s.slice_startLog _ j).trans (if_neg hj)⟩
      rw [exec_logOn_slots hr hidle hlog hstate, if_neg (Nat.not_le.mpr hroom)]
      rfl
    · refine ⟨_, exec_mark hr hidle hlog hroom, rfl, rfl, rfl, ?_⟩
      have hkept := (s.clearFilters i.toNat).postLog_filters i.toNat (markEntry i.toNat (s.mig.markSerial + 1))
      exact fun e he => s.clearFilters_cleared i.toNat e (hkept ▸ he)
    · rw [exec_freeze_drained hr hidle hstate, if_pos hheld]
      rfl
    · rw [exec_freeze_drained hr hidle hstate, if_neg (by simp [hheld]), if_pos hwait]
      rfl
    · rw [exec_freeze_drained hr hidle hstate, if_neg (by simp [hheld]), if_neg (by simp [hwait])]
      rfl
  · exact ⟨exec_sliceFrozen_closed hr hop hstate hfreezing hreset, exec_sliceFrozen_waits hr hop hstate hfreezing⟩
  · rw [exec_exportDone hr hop]
    exact ⟨fun hnone => by rw [hnone]; rfl, fun hsome => by rw [if_neg (by simpa using hsome)]; rfl⟩
  · refine ⟨exec_importDone_none hr hop, fun d hdata => ?_⟩
    rw [exec_importDone hr hop hdata]
    refine ⟨fun k hfails => congrArg Host.Outcome.next (State.importBlob_fails hfails), fun hok hbad => ?_,
      fun hok hgood hshort => ?_, fun hok hgood hfits => ?_⟩ <;> rw [State.importBlob_accepted hok]
    · rw [hbad]
      rfl
    · rw [hgood, hshort]
      rfl
    · rw [hgood, hfits]
      rfl

end Sys2Proof.Machine

/-! ## Scrubbers (O52) -/

namespace Sys2Proof.Machine

/-! ### The descriptor scrubber (R321) -/

theorem firstDiff_self (b : Bytes) (n : Nat) : firstDiff b b n = none := by
  induction b generalizing n with
  | nil => rfl
  | cons a b ih => exact (if_pos rfl).trans (ih (n + 1))

theorem State.drawResult_sameBut (s : State) : s.sameBut s.drawResult.2 [.free] := by
  intro p hp
  cases p with
  | free => exact absurd List.mem_cons_self hp
  | _ => rfl

theorem State.askTenantReset_state (s : State) (k j : Nat) :
    ((s.askTenantReset k).slice j).state = (s.slice j).state := by
  unfold State.askTenantReset
  split
  · rw [State.slice_updSlice]
    split <;> simp [*]
  · rfl

theorem State.countFault_state (s : State) (code : Nat) (f : FaultInfo) (j : Nat) :
    ((s.countFault code f).slice j).state = (s.slice j).state := by
  unfold State.countFault
  split
  · rw [State.slice_updSlice]
    split <;> simp [*]
  · rfl

/-- The masks leave an active slice active or draining (R306). -/
theorem State.maskFault_active {s : State} {j : Nat} (h : (s.slice j).state = .active) (code : Nat) (f : FaultInfo) :
    ((s.maskFault code f).1.slice j).state = .active ∨ ((s.maskFault code f).1.slice j).state = .draining := by
  unfold State.maskFault
  split
  next k _ =>
    unfold State.escalate
    extract_lets v g esc qui t t' t''
    have hdrain : (t.slice j).state = .active ∨ (t.slice j).state = .draining := by
      simp only [t]
      split
      · rw [State.slice_updSlice]
        split
        · exact .inr rfl
        · exact .inl h
      · exact .inl h
    have hmark : t'.slice j = t.slice j := by
      simp only [t']
      (repeat' split) <;> rfl
    simp only [t'']
    split
    · rw [State.askTenantReset_state, hmark]
      exact hdrain
    · exact hdrain
  next => exact .inl h

theorem State.raise_active {s : State} {j : Nat} (h : (s.slice j).state = .active) (code : Nat) (f : FaultInfo) :
    ((s.raise code f).slice j).state = .active ∨ ((s.raise code f).slice j).state = .draining := by
  have hend : (s.raise code f).slice j = (s.masked code f).1.slice j :=
    (((State.queueRecord_sameBut _ _ _).mono (qs := [.flt, .cmds]) (by decide)).trans
      (((State.fillBucket_sameBut _ _).mono (by decide)).trans
        ((State.endFault_sameBut _ _ _).mono (by decide)))).slice_eq (by decide) j
  rw [hend, State.masked]
  refine State.maskFault_active ?_ code f
  split
  · rw [State.countFault_state, h]
  · exact h

/-- A bad descriptor drains an active slice, whatever its masks. -/
theorem State.descBad_drains {s : State} {i : Nat} (h : (s.slice i).state = .active) (diff : Option Nat) :
    ((s.descBad i diff).slice i).state = .draining ∧ ((s.descBad i diff).slice i).descBad = true := by
  have hactive : ∀ u : State, u.slice i = s.slice i → ∀ f,
      ((u.raise fcDescBad f).slice i).state = .active ∨ ((u.raise fcDescBad f).slice i).state = .draining :=
    fun u hu f => State.raise_active (by rw [hu, h]) fcDescBad f
  unfold State.descBad
  cases diff with
  | some k =>
    refine ⟨?_, by rw [State.slice_updSlice_same]⟩
    rw [State.slice_updSlice_same]
    rcases hactive s rfl { unit := unitQueue false, slice := some i, info0 := k } with h | h <;> simp [h]
  | none =>
    refine ⟨?_, by rw [State.slice_updSlice_same]⟩
    rw [State.slice_updSlice_same]
    rcases hactive s.drawResult.2 rfl { unit := unitQueue false, slice := some i, info0 := s.drawResult.1 } with h | h <;>
      simp [h]

section Descriptor
variable {s : State} {i : BitVec 8} (hr : s.ready = true)

theorem exec_descriptorScrub_applying (h : (s.slice i.toNat).state = .applying) :
    exec (.descriptorScrub i) s = .next s :=
  congrArg Host.Outcome.next (if_pos (by simp [h]))

section Checked
variable (hstate : (s.slice i.toNat).state ≠ .applying)
include hr hstate

theorem exec_descriptorScrub_good (hsame : (s.slice i.toNat).copy0 = (s.slice i.toNat).copy1)
    (hgood : copyOk (s.slice i.toNat).defn (s.slice i.toNat).copy0 = true) : exec (.descriptorScrub i) s = .next s := by
  have hdiff : firstDiff (s.slice i.toNat).copy0 (s.slice i.toNat).copy1 0 = none := hsame ▸ firstDiff_self _ 0
  refine congrArg Host.Outcome.next ((if_neg (by simp [hr, hstate])).trans ?_)
  simp only [hdiff, hgood]

/-- The copy in quoin 1 is mended from that in quoin 0. -/
theorem exec_descriptorScrub_mends1 {k : Nat}
    (hdiff : firstDiff (s.slice i.toNat).copy0 (s.slice i.toNat).copy1 0 = some k)
    (hgood : copyOk (s.slice i.toNat).defn (s.slice i.toNat).copy0 = true)
    (hbad : copyOk (s.slice i.toNat).defn (s.slice i.toNat).copy1 = false) :
    exec (.descriptorScrub i) s = .next (s.rewriteCopy i.toNat true k) := by
  refine congrArg Host.Outcome.next ((if_neg (by simp [hr, hstate])).trans ?_)
  simp only [hdiff, hgood, hbad]

/-- The copy in quoin 0 is mended from that in quoin 1. -/
theorem exec_descriptorScrub_mends0 {k : Nat}
    (hdiff : firstDiff (s.slice i.toNat).copy0 (s.slice i.toNat).copy1 0 = some k)
    (hbad : copyOk (s.slice i.toNat).defn (s.slice i.toNat).copy0 = false)
    (hgood : copyOk (s.slice i.toNat).defn (s.slice i.toNat).copy1 = true) :
    exec (.descriptorScrub i) s = .next (s.rewriteCopy i.toNat false k) := by
  refine congrArg Host.Outcome.next ((if_neg (by simp [hr, hstate])).trans ?_)
  simp only [hdiff, hgood, hbad]

theorem exec_descriptorScrub_bad (hbad0 : copyOk (s.slice i.toNat).defn (s.slice i.toNat).copy0 = false)
    (hbad1 : copyOk (s.slice i.toNat).defn (s.slice i.toNat).copy1 = false) : exec (.descriptorScrub i) s =
      .next (s.descBad i.toNat (firstDiff (s.slice i.toNat).copy0 (s.slice i.toNat).copy1 0)) := by
  refine congrArg Host.Outcome.next ((if_neg (by simp [hr, hstate])).trans ?_)
  simp only [hbad0, hbad1]
  cases firstDiff (s.slice i.toNat).copy0 (s.slice i.toNat).copy1 0 <;> rfl

end Checked

end Descriptor

/-! ### The cache scrubber (R339) -/

section Cache
variable {s : State} {x : Nat}

theorem State.doScrubCache_skips
    (h : s.ucOffline x = true ∨ s.dieState (dieOfUcSlice x) ≠ .up ∨ s.cacheCredit x < 10000) (a b : ArrayErr)
    (e : Option (Fin 16 × Fin 4 × ArrayErr)) : s.doScrubCache x a b e = s := by
  refine if_pos ?_
  rcases h with hoff | hdie | hpoor
  · simp [hoff]
  · simp [hdie]
  · simp [hpoor]

section Empty
variable (hempty : s.uc.ways = [])
include hempty

theorem State.way_empty (k : Nat) : s.way k = {} := by rw [State.way, hempty, Tbl.get]

theorem State.checkTags_empty (set : Nat) : s.checkTags x set = s :=
  State.checkTags_clean fun v _ => by rw [State.way_empty hempty]

theorem State.scrubData_empty (set : Nat) : s.scrubData x set none = s :=
  foldl_eq_self fun w _ => by simp [State.way_empty hempty, Way.holds]

theorem State.setSlots_empty (set : Nat) : s.setSlots x set = 1 := by
  simp [State.setSlots, State.way_empty hempty, Way.holds]

/-- An empty set whose tags show no error is paid for and passed. -/
theorem State.doScrubCache_empty (hr : s.ready = true) (hon : s.ucOffline x = false)
    (hdie : s.dieState (dieOfUcSlice x) = .up) (hpaid : 10000 ≤ s.cacheCredit x) :
    ∃ n, s.doScrubCache x .none .none none = ((s.paySet x (Tbl.get 0 s.uc.scrubSet x)).scrubFixed n).scrubNext x := by
  have hpoor : decide (s.cacheCredit x < 10000) = false := decide_eq_false (Int.not_lt.mpr hpaid)
  generalize hu : s.paySet x (Tbl.get 0 s.uc.scrubSet x) = u
  have huempty : u.uc.ways = [] := hu ▸ hempty
  have hudie : u.dieState (dieOfUcSlice x) = .up := hu ▸ hdie
  have htags : u.scrubTags x (Tbl.get 0 s.uc.scrubSet x) .none .none =
      (u.scrubFixed (u.tagSingles x (Tbl.get 0 s.uc.scrubSet x)), true) := by
    unfold State.scrubTags
    rw [State.checkTags_empty huempty]
    exact (if_neg (not_not_intro hudie)).trans (if_neg (by decide))
  refine ⟨u.tagSingles x (Tbl.get 0 s.uc.scrubSet x), ?_⟩
  unfold State.doScrubCache
  rw [if_neg (by simp [hr, hdie, hon, hpoor])]
  simp only [hu, htags]
  rw [State.scrubData_empty (s := u.scrubFixed _) huempty]

end Empty

theorem State.withUc_sameBut (s : State) (v : Uc) : s.sameBut { s with uc := v } [.uc] := by
  intro p hp
  cases p with
  | uc => exact absurd List.mem_cons_self hp
  | _ => rfl

/-- What a step to the next set leaves, and where it leads. -/
theorem State.scrubNext_spec (s : State) (x : Nat) :
    s.sameBut (s.scrubNext x) [.uc] ∧ (s.scrubNext x).uc.ways = s.uc.ways ∧ (s.scrubNext x).uc.wayOff = s.uc.wayOff ∧
      (s.scrubNext x).uc.scrubCredit = s.uc.scrubCredit ∧ Tbl.get 0 (s.scrubNext x).uc.scrubSet x =
        if Tbl.get 0 s.uc.scrubSet x + 1 < 1536 then Tbl.get 0 s.uc.scrubSet x + 1 else 0 := by
  unfold State.scrubNext
  dsimp only
  split
  · exact ⟨s.withUc_sameBut _, rfl, rfl, rfl, by simp⟩
  · exact ⟨s.withUc_sameBut _, rfl, rfl, rfl, by simp⟩

end Cache

/-! ### The local-store and register-file scrubber (R340) -/

/-- The parts that a word of a bay's arrays can touch. -/
abbrev rowParts : List Part := [.free, .slices, .cmds, .flt, .dev, .bays, .tel]

section Row
variable (s : State) (b : Nat)

theorem State.arrayCorrected_sameBut : s.sameBut (s.arrayCorrected b) rowParts :=
  (s.drawResult_sameBut.mono (by decide)).trans ((State.raise_sameBut _ _ _).mono (by decide))

theorem State.arrayLost_sameBut (id : Nat) : s.sameBut (s.arrayLost id b) rowParts :=
  (s.drawResult_sameBut.mono (by decide)).trans ((State.raise_sameBut _ _ _).mono (by decide))

theorem State.updBay_rowParts (f : Bay → Bay) : s.sameBut (s.updBay b f) rowParts :=
  (s.updBay_sameBut b f).mono (by decide)

theorem State.drawChoice_rowParts (n : Nat) : s.sameBut (s.drawChoice n).2 rowParts :=
  (s.drawChoice_sameBut n).mono (by decide)

theorem State.zeroWord_sameBut : s.sameBut (s.zeroWord b) rowParts := by
  unfold State.zeroWord
  refine State.sameBut.trans ?_ (State.arrayCorrected_sameBut _ b)
  refine State.sameBut.trans ?_ ((State.withTel_sameBut _ _).mono (by decide))
  split
  · exact (s.drawChoice_rowParts 262145).trans (State.updBay_rowParts _ b _)
  · exact s.drawChoice_rowParts 262145

theorem State.l1Lost_sameBut (line off : Nat) : s.sameBut (s.l1Lost b line off) rowParts := by
  unfold State.l1Lost
  split
  · exact s.sameBut_refl _
  · dsimp only
    split
    · exact (s.updBay_rowParts b _).trans (State.arrayCorrected_sameBut _ b)
    · split
      · exact (s.updBay_rowParts b _).trans (State.arrayCorrected_sameBut _ b)
      · exact (s.updBay_rowParts b _).trans (foldl_sameBut (fun u id => u.arrayLost_sameBut b id) _ _)

theorem State.wordLost_sameBut (row off : Nat) : s.sameBut (s.wordLost b row off) rowParts := by
  unfold State.wordLost
  refine (s.drawChoice_rowParts (s.rowUses b row).length).trans ?_
  dsimp only
  split
  · exact State.arrayLost_sameBut _ b _
  · exact State.l1Lost_sameBut _ b _ _
  · exact State.zeroWord_sameBut _ b

theorem State.foundErr_sameBut : s.sameBut (s.foundErr b) rowParts := by
  unfold State.foundErr
  dsimp only
  split
  · exact s.sameBut_refl _
  · refine (s.drawChoice_rowParts ((s.bay b).errs.length + 1)).trans ?_
    split
    · split
      · exact (State.updBay_rowParts _ b _).trans (State.arrayCorrected_sameBut _ b)
      · split
        · exact (State.updBay_rowParts _ b _).trans (State.arrayLost_sameBut _ b _)
        · exact (State.updBay_rowParts _ b _).trans (State.zeroWord_sameBut _ b)
    · exact State.sameBut_refl _ _

theorem State.foundErr_clean (h : (s.bay b).errs = []) : s.foundErr b = s := if_pos h

/-- The state in which a row of the bay is paid for. -/
def State.payRow : State :=
  s.updBay b fun v => { v with scrubCredit := s.rowCredit b - 1000, meterTime := s.dev.ticks }

/-- What the array shows in the row itself. -/
def State.rowErr (err : ArrayErr) (row off : Nat) : State :=
  match err with
  | .none => s
  | .single => s.arrayCorrected b
  | .uncorrectable => s.wordLost b row off

/-- The row is done: the scrubber goes on to the next, or a pass ends. -/
def State.rowDone (row : Nat) : State :=
  if row + 1 < 16384 then s.updBay b fun v => { v with scrubRow := v.scrubRow + 1 }
  else { s.updBay b fun v => { v with scrubRow := 0 } with
    tel := { s.tel with lsPasses := satAdd 32 s.tel.lsPasses 1 } }

theorem State.rowErr_sameBut (err : ArrayErr) (row off : Nat) : s.sameBut (s.rowErr b err row off) rowParts := by
  cases err with
  | none => exact s.sameBut_refl _
  | single => exact s.arrayCorrected_sameBut b
  | uncorrectable => exact s.wordLost_sameBut b row off

theorem State.rowDone_sameBut (row : Nat) : s.sameBut (s.rowDone b row) [.bays, .tel] := by
  unfold State.rowDone
  split
  · exact (s.updBay_sameBut b _).mono (by decide)
  · exact ((s.updBay_sameBut b _).mono (by decide)).trans ((State.withTel_sameBut _ _).mono (by decide))

end Row

section ScrubRow
variable {s : State} {b : Fin 48} (err : ArrayErr) (k : Fin 256)

theorem exec_scrubLsRow_skips
    (h : (s.bay b.val).mgmt = .off ∨ (s.bay b.val).unit = .resetting ∨ s.rowCredit b.val < 1000) :
    exec (.scrubLsRow b err k) s = .next s := by
  refine congrArg Host.Outcome.next (if_pos ?_)
  rcases h with hoff | hreset | hpoor
  · simp [hoff]
  · simp [hreset]
  · simp [hpoor]

/-- A row that the meter pays for. -/
theorem exec_scrubLsRow (hr : s.ready = true) (hon : (s.bay b.val).mgmt ≠ .off)
    (hup : (s.bay b.val).unit ≠ .resetting) (hpaid : 1000 ≤ s.rowCredit b.val) :
    exec (.scrubLsRow b err k) s = .next ((((s.payRow b.val).foundErr b.val).rowErr b.val err (s.bay b.val).scrubRow
      k.val).rowDone b.val (s.bay b.val).scrubRow) := by
  refine congrArg Host.Outcome.next ?_
  unfold State.doScrubLs
  rw [if_neg (by simp [hr, hon, hup, hpaid])]
  rfl

end ScrubRow

/-! ### The DRAM scrubber (R336, R337) -/

section Dram
variable {s : State} {c : Fin 128} (errs : List (Nat × Byte))

theorem exec_scrubDramLine_waits (h : s.chanServes c.val = false ∨ (s.chan c.val).repacking = true ∨
    (s.chan c.val).retraining = true ∨ s.scrubDue c.val = false) : exec (.scrubDramLine c errs) s = .next s := by
  refine congrArg Host.Outcome.next (if_pos ?_)
  rcases h with hdown | hrepack | hretrain | hearly
  · simp [hdown]
  · simp [hrepack]
  · simp [hretrain]
  · simp [hearly]

section Due
variable (hserves : s.chanServes c.val = true) (hrepack : (s.chan c.val).repacking = false)
  (hretrain : (s.chan c.val).retraining = false) (hdue : s.scrubDue c.val = true)
include hserves hrepack hretrain hdue

/-- The position has come: it is consulted. -/
theorem exec_scrubDramLine_due :
    let q := (s.chan c.val).scrubPos
    let t := (s.mapCheck c.val (q / 32)).1
    let u := t.earnScrub c.val
    exec (.scrubDramLine c errs) s = .next
      (if s.fresh c.val (s.blockOfLine c.val q) then s.scrubMove c.val
        else if t.lineState c.val q = .written then
          if (u.chan c.val).scrubCredit < 40000 then u
          else ((u.updChan c.val fun v => { v with scrubCredit := v.scrubCredit - 40000 }).scrubLine c.val q errs).scrubMove
            c.val
        else t.scrubMove c.val) :=
  congrArg Host.Outcome.next (if_neg (by simp [hserves, hrepack, hretrain, hdue]))

end Due
end Dram

section Move
variable {s : State} {n : Nat}

theorem State.scrubMove_next (h : (s.chan n).scrubPos + 1 < chanLines s.density) :
    ((s.scrubMove n).chan n).scrubPos = (s.chan n).scrubPos + 1 := by
  unfold State.scrubMove
  dsimp only
  rw [if_pos h, State.chan_updChan_same]

theorem State.scrubMove_wraps (h : chanLines s.density ≤ (s.chan n).scrubPos + 1) :
    ((s.scrubMove n).chan n).scrubPos = 0 ∧ ((s.scrubMove n).chan n).scrubPasses = satAdd 16 (s.chan n).scrubPasses 1 ∧
      ((s.scrubMove n).chan n).scrubStart = s.dev.ticks := by
  unfold State.scrubMove
  dsimp only
  rw [if_neg (Nat.not_lt.mpr h), State.chan_updChan_same]
  exact ⟨rfl, rfl, rfl⟩

end Move

/-! ### The statement -/

/-- Settles O52: each scrubber is taken through its skips, its payment and what it finds. -/
theorem scrubbers : Obligations.Scrubbers := by
  unfold Obligations.Scrubbers
  refine ⟨fun s hr => ⟨fun i => ⟨exec_descriptorScrub_applying,
      exec_descriptorScrub_good hr, fun hstate k => exec_descriptorScrub_mends1 hr hstate,
      fun hstate k => exec_descriptorScrub_mends0 hr hstate, fun hactive hbad0 hbad1 => ?_⟩, fun x h a b e => congrArg Host.Outcome.next
      (State.doScrubCache_skips h a b e), fun x hon hdie hpaid hempty => ?_, fun b h e k => exec_scrubLsRow_skips e k h,
      fun b k hon hup hpaid => ⟨fun hclean hmore => ?_, fun hclean hlast => ?_, fun e => ?_⟩⟩,
    fun s c errs => ⟨exec_scrubDramLine_waits errs, fun hserves hrepack hretrain hdue => ?_, State.scrubMove_next,
      State.scrubMove_wraps⟩⟩
  · exact ⟨_, exec_descriptorScrub_bad hr (by simp [hactive]) hbad0 hbad1, State.descBad_drains hactive _⟩
  · obtain ⟨n, hscrub⟩ := State.doScrubCache_empty hempty hr hon hdie hpaid
    obtain ⟨hsame, hways, hoff, hcredit, hset⟩ :=
      ((s.paySet x.toNat (Tbl.get 0 s.uc.scrubSet x.toNat)).scrubFixed n).scrubNext_spec x.toNat
    refine ⟨_, congrArg Host.Outcome.next hscrub, ?_, hways.trans hempty, hoff, ?_, hset⟩
    · exact ((s.withUc_sameBut _).trans (State.withUc_sameBut _ _)).trans hsame
    · rw [hcredit]
      refine (Tbl.get_set _ _ _ _ _).trans ((if_pos rfl).trans ?_)
      rw [State.setSlots_empty hempty]
      rfl
  · rw [exec_scrubLsRow .none k hr hon hup hpaid]
    have hpaidClean : ((s.payRow b.val).bay b.val).errs = [] := by rw [State.payRow, State.bay_updBay_same, hclean]
    rw [State.foundErr_clean _ _ hpaidClean, State.rowErr, State.rowDone, if_pos hmore]
    rfl
  · have hpaidClean : ((s.payRow b.val).bay b.val).errs = [] := by rw [State.payRow, State.bay_updBay_same, hclean]
    refine ⟨_, exec_scrubLsRow .none k hr hon hup hpaid, ?_⟩
    rw [State.foundErr_clean _ _ hpaidClean, State.rowErr]
    refine ⟨?_, ?_, ((s.updBay_sameBut b.val _).mono (by decide)).trans (State.rowDone_sameBut _ _ _)⟩ <;>
      rw [State.rowDone, if_neg (Nat.not_lt.mpr hlast)]
    · exact congrArg Bay.scrubRow ((s.payRow b.val).bay_updBay_same b.val fun v => { v with scrubRow := 0 })
    · rfl
  · have hframe := (s.updBay_rowParts b.val _).trans (((s.payRow b.val).foundErr_sameBut b.val).trans
      ((State.rowErr_sameBut _ b.val e (s.bay b.val).scrubRow k.val).trans
        ((State.rowDone_sameBut _ b.val (s.bay b.val).scrubRow).mono (by decide))))
    exact ⟨_, exec_scrubLsRow e k hr hon hup hpaid, hframe .mem (by decide), hframe .host (by decide)⟩
  · rw [exec_scrubDramLine_due errs hserves hrepack hretrain hdue]
    refine ⟨fun hfresh => by rw [if_pos hfresh], fun hstale => ?_⟩
    rw [if_neg (by simp [hstale])]
    refine ⟨fun hstate => by rw [if_neg hstate], fun hstate => ?_⟩
    rw [if_pos hstate]
    exact ⟨fun hpoor => by rw [if_pos hpoor], fun hpaid => by rw [if_neg (Nat.not_lt.mpr hpaid)]⟩

end Sys2Proof.Machine

/-! ## The sequence window (O15) -/

namespace Sys2Proof.Machine

/-- The window of a queue has taken `n`: no newer SEQ stands 2^31 or more after it, and while it is in the window's reach
its bit is set. -/
structure Sq.Taken (q : Sq) (n : W32) : Prop where
  started : q.seqEmpty = false
  near : (q.high - n).toNat < 2 ^ 31
  bit : (q.high - n).toNat ≤ 1023 → q.seen.getLsbD (q.high - n).toNat = true

/-- The three ways a window takes a SEQ (R98): as its first, as a newer one, or as an older one whose bit is clear. -/
theorem Sq.seqCheck_cases (q : Sq) (n : W32) :
    (q.seqEmpty = true ∧ q.seqCheck n = ({ q with seqEmpty := false, high := n, seen := 1 }, .accept)) ∨
    (q.seqEmpty = false ∧ 1 ≤ (n - q.high).toNat ∧ (n - q.high).toNat < 2 ^ 31 ∧
      q.seqCheck n = ({ q with high := n, seen := (q.seen <<< (n - q.high).toNat) ||| 1 }, .accept)) ∨
    (q.seqEmpty = false ∧ ¬ (1 ≤ (n - q.high).toNat ∧ (n - q.high).toNat < 2 ^ 31) ∧ (q.high - n).toNat ≤ 1023 ∧
      q.seqCheck n = ({ q with seen := q.seen ||| (1#1024 <<< (q.high - n).toNat) }, .accept)) ∨
    ∃ k, q.seqCheck n = (q, .duplicate k) := by
  unfold Sq.seqCheck
  by_cases he : q.seqEmpty = true
  · exact .inl ⟨he, by simp [he]⟩
  · have he' : q.seqEmpty = false := by simpa using he
    simp only [he', Bool.false_eq_true, if_false, true_and]
    by_cases ha : 1 ≤ (n - q.high).toNat ∧ (n - q.high).toNat < 2 ^ 31
    · exact .inr (.inl ⟨ha.1, ha.2, by rw [if_pos ha]⟩)
    · rw [if_neg ha]
      by_cases hb : (q.high - n).toNat ≤ 1023
      · rw [if_pos hb]
        cases hs : q.seen.getLsbD (q.high - n).toNat
        · exact .inr (.inr (.inl ⟨ha, hb, rfl⟩))
        · exact .inr (.inr (.inr ⟨0, rfl⟩))
      · exact .inr (.inr (.inr ⟨1, by rw [if_neg hb]⟩))

theorem Sq.taken_of_accept {q : Sq} {n : W32} (h : (q.seqCheck n).2 = .accept) : (q.seqCheck n).1.Taken n := by
  rcases q.seqCheck_cases n with ⟨_, e⟩ | ⟨he, _, _, e⟩ | ⟨he, _, hb, e⟩ | ⟨k, e⟩
  · rw [e]
    exact ⟨rfl, by simp, by simp⟩
  · rw [e]
    exact ⟨he, by simp, by simp⟩
  · rw [e]
    refine ⟨he, hb.trans_lt (by omega), fun _ => ?_⟩
    show (q.seen ||| (1#1024 <<< (q.high - n).toNat)).getLsbD (q.high - n).toNat = true
    generalize (q.high - n).toNat = back at hb ⊢
    simp
    omega
  · simp [e] at h

/-- A window that has taken `n` keeps it while no SEQ checked stands 2^31 or more after `n`. -/
theorem Sq.Taken.seqCheck {q : Sq} {n m : W32} (h : q.Taken n) (hm : (m - n).toNat < 2 ^ 31) : (q.seqCheck m).1.Taken n := by
  obtain ⟨he, hnear, hbit⟩ := h
  rcases q.seqCheck_cases m with ⟨he', _⟩ | ⟨_, h1, h2, e⟩ | ⟨_, _, hb, e⟩ | ⟨k, e⟩
  · simp [he] at he'
  · rw [e]
    refine ⟨he, hm, fun hle => ?_⟩
    have hsum : (m - n).toNat = (m - q.high).toNat + (q.high - n).toNat := by bv_omega
    replace hle : (m - n).toNat ≤ 1023 := hle
    show ((q.seen <<< (m - q.high).toNat) ||| 1).getLsbD (m - n).toNat = true
    have hset := hbit (by omega)
    generalize (m - n).toNat = new, (m - q.high).toNat = ahead, (q.high - n).toNat = old at *
    have hback : new - ahead = old := by omega
    simp [hback, hset]
    omega
  · rw [e]
    refine ⟨he, hnear, fun hle => ?_⟩
    replace hle : (q.high - n).toNat ≤ 1023 := hle
    show (q.seen ||| (1#1024 <<< (q.high - m).toNat)).getLsbD (q.high - n).toNat = true
    rw [BitVec.getLsbD_or, hbit hle, Bool.true_or]
  · rw [e]
    exact ⟨he, hnear, hbit⟩

theorem Sq.Taken.not_accept {q : Sq} {n : W32} (h : q.Taken n) : (q.seqCheck n).2 ≠ .accept := by
  obtain ⟨he, hnear, hbit⟩ := h
  have hahead : ¬ (1 ≤ (n - q.high).toNat ∧ (n - q.high).toNat < 2 ^ 31) := by bv_omega
  unfold Sq.seqCheck
  simp only [he, Bool.false_eq_true, if_false, if_neg hahead]
  generalize (q.high - n).toNat = back at hbit
  by_cases hb : back ≤ 1023
  · simp [hb, hbit hb]
  · simp [hb]

theorem Sq.Taken.foldl {n : W32} (ms : List W32) {q : Sq} (h : q.Taken n) (hms : ∀ m ∈ ms, (m - n).toNat < 2 ^ 31) :
    (ms.foldl (fun x m => (x.seqCheck m).1) q).Taken n := by
  induction ms generalizing q with
  | nil => exact h
  | cons m ms ih => exact ih (h.seqCheck (hms m List.mem_cons_self)) fun k hk => hms k (List.mem_cons_of_mem _ hk)

/-- Settles O15: the accepting check puts the SEQ into the window, later checks keep it there, and the window does not accept
what it holds. -/
theorem sequenceOnce : Obligations.SequenceOnce := fun _ _ ms haccept hms =>
  ((Sq.taken_of_accept haccept).foldl ms hms).not_accept

end Sys2Proof.Machine

/-! ## The share credits (O17) -/

namespace Sys2Proof.Machine

theorem State.length_addCredits (s : State) (ready : List Nat) : (s.addCredits ready).length = 8 := by
  simp [State.addCredits]

theorem State.addCredits_getD (s : State) (ready : List Nat) {c : Nat} (hc : c < 8) :
    (s.addCredits ready).getD c 0
      = if c ∈ ready then min 4000 (s.arb.credits.getD c 0 + (s.prio c).share) else 0 := by
  simp [State.addCredits, hc, List.getD_eq_getElem?_getD]

/-- The classes that an edge chooses among (R100): those ready that are not background, or else those ready. -/
def State.considered (s : State) (ready : List Nat) : List Nat :=
  let front := ready.filter (fun c => !(s.prio c).background)
  if front = [] then ready else front

theorem State.mem_of_considered {s : State} {ready : List Nat} {c : Nat} (h : c ∈ s.considered ready) : c ∈ ready := by
  unfold State.considered at h
  extract_lets front at h
  split at h
  · exact h
  · exact (List.mem_filter.mp h).1

theorem State.considered_ne_nil {s : State} {ready : List Nat} (h : ready ≠ []) : s.considered ready ≠ [] := by
  unfold State.considered
  extract_lets front
  split
  · exact h
  · assumption

/-- The choice is the first class considered that has 1,000 credits, which then pays them, or else the first one. -/
theorem State.chooseClass_cases (s : State) (ready : List Nat) :
    (∃ c ∈ s.considered ready, s.chooseClass ready
      = (some c, (s.addCredits ready).set c ((s.addCredits ready).getD c 0 - 1000))) ∨
    s.chooseClass ready = ((s.considered ready).head?, s.addCredits ready) := by
  rw [show s.chooseClass ready = match (s.considered ready).find? fun c => decide (1000 ≤ (s.addCredits ready).getD c 0) with
    | some c => (some c, (s.addCredits ready).set c ((s.addCredits ready).getD c 0 - 1000))
    | none => ((s.considered ready).head?, s.addCredits ready) from rfl]
  split
  · rename_i c hc
    exact .inl ⟨c, List.mem_of_find?_eq_some hc, rfl⟩
  · exact .inr rfl

/-- A choice only takes credits away. -/
theorem State.chooseClass_getD_le (s : State) (ready : List Nat) (c : Nat) :
    (s.chooseClass ready).2.getD c 0 ≤ (s.addCredits ready).getD c 0 := by
  rcases s.chooseClass_cases ready with ⟨k, _, e⟩ | e
  · rw [e]
    simp only [List.getD_eq_getElem?_getD, List.getElem?_set]
    split
    · subst k
      split <;> simp
    · exact le_refl _
  · rw [e]

theorem State.mem_of_chooseClass {s : State} {ready : List Nat} {c : Nat} (h : (s.chooseClass ready).1 = some c) :
    c ∈ ready := by
  rcases s.chooseClass_cases ready with ⟨k, hk, e⟩ | e <;> rw [e] at h
  · obtain rfl : k = c := by simpa using h
    exact State.mem_of_considered hk
  · exact State.mem_of_considered (List.mem_of_mem_head? h)

theorem State.chooseClass_isSome {s : State} {ready : List Nat} (h : ready ≠ []) : ∃ c, (s.chooseClass ready).1 = some c := by
  rcases s.chooseClass_cases ready with ⟨k, _, e⟩ | e <;> rw [e]
  · exact ⟨k, rfl⟩
  · exact ⟨_, List.head?_eq_some_head (State.considered_ne_nil h)⟩

/-- Settles O17: the credits after a choice are at most those added, which are capped and 0 for a class not ready. -/
theorem shareCredits : Obligations.ShareCredits := by
  refine fun s ready => ⟨fun c hc => ?_, fun c => State.mem_of_chooseClass, fun h _ => State.chooseClass_isSome h⟩
  have hle := s.chooseClass_getD_le ready c
  rw [s.addCredits_getD ready hc] at hle
  refine ⟨hle.trans (by split <;> omega), fun hr => ?_⟩
  rwa [if_neg hr, Nat.le_zero] at hle

end Sys2Proof.Machine

/-! ## Doorbells and the fetch of a descriptor (O13) -/

namespace Sys2Proof.Machine

/-! ### The page of a slice (R88, R113) -/

theorem State.pageWrite_off {s : State} {i : Nat} (hoff : (s.slice i).state = .off) (d : Bool) (f : State → State) :
    s.pageWrite i d f = s := by
  simp [State.pageWrite, hoff]

theorem State.pageWrite_frozen {s : State} {i : Nat} (hr : s.ready = true) (hf : (s.slice i).state = .frozen) (d : Bool)
    (f : State → State) :
    s.pageWrite i d f = s.updSlice i fun y => { y with lateWrites := satAdd 32 y.lateWrites 1 } := by
  simp [State.pageWrite, hr, hf]

theorem State.pageWrite_dropped {s : State} {i : Nat} (ho : s.pageOpen i) (hreset : (s.slice i).reset ≠ .none)
    (f : State → State) :
    s.pageWrite i true f = s.updSlice i fun y => { y with droppedDoorbells := satAdd 32 y.droppedDoorbells 1 } := by
  obtain ⟨hr, hoff, hfrozen⟩ := ho
  simp [State.pageWrite, hr, hoff, hfrozen, hreset]

/-! ### Tail doorbells (R91) -/

theorem Sq.tailDoorbell_bad {x : Sq} {n : Nat}
    (h : x.enable = false ∨ 2 ^ x.sizeLog2.toNat ≤ n ∨ x.ahead n < x.ahead x.tail) :
    x.tailDoorbell n = { x with badDoorbell := true } := by
  unfold Sq.tailDoorbell
  exact if_pos (by simpa [or_assoc] using h)

theorem Sq.tailDoorbell_accepted {x : Sq} {n : Nat} (he : x.enable = true) (hn : n < 2 ^ x.sizeLog2.toNat)
    (ha : x.ahead x.tail ≤ x.ahead n) : x.tailDoorbell n = { x with tail := n, stopped := false } := by
  unfold Sq.tailDoorbell
  exact if_neg (by simp [he, hn, ha])

section Tail
variable {s : State} {i : BitVec 8} {q : BitVec 4} {v : W32}

theorem exec_sqTailDoorbell_off (hoff : (s.slice i.toNat).state = .off) : exec (.sqTailDoorbell i q v) s = .next s :=
  congrArg _ (State.pageWrite_off hoff true _)

theorem exec_sqTailDoorbell_frozen (hr : s.ready = true) (hf : (s.slice i.toNat).state = .frozen) :
    exec (.sqTailDoorbell i q v) s
      = .next (s.updSlice i.toNat fun y => { y with lateWrites := satAdd 32 y.lateWrites 1 }) :=
  congrArg _ (State.pageWrite_frozen hr hf true _)

theorem exec_sqTailDoorbell_dropped (ho : s.pageOpen i.toNat) (hreset : (s.slice i.toNat).reset ≠ .none) :
    exec (.sqTailDoorbell i q v) s
      = .next (s.updSlice i.toNat fun y => { y with droppedDoorbells := satAdd 32 y.droppedDoorbells 1 }) :=
  congrArg _ (State.pageWrite_dropped ho hreset _)

variable (ho : s.pageOpen i.toNat) (hreset : (s.slice i.toNat).reset = .none)
include ho hreset

theorem exec_sqTailDoorbell_noQueue (hq : (s.slice i.toNat).defn.sqCount ≤ q.toNat) :
    exec (.sqTailDoorbell i q v) s = .next s := by
  refine congrArg _ ((State.pageWrite_open ho (fun _ => hreset) _).trans ?_)
  exact if_neg (by omega)

theorem exec_sqTailDoorbell (hq : q.toNat < (s.slice i.toNat).defn.sqCount) :
    exec (.sqTailDoorbell i q v) s = .next (s.updSq i.toNat q.toNat fun x => x.tailDoorbell (v.toNat % 65536)) := by
  refine congrArg _ ((State.pageWrite_open ho (fun _ => hreset) _).trans ?_)
  exact if_pos hq

end Tail

/-! ### Head doorbells (R92) -/

theorem Ring.headDoorbell_bad {r : Ring} {n : Nat}
    (h : r.enable = false ∨ r.size ≤ n ∨ r.posted < (n + r.size - r.head) % r.size) :
    r.headDoorbell n = { r with badDoorbell := true } := by
  rcases h with h | h | h
  · simp [Ring.headDoorbell, h]
  · simp [Ring.headDoorbell, h]
  · simp [Ring.headDoorbell, h]

theorem Ring.headDoorbell_accepted {r : Ring} {n : Nat} (he : r.enable = true) (hn : n < r.size)
    (hd : (n + r.size - r.head) % r.size ≤ r.posted) :
    r.headDoorbell n = { r with head := n, posted := r.posted - (n + r.size - r.head) % r.size } := by
  simp [Ring.headDoorbell, he, Nat.not_le.mpr hn, Nat.not_lt.mpr hd]

theorem exec_cqHeadDoorbell_cq {s : State} {i : BitVec 8} {q : BitVec 4} (v : W32) (ho : s.pageOpen i.toNat)
    (hreset : (s.slice i.toNat).reset = .none) (hq : q.toNat < (s.slice i.toNat).defn.cqCount) :
    exec (.cqHeadDoorbell (.cq i q) v) s = .next (s.updCq i.toNat q.toNat fun r => r.headDoorbell (v.toNat % 65536)) := by
  refine congrArg _ ((State.pageWrite_open ho (fun _ => hreset) _).trans ?_)
  exact if_pos hq

theorem exec_cqHeadDoorbell_fq {s : State} {i : BitVec 8} (v : W32) (ho : s.pageOpen i.toNat)
    (hreset : (s.slice i.toNat).reset = .none) :
    exec (.cqHeadDoorbell (.fq i) v) s
      = .next (s.updSlice i.toNat fun x => { x with fq := x.fq.headDoorbell (v.toNat % 65536) }) :=
  congrArg Host.Outcome.next (State.pageWrite_open ho (fun _ => hreset) fun s =>
    s.updSlice i.toNat fun x => { x with fq := x.fq.headDoorbell (v.toNat % 65536) })

/-! ### A fault and the waiting of a step

Reporting a fault neither reads nor changes the cache, in which a step's waiting stands. -/

section Raise
variable (s : State)

theorem State.countFault_begun (code : Nat) (f : FaultInfo) : s.begun.countFault code f = (s.countFault code f).begun := by
  unfold State.countFault
  split <;> rfl

theorem State.askTenantReset_begun (i : Nat) : s.begun.askTenantReset i = (s.askTenantReset i).begun := by
  by_cases h : (s.slice i).reset = .none
  · rw [State.askTenantReset, State.askTenantReset, if_pos h, if_pos (show (s.begun.slice i).reset = .none from h)]
    rfl
  · rw [State.askTenantReset, State.askTenantReset, if_neg h, if_neg (show ¬ (s.begun.slice i).reset = .none from h)]

theorem State.escalate_begun (i code : Nat) (cmd : Option Nat) :
    s.begun.escalate i code cmd = ((s.escalate i code cmd).1.begun, (s.escalate i code cmd).2) := by
  have hslice : s.begun.slice i = s.slice i := rfl
  unfold State.escalate
  simp only [hslice]
  generalize (faultClass code == 1 && bitAt (s.slice i).defn.escalate (faultGroup code)) = esc
  generalize (faultClass code == 1 && bitAt (s.slice i).defn.quiesce (faultGroup code)
    && decide ((s.slice i).state = .active)) = qui
  have hquiesce : (if qui = true then s.begun.updSlice i fun v => { v with state := .draining } else s.begun)
      = (if qui = true then s.updSlice i fun v => { v with state := .draining } else s).begun := by
    split <;> rfl
  rw [hquiesce]
  generalize (if qui = true then s.updSlice i fun v => { v with state := .draining } else s) = t
  cases esc with
  | false => rfl
  | true =>
    cases cmd with
    | none => simp only [if_true, State.askTenantReset_begun]
    | some id =>
      have hcmd : t.begun.hasCmd id = t.hasCmd id := rfl
      cases hid : t.hasCmd id
      · simp only [if_true, hcmd, hid, State.askTenantReset_begun, Bool.false_eq_true, if_false]
      · simp only [if_true, hcmd, hid]
        exact congrArg (·, _) (State.askTenantReset_begun (t.updCmd id fun c => { c with escalate := true }) i)

theorem State.maskFault_begun (code : Nat) (f : FaultInfo) :
    s.begun.maskFault code f = ((s.maskFault code f).1.begun, (s.maskFault code f).2) := by
  unfold State.maskFault
  split
  · exact s.escalate_begun _ _ _
  · rfl

theorem State.queueRecord_begun (u : Nat) (r : FaultRec) : s.begun.queueRecord u r = (s.queueRecord u r).begun := by
  have hrep : s.begun.reporter u = s.reporter u := rfl
  unfold State.queueRecord
  simp only [hrep]
  split
  · rfl
  · split
    · split <;> rfl
    · rfl

theorem State.signal_begun : s.begun.signal = s.signal.begun := by
  unfold State.signal
  split <;> rfl

/-- The record of a bucket names no slice and so has no tenant copy. -/
theorem State.assignSeq_begun {r : FaultRec} (hr : r.slice = none) : s.begun.assignSeq r = (s.assignSeq r).begun := by
  have hsignal : ∀ c : Bool, (if c = true then s.begun.signal else s.begun) = (if c = true then s.signal else s).begun := by
    intro c
    rw [State.signal_begun]
    split <;> rfl
  unfold State.assignSeq State.tenantCopyPost
  simp only [hr]
  rw [hsignal]
  rfl

theorem State.fillBucket_begun (r : FaultRec) : s.begun.fillBucket r = (s.fillBucket r).begun := by
  unfold State.fillBucket
  split
  · let new := min 255 (Tbl.get 0 s.flt.buckets r.unit + r.count)
    dsimp only
    split
    · exact State.assignSeq_begun { s with flt := { s.flt with buckets := Tbl.set 0 s.flt.buckets r.unit new } } rfl
    · rfl
  · rfl

theorem State.stopCmd_begun (id : Nat) (st : Stop) : s.begun.stopCmd id st = (s.stopCmd id st).begun := by
  have hcmd : s.begun.cmd id = s.cmd id := rfl
  simp only [State.stopCmd, hcmd]
  split <;> rfl

theorem State.endFault_begun (f : FaultInfo) (st : Stop) : s.begun.endFault f st = (s.endFault f st).begun := by
  have hcmd : ∀ id, s.begun.cmd id = s.cmd id := fun _ => rfl
  unfold State.endFault
  simp only [hcmd, State.stopCmd_begun]
  split
  · rfl
  · split
    · rfl
    · split
      · split <;> rfl
      · rfl

theorem State.raise_begun (code : Nat) (f : FaultInfo) : s.begun.raise code f = (s.raise code f).begun := by
  have hown : s.begun.ownRecord f.carrier = s.ownRecord f.carrier := rfl
  have hcount : (if s.ownRecord f.carrier = true then s.begun.countFault code f else s.begun)
      = (if s.ownRecord f.carrier = true then s.countFault code f else s).begun := by
    rw [State.countFault_begun]
    split <;> rfl
  unfold State.raise
  simp only [hown, hcount, State.maskFault_begun]
  simp only [State.queueRecord_begun, State.fillBucket_begun, State.endFault_begun]
  rfl

theorem State.raise_uc (code : Nat) (f : FaultInfo) : (s.raise code f).uc = s.uc :=
  s.raise_sameBut code f .uc (by decide)

end Raise

/-- A step that would run alike without the waiting, and that waits for nothing, is that run. -/
theorem State.settled_aside {s t : State} {f : State → State} (hf : f s.begun = t.begun) (ht : s.sameWait t) :
    s.settled f = t :=
  (State.settled_ended hf rfl).trans (State.ended_begun_of_sameWait ht)

/-- A fault reported on a state that waits as the step did is all that the step leaves. -/
theorem State.settled_raise {s t : State} {f : State → State} {code : Nat} {info : FaultInfo} (ht : t.uc = s.uc)
    (hf : f s.begun = t.begun.raise code info) : s.settled f = t.raise code info :=
  State.settled_aside (hf.trans (t.raise_begun code info)) (State.sameWait_of_uc ((t.raise_uc code info).trans ht))

/-! ### Fetching (R91) -/

/-- A fetch may be made: the slice is ACTIVE, the queue is enabled and has an entry, and its window has room. -/
structure State.Fetches (s : State) (i q : Nat) : Prop where
  ready : s.ready = true
  active : (s.slice i).state = .active
  notReset : (s.slice i).reset ≠ .running
  enabled : ((s.slice i).sq q).enable = true
  goes : ((s.slice i).sq q).stopped = false
  entry : ((s.slice i).sq q).head ≠ ((s.slice i).sq q).tail
  room : ((s.slice i).sq q).window.length < 64
  queue : q < (s.slice i).defn.sqCount

section Fetch
variable {s : State} {i q : Nat}

theorem State.doFetch_of_fetches (h : s.Fetches i q) (reply : HostReply) :
    s.doFetch i q reply = if s.linkUp ((s.slice i).sq q).port = true then match reply with
        | .ok d => s.fetched i q (bytesAt d 0 128)
        | .error st => s.fetchFailed i q st
        | .linkDown => s.fetchFailed i q 0xFF
      else s.fetchFailed i q 0xFF := by
  unfold State.doFetch
  simp only [h.ready, h.active, h.notReset, h.enabled, h.goes, h.entry, Nat.not_le.mpr h.room, Nat.not_le.mpr h.queue]
  cases s.linkUp ((s.slice i).sq q).port <;> rfl

/-- The entry has been read: the head moves on, and the read counts (Table 14.6). -/
def State.entryRead (s : State) (i q : Nat) : State :=
  (s.updSq i q fun y => { y with head := (y.head + 1) % 2 ^ y.sizeLog2.toNat }).count i 12 128

theorem State.fetched_badCq {d : Bytes}
    (hcq : (s.slice i).defn.cqCount ≤ dCq d ∨ ((s.slice i).cq (dCq d)).enable = false) :
    s.fetched i q d = (s.entryRead i q).raise fcBadCq
      { unit := unitQueue ((s.slice i).sq q).port, slice := some i, info0 := q + field 16 ((s.slice i).sq q).head } := by
  unfold State.fetched
  dsimp only
  rw [if_pos]
  · rfl
  · simpa [State.count, State.updSq, Slice.cq, Slice.setSq] using hcq

/-- The command that a fetch has put into the window, before its checks. -/
def State.entered (s : State) (i q : Nat) (d : Bytes) : State :=
  let t := s.entryRead i q
  (({ t with arb := { t.arb with nextCmd := s.arb.nextCmd + 1 } }).setCmd s.arb.nextCmd
    { slice := i, sq := q, ring := ((s.slice i).sq q).head, desc := d, fetchTime := s.time }).updSq i q
      fun y => { y with window := y.window ++ [s.arb.nextCmd] }

theorem State.fetched_judged {d : Bytes} (hlt : dCq d < (s.slice i).defn.cqCount)
    (hen : ((s.slice i).cq (dCq d)).enable = true) :
    s.fetched i q d = (s.entered i q d).fetchJudge s.arb.nextCmd (quoinAgent s.arb.nextCmd i ((s.slice i).sq q).port) := by
  unfold State.fetched
  dsimp only
  rw [if_neg]
  · rfl
  · simpa [State.count, State.updSq, Slice.cq, Slice.setSq] using ⟨hlt, hen⟩

end Fetch

theorem bytesAt_whole {d : Bytes} {n : Nat} (hd : d.length = n) : bytesAt d 0 n = d := by
  simp [bytesAt, ← hd]

section FetchDescriptor
variable {s : State} {i : BitVec 8} {q : BitVec 4}

theorem exec_fetchDescriptor_failed {reply : HostReply} {status : Nat}
    (hf : s.begun.doFetch i.toNat q.toNat reply = s.begun.fetchFailed i.toNat q.toNat status) :
    exec (.fetchDescriptor i q reply) s = .next (s.fetchFailed i.toNat q.toNat status) := by
  refine congrArg Host.Outcome.next ?_
  unfold State.fetchFailed at hf ⊢
  exact State.settled_raise (s := s) (t := s.updSq i.toNat q.toNat fun x => { x with stopped := true }) rfl hf

variable (h : s.Fetches i.toNat q.toNat)
include h

theorem State.Fetches.begun : s.begun.Fetches i.toNat q.toNat :=
  ⟨h.ready, h.active, h.notReset, h.enabled, h.goes, h.entry, h.room, h.queue⟩

theorem exec_fetchDescriptor_linkDown (hl : s.linkUp ((s.slice i.toNat).sq q.toNat).port = false) (reply : HostReply) :
    exec (.fetchDescriptor i q reply) s = .next (s.fetchFailed i.toNat q.toNat 0xFF) := by
  refine exec_fetchDescriptor_failed ((State.doFetch_of_fetches h.begun reply).trans (if_neg ?_))
  rw [show s.begun.linkUp ((s.begun.slice i.toNat).sq q.toNat).port = s.linkUp ((s.slice i.toNat).sq q.toNat).port from rfl, hl]
  exact Bool.false_ne_true

variable (hl : s.linkUp ((s.slice i.toNat).sq q.toNat).port = true)
include hl

theorem exec_fetchDescriptor_error (status : Nat) :
    exec (.fetchDescriptor i q (.error status)) s = .next (s.fetchFailed i.toNat q.toNat status) :=
  exec_fetchDescriptor_failed ((State.doFetch_of_fetches h.begun _).trans (if_pos hl))

/-- The descriptor's bytes are all that is read of the reply. -/
theorem State.doFetch_of_data {d : Bytes} (hd : d.length = 128) :
    s.begun.doFetch i.toNat q.toNat (.ok d) = s.begun.fetched i.toNat q.toNat d := by
  refine (State.doFetch_of_fetches h.begun _).trans ((if_pos hl).trans ?_)
  exact congrArg (s.begun.fetched i.toNat q.toNat) (bytesAt_whole hd)

theorem exec_fetchDescriptor_badCq {d : Bytes} (hd : d.length = 128)
    (hcq : (s.slice i.toNat).defn.cqCount ≤ dCq d ∨ ((s.slice i.toNat).cq (dCq d)).enable = false) :
    exec (.fetchDescriptor i q (.ok d)) s = .next ((s.entryRead i.toNat q.toNat).raise fcBadCq
      { unit := unitQueue ((s.slice i.toNat).sq q.toNat).port, slice := some i.toNat
        info0 := q.toNat + field 16 ((s.slice i.toNat).sq q.toNat).head }) :=
  congrArg Host.Outcome.next (State.settled_raise (s := s) (t := s.entryRead i.toNat q.toNat) rfl
    ((State.doFetch_of_data h hl hd).trans (State.fetched_badCq (s := s.begun) hcq)))

theorem exec_fetchDescriptor_judged {d : Bytes} (hd : d.length = 128) (hlt : dCq d < (s.slice i.toNat).defn.cqCount)
    (hen : ((s.slice i.toNat).cq (dCq d)).enable = true) {f : State → State}
    (hf : f s.begun = (s.begun.entered i.toNat q.toNat d).fetchJudge s.arb.nextCmd
      (quoinAgent s.arb.nextCmd i.toNat ((s.slice i.toNat).sq q.toNat).port)) (hgo : s.goesThrough f) :
    exec (.fetchDescriptor i q (.ok d)) s = .next (s.through f) := by
  refine congrArg Host.Outcome.next (State.settled_through ?_ hgo)
  exact ((State.doFetch_of_data h hl hd).trans (State.fetched_judged (s := s.begun) hlt hen)).trans hf.symm

end FetchDescriptor

/-! ### The statement -/

/-- Settles O13: a tail doorbell and a head doorbell are the page's rules and then the ring's own, and a fetch either fails,
names no CQ, or enters the window. -/
theorem doorbellsAndFetch : Obligations.DoorbellsAndFetch := by
  refine ⟨fun i q v s hr => ?_, ⟨fun r n => ⟨Ring.headDoorbell_bad, Ring.headDoorbell_accepted⟩, fun i q v s => ?_⟩,
    fun i q s => ?_⟩
  · refine ⟨exec_sqTailDoorbell_off, exec_sqTailDoorbell_frozen hr, fun ho => ⟨exec_sqTailDoorbell_dropped ho,
      exec_sqTailDoorbell_noQueue ho, fun hreset hq hbad => ?_, fun hreset hq he hn ha => ?_⟩⟩
    · rw [exec_sqTailDoorbell ho hreset hq]
      exact congrArg Host.Outcome.next (s.updSq_congr _ _ (Sq.tailDoorbell_bad hbad))
    · rw [exec_sqTailDoorbell ho hreset hq]
      exact congrArg Host.Outcome.next (s.updSq_congr _ _ (Sq.tailDoorbell_accepted he hn ha))
  · exact ⟨exec_cqHeadDoorbell_cq v, exec_cqHeadDoorbell_fq v, fun h => congrArg _ (if_pos h), fun h => congrArg _ (if_pos h),
      fun h => congrArg _ (if_pos h)⟩
  · intro _ _ hr hact hreset hen hstop hne hroom hq
    have h : s.Fetches i.toNat q.toNat := ⟨hr, hact, hreset, hen, hstop, hne, hroom, hq⟩
    exact ⟨exec_fetchDescriptor_linkDown h, exec_fetchDescriptor_error h, fun hl d hd =>
      ⟨exec_fetchDescriptor_badCq h hl hd, fun hlt hcq hgo => exec_fetchDescriptor_judged h hl hd hlt hcq rfl hgo⟩⟩

end Sys2Proof.Machine

/-! ## Queue configuration, pool frees and the reset request (O14) -/

namespace Sys2Proof

/-- Writing the same value again changes nothing. -/
theorem Tbl.set_set_same {α : Type} [DecidableEq α] (d : α) (t : Tbl α) (i : Nat) (v : α) :
    Tbl.set d (Tbl.set d t i v) i v = Tbl.set d t i v := by
  have hdel : ∀ u : Tbl α, Tbl.del (Tbl.del u i) i = Tbl.del u i := by
    intro u
    induction u with
    | nil => rfl
    | cons e u ih =>
      obtain ⟨k, w⟩ := e
      simp only [Tbl.del]
      split <;> simp_all [Tbl.del]
  unfold Tbl.set
  split
  · exact hdel t
  · exact Tbl.put_put t i v v

end Sys2Proof

namespace Sys2Proof.Machine

/-! ### CFG and BASE of a ring (R90) -/

section RingRegisters
variable {r : Ring} {c : CfgVal}

theorem Ring.cfgWrite_enable (ok : Bool) (hr : r.enable = false) (hc : c.enable = true) :
    r.cfgWrite c ok = if ok then { r with
        pasid := c.pasid, port := c.port, sizeLog2 := c.sizeLog2, notifyEn := c.notifyEn, notifyValue := c.notifyValue
        enable := true, head := 0, tail := 0, posted := 0, phase := true }
      else { r with
        pasid := c.pasid, port := c.port, sizeLog2 := c.sizeLog2, notifyEn := c.notifyEn, notifyValue := c.notifyValue
        cfgError := true } := by
  simp [Ring.cfgWrite, Ring.configure, hr, hc]

theorem Ring.cfgWrite_disable (ok : Bool) (hr : r.enable = true) (hc : c.enable = false) :
    r.cfgWrite c ok = if r.reserved = 0 then { r with enable := false } else { r with cfgError := true } := by
  simp [Ring.cfgWrite, hr, hc]

theorem Ring.baseWrite_enabled (v : W64) (hr : r.enable = true) : r.baseWrite v = { r with cfgError := true } := by
  simp [Ring.baseWrite, hr]

theorem Ring.baseWrite_disabled (v : W64) (hr : r.enable = false) : r.baseWrite v = { r with base := baseAddr v } := by
  simp [Ring.baseWrite, hr]

theorem Ring.cfgWrite_waiting (c : CfgVal) (ok : Bool) : (r.cfgWrite c ok).waiting = r.waiting := by
  unfold Ring.cfgWrite Ring.configure
  split
  · split
    · split <;> rfl
    · split <;> rfl
  · dsimp only
    split
    · split <;> rfl
    · rfl

end RingRegisters

/-! ### CFG of an SQ (R90) -/

/-- The fields that a write to a disabled SQ's CFG stores. -/
def Sq.configured (x : Sq) (c : CfgVal) : Sq := { x with pasid := c.pasid, port := c.port, sizeLog2 := c.sizeLog2 }

section SqRegisters
variable {s : State} {i q : Nat} {c : CfgVal}

theorem State.sqCfg_disabled (h : ((s.slice i).sq q).enable = false) :
    s.sqCfg i q c = s.updSq i q fun y =>
      if c.enable = true then
        if (s.slice i).defn.mayEnable c = true then
          { y.configured c with enable := true, head := 0, tail := 0, stopped := false, seqEmpty := true, high := 0, seen := 0 }
        else { y.configured c with cfgError := true }
      else y.configured c := by
  unfold State.sqCfg
  simp only [h, Bool.false_eq_true, if_false]
  congr 1
  funext y
  cases c.enable <;> rfl

/-- With no command in its window an SQ is disabled, and nothing else comes of it. -/
theorem State.sqCfg_disable (h : ((s.slice i).sq q).enable = true) (hc : c.enable = false)
    (hw : ((s.slice i).sq q).window = []) : s.sqCfg i q c = s.updSq i q fun y => { y with enable := false } := by
  unfold State.sqCfg State.disableSq
  simp [h, hc, hw]

end SqRegisters

/-! ### CFG of a CQ (R90) -/

theorem State.updSlice_updSlice_same (s : State) (i : Nat) {f g : Slice → Slice}
    (hg : g (f (s.slice i)) = f (s.slice i)) : (s.updSlice i f).updSlice i g = s.updSlice i f := by
  show (s.setSlice i (f (s.slice i))).setSlice i (g ((s.updSlice i f).slice i)) = _
  rw [State.slice_updSlice_same, hg]
  exact congrArg (fun t => { s with slices := t }) (Tbl.set_set_same {} s.slices i (f (s.slice i)))

theorem State.updCq_updCq_same (s : State) (i q : Nat) {f g : Ring → Ring}
    (hg : g (f ((s.slice i).cq q)) = f ((s.slice i).cq q)) : (s.updCq i q f).updCq i q g = s.updCq i q f := by
  refine s.updSlice_updSlice_same i ?_
  have hcq : ((s.slice i).setCq q (f ((s.slice i).cq q))).cq q = f ((s.slice i).cq q) := Tbl.get_set_same _ _ _ _
  simp only [hcq, hg]
  exact congrArg (fun t => { s.slice i with cqs := t }) (Tbl.set_set_same {} (s.slice i).cqs q _)

/-- No record waits in the CQ, so disabling it discards none. -/
theorem State.cqCfg_nothingWaits {s : State} {i q : Nat} {c : CfgVal} (hw : ((s.slice i).cq q).waiting = []) :
    s.cqCfg i q c = s.updCq i q fun r => r.cfgWrite c ((s.slice i).defn.mayEnable c) := by
  have hnone : (((s.updCq i q fun r => r.cfgWrite c ((s.slice i).defn.mayEnable c)).slice i).cq q).waiting = [] := by
    simp [State.updCq, Slice.cq, Slice.setCq, Ring.cfgWrite_waiting]
    exact hw
  unfold State.cqCfg State.discardWaiting
  dsimp only
  rw [hnone]
  split
  · refine s.updCq_updCq_same i q ?_
    rw [← hw, ← Ring.cfgWrite_waiting]
  · rfl

/-! ### The pool (R110, R111) -/

/-- A register of an open page is written. -/
theorem State.pageWrite_register {s : State} {i : Nat} (ho : s.pageOpen i) (f : State → State) : s.pageWrite i false f = f s :=
  State.pageWrite_open ho (fun h => absurd h Bool.false_ne_true) f

section Pool
variable {s : State} {i : BitVec 8} (ho : s.pageOpen i.toNat) (v : W32)
include ho

theorem exec_qePoolFree : exec (.qePoolFree i v) s = .next (
    if v.extractLsb' 30 2 ≠ 0 then s.rejectFree i.toNat v.toNat true
    else if (s.buffer (v.toNat % 16384)).owner = none ∨ (s.buffer (v.toNat % 16384)).gen ≠ v.extractLsb' 14 16 then
      s.rejectFree i.toNat v.toNat false
    else if (s.buffer (v.toNat % 16384)).owner ≠ some i.toNat then s.rejectFree i.toNat v.toNat true
    else s.setBuffer (v.toNat % 16384) { s.buffer (v.toNat % 16384) with owner := none, data := [] }) := by
  have hkind : bitsOf v.toNat 31 30 = (v.extractLsb' 30 2).toNat := by
    simp [bitsOf, BitVec.extractLsb'_toNat, Nat.shiftRight_eq_div_pow]
  have hgen : bitsOf v.toNat 29 14 = (v.extractLsb' 14 16).toNat := by
    simp [bitsOf, BitVec.extractLsb'_toNat, Nat.shiftRight_eq_div_pow]
  refine congrArg Host.Outcome.next ((State.pageWrite_register ho _).trans ?_)
  simp only [hkind, hgen, ne_eq, BitVec.toNat_eq, Bool.or_eq_true, decide_eq_true_eq,
    Option.isNone_iff_eq_none]
  rfl

theorem exec_qeTenantReset : exec (.qeTenantReset i v) s
    = .next (if v.toNat % 256 = 0xC3 then s.askTenantReset i.toNat else s) := by
  refine congrArg Host.Outcome.next ?_
  exact State.pageWrite_register ho _

end Pool

/-! ### Writes through the page -/

section Page
variable {s : State} {i : BitVec 8} (ho : s.pageOpen i.toNat) (v : W64)
include ho

section Queue
variable {q : BitVec 4}

theorem exec_queueCfgWrite_sqCfg (hq : q.toNat < (s.slice i.toNat).defn.sqCount) :
    exec (.queueCfgWrite (.sqCfg i q) v) s = .next (s.sqCfg i.toNat q.toNat (tenantCfg v)) := by
  refine congrArg Host.Outcome.next ((State.pageWrite_register ho _).trans ?_)
  exact if_pos hq

theorem exec_queueCfgWrite_sqBase (hq : q.toNat < (s.slice i.toNat).defn.sqCount) :
    exec (.queueCfgWrite (.sqBase i q) v) s = .next (s.updSq i.toNat q.toNat fun x =>
      if x.enable then { x with cfgError := true } else { x with base := baseAddr v }) := by
  refine congrArg Host.Outcome.next ((State.pageWrite_register ho _).trans ?_)
  exact if_pos hq

theorem exec_queueCfgWrite_cqCfg (hq : q.toNat < (s.slice i.toNat).defn.cqCount) :
    exec (.queueCfgWrite (.ringCfg (.cq i q)) v) s = .next (s.cqCfg i.toNat q.toNat (tenantCfg v)) := by
  refine congrArg Host.Outcome.next ((State.pageWrite_register ho _).trans ?_)
  exact if_pos hq

theorem exec_queueCfgWrite_cqBase (hq : q.toNat < (s.slice i.toNat).defn.cqCount) :
    exec (.queueCfgWrite (.ringBase (.cq i q)) v) s = .next (s.updCq i.toNat q.toNat fun r => r.baseWrite v) := by
  refine congrArg Host.Outcome.next ((State.pageWrite_register ho _).trans ?_)
  exact if_pos hq

end Queue

theorem exec_queueCfgWrite_fqCfg : exec (.queueCfgWrite (.ringCfg (.fq i)) v) s = .next (s.updSlice i.toNat fun y =>
    { y with fq := y.fq.cfgWrite (tenantCfg v) (y.defn.mayEnable (tenantCfg v)) }) :=
  congrArg Host.Outcome.next (State.pageWrite_register ho fun s => s.updSlice i.toNat fun y =>
    { y with fq := y.fq.cfgWrite (tenantCfg v) (y.defn.mayEnable (tenantCfg v)) })

theorem exec_queueCfgWrite_fqBase : exec (.queueCfgWrite (.ringBase (.fq i)) v) s = .next (s.updSlice i.toNat fun y =>
    { y with fq := y.fq.baseWrite v }) :=
  congrArg Host.Outcome.next (State.pageWrite_register ho fun s => s.updSlice i.toNat fun y =>
    { y with fq := y.fq.baseWrite v })

end Page

/-! ### The statement -/

/-- Settles O14: each register's write is its ring's or queue's rule behind the page, and a free is judged by the buffer's
owner and generation. -/
theorem queueRegisters : Obligations.QueueRegisters := by
  refine ⟨⟨fun r c ok v => ?_, fun i q v s => ?_⟩, fun i v s ho => ?_⟩
  · refine ⟨fun hr hc hok => ?_, fun hr hc hok => ?_, fun hr hc h0 => ?_, fun hr hc h0 => ?_, Ring.baseWrite_enabled v,
      Ring.baseWrite_disabled v⟩
    · rw [Ring.cfgWrite_enable ok hr hc, if_pos hok]
    · rw [Ring.cfgWrite_enable ok hr hc, if_neg (by simp [hok])]
    · rw [Ring.cfgWrite_disable ok hr hc, if_pos h0]
    · rw [Ring.cfgWrite_disable ok hr hc, if_neg h0]
  · refine ⟨fun ho hq => ⟨fun hk hc hmay => ?_, fun hk hc hmay => ?_, fun hk hc => ?_, fun hk hc hw => ?_, fun hk => ?_,
      fun hk => ?_⟩, fun ho hq => ⟨fun hw => ?_, exec_queueCfgWrite_cqBase ho v hq⟩,
      fun ho => ⟨?_, exec_queueCfgWrite_fqBase ho v⟩, fun h => congrArg _ (if_pos h), fun h => congrArg _ (if_pos h),
      fun h => congrArg _ (if_pos h)⟩
    · rw [exec_queueCfgWrite_sqCfg ho v hq, State.sqCfg_disabled hk]
      simp only [hc, hmay, if_true]
      rfl
    · rw [exec_queueCfgWrite_sqCfg ho v hq, State.sqCfg_disabled hk]
      simp only [hc, hmay, if_true, Bool.false_eq_true, if_false]
      rfl
    · rw [exec_queueCfgWrite_sqCfg ho v hq, State.sqCfg_disabled hk]
      simp only [hc, Bool.false_eq_true, if_false]
      rfl
    · rw [exec_queueCfgWrite_sqCfg ho v hq, State.sqCfg_disable hk hc hw]
    · rw [exec_queueCfgWrite_sqBase ho v hq]
      exact congrArg Host.Outcome.next (s.updSq_congr _ _ (if_neg (by simp [hk])))
    · rw [exec_queueCfgWrite_sqBase ho v hq]
      exact congrArg Host.Outcome.next (s.updSq_congr _ _ (if_pos hk))
    · rw [exec_queueCfgWrite_cqCfg ho v hq, State.cqCfg_nothingWaits hw]
    · rw [exec_queueCfgWrite_fqCfg ho v]
      rfl
  · refine ⟨fun h0 hown hgen => ?_, fun h => ?_, fun h0 h => ?_, fun hv hr => ?_, fun hv hr => ?_, fun hv => ?_⟩
    · rw [exec_qePoolFree ho, if_neg (by simp [h0]), if_neg (by simp [hown, hgen]), if_neg (by simp [hown])]
    · rw [exec_qePoolFree ho]
      rcases h with h | ⟨hgen, j, hown, hne⟩
      · rw [if_pos h]
        rfl
      · by_cases h0 : v.extractLsb' 30 2 = 0
        · rw [if_neg (by simp [h0]), if_neg (by simp [hown, hgen]), if_pos (by simp [hown, hne])]
          rfl
        · rw [if_pos h0]
          rfl
    · rw [exec_qePoolFree ho, if_neg (by simp [h0]), if_pos h]
      rfl
    · rw [exec_qeTenantReset ho, if_pos hv, State.askTenantReset, if_pos hr]
    · rw [exec_qeTenantReset ho, if_pos hv, State.askTenantReset, if_neg hr]
    · rw [exec_qeTenantReset ho, if_neg hv]

end Sys2Proof.Machine

/-! ## A record reaches its ring (O20) -/

namespace Sys2Proof

theorem Tbl.get_eq_find? {α : Type} (d : α) (t : Tbl α) (i : Nat) : Tbl.get d t i = (Tbl.find? t i).getD d := by
  induction t with
  | nil => rfl
  | cons e t ih =>
    obtain ⟨k, v⟩ := e
    simp only [Tbl.get, Tbl.find?]
    split <;> simp [ih]

end Sys2Proof

namespace Sys2Proof.Machine

/-! ### What the host's memory holds after a write -/

theorem State.get_hostWrite (s : State) (sp : Option (BitVec 20)) (a : Nat) (b : Bytes) (k : Nat) :
    Tbl.get 0 (s.hostWrite sp a b).host.mem k = if hostKey sp a ≤ k ∧ k < hostKey sp a + b.length
      then b.getD (k - hostKey sp a) 0 else Tbl.get 0 s.host.mem k := by
  rw [Tbl.get_eq_find?, Tbl.get_eq_find?, State.hostWrite, find?_putAll]
  split <;> rfl

/-! ### A record written into a tenant's ring (R92, R93) -/

section Posting
variable {s : State} {i : Nat}

/-- While the slice logs nothing, a host write on its behalf is the write and its count. -/
theorem State.tenantHostWrite_unlogged (hlog : (s.slice i).logging = false) (port : Bool) (pasid : BitVec 20) (a : Nat)
    (b : Bytes) : s.tenantHostWrite i port pasid a b = (s.hostWrite (some pasid) a b).count i 12 b.length := by
  refine foldl_eq_self fun pc _ => ?_
  have hnot : ((((s.hostWrite (some pasid) a b).count i 12 b.length)).slice i).logging = false :=
    (congrArg Slice.logging (State.slice_updSlice_same _ i _)).trans hlog
  simp [State.logHost, State.logCourse, hnot]

/-- Without a notify only the record itself is written. -/
theorem State.postTenant_unnotified (hlog : (s.slice i).logging = false) {r : Ring} (hn : r.notifyEn = false) (off : Nat)
    (x : Rec) :
    s.postTenant i r off x =
      ((s.hostWrite (some r.pasid) (r.slotAddr x.bytes.length) (withPhase x.bytes off 0 r.phase)).count i 12
        (withPhase x.bytes off 0 r.phase).length, r.advance) := by
  simp only [State.postTenant, hn, Bool.false_and, Bool.false_eq_true, if_false, State.tenantHostWrite_unlogged hlog]

/-- What a record in the slot at `place` of an address space looks like from the host: its bytes there, and nothing else new. -/
structure RecordAt (before after : Tbl Byte) (place : Nat) (b : Bytes) : Prop where
  there : ∀ k, k < b.length → Tbl.get 0 after (place + k) = b.getD k 0
  elsewhere : ∀ a, (a < place ∨ place + b.length ≤ a) → Tbl.get 0 after a = Tbl.get 0 before a

theorem State.recordAt_hostWrite (s : State) (sp : Option (BitVec 20)) (a : Nat) (b : Bytes) :
    RecordAt s.host.mem (s.hostWrite sp a b).host.mem (hostKey sp a) b := by
  refine ⟨fun k hk => ?_, fun k hk => ?_⟩
  · rw [State.get_hostWrite, if_pos ⟨by omega, by omega⟩, Nat.add_sub_cancel_left]
  · rw [State.get_hostWrite, if_neg (by omega)]

/-- A posted record stands in its slot of the ring, nothing else of the host's memory has changed, and the ring has moved on. -/
theorem State.posted_unnotified {q : Nat} (hlog : (s.slice i).logging = false) {r : Ring} (hn : r.notifyEn = false) (x : Rec) :
    let t := (s.postTenant i r 0x0D x).1.updCq i q fun _ => (s.postTenant i r 0x0D x).2
    RecordAt s.host.mem t.host.mem (hostKey (some r.pasid) (r.slotAddr x.bytes.length)) (withPhase x.bytes 0x0D 0 r.phase) ∧
      t.mem = s.mem ∧ (t.slice i).cq q = r.advance := by
  rw [State.postTenant_unnotified hlog hn]
  refine ⟨s.recordAt_hostWrite _ _ _, rfl, ?_⟩
  rw [State.updCq, State.slice_updSlice_same]
  exact Tbl.get_set_same _ _ _ _

end Posting

/-! ### The two commands -/

section Commands
variable {s : State} {i : BitVec 8} {q : BitVec 4} {x : Rec} {rest : List Rec} (hr : s.ready = true)
  (hl : s.linkUp ((s.slice i.toNat).cq q.toNat).port = true)
include hr hl

/-- The record whose turn it is in its reserved slot is posted, behind a zero-length read where the other port's data must
be seen first. -/
theorem exec_postCompletionRecord
    (htake : takeReady (s.recReady i.toNat ((s.slice i.toNat).cq q.toNat).due) ((s.slice i.toNat).cq q.toNat).due
      = some (x, rest)) :
    let r := (s.slice i.toNat).cq q.toNat
    let p := (if s.needsRead i.toNat r x then s.orderRead r.port else s).postTenant i.toNat
      { r with due := rest, reserved := r.reserved - 1 } 0x0D x
    exec (.postCompletionRecord i q) s = .next (p.1.updCq i.toNat q.toNat fun _ => p.2) := by
  refine congrArg Host.Outcome.next ?_
  simp only [State.doPostCompletion, hl, hr, htake, Bool.not_true, Bool.or_self, Bool.false_eq_true, if_false]

/-- The oldest waiting record is posted, and a command that waited for it gives up its place. -/
theorem exec_postWaitingRecord (hw : ((s.slice i.toNat).cq q.toNat).waiting = x :: rest)
    (he : ((s.slice i.toNat).cq q.toNat).enable = true) (hfree : ((s.slice i.toNat).cq q.toNat).free ≠ 0)
    (hready : s.recReady i.toNat ((s.slice i.toNat).cq q.toNat).due x = true) :
    let r := (s.slice i.toNat).cq q.toNat
    let p := s.postTenant i.toNat { r with waiting := rest } 0x0D x
    let t := p.1.updCq i.toNat q.toNat fun _ => p.2
    exec (.postWaitingRecord i q) s = .next (x.place.elim t t.freePlace) := by
  refine congrArg Host.Outcome.next ?_
  unfold State.doPostWaiting
  simp only [hw]
  rw [if_neg (by simp [hl, hr, he, hfree, hready])]
  cases x.place <;> rfl

end Commands

theorem State.cq_freePlace (s : State) (id i q : Nat) : ((s.freePlace id).slice i).cq q = (s.slice i).cq q := by
  show ((s.updSq (s.cmd id).slice (s.cmd id).sq fun x => { x with window := x.window.filter (· != id) }).slice i).cq q = _
  rw [State.updSq, State.slice_updSlice]
  split
  · subst_vars
    rfl
  · rfl

/-! ### The statement -/

theorem Ring.advance_wraps {r : Ring} (h : r.tail + 1 = r.size) : r.advance.tail = 0 ∧ r.advance.phase = !r.phase :=
  ⟨if_pos h, if_pos h⟩

theorem Ring.advance_moves {r : Ring} (h : r.tail + 1 ≠ r.size) : r.advance.tail = r.tail + 1 ∧ r.advance.phase = r.phase :=
  ⟨if_neg h, if_neg h⟩

/-- Settles O20: both commands write one record into the ring's next slot and move the ring on by it. -/
theorem recordsPosted : Obligations.RecordsPosted := by
  refine ⟨fun r => ⟨rfl, rfl, Ring.advance_wraps, Ring.advance_moves⟩, fun i q s x rest => ?_⟩
  intro r place bytes there elsewhere hr hl
  refine ⟨exec_postCompletionRecord hr hl, fun hw he hf hok => ⟨fun hp => ?_, fun id hp => ?_⟩, fun hlog hn =>
    ⟨fun htake => ?_, fun hw he hf hok => ?_⟩⟩
  · rw [exec_postWaitingRecord hr hl hw he hf hok, hp, Option.elim_none]
  · rw [exec_postWaitingRecord hr hl hw he hf hok, hp, Option.elim_some]
  · refine ⟨_, exec_postCompletionRecord hr hl htake, ?_⟩
    generalize hu : (if s.needsRead i.toNat r x = true then s.orderRead r.port else s) = u
    have hmem : u.host.mem = s.host.mem ∧ u.mem = s.mem ∧ u.slices = s.slices := by
      rw [← hu]
      split
      · unfold State.orderRead
        cases r.port <;> exact ⟨rfl, rfl, rfl⟩
      · exact ⟨rfl, rfl, rfl⟩
    obtain ⟨hhost, hdram, hslices⟩ := hmem
    have hlog' : (u.slice i.toNat).logging = false := by
      rw [State.slice, hslices]
      exact hlog
    obtain ⟨hrec, hkeep, hcq⟩ := State.posted_unnotified (q := q.toNat) hlog'
      (r := { r with due := rest, reserved := r.reserved - 1 }) hn x
    rw [hhost] at hrec
    exact ⟨hrec.there, hrec.elsewhere, hkeep.trans hdram, hcq⟩
  · obtain ⟨hrec, hkeep, hcq⟩ := State.posted_unnotified (q := q.toNat) hlog (r := { r with waiting := rest }) hn x
    refine ⟨_, exec_postWaitingRecord hr hl hw he hf hok, ?_⟩
    cases x.place with
    | none => exact ⟨hrec.there, hrec.elsewhere, hkeep, hcq⟩
    | some id => exact ⟨hrec.there, hrec.elsewhere, hkeep, (State.cq_freePlace _ _ _ _).trans hcq⟩

end Sys2Proof.Machine

/-! ## Firmware operations (O43) -/

namespace Sys2Proof.Machine

/-! ### A store to the flash (R345) -/

/-- A store to an area that is not worn out: the area holds the image, and otherwise only the journal is new. -/
theorem State.storeFlash_stores {s : State} {area : Nat} (h : s.nv.journal.worn area = false) (b : Bytes) :
    ∃ t log, s.storeFlash area b true = (t, true) ∧ s.sameBut t [.nv, .dev] ∧
      t.dev = { s.dev with journalAt := some s.dev.ticks } ∧
      t.nv = { s.nv with
        log := log, flash := Tbl.set [] s.nv.flash area (storedArea (Tbl.get [] s.nv.flash area) b) } := by
  refine ⟨(s.storeFlash area b true).1, (s.storeFlash area b true).1.nv.log, ?_⟩
  unfold State.storeFlash
  rw [if_neg (by simp [h])]
  refine ⟨rfl, fun p hp => ?_, rfl, rfl⟩
  cases p with
  | nv => exact absurd (by decide) hp
  | dev => exact absurd (by decide) hp
  | _ => rfl

/-! ### Starting an operation (R67, R69) -/

section StartFirmware
variable {s : State} (hi : s.imageRegs = true) (op : Nat) (slotB port : Bool)
include hi

theorem State.startFw_busy (hb : s.dev.fwBusy = true) :
    s.startFw op slotB port = { s with dev := { s.dev with fwOverrun := true } } := by
  simp [State.startFw, hi, hb]

variable (hb : s.dev.fwBusy = false)
include hb

theorem State.startFw_wrongState (ha : (if op = 1 then decide (s.dev.state = .fwWait) else s.ready) = false) :
    s.startFw op slotB port = s.fwDone irWrongState := by
  simp [State.startFw, hi, hb, ha]

theorem State.startFw_starts (ha : (if op = 1 then decide (s.dev.state = .fwWait) else s.ready) = true)
    (hl : badFwLen s.dev.fwLen = false) :
    s.startFw op slotB port = { s with dev := { s.dev with
      fwBusy := true
      fwOp := some { op := op, slice := 0, slotB := slotB, port := port, addr := s.dev.fwAddr, len := s.dev.fwLen } } } := by
  simp [State.startFw, hi, hb, ha, hl]

end StartFirmware

/-! ### The effect of an operation (R68, R85) -/

theorem State.enterState_dev (s : State) (x : DevState) : (s.enterState x).dev = { s.dev with state := x } := by
  unfold State.enterState
  split
  case isTrue h => rw [← h]
  case isFalse => simp

/-- Step 6 ends in IMAGE_WAIT or goes on to step 7, and the firmware's registers stay. -/
theorem State.pickImage_fw (s : State) : (s.pickImage.dev.state = .imageWait ∨
      (s.pickImage.dev.state = .bringup ∧ s.pickImage.dev.step = 7)) ∧
    s.pickImage.dev.fwRunning = s.dev.fwRunning ∧ s.pickImage.dev.fwHost = s.dev.fwHost ∧
    s.pickImage.dev.fwVersion = s.dev.fwVersion ∧ s.pickImage.dev.fwResult = s.dev.fwResult ∧
    s.pickImage.dev.fwBusy = s.dev.fwBusy := by
  unfold State.pickImage
  split
  · refine ⟨.inr ⟨State.beginStep_state _ _, State.beginStep_step _ _⟩, ?_⟩
    simp [State.beginStep, State.enterState_dev, State.startupStatus, State.loadImage]
  · refine ⟨.inl (State.enterState_state _ _), ?_⟩
    simp [State.enterState_dev]

section FirmwareEffect
variable {s : State} {o : ImageOp} {b : Bytes}

theorem State.fwEffect_refused {e : Bad} (hc : firmwareCheck s.nv b (some o.len) = some e) (ok : Bool) :
    s.fwEffect o b ok = s.fwDone e.code := by
  simp [State.fwEffect, hc]

variable (hc : firmwareCheck s.nv b (some o.len) = none)
include hc

theorem State.fwEffect_load (ho : o.op = 1) (ok : Bool) :
    s.fwEffect o b ok = (((s.runFirmware (fwVersionOf b) true false).fwDone 0).enterState .bringup).pickImage := by
  simp [State.fwEffect, hc, ho]

theorem State.fwEffect_active (ho : o.op ≠ 1) (ha : s.fwActive o.slotB = true) (ok : Bool) :
    s.fwEffect o b ok = s.fwDone irActiveSlot := by
  simp [State.fwEffect, hc, ho, ha]

theorem State.fwEffect_store (ho : o.op ≠ 1) (ha : s.fwActive o.slotB = false) {t : State}
    (ht : s.storeFlash (portBit o.slotB) b true = (t, true)) : s.fwEffect o b true = t.fwDone 0 := by
  simp [State.fwEffect, hc, ho, ha, ht]

end FirmwareEffect

section FirmwareFinish
variable {s : State} {o : ImageOp} {reply : HostReply} {ok : Bool} (hi : s.imageRegs = true) (ho : s.dev.fwOp = some o)
include hi ho

theorem exec_firmwareOperationFinish_unread (hf : s.fetchedBytes o reply = none) :
    exec (.firmwareOperationFinish reply ok) s = .next (s.fwDone irFetch) := by
  refine congrArg Host.Outcome.next ?_
  simp [State.doFwFinish, ho, hi, hf]

theorem exec_firmwareOperationFinish {b : Bytes} (hf : s.fetchedBytes o reply = some b) :
    exec (.firmwareOperationFinish reply ok) s = .next (s.fwEffect o b ok) := by
  refine congrArg Host.Outcome.next ?_
  simp [State.doFwFinish, ho, hi, hf]

end FirmwareFinish

/-! ### The statement -/

/-- Settles O43: an operation starts where its state allows it, and ends with the code of the first check it fails or with
its effect. -/
theorem firmwareOperations : Obligations.FirmwareOperations := by
  intro s hi
  refine ⟨fun b port hb => ⟨congrArg _ (State.startFw_busy hi 1 false port hb), congrArg _ (State.startFw_busy hi 2 b port hb)⟩,
    fun port hb hst => congrArg _ (State.startFw_wrongState hi 1 false port hb (by simp [hst])),
    fun b port hb hr => congrArg _ (State.startFw_wrongState hi 2 b port hb (by simp [hr])),
    fun hb hl => ⟨fun port hst => congrArg _ (State.startFw_starts hi 1 false port hb (by simp [hst]) hl),
      fun b port hr => congrArg _ (State.startFw_starts hi 2 b port hb (by simp [hr]) hl)⟩, fun o reply ok ho => ?_⟩
  refine ⟨exec_firmwareOperationFinish_unread hi ho, fun b hf => ?_⟩
  rw [exec_firmwareOperationFinish hi ho hf]
  refine ⟨fun e he => by rw [State.fwEffect_refused he], fun hc hop => ?_, fun hc hop ha => by
    rw [State.fwEffect_active hc hop ha], fun hc hop ha hok hw => ?_⟩
  · refine ⟨_, rfl, ?_⟩
    rw [State.fwEffect_load hc hop]
    obtain ⟨hstate, hrun, hhost, hver, hres, hbusy⟩ :=
      State.pickImage_fw (((s.runFirmware (fwVersionOf b) true false).fwDone 0).enterState .bringup)
    simp only [State.enterState_dev] at hrun hhost hver hres hbusy
    exact ⟨hrun, hhost, hver, hres, hbusy, hstate⟩
  · obtain ⟨t, log, ht, _, hdev, hnv⟩ := State.storeFlash_stores hw b
    subst hok
    rw [State.fwEffect_store hc hop ha ht]
    have hrun : t.dev.fwRunning = s.dev.fwRunning := by rw [hdev]
    have hflash : t.nv.flash = _ := congrArg Nv.flash hnv
    exact ⟨t.fwDone 0, rfl, rfl, rfl, hrun, hflash⟩

end Sys2Proof.Machine

/-! ## Plumb commands and failover (O47) -/

namespace Sys2Proof.Machine

/-! ### Answers (R287) -/

theorem State.answer_good {s : State} (hg : s.pins.pwrGood = true) (status : Nat) (b : Bytes) :
    s.answer status b = { s with plb := { s.plb with answer := (status, b) } } := if_pos hg

/-- A fault summary is the answer, and SMB_ALERT_N released or left as it was, by a free choice once an I3C address is held. -/
theorem State.doFaultSummary_good {s : State} (hg : s.pins.pwrGood = true) :
    ∃ alert, s.doFaultSummary = { s with
        free := s.free + 1
        plb := { s.plb with
          smbAlert := alert
          answer := (0, leBytes 8 (fltCountsWord s) ++ s.latest 0 ++ s.latest 1 ++ s.latest 2) } } ∧
      (s.plb.i3cAddr = none → alert = false) ∧ (s.plb.smbAlert = false → alert = false) := by
  unfold State.doFaultSummary
  rw [State.answer_good hg]
  simp only [State.drawChoice, hg, Bool.true_and]
  split
  · exact ⟨false, rfl, fun _ => rfl, fun _ => rfl⟩
  · rename_i hkeep
    exact ⟨s.plb.smbAlert, rfl, fun hnone => absurd (by simp [hnone]) hkeep, id⟩

theorem State.doUnknownPlumb_unknown {s : State} {code : Nat} {ok : Bool} (h : ok = false ∨ code = 0 ∨ 8 < code) :
    s.doUnknownPlumb code ok = s.answer 0xFF [] := by
  refine if_neg ?_
  rcases h with h | h | h
  · simp [h]
  · simp [h]
  · simp [Nat.not_le.mpr h]

/-! ### STAGE_FLASH (R287) -/

/-- The length of a stage's bytes is out of range: firmware goes to areas 0 and 1, a WHOLE image to areas 2 and 3. -/
def stageBadLen (area : Nat) (b : Bytes) : Bool := if area < 2 then badFwLen b.length else badImgLen b.length

/-- The first check that a stage's bytes fail. -/
def State.stageCheck (s : State) (area : Nat) (b : Bytes) : Option Bad :=
  if area < 2 then firmwareCheck s.nv b (some b.length) else wholeCheck s.nv s.density b (some b.length)

/-- What runs came from the area. -/
def State.stageActive (s : State) (area : Nat) : Bool :=
  if area < 2 then s.fwActive (decide (area = 1)) else decide (s.whole.loadedFrom = area - 2)

/-- The checks in their order, then the store. -/
theorem State.doStage_of_ready {s : State} (hr : s.ready = true) (area : Nat) (b : Bytes) (ok : Bool) :
    s.doStage area b ok =
      if stageBadLen area b = true then s.answer irFetch []
      else match s.stageCheck area b with
        | some e => s.answer e.code []
        | none =>
          if s.stageActive area = true then s.answer irActiveSlot []
          else (s.storeFlash area b ok).1.answer (if (s.storeFlash area b ok).2 = true then 0 else irFlash) [] := by
  unfold State.doStage stageBadLen State.stageCheck State.stageActive
  by_cases ha : area < 2
  · simp only [ha, if_true, State.stageFirmware, hr, Bool.not_true, Bool.false_eq_true, if_false]
    cases badFwLen b.length
    · cases firmwareCheck s.nv b (some b.length) with
      | some e => rfl
      | none =>
        cases s.fwActive (decide (area = 1))
        · obtain ⟨t, _ | _⟩ := s.storeFlash area b ok <;> rfl
        · rfl
    · rfl
  · simp only [ha, if_false, State.stageImage, State.imageRegs_of_ready hr, Bool.not_true, Bool.false_eq_true,
      decide_eq_true_eq]
    cases badImgLen b.length
    · cases wholeCheck s.nv s.density b (some b.length) with
      | some e => rfl
      | none =>
        by_cases hact : s.whole.loadedFrom = area - 2
        · simp [hact]
        · obtain ⟨t, _ | _⟩ := s.storeFlash area b ok <;> simp [hact]
    · rfl

section Stage
variable {s : State} {area : Fin 4} {b : Bytes} (hr : s.ready = true) (hf : s.plb.failover = false) (ok : Bool)
include hr hf

theorem exec_stageFlash : exec (.stageFlash area b ok) s = .next (s.doStage area.val b ok) := by
  refine congrArg Host.Outcome.next ?_
  rw [if_pos (State.powered_of_ready hr), State.mgmtOp_now hf]

theorem exec_stageFlash_badLen (hl : stageBadLen area.val b = true) :
    exec (.stageFlash area b ok) s = .next (s.answer irFetch []) := by
  rw [exec_stageFlash hr hf, State.doStage_of_ready hr, if_pos hl]

variable (hl : stageBadLen area.val b = false)
include hl

theorem exec_stageFlash_refused {e : Bad} (hc : s.stageCheck area.val b = some e) :
    exec (.stageFlash area b ok) s = .next (s.answer e.code []) := by
  rw [exec_stageFlash hr hf, State.doStage_of_ready hr, hl, hc]
  rfl

theorem exec_stageFlash_active (hc : s.stageCheck area.val b = none) (ha : s.stageActive area.val = true) :
    exec (.stageFlash area b ok) s = .next (s.answer irActiveSlot []) := by
  rw [exec_stageFlash hr hf, State.doStage_of_ready hr, hl, hc, ha]
  rfl

omit ok in
/-- A stage that passes its checks is written to its area. -/
theorem exec_stageFlash_stores (hc : s.stageCheck area.val b = none) (ha : s.stageActive area.val = false)
    (hw : s.nv.journal.worn area.val = false) :
    ∃ t, exec (.stageFlash area b true) s = .next t ∧ t.plb.answer = (0, []) ∧
      t.nv.flash = Tbl.set [] s.nv.flash area.val (storedArea (Tbl.get [] s.nv.flash area.val) b) ∧
      t.nv.keys = s.nv.keys ∧ t.nv.floor = s.nv.floor ∧ s.sameBut t [.plb, .nv, .dev] := by
  obtain ⟨t, log, ht, hframe, _, hnv⟩ := State.storeFlash_stores hw b
  have hpins : t.pins = s.pins := hframe .pins (by decide)
  have hgood : t.pins.pwrGood = true := by rw [hpins]; exact State.pwrGood_of_ready hr
  refine ⟨t.answer 0 [], ?_, ?_, ?_⟩
  · rw [exec_stageFlash hr hf, State.doStage_of_ready hr, hl, hc, ha, ht]
    rfl
  · rw [State.answer_good hgood]
  · rw [State.answer_good hgood]
    refine ⟨(congrArg Nv.flash hnv :), (congrArg Nv.keys hnv :), (congrArg Nv.floor hnv :),
      (hframe.mono (by decide)).trans fun p hp => ?_⟩
    cases p with
    | plb => exact absurd List.mem_cons_self hp
    | _ => rfl

end Stage

/-! ### Failover (R79) -/

/-- A management operation given during a failover is held behind those held before. -/
theorem exec_held {s : State} {op : HeldOp} {f : State → State} {c : Bool} (hc : c = true) (hf : s.plb.failover = true) :
    (if c = true then s.mgmtOp op f else s) = { s with plb := { s.plb with heldOps := s.plb.heldOps ++ [op] } } := by
  rw [if_pos hc, State.mgmtOp_held hf]

section Failover
variable {s : State} (hp : s.powered = true)
include hp

theorem State.doFailover_begins (hf : s.plb.failover = false) : s.doFailover false
    = ({ s with plb := { s.plb with failover := true } }).raise fcFailover { unit := unitPlumb false } := by
  simp [State.doFailover, hp, hf]

theorem State.doFailover_again (hf : s.plb.failover = true) : s.doFailover false = s := by
  simp [State.doFailover, hp, hf]

theorem State.doFailover_ends (hf : s.plb.failover = true) : s.doFailover true
    = s.plb.heldOps.foldl State.performHeld { s with plb := { s.plb with failover := false, heldOps := [] } } := by
  simp [State.doFailover, hp, hf]

theorem State.doFailover_none (hf : s.plb.failover = false) : s.doFailover true = s := by
  simp [State.doFailover, hp, hf]

end Failover

/-! ### The statement -/

/-- Settles O47: the reads answer, a stage is stored or answers the code of the check that it failed, and during a failover
every management operation is held. -/
theorem plumbCommands : Obligations.PlumbCommands := by
  refine ⟨fun s hg => ?_, fun s area b hr hf => ?_, fun s hp => ?_⟩
  · refine ⟨congrArg _ (State.answer_good hg _ _), congrArg _ (State.answer_good hg _ _),
      congrArg _ (State.answer_good hg _ _), ?_, fun code ok h => ?_, fun a hp hh => ?_⟩
    · obtain ⟨alert, heq, hnone, hkeep⟩ := State.doFaultSummary_good hg
      refine ⟨_, congrArg Host.Outcome.next heq, fun p hp => ?_, rfl, hnone, hkeep⟩
      cases p with
      | plb => exact absurd (by decide) hp
      | free => exact absurd (by decide) hp
      | _ => rfl
    · exact congrArg _ ((State.doUnknownPlumb_unknown h).trans (State.answer_good hg _ _))
    · exact congrArg _ (if_pos (by simp [hp, hh]))
  · exact ⟨fun hl ok => exec_stageFlash_badLen hr hf ok hl, fun hl e hc ok => exec_stageFlash_refused hr hf ok hl hc,
      fun hl hc ha ok => exec_stageFlash_active hr hf ok hl hc ha, fun hl hc ha hw => exec_stageFlash_stores hr hf hl hc ha hw⟩
  · refine ⟨fun hf => congrArg _ (State.doFailover_begins hp hf), fun hf => ⟨congrArg _ (State.doFailover_again hp hf), fun w =>
      congrArg _ (exec_held hp hf), fun area b ok => congrArg _ (exec_held hp hf), fun on u => congrArg _ (exec_held hp hf),
      congrArg _ (exec_held hp hf), fun v hr => congrArg _ (exec_held hr hf), fun reg acked oc => ?_,
      congrArg _ (State.doFailover_ends hp hf)⟩, fun hf => congrArg _ (State.doFailover_none hp hf)⟩
    refine congrArg Host.Outcome.next ?_
    rw [State.doVrAlert, if_neg (by simp [hp]), State.mgmtOp_held hf]

end Sys2Proof.Machine

/-! ## What the end of a command leaves alone (R104, R106, R222) -/

namespace Sys2Proof.Machine

/-! ### Records that are due, and the bases of handles -/

/-- What a handle names: its two bases and which of them is current. -/
def Handle.bases (h : Handle) : W64 × W64 × Bool := (h.baseA, h.baseB, h.current)

/-- A slice with the same records due and the same bases. -/
structure Slice.KeepsDue (v w : Slice) : Prop where
  due : ∀ q, (w.cq q).due = (v.cq q).due
  bases : ∀ n, (w.handle n).bases = (v.handle n).bases

/-- A state with the same records due, the same bases of every handle, and the same memory. -/
structure State.KeepsDue (s t : State) : Prop where
  slice : ∀ i, (s.slice i).KeepsDue (t.slice i)
  mem : t.mem = s.mem
  host : t.host = s.host
  uc : t.uc = s.uc

theorem Slice.keepsDue_refl (v : Slice) : v.KeepsDue v := ⟨fun _ => rfl, fun _ => rfl⟩

theorem State.keepsDue_refl (s : State) : s.KeepsDue s := ⟨fun _ => Slice.keepsDue_refl _, rfl, rfl, rfl⟩

theorem State.KeepsDue.trans {s t u : State} (hst : s.KeepsDue t) (htu : t.KeepsDue u) : s.KeepsDue u :=
  ⟨fun i => ⟨fun q => ((htu.slice i).due q).trans ((hst.slice i).due q),
    fun n => ((htu.slice i).bases n).trans ((hst.slice i).bases n)⟩, htu.mem.trans hst.mem, htu.host.trans hst.host,
    htu.uc.trans hst.uc⟩

theorem State.KeepsDue.dueOf {s t : State} (h : s.KeepsDue t) (i q : Nat) : t.dueOf i q = s.dueOf i q := (h.slice i).due q

theorem foldl_keepsDue {α : Type} {f : State → α → State} {l : List α} (hf : ∀ (s : State), ∀ a ∈ l, s.KeepsDue (f s a))
    (s : State) : s.KeepsDue (l.foldl f s) := by
  induction l generalizing s with
  | nil => exact s.keepsDue_refl
  | cons a l ih =>
    exact (hf s a List.mem_cons_self).trans (ih (fun s b hb => hf s b (List.mem_cons_of_mem a hb)) (f s a))

/-- Changes elsewhere than in the slices, the memories and the cache. -/
theorem State.keepsDue_of_sameBut {s t : State} {ps : List Part} (h : s.sameBut t ps)
    (hp : ∀ p ∈ [Part.slices, .mem, .host, .uc], p ∉ ps) : s.KeepsDue t := by
  refine ⟨fun i => ?_, h .mem (hp _ (by decide)), h .host (hp _ (by decide)), h .uc (hp _ (by decide))⟩
  rw [State.slice_of_slices (h .slices (hp _ (by decide)))]
  exact Slice.keepsDue_refl _

theorem State.keepsDue_updSlice (s : State) (i : Nat) {f : Slice → Slice} (hf : ∀ v, Slice.KeepsDue v (f v)) :
    s.KeepsDue (s.updSlice i f) := by
  refine ⟨fun k => ?_, rfl, rfl, rfl⟩
  rw [State.slice_updSlice]
  split
  case isTrue h => exact h ▸ hf _
  case isFalse => exact Slice.keepsDue_refl _

theorem State.keepsDue_updHandle (s : State) (i n : Nat) {f : Handle → Handle} (hf : ∀ h, (f h).bases = h.bases) :
    s.KeepsDue (s.updHandle i n f) := by
  refine s.keepsDue_updSlice i fun v => ⟨fun _ => rfl, fun k => ?_⟩
  simp only [Slice.handle, Slice.setHandle, Tbl.get_set]
  split
  case isTrue h => exact h ▸ hf _
  case isFalse => rfl

theorem State.keepsDue_updCq (s : State) (i q : Nat) {f : Ring → Ring} (hf : ∀ r, (f r).due = r.due) :
    s.KeepsDue (s.updCq i q f) := by
  refine s.keepsDue_updSlice i fun v => ⟨fun k => ?_, fun _ => rfl⟩
  simp only [Slice.cq, Slice.setCq, Tbl.get_set]
  split
  case isTrue h => exact h ▸ hf _
  case isFalse => rfl

theorem State.keepsDue_updCmd (s : State) (id : Nat) (f : Cmd → Cmd) : s.KeepsDue (s.updCmd id f) :=
  State.keepsDue_of_sameBut (s.updCmd_sameBut id f) (by decide)

theorem State.keepsDue_count (s : State) (i k n : Nat) : s.KeepsDue (s.count i k n) :=
  s.keepsDue_updSlice i fun _ => ⟨fun _ => rfl, fun _ => rfl⟩

theorem State.keepsDue_countOutcome (s : State) (i outcome : Nat) : s.KeepsDue (s.countOutcome i outcome) := by
  unfold State.countOutcome
  dsimp only
  split
  · exact (s.keepsDue_count _ _ _).trans (State.keepsDue_count _ _ _ _)
  · exact s.keepsDue_count _ _ _

theorem State.keepsDue_waitRecord (s : State) (i q : Nat) (r : Rec) : s.KeepsDue (s.waitRecord i q r) :=
  s.keepsDue_updCq i q fun _ => rfl

theorem State.keepsDue_resultOr (s : State) (r : Option Nat) : s.KeepsDue (s.resultOr r).2 := by
  cases r <;> exact ⟨fun _ => Slice.keepsDue_refl _, rfl, rfl, rfl⟩

/-! ### The steps of a completion -/

theorem State.keepsDue_retireHandle (s : State) (i n : Nat) : s.KeepsDue (s.retireHandle i n) := by
  have hclear : ∀ t : State, t.KeepsDue (t.updHandle i n fun h => { h with flipPending := false, flipCmd := none }) :=
    fun t => t.keepsDue_updHandle i n fun _ => rfl
  unfold State.retireHandle
  dsimp only
  split
  · exact s.keepsDue_refl
  · split
    · exact ⟨(hclear s).slice, rfl, rfl, rfl⟩
    · split
      · exact (hclear s).trans (State.keepsDue_waitRecord _ _ _ _)
      · exact hclear s

theorem Handle.bases_dropRef (h : Handle) (b : Bool) : (h.dropRef b).bases = h.bases := by
  cases b <;> rfl

theorem State.keepsDue_releaseRefs (s : State) (id : Nat) : s.KeepsDue (s.releaseRefs id) := by
  unfold State.releaseRefs
  refine State.KeepsDue.trans (foldl_keepsDue (fun t e _ => ?_) s) (State.keepsDue_updCmd _ id _)
  exact (t.keepsDue_updHandle _ _ fun h => h.bases_dropRef _).trans (State.keepsDue_retireHandle _ _ _)

theorem unitKind_unitBay {b : Nat} (hb : b < 48) : unitKind (unitBay b) = .bay b := by
  revert b
  decide

theorem State.bumpEpoch_unitBay {b : Nat} (hb : b < 48) (s : State) :
    s.bumpEpoch (unitBay b) = s.updBay b fun v => { v with epoch := v.epoch + 1 } := by
  simp [State.bumpEpoch, unitKind_unitBay hb]

theorem State.cutBay_sameBut {b : Nat} (hb : b < 48) (s : State) : s.sameBut (s.cutBay b) [.bays, .plb] := by
  unfold State.cutBay
  rw [State.bumpEpoch_unitBay hb]
  exact ((s.updBay_sameBut b _).mono (by decide)).trans (((State.updBay_sameBut _ b _).mono (by decide)).trans
    ((State.withPlb_sameBut _ _).mono (by decide)))

theorem State.unholdBay_sameBut {b : Nat} (hb : b < 48) (s : State) : s.sameBut (s.unholdBay b) [.bays, .plb] := by
  have hfree : s.sameBut (s.updBay b fun v => { v with holder := none }) [.bays, .plb] :=
    (s.updBay_sameBut b _).mono (by decide)
  unfold State.unholdBay
  dsimp only
  split
  · split
    · exact hfree.trans (State.cutBay_sameBut hb _)
    · exact hfree
  · exact s.sameBut_refl _

theorem State.leaveBay_sameBut {b : Nat} (hb : b < 48) (s : State) (id : Nat) : s.sameBut (s.leaveBay id b) [.bays, .plb] :=
  ((s.updBay_sameBut b _).mono (by decide)).trans (State.unholdBay_sameBut hb _)

theorem foldl_sameBut_of_mem {α : Type} {f : State → α → State} {ps : List Part} {l : List α}
    (hf : ∀ (s : State), ∀ a ∈ l, s.sameBut (f s a) ps) (s : State) : s.sameBut (l.foldl f s) ps := by
  induction l generalizing s with
  | nil => exact s.sameBut_refl ps
  | cons a l ih =>
    exact (hf s a List.mem_cons_self).trans (ih (fun s b hb => hf s b (List.mem_cons_of_mem a hb)) (f s a))

theorem State.withGangs_sameBut (s : State) (g : Tbl Gang) : s.sameBut { s with gangs := g } [.gangs] := by
  intro p hp
  cases p with
  | gangs => exact absurd List.mem_cons_self hp
  | _ => rfl

theorem State.orphan_sameBut (s : State) (sel : Req → Bool) : s.sameBut (s.orphan sel) [.reqs] := by
  intro p hp
  cases p with
  | reqs => exact absurd List.mem_cons_self hp
  | _ => rfl

theorem State.leaveEngines_sameBut (s : State) (id : Nat) : s.sameBut (s.leaveEngines id) [.gangs, .reqs, .bays, .plb] := by
  unfold State.leaveEngines
  refine State.sameBut.trans (((s.withGangs_sameBut _).mono (by decide)).trans ((State.orphan_sameBut _ _).mono (by decide)))
    (foldl_sameBut_of_mem (fun t b hb => ?_) _)
  exact (State.leaveBay_sameBut (List.mem_range.mp hb) t id).mono (by decide)

theorem State.setCmd_sameBut (s : State) (id : Nat) (c : Cmd) : s.sameBut (s.setCmd id c) [.cmds] := by
  intro p hp
  cases p with
  | cmds => exact absurd List.mem_cons_self hp
  | _ => rfl

theorem State.keepsDue_finishUndispatched (s : State) (id outcome detail arg : Nat) (result await : Option Nat) :
    s.KeepsDue (s.finishUndispatched id outcome detail arg result await) := by
  unfold State.finishUndispatched
  dsimp only
  refine (s.keepsDue_resultOr result).trans (State.KeepsDue.trans ?_ (State.keepsDue_waitRecord _ _ _ _))
  exact State.KeepsDue.trans (State.keepsDue_of_sameBut (State.setCmd_sameBut _ _ _) (by decide))
    (State.keepsDue_countOutcome _ _ _)

theorem keepsDue_resolveWindow (ids : List Nat) (gone : List (Nat × Option Nat)) (s : State) :
    s.KeepsDue (resolveWindow ids gone s) := by
  induction ids generalizing gone s with
  | nil => exact s.keepsDue_refl
  | cons id ids ih =>
    have hset : ∀ c : Cmd, s.KeepsDue (s.setCmd id c) := fun c =>
      State.keepsDue_of_sameBut (State.setCmd_sameBut _ _ _) (by decide)
    unfold resolveWindow
    dsimp only
    split
    · exact ih _ s
    · split
      · split
        · exact ((hset _).trans (State.keepsDue_finishUndispatched _ _ _ _ _ _ _)).trans (ih _ _)
        · exact (hset _).trans (ih _ _)
      · exact (hset _).trans (ih _ _)

/-! ### A completion -/

/-- The record of a completed command is due in its CQ, and the rest is kept. -/
structure State.Completes (s : State) (id : Nat) (st : Stop) (timeDone : Nat) (result : Option Nat) (t : State) : Prop where
  record : ∃ r res com, t.dueOf (s.cmd id).slice (dCq (s.cmd id).desc)
      = s.dueOf (s.cmd id).slice (dCq (s.cmd id).desc) ++ [r] ∧
    r.notify = dNotify (s.cmd id).desc ∧
    r.bytes = completionRecord (dTag (s.cmd id).desc) (dSeq (s.cmd id).desc) st.outcome kindCommand (s.cmd id).sq st.detail
      st.arg (s.cmd id).timeDispatch timeDone res com ∧
    (st.outcome = ocDone → com = .nothing) ∧ ∀ n, result = some n → res = n
  others : ∀ i q, (i, q) ≠ ((s.cmd id).slice, dCq (s.cmd id).desc) → t.dueOf i q = s.dueOf i q
  bases : ∀ i n, ((t.slice i).handle n).bases = ((s.slice i).handle n).bases
  mem : t.mem = s.mem
  host : t.host = s.host
  uc : t.uc = s.uc

theorem State.dueOf_updCq_append (s : State) (i q : Nat) (r : Rec) (k j : Nat) :
    (s.updCq i q fun x => { x with due := x.due ++ [r] }).dueOf k j
      = if (k, j) = (i, q) then s.dueOf i q ++ [r] else s.dueOf k j := by
  simp only [State.dueOf, State.updCq, State.slice_updSlice, Prod.mk.injEq]
  by_cases hk : k = i
  · subst hk
    simp only [if_true, true_and, Slice.cq, Slice.setCq, Tbl.get_set]
    split <;> rfl
  · simp only [hk, if_false, false_and]

theorem Cmd.commit_done (c : Cmd) {outcome : Nat} (h : outcome = ocDone) (committed : List Nat) :
    c.commit outcome committed = .nothing := by
  subst h
  rfl

theorem State.keepsDue_forget (s : State) (sw : Sweld) (cs : Tbl Cmd) : s.KeepsDue { s with sweld := sw, cmds := cs } :=
  ⟨fun _ => Slice.keepsDue_refl _, rfl, rfl, rfl⟩

/-- Behind its record a completion only counts, and gives back what the command held. -/
theorem State.completes_completeWith (s : State) (id : Nat) (st : Stop) (timeDone : Nat) (result : Option Nat) :
    s.Completes id st timeDone result (s.completeWith id st timeDone result) := by
  unfold State.completeWith
  extract_lets c committed
  have hres := s.keepsDue_resultOr result
  have hval : ∀ n, result = some n → (s.resultOr result).1 = n := by
    rintro n rfl
    rfl
  rcases hdraw : s.resultOr result with ⟨res, t⟩
  rw [hdraw] at hres hval
  dsimp -zeta only
  extract_lets r s1 s2 s3 s4 s5 sw s6
  have hrest : s1.KeepsDue (s6.resolveEarlier c.slice c.sq id (if st.outcome = ocDone then none else some c.ring)) := by
    have h3 : s2.KeepsDue s3 := by
      simp only [s3]
      split
      · exact s2.keepsDue_count _ _ _
      · exact s2.keepsDue_refl
    have h5 : s4.KeepsDue s5 := State.keepsDue_of_sameBut (s4.leaveEngines_sameBut id) (by decide)
    have h6 : s5.KeepsDue s6 := s5.keepsDue_forget _ _
    exact (s1.keepsDue_countOutcome _ _).trans (h3.trans ((s3.keepsDue_releaseRefs id).trans (h5.trans (h6.trans
      (keepsDue_resolveWindow _ _ s6)))))
  have hdue : ∀ i q, s1.dueOf i q = if (i, q) = (c.slice, dCq c.desc) then s.dueOf c.slice (dCq c.desc) ++ [r]
      else s.dueOf i q := by
    intro i q
    rw [← hres.dueOf, ← hres.dueOf]
    exact State.dueOf_updCq_append t c.slice (dCq c.desc) r i q
  refine ⟨⟨r, res, c.commit st.outcome committed, ?_, rfl, rfl, fun h => c.commit_done h committed, hval⟩, fun i q hne => ?_,
    fun i n => ?_, hrest.mem.trans hres.mem, hrest.host.trans hres.host, hrest.uc.trans hres.uc⟩
  · rw [hrest.dueOf, hdue, if_pos rfl]
  · rw [hrest.dueOf, hdue, if_neg hne]
  · refine ((hrest.slice i).bases n).trans (Eq.trans ?_ ((hres.slice i).bases n))
    simp only [s1, State.updCq, State.slice_updSlice]
    split
    case isTrue h => exact h ▸ rfl
    case isFalse => rfl

end Sys2Proof.Machine

/-! ## NOP and table handles (O18) -/

namespace Sys2Proof.Machine

/-! ### Commands that complete DONE at once (R96, R108) -/

/-- The record of `id` is due with this RESULT and time, DONE, and nothing else is due or stored. -/
def State.EndsDone (s : State) (id res time : Nat) (t : State) : Prop :=
  (∃ r : Rec, r.bytes = completionRecord (dTag (s.cmd id).desc) (dSeq (s.cmd id).desc) ocDone kindCommand (s.cmd id).sq 0 0
      (s.cmd id).timeDispatch time res .nothing ∧ r.notify = dNotify (s.cmd id).desc ∧
    t.dueOf (s.cmd id).slice (dCq (s.cmd id).desc) = s.dueOf (s.cmd id).slice (dCq (s.cmd id).desc) ++ [r]) ∧
  (∀ i k, (i, k) ≠ ((s.cmd id).slice, dCq (s.cmd id).desc) → t.dueOf i k = s.dueOf i k) ∧ t.mem = s.mem ∧ t.host = s.host

theorem State.endsDone_completeCmd (s : State) (id time : Nat) :
    ∃ res, s.EndsDone id res time (s.completeCmd id doneStop time) ∧ ∀ n, (s.cmd id).result ocDone = some n → res = n := by
  obtain ⟨⟨r, res, com, hdue, hnotify, hbytes, hcom, hres⟩, hothers, _, hmem, hhost, _⟩ :=
    s.completes_completeWith id doneStop time ((s.cmd id).result ocDone)
  rw [hcom rfl] at hbytes
  exact ⟨res, ⟨⟨r, hbytes, hnotify, hdue⟩, hothers, hmem, hhost⟩, hres⟩

theorem exec_nop {s : State} {id : Nat} (h : s.doing id opNop = true) :
    ∃ t res, exec (.nop id) s = .next t ∧ s.EndsDone id res (s.cmd id).timeDispatch t := by
  obtain ⟨res, hends, _⟩ := s.endsDone_completeCmd id (s.cmd id).timeDispatch
  exact ⟨_, res, congrArg Host.Outcome.next (if_pos h), hends⟩

/-! ### The effect of a handle operation (R108, R257) -/

/-- A handle operation acts on its handle, keeps its RESULT, and completes DONE. -/
def State.handleDone (s : State) (id : Nat) (f : Handle → Handle) : State :=
  let c := s.cmd id
  let t := s.updHandle c.slice (haHandle c.desc) f
  let h := (t.slice c.slice).handle (haHandle c.desc)
  (t.updCmd id fun c => { c with resA := ofBool h.current }).completeCmd id doneStop s.time

theorem State.handle_updHandle (s : State) (i n : Nat) (f : Handle → Handle) :
    ((s.updHandle i n f).slice i).handle n = f ((s.slice i).handle n) := by
  rw [State.updHandle, State.slice_updSlice_same]
  exact Tbl.get_set_same _ _ _ _

theorem State.dueOf_updHandle (s : State) (i n : Nat) (f : Handle → Handle) (k q : Nat) :
    (s.updHandle i n f).dueOf k q = s.dueOf k q := by
  simp only [State.dueOf, State.updHandle, State.slice_updSlice]
  split
  case isTrue h => exact h ▸ rfl
  case isFalse => rfl

theorem Cmd.result_handleOp {c : Cmd} (h : dOpcode c.desc = opHandleSet ∨ dOpcode c.desc = opEpochFlip) :
    c.result ocDone = some (c.resA % 2) := by
  unfold Cmd.result
  rcases h with h | h <;> rw [h] <;> rfl

theorem ofBool_mod_two (b : Bool) : ofBool b % 2 = ofBool b := by
  cases b <;> rfl

/-- Its record carries the handle's new current base, and the handle keeps what was set. -/
theorem State.endsDone_handleDone {s : State} {id : Nat}
    (hop : dOpcode (s.cmd id).desc = opHandleSet ∨ dOpcode (s.cmd id).desc = opEpochFlip) (f : Handle → Handle) :
    let h := f (((s.slice (s.cmd id).slice).handle (haHandle (s.cmd id).desc)))
    s.EndsDone id (ofBool h.current) s.time (s.handleDone id f) ∧
      (((s.handleDone id f).slice (s.cmd id).slice).handle (haHandle (s.cmd id).desc)).bases = h.bases := by
  intro h
  let t := s.updHandle (s.cmd id).slice (haHandle (s.cmd id).desc) f
  let u := t.updCmd id fun c => { c with resA := ofBool h.current }
  have hcmd : u.cmd id = { s.cmd id with resA := ofBool h.current } := State.cmd_updCmd_same t id _
  have hdone : s.handleDone id f = u.completeCmd id doneStop s.time := by
    simp only [State.handleDone, State.handle_updHandle]
    rfl
  have hbases : (((s.handleDone id f).slice (s.cmd id).slice).handle (haHandle (s.cmd id).desc)).bases = h.bases := by
    rw [hdone]
    refine ((u.completes_completeWith id doneStop s.time _).bases _ _).trans ?_
    exact congrArg Handle.bases (s.handle_updHandle _ _ f)
  refine ⟨?_, hbases⟩
  obtain ⟨res, ⟨⟨r, hbytes, hnotify, hdue⟩, hothers, hmem, hhost⟩, hres⟩ := u.endsDone_completeCmd id s.time
  have hsame : ∀ k q, u.dueOf k q = s.dueOf k q := s.dueOf_updHandle _ _ f
  rw [hcmd] at hbytes hnotify hdue hothers hres
  have hval : res = ofBool h.current :=
    (hres _ (Cmd.result_handleOp hop)).trans (ofBool_mod_two h.current)
  rw [hdone]
  exact ⟨⟨r, hval ▸ hbytes, hnotify, hdue.trans (by rw [hsame])⟩, fun i k hne => (hothers i k hne).trans (hsame i k), hmem, hhost⟩

theorem Cmd.opcode_of_handleOpPending {c : Cmd} {op : Nat} (h : c.handleOpPending op = true) : dOpcode c.desc = op := by
  simp only [Cmd.handleOpPending, Bool.and_eq_true, decide_eq_true_eq] at h
  exact h.1.1

theorem exec_handleSet {s : State} {id : Nat} (h : (s.cmd id).handleOpPending opHandleSet = true) :
    exec (.handleSet id) s = .next (s.handleDone id fun x =>
      x.set (BitVec.ofNat 64 (leAt (s.cmd id).desc 0x30 8)) (BitVec.ofNat 64 (leAt (s.cmd id).desc 0x38 8))
        (haCurrent (s.cmd id).desc)) := by
  refine congrArg Host.Outcome.next ((if_pos h).trans ?_)
  have hop := Cmd.opcode_of_handleOpPending h
  simp only [State.handleEffect, hop, if_true, State.handleDone, State.handle_updHandle]
  rfl

theorem exec_epochFlip {s : State} {id : Nat} (h : (s.cmd id).handleOpPending opEpochFlip = true) :
    exec (.epochFlip id) s = .next ((s.handleDone id fun x => x.flip (s.cmd id) id).retireHandle (s.cmd id).slice
      (haHandle (s.cmd id).desc)) := by
  refine congrArg Host.Outcome.next ((if_pos h).trans ?_)
  have hop : dOpcode (s.cmd id).desc ≠ opHandleSet := by
    rw [Cmd.opcode_of_handleOpPending h]
    decide
  simp only [State.handleEffect, hop, if_false]
  rfl

/-! ### The manager's operations (R260, R266) -/

section Manager
variable {s : State} {k n : Nat} {set : Option Bool}

theorem State.startHandleOp_busy (hr : s.ready = true) (hb : s.dev.handleBusy = true) :
    s.startHandleOp k n set = { s with dev := { s.dev with handleOverrun := true } } := by
  simp [State.startHandleOp, hr, hb]

theorem State.startHandleOp_idle (hr : s.ready = true) (hb : s.dev.handleBusy = false) :
    s.startHandleOp k n set = { s with dev := { s.dev with
      handleBusy := true, handleOp := some (k, n, set, s.dev.handleBaseA, s.dev.handleBaseB) } } := by
  simp [State.startHandleOp, hr, hb]

/-- With no handle operation of a command pending there is nothing to take effect first. -/
theorem State.handleEffects_none
    (h : ∀ e ∈ s.cmds, e.2.handleOpPending opHandleSet = false ∧ e.2.handleOpPending opEpochFlip = false) (b : Option Nat) :
    s.handleEffects b = s := by
  have hnil : (s.cmds.filter fun e => decide (some e.1 ≠ b)
      && (e.2.handleOpPending opHandleSet || e.2.handleOpPending opEpochFlip)) = [] :=
    List.filter_eq_nil_iff.mpr fun e he => by simp [h e he]
  rw [State.handleEffects, hnil]
  rfl

theorem exec_managerHandleEffect (hr : s.ready = true) (ho : s.dev.handleOp.isSome = true) :
    exec .managerHandleEffect s = .next (s.handleEffects none).managerEffect :=
  congrArg Host.Outcome.next (if_pos (by simp [hr, ho]))

theorem exec_managerHandleEffect_none (ho : s.dev.handleOp = none) : exec .managerHandleEffect s = .next s :=
  congrArg Host.Outcome.next (if_neg (by simp [ho]))

/-- The state in which a manager operation has ended with a RESULT. -/
def State.managerEnd (s : State) (r : Nat) : State :=
  { s with dev := { s.dev with handleOp := none, handleBusy := false, handleDone := true, handleResult := r } }

variable {a b : W64}

theorem State.managerEffect_refused (ho : s.dev.handleOp = some (k, n, set, a, b)) (hr : s.managerCheck k n set a b ≠ 0) :
    s.managerEffect = s.managerEnd (s.managerCheck k n set a b) := by
  simp only [State.managerEffect, ho]
  exact if_pos hr

theorem State.managerEffect_set {c : Bool} (ho : s.dev.handleOp = some (k, n, some c, a, b))
    (hr : s.managerCheck k n (some c) a b = 0) :
    s.managerEffect = (s.managerEnd 0).updHandle k n fun h => { h with baseA := a, baseB := b, current := c } := by
  simp only [State.managerEffect, ho, hr]
  rfl

theorem State.managerEffect_flip (ho : s.dev.handleOp = some (k, n, none, a, b)) (hr : s.managerCheck k n none a b = 0) :
    s.managerEffect = ((s.managerEnd 0).updHandle k n fun h =>
      { h with current := !h.current, flipPending := true, flipMgr := true, flipCmd := none }).retireHandle k n := by
  simp only [State.managerEffect, ho, hr]
  rfl

end Manager

/-! ### The statement -/

/-- Settles O18: NOP and the handle operations are completions DONE, and the manager's operation is judged once those before
it have taken effect. -/
theorem handlesAndNop : Obligations.HandlesAndNop := by
  refine ⟨fun s id => ⟨exec_nop, fun h => ?_, fun h => ?_⟩, fun s i h cur hr => ?_⟩
  · obtain ⟨hends, hbases⟩ := State.endsDone_handleDone (s := s) (id := id) (.inl (Cmd.opcode_of_handleOpPending h))
      fun x => x.set (BitVec.ofNat 64 (leAt (s.cmd id).desc 0x30 8)) (BitVec.ofNat 64 (leAt (s.cmd id).desc 0x38 8))
        (haCurrent (s.cmd id).desc)
    simp only [Handle.bases, Handle.set, Prod.mk.injEq] at hbases
    exact ⟨_, exec_handleSet h, hends, hbases⟩
  · obtain ⟨hends, hbases⟩ := State.endsDone_handleDone (s := s) (id := id) (.inr (Cmd.opcode_of_handleOpPending h))
      fun x => x.flip (s.cmd id) id
    obtain ⟨hdue, hothers, hmem, hhost⟩ := hends
    have hkeep := (s.handleDone id fun x => x.flip (s.cmd id) id).keepsDue_retireHandle (s.cmd id).slice
      (haHandle (s.cmd id).desc)
    refine ⟨_, exec_epochFlip h, ⟨?_, fun i k hne => (hkeep.dueOf i k).trans (hothers i k hne), hkeep.mem.trans hmem,
      hkeep.host.trans hhost⟩, ?_⟩
    · obtain ⟨r, hbytes, hnotify, hrec⟩ := hdue
      exact ⟨r, hbytes, hnotify, (hkeep.dueOf _ _).trans hrec⟩
    · have hcurrent := ((hkeep.slice _).bases _).trans hbases
      simp only [Handle.bases, Handle.flip, Prod.mk.injEq] at hcurrent
      exact hcurrent.2.2
  · refine ⟨fun hb => ⟨congrArg _ (State.startHandleOp_busy hr hb), congrArg _ (State.startHandleOp_busy hr hb)⟩,
      fun hb => ⟨congrArg _ (State.startHandleOp_idle hr hb), congrArg _ (State.startHandleOp_idle hr hb)⟩,
      exec_managerHandleEffect_none, fun ho => ⟨fun h => State.handleEffects_none h none, fun k n set a b hop => ?_⟩⟩
    rw [exec_managerHandleEffect hr ho]
    generalize s.handleEffects none = u at hop ⊢
    refine ⟨fun hne => congrArg _ (State.managerEffect_refused hop hne), fun c h0 hc => ?_, fun h0 hset => ?_⟩
    · subst hc
      exact congrArg _ ((State.managerEffect_set hop h0).trans (by rw [h0]; rfl))
    · subst hset
      exact congrArg _ ((State.managerEffect_flip hop h0).trans (by rw [h0]; rfl))

end Sys2Proof.Machine

/-! ## A command completes once its writes have landed (O19) -/

namespace Sys2Proof.Machine

theorem State.bay_of_bays {s t : State} (h : t.bays = s.bays) (k : Nat) : t.bay k = s.bay k := by
  rw [State.bay, State.bay, h]

theorem State.cmd_of_cmds {s t : State} (h : t.cmds = s.cmds) (k : Nat) : t.cmd k = s.cmd k := by
  rw [State.cmd, State.cmd, h]

section CommandComplete
variable {s : State} {id : Nat}

/-- A command with no ended gangs left counts no further commit slot, whatever lands. -/
theorem State.landEnded_of_nil (s : State) (id b : Nat) (h : (s.cmd id).ended = []) :
    s.sameBut (s.landEnded id b) [.cmds] ∧ (s.landEnded id b).cmd id = s.cmd id := by
  refine ⟨s.setCmd_sameBut id _, ?_⟩
  unfold State.landEnded
  extract_lets c lands
  have hc : c.ended = [] := h
  rw [hc, State.cmd, State.setCmd, Tbl.get_set, if_pos rfl]
  exact (congrArg (fun e => { c with ended := e }) hc).symm

theorem State.l1DirtyOf_eq_nil {b : Nat} (h : ∀ l ∈ (s.bay b).l1, id ∉ l.2.cmds) : s.l1DirtyOf b id = [] := by
  refine List.map_eq_nil_iff.mpr (List.filter_eq_nil_iff.mpr fun e he => ?_)
  simpa using h e he

/-- With no dirty line and no ended gang of a command left, writing its lines back does nothing. -/
theorem State.flushCmdL1_of_clean (hend : (s.cmd id).ended = [])
    (hl1 : ∀ b l, b < 48 → l ∈ (s.bay b).l1 → id ∉ l.2.cmds) :
    s.sameBut (s.flushCmdL1 id) [.cmds] ∧ (s.flushCmdL1 id).cmd id = s.cmd id := by
  refine List.foldlRecOn (motive := fun t : State => s.sameBut t [.cmds] ∧ t.cmd id = s.cmd id) _ _
    ⟨s.sameBut_refl _, rfl⟩ fun t ⟨hsame, hcmd⟩ b hb => ?_
  have hbay : t.bay b = s.bay b := State.bay_of_bays (hsame .bays (by decide)) b
  have hclean : t.l1DirtyOf b id = [] := State.l1DirtyOf_eq_nil fun l hl => hl1 b l (List.mem_range.mp hb) (hbay ▸ hl)
  rw [hclean]
  obtain ⟨hland, hkeep⟩ := t.landEnded_of_nil id b (hcmd ▸ hend)
  exact ⟨hsame.trans hland, hkeep.trans hcmd⟩

theorem State.sendDone_sameBut (s : State) (id : Nat) : s.sameBut (s.sendDone id) [.fab] :=
  foldl_sameBut (fun s _ => s.signalUnits_sameBut _ _ _) _ s

theorem State.writesLanded_congr {s t : State} {ps : List Part} (h : s.sameBut t ps) (hr : Part.reqs ∉ ps)
    (hu : Part.uc ∉ ps) (id : Nat) : t.writesLanded id = s.writesLanded id := by
  have hreqs : t.reqs = s.reqs := h .reqs hr
  have huc : t.uc = s.uc := h .uc hu
  rw [State.writesLanded, hreqs, huc, State.writesLanded]

theorem State.completes_completeCmd (s : State) (id : Nat) (st : Stop) (timeDone : Nat) :
    s.Completes id st timeDone ((s.cmd id).result st.outcome) (s.completeCmd id st timeDone) :=
  s.completes_completeWith id st timeDone _

end CommandComplete

/-- Settles O19: writing back finds nothing to do, so whether the record is due turns on the writes alone, and the completion
touches neither memory. -/
theorem commandCompletes : Obligations.CommandCompletes := by
  intro s id c d e hphase hend hl1
  obtain ⟨hflush, hcmd⟩ := State.flushCmdL1_of_clean (s := s.begun) (id := id) hend hl1
  have hlanded : (s.begun.flushCmdL1 id).writesLanded id = s.writesLanded id :=
    State.writesLanded_congr hflush (by decide) (by decide) id
  have hdo : s.begun.doCommandComplete id = if s.writesLanded id then
      ((s.begun.flushCmdL1 id).sendDone id).completeCmd id e s.time else s.begun.flushCmdL1 id := by
    unfold State.doCommandComplete
    rw [if_neg (fun h => h hphase : ¬ (s.begun.cmd id).phase ≠ .finishing)]
    dsimp only
    rw [hlanded, hcmd, hflush .time (by decide)]
    rfl
  refine ⟨fun hland => ?_, fun hland => ?_⟩
  · rw [if_pos hland] at hdo
    have hsend : s.begun.sameBut ((s.begun.flushCmdL1 id).sendDone id) [.cmds, .fab] :=
      (hflush.mono (by decide)).trans ((State.sendDone_sameBut _ id).mono (by decide))
    have hcmd' : ((s.begun.flushCmdL1 id).sendDone id).cmd id = c :=
      (State.cmd_of_cmds (State.sendDone_sameBut _ id .cmds (by decide)) id).trans hcmd
    generalize (s.begun.flushCmdL1 id).sendDone id = t at hdo hsend hcmd'
    obtain ⟨⟨r, res, com, hrec, _, hbytes, hcom, hres⟩, _, _, hmem, hhost, huc⟩ :=
      t.completes_completeCmd id e s.time
    generalize t.completeCmd id e s.time = u at hdo hrec hmem hhost huc
    rw [hcmd'] at hrec hbytes hres
    refine ⟨_, r, res, com, congrArg Host.Outcome.next (State.settled_ended hdo ?_), ?_, hbytes, hcom, hres, ?_, ?_⟩
    · exact (congrArg (·.held) (huc.trans (hsend .uc (by decide)))).trans rfl
    · exact hrec.trans (congrArg (· ++ [r]) (congrArg (fun v : Slice => (v.cq _).due) (State.slice_of_slices (hsend .slices (by decide)) _)))
    · exact hmem.trans (hsend .mem (by decide))
    · exact hhost.trans (hsend .host (by decide))
  · rw [if_neg (by simp [hland])] at hdo
    refine ⟨_, congrArg Host.Outcome.next (State.settled_ended hdo ?_), State.ended_sameBut hflush⟩
    exact (congrArg (·.held) (hflush .uc (by decide))).trans rfl

end Sys2Proof.Machine

/-! ## COPY, RELEASE and FLUSH (O21) -/

namespace Sys2Proof.Machine

section QueueEngineWork
variable {s : State} {id : Nat} {reply : HostReply}

theorem State.doing_begun (op : Nat) : s.begun.doing id op = s.doing id op := rfl

theorem State.doing_not_not {op : Nat} (h : s.doing id op = true) : ¬ (!s.begun.doing id op) = true := by
  simp [State.doing_begun, h]

theorem State.hostSource_unread {src : Target} (h : s.linkUp (s.hostPort id src.pasid) = false ∨ reply = .linkDown) :
    s.hostSource id src reply = .inr 0xFF := by
  unfold State.hostSource
  split
  · rfl
  · next hup =>
    obtain hdown | rfl := h
    · exact absurd (by simp [hdown]) hup
    · rfl

theorem State.hostSource_read {src : Target} (h : s.linkUp (s.hostPort id src.pasid) = true) (b : Bytes) :
    s.hostSource id src (.ok b) = .inl (bytesAt b 0 src.len) := by
  unfold State.hostSource
  rw [if_neg (by simp [h])]

theorem State.doCopy_unread (h : s.doing id opCopy = true) (hhost : (copySource (s.cmd id).desc).host = true)
    (hdown : s.linkUp (s.hostPort id (copySource (s.cmd id).desc).pasid) = false ∨ reply = .linkDown) :
    s.begun.doCopy id reply = s.begun.agFault (s.quoinOf id) fcHostAccess
      { unit := (s.quoinOf id).unit, info0 := 0xFF, info1 := (copySource (s.cmd id).desc).addr } := by
  refine (if_neg (State.doing_not_not h)).trans ((if_pos hhost).trans ?_)
  have hread : s.begun.hostSource id (copySource (s.begun.cmd id).desc) reply = .inr 0xFF :=
    State.hostSource_unread (s := s.begun) hdown
  rw [hread]
  rfl

end QueueEngineWork

/-- Settles O21: a COPY whose source cannot be read raises HOST_ACCESS, any other work that goes through is the plain run of
its function, and a FLUSH with no action is a completion. -/
theorem copyReleaseFlush : Obligations.CopyReleaseFlush := by
  refine ⟨?_, ?_⟩
  · intro s id reply hdo d g src lines
    refine ⟨fun hhost hdown => ?_, fun hhost hup b hb => ?_, fun hhost => ?_⟩
    · exact congrArg Host.Outcome.next (State.settled_raise rfl (State.doCopy_unread hdo hhost hdown))
    · intro f hf
      subst hb
      refine congrArg Host.Outcome.next (State.settled_through (g := f) ?_ hf)
      refine (if_neg (State.doing_not_not hdo)).trans ((if_pos hhost).trans ?_)
      have hread : s.begun.hostSource id (copySource (s.begun.cmd id).desc) (.ok b) = .inl (bytesAt b 0 src.len) :=
        State.hostSource_read (s := s.begun) hup b
      rw [hread]
      rfl
    · intro f hf
      refine congrArg Host.Outcome.next (State.settled_through (g := f) ?_ hf)
      exact (if_neg (State.doing_not_not hdo)).trans (if_neg (ne_true_of_eq_false hhost))
  · intro s id c flags bays
    refine ⟨fun hdo => ?_, fun hdo hflags => ?_, fun hdo hflags => ?_⟩
    · intro f hf
      exact congrArg Host.Outcome.next (State.settled_through (g := f) (if_neg (State.doing_not_not hdo)) hf)
    · have hplain : s.begun.doFlush id = s.begun.completeCmd id doneStop c.timeDispatch :=
        (if_neg (State.doing_not_not hdo)).trans (if_pos hflags)
      obtain ⟨⟨r, res, com, hrec, _, hbytes, hcom, _⟩, _, _, hmem, _, huc⟩ :=
        s.begun.completes_completeCmd id doneStop c.timeDispatch
      generalize s.begun.completeCmd id doneStop c.timeDispatch = u at hplain hrec hmem huc
      obtain rfl := hcom rfl
      exact ⟨_, r, res, congrArg Host.Outcome.next (State.settled_ended hplain ((congrArg (·.held) huc).trans rfl)), hrec,
        hbytes, hmem⟩
    · intro s1 lines f hunit hf
      refine congrArg Host.Outcome.next (State.settled_through (g := f) ?_ hf)
      refine (if_neg (State.doing_not_not hdo)).trans ((if_neg hflags).trans (if_neg fun hany => ?_))
      obtain ⟨a, ha, hreset⟩ := List.any_eq_true.mp hany
      exact hunit a ha (of_decide_eq_true hreset)

end Sys2Proof.Machine

/-! ## Gangs become resident and end (O26) -/

namespace Sys2Proof.Machine

/-! ### The active set (R119) -/

theorem Tbl.find?_isSome_of_mem {α : Type} {t : Tbl α} {e : Nat × α} (he : e ∈ t) : (Tbl.find? t e.1).isSome = true := by
  induction t with
  | nil => exact absurd he List.not_mem_nil
  | cons x t ih =>
    rw [Tbl.find?]
    split
    · rfl
    · next hne => exact ih (((List.mem_cons.mp he).resolve_left) fun h => hne (h ▸ rfl))

theorem State.hasGang_updGang (s : State) (i j : Nat) (f : Gang → Gang) :
    (s.updGang i f).hasGang j = if j = i then true else s.hasGang j := by
  simp only [State.hasGang, State.updGang, State.setGang, Tbl.find?_put]
  split <;> rfl

theorem oldestGang_mem {l : List (Nat × Gang)} {g : Nat} (h : oldestGang l = some g) : ∃ e ∈ l, e.1 = g := by
  cases l with
  | nil => exact absurd h nofun
  | cons x l =>
    have hmem : l.foldl (fun b f => if f.2.age < b.2.age then f else b) x ∈ x :: l :=
      List.foldlRecOn (motive := fun b => b ∈ x :: l) _ _ List.mem_cons_self fun b hb f hf => by
        split
        · exact List.mem_cons_of_mem x hf
        · exact hb
    exact ⟨_, hmem, Option.some.inj h⟩

/-- Gangs have joined or left the active set, and nothing else has changed. -/
structure State.Reactivates (s t : State) : Prop where
  frame : s.sameBut t [.gangs]
  gang : ∀ k, t.gang k = { s.gang k with active := (t.gang k).active }
  has : ∀ k, t.hasGang k = s.hasGang k

theorem State.Reactivates.trans {s t u : State} (h : s.Reactivates t) (k : t.Reactivates u) : s.Reactivates u :=
  ⟨h.frame.trans k.frame, fun i => (k.gang i).trans (congrArg (fun v => { v with active := (u.gang i).active }) (h.gang i)),
    fun i => (k.has i).trans (h.has i)⟩

theorem State.reactivates_active {s : State} {g : Nat} (hg : s.hasGang g = true) (a : Bool) :
    s.Reactivates (s.updGang g fun v => { v with active := a }) := by
  refine ⟨s.updGang_sameBut g _, fun k => ?_, fun k => ?_⟩
  · rw [State.gang_updGang]
    split
    case isTrue h => exact h ▸ rfl
    case isFalse => rfl
  · rw [State.hasGang_updGang]
    split
    case isTrue h => exact (h ▸ hg).symm
    case isFalse => rfl

theorem reactivates_promote (n b core : Nat) (s : State) : s.Reactivates (promote n b core s) := by
  induction n generalizing s with
  | zero => exact ⟨s.sameBut_refl _, fun _ => rfl, fun _ => rfl⟩
  | succ n ih =>
    rw [promote]
    split
    · exact ⟨s.sameBut_refl _, fun _ => rfl, fun _ => rfl⟩
    · split
      · exact ⟨s.sameBut_refl _, fun _ => rfl, fun _ => rfl⟩
      · next g hg =>
        obtain ⟨e, he, rfl⟩ := oldestGang_mem hg
        have hmem : e ∈ s.gangs := List.mem_of_mem_filter (List.mem_of_mem_filter he)
        exact (State.reactivates_active (Tbl.find?_isSome_of_mem hmem) true).trans (ih _)

theorem State.reactivates_fillActive (s : State) (b core : Nat) : s.Reactivates (s.fillActive b core) :=
  reactivates_promote 8 b core s

/-! ### A gang becomes resident (R118) -/

/-- Places the gang of a launch's next index. -/
def State.place (s : State) (id b core : Nat) (feet : List Nat) : State :=
  (s.addGang id (s.cmd id).next b core feet).updCmd id fun c => { c with next := (s.cmd id).next + 1 }

section Place
variable (s : State) (id b core : Nat) (feet : List Nat)

theorem State.place_sameBut : s.sameBut (s.place id b core feet) [.gangs, .nextGang, .cmds] := by
  intro p hp
  cases p with
  | gangs | nextGang | cmds => exact absurd (by decide) hp
  | _ => rfl

theorem State.place_cmd : (s.place id b core feet).cmd id = { s.cmd id with next := (s.cmd id).next + 1 } :=
  (State.cmd_updCmd _ _ _ _).trans (if_pos rfl)

theorem State.place_gang (k : Nat) : (s.place id b core feet).gang k =
    if k = s.nextGang then newGang (s.cmd id) id (s.cmd id).next b core s.nextGang feet else s.gang k :=
  Tbl.get_put _ _ _ _ _

theorem State.place_hasGang {k : Nat} (hk : k ≠ s.nextGang) : (s.place id b core feet).hasGang k = s.hasGang k :=
  congrArg Option.isSome ((Tbl.find?_put _ _ _ _).trans (if_neg hk))

end Place

/-- In `t` the launch `id` of `s` has placed its first `n` gangs. -/
structure State.Places (s t : State) (id n : Nat) : Prop where
  frame : s.sameBut t [.gangs, .nextGang, .cmds]
  cmd : t.cmd id = { s.cmd id with next := n }
  nextGang : t.nextGang = s.nextGang + n
  gangs : ∀ k, k < n → (t.gang (s.nextGang + k)).cmd = id ∧ (t.gang (s.nextGang + k)).index = k

section Places
variable {s t : State} {id n : Nat}

theorem State.Places.place (h : s.Places t id n) (b core : Nat) (feet : List Nat) :
    s.Places (t.place id b core feet) id (n + 1) := by
  refine ⟨h.frame.trans (t.place_sameBut id b core feet), ?_, ?_, fun k hk => ?_⟩
  · rw [State.place_cmd, h.cmd]
  · exact congrArg (· + 1) h.nextGang
  · rw [State.place_gang, h.nextGang]
    split
    · next heq =>
      have hnext : (t.cmd id).next = n := congrArg Cmd.next h.cmd
      obtain rfl : k = n := Nat.add_left_cancel heq
      exact ⟨rfl, hnext⟩
    · next hne => exact h.gangs k (by omega)

theorem State.Places.addGangs (h : s.Places t id n) (b core m : Nat) : s.Places (addGangs id b core m t) id (n + m) := by
  induction m generalizing t n with
  | zero => exact h
  | succ m ih =>
    have hnext := ih (h.place b core (t.nextFeet b id))
    rw [show n + (m + 1) = n + 1 + m by omega]
    exact hnext

theorem State.Places.reactivates {u : State} (h : s.Places t id n) (hu : t.Reactivates u) : s.Places u id n := by
  refine ⟨h.frame.trans (hu.frame.mono (by decide)), ?_, ?_, fun k hk => ?_⟩
  · rw [State.cmd_of_cmds (hu.frame .cmds (by decide)), h.cmd]
  · exact (hu.frame .nextGang (by decide)).trans h.nextGang
  · rw [hu.gang]
    exact h.gangs k hk

theorem State.Places.grant (h : s.Places t id n) (grant : List (Nat × Nat)) :
    s.Places (grant.foldl (fun u e => (Machine.addGangs id (e.1 / 8) (e.1 % 8) e.2 u).fillActive (e.1 / 8) (e.1 % 8)) t) id
      (n + (grant.map (·.2)).sum) := by
  induction grant generalizing t n with
  | nil => exact h
  | cons e grant ih =>
    rw [List.map_cons, List.sum_cons, ← Nat.add_assoc]
    exact ih ((h.addGangs (e.1 / 8) (e.1 % 8) e.2).reactivates (State.reactivates_fillActive _ _ _))

end Places

theorem State.doLaunch_places {s : State} {id : Nat} (hop : dOpcode (s.cmd id).desc = opLaunch) (hrun : (s.cmd id).runs = true)
    (hnext : (s.cmd id).next = 0) : s.Places (s.doLaunch id) id ((s.cmd id).grant.map (·.2)).sum := by
  have hstart : s.Places s id 0 := by
    refine ⟨s.sameBut_refl _, ?_, rfl, fun k hk => absurd hk (Nat.not_lt_zero k)⟩
    rw [← hnext]
  have hgrant := hstart.grant (s.cmd id).grant
  rw [Nat.zero_add] at hgrant
  unfold State.doLaunch
  rw [if_neg (by simp [hop, hrun, hnext])]
  exact hgrant

/-! ### The registers that a gang starts with (R118) -/

theorem Tbl.get_foldl_set {α : Type} [DecidableEq α] {d v : α} {k : Nat} {l : List (Nat × α)} {t : Tbl α}
    (hl : ∀ e ∈ l, e.1 = k → e.2 = v) (h : (∃ e ∈ l, e.1 = k) ∨ Tbl.get d t k = v) :
    Tbl.get d (l.foldl (fun t e => Tbl.set d t e.1 e.2) t) k = v := by
  induction l generalizing t with
  | nil => exact h.resolve_left (by simp)
  | cons e l ih =>
    refine ih (fun x hx => hl x (List.mem_cons_of_mem e hx)) ?_
    rw [Tbl.get_set]
    split
    · next heq => exact .inr (hl e List.mem_cons_self heq.symm)
    · next hne =>
      refine h.imp_left fun ⟨x, hx, hk⟩ => ?_
      obtain rfl | hx := List.mem_cons.mp hx
      · exact absurd hk.symm hne
      · exact ⟨x, hx, hk⟩

/-- The four registers that a lane of a gang starts with: its gang's index, its number and the launch's parameter. -/
def startRegs (index param l : Nat) : List W32 :=
  [BitVec.ofNat 32 index, BitVec.ofNat 32 l, BitVec.ofNat 32 param, BitVec.ofNat 32 (param / 2 ^ 32)]

theorem newGang_reg {c : Cmd} {id index b core age l r : Nat} {feet : List Nat} {x : W32} (hl : l < 32)
    (hr : (startRegs index (laParam c.desc) l)[r]? = some x) : (newGang c id index b core age feet).reg l r = x := by
  have hr4 : r < 4 := (List.getElem?_eq_some_iff.mp hr).1
  unfold Gang.reg newGang
  dsimp only
  generalize hL : List.flatMap _ (List.range 32) = L
  refine Tbl.get_foldl_set (fun e he hk => ?_) (.inl ?_)
  all_goals subst hL
  · obtain ⟨m, hm, he⟩ := List.mem_flatMap.mp he
    have hplace : ∀ i, 256 * m + i = 256 * l + r → i < 4 → m = l ∧ i = r := by omega
    simp only [List.mem_cons, List.not_mem_nil, or_false] at he
    obtain rfl | rfl | rfl | rfl := he
    · obtain ⟨rfl, rfl⟩ := hplace 0 hk (by decide)
      exact Option.some.inj hr
    · obtain ⟨rfl, rfl⟩ := hplace 1 hk (by decide)
      exact Option.some.inj hr
    · obtain ⟨rfl, rfl⟩ := hplace 2 hk (by decide)
      exact Option.some.inj hr
    · obtain ⟨rfl, rfl⟩ := hplace 3 hk (by decide)
      exact Option.some.inj hr
  · refine ⟨(256 * l + r, x), List.mem_flatMap.mpr ⟨l, List.mem_range.mpr hl, ?_⟩, rfl⟩
    obtain rfl | rfl | rfl | rfl : r = 0 ∨ r = 1 ∨ r = 2 ∨ r = 3 := by omega
    all_goals
      obtain rfl := Option.some.inj hr
      simp

/-! ### The end of a gang (R128) -/

/-- The state in which gang `g` has left its place: its entry is gone and its reads are no one's. -/
def State.vacate (s : State) (g : Nat) : State :=
  (s.dropGang g).orphan fun r => decide (r.gang = g) && decide (r.kind = .read)

theorem State.vacate_sameBut (s : State) (g : Nat) : s.sameBut (s.vacate g) [.gangs, .reqs] := by
  intro p hp
  cases p with
  | gangs | reqs => exact absurd (by decide) hp
  | _ => rfl

theorem State.hasGang_vacate (s : State) (g : Nat) : (s.vacate g).hasGang g = false :=
  congrArg Option.isSome ((Tbl.find?_del _ _ _).trans (if_pos rfl))

/-- Where an index is left and no slot of the ended gang is counted, the next gang takes its place. -/
theorem State.doGangExit_next {s : State} {g : Nat} (hslots : dOutSlots (s.cmd (s.gang g).cmd).desc < 2)
    (hleft : (s.cmd (s.gang g).cmd).next < (s.cmd (s.gang g).cmd).items) :
    s.doGangExit g = ((s.vacate g).place (s.gang g).cmd (s.gang g).bay (s.gang g).core (s.gang g).feet).fillActive
      (s.gang g).bay (s.gang g).core := by
  unfold State.doGangExit
  extract_lets v id c b s1 s2 s3
  have h3 : s3 = s2 := if_neg (Nat.not_le.mpr hslots)
  rw [if_pos hleft, h3]
  rfl

/-- Settles O26: placing a gang and filling the active set each keep what is said of the gangs placed. -/
theorem launchAndExit : Obligations.LaunchAndExit := by
  refine ⟨?_, ?_⟩
  · intro s id c n hop hrun hnext
    obtain ⟨hframe, hcmd, hgang, hgangs⟩ := State.doLaunch_places hop hrun hnext
    exact ⟨_, rfl, hframe, hcmd, hgang, hgangs⟩
  · intro s g hrun v c hslots hleft hfree
    have hexit : (s.begun.countInstr g).doGangExit g
        = (((s.begun.countInstr g).vacate g).place v.cmd v.bay v.core v.feet).fillActive v.bay v.core :=
      State.doGangExit_next (s := s.begun.countInstr g) hslots hleft
    have hframe : s.begun.sameBut (((s.begun.countInstr g).vacate g)) [.gangs, .nextGang, .cmds, .reqs, .tel] :=
      ((s.begun.countInstr_sameBut g false).mono (by decide)).trans ((State.vacate_sameBut _ g).mono (by decide))
    have hgone := (s.begun.countInstr g).hasGang_vacate g
    have hcmds : ((s.begun.countInstr g).vacate g).cmd v.cmd = c :=
      (State.cmd_of_cmds (State.vacate_sameBut _ g .cmds (by decide)) _).trans rfl
    have hgangs : ((s.begun.countInstr g).vacate g).nextGang = s.nextGang :=
      (State.vacate_sameBut _ g .nextGang (by decide)).trans rfl
    generalize (s.begun.countInstr g).vacate g = u at hexit hframe hgone hcmds hgangs
    have hplace := u.place_sameBut v.cmd v.bay v.core v.feet
    have hact := (u.place v.cmd v.bay v.core v.feet).reactivates_fillActive v.bay v.core
    have hall := hframe.trans ((hplace.mono (by decide)).trans (hact.frame.mono (by decide)))
    have hnew := (u.place_gang v.cmd v.bay v.core v.feet s.nextGang).trans (if_pos hgangs.symm)
    rw [hcmds] at hnew
    have hlast := (hact.frame .nextGang (by decide)).trans (congrArg (· + 1) hgangs)
    generalize (u.place v.cmd v.bay v.core v.feet).fillActive v.bay v.core = z at hexit hact hall hlast
    refine ⟨_, congrArg Host.Outcome.next (State.issueMem_quiet hrun hexit (hall .flt (by decide)) (hall .uc (by decide))),
      State.ended_sameBut hall, fun hne => ?_, ?_, ?_, ?_⟩
    · exact (hact.has g).trans ((u.place_hasGang v.cmd v.bay v.core v.feet (hgangs ▸ hne)).trans hgone)
    · exact (State.cmd_of_cmds (hact.frame .cmds (by decide)) _).trans ((u.place_cmd _ _ _ _).trans (by rw [hcmds]))
    · exact hlast
    · intro w
      have hw : w = _ := (hact.gang s.nextGang).trans (congrArg (fun x : Gang => { x with active := w.active }) hnew)
      have hreg : ∀ l r, w.reg l r = (newGang c v.cmd c.next v.bay v.core u.nextGang v.feet).reg l r := fun l r =>
        (congrArg (fun x : Gang => x.reg l r) hw :)
      refine ⟨(congrArg Gang.cmd hw :), (congrArg Gang.index hw :), (congrArg Gang.bay hw :), (congrArg Gang.core hw :),
        (congrArg Gang.feet hw :), fun l hl => ?_⟩
      rw [hreg, hreg, hreg, hreg]
      exact ⟨newGang_reg hl rfl, newGang_reg hl rfl, newGang_reg hl rfl, newGang_reg hl rfl⟩

end Sys2Proof.Machine

/-! ## Four bytes that reach a register (R119, R121, R213) -/

namespace Sys2Proof.Machine

/-! ### Bytes and the word they make -/

theorem leVal_testBit (bs : Bytes) (i : Nat) : (leVal bs).testBit i = (bs.getD (i / 8) 0).getLsbD (i % 8) := by
  induction bs generalizing i with
  | nil => simp [leVal]
  | cons x t ih =>
    rw [leVal, Nat.add_comm, show 256 = 2 ^ 8 from rfl, Nat.testBit_two_pow_mul_add _ x.isLt]
    split
    · next h => rw [Nat.div_eq_of_lt h, Nat.mod_eq_of_lt h, List.getD_cons_zero, BitVec.getLsbD]
    · next h =>
      rw [ih, show i / 8 = (i - 8) / 8 + 1 by omega, show i % 8 = (i - 8) % 8 by omega, List.getD_cons_succ]

theorem putByte_getLsbD (x : W32) (k : Nat) (b : Byte) {i : Nat} (hi : i < 32) :
    (putByte x k b).getLsbD i = if 8 * k ≤ i ∧ i < 8 * k + 8 then b.getLsbD (i - 8 * k) else x.getLsbD i := by
  have hmask : ∀ j, (0xFF#32).getLsbD j = decide (j < 8) := fun j => by
    rw [BitVec.getLsbD, show (0xFF#32).toNat = 2 ^ 8 - 1 from rfl, Nat.testBit_two_pow_sub_one]
  simp only [putByte, BitVec.getLsbD_or, BitVec.getLsbD_and, BitVec.getLsbD_not, BitVec.getLsbD_shiftLeft, hmask,
    BitVec.getLsbD_setWidth]
  by_cases hlo : i < 8 * k
  · simp [hi, hlo, Nat.not_le.mpr hlo]
  · by_cases hhi : i - 8 * k < 8
    · simp [hi, hlo, hhi, Nat.not_lt.mp hlo, show i < 8 * k + 8 by omega, show i - 8 * k < 32 by omega]
    · simp [hi, hlo, hhi, show ¬ i < 8 * k + 8 by omega, BitVec.getLsbD_of_ge b _ (Nat.not_lt.mp hhi)]

/-- Four bytes written to a register leave nothing of what it held. -/
theorem putByte_four (x : W32) (f : Nat → Byte) :
    putByte (putByte (putByte (putByte x 0 (f 0)) 1 (f 1)) 2 (f 2)) 3 (f 3)
      = BitVec.ofNat 32 (leVal ((List.range 4).map f)) := by
  refine BitVec.eq_of_getLsbD_eq fun i hi => ?_
  rw [putByte_getLsbD _ _ _ hi, putByte_getLsbD _ _ _ hi, putByte_getLsbD _ _ _ hi, putByte_getLsbD _ _ _ hi,
    BitVec.getLsbD_ofNat, leVal_testBit, decide_eq_true hi, Bool.true_and]
  obtain h | h | h | h : i / 8 = 0 ∨ i / 8 = 1 ∨ i / 8 = 2 ∨ i / 8 = 3 := by omega
  · rw [if_neg (by omega), if_neg (by omega), if_neg (by omega), if_pos (by omega), h]
    exact congrArg (f 0).getLsbD (by omega)
  · rw [if_neg (by omega), if_neg (by omega), if_pos (by omega), h]
    exact congrArg (f 1).getLsbD (by omega)
  · rw [if_neg (by omega), if_pos (by omega), h]
    exact congrArg (f 2).getLsbD (by omega)
  · rw [if_pos (by omega), h]
    exact congrArg (f 3).getLsbD (by omega)

theorem bytesAt_eq_map (b : Bytes) (off n : Nat) : bytesAt b off n = (List.range n).map fun i => b.getD (off + i) 0 := by
  refine List.ext_getElem (by simp [bytesAt]) fun i h _ => ?_
  simp only [bytesAt, List.length_append, List.length_take, List.length_drop, List.length_replicate] at h
  simp only [bytesAt, List.getElem_append, List.length_take, List.length_drop, List.getElem_take, List.getElem_drop,
    List.getElem_replicate, List.getElem_map, List.getElem_range, List.getD_eq_getElem?_getD]
  split
  · rw [List.getElem?_eq_getElem (by omega)]
    rfl
  · rw [List.getElem?_eq_none (by omega)]
    rfl

/-! ### One register written -/

/-- In `t` register `r` of lane `l` of gang `g` holds `x`, and nothing else differs from `s`. -/
structure State.WritesReg (s t : State) (g l r : Nat) (x : W32) : Prop where
  frame : s.sameBut t [.gangs]
  others : ∀ k, k ≠ g → t.gang k = s.gang k
  gang : t.gang g = { s.gang g with regs := (t.gang g).regs }
  has : s.hasGang g = true → ∀ k, t.hasGang k = s.hasGang k
  reg : ∀ m q, q < 256 → (t.gang g).reg m q = if m = l ∧ q = r then x else (s.gang g).reg m q

section Registers
variable {s t : State} {g l r : Nat} {x : W32}

theorem State.setReg_writesReg (hr : r < laRegs (s.cmd (s.gang g).cmd).block) (h : r < 256) (x : W32) :
    s.WritesReg (s.setReg g l r x) g l r x := by
  obtain ⟨-, hgang, hothers⟩ := s.setReg_onlyRegs g l r x
  refine ⟨s.setReg_sameBut g l r x, hothers, hgang, fun hg k => ?_, s.setReg_reg g l r x hr h⟩
  rw [State.setReg, if_pos hr, State.hasGang_updGang]
  split
  case isTrue hk => exact (hk ▸ hg).symm
  case isFalse => rfl

/-- A register written again holds what was written last. -/
theorem State.WritesReg.trans {u : State} {y : W32} (hst : s.WritesReg t g l r x) (htu : t.WritesReg u g l r y) :
    s.WritesReg u g l r y := by
  refine ⟨hst.frame.trans htu.frame, fun k hk => (htu.others k hk).trans (hst.others k hk), ?_, fun hg k => ?_,
    fun m q hq => ?_⟩
  · rw [htu.gang, hst.gang]
  · exact (htu.has ((hst.has hg g).trans hg) k).trans (hst.has hg k)
  · rw [htu.reg m q hq, hst.reg m q hq]
    split <;> rfl

theorem State.WritesReg.regs_eq (h : s.WritesReg t g l r x) :
    laRegs (t.cmd (t.gang g).cmd).block = laRegs (s.cmd (s.gang g).cmd).block := by
  rw [h.gang, State.cmd_of_cmds (h.frame .cmds (by decide))]

section Word
variable {a : LaneAcc} (hreg : a.reg < 255) (hr : a.reg < laRegs (s.cmd (s.gang g).cmd).block)
include hreg hr

theorem State.setRegByte_writesReg {i : Nat} (hi : i < 4) (b : Byte) :
    s.WritesReg (s.setRegByte g a i b) g a.lane.val a.reg (putByte ((s.gang g).reg a.lane.val a.reg) i b) := by
  rw [State.setRegByte, Nat.div_eq_of_lt hi, Nat.mod_eq_of_lt hi]
  exact State.setReg_writesReg hr (by omega) _

/-- A byte written behind others of the same register. -/
theorem State.WritesReg.setRegByte (h : s.WritesReg t g a.lane.val a.reg x) {i : Nat} (hi : i < 4) (b : Byte) :
    s.WritesReg (t.setRegByte g a i b) g a.lane.val a.reg (putByte x i b) := by
  have hbyte := State.setRegByte_writesReg (s := t) hreg (h.regs_eq ▸ hr) hi b
  rw [h.reg _ _ (by omega), if_pos ⟨rfl, rfl⟩] at hbyte
  exact h.trans hbyte

/-- The four bytes of a load of four bytes make its register. -/
theorem State.setRegByte_four (f : Nat → Byte) :
    s.WritesReg ((List.range 4).foldl (fun s i => s.setRegByte g a i (f i)) s) g a.lane.val a.reg
      (BitVec.ofNat 32 (leVal ((List.range 4).map f))) := by
  rw [← putByte_four ((s.gang g).reg a.lane.val a.reg), show List.range 4 = [0, 1, 2, 3] from rfl]
  simp only [List.foldl_cons, List.foldl_nil]
  exact (((State.setRegByte_writesReg hreg hr (by decide) (f 0)).setRegByte hreg hr (by decide) (f 1)).setRegByte hreg hr
    (by decide) (f 2)).setRegByte hreg hr (by decide) (f 3)

/-- A load of four bytes of a line is delivered to its register whole. -/
theorem State.deliver_word {tva : Nat} (hsize : a.size = 4) (hlo : tva / 128 * 128 ≤ a.addr.toNat)
    (hhi : a.addr.toNat + 4 ≤ tva / 128 * 128 + 128) (line : Bytes) :
    s.WritesReg (s.deliver g tva [a] line) g a.lane.val a.reg
      (BitVec.ofNat 32 (leVal (bytesAt line (a.addr.toNat - tva / 128 * 128) 4))) := by
  have hfree : s.freeReg g a = s := if_neg (by omega)
  have hin : ∀ (t : State), ∀ i ∈ List.range 4,
      (if tva / 128 * 128 ≤ a.addr.toNat + i ∧ a.addr.toNat + i < tva / 128 * 128 + 128
        then t.setRegByte g a i (line.getD (a.addr.toNat + i - tva / 128 * 128) 0) else t)
      = t.setRegByte g a i (line.getD (a.addr.toNat - tva / 128 * 128 + i) 0) := fun t i hi => by
    have hi4 := List.mem_range.mp hi
    rw [if_pos (by omega), show a.addr.toNat + i - tva / 128 * 128 = a.addr.toNat - tva / 128 * 128 + i by omega]
  have hdel : s.deliver g tva [a] line = (List.range 4).foldl
      (fun s i => s.setRegByte g a i (line.getD (a.addr.toNat - tva / 128 * 128 + i) 0)) s := by
    simp only [State.deliver, List.foldl_cons, List.foldl_nil, hfree, hsize]
    rw [if_pos (by omega)]
    exact List.foldl_ext _ _ _ hin
  rw [hdel, bytesAt_eq_map]
  exact State.setRegByte_four hreg hr _

end Word
end Registers

end Sys2Proof.Machine

/-! ## Accesses that L1 serves (O28) -/

namespace Sys2Proof.Machine

section L1Accesses
variable {s u : State} {g line : Nat} {accs : List LaneAcc} {r : Range} {l : L1Line}

/-- An access of four bytes that touches one line lies in it. -/
theorem within_of_linesOf {a : LaneAcc} (hsize : a.size = 4) (h : linesOf [a] = [line]) :
    128 * line ≤ a.addr.toNat ∧ a.addr.toNat + 4 ≤ 128 * line + 128 := by
  have hrem : ∀ n, n ≠ 0 → pieces 1 (a.addr.toNat + (4 - n)) n ≠ [] := fun n hn => by simp [pieces, hn]
  by_cases hfit : a.addr.toNat % 128 ≤ 124
  · have hpieces : linePieces a.addr.toNat 4 = [(a.addr.toNat, 4)] := by
      simp [linePieces, pieces, Nat.min_eq_left (show 4 ≤ 128 - a.addr.toNat % 128 by omega)]
    have hline : a.addr.toNat / 128 = line := by
      simpa [linesOf, hsize, hpieces, sortBy, insertBy, List.eraseDups_cons] using h
    omega
  · have hmin : min 4 (128 - a.addr.toNat % 128) = 128 - a.addr.toNat % 128 := by omega
    have hpieces : (linePieces a.addr.toNat 4).map (fun p => p.1 / 128) = [a.addr.toNat / 128, a.addr.toNat / 128 + 1] := by
      have hsnd : (a.addr.toNat + (128 - a.addr.toNat % 128)) / 128 = a.addr.toNat / 128 + 1 := by omega
      simp [linePieces, pieces, hmin, hsnd, show ¬ 4 - (128 - a.addr.toNat % 128) = 0 by omega]
    simp [linesOf, hsize, hpieces, sortBy, insertBy, List.eraseDups_cons] at h

/-- Where an instruction touches one line and nothing has stopped its launch, that line is all it does. -/
theorem overLines_one (f : State → Nat → State) (hgo : (s.cmd (s.gang g).cmd).stop.isSome = false) :
    overLines g f [line] s = f s line := by
  rw [overLines, if_neg (by simp [hgo]), overLines]

theorem State.doStorePlain_one (hlines : linesOf accs = [line]) (hgo : (s.cmd (s.gang g).cmd).stop.isSome = false) :
    s.doStorePlain g .tva accs = s.plainLine g accs line := by
  rw [State.doStorePlain, hlines, overLines_one _ hgo]

theorem State.doLoad_one (hlines : linesOf accs = [line]) (hgo : (s.cmd (s.gang g).cmd).stop.isSome = false) (vol : Bool) :
    s.doLoad g vol .tva accs = s.loadLine g vol accs line := by
  rw [State.doLoad, hlines, overLines_one _ hgo]

theorem State.setL1_begun (s : State) (b line : Nat) (l : L1Line) : s.begun.setL1 b line l = (s.setL1 b line l).begun := rfl

variable (hmap : findRange (s.slice (s.cmd (s.gang g).cmd).slice).defn.ranges (128 * line) = some r)
  (hl : Tbl.find? (s.bay (s.gang g).bay).l1 line = some l)
include hmap hl

theorem State.plainLine_held {v : Gang} (hv : s.gang g = v) (hwr : r.canWrite = true) (hroom : 0 < (s.bay v.bay).l1Lines) :
    s.plainLine g accs line = s.setL1 v.bay line
      { data := mergeBytes l.data (reqData (128 * line) accs) (reqMask (128 * line) accs)
        valid := l.valid ||| reqMask (128 * line) accs
        dirty := l.dirty ||| reqMask (128 * line) accs
        cmds := if l.cmds.contains v.cmd then l.cmds else l.cmds ++ [v.cmd] } := by
  subst hv
  simp only [State.plainLine, State.gangDpa_mapped (need := 1) hmap (by simp [hwr]), Nat.ne_of_gt hroom, if_false,
    State.l1Store, hl]
  rfl

theorem State.loadLine_held (hrd : r.canRead = true) (hvalid : reqMask (128 * line) accs &&& ~~~l.valid = 0) :
    s.loadLine g false accs line = s.deliver g (128 * line) (accsOn line accs) l.data := by
  simp only [State.loadLine, State.gangDpa_mapped (need := 0) hmap (by simp [hrd]), hl, lineMask, hvalid, if_true]
  rfl

end L1Accesses

/-- Settles O28: the line of the access is held, so a store merges into it and a load of a word takes it to its register. -/
theorem l1Accesses : Obligations.L1Accesses := by
  intro s g accs line r l hrun hlines hmaps v hl
  have hmap := hmaps line (List.mem_singleton.mpr rfl)
  have hgo : ((s.countInstr g).begun.cmd ((s.countInstr g).begun.gang g).cmd).stop.isSome = false := hrun.not_stopped
  refine ⟨fun hwr hroom hfilled => ?_, fun hrd hvalid a haccs hsize hr hreg => ?_⟩
  · have hstore := (State.doStorePlain_one hlines hgo).trans
      ((State.plainLine_held (s := (s.countInstr g).begun) hmap hl (v := v) rfl hwr hroom).trans (State.setL1_begun _ _ _ _))
    have hissue := State.issueMem_begun (f := fun u => u.doStorePlain g .tva accs) hrun hstore rfl rfl
    exact congrArg Host.Outcome.next ((State.issueStore_tva hfilled _).trans hissue)
  · subst haccs
    obtain ⟨hlo, hhi⟩ := within_of_linesOf hsize hlines
    have hload := State.loadLine_held (s := s.begun.countInstr g) (accs := [a]) hmap hl hrd hvalid
    have hon : accsOn line [a] = [a] := by
      simp [accsOn, overlap, hsize]
      omega
    have hbase : 128 * line / 128 * 128 = 128 * line := by omega
    have hword := State.deliver_word (s := s.begun.countInstr g) (tva := 128 * line) hreg hr hsize (by omega) (by omega) l.data
    rw [hon] at hload
    rw [hbase, show a.addr.toNat - 128 * line = a.addr.toNat % 128 by omega] at hword
    have hdo : (s.begun.countInstr g).doLoad g false .tva [a] = (s.begun.countInstr g).deliver g (128 * line) [a] l.data :=
      (State.doLoad_one hlines hgo false).trans hload
    obtain ⟨hframe, hothers, hgang, _, hregs⟩ := hword
    generalize (s.begun.countInstr g).deliver g (128 * line) [a] l.data = u at hdo hframe hothers hgang hregs
    have hsame := ((s.begun.countInstr_sameBut g false).mono (by decide)).trans
      (hframe.mono (by decide : ∀ p ∈ [Part.gangs], p ∈ [Part.gangs, .tel]))
    exact ⟨_, congrArg Host.Outcome.next (State.issueMem_quiet hrun hdo (hsame .flt (by decide)) (hsame .uc (by decide))),
      State.ended_sameBut hsame, hothers, hgang, hregs⟩

end Sys2Proof.Machine

/-! ## Replies and shield answers (O31) -/

namespace Sys2Proof.Machine

/-! ### A request leaves the books (R78, R221) -/

/-- In `t` request `rid` of `s`, of gang `g`, is settled: it is listed nowhere, no register has changed, and of the commands
only the ended gangs they await. -/
structure State.Settles (s t : State) (rid g : Nat) (failed : Bool) : Prop where
  frame : s.sameBut t [.cmds, .reqs, .gangs, .uc]
  unfailed : failed = false → t.cmds = s.cmds
  cmd : ∀ k, t.cmd k = { s.cmd k with ended := (t.cmd k).ended }
  gone : Tbl.find? t.reqs rid = none
  books : s.hasGang g = true → rid ∉ (t.gang g).loads ∧ rid ∉ (t.gang g).stores
  regs : ∀ k, (t.gang k).regs = (s.gang k).regs
  held : t.uc.held = s.uc.held

theorem State.Reactivates.refl (s : State) : s.Reactivates s := ⟨s.sameBut_refl _, fun _ => rfl, fun _ => rfl⟩

theorem State.dropReq_sameBut (s : State) (rid : Nat) : s.sameBut (s.dropReq rid) [.reqs] := by
  intro p hp
  cases p with
  | reqs => exact absurd (by decide) hp
  | _ => rfl

theorem State.gang_of_gangs {s t : State} (h : t.gangs = s.gangs) (k : Nat) : t.gang k = s.gang k := by
  rw [State.gang, State.gang, h]

section Settle
variable {s : State} {rid : Nat} {r : Req}

theorem State.settleReq_settles (hreq : Tbl.find? s.reqs rid = some r) (failed : Bool) :
    s.Settles (s.settleReq rid failed) rid r.gang failed := by
  unfold State.settleReq
  rw [hreq]
  dsimp -zeta only
  extract_lets s1 s2 caps s3 s4 v
  have h1 : s.sameBut s1 [.reqs] := s.dropReq_sameBut rid
  have hgone : Tbl.find? s1.reqs rid = none := (Tbl.find?_del _ _ _).trans (if_pos rfl)
  have hhas : s1.hasGang r.gang = s.hasGang r.gang := rfl
  have h2 : s1.sameBut s2 [.gangs] ∧ (∀ k, (s2.gang k).regs = (s1.gang k).regs) ∧
      (s1.hasGang r.gang = true → rid ∉ (s2.gang r.gang).loads ∧ rid ∉ (s2.gang r.gang).stores) := by
    simp only [s2]
    split
    · refine ⟨s1.updGang_sameBut _ _, fun k => ?_, fun _ => ?_⟩
      · rw [State.gang_updGang]
        split
        case isTrue h => exact h ▸ rfl
        case isFalse => rfl
      · rw [State.gang_updGang_same]
        simp
    · next hno => exact ⟨s1.sameBut_refl _, fun _ => rfl, fun h => absurd h hno⟩
  obtain ⟨h2, hregs, hbooks⟩ := h2
  have h3 : s2.sameBut s3 [.uc] := s2.withUc_sameBut _
  have hheld : s3.uc.held = s2.uc.held := rfl
  have h4 : s3.sameBut s4 [.cmds] ∧ (failed = false → s4.cmds = s3.cmds) ∧
      ∀ k, s4.cmd k = { s3.cmd k with ended := (s4.cmd k).ended } := by
    simp only [s4]
    split
    · next hf =>
      refine ⟨s3.setCmd_sameBut _ _, fun h => absurd (hf.symm.trans h) (by decide), fun k => ?_⟩
      rw [State.cmd_updCmd]
      split
      case isTrue h => exact h ▸ rfl
      case isFalse => rfl
    · exact ⟨s3.sameBut_refl _, fun _ => rfl, fun _ => rfl⟩
  obtain ⟨h4, hcmds, hcmd⟩ := h4
  have h23 : s1.sameBut s3 [.gangs, .uc] := (h2.mono (by decide)).trans (h3.mono (by decide))
  have h03 : s.sameBut s3 [.reqs, .gangs, .uc] := (h1.mono (by decide)).trans (h23.mono (by decide))
  clear_value s1 s2 s3 s4
  have hact : ∀ t, s4.Reactivates t → s.Settles t rid r.gang failed := by
    intro t ⟨hframe, hgang, _⟩
    have hcmdt : ∀ k, t.cmd k = s4.cmd k := State.cmd_of_cmds (hframe .cmds (by decide))
    have hgangs : ∀ k, s4.gang k = s2.gang k :=
      State.gang_of_gangs ((h4 .gangs (by decide)).trans (h3 .gangs (by decide)))
    refine ⟨(h03.mono (by decide)).trans ((h4.mono (by decide)).trans (hframe.mono (by decide))),
      fun hf => (hframe .cmds (by decide)).trans ((hcmds hf).trans (h03 .cmds (by decide))),
      fun k => ?_, ?_, fun hg => ?_, fun k => ?_, ?_⟩
    · rw [hcmdt, hcmd, State.cmd_of_cmds (h03 .cmds (by decide))]
    · have hreqs : t.reqs = s1.reqs := (hframe .reqs (by decide)).trans ((h4 .reqs (by decide)).trans (h23 .reqs (by decide)))
      exact (congrArg (Tbl.find? · rid) hreqs).trans hgone
    · rw [hgang, hgangs]
      exact hbooks (hhas.trans hg)
    · rw [hgang, hgangs]
      exact (hregs k).trans (congrArg Gang.regs (State.gang_of_gangs (h1 .gangs (by decide)) k))
    · have huc : t.uc = s3.uc := (hframe .uc (by decide)).trans (h4 .uc (by decide))
      rw [huc, hheld, h2 .uc (by decide), h1 .uc (by decide)]
  split
  · exact hact _ (State.reactivates_fillActive _ _ _)
  · exact hact _ (State.Reactivates.refl _)

/-- Settling a request as it should be leaves every command alone. -/
theorem State.Settles.sameBut {t : State} {g : Nat} (h : s.Settles t rid g false) : s.sameBut t [.reqs, .gangs, .uc] := by
  intro p hp
  cases p with
  | cmds => exact h.unfailed rfl
  | reqs | gangs | uc => exact absurd (by decide) hp
  | _ => exact h.frame _ (by decide)

/-! ### The steps that take a reply -/

variable (hpow : s.powered = true) (hreq : Tbl.find? s.reqs rid = some r)
include hreq

theorem State.doWriteAck_stale (hstale : s.stale r = true) : s.doWriteAck rid = s := by
  simp [State.doWriteAck, hreq, hstale]

theorem State.doReadReply_stale (hstale : s.stale r = true) (reply : HostReply) : s.doReadReply rid reply = s := by
  simp [State.doReadReply, hreq, hstale]

include hpow

theorem State.doWriteAck_ack (hfresh : s.stale r = false) (hlive : r.dead = false) (hkind : r.kind = .write)
    (hans : r.answer = some .ack) : s.doWriteAck rid = s.settleReq rid false := by
  simp [State.doWriteAck, hreq, hpow, hfresh, hlive, hkind, hans]

theorem State.doShieldAnswer_shield {d a : Nat} (hfresh : s.stale r = false) (hlive : r.dead = false)
    (hfirst : s.shieldFirst rid r = true) (hpark : r.parked = false) (hans : r.answer = some (.shield d a)) :
    s.doShieldAnswer rid = (s.stopCmd r.cmd { outcome := ocAborted, detail := d, arg := a }).settleReq rid true := by
  have hshield : s.shieldAns r = some (d, a) := by simp only [State.shieldAns, hans]
  simp [State.doShieldAnswer, State.takeShield, hreq, hpow, hfresh, hlive, hfirst, hpark, hshield]

theorem State.doStaleDiscard_stale (hpark : r.parked = false) (hans : r.answer.isSome = true) (hstale : s.stale r = true) :
    s.doStaleDiscard rid = { s.settleReq rid true with dev :=
      { (s.settleReq rid true).dev with staleCount := ((s.settleReq rid true).dev.staleCount + 1) % 2 ^ 64 } } := by
  simp [State.doStaleDiscard, hreq, hpow, hpark, hans, hstale]

theorem State.doReadReply_volatile {b : Bytes} (hfresh : s.stale r = false) (hlive : r.dead = false) (hpark : r.parked = false)
    (hdev : r.host = none) (hkind : r.kind = .read) (hvol : r.volatile = true) (hans : r.answer = some (.data b))
    (hgang : s.hasGang r.gang = true) (reply : HostReply) :
    s.doReadReply rid reply = (s.deliver r.gang r.tva r.accs b).settleReq rid false := by
  simp [State.doReadReply, State.deliverLoad, hreq, hpow, hfresh, hlive, hpark, hdev, hkind, hvol, hans, hgang]

end Settle

theorem State.withDev_sameBut (s : State) (v : Dev) : s.sameBut { s with dev := v } [.dev] := by
  intro p hp
  cases p with
  | dev => exact absurd (by decide) hp
  | _ => rfl

theorem State.cmd_stopCmd {s : State} {id : Nat} (hrun : (s.cmd id).live = true) (hstop : (s.cmd id).stop = none) (st : Stop) :
    (s.stopCmd id st).cmd id = { s.cmd id with stop := some st, phase := .finishing } := by
  rw [State.stopCmd, if_pos (by simp [hrun, hstop])]
  exact Tbl.get_set_same _ _ _ _

/-- Settles O31: an answer that is taken settles its request, behind the stop of its launch or the word it delivers; a stale
one is settled and counted where it is discarded, and taken nowhere else. -/
theorem replies : Obligations.Replies := by
  intro s rid r hpow hreq parts
  refine ⟨fun hfresh hlive hkind hans => ?_, fun hfresh hlive hfirst hpark d a hans hrun hstop => ?_,
    fun hpark hans hstale => ?_, fun hstale reply => ⟨?_, ?_⟩,
    fun hfresh hlive hpark hdev hkind hvol b a reply hans haccs hsize halign hlo hhi hgang hreg hr => ?_⟩
  · have hset := State.settleReq_settles hreq false
    exact ⟨_, congrArg Host.Outcome.next (State.doWriteAck_ack hpow hreq hfresh hlive hkind hans), hset.sameBut, hset.gone,
      fun hg => (hset.books hg).2⟩
  · have hstopped := s.stopCmd_sameBut r.cmd { outcome := ocAborted, detail := d, arg := a }
    have hset := State.settleReq_settles (s := s.stopCmd r.cmd { outcome := ocAborted, detail := d, arg := a })
      ((congrArg (Tbl.find? · rid) (hstopped .reqs (by decide))).trans hreq) true
    have hcmd := State.cmd_stopCmd hrun hstop { outcome := ocAborted, detail := d, arg := a }
    refine ⟨_, congrArg Host.Outcome.next (State.doShieldAnswer_shield hpow hreq hfresh hlive hfirst hpark hans),
      (hstopped.mono (by decide)).trans hset.frame, hset.gone, ?_, ?_⟩
    · rw [hset.cmd, hcmd]
    · rw [hset.cmd, hcmd]
  · have hset := State.settleReq_settles hreq true
    refine ⟨_, congrArg Host.Outcome.next (State.doStaleDiscard_stale hpow hreq hpark hans hstale),
      (hset.frame.mono (by decide)).trans ((State.withDev_sameBut _ _).mono (by decide)), hset.gone, ?_, hset.regs⟩
    dsimp only
    rw [hset.frame .dev (by decide)]
  · exact congrArg Host.Outcome.next (State.settled_unchanged
      (State.doReadReply_stale (s := s.begun) hreq hstale reply))
  · exact congrArg Host.Outcome.next (State.doWriteAck_stale hreq hstale)
  · have hbase : r.tva / 128 * 128 = r.tva := by omega
    have hword := State.deliver_word (s := s.begun) (g := r.gang) (tva := r.tva) hreg hr hsize (by omega) (by omega) b
    have hdo := State.doReadReply_volatile (s := s.begun) hpow hreq hfresh hlive hpark hdev hkind hvol hans hgang reply
    rw [haccs] at hdo
    rw [hbase] at hword
    generalize s.begun.deliver r.gang r.tva [a] b = u at hdo hword
    have hset := State.settleReq_settles (s := u) ((congrArg (Tbl.find? · rid) (hword.frame .reqs (by decide))).trans hreq) false
    refine ⟨_, congrArg Host.Outcome.next (State.settled_ended hdo ?_), State.ended_sameBut ?_, hset.gone,
      (hset.books ((hword.has hgang _).trans hgang)).1, fun m q hq => ?_⟩
    · exact hset.held.trans (congrArg Uc.held (hword.frame .uc (by decide)))
    · exact (hword.frame.mono (by decide)).trans (hset.sameBut.mono (by decide))
    · exact (congrArg (Tbl.get 0 · (256 * m + q)) (hset.regs r.gang)).trans (hword.reg m q hq)
end Sys2Proof.Machine

/-! ## The instructions of a gang (O30) -/

namespace Sys2Proof.Machine

/-! ### The mask stack (R120) -/

section Masks
variable {s : State} {g : Nat}

theorem State.doMaskPush_room {taken : W32} {rpc : BitVec 48}
    (hroom : (s.gang g).stack.length + (s.gang g).spilled < 16 + laSpill (s.cmd (s.gang g).cmd).block)
    (hshort : (s.gang g).stack.length < 16) :
    s.doMaskPush g taken rpc = s.updGang g fun v => { v with
      mask := v.mask &&& taken
      stack := { active := v.mask, pending := v.mask &&& ~~~taken, rpc := rpc } :: v.stack } := by
  unfold State.doMaskPush
  rw [if_neg (Nat.not_le.mpr hroom), if_pos hshort]
  rfl

theorem State.doMaskPush_spill {taken : W32} {rpc : BitVec 48} {old : MaskEntry}
    (hroom : (s.gang g).stack.length + (s.gang g).spilled < 16 + laSpill (s.cmd (s.gang g).cmd).block)
    (hfull : 16 ≤ (s.gang g).stack.length) (hold : (s.gang g).stack.getLast? = some old) :
    s.doMaskPush g taken rpc = (s.footWrite (s.gang g).bay (s.gang g).feet
        (laScratch (s.cmd (s.gang g).cmd).block + 16 * (s.gang g).spilled) old.bytes).updGang g fun v => { v with
      mask := v.mask &&& taken
      stack := { active := v.mask, pending := v.mask &&& ~~~taken, rpc := rpc } :: v.stack.dropLast
      spilled := v.spilled + 1 } := by
  unfold State.doMaskPush
  rw [if_neg (Nat.not_le.mpr hroom), if_neg (Nat.not_lt.mpr hfull), hold]
  rfl

variable {e : MaskEntry} {rest : List MaskEntry} (hstack : (s.gang g).stack = e :: rest)
include hstack

theorem State.doReconverge_pending (hpend : e.pending ≠ 0) :
    s.doReconverge g = s.updGang g fun v => { v with mask := e.pending, stack := { e with pending := 0 } :: rest } := by
  unfold State.doReconverge
  dsimp only
  rw [hstack]
  exact if_pos hpend

theorem State.doReconverge_pop (hpend : e.pending = 0) (hrest : rest ≠ [] ∨ (s.gang g).spilled = 0) :
    s.doReconverge g = s.updGang g fun v => { v with mask := e.active, stack := rest } := by
  unfold State.doReconverge
  dsimp only
  rw [hstack]
  refine (if_neg (not_not_intro hpend)).trans (if_neg fun ⟨hnil, hspill⟩ => ?_)
  exact hrest.elim (fun h => h hnil) fun h => absurd hspill (by omega)

theorem State.doReconverge_refill (hpend : e.pending = 0) (hrest : rest = []) (hspill : 0 < (s.gang g).spilled) :
    s.doReconverge g = s.updGang g fun v => { v with
      mask := e.active
      spilled := v.spilled - 1
      stack := [MaskEntry.ofBytes (s.footRead (s.gang g).bay (s.gang g).feet
        (laScratch (s.cmd (s.gang g).cmd).block + 16 * ((s.gang g).spilled - 1)) 16)] } := by
  unfold State.doReconverge
  dsimp only
  rw [hstack]
  exact (if_neg (not_not_intro hpend)).trans (if_pos ⟨hrest, hspill⟩)

end Masks

/-! ### One register of several lanes (R119) -/

theorem mem_bitList {w n l : Nat} : l ∈ bitList w n ↔ l < w ∧ n.testBit l = true := by
  simp [bitList, bitAt, Nat.testBit_eq_decide_div_mod_eq]

/-- In `t` register `d` of the lanes `ls` of gang `g` holds `val`, and nothing else differs from `s`. -/
structure State.WritesLanes (s t : State) (g d : Nat) (ls : List Nat) (val : Nat → W32) : Prop where
  frame : s.sameBut t [.gangs]
  others : ∀ k, k ≠ g → t.gang k = s.gang k
  gang : t.gang g = { s.gang g with regs := (t.gang g).regs }
  reg : ∀ m q, q < 256 → (t.gang g).reg m q = if m ∈ ls ∧ q = d then val m else (s.gang g).reg m q

section Lanes
variable {s : State} {g d : Nat} {ls : List Nat} {val : Nat → W32}

/-- Lanes written in turn, each by what its own registers say. -/
theorem foldl_setReg_writesLanes {f : State → Nat → W32} (hr : d < laRegs (s.cmd (s.gang g).cmd).block) (hd : d < 255)
    (hnodup : ls.Nodup)
    (hf : ∀ u, ∀ l ∈ ls, (∀ q, q < 256 → (u.gang g).reg l q = (s.gang g).reg l q) → f u l = val l) :
    s.WritesLanes (ls.foldl (fun s l => s.setReg g l d (f s l)) s) g d ls val := by
  induction ls generalizing s with
  | nil => exact ⟨s.sameBut_refl _, fun _ _ => rfl, rfl, fun m q _ => (if_neg (by simp)).symm⟩
  | cons l ls ih =>
    obtain ⟨hnot, hnodup⟩ := List.nodup_cons.mp hnodup
    have hone : s.WritesReg (s.setReg g l d (val l)) g l d (val l) := State.setReg_writesReg hr (by omega) _
    rw [List.foldl_cons, hf s l List.mem_cons_self fun _ _ => rfl]
    have hrest := ih (s := s.setReg g l d (val l)) (by rw [hone.regs_eq]; exact hr) hnodup fun u m hm hu =>
      hf u m (List.mem_cons_of_mem l hm) fun q hq => (hu q hq).trans
        ((hone.reg m q hq).trans (if_neg fun h : m = l ∧ q = d => hnot (h.1 ▸ hm)))
    refine ⟨hone.frame.trans hrest.frame, fun k hk => (hrest.others k hk).trans (hone.others k hk), ?_, fun m q hq => ?_⟩
    · rw [hrest.gang, hone.gang]
    · rw [hrest.reg m q hq, hone.reg m q hq]
      by_cases hm : m ∈ ls
      · simp only [hm, List.mem_cons_of_mem l hm, true_and, show m ≠ l from fun h => hnot (h ▸ hm), false_and, if_false]
      · by_cases hml : m = l
        · subst hml
          simp [hm]
        · simp [hm, hml]

theorem State.setLanes_writesLanes {f : State → Nat → W32} (hr : d < laRegs (s.cmd (s.gang g).cmd).block) (hd : d < 255)
    (hf : ∀ u l, (∀ q, q < 256 → (u.gang g).reg l q = (s.gang g).reg l q) → f u l = val l) :
    s.WritesLanes (s.setLanes g d f) g d (bitList 32 (s.gang g).mask.toNat) val :=
  foldl_setReg_writesLanes hr hd (List.Nodup.filter _ List.nodup_range) fun u l _ hu => hf u l hu

end Lanes

theorem State.withFree_sameBut (s : State) (n : Nat) : s.sameBut { s with free := n } [.free] := by
  intro p hp
  cases p with
  | free => exact absurd (by decide) hp
  | _ => rfl

/-- Writing free values to a register touches no other register. -/
theorem State.freeLanes_onlyRegs (s : State) (g d : Nat) : s.onlyRegs (s.freeLanes g d) g := by
  refine List.foldlRecOn (motive := fun t => s.onlyRegs t g) _ _ ⟨s.sameBut_refl _, rfl, fun _ _ => rfl⟩
    fun t ht l _ => ht.trans ?_
  obtain ⟨hframe, hgang, hothers⟩ := t.setReg_onlyRegs g l d (Config.freeWord t.free)
  exact ⟨hframe.trans ((State.withFree_sameBut _ _).mono (by decide)), hgang, hothers⟩

theorem State.setReg_reg_other (s : State) (g l r : Nat) (x : W32) (h : r < 256) {m q : Nat} (hq : q < 256)
    (hne : m ≠ l ∨ q ≠ r) : ((s.setReg g l r x).gang g).reg m q = (s.gang g).reg m q := by
  rw [State.setReg_gang]
  split
  · exact Tbl.get_set_ne _ _ _ (by omega)
  · rfl

theorem State.freeLanes_reg (s : State) (g : Nat) {d : Nat} (hd : d < 255) {m q : Nat} (hq : q < 256)
    (hne : 32 ≤ m ∨ (s.gang g).mask.getLsbD m = false ∨ q ≠ d) : ((s.freeLanes g d).gang g).reg m q = (s.gang g).reg m q := by
  refine List.foldlRecOn (motive := fun t : State => (t.gang g).reg m q = (s.gang g).reg m q) _ _ rfl
    fun t ht l hl => (t.setReg_reg_other g l d _ (by omega) hq ?_).trans ht
  obtain ⟨hl32, hbit⟩ := mem_bitList.mp hl
  obtain hm | hm | hqd := hne
  · exact .inl (by omega)
  · refine .inl fun h => ?_
    subst h
    exact absurd (hm.symm.trans hbit) (by decide)
  · exact .inr hqd

/-! ### Instructions that issue -/

/-- An instruction of which no source waits on a load issues. -/
theorem State.awaiting_filled {s : State} {g : Nat} {used : Nat × Nat → Bool} (h : ∀ e ∈ s.awaited g, used e = false)
    (f : State → State) : s.awaiting g used f = f s :=
  if_neg (by simpa using h)

section Issue
variable {s : State} {g : Nat}

theorem State.constant_behind {d off : Nat} (h : laConstLen (s.cmd (s.gang g).cmd).block < off + 4) :
    s.doConst g d off = s.freeLanes g d := if_pos h

section Constant
variable {v : Gang} {c : Cmd} (hv : s.gang g = v) (hc : s.cmd v.cmd = c) {d off : Nat} {x : Bytes}
  (h : off + 4 ≤ laConstLen c.block)
include hv hc h

theorem State.constant_held (hx : Tbl.find? (s.bay v.bay).ccache ((laConst c.block + off) / 128) = some x) :
    s.doConst g d off = s.setLanes g d fun _ _ => BitVec.ofNat 32 (leAt x ((laConst c.block + off) % 128) 4) := by
  subst hv hc
  unfold State.doConst
  rw [if_neg (Nat.not_lt.mpr h)]
  dsimp only
  rw [hx, Option.isSome_some, if_pos rfl, hx]

theorem State.constant_miss (hmiss : Tbl.find? (s.bay v.bay).ccache ((laConst c.block + off) / 128) = none)
    (hx : Tbl.find? ((s.constMiss v.cmd v.bay ((laConst c.block + off) / 128)).bay v.bay).ccache
      ((laConst c.block + off) / 128) = some x) :
    s.doConst g d off = (s.constMiss v.cmd v.bay ((laConst c.block + off) / 128)).setLanes g d fun _ _ =>
      BitVec.ofNat 32 (leAt x ((laConst c.block + off) % 128) 4) := by
  subst hv hc
  unfold State.doConst
  rw [if_neg (Nat.not_lt.mpr h)]
  dsimp only
  rw [hmiss, Option.isSome_none, if_neg (by decide), hx]

end Constant

theorem State.gang_doLane_scalar (s : State) (g d k : Nat) : (s.doLane g (.scalar d)).gang k =
    if k = g then { s.gang g with scalars := Tbl.set 0 (s.gang g).scalars d (Config.freeWord s.free) } else s.gang k :=
  s.gang_updGang g k fun v => { v with scalars := Tbl.set 0 v.scalars d (Config.freeWord s.free) }

theorem State.doLane_scalar_sameBut (s : State) (g d : Nat) : s.sameBut (s.doLane g (.scalar d)) [.gangs, .free] :=
  ((s.updGang_sameBut g _).mono (by decide)).trans ((State.withFree_sameBut _ _).mono (by decide))

theorem State.doScratch_store {off size : Nat} {lane : Fin 32} {data : Bytes}
    (h : off + size ≤ laScratch (s.cmd (s.gang g).cmd).block) (hlen : data.length = size) :
    s.doScratch g off size lane (.store data) = s.footWrite (s.gang g).bay (s.gang g).feet off data := by
  unfold State.doScratch
  rw [if_neg (Nat.not_lt.mpr h)]
  dsimp only
  rw [bytesAt_whole hlen]

theorem State.doScratch_load {off r : Nat} {lane : Fin 32} (h : off + 4 ≤ laScratch (s.cmd (s.gang g).cmd).block)
    (hr : r < laRegs (s.cmd (s.gang g).cmd).block) (hreg : r < 255) :
    s.WritesReg (s.doScratch g off 4 lane (.load r)) g lane.val r
      (BitVec.ofNat 32 (leVal (s.footRead (s.gang g).bay (s.gang g).feet off 4))) := by
  have hwhole : s.footRead (s.gang g).bay (s.gang g).feet off 4
      = (List.range 4).map fun i => (s.footRead (s.gang g).bay (s.gang g).feet off 4).getD i 0 := by
    have hmap := bytesAt_eq_map (s.footRead (s.gang g).bay (s.gang g).feet off 4) 0 4
    rw [bytesAt_whole (by simp [State.footRead])] at hmap
    simpa using hmap
  rw [hwhole]
  unfold State.doScratch
  rw [if_neg (Nat.not_lt.mpr h)]
  exact State.setRegByte_four (a := { lane := lane, addr := 0, size := 4, reg := r }) hreg hr _

/-- What an instruction of a running gang leaves, where it takes no injection. -/
theorem State.issue_leaves {u : State} {f : State → State} {lane : Bool} (hrun : s.runsGang g)
    (hf : f (s.countInstr g lane) = u) (hflt : u.flt = s.flt) : s.issue g f lane = u :=
  (State.issue_eq hrun f (by rw [hf, hflt])).trans hf

section Fetch
variable {v : Gang} {c : Cmd} {off tva key : Nat} (hv : s.gang g = v) (hc : s.cmd v.cmd = c)
  (htva : (laCode c.block + off) / 128 * 128 = tva) (hkey : v.core * 2 ^ 50 + tva / 128 = key)
include hv hc htva hkey

theorem State.doInstrFetch_held (h : (Tbl.find? (s.bay v.bay).icache key).isSome = true) : s.doInstrFetch g off = s := by
  subst hv hc htva hkey
  exact if_pos h

theorem State.doInstrFetch_read {r : Range} {t : State} {b : Bytes} (hmiss : Tbl.find? (s.bay v.bay).icache key = none)
    (hmap : findRange (s.slice c.slice).defn.ranges tva = some r) (hexec : r.canExec = true)
    (hread : (s.onBehalf v.cmd).lineRead (r.toDpa tva) 15 (placeOf (unitBay v.bay)) false = (t, .data b false)) :
    s.doInstrFetch g off =
      (t.roRoom (t.bay v.bay).icache (fun k => decide (k / 2 ^ 50 = v.core)) icacheLines).2.updBay v.bay fun x => { x with
        icache := Tbl.put (t.roRoom (t.bay v.bay).icache (fun k => decide (k / 2 ^ 50 = v.core)) icacheLines).1 key b } := by
  have hread' : (s.onBehalf v.cmd).lineRead (r.toDpa tva) 15 (placeOf (s.agentOn v.cmd v.bay).unit) false
    = (t, .data b false) := hread
  subst hv hc htva hkey
  unfold State.doInstrFetch
  dsimp only
  rw [hmiss, Option.isSome_none, if_neg (by decide), hmap]
  dsimp only
  rw [hexec, Bool.not_true, if_neg (by decide), hread']
  rfl

end Fetch

section Memory
variable {v : Gang} {c : Cmd} (hrun : s.runsGang g) (hv : s.gang g = v) (hc : s.cmd v.cmd = c)
include hrun hv hc

/-- A constant that no cache holds: its line is fetched, and what the instruction leaves is settled. -/
theorem State.issueMem_constMiss {d off : Nat} {x : Bytes} {t w : State} (h : off + 4 ≤ laConstLen c.block)
    (hmiss : Tbl.find? (s.bay v.bay).ccache ((laConst c.block + off) / 128) = none)
    (ht : (s.begun.countInstr g).constMiss v.cmd v.bay ((laConst c.block + off) / 128) = t)
    (hx : Tbl.find? (t.bay v.bay).ccache ((laConst c.block + off) / 128) = some x)
    (hw : (t.setLanes g d fun _ _ => BitVec.ofNat 32 (leAt x ((laConst c.block + off) % 128) 4)).bayWrite v.cmd v.bay = w)
    (hheld : w.uc.held = false) : (s.issueMem g fun u => u.doConst g d off) = s.ended w := by
  subst hv hc ht hw
  have hdo := State.constant_miss (s := s.begun.countInstr g) (g := g) (d := d) rfl rfl h hmiss hx
  exact State.issueMem_eq hrun _ (congrArg (fun u : State => u.bayWrite (s.gang g).cmd (s.gang g).bay) hdo) hheld

/-- Code that no cache holds: its line is read, and what the fetch leaves is settled. -/
theorem State.issueMem_fetchMiss {off tva key : Nat} {r : Range} {t w : State} {b : Bytes}
    (htva : (laCode c.block + off) / 128 * 128 = tva) (hkey : v.core * 2 ^ 50 + tva / 128 = key)
    (hmiss : Tbl.find? (s.bay v.bay).icache key = none)
    (hmap : findRange (s.slice c.slice).defn.ranges tva = some r) (hexec : r.canExec = true)
    (hread : ((s.begun.countInstr g).onBehalf v.cmd).lineRead (r.toDpa tva) 15 (placeOf (unitBay v.bay)) false
      = (t, .data b false))
    (hw : ((t.roRoom (t.bay v.bay).icache (fun k => decide (k / 2 ^ 50 = v.core)) icacheLines).2.updBay v.bay fun x => { x with
        icache := Tbl.put (t.roRoom (t.bay v.bay).icache (fun k => decide (k / 2 ^ 50 = v.core)) icacheLines).1 key b }).bayWrite
          v.cmd v.bay = w) (hheld : w.uc.held = false) : (s.issueMem g fun u => u.doInstrFetch g off) = s.ended w := by
  subst hv hc hw
  have hdo := State.doInstrFetch_read (s := s.begun.countInstr g) (g := g) rfl rfl htva hkey hmiss hmap hexec hread
  exact State.issueMem_eq hrun _ (congrArg (fun u : State => u.bayWrite (s.gang g).cmd (s.gang g).bay) hdo) hheld

end Memory

section Rules
variable {taken : W32} {rpc : BitVec 48} {e : MaskEntry} {rest : List MaskEntry} (hrun : s.runsGang g)
include hrun

theorem State.exec_maskPush_room
    (hroom : (s.gang g).stack.length + (s.gang g).spilled < 16 + laSpill (s.cmd (s.gang g).cmd).block)
    (hshort : (s.gang g).stack.length < 16) :
    exec (.maskPush g taken rpc) s = .next ((s.countInstr g).updGang g fun v => { v with
      mask := v.mask &&& taken
      stack := { active := v.mask, pending := v.mask &&& ~~~taken, rpc := rpc } :: v.stack }) :=
  congrArg Host.Outcome.next
    (State.issue_leaves hrun (State.doMaskPush_room (s := s.countInstr g) (g := g) hroom hshort) rfl)

theorem State.exec_maskPush_spill {old : MaskEntry}
    (hroom : (s.gang g).stack.length + (s.gang g).spilled < 16 + laSpill (s.cmd (s.gang g).cmd).block)
    (hfull : 16 ≤ (s.gang g).stack.length) (hold : (s.gang g).stack.getLast? = some old) :
    exec (.maskPush g taken rpc) s = .next (((s.countInstr g).footWrite (s.gang g).bay (s.gang g).feet
        (laScratch (s.cmd (s.gang g).cmd).block + 16 * (s.gang g).spilled) old.bytes).updGang g fun v => { v with
      mask := v.mask &&& taken
      stack := { active := v.mask, pending := v.mask &&& ~~~taken, rpc := rpc } :: v.stack.dropLast
      spilled := v.spilled + 1 }) :=
  congrArg Host.Outcome.next
    (State.issue_leaves hrun (State.doMaskPush_spill (s := s.countInstr g) (g := g) hroom hfull hold) rfl)

theorem State.exec_maskReconverge {u : State} (h : (s.countInstr g).doReconverge g = u)
    (hflt : u.flt = (s.countInstr g).flt) : exec (.maskReconverge g) s = .next u :=
  congrArg Host.Outcome.next (State.issue_leaves hrun h hflt)

end Rules

/-- Writing one register of the active lanes, behind the count of the instruction. -/
theorem State.WritesLanes.counted {t : State} {lane : Bool} {d : Nat} {ls : List Nat} {val : Nat → W32}
    (h : (s.countInstr g lane).WritesLanes t g d ls val) : s.sameBut t [.gangs, .tel] :=
  ((s.countInstr_sameBut g lane).mono (by decide)).trans (h.frame.mono (by decide))

theorem State.WritesReg.counted {t : State} {lane : Bool} {l r : Nat} {x : W32}
    (h : (s.countInstr g lane).WritesReg t g l r x) : s.sameBut t [.gangs, .tel] :=
  ((s.countInstr_sameBut g lane).mono (by decide)).trans (h.frame.mono (by decide))

theorem State.onlyRegs_freeLanes (lane : Bool) (d : Nat) : s.onlyRegs ((s.countInstr g lane).freeLanes g d) g := by
  obtain ⟨hframe, hgang, hothers⟩ := (s.countInstr g lane).freeLanes_onlyRegs g d
  exact ⟨((s.countInstr_sameBut g lane).mono (by decide)).trans hframe, hgang, hothers⟩

end Issue

/-- Settles O30: each instruction of a running gang is its effect behind the count of the instruction. -/
theorem gangInstructions : Obligations.GangInstructions := by
  refine ⟨?_, ?_⟩
  · intro s g hrun v room
    refine ⟨fun taken rpc => ?_, fun e rest hstack => ⟨fun hpend => ?_, fun hpend hrest => ?_, fun hpend hrest hspill => ?_⟩⟩
    · intro e
      exact ⟨fun hroom hshort => State.exec_maskPush_room hrun hroom hshort,
        fun hroom hfull old hold => State.exec_maskPush_spill hrun hroom hfull hold⟩
    · exact State.exec_maskReconverge hrun (State.doReconverge_pending (s := s.countInstr g) (g := g) hstack hpend) rfl
    · exact State.exec_maskReconverge hrun (State.doReconverge_pop (s := s.countInstr g) (g := g) hstack hpend hrest) rfl
    · exact State.exec_maskReconverge hrun (State.doReconverge_refill (s := s.countInstr g) (g := g) hstack hpend hrest hspill) rfl
  · intro s g hrun v c
    refine ⟨fun d x y z hr hd hx hy hz hfilled => ?_, fun d srcs hr hd hfilled => ?_, fun d => ?_, fun d offset hr hd => ?_,
      fun off size lane data hfit hlen => ?_, fun off lane r hfit hr hreg => ?_, fun offset => ?_⟩
    · have hsrc : ∀ e ∈ s.awaited g, (laneSources (.fma d x y z)).contains e.2 = false := fun e he => by
        obtain ⟨hex, hey, hez⟩ := hfilled e he
        simp [laneSources, hex, hey, hez]
      have hlanes := State.setLanes_writesLanes (s := s.countInstr g true) (g := g) (d := d)
        (f := fun s l => BitVec.ofNat 32 (f32Fma ((s.gang g).reg l x).toNat ((s.gang g).reg l y).toNat ((s.gang g).reg l z).toNat))
        (val := fun l => BitVec.ofNat 32 (f32Fma (v.reg l x).toNat (v.reg l y).toNat (v.reg l z).toNat)) hr hd
        fun u l hu => by rw [hu x (by omega), hu y (by omega), hu z (by omega)]; rfl
      refine ⟨_, congrArg Host.Outcome.next ((State.awaiting_filled hsrc _).trans
        (State.issue_leaves hrun rfl (hlanes.counted .flt (by decide)))), hlanes.counted, hlanes.gang, hlanes.others,
        fun l r hr256 => (hlanes.reg l r hr256).trans ?_⟩
      simp only [mem_bitList, and_assoc]
      rfl
    · have hsrc : ∀ e ∈ s.awaited g, (laneSources (.lane d srcs)).contains e.2 = false := fun e he => by
        simpa [laneSources] using hfilled e he
      have honly := State.onlyRegs_freeLanes (s := s) (g := g) true d
      exact ⟨_, congrArg Host.Outcome.next ((State.awaiting_filled hsrc _).trans
        (State.issue_leaves hrun rfl (honly.1 .flt (by decide)))), honly, fun l r hr256 hne =>
          State.freeLanes_reg (s.countInstr g true) g hd hr256 hne⟩
    · have hsrc : ∀ e ∈ s.awaited g, (laneSources (.scalar d)).contains e.2 = false := fun _ _ => rfl
      have hgang := (s.countInstr g).gang_doLane_scalar g d
      have hsame := ((s.countInstr_sameBut g false).mono (by decide)).trans
        (((s.countInstr g).doLane_scalar_sameBut g d).mono (by decide : ∀ p ∈ [Part.gangs, .free], p ∈ [Part.gangs, .tel, .free]))
      have hown := (hgang g).trans (if_pos rfl)
      generalize hu : (s.countInstr g).doLane g (.scalar d) = u at hgang hsame hown
      refine ⟨_, congrArg Host.Outcome.next ((State.awaiting_filled hsrc _).trans
        (State.issue_leaves hrun hu (hsame .flt (by decide)))), hsame, ?_, fun k hk => (hgang k).trans (if_neg hk), fun k hk => ?_⟩
      · rw [hown]
        rfl
      · rw [hown]
        exact Tbl.get_set_ne _ _ _ hk
    · intro a
      have hsrc : ∀ e ∈ s.awaited g, (laneSources (.constant d offset)).contains e.2 = false := fun _ _ => rfl
      have hissue : s.doLaneArithmetic g (.constant d offset) = s.issueMem g fun u => u.doConst g d offset.toNat :=
        State.awaiting_filled hsrc _
      refine ⟨fun hbehind => ?_, fun hin x hx => ?_, fun hin hmiss => ?_⟩
      · obtain ⟨hframe, hgang, hothers⟩ := State.onlyRegs_freeLanes (s := s.begun) (g := g) false d
        exact ⟨_, congrArg Host.Outcome.next (hissue.trans (State.issueMem_quiet hrun
          (State.constant_behind (s := s.begun.countInstr g) hbehind) (hframe .flt (by decide)) (hframe .uc (by decide)))),
          ⟨State.ended_sameBut hframe, hgang, hothers⟩, fun l r hr256 hne =>
            State.freeLanes_reg (s.begun.countInstr g) g hd hr256 hne⟩
      · have hlanes := State.setLanes_writesLanes (s := s.begun.countInstr g) (g := g) (d := d)
          (f := fun _ _ => BitVec.ofNat 32 (leAt x (a % 128) 4)) (val := fun _ => BitVec.ofNat 32 (leAt x (a % 128) 4)) hr hd
          fun _ _ _ => rfl
        have hdo := State.constant_held (s := s.begun.countInstr g) (v := v) (c := c) rfl rfl (d := d) hin hx
        have hframe := hlanes.counted
        generalize (s.begun.countInstr g).setLanes g d _ = u at hdo hlanes hframe
        refine ⟨_, congrArg Host.Outcome.next (hissue.trans (State.issueMem_quiet hrun hdo (hframe .flt (by decide))
          (hframe .uc (by decide)))),
          ⟨State.ended_sameBut (hframe.mono (by decide)), hlanes.gang, hlanes.others⟩, fun l r hr256 =>
            (hlanes.reg l r hr256).trans ?_⟩
        simp only [mem_bitList, and_assoc]
        rfl
      · intro t x hx w hheld
        exact congrArg Host.Outcome.next
          (hissue.trans (State.issueMem_constMiss hrun rfl rfl hin hmiss (t := t) rfl hx (w := w) rfl hheld))
    · exact congrArg Host.Outcome.next
        (State.issue_leaves hrun (State.doScratch_store (s := s.countInstr g) hfit hlen) rfl)
    · have hload := State.doScratch_load (s := s.countInstr g) (lane := lane) hfit hr hreg
      exact ⟨_, congrArg Host.Outcome.next (State.issue_leaves hrun rfl (hload.counted .flt (by decide))), hload.counted,
        hload.gang, hload.others, hload.reg⟩
    · intro tva key
      refine ⟨fun hheld => ?_, fun r t b hmiss hmap hexec hread => ?_⟩
      · exact congrArg Host.Outcome.next (State.issueMem_begun hrun (State.doInstrFetch_held (s := (s.countInstr g).begun)
          (v := v) (c := c) (tva := tva) (key := key) rfl rfl rfl rfl hheld) rfl rfl)
      · intro room w hheld
        exact congrArg Host.Outcome.next (State.issueMem_fetchMiss hrun (v := v) (c := c) rfl rfl (tva := tva) rfl
          (key := key) rfl hmiss hmap hexec hread (w := w) rfl hheld)

end Sys2Proof.Machine

/-! ## Tenant resets (O38) -/

namespace Sys2Proof.Machine

/-! ### Who holds a bay while a slice changes -/

/-- Where the value at a key is sought, an entry is found. -/
theorem Tbl.find_isSome_of_get {α : Type} {d : α} {t : Tbl α} {i : Nat} {q : α → Bool} (hd : q d = false)
    (h : q (Tbl.get d t i) = true) : (List.find? (fun e => q e.2) t).isSome = true := by
  induction t with
  | nil => exact absurd (hd.symm.trans h) (by decide)
  | cons e t ih =>
    obtain ⟨k, x⟩ := e
    rw [List.find?_cons]
    rw [Tbl.get] at h
    split at h
    · rw [h]
      rfl
    · split
      · rfl
      · exact ih h

/-- Writing at key `i` a value that is sought as the old one was finds the same key, or `i` where a key was found. -/
theorem Tbl.find_put {α : Type} {d w : α} {t : Tbl α} {i : Nat} {q : α → Bool} (hd : q d = false)
    (hw : q w = q (Tbl.get d t i)) :
    (List.find? (fun e => q e.2) (Tbl.put t i w)).map (·.1) = (List.find? (fun e => q e.2) t).map (·.1) ∨
      (List.find? (fun e => q e.2) t).isSome = true ∧
        (List.find? (fun e => q e.2) (Tbl.put t i w)).map (·.1) = some i := by
  induction t with
  | nil => exact .inl (by rw [Tbl.put, List.find?_cons, hw.trans hd])
  | cons e t ih =>
    obtain ⟨k, x⟩ := e
    by_cases heq : i = k
    · subst heq
      rw [Tbl.get, if_pos rfl] at hw
      rw [Tbl.put, if_pos rfl, List.find?_cons, List.find?_cons]
      dsimp only
      rw [hw]
      cases q x <;> exact .inl rfl
    · by_cases hlt : i < k
      · rw [Tbl.put, if_neg heq, if_pos hlt, List.find?_cons (a := (i, w))]
        split
        · next hqw => exact .inr ⟨Tbl.find_isSome_of_get hd (hw ▸ hqw), rfl⟩
        · exact .inl rfl
      · rw [Tbl.get, if_neg heq] at hw
        rw [Tbl.put, if_neg heq, if_neg hlt, List.find?_cons, List.find?_cons]
        split
        · exact .inl rfl
        · exact ih hw

/-- A slice keeps the bays it holds while its definition stays. -/
theorem State.bayHolder_updSlice {s : State} {i b : Nat} {f : Slice → Slice} (hdef : (f (s.slice i)).defn = (s.slice i).defn)
    (hne : f (s.slice i) ≠ {}) (h : s.bayHolder b = some i) : (s.updSlice i f).bayHolder b = some i := by
  have hslices : (s.updSlice i f).slices = Tbl.put s.slices i (f (s.slice i)) := if_neg hne
  have hput : (s.updSlice i f).dedicatedTo b = s.dedicatedTo b ∨
      (s.dedicatedTo b).isSome = true ∧ (s.updSlice i f).dedicatedTo b = some i := by
    simp only [State.dedicatedTo, hslices, Option.isSome_map]
    exact Tbl.find_put (d := {}) (q := fun v : Slice => bitAt v.defn.dedicated b) (by simp [bitAt])
      (congrArg (fun x => bitAt x.dedicated b) hdef)
  unfold State.bayHolder at h ⊢
  obtain hsame | ⟨hsome, hi⟩ := hput
  · rw [hsame]
    exact h
  · rw [hi]

section TenantReset
variable {s : State} {i : Nat}

/-- A slice whose reset begins with no command to end. -/
def Slice.beginReset (v : Slice) : Slice :=
  { v with reset := .running, tenantEpoch := v.tenantEpoch + 1, resetDropped := 0, resetAborted := 0 }

/-- With nothing of the tenant's in flight its reset only closes the shield, clears the streams and zeroes the bays. -/
theorem State.beginTenantReset_idle (hcmds : s.cmds = []) (hreqs : s.reqs = []) (houts : s.sweld.outs = []) (m : Bool) :
    s.beginTenantReset i m = (((s.noteStart domTenant i m).updSlice i Slice.beginReset).clearStreams
      fun c => decide (c.slice = i)).zeroBaysOf i := by
  have hcmds' : (s.noteStart domTenant i m).cmds = [] := hcmds
  have hreqs' : (s.noteStart domTenant i m).reqs = [] := hreqs
  have houts' : (s.noteStart domTenant i m).sweld.outs = [] := houts
  simp only [State.beginTenantReset, State.landReqs, State.abortSends, hcmds', hreqs', houts', List.filter_nil, List.map_nil,
    List.foldl_nil, List.length_nil, State.updSlice_sweld]
  rfl

theorem State.zeroBaysOf_sameBut (s : State) (i : Nat) : s.sameBut (s.zeroBaysOf i) [.bays] :=
  foldl_sameBut (fun s b => by split; exacts [s.updBay_sameBut b _, s.sameBut_refl _]) _ s

/-- Zeroing of one bay, where the slice holds it. -/
def State.zeroBayOf (s : State) (i b : Nat) : State :=
  if s.bayHolder b = some i then s.updBay b (fun v => { v with l1 := [], scratch := [] }) else s

theorem State.bay_zeroBayOf_other (s : State) (i : Nat) {a b : Nat} (h : b ≠ a) : (s.zeroBayOf i a).bay b = s.bay b := by
  unfold State.zeroBayOf
  split
  · exact (State.bay_updBay s a b _).trans (if_neg h)
  · rfl

theorem State.bay_zeroBayOf_own {b : Nat} (h : s.bayHolder b = some i) :
    ((s.zeroBayOf i b).bay b).l1 = [] ∧ ((s.zeroBayOf i b).bay b).scratch = [] := by
  rw [State.zeroBayOf, if_pos h, State.bay_updBay_same]
  exact ⟨rfl, rfl⟩

theorem State.bayHolder_zeroBayOf_other (s : State) (i : Nat) {a b : Nat} (h : b ≠ a) :
    (s.zeroBayOf i a).bayHolder b = s.bayHolder b := by
  have hded : (s.zeroBayOf i a).dedicatedTo b = s.dedicatedTo b := by
    unfold State.zeroBayOf
    split <;> rfl
  rw [State.bayHolder, hded, State.bay_zeroBayOf_other s i h, State.bayHolder]

/-- A bay among those that zeroing visits, and that the slice holds, is left without lines and scratch. -/
theorem foldl_zeroBayOf {l : List Nat} (hl : l.Nodup) {b : Nat} (hb : b ∈ l) (h : s.bayHolder b = some i) :
    ((l.foldl (fun s b => s.zeroBayOf i b) s).bay b).l1 = [] ∧
      ((l.foldl (fun s b => s.zeroBayOf i b) s).bay b).scratch = [] := by
  have hkeep : ∀ (l : List Nat) (s : State), b ∉ l → (l.foldl (fun s b => s.zeroBayOf i b) s).bay b = s.bay b :=
    fun l s hnot => List.foldlRecOn (motive := fun t : State => t.bay b = s.bay b) l _ rfl fun t ht a ha =>
      (t.bay_zeroBayOf_other i fun h : b = a => hnot (h ▸ ha)).trans ht
  induction l generalizing s with
  | nil => exact absurd hb List.not_mem_nil
  | cons a l ih =>
    obtain ⟨hnot, hl⟩ := List.nodup_cons.mp hl
    rw [List.foldl_cons]
    by_cases hba : b = a
    · subst hba
      rw [hkeep l _ hnot]
      exact State.bay_zeroBayOf_own h
    · exact ih hl ((List.mem_cons.mp hb).resolve_left hba) ((s.bayHolder_zeroBayOf_other i hba).trans h)

end TenantReset

/-- Settles O38: the manager's request merges, is held or begins as the slice stands, and a begun reset of an idle tenant is
its four effects in turn. -/
theorem tenantReset : Obligations.TenantReset := by
  intro s i u v
  refine ⟨fun hstop hreset => ?_, fun hstop hreset hmay => ?_, fun hstop hreset hmay => ?_, fun hpow hheld hmay => ⟨?_, ?_⟩,
    fun m hcmds hreqs houts => ?_⟩
  · have hdo : s.doTenantReset i.toNat (.manager u) = s.mergeReset :=
      (if_neg (by simp [hstop])).trans (if_pos hreset)
    exact congrArg Host.Outcome.next hdo
  · have hdo : s.doTenantReset i.toNat (.manager u) = { s.updSlice i.toNat (fun v => { v with reset := .held }) with
        dev := { s.dev with started := s.dev.started ++ [resetKey domTenant i.toNat] } } :=
      (if_neg (by simp [hstop])).trans ((if_neg (not_not_intro hreset)).trans (if_neg (by simp [hmay])))
    have hslice := State.slice_updSlice s i.toNat (f := fun v => { v with reset := .held })
    refine ⟨_, congrArg Host.Outcome.next hdo, ?_, (hslice _).trans (if_pos rfl), fun k hk => (hslice k).trans (if_neg hk)⟩
    exact ((State.updSlice_sameBut s _ _).mono (by decide)).trans ((State.withDev_sameBut _ _).mono (by decide))
  · have hdo : s.doTenantReset i.toNat (.manager u) = s.beginTenantReset i.toNat true :=
      (if_neg (by simp [hstop])).trans ((if_neg (not_not_intro hreset)).trans (if_pos hmay))
    exact congrArg Host.Outcome.next hdo
  · exact congrArg Host.Outcome.next (if_pos (by simp [hpow, hmay, show (s.slice i.toNat).reset = .held from hheld]))
  · exact congrArg Host.Outcome.next (if_pos (by simp [hpow, hmay, show (s.slice i.toNat).reset = .held from hheld]))
  · intro t
    have ht : t = _ := State.beginTenantReset_idle hcmds hreqs houts m
    have hslice : ∀ k, t.slice k = ((s.noteStart domTenant i.toNat m).updSlice i.toNat Slice.beginReset).slice k :=
        fun k => by
      rw [ht]
      exact State.slice_of_slices (State.zeroBaysOf_sameBut _ _ .slices (by decide)) k
    have hown := (hslice i.toNat).trans ((State.slice_updSlice _ _ _ _).trans (if_pos rfl))
    refine ⟨congrArg Slice.reset hown, congrArg Slice.tenantEpoch hown, fun b hb hholder => ?_, fun k hk => ?_⟩
    · have hkeep : ((s.noteStart domTenant i.toNat m).updSlice i.toNat Slice.beginReset).bayHolder b = some i.toNat :=
        State.bayHolder_updSlice rfl (fun h => absurd (congrArg Slice.reset h) (by decide : ResetPhase.running ≠ .none)) hholder
      rw [ht]
      exact foldl_zeroBayOf List.nodup_range (List.mem_range.mpr hb) hkeep
    · exact (hslice k).trans ((State.slice_updSlice _ _ _ _).trans (if_neg hk))

end Sys2Proof.Machine

/-! ## Bay, channel, die and port resets (O37) -/

namespace Sys2Proof.Machine

/-- Port 0 drains for a POWER_OFF, and its last stream is still open. -/
def drainingPort : State :=
  { pins := { pwrGood := true }
    sweld := { ports := [(0, { mgmt := .draining, draining := some 0 })], outs := [(0, {})] } }

/-- The reset of the draining port closes its shield twice: once as breaking its last stream powers it off, and once for the
reset itself. -/
theorem drainingPort_reset :
    mayAsk drainingPort .fault = true ∧ (drainingPort.port 0).unit ≠ .resetting ∧
      ((drainingPort.doPortReset 0 .fault).port 0).epoch = (drainingPort.port 0).epoch + 2 := by
  decide

/-- Refutes O37: a port reset that breaks the last stream of a port draining for POWER_OFF advances the epoch twice. -/
theorem not_physicalResets : ¬ Obligations.PhysicalResets := by
  intro h
  obtain ⟨hmay, hunit, hepoch⟩ := drainingPort_reset
  obtain ⟨_, hasked⟩ := h drainingPort .fault
  obtain ⟨_, _, _, _, _, _, _, hport⟩ := hasked hmay
  obtain ⟨t, hexec, _, _, hone, _⟩ := hport 0 hunit
  have ht : drainingPort.doPortReset 0 .fault = t := Host.Outcome.next.inj hexec
  rw [← ht] at hone
  exact absurd (hepoch.symm.trans hone) (by decide)

end Sys2Proof.Machine

/-! ## The end of a domain reset (O39) -/

namespace Sys2Proof.Machine

/-! ### Steps that leave the registers of a reset's end alone -/

/-- The device registers stay, but that a request may have merged (R74). -/
def State.keepsDev (s t : State) : Prop := t.dev = { s.dev with resetMerged := t.dev.resetMerged }

theorem State.keepsDev_refl (s : State) : s.keepsDev s := rfl

theorem State.keepsDev.trans {s t u : State} (h : s.keepsDev t) (k : t.keepsDev u) : s.keepsDev u :=
  Eq.trans k (congrArg (fun d : Dev => { d with resetMerged := u.dev.resetMerged }) h)

theorem State.sameBut.keepsDev {s t : State} {ps : List Part} (h : s.sameBut t ps) (hps : Part.dev ∉ ps := by decide) :
    s.keepsDev t := by
  have hdev : t.dev = s.dev := h .dev hps
  rw [State.keepsDev, hdev]

theorem foldl_keepsDev {α : Type} {f : State → α → State} (hf : ∀ (s : State) a, s.keepsDev (f s a)) (l : List α) (s : State) :
    s.keepsDev (l.foldl f s) :=
  List.foldlRecOn (motive := fun t => s.keepsDev t) l f s.keepsDev_refl fun t ht a _ => ht.trans (hf t a)

theorem State.askTenantReset_keepsDev (s : State) (i : Nat) : s.keepsDev (s.askTenantReset i) := by
  unfold State.askTenantReset
  split <;> rfl

theorem State.maskFault_keepsDev (s : State) (code : Nat) (f : FaultInfo) : s.keepsDev (s.maskFault code f).1 := by
  unfold State.maskFault
  split
  · next i _ =>
    unfold State.escalate
    extract_lets v g esc qui s1 s2 s3
    have h1 : s.keepsDev s1 := by
      simp only [s1]
      split
      · exact (s.updSlice_sameBut i _).keepsDev
      · exact s.keepsDev_refl
    have h2 : s1.keepsDev s2 := by
      simp only [s2]
      (repeat' split) <;> rfl
    have h3 : s1.keepsDev s3 := by
      simp only [s3]
      split
      · exact h2.trans (s2.askTenantReset_keepsDev i)
      · exact s1.keepsDev_refl
    exact h1.trans h3
  · exact s.keepsDev_refl

theorem State.raise_keepsDev (s : State) (code : Nat) (f : FaultInfo) : s.keepsDev (s.raise code f) :=
  ((s.ownCount_sameBut _ code f).keepsDev.trans (State.maskFault_keepsDev _ code f)).trans
    ((State.queueRecord_sameBut _ _ _).keepsDev.trans
      ((State.fillBucket_sameBut _ _).keepsDev.trans (State.endFault_sameBut _ _ _).keepsDev))

/-! ### Units that come back -/

theorem State.bumpEpoch_sameBut (s : State) (u : Nat) : s.sameBut (s.bumpEpoch u) [.bays, .mem, .sweld] := by
  unfold State.bumpEpoch
  split
  · exact (s.updBay_sameBut _ _).mono (by decide)
  · exact (s.updChan_sameBut _ _).mono (by decide)
  · exact (s.updPort_sameBut _ _).mono (by decide)
  · exact s.sameBut_refl _

theorem State.setUnitState_sameBut (s : State) (u : Nat) (x : UnitState) :
    s.sameBut (s.setUnitState u x) [.bays, .mem, .sweld] := by
  unfold State.setUnitState
  split
  · exact (s.updBay_sameBut _ _).mono (by decide)
  · exact (s.updChan_sameBut _ _).mono (by decide)
  · exact (s.updPort_sameBut _ _).mono (by decide)
  · exact s.sameBut_refl _

theorem State.restartPairs_sameBut (s : State) (us : List Nat) : s.sameBut (s.restartPairs us) [.flt] :=
  foldl_sameBut (fun s _ => s.withFlt_sameBut _) us s

theorem State.openShield_sameBut (s : State) (u : Nat) : s.sameBut (s.openShield u) [.fab] := s.signalUnits_sameBut _ _ _

theorem State.cutBay_keepsDev (s : State) (b : Nat) : s.keepsDev (s.cutBay b) :=
  (s.bumpEpoch_sameBut (unitBay b)).keepsDev.trans ((State.updBay_sameBut _ b _).keepsDev.trans
    (State.withPlb_sameBut _ _).keepsDev)

theorem State.finishBay_keepsDev (s : State) (b : Nat) : s.keepsDev (s.finishBay b) := by
  refine State.keepsDev.trans ?_ (State.restartPairs_sameBut _ _).keepsDev
  dsimp only
  split
  · exact (s.updBay_sameBut b _).keepsDev
  · split
    · exact s.cutBay_keepsDev b
    · split
      · exact (s.updBay_sameBut b _).keepsDev.trans (State.withPlb_sameBut _ _).keepsDev
      · exact (s.updBay_sameBut b _).keepsDev

theorem State.autoRepair_keepsDev (s : State) (d entry : Nat) : s.keepsDev (s.autoRepair d entry) := by
  unfold State.autoRepair
  dsimp only
  split
  · exact (s.withFlt_sameBut _).keepsDev
  · exact s.raise_keepsDev _ _

theorem State.repairRow_keepsDev (s : State) (c row : Nat) (byHppr : Bool) : s.keepsDev (s.repairRow c row byHppr) := by
  unfold State.repairRow
  split
  · exact s.keepsDev_refl
  · dsimp only
    split
    · exact (s.updChan_sameBut c _).keepsDev
    · exact (s.updChan_sameBut c _).keepsDev.trans (((State.withMem_sameBut _ _).keepsDev.trans
        (State.updChan_sameBut _ c _).keepsDev).trans (State.autoRepair_keepsDev _ _ _))

theorem State.repairRest_keepsDev (s : State) (c : Nat) : s.keepsDev (s.repairRest c) :=
  (s.updChan_sameBut c _).keepsDev.trans (foldl_keepsDev (fun s row =>
    (s.withFree_sameBut (s.free + 1)).keepsDev.trans (State.repairRow_keepsDev _ c row _)) _ _)

theorem State.finishChan_keepsDev (s : State) (c : Nat) : s.keepsDev (s.finishChan c) :=
  (s.repairRest_keepsDev c).trans ((State.updChan_sameBut _ c _).keepsDev.trans
    ((State.setUnitState_sameBut _ _ _).keepsDev.trans (State.restartPairs_sameBut _ _).keepsDev))

theorem State.failChan_keepsDev (s : State) (c : Nat) : s.keepsDev (s.failChan c) :=
  (s.raise_keepsDev _ _).trans ((State.updChan_sameBut _ c _).keepsDev.trans (State.setUnitState_sameBut _ _ _).keepsDev)

/-! ### A tenant's records (R75) -/

/-- What the writes of a tenant's records touch. -/
def recordParts : List Part := [.slices, .cmds, .pool, .host, .mig]

theorem State.withMig_sameBut (s : State) (v : Mig) : s.sameBut { s with mig := v } [.mig] := by
  intro p hp
  cases p with
  | mig => exact absurd (by decide) hp
  | _ => rfl

theorem State.withHost_sameBut (s : State) (v : HostSide) : s.sameBut { s with host := v } [.host] := by
  intro p hp
  cases p with
  | host => exact absurd (by decide) hp
  | _ => rfl

theorem State.withPool_sameBut (s : State) (v : Tbl Buffer) : s.sameBut { s with pool := v } [.pool] := by
  intro p hp
  cases p with
  | pool => exact absurd (by decide) hp
  | _ => rfl

theorem State.withCmds_sameBut (s : State) (v : Tbl Cmd) : s.sameBut { s with cmds := v } [.cmds] := by
  intro p hp
  cases p with
  | cmds => exact absurd (by decide) hp
  | _ => rfl

theorem State.hostWrite_record (s : State) (sp : Option (BitVec 20)) (a : Nat) (b : Bytes) :
    s.sameBut (s.hostWrite sp a b) recordParts :=
  (s.withHost_sameBut _).mono (by decide)

theorem State.updSlice_record (s : State) (i : Nat) (f : Slice → Slice) : s.sameBut (s.updSlice i f) recordParts :=
  (s.updSlice_sameBut i f).mono (by decide)

theorem State.postLog_record (s : State) (i entry : Nat) : s.sameBut (s.postLog i entry) recordParts := by
  unfold State.postLog
  dsimp only
  split
  · refine State.sameBut.trans ?_ ((State.withMig_sameBut _ _).mono (by decide))
    split
    · exact (s.hostWrite_record _ _ _).trans (State.hostWrite_record _ _ _ _)
    · exact s.hostWrite_record _ _ _
  · exact ((s.withMig_sameBut _).mono (by decide)).trans (State.updSlice_record _ i _)

theorem State.logHost_record (s : State) (i : Nat) (port : Bool) (pasid a : Nat) :
    s.sameBut (s.logHost i port pasid a) recordParts := by
  unfold State.logHost State.logCourse
  dsimp only
  split
  · split
    · exact s.sameBut_refl _
    · exact ((s.withMig_sameBut _).mono (by decide)).trans (State.postLog_record _ i _)
  · exact s.sameBut_refl _

theorem State.tenantHostWrite_record (s : State) (i : Nat) (port : Bool) (pasid : BitVec 20) (a : Nat) (b : Bytes) :
    s.sameBut (s.tenantHostWrite i port pasid a b) recordParts :=
  ((s.hostWrite_record _ a b).trans (State.updSlice_record _ i _)).trans
    (foldl_sameBut (fun s (pc : Nat × Nat) => s.logHost_record i port pasid.toNat pc.1) _ _)

theorem State.postTenant_record (s : State) (i : Nat) (r : Ring) (off : Nat) (x : Rec) :
    s.sameBut (s.postTenant i r off x).1 recordParts := by
  unfold State.postTenant
  dsimp only
  split
  · exact (s.tenantHostWrite_record i _ _ _ _).trans (State.tenantHostWrite_record _ i _ _ _ _)
  · exact s.tenantHostWrite_record i _ _ _ _

theorem State.postDue_record (s : State) (i q : Nat) : s.sameBut (s.postDue i q) recordParts := by
  refine foldl_sameBut (fun s x => ?_) _ s
  dsimp only
  split
  · refine State.sameBut.trans ?_ (State.updSlice_record _ i _)
    refine State.sameBut.trans ?_ (State.postTenant_record _ i _ _ _)
    split
    · exact (s.withHost_sameBut _).mono (by decide)
    · exact s.sameBut_refl _
  · exact s.updSlice_record i _

theorem State.freeBuffer_record (s : State) (k : Nat) : s.sameBut (s.freeBuffer k) recordParts :=
  (s.withPool_sameBut _).mono (by decide)

theorem State.discardRec_record (s : State) (i q : Nat) (x : Rec) : s.sameBut (s.discardRec i q x) recordParts := by
  have hplace : ∀ (u : State) id, u.sameBut (u.freePlace id) recordParts := fun u id =>
    (u.updSlice_record _ _).trans ((State.withCmds_sameBut _ _).mono (by decide))
  unfold State.discardRec
  extract_lets s1 s2
  have h2 : s1.sameBut s2 recordParts := by
    simp only [s2]
    split
    · exact (s1.freeBuffer_record _).trans (State.updSlice_record _ i _)
    · exact s1.sameBut_refl _
  refine ((s.updSlice_record i _).trans h2).trans ?_
  split
  · exact hplace _ _
  · exact s2.sameBut_refl _

theorem State.dropWaiting_record (s : State) (i q : Nat) : s.sameBut (s.dropWaiting i q) recordParts :=
  ((s.updSlice_record i _).trans (foldl_sameBut (fun s x => s.discardRec_record i q x) _ _)).trans
    (State.updSlice_record _ i _)

theorem State.returnBuffers_record (s : State) (i : Nat) (all : Bool) : s.sameBut (s.returnBuffers i all) recordParts :=
  foldl_sameBut (fun s k => by split; exacts [s.sameBut_refl _, s.freeBuffer_record k]) _ s

/-! ### The statement -/

/-- What the end of a reset shows in the registers (R83). -/
theorem State.noteEnd_last {s t : State} (h : s.keepsDev t) (dom n : Nat) :
    (t.noteEnd dom n []).dev.lastDomain = dom ∧ (t.noteEnd dom n []).dev.lastInst = n ∧
      (t.noteEnd dom n []).dev.resetDone = (s.dev.resetDone || s.dev.started.any fun k => k == resetKey dom n) := by
  refine ⟨rfl, rfl, ?_⟩
  have hkeys : [resetKey dom n].contains = fun k => k == resetKey dom n := funext fun k => Bool.eq_iff_iff.mpr (by simp)
  simp only [State.noteEnd, hkeys]
  rw [State.keepsDev] at h
  rw [h]

theorem unitKind_unitChan {c : Nat} (hc : c < 128) : unitKind (unitChan c) = .chan c := by
  have hlo : ¬ 0x40 + c < 0x30 := by omega
  simp [unitKind, unitChan, hlo, show 0x40 + c < 0xC0 by omega]

theorem State.keepsDev.dieState_eq {s t : State} (h : s.keepsDev t) (d : Nat) : t.dieState d = s.dieState d := by
  rw [State.keepsDev] at h
  rw [State.dieState, h, State.dieState]

theorem State.dieState_set (s : State) (d : Nat) (x : UnitState) :
    ({ s with dev := { s.dev with dies := Tbl.set .up s.dev.dies d x } } : State).dieState d = x := by
  rw [State.dieState]
  exact Tbl.get_set_same _ _ d x

theorem State.port_of_sweld {s t : State} (h : t.sweld = s.sweld) (k : Nat) : t.port k = s.port k := by
  rw [State.port, State.port, h]

section Finish
variable {s : State} {n : Nat}

theorem State.finishBay_on (hmgmt : (s.bay n).mgmt = .on) (hpow : (s.bay n).unpowered = false) :
    ((s.finishBay n).bay n).unit = .up ∧ ((s.finishBay n).bay n).mgmt = .on := by
  have hbay : (s.finishBay n).bay n = (s.updBay n fun v => { v with unit := .up, mgmt := .on, powering := false }).bay n := by
    refine State.bay_of_bays ((State.restartPairs_sameBut _ _ .bays (by decide)).trans ?_) n
    dsimp only
    rw [if_neg (by simp [hmgmt, hpow]), if_neg (by simp [hmgmt])]
    split <;> rfl
  rw [hbay, State.bay_updBay_same]
  exact ⟨rfl, rfl⟩

theorem State.finishBay_off (hmgmt : (s.bay n).mgmt = .off) : ((s.finishBay n).bay n).unit = .down := by
  have hbay : (s.finishBay n).bay n = (s.updBay n fun v => { v with unit := .down }).bay n := by
    refine State.bay_of_bays ((State.restartPairs_sameBut _ _ .bays (by decide)).trans ?_) n
    dsimp only
    rw [if_pos (.inl hmgmt)]
  rw [hbay, State.bay_updBay_same]

theorem State.finishPort_on (hmgmt : (s.port n).mgmt = .on) (hpow : (s.port n).unpowered = false) :
    ((s.finishPort n).port n).unit = .up ∧ ((s.finishPort n).port n).state = .training := by
  have hport : (s.finishPort n).port n
      = (s.updPort n fun v => { v with unit := .up, mgmt := .on, state := .training, powering := false }).port n := by
    refine State.port_of_sweld ((State.restartPairs_sameBut _ _ .sweld (by decide)).trans ?_) n
    dsimp only
    rw [if_neg (by simp [hmgmt, hpow]), if_neg (by simp [hmgmt])]
    split <;> rfl
  rw [hport, State.port_updPort_same]
  exact ⟨rfl, rfl⟩

theorem State.finishPort_keepsDev (hmgmt : (s.port n).mgmt = .on) (hpow : (s.port n).unpowered = false) :
    s.keepsDev (s.finishPort n) := by
  refine State.keepsDev.trans ?_ (State.restartPairs_sameBut _ _).keepsDev
  dsimp only
  rw [if_neg (by simp [hmgmt, hpow]), if_neg (by simp [hmgmt])]
  split
  · exact (s.updPort_sameBut n _).keepsDev.trans (State.withPlb_sameBut _ _).keepsDev
  · exact (s.updPort_sameBut n _).keepsDev

theorem State.setUnitState_chan (hn : n < 128) (x : UnitState) : ((s.setUnitState (unitChan n) x).chan n).unit = x ∧
    ((s.setUnitState (unitChan n) x).chan n).trained = (s.chan n).trained := by
  unfold State.setUnitState
  rw [unitKind_unitChan hn]
  dsimp only
  rw [State.chan_updChan_same]
  split
  · next h =>
    subst h
    unfold Chan.goOnScrub
    (repeat' split) <;> exact ⟨rfl, rfl⟩
  · unfold Chan.pauseScrub
    split <;> exact ⟨rfl, rfl⟩

theorem State.finishChan_chan (hn : n < 128) :
    ((s.finishChan n).chan n).unit = .up ∧ ((s.finishChan n).chan n).trained = true := by
  have hchan : (s.finishChan n).chan n = ((((s.repairRest n).updChan n fun v => { v with trained := true }).setUnitState
      (unitChan n) .up).chan n) := (State.restartPairs_sameBut _ _).chan_eq (by decide) n
  obtain ⟨hunit, htrained⟩ := State.setUnitState_chan
    (s := (s.repairRest n).updChan n fun v => { v with trained := true }) hn .up
  rw [hchan]
  exact ⟨hunit, htrained.trans (by rw [State.chan_updChan_same])⟩

theorem State.failChan_chan (hn : n < 128) : ((s.failChan n).chan n).unit = .down := (State.setUnitState_chan hn .down).1

theorem State.finishDie_dieState (hrep : Tbl.get [] s.nv.repairs n = []) : (s.finishDie n).dieState n = .up := by
  have hnone : s.applyRepairs n true = s := by
    rw [State.applyRepairs, hrep]
    rfl
  have hdev := ((foldl_keepsDev (fun s b => s.finishBay_keepsDev b) (baysOfDie n)
    { s with dev := { s.dev with dies := Tbl.set .up s.dev.dies n .up } }).trans
      (foldl_keepsDev (fun s c => s.finishChan_keepsDev c) (chansOfDie n) _)).trans
        (State.restartPairs_sameBut _ [unitDieCollector n]).keepsDev
  unfold State.finishDie
  rw [hnone]
  exact (hdev.dieState_eq n).trans (s.dieState_set n .up)

theorem State.failDie_dieState (s : State) (n : Nat) : (s.failDie n).dieState n = .down := State.dieState_set _ n .down

theorem State.endTenantReset_slice (s : State) (n : Nat) : ((s.endTenantReset n).slice n).reset = .none ∧
    ((s.endTenantReset n).slice n).sqs = [] ∧ ((s.endTenantReset n).slice n).cqs = [] := by
  have hsame : ∀ (t : State) (f : Slice → Slice), ((t.updSlice n f).noteEnd domTenant n []).slice n = f (t.slice n) :=
    fun t f => (State.slice_updSlice t n n f).trans (if_pos rfl)
  unfold State.endTenantReset
  extract_lets qs s1 s2 s3 v s4 s5
  clear_value s4
  rw [hsame]
  exact ⟨rfl, rfl, rfl⟩

theorem State.endTenantReset_last (s : State) (n : Nat) : (s.endTenantReset n).dev.lastDomain = domTenant ∧
    (s.endTenantReset n).dev.lastInst = n ∧ (s.endTenantReset n).dev.resetDone =
      (s.dev.resetDone || s.dev.started.any fun k => k == resetKey domTenant n) := by
  unfold State.endTenantReset
  extract_lets qs s1 s2 s3 v s4 s5
  have h1 : s.sameBut s1 recordParts := foldl_sameBut (fun s q => s.postDue_record n q) _ s
  have h2 : s1.sameBut s2 recordParts := foldl_sameBut (fun s q => s.dropWaiting_record n q) _ s1
  have h3 : s.keepsDev s3 := ((h1.trans h2).trans (s2.returnBuffers_record n false)).keepsDev
  have h5 : s.keepsDev s5 := (h3.trans (s3.raise_keepsDev _ _)).trans (s4.updSlice_sameBut n _).keepsDev
  exact State.noteEnd_last h5 domTenant n

/-- Opening a unit's shield and noting the end of its reset leaves every unit as it is. -/
theorem State.noteEnd_openShield_sameBut (s : State) (u dom n : Nat) (inside : List Nat) :
    s.sameBut ((s.openShield u).noteEnd dom n inside) [.fab, .dev] :=
  ((s.openShield_sameBut u).mono (by decide)).trans ((State.withDev_sameBut _ _).mono (by decide))

theorem State.noteEnd_dieState (s : State) (dom n : Nat) (inside : List Nat) (d : Nat) :
    (s.noteEnd dom n inside).dieState d = s.dieState d := rfl

end Finish

/-- Settles O39: each end is the unit's return, the opening of its shield and the note of the end, and the first two leave what
the note reads. -/
theorem resetCompletes : Obligations.ResetCompletes := by
  intro s n ok hpow last
  have hon : ¬ (!s.powered) = true := by simp [hpow]
  have hdie : ∀ d, s.dieState d ≠ .resetting → (!s.resettingDie d) = true := fun d h => by simp [State.resettingDie, h]
  refine ⟨fun hunit hlasted hup => ?_, fun hunit hlasted hup hrun hn => ?_, fun hunit hlasted hrep => ?_,
    fun hunit hlasted hmgmt hpow hn => ?_, fun hreset hlasted hcopies => ?_⟩
  · have hdo : s.doResetComplete .bay n ok = ((s.finishBay n).openShield (unitBay n)).noteEnd domBay n [] :=
      (if_neg hon).trans (if_pos (by simp [hunit, hlasted, hdie _ hup]))
    have hdev := (s.finishBay_keepsDev n).trans (State.openShield_sameBut (s.finishBay n) (unitBay n)).keepsDev
    have hbay := State.bay_of_bays
      ((s.finishBay n).noteEnd_openShield_sameBut (unitBay n) domBay n [] .bays (by decide)) n
    refine ⟨_, congrArg Host.Outcome.next hdo, State.noteEnd_last hdev domBay n, ?_, ?_⟩
    · rw [hbay]
      exact fun hmgmt hpow => State.finishBay_on hmgmt hpow
    · rw [hbay]
      exact fun hmgmt => State.finishBay_off hmgmt
  · cases ok
    · have hdo : s.doResetComplete .channel n false = (s.failChan n).noteEnd domChan n [] :=
        (if_neg hon).trans (if_pos (by simp [hunit, hlasted, hdie _ hup]))
      exact ⟨_, congrArg Host.Outcome.next hdo, State.noteEnd_last (s.failChan_keepsDev n) domChan n, State.failChan_chan hn,
        fun h => absurd h (by decide)⟩
    · have hdo : s.doResetComplete .channel n true = ((s.finishChan n).openShield (unitChan n)).noteEnd domChan n [] :=
        (if_neg hon).trans (if_pos (by simp [hunit, hlasted, hdie _ hup]))
      have hdev := (s.finishChan_keepsDev n).trans (State.openShield_sameBut (s.finishChan n) (unitChan n)).keepsDev
      have hchan := ((s.finishChan n).noteEnd_openShield_sameBut (unitChan n) domChan n []).chan_eq (by decide) n
      obtain ⟨hup, htrained⟩ := State.finishChan_chan (s := s) hn
      exact ⟨_, congrArg Host.Outcome.next hdo, State.noteEnd_last hdev domChan n, (congrArg Chan.unit hchan).trans hup,
        fun _ => (congrArg Chan.trained hchan).trans htrained⟩
  · cases ok
    · have hdo : s.doResetComplete .die n false = (s.failDie n).noteEnd domDie n (insideDie n) :=
        (if_neg hon).trans (if_pos (by simp [State.resettingDie, hunit, hlasted]))
      exact ⟨_, congrArg Host.Outcome.next hdo, (State.noteEnd_dieState _ _ _ _ _).trans (s.failDie_dieState n), rfl, rfl⟩
    · have hdo : s.doResetComplete .die n true =
          ((s.finishDie n).openShield (unitDieCollector n)).noteEnd domDie n (insideDie n) :=
        (if_neg hon).trans (if_pos (by simp [State.resettingDie, hunit, hlasted]))
      have hdie := (State.openShield_sameBut (s.finishDie n) (unitDieCollector n)).keepsDev.dieState_eq n
      exact ⟨_, congrArg Host.Outcome.next hdo,
        (State.noteEnd_dieState _ _ _ _ _).trans (hdie.trans (State.finishDie_dieState hrep)), rfl, rfl⟩
  · have hdo : s.doResetComplete .port n ok = ((s.finishPort n).openShield (unitPort n)).noteEnd domPort n [] :=
      (if_neg hon).trans (if_pos (by simp [hunit, hlasted]))
    have hdev := (State.finishPort_keepsDev hmgmt hpow).trans (State.openShield_sameBut (s.finishPort n) (unitPort n)).keepsDev
    have hport := State.port_of_sweld
      ((s.finishPort n).noteEnd_openShield_sameBut (unitPort n) domPort n [] .sweld (by decide)) n
    obtain ⟨hup, htrain⟩ := State.finishPort_on hmgmt hpow
    exact ⟨_, congrArg Host.Outcome.next hdo, State.noteEnd_last hdev domPort n, (congrArg Port.unit hport).trans hup,
      (congrArg Port.state hport).trans htrain⟩
  · have hdo : s.doResetComplete .tenant n ok = s.endTenantReset n :=
      (if_neg hon).trans (if_pos (by simp [hreset, hlasted, hcopies]))
    obtain ⟨hnone, hsqs, hcqs⟩ := s.endTenantReset_slice n
    exact ⟨_, congrArg Host.Outcome.next hdo, s.endTenantReset_last n, hnone, hsqs, hcqs⟩

end Sys2Proof.Machine

/-! ## Package resets and cold start (O40) -/

namespace Sys2Proof.Machine

/-- `t` is `s` at the start of a package reset with the cause given (R65, R71, R74). -/
structure State.Restarts (s t : State) (cause : Nat) (hold : Bool) : Prop where
  dev : t.dev = { resetCause := cause, ticks := s.dev.ticks, resetTime := s.dev.ticks, stepTime := s.dev.ticks, perstHold := hold }
  kept : t.time = s.time ∧ t.nv = s.nv ∧ t.pending = s.pending
  straps : t.pins.pkgId = s.pins.pkgId ∧ t.pins.traySel = s.pins.traySel ∧ t.pins.memResetN = 0
  work : t.slices = [] ∧ t.cmds = [] ∧ t.gangs = [] ∧ t.bays = [] ∧ t.reqs = [] ∧ t.pool = []
  units : t.flt = {} ∧ t.tel = {} ∧ t.mig = {} ∧ t.mem = {} ∧ t.uc = {} ∧ t.whole = {}
  plb : s.dev.state = .bringup → t.plb = { level := if s.pins.prochotN then 0 else 32 }

theorem State.beginPackage_restarts (s : State) (cause : Nat) (hold : Bool) :
    s.Restarts (s.beginPackage cause hold) cause (hold || !s.pins.perstN) := by
  unfold State.beginPackage
  extract_lets t r p s'
  have h : s.Restarts s' cause (hold || !s.pins.perstN) := ⟨rfl, ⟨rfl, rfl, rfl⟩, ⟨rfl, rfl, rfl⟩, ⟨rfl, rfl, rfl, rfl, rfl, rfl⟩,
    ⟨rfl, rfl, rfl, rfl, rfl, rfl⟩, fun _ => rfl⟩
  clear_value s'
  split
  · exact h
  · next hstate =>
    obtain ⟨hdev, hkept, hstraps, hwork, hunits, _⟩ := h
    refine ⟨?_, ?_, ?_, ?_, ?_, fun h => absurd h hstate⟩
    · simpa only [State.signal_dev] using hdev
    · simpa only [State.signal_time, State.signal_nv, State.signal_pending] using hkept
    · simpa only [State.signal_pins] using hstraps
    · simpa only [State.signal_slices, State.signal_cmds, State.signal_gangs, State.signal_bays, State.signal_reqs,
        State.signal_pool] using hwork
    · simpa only [State.signal_flt, State.signal_tel, State.signal_mig, State.signal_mem, State.signal_uc,
        State.signal_whole] using hunits

theorem State.beginPackage_perstN (s : State) (cause : Nat) (hold : Bool) :
    (s.beginPackage cause hold).pins.perstN = s.pins.perstN := by
  unfold State.beginPackage
  dsimp only
  split
  · rfl
  · rw [State.signal_pins]

section Store
variable {s : State}

theorem State.spoilSlot_find (s : State) (a b : Nat) : Tbl.find? (s.spoilSlot a).nv.flash b
    = if b = a then none else Tbl.find? s.nv.flash b := Tbl.find?_del _ _ _

/-- What the loss of power leaves of the fuses, and of a slot that a store of an image was writing. -/
theorem State.cutFlash_nv (s : State) : s.cutFlash.nv.keys = s.nv.keys ∧ s.cutFlash.nv.repairs = s.nv.repairs :=
  have h := s.cutFlash_kept
  ⟨(congrArg Kept.keys h :), (congrArg Kept.repairs h :)⟩

theorem State.cutFlash_idle (himage : s.dev.imageOp = none) (hfw : s.dev.fwOp = none) (hjournal : s.dev.journalAt = none) :
    s.cutFlash = s := by
  simp only [State.cutFlash, himage, hfw, hjournal]

theorem State.cutFlash_store {o : ImageOp} (hop : s.dev.imageOp = some o) (hstore : o.op = 3)
    (hother : s.whole.loadedFrom ≠ portBit o.slotB) : Tbl.find? s.cutFlash.nv.flash (2 + portBit o.slotB) = none := by
  unfold State.cutFlash
  rw [hop]
  dsimp -zeta only
  extract_lets s1 s2
  have h1 : Tbl.find? s1.nv.flash (2 + portBit o.slotB) = none := by
    simp only [s1]
    rw [if_pos ⟨hstore, hother⟩, State.spoilSlot_find, if_pos rfl]
  have h2 : Tbl.find? s2.nv.flash (2 + portBit o.slotB) = none := by
    simp only [s2]
    (repeat' split)
    · rw [State.spoilSlot_find]
      split
      · rfl
      · exact h1
    · exact h1
    · exact h1
  clear_value s2
  (repeat' split)
  all_goals exact h2

end Store

/-- Settles O40: every package reset is `beginPackage`, and a cold start and the loss of power leave the reset state. -/
theorem packageResets : Obligations.PackageResets := by
  refine ⟨fun s => ?_, fun s k tray => ⟨?_, ?_, ?_⟩⟩
  · intro begun held
    have hbegun : ∀ {t : State} {cause hold}, s.Restarts t cause hold → begun t cause hold := by
      intro t cause hold ⟨hdev, ⟨htime, hnv, hpending⟩, ⟨hpkg, htray, hmemReset⟩, ⟨hslices, hcmds, hgangs, hbays, hreqs, hpool⟩,
        ⟨hflt, htel, hmig, hmem, huc, hwhole⟩, hplb⟩
      exact ⟨by rw [hdev], by rw [hdev], by rw [hdev], by rw [hdev], by rw [hdev], htime, hnv, hpkg, htray,
        hmemReset, hslices, hcmds, hgangs, hbays, hreqs, hpool, hflt, htel, hmig, hmem, huc, hwhole, hplb, hpending⟩
    have hmanagement : s.powered = true → s.doPackageReset .management = s.beginPackage causePlinth false := fun h => if_pos h
    refine ⟨fun hregs hpow => ?_, fun hoff => ⟨?_, ?_⟩, fun hregs u hu => ?_, fun hpow => ?_, fun hpow hserve => ?_,
      fun hpow hfail => ?_, fun hpow => ?_, fun hoff => ?_, fun hpow hhold => ?_⟩
    · refine ⟨_, congrArg Host.Outcome.next ?_, hbegun (s.beginPackage_restarts causeManager false)⟩
      simp [State.doPackageReset, hregs, hpow]
    · exact congrArg Host.Outcome.next (by simp [State.doPackageReset, hoff])
    · exact congrArg Host.Outcome.next (by simp [State.doPackageReset, hoff])
    · exact congrArg Host.Outcome.next
        ((if_neg (by simp [hregs])).trans (if_pos hu) : s.doPackageReset (.manager u) = _)
    · exact ⟨_, congrArg Host.Outcome.next (hmanagement hpow), hbegun (s.beginPackage_restarts causePlinth false)⟩
    · refine ⟨_, congrArg Host.Outcome.next ?_, hbegun (s.beginPackage_restarts causePlinth false)⟩
      simp [hpow, State.mgmtOp, hserve, State.plumbReset, hmanagement hpow]
    · exact congrArg Host.Outcome.next (by simp [hpow, State.mgmtOp, hfail])
    · have hre := State.beginPackage_restarts { s with pins := { s.pins with perstN := false } } causePerst true
      exact ⟨_, congrArg Host.Outcome.next (if_pos hpow),
        hbegun ⟨hre.dev, hre.kept, hre.straps, hre.work, hre.units, hre.plb⟩, State.beginPackage_perstN _ _ _⟩
    · exact congrArg Host.Outcome.next (if_neg (by simpa [State.powered] using hoff))
    · exact congrArg Host.Outcome.next (if_pos (by simpa [State.powered, hhold] using hpow))
  · intro h
    exact congrArg Host.Outcome.next (if_pos (by simpa using h))
  · intro hgood hperst
    exact ⟨_, congrArg Host.Outcome.next (if_neg (by simp [hgood, hperst])), rfl, rfl, rfl, rfl, rfl, rfl, rfl⟩
  · obtain ⟨hkeys, hrepairs⟩ := s.cutFlash_nv
    exact ⟨_, rfl, rfl, rfl, rfl, rfl, rfl, rfl, hkeys, hrepairs,
      fun himage hfw hjournal => (congrArg State.nv (State.cutFlash_idle himage hfw hjournal) :),
      fun o hop hstore hother => State.cutFlash_store hop hstore hother⟩

end Sys2Proof.Machine

/-! ## The running image and the PCIe links, which no work of the device changes -/

namespace Sys2Proof.Machine

/-- The running image and whether each PCIe port is up: what only the manager, bring-up and the links themselves change. -/
structure Wired where
  whole : WholeCfg
  link0 : Bool
  link1 : Bool

/-- Those of a state. -/
def State.wired (s : State) : Wired := ⟨s.whole, s.dev.linkUp0, s.dev.linkUp1⟩

theorem wired_mk (a b c d e f g h i j k l m n o p q r t u v w x y z) :
    (State.mk a b c d e f g h i j k l m n o p q r t u v w x y z).wired = ⟨g, f.linkUp0, f.linkUp1⟩ := rfl

theorem wired_eta (s : State) : Wired.mk s.whole s.dev.linkUp0 s.dev.linkUp1 = s.wired := rfl

theorem wired_ite {c : Prop} [Decidable c] (a b : State) : (if c then a else b).wired = if c then a.wired else b.wired :=
  apply_ite State.wired c a b

theorem State.linkUp_of_wired {s t : State} (h : t.wired = s.wired) (port : Bool) : t.linkUp port = s.linkUp port := by
  cases port
  · exact congrArg Wired.link0 h
  · exact congrArg Wired.link1 h

theorem State.whole_of_wired {s t : State} (h : t.wired = s.wired) : t.whole = s.whole := congrArg Wired.whole h

theorem State.sameBut.wired {s t : State} {ps : List Part} (h : s.sameBut t ps) (hwhole : Part.whole ∉ ps := by decide)
    (hdev : Part.dev ∉ ps := by decide) : t.wired = s.wired := by
  rw [State.wired, State.wired, (h .whole hwhole : t.whole = s.whole), (h .dev hdev : t.dev = s.dev)]

theorem wired_of_pair {β : Type} {p : State × β} {t : State} {y : β} {w : Wired} (h : p = (t, y)) (hp : p.1.wired = w) :
    t.wired = w := by
  rw [h] at hp
  exact hp

theorem foldl_wired {α : Type*} (f : State → α → State) (h : ∀ s a, (f s a).wired = s.wired) (l : List α) (s : State) :
    (l.foldl f s).wired = s.wired :=
  List.foldlRecOn (motive := fun t => t.wired = s.wired) l f rfl fun t ht a _ => (h t a).trans ht

theorem State.stopCmd_wired (a0 a1 a2) : (State.stopCmd a0 a1 a2).wired = a0.wired :=
  (State.stopCmd_sameBut a0 a1 a2).wired

theorem State.abortBay_wired (a0 a1 a2 a3) : (State.abortBay a0 a1 a2 a3).wired = a0.wired := by
  simp only [State.abortBay, wired_mk, wired_eta, foldl_wired, implies_true, State.stopCmd_wired]

theorem State.updPort_wired (a0 a1 a2) : (State.updPort a0 a1 a2).wired = a0.wired :=
  (State.updPort_sameBut a0 a1 a2).wired

theorem State.injected_wired (a0 a1 a2) : (State.injected a0 a1 a2).2.wired = a0.wired := by
  simp only [State.injected, wired_mk, wired_eta, wired_ite, ite_self, apply_ite Prod.snd]

theorem State.signalUnits_wired (a0 a1 a2 a3) : (State.signalUnits a0 a1 a2 a3).wired = a0.wired :=
  (State.signalUnits_sameBut a0 a1 a2 a3).wired

theorem State.updBay_wired (a0 a1 a2) : (State.updBay a0 a1 a2).wired = a0.wired :=
  (State.updBay_sameBut a0 a1 a2).wired

theorem State.updChan_wired (a0 a1 a2) : (State.updChan a0 a1 a2).wired = a0.wired :=
  (State.updChan_sameBut a0 a1 a2).wired

theorem State.bumpEpoch_wired (a0 a1) : (State.bumpEpoch a0 a1).wired = a0.wired :=
  (State.bumpEpoch_sameBut a0 a1).wired

theorem State.closeShield_wired (a0 a1 a2 a3) : (State.closeShield a0 a1 a2 a3).wired = a0.wired := by
  simp only [State.closeShield, wired_mk, wired_eta, wired_ite, foldl_wired, ite_self, implies_true, State.signalUnits_wired,
    State.bumpEpoch_wired, State.stopCmd_wired]

theorem State.updSlice_wired (a0 a1 a2) : (State.updSlice a0 a1 a2).wired = a0.wired :=
  (State.updSlice_sameBut a0 a1 a2).wired

theorem State.count_wired (a0 a1 a2 a3) : (State.count a0 a1 a2 a3).wired = a0.wired := by
  simp only [State.count, State.updSlice_wired]

theorem State.updCmd_wired (a0 a1 a2) : (State.updCmd a0 a1 a2).wired = a0.wired :=
  (State.updCmd_sameBut a0 a1 a2).wired

theorem State.postLog_wired (a0 a1 a2) : (State.postLog a0 a1 a2).wired = a0.wired :=
  (State.postLog_record a0 a1 a2).wired

theorem State.logCourse_wired (a0 a1 a2 a3 a4) : (State.logCourse a0 a1 a2 a3 a4).wired = a0.wired := by
  simp only [State.logCourse, wired_mk, wired_eta, wired_ite, ite_self, State.postLog_wired]

theorem State.raise_wired (s : State) (code : Nat) (f : FaultInfo) : (s.raise code f).wired = s.wired := by
  have hdev : (s.raise code f).dev = { s.dev with resetMerged := (s.raise code f).dev.resetMerged } := s.raise_keepsDev code
    f
  rw [State.wired, hdev, (s.raise_sameBut code f .whole (by decide) : (s.raise code f).whole = s.whole)]
  rfl

theorem State.cutBay_wired (a0 a1) : (State.cutBay a0 a1).wired = a0.wired := by
  simp only [State.cutBay, wired_mk, wired_eta, State.bumpEpoch_wired, State.updBay_wired]

theorem State.unholdBay_wired (a0 a1) : (State.unholdBay a0 a1).wired = a0.wired := by
  simp only [State.unholdBay, wired_ite, ite_self, State.updBay_wired, State.cutBay_wired]

theorem State.leaveBay_wired (a0 a1 a2) : (State.leaveBay a0 a1 a2).wired = a0.wired := by
  simp only [State.leaveBay, State.updBay_wired, State.unholdBay_wired]

theorem State.event_wired (a0 a1 a2 a3 a4) : (State.event a0 a1 a2 a3 a4).wired = a0.wired :=
  (State.event_sameBut a0 a1 a2 a3 a4).wired

theorem State.carry_wired (a0 a1 a2 a3) : (State.carry a0 a1 a2 a3).wired = a0.wired :=
  (State.carry_sameBut a0 a1 a2 a3).wired

theorem State.drawChoice_wired (a0 a1) : (State.drawChoice a0 a1).2.wired = a0.wired :=
  (State.drawChoice_sameBut a0 a1).wired

theorem State.bulk_wired (a0 a1 a2 a3 a4) : (State.bulk a0 a1 a2 a3 a4).wired = a0.wired :=
  (State.bulk_sameBut a0 a1 a2 a3 a4).wired

theorem State.setUnitState_wired (a0 a1 a2) : (State.setUnitState a0 a1 a2).wired = a0.wired :=
  (State.setUnitState_sameBut a0 a1 a2).wired

theorem State.offline_wired (a0 a1) : (State.offline a0 a1).wired = a0.wired := by
  simp only [State.offline]
  (repeat' split) <;> simp only [wired_mk, wired_eta, State.abortBay_wired, State.closeShield_wired, State.updBay_wired,
    State.setUnitState_wired, State.updPort_wired]

theorem State.stopDie_wired (a0 a1) : (State.stopDie a0 a1).wired = a0.wired := by
  simp only [State.stopDie, wired_mk, wired_eta, foldl_wired, implies_true, State.offline_wired]

theorem State.dieStop_wired (a0 a1 a2) : (State.dieStop a0 a1 a2).wired = a0.wired := by
  simp only [State.dieStop, State.raise_wired, State.stopDie_wired]

theorem State.lostTags_wired (a0 a1 a2) : (State.lostTags a0 a1 a2).wired = a0.wired := by
  simp only [State.lostTags, wired_mk, wired_eta, State.dieStop_wired]

theorem State.cacheCorrected_wired (a0 a1 a2) : (State.cacheCorrected a0 a1 a2).wired = a0.wired := by
  simp only [State.cacheCorrected, wired_mk, wired_eta, State.raise_wired]

theorem State.setWay_wired (a0 a1 a2) : (State.setWay a0 a1 a2).wired = a0.wired := by
  simp only [State.setWay, wired_mk, wired_eta]

theorem State.updWay_wired (a0 a1 a2 a3 a4) : (State.updWay a0 a1 a2 a3 a4).wired = a0.wired :=
  (State.updWay_sameBut a0 a1 a2 a3 a4).wired

theorem State.checkTags_wired (a0 a1 a2) : (State.checkTags a0 a1 a2).wired = a0.wired := by
  simp only [State.checkTags, wired_ite, foldl_wired, ite_self, implies_true, State.lostTags_wired,
    State.cacheCorrected_wired, State.updWay_wired]

theorem State.holdAt_wired (a0 a1) : (State.holdAt a0 a1).wired = a0.wired := by
  simp only [State.holdAt, wired_mk, wired_eta, wired_ite, ite_self]

theorem State.dramTraffic_wired (a0 a1 a2 a3 a4) : (State.dramTraffic a0 a1 a2 a3 a4).wired = a0.wired := by
  simp only [State.dramTraffic, State.event_wired]
  (repeat' split) <;> simp only [State.holdAt_wired, State.count_wired]

theorem State.mapRoom_wired (a0 a1 a2) : (State.mapRoom a0 a1 a2).wired = a0.wired := by
  simp only [State.mapRoom, wired_mk, wired_eta, wired_ite, ite_self, State.drawChoice_wired]

theorem State.cacheMap_wired (a0 a1 a2 a3) : (State.cacheMap a0 a1 a2 a3).wired = a0.wired := by
  simp only [State.cacheMap, wired_mk, wired_eta, State.mapRoom_wired]

theorem State.queueRow_wired (a0 a1 a2) : (State.queueRow a0 a1 a2).wired = a0.wired := by
  simp only [State.queueRow, State.updChan_wired]

theorem State.autoRepair_wired (a0 a1 a2) : (State.autoRepair a0 a1 a2).wired = a0.wired := by
  simp only [State.autoRepair, wired_mk, wired_eta, wired_ite, ite_self, State.raise_wired]

theorem State.killPin_wired (a0 a1 a2) : (State.killPin a0 a1 a2).wired = a0.wired := by
  simp only [State.killPin]
  (repeat' split) <;> simp only [State.offline_wired, State.raise_wired, State.updChan_wired, State.autoRepair_wired]

theorem State.noteCorrected_wired (a0 a1 a2 a3) : (State.noteCorrected a0 a1 a2 a3).wired = a0.wired := by
  simp only [State.noteCorrected, wired_ite, foldl_wired, ite_self, implies_true, State.raise_wired, State.updChan_wired,
    State.queueRow_wired, State.killPin_wired]

theorem State.dramStore_wired (a0 a1 a2) : (State.dramStore a0 a1 a2).wired = a0.wired := by
  simp only [State.dramStore, wired_mk, wired_eta]

theorem State.storeWord_wired (a0 a1 a2 a3 a4) : (State.storeWord a0 a1 a2 a3 a4).wired = a0.wired := by
  simp only [State.storeWord, State.dramStore_wired]

theorem State.writeCoded_wired (a0 a1 a2 a3 a4) : (State.writeCoded a0 a1 a2 a3 a4).wired = a0.wired := by
  simp only [State.writeCoded, State.injected_wired, State.dramTraffic_wired, State.storeWord_wired]

theorem State.writeMap_wired (a0 a1 a2 a3) : (State.writeMap a0 a1 a2 a3).wired = a0.wired := by
  simp only [State.writeMap, State.cacheMap_wired, State.writeCoded_wired]

theorem State.noteBad_wired (a0 a1 a2) : (State.noteBad a0 a1 a2).wired = a0.wired := by
  simp only [State.noteBad, State.queueRow_wired, State.updChan_wired]

theorem State.mapLost_wired (a0 a1 a2) : (State.mapLost a0 a1 a2).wired = a0.wired := by
  simp only [State.mapLost, foldl_wired, implies_true, State.writeMap_wired, State.noteBad_wired, State.raise_wired]

theorem State.mapRead_wired (a0 a1 a2) : (State.mapRead a0 a1 a2).1.wired = a0.wired := by
  simp only [State.mapRead]
  (repeat' split) <;> simp only [State.dramTraffic_wired, State.cacheMap_wired, State.noteCorrected_wired,
    State.mapLost_wired]

theorem State.mapCheck_wired (a0 a1 a2) : (State.mapCheck a0 a1 a2).1.wired = a0.wired := by
  simp only [State.mapCheck, wired_ite, ite_self, apply_ite Prod.fst, State.mapRead_wired]

theorem State.setMapEntry_wired (a0 a1 a2 a3) : (State.setMapEntry a0 a1 a2 a3).wired = a0.wired := by
  simp only [State.setMapEntry, wired_ite, ite_self, State.mapCheck_wired, State.writeMap_wired]

theorem State.setLineState_wired (a0 a1 a2 a3) : (State.setLineState a0 a1 a2 a3).wired = a0.wired := by
  simp only [State.setLineState, State.mapCheck_wired, State.setMapEntry_wired]

theorem State.poisonLine_wired (a0 a1 a2 a3 a4) : (State.poisonLine a0 a1 a2 a3 a4).wired = a0.wired := by
  simp only [State.poisonLine, State.setLineState_wired, State.raise_wired]

theorem State.decodeLine_wired (a0 a1 a2 a3 a4) : (State.decodeLine a0 a1 a2 a3 a4).1.wired = a0.wired := by
  simp only [State.decodeLine]
  (repeat' split) <;> simp only [State.dramTraffic_wired, State.noteCorrected_wired, State.poisonLine_wired,
    State.noteBad_wired]

theorem State.chanRead_wired (a0 a1 a2 a3) : (State.chanRead a0 a1 a2 a3).1.wired = a0.wired := by
  simp only [State.chanRead]
  (repeat' split) <;> simp only [State.decodeLine_wired]

theorem State.lineFetch_wired (s : State) (x n sectors : Nat) : (s.lineFetch x n sectors).1.wired = s.wired := by
  unfold State.lineFetch
  dsimp only
  split
  · rfl
  · split
    · next t h => exact (t.chanRead_wired _ _ _).trans (wired_of_pair h (s.mapCheck_wired _ _))
    · next t h => exact wired_of_pair h (s.mapCheck_wired _ _)

theorem State.countSectors_wired (a0 a1 a2 a3 a4) : (State.countSectors a0 a1 a2 a3 a4).wired = a0.wired :=
  (State.countSectors_sameBut a0 a1 a2 a3 a4).wired

theorem State.writeBase_wired (s : State) (x n : Nat) (y : Way) (owner : Nat) (full empty : Bool) (st : LineState)
    (need : BitVec 4) : (s.writeBase x n y owner full empty st need).1.wired = s.wired := by
  unfold State.writeBase
  dsimp only
  iterate 4
    split
    · rfl
  split
  · next t b h => exact (t.countSectors_wired _ _ _ _).trans (wired_of_pair h (s.lineFetch_wired _ _ _))
  · next t _ _ h => exact wired_of_pair h (s.lineFetch_wired _ _ _)

theorem State.mapAges_wired (a0 a1 a2 a3) : (State.mapAges a0 a1 a2 a3).wired = a0.wired := by
  simp only [State.mapAges, wired_ite, foldl_wired, ite_self, implies_true, State.updWay_wired]

theorem State.dropWay_wired (a0 a1 a2 a3) : (State.dropWay a0 a1 a2 a3).wired = a0.wired := by
  simp only [State.dropWay, State.mapAges_wired, State.setWay_wired]

theorem State.dropReplica_wired (a0 a1 a2) : (State.dropReplica a0 a1 a2).wired = a0.wired := by
  unfold State.dropReplica
  split
  · exact State.dropWay_wired ..
  · rfl

theorem State.clearCourses_wired (a0 a1 a2 a3) : (State.clearCourses a0 a1 a2 a3).wired = a0.wired := by
  simp only [State.clearCourses, wired_ite, ite_self, State.mapCheck_wired, State.writeMap_wired]

theorem State.bitmapWrite_wired (a0 a1) : (State.bitmapWrite a0 a1).wired = a0.wired := by
  simp only [State.bitmapWrite, wired_ite, ite_self, State.injected_wired, State.offline_wired, State.raise_wired]

theorem State.openShare_wired (a0 a1 a2) : (State.openShare a0 a1 a2).wired = a0.wired := by
  simp only [State.openShare, wired_mk, wired_eta, wired_ite, foldl_wired, ite_self, implies_true, State.clearCourses_wired,
    State.bitmapWrite_wired]

theorem State.sectorLost_wired (a0 a1 a2 a3 a4) : (State.sectorLost a0 a1 a2 a3 a4).wired = a0.wired := by
  simp only [State.sectorLost, wired_mk, wired_eta, wired_ite, ite_self, State.dropWay_wired, State.dropReplica_wired,
    State.poisonLine_wired, State.openShare_wired, State.raise_wired, State.updWay_wired]

theorem State.checkSector_wired (a0 a1 a2 a3 a4) : (State.checkSector a0 a1 a2 a3 a4).wired = a0.wired := by
  simp only [State.checkSector, wired_ite, ite_self, State.cacheCorrected_wired, State.updWay_wired, State.sectorLost_wired]

theorem State.checkSectors_wired (a0 a1 a2 a3 a4) : (State.checkSectors a0 a1 a2 a3 a4).wired = a0.wired := by
  simp only [State.checkSectors, foldl_wired, implies_true, State.checkSector_wired]

theorem State.writeStored_wired (a0 a1 a2 a3) : (State.writeStored a0 a1 a2 a3).wired = a0.wired := by
  simp only [State.writeStored, State.writeCoded_wired]

theorem State.chanWrite_wired (s : State) (c q : Nat) (data : Bytes) (mask : BitVec 128) :
    (s.chanWrite c q data mask).1.wired = s.wired := by
  unfold State.chanWrite
  split
  · rfl
  · extract_lets u
    have hu : u.wired = s.wired := (State.mapCheck_wired _ _ _).trans (s.openShare_wired _ _)
    have hstore : ∀ b, ((u.writeStored c q b).setLineState c q .written).wired = s.wired := fun b => by
      rw [State.setLineState_wired, State.writeStored_wired, hu]
    clear_value u
    split
    · rw [hstore]
    · split
      · exact hu
      · split
        · next t old h =>
          exact (t.writeStored_wired _ _ _).trans ((wired_of_pair h (u.decodeLine_wired ..)).trans hu)
        · next t _ _ h => exact (wired_of_pair h (u.decodeLine_wired ..)).trans hu
      · rw [hstore]

theorem State.writeBackWay_wired (a0 a1 a2 a3) : (State.writeBackWay a0 a1 a2 a3).wired = a0.wired := by
  simp only [State.writeBackWay, wired_ite, ite_self, apply_ite Prod.fst, State.checkSectors_wired, State.chanWrite_wired,
    State.setLineState_wired, State.writeStored_wired, State.openShare_wired, State.updWay_wired, State.raise_wired]

theorem State.evictWay_wired (a0 a1 a2 a3) : (State.evictWay a0 a1 a2 a3).wired = a0.wired := by
  simp only [State.evictWay, wired_ite, ite_self, State.writeBackWay_wired, State.dropReplica_wired, State.dropWay_wired]

theorem State.countBypass_wired (a0 a1 a2) : (State.countBypass a0 a1 a2).wired = a0.wired := by
  simp only [State.countBypass, State.event_wired, State.updSlice_wired]

theorem State.claimWay_wired (a0 a1 a2 a3) : (State.claimWay a0 a1 a2 a3).1.wired = a0.wired := by
  unfold State.claimWay
  (repeat' split) <;> simp only [State.evictWay_wired, State.countBypass_wired]

theorem State.tagWrite_wired (a0 a1 a2 a3) : (State.tagWrite a0 a1 a2 a3).wired = a0.wired := by
  simp only [State.tagWrite, State.injected_wired, State.updWay_wired]

theorem State.installWay_wired (a0 a1 a2 a3 a4) : (State.installWay a0 a1 a2 a3 a4).wired = a0.wired := by
  simp only [State.installWay, State.mapAges_wired, State.tagWrite_wired, State.setWay_wired]

theorem State.writePlace_wired (s : State) (x n : Nat) (found : Option Nat) (y : Way) (owner : Nat) (valid : BitVec 4)
    (bytes : Bytes) : (s.writePlace x n found y owner valid bytes).1.wired = s.wired := by
  unfold State.writePlace
  split
  · rfl
  · split
    · next t w h =>
      rw [State.installWay_wired]
      exact wired_of_pair h (s.claimWay_wired _ _ _)
    · next t h => exact wired_of_pair h (s.claimWay_wired _ _ _)

theorem State.putSectors_wired (a0 a1 a2 a3 a4 a5) : (State.putSectors a0 a1 a2 a3 a4 a5).wired = a0.wired := by
  simp only [State.putSectors, foldl_wired, implies_true, State.updWay_wired, State.injected_wired]

theorem State.touchWay_wired (a0 a1 a2 a3) : (State.touchWay a0 a1 a2 a3).wired = a0.wired := by
  simp only [State.touchWay, State.updWay_wired, State.mapAges_wired]

theorem State.writeInto_wired (s : State) (x n : Nat) (place : Option Nat) (had valid touched : BitVec 4) (new data : Bytes)
    (mask : BitVec 128) : (s.writeInto x n place had valid touched new data mask).1.wired = s.wired := by
  unfold State.writeInto
  dsimp only
  split
  · rw [State.touchWay_wired, State.tagWrite_wired, State.updWay_wired, State.putSectors_wired]
  · exact s.chanWrite_wired (chanOfUcSlice x) (chanLine x n) data mask

theorem State.logDevice_wired (a0 a1 a2 a3) : (State.logDevice a0 a1 a2 a3).wired = a0.wired := by
  simp only [State.logDevice, State.logCourse_wired]

theorem State.writeSectors_wired (s : State) (x n : Nat) (data : Bytes) (mask : BitVec 128) (part : BitVec 4) (log : Bool) :
    (s.writeSectors x n data mask part log).1.wired = s.wired := by
  unfold State.writeSectors
  dsimp only
  split
  · next t h => exact wired_of_pair h (s.writeBase_wired _ _ _ _ _ _ _ _)
  · next t valid bytes h =>
    have hbase : t.wired = s.wired := wired_of_pair h (s.writeBase_wired _ _ _ _ _ _ _ _)
    simp only [apply_ite Prod.fst, wired_ite, State.logDevice_wired, State.writeInto_wired, State.writePlace_wired, hbase,
      ite_self]

theorem State.checkFound_wired (a0 a1 a2 a3) : (State.checkFound a0 a1 a2 a3).wired = a0.wired := by
  simp only [State.checkFound]
  (repeat' split) <;> simp only [State.checkSectors_wired]

theorem State.ucWrite_wired (a0 a1 a2 a3 a4 a5) : (State.ucWrite a0 a1 a2 a3 a4 a5).1.wired = a0.wired := by
  simp only [State.ucWrite]
  (repeat' split) <;> simp only [State.checkTags_wired, State.writeSectors_wired, State.checkFound_wired]

theorem State.settleDir_wired (a0 a1 a2) : (State.settleDir a0 a1 a2).wired = a0.wired := by
  simp only [State.settleDir]
  (repeat' split) <;> simp only [State.updWay_wired, State.dropReplica_wired]

theorem State.holdWrite_wired (a0 a1 a2) : (State.holdWrite a0 a1 a2).wired = a0.wired := by
  simp only [State.holdWrite]
  (repeat' split) <;> simp only [wired_mk, wired_eta, State.holdAt_wired]

theorem State.writeAt_wired (a0 a1 a2 a3 a4 a5 a6) : (State.writeAt a0 a1 a2 a3 a4 a5 a6).1.wired = a0.wired := by
  simp only [State.writeAt]
  (repeat' split) <;> simp only [State.bulk_wired, State.ucWrite_wired, State.settleDir_wired, State.holdWrite_wired]

theorem State.lineWrite_wired (a0 a1 a2 a3 a4 a5) : (State.lineWrite a0 a1 a2 a3 a4 a5).1.wired = a0.wired := by
  simp only [State.lineWrite, State.writeAt_wired]

theorem State.unwaitReq_wired (a0 a1) : (State.unwaitReq a0 a1).wired = a0.wired := by
  simp only [State.unwaitReq, wired_mk, wired_eta]

theorem State.trial_wired (a0 a1) (ha1 : ∀ b0, (a1 b0).wired = b0.wired) : (State.trial a0 a1).wired = a0.wired := by
  simp only [State.trial, wired_mk, wired_eta, ha1]

theorem State.setReq_wired (a0 a1 a2) : (State.setReq a0 a1 a2).wired = a0.wired := by
  simp only [State.setReq, wired_mk, wired_eta]

theorem State.answerReq_wired (a0 a1 a2) : (State.answerReq a0 a1 a2).wired = a0.wired :=
  (State.answerReq_sameBut a0 a1 a2).wired

theorem State.replicaHit_wired (s : State) (x n : Nat) (secs : BitVec 4) (p : State × Bytes)
    (h : s.replicaHit x n secs = some p) : p.1.wired = s.wired := by
  unfold State.replicaHit at h
  extract_lets q s1 at h
  have h1 : s1.wired = s.wired := by
    simp only [s1]
    split
    · exact State.checkSectors_wired _ _ _ _ _
    · rfl
  clear_value s1
  split at h
  · dsimp only at h
    split at h
    · obtain rfl := Option.some.inj h
      dsimp only
      rw [State.countSectors_wired, State.touchWay_wired]
      exact h1
    · exact nomatch h
  · exact nomatch h

theorem State.cmdFault_wired (a0 a1 a2 a3 a4) : (State.cmdFault a0 a1 a2 a3 a4).wired = a0.wired := by
  simp only [State.cmdFault, State.raise_wired]

theorem State.faultReq_wired (a0 a1 a2 a3 a4) : (State.faultReq a0 a1 a2 a3 a4).wired = a0.wired := by
  simp only [State.faultReq, State.answerReq_wired, State.cmdFault_wired]

theorem State.answerRead_wired (a0 a1 a2 a3 a4) : (State.answerRead a0 a1 a2 a3 a4).wired = a0.wired := by
  simp only [State.answerRead, wired_ite, ite_self, State.faultReq_wired, State.answerReq_wired]

theorem State.sendData_wired (a0 a1 a2 a3) : (State.sendData a0 a1 a2 a3).wired = a0.wired := by
  simp only [State.sendData, State.bulk_wired]

theorem State.enterReq_wired (a0 a1) : (State.enterReq a0 a1).wired = a0.wired := by
  simp only [State.enterReq]
  (repeat' split) <;> rfl

theorem State.serveOther_wired (a0 a1 a2 a3 a4 a5) : (State.serveOther a0 a1 a2 a3 a4 a5).wired = a0.wired := by
  unfold State.serveOther
  split
  · exact State.answerReq_wired _ _ _
  · dsimp only
    have htags := State.checkTags_wired a0 (a3 ^^^ 256) (setOf a4)
    generalize a0.checkTags (a3 ^^^ 256) (setOf a4) = t at htags ⊢
    split
    · rw [State.answerReq_wired]
      exact htags
    · cases hhit : t.replicaHit a3 a4 a5 with
      | some v =>
        dsimp only
        rw [State.answerRead_wired, State.sendData_wired, State.replicaHit_wired _ _ _ _ _ hhit]
        exact htags
      | none =>
        dsimp only
        rw [State.enterReq_wired, State.setReq_wired]
        exact htags

theorem State.inClass_wired (a0 a1) : (State.inClass a0 a1).wired = a0.wired := by
  simp only [State.inClass, wired_mk, wired_eta]

theorem State.onBehalf_wired (a0 a1) : (State.onBehalf a0 a1).wired = a0.wired := by
  simp only [State.onBehalf, State.inClass_wired]

theorem State.waitReq_wired (a0 a1) : (State.waitReq a0 a1).wired = a0.wired := by
  simp only [State.waitReq, wired_mk, wired_eta, wired_ite, ite_self, State.enterReq_wired]

theorem State.countRar_wired (a0 a1) : (State.countRar a0 a1).wired = a0.wired := by
  simp only [State.countRar, State.updSlice_wired]

theorem State.readHit_wired (a0 a1 a2 a3) : (State.readHit a0 a1 a2 a3).1.wired = a0.wired := by
  unfold State.readHit
  (repeat' split) <;> simp only [wired_ite, ite_self, State.touchWay_wired, State.countSectors_wired, State.countRar_wired]

theorem State.readInstall_wired (s : State) (x n : Nat) (found : Option Nat) (y : Way) (owner : Nat) (miss : BitVec 4)
    (bytes : Bytes) (rel : Bool) : (s.readInstall x n found y owner miss bytes rel).wired = s.wired := by
  unfold State.readInstall
  dsimp only
  split
  · rw [State.touchWay_wired, State.tagWrite_wired, State.updWay_wired, State.putSectors_wired]
  · split
    · next t w h =>
      rw [State.putSectors_wired, State.installWay_wired]
      exact wired_of_pair h (s.claimWay_wired _ _ _)
    · next t h => exact wired_of_pair h (s.claimWay_wired _ _ _)

theorem State.readFetched_wired (a0 a1 a2 a3 a4 a5 a6 a7 a8 a9 a10) : (State.readFetched a0 a1 a2 a3 a4 a5 a6 a7 a8 a9
  a10).1.wired = a0.wired := by
  simp only [State.readFetched, wired_ite, ite_self, State.countSectors_wired, State.countRar_wired, State.readInstall_wired]

theorem State.readMiss_wired (a0 a1 a2 a3 a4) : (State.readMiss a0 a1 a2 a3 a4).1.wired = a0.wired := by
  unfold State.readMiss
  dsimp only
  split
  · next h => exact wired_of_pair h (State.lineFetch_wired ..)
  · next h =>
    rw [State.readFetched_wired]
    exact wired_of_pair h (State.lineFetch_wired ..)
  · next h =>
    rw [State.readFetched_wired]
    exact wired_of_pair h (State.lineFetch_wired ..)
  · next h =>
    rw [State.readFetched_wired]
    exact wired_of_pair h (State.lineFetch_wired ..)

theorem State.ucRead_wired (a0 a1 a2 a3) : (State.ucRead a0 a1 a2 a3).1.wired = a0.wired := by
  simp only [State.ucRead]
  (repeat' split) <;> simp only [State.checkTags_wired, State.checkFound_wired, State.readHit_wired, State.readMiss_wired]

theorem State.sendAcross_wired (a0 a1 a2 a3) : (State.sendAcross a0 a1 a2 a3).wired = a0.wired := by
  simp only [State.sendAcross, State.sendData_wired, State.carry_wired]

theorem State.badRead_wired (a0 a1 a2 a3) : (State.badRead a0 a1 a2 a3).wired = a0.wired := by
  simp only [State.badRead, State.faultReq_wired]

theorem State.applyRead_wired (s : State) (rid : Nat) (r : Req) (x n : Nat) : (s.applyRead rid r x n).wired = s.wired := by
  unfold State.applyRead
  extract_lets secs
  have hread := State.ucRead_wired s x n secs
  generalize s.ucRead x n secs = y at hread ⊢
  obtain ⟨t, ans⟩ := y
  dsimp only at hread ⊢
  cases ans with
  | data b rar =>
    dsimp only
    rw [State.answerRead_wired]
    (repeat' split) <;> simp only [State.sendData_wired, State.sendAcross_wired, hread]
  | bad c =>
    rw [State.badRead_wired]
    exact hread
  | shield d a =>
    rw [State.answerReq_wired]
    exact hread

theorem State.poisonWrite_wired (a0 a1 a2 a3 a4 a5) : (State.poisonWrite a0 a1 a2 a3 a4 a5).wired = a0.wired := by
  simp only [State.poisonWrite, State.raise_wired]

theorem State.applyWrite_wired (s : State) (rid : Nat) (r : Req) (x n : Nat) : (s.applyWrite rid r x n).wired = s.wired := by
  unfold State.applyWrite
  extract_lets u
  have hwrite := (State.ucWrite_wired u x n (reqData r.tva r.accs) (reqMask r.tva r.accs) true).trans
    (State.bulk_wired s _ _ _ _)
  generalize u.ucWrite x n (reqData r.tva r.accs) (reqMask r.tva r.accs) true = y at hwrite ⊢
  obtain ⟨t, ans⟩ := y
  cases ans <;> simp only [State.answerReq_wired, State.poisonWrite_wired, State.signalUnits_wired, hwrite]

theorem State.atomicWrite_wired (a0 a1 a2 a3 a4 a5 a6 a7) : (State.atomicWrite a0 a1 a2 a3 a4 a5 a6 a7).1.wired = a0.wired := by
  unfold State.atomicWrite
  split
  · next h => exact wired_of_pair h (State.ucWrite_wired ..)
  · next h => exact wired_of_pair h (State.ucWrite_wired ..)
  · next h => exact wired_of_pair h (State.ucWrite_wired ..)

theorem State.atomicHome_wired (s : State) (x n off w : Nat) (op : AtomicOp) (kind : AtomicKind) (a cmp : Nat) :
    (s.atomicHome x n off w op kind a cmp).1.wired = s.wired := by
  unfold State.atomicHome
  dsimp only
  split
  · next h => exact wired_of_pair h (State.ucRead_wired ..)
  · next h => exact wired_of_pair h (State.ucRead_wired ..)
  · next h =>
    split
    · rw [State.atomicWrite_wired]
      exact wired_of_pair h (State.ucRead_wired ..)
    · exact wired_of_pair h (State.ucRead_wired ..)

theorem State.atomicAt_wired (a0 a1 a2 a3 a4 a5 a6) : (State.atomicAt a0 a1 a2 a3 a4 a5 a6).1.wired = a0.wired := by
  simp only [State.atomicAt, State.atomicHome_wired]

theorem State.applyAtomic_wired (s : State) (rid : Nat) (r : Req) (x : Nat) (op : AtomicOp) (kind : AtomicKind) (a cmp : W64) :
    (s.applyAtomic rid r x op kind a cmp).wired = s.wired := by
  unfold State.applyAtomic
  extract_lets u
  have hat := (State.atomicAt_wired u (r.dpa + r.tva % 128) r.atomicSize op kind a.toNat cmp.toNat).trans
    (State.bulk_wired s _ _ _ _)
  generalize u.atomicAt (r.dpa + r.tva % 128) r.atomicSize op kind a.toNat cmp.toNat = y at hat ⊢
  obtain ⟨t, ans⟩ := y
  cases ans <;> simp only [wired_ite, ite_self, State.answerReq_wired, State.badRead_wired, State.faultReq_wired,
    State.poisonWrite_wired, State.signalUnits_wired, hat]

theorem State.applyReq_wired (a0 a1 a2) : (State.applyReq a0 a1 a2).wired = a0.wired := by
  simp only [State.applyReq]
  (repeat' split) <;> simp only [State.onBehalf_wired, State.applyRead_wired, State.applyWrite_wired,
    State.applyAtomic_wired]

theorem State.setDir_wired (a0 a1 a2 a3) : (State.setDir a0 a1 a2 a3).wired = a0.wired := by
  simp only [State.setDir]
  (repeat' split) <;> simp only [State.tagWrite_wired, State.updWay_wired]

theorem State.askInvalidate_wired (a0 a1 a2) : (State.askInvalidate a0 a1 a2).wired = a0.wired := by
  simp only [State.askInvalidate, State.signalUnits_wired, State.setDir_wired]

theorem State.serveHome_wired (a0 a1 a2 a3 a4) : (State.serveHome a0 a1 a2 a3 a4).wired = a0.wired := by
  simp only [State.serveHome]
  (repeat' split) <;> simp only [State.answerReq_wired, State.waitReq_wired, State.applyReq_wired, State.askInvalidate_wired]

theorem State.serveReq_wired (a0 a1) : (State.serveReq a0 a1).wired = a0.wired := by
  simp only [State.serveReq]
  (repeat' split) <;> simp only [State.answerReq_wired, State.serveOther_wired, State.onBehalf_wired, State.serveHome_wired]

theorem State.serveOrQueue_wired (a0 a1) : (State.serveOrQueue a0 a1).wired = a0.wired := by
  simp only [State.serveOrQueue]
  (repeat' split) <;> simp only [wired_mk, wired_eta, implies_true, State.trial_wired, State.serveReq_wired,
    State.updChan_wired, State.enterReq_wired, State.waitReq_wired]

theorem serveList_wired (a0 a1 a2) : (serveList a0 a1 a2).wired = a2.wired := by
  induction a1 generalizing a2 with
  | nil => simp only [serveList]
  | cons x t ih =>
    simp only [serveList]
    (repeat' split) <;> simp only [wired_mk, wired_eta, State.unwaitReq_wired,
    State.serveOrQueue_wired, ih]

theorem State.serveWaiting_wired (a0 a1) : (State.serveWaiting a0 a1).wired = a0.wired := by
  simp only [State.serveWaiting, serveList_wired]

theorem State.addGang_wired (a0 a1 a2 a3 a4 a5) : (State.addGang a0 a1 a2 a3 a4 a5).wired = a0.wired := by
  simp only [State.addGang, wired_mk, wired_eta]

theorem State.agFault_wired (a0 a1 a2 a3) : (State.agFault a0 a1 a2 a3).wired = a0.wired := by
  simp only [State.agFault, State.cmdFault_wired]

theorem State.agDpa_wired (a0 a1 a2 a3) : (State.agDpa a0 a1 a2 a3).1.wired = a0.wired := by
  simp only [State.agDpa]
  (repeat' split) <;> simp only [State.agFault_wired]

theorem State.agAbort_wired (a0 a1 a2 a3) : (State.agAbort a0 a1 a2 a3).wired = a0.wired := by
  simp only [State.agAbort, State.stopCmd_wired]

theorem State.agWritePiece_wired (a0 a1 a2 a3 a4 a5 a6) : (State.agWritePiece a0 a1 a2 a3 a4 a5 a6).1.wired = a0.wired := by
  unfold State.agWritePiece
  dsimp only
  split
  · next h =>
    rw [State.serveWaiting_wired]
    exact wired_of_pair h (State.lineWrite_wired ..)
  · next h =>
    rw [State.serveWaiting_wired, State.poisonWrite_wired]
    exact wired_of_pair h (State.lineWrite_wired ..)
  · next h =>
    rw [State.agAbort_wired]
    exact wired_of_pair h (State.lineWrite_wired ..)

theorem agWritePieces_wired (g : Agent) (log : Bool) (l : List (Nat × Nat)) (b : Bytes) (s : State) :
    (agWritePieces g log l b s).1.wired = s.wired := by
  induction l generalizing b s with
  | nil => rfl
  | cons piece l ih =>
    unfold agWritePieces
    split
    · next t h => exact wired_of_pair h (s.agDpa_wired _ _ _)
    · next t dpa h =>
      have ht : t.wired = s.wired := wired_of_pair h (s.agDpa_wired _ _ _)
      split
      · next u h => exact (ih _ u).trans ((wired_of_pair h (t.agWritePiece_wired _ _ _ _ _ _)).trans ht)
      · next u h => exact (wired_of_pair h (t.agWritePiece_wired _ _ _ _ _ _)).trans ht

theorem State.agWrite_wired (a0 a1 a2 a3) : (State.agWrite a0 a1 a2 a3).1.wired = a0.wired := by
  simp only [State.agWrite, agWritePieces_wired, State.onBehalf_wired]

theorem State.writeSaved_wired (a0 a1 a2 a3) : (State.writeSaved a0 a1 a2 a3).1.wired = a0.wired := by
  simp only [State.writeSaved, wired_mk, wired_eta, State.agWrite_wired]

theorem State.updGang_wired (a0 a1 a2) : (State.updGang a0 a1 a2).wired = a0.wired :=
  (State.updGang_sameBut a0 a1 a2).wired

theorem promote_wired (a0 a1 a2 a3) : (promote a0 a1 a2 a3).wired = a3.wired := by
  induction a0 generalizing a3 with
  | zero => simp only [promote]
  | succ k ih =>
    simp only [promote]
    (repeat' split) <;> simp only [State.updGang_wired, ih]

theorem State.fillActive_wired (a0 a1 a2) : (State.fillActive a0 a1 a2).wired = a0.wired := by
  simp only [State.fillActive, promote_wired]

theorem State.settleLine_wired (a0 a1) : (State.settleLine a0 a1).wired = a0.wired := by
  simp only [State.settleLine, State.settleDir_wired]

theorem State.holdLine_wired (a0 a1) : (State.holdLine a0 a1).wired = a0.wired := by
  simp only [State.holdLine, State.holdWrite_wired]

theorem State.takeNow_wired (a0 a1 a2) : (State.takeNow a0 a1 a2).wired = a0.wired := by
  simp only [State.takeNow, State.applyReq_wired, State.settleLine_wired, State.holdLine_wired, State.unwaitReq_wired]

theorem State.dropReq_wired (a0 a1) : (State.dropReq a0 a1).wired = a0.wired :=
  (State.dropReq_sameBut a0 a1).wired

theorem State.settleReq_wired (a0 a1 a2) : (State.settleReq a0 a1 a2).wired = a0.wired := by
  simp only [State.settleReq]
  (repeat' split) <;> simp only [wired_mk, wired_eta, State.dropReq_wired, State.updGang_wired, State.updCmd_wired,
    State.fillActive_wired]

theorem State.takeShield_wired (a0 a1) : (State.takeShield a0 a1).wired = a0.wired := by
  simp only [State.takeShield]
  (repeat' split) <;> simp only [State.setReq_wired, State.dropReq_wired, State.settleReq_wired, State.stopCmd_wired]

theorem State.doWriteAck_wired (a0 a1) : (State.doWriteAck a0 a1).wired = a0.wired := by
  simp only [State.doWriteAck]
  (repeat' split) <;> simp only [State.dropReq_wired, State.settleReq_wired]

theorem State.setL1_wired (a0 a1 a2 a3) : (State.setL1 a0 a1 a2 a3).wired = a0.wired := by
  simp only [State.setL1, State.updBay_wired]

theorem State.dropL1_wired (a0 a1 a2) : (State.dropL1 a0 a1 a2).wired = a0.wired := by
  simp only [State.dropL1, State.updBay_wired]

theorem State.landLine_wired (a0 a1 a2) : (State.landLine a0 a1 a2).wired = a0.wired := by
  simp only [State.landLine, foldl_wired, implies_true, State.takeNow_wired]

theorem State.l1PutBack_wired (a0 a1 a2 a3 a4 a5) : (State.l1PutBack a0 a1 a2 a3 a4 a5).1.wired = a0.wired := by
  unfold State.l1PutBack
  split
  · next h =>
    rw [State.serveWaiting_wired]
    exact wired_of_pair h (State.lineWrite_wired ..)
  · next h =>
    rw [foldl_wired _ fun _ _ => State.poisonWrite_wired ..]
    exact wired_of_pair h (State.lineWrite_wired ..)
  · next h => exact wired_of_pair h (State.lineWrite_wired ..)

theorem State.l1WritePart_wired (s : State) (b line : Nat) (mask : BitVec 128) :
    (s.l1WritePart b line mask).1.wired = s.wired := by
  unfold State.l1WritePart
  split
  · rfl
  · split
    · rfl
    · extract_lets tva rest u v g
      have hv : v.wired = s.wired := (u.landLine_wired _ _).trans (s.setL1_wired _ _ _)
      split
      · next t h => exact (wired_of_pair h (v.agDpa_wired _ _ _)).trans hv
      · next t dpa h =>
        exact (State.l1PutBack_wired _ _ _ _ _ _).trans
          ((t.onBehalf_wired _).trans ((wired_of_pair h (v.agDpa_wired _ _ _)).trans hv))

theorem State.l1WriteMask_wired (a0 a1 a2 a3) : (State.l1WriteMask a0 a1 a2 a3).1.wired = a0.wired := by
  unfold State.l1WriteMask
  dsimp only
  split
  · next h => exact wired_of_pair h (State.l1WritePart_wired ..)
  · next h => exact wired_of_pair h (State.l1WritePart_wired ..)
  · next h =>
    rw [foldl_wired _ fun _ _ => State.agAbort_wired ..]
    exact wired_of_pair h (State.l1WritePart_wired ..)

theorem State.l1WriteBack_wired (a0 a1 a2) : (State.l1WriteBack a0 a1 a2).1.wired = a0.wired := by
  simp only [State.l1WriteBack, State.l1WriteMask_wired]

theorem State.l1Room_wired (a0 a1) : (State.l1Room a0 a1).wired = a0.wired := by
  simp only [State.l1Room, wired_ite, ite_self, State.drawChoice_wired, State.dropL1_wired, State.l1WriteBack_wired]

theorem State.l1Fill_wired (a0 a1 a2 a3 a4) : (State.l1Fill a0 a1 a2 a3 a4).wired = a0.wired := by
  simp only [State.l1Fill]
  (repeat' split) <;> simp only [State.setL1_wired, State.l1Room_wired]

theorem State.setReg_wired (a0 a1 a2 a3 a4) : (State.setReg a0 a1 a2 a3 a4).wired = a0.wired :=
  (State.setReg_sameBut a0 a1 a2 a3 a4).wired

theorem State.freeReg_wired (a0 a1 a2) : (State.freeReg a0 a1 a2).wired = a0.wired := by
  simp only [State.freeReg, wired_mk, wired_eta, wired_ite, ite_self, State.setReg_wired]

theorem State.setRegByte_wired (a0 a1 a2 a3 a4) : (State.setRegByte a0 a1 a2 a3 a4).wired = a0.wired := by
  simp only [State.setRegByte, State.setReg_wired]

theorem State.deliver_wired (a0 a1 a2 a3 a4) : (State.deliver a0 a1 a2 a3 a4).wired = a0.wired := by
  simp only [State.deliver, wired_ite, foldl_wired, ite_self, implies_true, State.freeReg_wired, State.setRegByte_wired]

theorem State.deliverLoad_wired (a0 a1 a2 a3) : (State.deliverLoad a0 a1 a2 a3).wired = a0.wired := by
  simp only [State.deliverLoad, wired_ite, ite_self, State.l1Fill_wired, State.deliver_wired, State.settleReq_wired]

theorem State.l1Learn_wired (a0 a1 a2 a3 a4) : (State.l1Learn a0 a1 a2 a3 a4).wired = a0.wired := by
  simp only [State.l1Learn]
  (repeat' split) <;> rfl

theorem State.deliverAtomic_wired (a0 a1 a2 a3 a4 a5 a6 a7) : (State.deliverAtomic a0 a1 a2 a3 a4 a5 a6 a7).wired = a0.wired
  := by
  simp only [State.deliverAtomic, wired_ite, foldl_wired, ite_self, implies_true, State.l1Learn_wired,
    State.setRegByte_wired, State.settleReq_wired]

theorem State.doReadReply_wired (a0 a1 a2) : (State.doReadReply a0 a1 a2).wired = a0.wired := by
  simp only [State.doReadReply]
  (repeat' split) <;> simp only [State.dropReq_wired, State.settleReq_wired, State.cmdFault_wired, State.deliverLoad_wired,
    State.bulk_wired, State.onBehalf_wired, State.count_wired, State.deliverAtomic_wired]

theorem State.landReqs_wired (a0 a1) : (State.landReqs a0 a1).wired = a0.wired := by
  unfold State.landReqs
  refine foldl_wired _ (fun s b => ?_) _ _
  (repeat' split) <;> simp only [State.takeNow_wired, State.takeShield_wired, State.doWriteAck_wired,
    State.doReadReply_wired]

theorem State.landEnded_wired (a0 a1 a2) : (State.landEnded a0 a1 a2).wired = a0.wired :=
  (State.landEnded_sameBut a0 a1 a2).wired

theorem l1WriteBackAll_wired (a0 a1 a2) : (l1WriteBackAll a0 a1 a2).1.wired = a2.wired := by
  induction a1 generalizing a2 with
  | nil => simp only [l1WriteBackAll]
  | cons x t ih => simp only [l1WriteBackAll, State.l1WriteBack_wired, ih]

theorem State.l1FlushCmd_wired (a0 a1 a2) : (State.l1FlushCmd a0 a1 a2).wired = a0.wired := by
  simp only [State.l1FlushCmd, State.landEnded_wired, l1WriteBackAll_wired]

theorem addGangs_wired (a0 a1 a2 a3 a4) : (addGangs a0 a1 a2 a3 a4).wired = a4.wired := by
  induction a3 generalizing a4 with
  | zero => simp only [addGangs]
  | succ k ih => simp only [addGangs, State.updCmd_wired, State.addGang_wired, ih]

theorem State.doLaunch_wired (a0 a1) : (State.doLaunch a0 a1).wired = a0.wired := by
  simp only [State.doLaunch, wired_ite, foldl_wired, ite_self, implies_true, State.fillActive_wired, addGangs_wired]

theorem State.writeImage_wired (a0 a1 a2 a3) : (State.writeImage a0 a1 a2 a3).wired = a0.wired := by
  simp only [State.writeImage, State.writeSaved_wired]

theorem State.settlePhase_wired (a0 a1) : (State.settlePhase a0 a1).wired = a0.wired := by
  simp only [State.settlePhase, State.updCmd_wired]

theorem State.noteImage_wired (a0 a1 a2 a3) : (State.noteImage a0 a1 a2 a3).wired = a0.wired := by
  simp only [State.noteImage, wired_mk, wired_eta, wired_ite, ite_self, State.event_wired]

theorem State.saveBay_wired (a0 a1 a2 a3) : (State.saveBay a0 a1 a2 a3).wired = a0.wired := by
  simp only [State.saveBay, wired_mk, wired_eta, wired_ite, foldl_wired, ite_self, implies_true, State.doLaunch_wired,
    State.landReqs_wired, State.l1FlushCmd_wired, State.updGang_wired, State.writeImage_wired, State.updCmd_wired,
    State.leaveBay_wired, State.settlePhase_wired, State.noteImage_wired]

theorem State.saveUnit_wired (a0 a1 a2 a3) : (State.saveUnit a0 a1 a2 a3).wired = a0.wired := by
  simp only [State.saveUnit, State.settlePhase_wired, State.unholdBay_wired]
  (repeat' split) <;> simp only [State.writeImage_wired, State.updCmd_wired, State.noteImage_wired, State.updBay_wired]

theorem State.carryStop_wired (a0 a1 a2) : (State.carryStop a0 a1 a2).wired = a0.wired := by
  simp only [State.carryStop, wired_ite, ite_self, State.signalUnits_wired, State.saveBay_wired, State.saveUnit_wired]

theorem State.failHostReads_wired (a0 a1) : (State.failHostReads a0 a1).wired = a0.wired := by
  simp only [State.failHostReads, foldl_wired, implies_true, State.doReadReply_wired]

end Sys2Proof.Machine

/-! ## Bring-up and the PCIe links (O41) -/

namespace Sys2Proof.Machine

/-! ### Entering a state or a step (Table 3.1, Table 3.3) -/

theorem State.signal_sameBut (s : State) : s.sameBut s.signal [.free, .plb] := by
  unfold State.signal
  split
  · exact ((s.withFree_sameBut _).mono (by decide)).trans ((State.withPlb_sameBut _ _).mono (by decide))
  · exact (State.withPlb_sameBut _ _).mono (by decide)

theorem State.enterState_sameBut (s : State) (x : DevState) : s.sameBut (s.enterState x) [.free, .plb, .dev] := by
  unfold State.enterState
  split
  · exact s.sameBut_refl _
  · exact ((s.withDev_sameBut _).mono (by decide)).trans ((State.signal_sameBut _).mono (by decide))

theorem State.beginStep_sameBut (s : State) (n : Nat) : s.sameBut (s.beginStep n) [.free, .plb, .dev] :=
  ((s.withDev_sameBut _).mono (by decide)).trans (State.enterState_sameBut _ _)

theorem State.beginStep_dev (s : State) (n : Nat) : (s.beginStep n).dev =
    { s.dev with step := n, stepTime := s.dev.ticks, stepWaited := 0, state := .bringup } := State.enterState_dev _ _

/-- In `t` bring-up stands at step `n`, from the time that `s` shows. -/
def State.Reaches (s t : State) (n : Nat) : Prop :=
  t.dev.state = .bringup ∧ t.dev.step = n ∧ t.dev.stepTime = s.dev.ticks

theorem State.beginStep_reaches {s u : State} (h : u.dev.ticks = s.dev.ticks) (n : Nat) : s.Reaches (u.beginStep n) n := by
  rw [State.Reaches, State.beginStep_dev]
  exact ⟨rfl, rfl, h⟩

theorem State.failBringup_dev (s : State) (code unit : Nat) : (s.failBringup code unit).dev =
    { s.dev with failCode := code, failUnit := unit, state := .failed } := State.enterState_dev _ _

theorem State.failBringup_failed (s : State) (code unit : Nat) : (s.failBringup code unit).dev.state = .failed ∧
    (s.failBringup code unit).dev.failCode = code ∧ (s.failBringup code unit).dev.failUnit = unit := by
  rw [State.failBringup_dev]
  exact ⟨rfl, rfl, rfl⟩

theorem State.failBringup_sameBut (s : State) (code unit : Nat) : s.sameBut (s.failBringup code unit) [.free, .plb, .dev] :=
  ((s.withDev_sameBut _).mono (by decide)).trans (State.enterState_sameBut _ _)

/-! ### Step 2: fuses, field repairs, guard-bands and the journal -/

/-- What field repairs touch. -/
def repairParts : List Part := [.slices, .cmds, .flt, .dev, .mem, .uc]

theorem State.applyEntry_repairs (s : State) (d slot : Nat) (entry : W64) :
    s.sameBut (s.applyEntry d slot entry false) repairParts ∧ s.keepsDev (s.applyEntry d slot entry false) := by
  have hsame : ∀ {t : State} {ps : List Part}, s.sameBut t ps → ps ⊆ repairParts → Part.dev ∉ ps →
      s.sameBut t repairParts ∧ s.keepsDev t := fun h hps hdev => ⟨h.mono fun _ hp => hps hp, h.keepsDev hdev⟩
  unfold State.applyEntry
  dsimp only
  split
  · exact hsame (s.sameBut_refl []) (by decide) (by decide)
  · split
    · exact ⟨(s.raise_sameBut _ _).mono (by decide), s.raise_keepsDev _ _⟩
    · split
      · unfold State.applyRemap
        dsimp only
        split
        · exact hsame (s.sameBut_refl []) (by decide) (by decide)
        · exact hsame (s.updChan_sameBut _ _) (by decide) (by decide)
      · split
        · unfold State.applyPinKill
          rw [if_neg (by decide)]
          exact hsame (s.updChan_sameBut _ _) (by decide) (by decide)
        · split
          · exact hsame (s.withUc_sameBut _) (by decide) (by decide)
          · exact hsame (s.sameBut_refl []) (by decide) (by decide)

theorem applyEntries_repairs (d : Nat) (es : List W64) (slot : Nat) (s : State) :
    s.sameBut (applyEntries d false slot es s) repairParts ∧ s.keepsDev (applyEntries d false slot es s) := by
  induction es generalizing slot s with
  | nil => exact ⟨s.sameBut_refl _, s.keepsDev_refl⟩
  | cons e es ih =>
    unfold applyEntries
    split
    · exact ih _ _
    · obtain ⟨hsame, hdev⟩ := s.applyEntry_repairs d slot e
      obtain ⟨hsame', hdev'⟩ := ih (slot + 1) (s.applyEntry d slot e false)
      exact ⟨hsame.trans hsame', hdev.trans hdev'⟩

theorem State.applyRepairs_all (s : State) (l : List Nat) :
    s.sameBut (l.foldl (fun s d => s.applyRepairs d false) s) repairParts ∧
      s.keepsDev (l.foldl (fun s d => s.applyRepairs d false) s) :=
  ⟨foldl_sameBut (fun s d => (applyEntries_repairs d _ 0 s).1) l s, foldl_keepsDev (fun s d => (applyEntries_repairs d _ 0 s).2) l s⟩

theorem State.vrTransaction_sameBut (s : State) (reg : Nat) (acked : Bool) : s.sameBut (s.vrTransaction reg acked) [.plb] :=
  State.withPlb_sameBut _ _

theorem State.startRegulator_sameBut (s : State) (answers : List Bool) (reg : Nat) :
    s.sameBut (s.startRegulator answers reg) [.plb] := by
  unfold State.startRegulator
  extract_lets s1 p s2 s3
  have h2 : s1.sameBut s2 [.plb] := by
    simp only [s2]
    split
    · exact State.withPlb_sameBut _ _
    · exact s1.sameBut_refl _
  have h3 : s.sameBut s3 [.plb] := ((s.vrTransaction_sameBut _ _).trans h2).trans (s2.vrTransaction_sameBut _ _)
  split
  · refine h3.trans ?_
    unfold State.writeSetPoint
    split
    · exact s3.sameBut_refl _
    · exact State.withPlb_sameBut _ _
  · exact h3

theorem State.restoreGuards_sameBut (s : State) (answers : List Bool) : s.sameBut (s.restoreGuards answers) [.tel, .plb] := by
  unfold State.restoreGuards
  extract_lets j s1
  have h1 : s.sameBut s1 [.tel, .plb] := by
    simp only [s1]
    split
    · exact foldl_sameBut (fun s d => (s.withTel_sameBut _).mono (by decide)) _ s
    · exact s.sameBut_refl _
  exact h1.trans (foldl_sameBut (fun s reg => (s.startRegulator_sameBut answers reg).mono (by decide)) _ s1)

theorem State.appendJournal_find (s : State) (j : Journal) :
    ∃ n k, Tbl.find? (s.appendJournal j).nv.log n = some (Journal.bytes k) ∧ k.boots = j.boots :=
  ⟨_, _, (Tbl.find?_put _ _ _ _).trans (if_pos rfl), rfl⟩

theorem State.appendJournal_dev (s : State) (j : Journal) :
    (s.appendJournal j).dev = { s.dev with journalAt := some s.dev.ticks } := rfl

theorem State.appendJournal_fusesOk (s : State) (j : Journal) : (s.appendJournal j).nv.fusesOk = s.nv.fusesOk := rfl

theorem State.endStep2_journal (s : State) (ok : Bool) (answers : List Bool) : ∃ t : State,
    t.nv.fusesOk = ok ∧ t.dev.ticks = s.dev.ticks ∧
    (∃ n k, Tbl.find? t.nv.log n = some (Journal.bytes k) ∧
      k.boots = if s.nv.journal.valid then s.nv.journal.boots + 1 else 1) ∧
    s.endStep2 ok answers = if ok then ((List.range 8).foldl (fun s d => s.applyRepairs d false) t).beginStep 3
      else t.failBringup failFuse 0 := by
  have hguards := State.restoreGuards_sameBut { s with nv := { s.nv with fusesOk := ok } } answers
  have hnv : (State.restoreGuards { s with nv := { s.nv with fusesOk := ok } } answers).nv = { s.nv with fusesOk := ok } :=
    hguards .nv (by decide)
  have hdev : (State.restoreGuards { s with nv := { s.nv with fusesOk := ok } } answers).dev = s.dev := hguards .dev (by decide)
  have hsame : ({ s.nv with fusesOk := ok } : Nv).journal = s.nv.journal := rfl
  obtain ⟨n, k, hfind, hboots⟩ := State.appendJournal_find (State.restoreGuards { s with nv := { s.nv with fusesOk := ok } } answers)
    { s.nv.journal with boots := if s.nv.journal.valid then s.nv.journal.boots + 1 else 1 }
  refine ⟨_, ?_, ?_, ⟨n, k, hfind, hboots⟩, ?_⟩
  · rw [State.appendJournal_fusesOk, hnv]
  · rw [State.appendJournal_dev, hdev]
  · rw [State.endStep2, State.journalBoot, hnv, hsame]

theorem State.endStep2_ends (s : State) (ok : Bool) (answers : List Bool) : (s.endStep2 ok answers).nv.fusesOk = ok ∧
    (if ok then s.Reaches (s.endStep2 ok answers) 3
      else (s.endStep2 ok answers).dev.state = .failed ∧ (s.endStep2 ok answers).dev.failCode = 1 ∧
        (s.endStep2 ok answers).dev.failUnit = 0) ∧
    ∃ n k, Tbl.find? (s.endStep2 ok answers).nv.log n = some (Journal.bytes k) ∧
      k.boots = if s.nv.journal.valid then s.nv.journal.boots + 1 else 1 := by
  obtain ⟨t, hfuses, hticks, ⟨n, k, hfind, hboots⟩, hend⟩ := s.endStep2_journal ok answers
  rw [hend]
  cases ok
  · have hnv : (t.failBringup failFuse 0).nv = t.nv := t.failBringup_sameBut _ _ .nv (by decide)
    rw [if_neg (by decide), if_neg (by decide), hnv]
    exact ⟨hfuses, t.failBringup_failed _ _, n, k, hfind, hboots⟩
  · rw [if_pos rfl, if_pos rfl]
    obtain ⟨hsame, hdev⟩ := t.applyRepairs_all (List.range 8)
    generalize (List.range 8).foldl (fun s d => s.applyRepairs d false) t = u at hsame hdev
    have hnv : (u.beginStep 3).nv = t.nv := (u.beginStep_sameBut 3 .nv (by decide)).trans (hsame .nv (by decide))
    rw [hnv]
    exact ⟨hfuses, State.beginStep_reaches ((congrArg Dev.ticks hdev).trans hticks) 3, n, k, hfind, hboots⟩

/-! ### Steps 3 to 7 -/

theorem least_cons_of_le {d : Nat} {ds : List Nat} (h : ∀ e ∈ ds, d ≤ e) : least (d :: ds) = some d := by
  have hleast : ∀ {l : List Nat} {y : Nat}, least l = some y → y ∈ l := by
    intro l
    induction l with
    | nil => exact fun h => absurd h (by simp [least])
    | cons x t ih =>
      intro y hy
      unfold least at hy
      split at hy
      · next z hz =>
        obtain rfl : min x z = y := Option.some.inj hy
        obtain hmin | hmin := min_choice x z
        · rw [hmin]
          exact List.mem_cons_self
        · rw [hmin]
          exact List.mem_cons_of_mem _ (ih hz)
      · exact Option.some.inj hy ▸ List.mem_cons_self
  unfold least
  split
  · next y hy => rw [min_eq_left (h y (hleast hy))]
  · rfl

/-- A property of one index that the step for that index brings about, and the steps for the others keep, holds of every index
that a fold goes through. -/
theorem foldl_each {f : State → Nat → State} {Q : State → Prop} {P : State → Nat → Prop} (hQ : ∀ s a, Q s → Q (f s a))
    (hkeep : ∀ s a i, Q s → P s i → P (f s a) i) (hnew : ∀ s i, Q s → P (f s i) i) {l : List Nat} {i : Nat} (hi : i ∈ l)
    {s : State} (hs : Q s) : P (l.foldl f s) i := by
  induction l generalizing s with
  | nil => exact absurd hi (by simp)
  | cons a l ih =>
    obtain rfl | hi := List.mem_cons.mp hi
    · exact (List.foldlRecOn (motive := fun t => Q t ∧ P t i) l f ⟨hQ s i hs, hnew s i hs⟩
        fun t ⟨hqt, hpt⟩ b _ => ⟨hQ t b hqt, hkeep t b i hqt hpt⟩).2
    · exact ih hi (hQ s a hs)

theorem State.trainAll_sameBut (s : State) : s.sameBut s.trainAll [.mem] := foldl_sameBut (fun s c => s.updChan_sameBut c _) _ s

theorem State.trainAll_trained (s : State) {c : Nat} (hc : c < 128) : (s.trainAll.chan c).trained = true := by
  refine foldl_each (Q := fun _ => True) (P := fun t k => (t.chan k).trained = true) (fun _ _ _ => trivial) ?_ ?_
    (List.mem_range.mpr hc) trivial
  · intro t a i _ h
    rw [State.chan_updChan]
    split
    · rfl
    · exact h
  · intro t i _
    rw [State.chan_updChan_same]

theorem State.endStep3_none (s : State) : s.Reaches (s.endStep3 []) 4 ∧ (s.endStep3 []).pins.memResetN = BitVec.allOnes 32 :=
  ⟨State.beginStep_reaches (u := { s with pins := { s.pins with memResetN := BitVec.allOnes 32 } }) rfl 4,
    congrArg Pins.memResetN (State.beginStep_sameBut { s with pins := { s.pins with memResetN := BitVec.allOnes 32 } } 4 .pins
      (by decide))⟩

theorem State.endStep3_some (s : State) {ds : List Nat} {d : Nat} (h : least ds = some d) :
    s.endStep3 ds = s.failBringup failRepair d := by
  unfold State.endStep3
  rw [h]

theorem State.endStep4_trains (s : State) {failed unsupported : List Nat} (rates : List (List Nat)) {density : List Nat}
    (h : badMemory failed unsupported density = none) : ∃ t, s.endStep4 failed unsupported rates density = t ∧
      s.Reaches t 5 ∧ t.dev.memRate = commonRate rates ∧ t.dev.memDensity = density.getD 0 0 ∧
      ∀ c, c < 128 → (t.chan c).trained = true := by
  have hdev : s.trainAll.dev = s.dev := s.trainAll_sameBut .dev (by decide)
  unfold State.endStep4
  rw [h]
  dsimp only
  generalize hu : ({ s.trainAll with dev := { s.trainAll.dev with
      memRate := commonRate rates, memDensity := density.getD 0 0 } } : State) = u
  have hudev : u.dev = { s.dev with memRate := commonRate rates, memDensity := density.getD 0 0 } := by rw [← hu, ← hdev]
  have hmem : u.mem = s.trainAll.mem := hu ▸ rfl
  clear hu
  refine ⟨_, rfl, State.beginStep_reaches (by rw [hudev]) 5, ?_, ?_, fun c hc => ?_⟩
  · rw [State.beginStep_dev, hudev]
  · rw [State.beginStep_dev, hudev]
  · rw [State.chan, (u.beginStep_sameBut 5 .mem (by decide) : _ = u.mem), hmem]
    have htrained := s.trainAll_trained hc
    rwa [State.chan] at htrained

theorem State.endStep4_fails (s : State) {failed unsupported : List Nat} (rates : List (List Nat)) {density : List Nat}
    {code unit : Nat} (h : badMemory failed unsupported density = some (code, unit)) :
    s.endStep4 failed unsupported rates density = s.failBringup code unit := by
  rw [State.endStep4, h]

theorem State.endStep5_valid (s : State) :
    s.Reaches s.endStep5 6 ∧ s.endStep5.dev.memValid = true ∧ s.endStep5.mem.dram = s.mem.dram := by
  unfold State.endStep5
  generalize hu : ({ s with mem := { s.mem with notFresh := [] }, dev := { s.dev with memValid := true } } : State) = u
  have hticks : u.dev.ticks = s.dev.ticks := hu ▸ rfl
  have hvalid : u.dev.memValid = true := hu ▸ rfl
  have hdram : u.mem.dram = s.mem.dram := hu ▸ rfl
  clear hu
  refine ⟨State.beginStep_reaches hticks 6, ?_, ?_⟩
  · rw [State.beginStep_dev]
    exact hvalid
  · rw [(u.beginStep_sameBut 6 .mem (by decide) : _ = u.mem)]
    exact hdram

theorem State.endStep6_waits (s : State) (h : pickSlot (s.slotFw false) (s.slotFw true) = none) :
    s.endStep6 = s.enterState .fwWait := by
  unfold State.endStep6
  rw [h]

theorem State.endStep6_picks (s : State) (h : pickSlot (s.slotFw false) (s.slotFw true) ≠ none) :
    ∃ version slotB, s.endStep6 = (s.runFirmware version false slotB).pickImage := by
  obtain ⟨slotB, hslot⟩ := Option.ne_none_iff_exists'.mp h
  refine ⟨fwVersionOf (s.nv.slotImage (portBit slotB) badFwLen), slotB, ?_⟩
  unfold State.endStep6
  rw [hslot]

section Image
variable {s : State}

theorem State.pickImage_waits (h : pickSlot (s.slotWhole false) (s.slotWhole true) = none) :
    s.pickImage = s.enterState .imageWait := by
  unfold State.pickImage
  rw [h]

theorem State.pickImage_loads (h : pickSlot (s.slotWhole false) (s.slotWhole true) ≠ none) :
    ∃ b n, s.pickImage = ((s.loadImage b n).startupStatus).beginStep 7 := by
  obtain ⟨slotB, hslot⟩ := Option.ne_none_iff_exists'.mp h
  refine ⟨s.nv.slotImage (2 + portBit slotB) badImgLen, portBit slotB, ?_⟩
  unfold State.pickImage
  rw [hslot]

end Image

theorem State.endStep6_runs (s : State) (h : pickSlot (s.slotFw false) (s.slotFw true) ≠ none) :
    s.endStep6.dev.fwRunning = true ∧
    (pickSlot (s.slotWhole false) (s.slotWhole true) = none → s.endStep6.dev.state = .imageWait) ∧
    (pickSlot (s.slotWhole false) (s.slotWhole true) ≠ none → s.Reaches s.endStep6 7) := by
  obtain ⟨version, slotB, hend⟩ := s.endStep6_picks h
  generalize hu : s.runFirmware version false slotB = u at hend
  have hpick : pickSlot (u.slotWhole false) (u.slotWhole true) = pickSlot (s.slotWhole false) (s.slotWhole true) := hu ▸ rfl
  have hticks : u.dev.ticks = s.dev.ticks := hu ▸ rfl
  have hrun : u.dev.fwRunning = true := hu ▸ rfl
  clear hu
  rw [hend]
  by_cases himage : pickSlot (u.slotWhole false) (u.slotWhole true) = none
  · rw [State.pickImage_waits himage, State.enterState_dev]
    exact ⟨hrun, fun _ => rfl, fun h => absurd (hpick.symm.trans himage) h⟩
  · obtain ⟨b, n, hload⟩ := State.pickImage_loads himage
    rw [hload]
    refine ⟨?_, fun h => absurd (hpick.trans h) himage, fun _ =>
      State.beginStep_reaches (u := (u.loadImage b n).startupStatus) hticks 7⟩
    rw [State.beginStep_dev]
    exact hrun

theorem Tbl.get_filter_map {f : Nat → Nat} (l : List Nat) (i : Nat) :
    Tbl.get 0 ((l.map fun i => (i, f i)).filter fun e => decide (e.2 ≠ 0)) i = if i ∈ l then f i else 0 := by
  induction l with
  | nil => rfl
  | cons a l ih =>
    by_cases hzero : f a = 0
    · rw [List.map_cons, List.filter_cons_of_neg (by simpa using hzero), ih]
      by_cases hia : i = a
      · simp [hia, hzero]
      · simp [hia]
    · rw [List.map_cons, List.filter_cons_of_pos (by simpa using hzero), Tbl.get, ih]
      by_cases hia : i = a
      · simp [hia]
      · simp [hia]

theorem State.endStep7_reaches (s : State) : s.Reaches s.endStep7 8 := by
  unfold State.endStep7
  exact State.beginStep_reaches rfl 8

theorem State.endStep7_routes (s : State) {i : Nat} (hi : i < 64) :
    Tbl.get 0 s.endStep7.fab.routes i = s.whole.routes.getD i 0 := by
  have hfab := State.beginStep_sameBut { s with fab := { s.fab with
    routes := ((List.range 64).map (fun i => (i, s.whole.routes.getD i 0))).filter (fun e => decide (e.2 ≠ 0))
    weights := s.whole.weights } } 8 .fab (by decide)
  refine (congrArg (fun f : Fab => Tbl.get 0 f.routes i) hfab).trans ?_
  exact (Tbl.get_filter_map _ i).trans (if_pos (List.mem_range.mpr hi))

/-! ### Step 8: slices come to life -/

theorem State.injected_sameBut (s : State) (checker unit : Nat) : s.sameBut (s.injected checker unit).2 [.flt] := by
  unfold State.injected
  dsimp only
  split
  · exact s.withFlt_sameBut _
  · exact s.sameBut_refl _

theorem writeItems_sameBut (quoin : Bool) (items : List Bytes) (s : State) : s.sameBut (writeItems quoin items s).1 [.flt] := by
  induction items generalizing s with
  | nil => exact s.sameBut_refl _
  | cons x items ih => exact (s.injected_sameBut 6 _).trans (ih _)

/-- The copies of a slice are written behind one draw and the injections of the two quoins. -/
theorem State.writeCopies_eq (s : State) (i : Nat) : ∃ (t : State) (c0 c1 : Bytes), s.sameBut t [.free, .flt] ∧
    s.writeCopies i = t.updSlice i fun v => { v with copy0 := c0, copy1 := c1 } := by
  have hwrite : ∀ (u : State) quoin items, u.sameBut (writeItems quoin items u).1 [.free, .flt] := fun u quoin items =>
    (writeItems_sameBut quoin items u).mono (by decide)
  have h0 : s.sameBut (s.drawChoice 4096).2 [.free, .flt] := (s.drawChoice_sameBut 4096).mono (by decide)
  unfold State.writeCopies
  extract_lets d
  generalize hdraw : s.drawChoice 4096 = draw at h0
  obtain ⟨first, u⟩ := draw
  dsimp only
  generalize copyItems i d first (u.quarterMask d) = items
  exact ⟨_, _, _, (h0.trans (hwrite u false items)).trans (hwrite _ true items), rfl⟩

theorem State.writeCopies_sameBut (s : State) (i : Nat) : s.sameBut (s.writeCopies i) [.free, .flt, .slices] := by
  obtain ⟨t, c0, c1, ht, heq⟩ := s.writeCopies_eq i
  rw [heq]
  exact (ht.mono (by decide)).trans ((t.updSlice_sameBut i _).mono (by decide))

theorem State.writeCopies_state (s : State) (i k : Nat) : ((s.writeCopies i).slice k).state = (s.slice k).state := by
  obtain ⟨t, c0, c1, ht, heq⟩ := s.writeCopies_eq i
  have hslice : t.slice k = s.slice k := by
    rw [State.slice, State.slice, (ht .slices (by decide) : t.slices = s.slices)]
  rw [heq, State.slice_updSlice, ← hslice]
  split
  case isTrue hk => exact hk ▸ rfl
  case isFalse => rfl

theorem State.startSlice_sameBut (s : State) (i : Nat) : s.sameBut (s.startSlice i) [.free, .flt, .slices] :=
  ((s.updSlice_sameBut i _).mono (by decide)).trans (State.writeCopies_sameBut _ i)

theorem State.startSlice_state (s : State) (i k : Nat) : ((s.startSlice i).slice k).state =
    if k = i then (if (Tbl.get {} s.whole.slices i).enabled then .active else .off) else (s.slice k).state := by
  unfold State.startSlice
  dsimp only
  rw [State.writeCopies_state, State.slice_updSlice]
  split
  case isTrue => rfl
  case isFalse => rfl

theorem State.startSlices_state (s : State) {i : Nat} (hi : i < 256) :
    (((List.range 256).foldl State.startSlice s).slice i).state
      = if (Tbl.get {} s.whole.slices i).enabled then .active else .off := by
  refine foldl_each (Q := fun t => t.whole = s.whole)
    (P := fun t k => (t.slice k).state = if (Tbl.get {} s.whole.slices k).enabled then .active else .off) ?_ ?_ ?_
    (List.mem_range.mpr hi) rfl
  · exact fun t a h => (t.startSlice_sameBut a .whole (by decide)).trans h
  · intro t a k hwhole h
    rw [State.startSlice_state, hwhole]
    split
    case isTrue hk => rw [hk]
    case isFalse => exact h
  · intro t k hwhole
    rw [State.startSlice_state, hwhole, if_pos rfl]

/-- What step 8 starts behind the slices: ports that train, and the scrubbers. -/
theorem State.endStep8_eq (s : State) : ∃ t : State, s.sameBut t [.bays, .free, .flt, .slices, .sweld, .mem] ∧
    (∀ i, i < 256 → (t.slice i).state = if (Tbl.get {} s.whole.slices i).enabled then .active else .off) ∧
    s.endStep8 = (State.notePackageEnd { t with
      flt := { t.flt with mask := s.whole.errMaskInit, threshold := s.whole.bucketThreshold, leak := s.whole.bucketLeak }
      dev := { t.dev with readyMs := (t.dev.ticks - t.dev.resetTime) / 1000000 } }).enterState .ready := by
  unfold State.endStep8
  extract_lets w s1 s2 s3 s4
  have h1 : s.sameBut s1 [.bays] := foldl_sameBut (fun s b => s.updBay_sameBut b _) _ s
  have h2 : s1.sameBut s2 [.free, .flt, .slices] := foldl_sameBut (fun s i => s.startSlice_sameBut i) _ s1
  have h3 : s2.sameBut s3 [.sweld] := foldl_sameBut (fun s p => s.updPort_sameBut p _) _ s2
  have h4 : s3.sameBut s4 [.mem] := foldl_sameBut (fun s c => s.updChan_sameBut c _) _ s3
  refine ⟨s4, ?_, fun i hi => ?_, rfl⟩
  · exact ((h1.mono (by decide)).trans (h2.mono (by decide))).trans ((h3.mono (by decide)).trans (h4.mono (by decide)))
  · have hslices : s4.slices = s2.slices := (h4 .slices (by decide)).trans (h3 .slices (by decide))
    have hslice : s4.slice i = s2.slice i := by rw [State.slice, State.slice, hslices]
    rw [hslice, ← (h1 .whole (by decide) : s1.whole = s.whole)]
    exact s1.startSlices_state hi

theorem State.notePackageEnd_sameBut (s : State) : s.sameBut s.notePackageEnd [.dev] := by
  unfold State.notePackageEnd
  split
  · exact s.sameBut_refl _
  · exact s.withDev_sameBut _

theorem State.notePackageEnd_manager {s : State} (h : s.dev.resetCause = 2) :
    s.notePackageEnd.dev.resetDone = true ∧ s.notePackageEnd.dev.lastDomain = 6 := by
  rw [State.notePackageEnd, if_neg (by rw [h]; decide)]
  exact ⟨by simp [h, causeManager], rfl⟩

theorem State.endStep8_ready (s : State) : s.endStep8.dev.state = .ready ∧ s.endStep8.flt.mask = s.whole.errMaskInit ∧
    (s.dev.resetCause = 2 → s.endStep8.dev.resetDone = true ∧ s.endStep8.dev.lastDomain = 6) ∧
    ∀ i, i < 256 → (s.endStep8.slice i).state = if (Tbl.get {} s.whole.slices i).enabled then .active else .off := by
  obtain ⟨t, ht, hslices, heq⟩ := s.endStep8_eq
  have hdev : t.dev = s.dev := ht .dev (by decide)
  rw [heq]
  generalize hu : ({ t with
      flt := { t.flt with mask := s.whole.errMaskInit, threshold := s.whole.bucketThreshold, leak := s.whole.bucketLeak }
      dev := { t.dev with readyMs := (t.dev.ticks - t.dev.resetTime) / 1000000 } } : State) = u
  have hmask : u.flt.mask = s.whole.errMaskInit := hu ▸ rfl
  have hcause : u.dev.resetCause = s.dev.resetCause := by rw [← hu, ← hdev]
  have hslice : u.slices = t.slices := hu ▸ rfl
  clear hu
  have hend := (u.notePackageEnd_sameBut.mono (by decide : ∀ p ∈ [Part.dev], p ∈ [Part.free, .plb, .dev])).trans
    (u.notePackageEnd.enterState_sameBut .ready)
  refine ⟨State.enterState_state _ _, ?_, fun h => ?_, fun i hi => ?_⟩
  · rw [(hend .flt (by decide) : _ = u.flt), hmask]
  · rw [State.enterState_dev]
    exact State.notePackageEnd_manager (hcause.trans h)
  · rw [State.slice, (hend .slices (by decide) : _ = u.slices), hslice]
    exact hslices i hi

/-! ### The PCIe links (R66, R73) -/

theorem State.setLink_linkUp (s : State) (port up : Bool) : (s.setLink port up).linkUp port = up ∧
    (s.setLink port up).linkUp (!port) = s.linkUp (!port) := by
  cases port <;> exact ⟨rfl, rfl⟩

theorem State.lostRecord_sameBut (s : State) (port : Bool) (r : RingId) : s.sameBut (s.lostRecord port r) [.slices] := by
  cases r with
  | cq sl q => exact s.updSlice_sameBut _ _
  | fq sl => exact s.updSlice_sameBut _ _
  | _ => exact s.sameBut_refl _

theorem State.fwDone_sameBut (s : State) (code : Nat) : s.sameBut (s.fwDone code) [.dev] := s.withDev_sameBut _

theorem State.imageFail_sameBut (s : State) (op slice : Nat) (bad : Bad) :
    s.sameBut (s.imageFail op slice bad) [.dev, .slices] := by
  unfold State.imageFail
  dsimp only
  refine State.sameBut.trans ?_ ((State.withDev_sameBut _ _).mono (by decide))
  split
  · exact (s.updSlice_sameBut _ _).mono (by decide)
  · exact s.sameBut_refl _

theorem State.imageFail_others (s : State) (op slice : Nat) (bad : Bad) : (s.imageFail op slice bad).dev.fwOp = s.dev.fwOp ∧
    (s.imageFail op slice bad).dev.fillBusy = s.dev.fillBusy ∧ (s.imageFail op slice bad).dev.fillPort = s.dev.fillPort ∧
    (s.imageFail op slice bad).dev.linkUp0 = s.dev.linkUp0 ∧ (s.imageFail op slice bad).dev.linkUp1 = s.dev.linkUp1 := by
  unfold State.imageFail
  dsimp only
  split <;> exact ⟨rfl, rfl, rfl, rfl, rfl⟩

section Operations
variable {s : State} {port : Bool}

theorem State.failOps_sameBut (s : State) (port : Bool) : s.sameBut (s.failOps port) [.dev, .slices] := by
  unfold State.failOps
  extract_lets s1
  have h1 : s.sameBut s1 [.dev, .slices] := by
    simp only [s1]
    (repeat' split)
    · exact s.imageFail_sameBut _ _ _
    · exact s.sameBut_refl _
    · exact s.sameBut_refl _
  refine h1.trans ?_
  (repeat' split)
  · exact (s1.fwDone_sameBut _).mono (by decide)
  · exact s1.sameBut_refl _
  · exact s1.sameBut_refl _

/-- What the end of the operations that use a port shows in their registers (R54, R85). -/
theorem State.failOps_dev (s : State) (port : Bool) :
    (∀ o, s.dev.imageOp = some o → o.port = port →
      (s.failOps port).dev.imageBusy = false ∧ (s.failOps port).dev.imageResult = irFetch) ∧
    (∀ o, s.dev.fwOp = some o → o.port = port →
      (s.failOps port).dev.fwBusy = false ∧ (s.failOps port).dev.fwResult = irFetch) ∧
    (s.failOps port).dev.fillBusy = s.dev.fillBusy ∧ (s.failOps port).dev.fillPort = s.dev.fillPort ∧
    (s.failOps port).dev.linkUp0 = s.dev.linkUp0 ∧ (s.failOps port).dev.linkUp1 = s.dev.linkUp1 := by
  unfold State.failOps
  extract_lets s1
  have himage : ∀ o, s.dev.imageOp = some o → o.port = port → s1.dev.imageBusy = false ∧ s1.dev.imageResult = irFetch := by
    intro o ho hport
    simp only [s1, ho, hport, if_pos]
    exact ⟨rfl, rfl⟩
  have hrest : s1.dev.fwOp = s.dev.fwOp ∧ s1.dev.fillBusy = s.dev.fillBusy ∧ s1.dev.fillPort = s.dev.fillPort ∧
      s1.dev.linkUp0 = s.dev.linkUp0 ∧ s1.dev.linkUp1 = s.dev.linkUp1 := by
    simp only [s1]
    split
    · split
      · exact s.imageFail_others _ _ _
      · exact ⟨rfl, rfl, rfl, rfl, rfl⟩
    · exact ⟨rfl, rfl, rfl, rfl, rfl⟩
  obtain ⟨hfw, hfill, hport, hlink0, hlink1⟩ := hrest
  clear_value s1
  split
  · next o ho =>
    split
    · next hp => exact ⟨himage, fun _ _ _ => ⟨rfl, rfl⟩, hfill, hport, hlink0, hlink1⟩
    · next hp =>
      refine ⟨himage, fun o' ho' hp' => ?_, hfill, hport, hlink0, hlink1⟩
      obtain rfl : o = o' := Option.some.inj (ho.symm.trans (hfw.trans ho'))
      exact absurd hp' hp
  · next ho =>
    refine ⟨himage, fun o' ho' _ => ?_, hfill, hport, hlink0, hlink1⟩
    exact absurd (ho.symm.trans (hfw.trans ho')) (by simp)

/-- What the end of the copies that use a port changes. -/
theorem State.failCopies_sameBut (s : State) (port : Bool) : s.sameBut (s.failCopies port) [.dev, .mig] := by
  unfold State.failCopies
  extract_lets s1 s2
  have h1 : s.sameBut s1 [.dev, .mig] := by
    simp only [s1]
    split
    · exact (s.withDev_sameBut _).mono (by decide)
    · exact s.sameBut_refl _
  have h2 : s1.sameBut s2 [.dev, .mig] := by
    simp only [s2]
    split
    · exact (State.withMig_sameBut _ _).mono (by decide)
    · exact s1.sameBut_refl _
  refine (h1.trans h2).trans ?_
  split
  · split
    · exact (State.withMig_sameBut _ _).mono (by decide)
    · exact s2.sameBut_refl _
  · exact s2.sameBut_refl _

theorem State.failCopies_dev (s : State) (port : Bool) : (s.failCopies port).dev =
    if s.dev.fillBusy = true ∧ s.dev.fillPort = port then { s.dev with fillBusy := false, fillDone := true, fillResult := 4 }
    else s.dev := by
  unfold State.failCopies
  extract_lets s1 s2
  have h1 : s1.dev = if s.dev.fillBusy = true ∧ s.dev.fillPort = port then
      { s.dev with fillBusy := false, fillDone := true, fillResult := 4 } else s.dev := by
    simp only [s1]
    split <;> rfl
  have h2 : s2.dev = s1.dev := by
    simp only [s2]
    split <;> rfl
  rw [← h1, ← h2]
  (repeat' split) <;> rfl

theorem State.failCopies_copy (hbusy : s.mig.copyBusy = true) (hport : s.mig.copyPort = port)
    (hpoison : mcPoison s.mig.copyCtl.toNat = false) : (s.failCopies port).mig.copyBusy = false := by
  unfold State.failCopies
  extract_lets s1 s2
  have h1 : s1.mig = s.mig := by
    simp only [s1]
    split <;> rfl
  have h2 : s2.mig.copyBusy = false := by
    simp only [s2, h1]
    rw [if_pos (by simp [hbusy, hport, hpoison])]
    rfl
  (repeat' split) <;> exact h2

theorem State.failOps_wired (s : State) (port : Bool) : (s.failOps port).wired = s.wired := by
  obtain ⟨_, _, _, _, hlink0, hlink1⟩ := s.failOps_dev port
  rw [State.wired, State.wired, hlink0, hlink1, (s.failOps_sameBut port .whole (by decide) : _ = s.whole)]

theorem State.failCopies_wired (s : State) (port : Bool) : (s.failCopies port).wired = s.wired := by
  rw [State.wired, State.wired, s.failCopies_dev port, (s.failCopies_sameBut port .whole (by decide) : _ = s.whole)]
  split <;> rfl

theorem State.failHostReads_none (h : s.reqs = []) : s.failHostReads port = s := by
  rw [State.failHostReads, h]
  rfl

end Operations

theorem State.doLinkDown_eq {s : State} {port : Bool} (h : s.linkUp port = true) (lost : List RingId) :
    s.doLinkDown port lost =
      ((((lost.foldl (fun s r => s.lostRecord port r) (s.setLink port false)).failHostReads port).failOps port).failCopies port) :=
  if_pos h

theorem State.doLinkDown_linkUp {s : State} {port : Bool} (h : s.linkUp port = true) (lost : List RingId) :
    (s.doLinkDown port lost).linkUp port = false ∧ (s.doLinkDown port lost).linkUp (!port) = s.linkUp (!port) := by
  have hlost : (lost.foldl (fun s r => s.lostRecord port r) (s.setLink port false)).wired = (s.setLink port false).wired :=
    foldl_wired _ (fun s r => (s.lostRecord_sameBut port r).wired) lost _
  have hwired : (s.doLinkDown port lost).wired = (s.setLink port false).wired := by
    rw [State.doLinkDown_eq h, State.failCopies_wired, State.failOps_wired, State.failHostReads_wired, hlost]
  obtain ⟨hdown, hother⟩ := s.setLink_linkUp port false
  exact ⟨(State.linkUp_of_wired hwired port).trans hdown, (State.linkUp_of_wired hwired (!port)).trans hother⟩

/-- With no request outstanding, a link that goes down ends the operations and the copies that use its port. -/
theorem State.doLinkDown_quiet {s : State} {port : Bool} {lost : List RingId} (h : s.linkUp port = true) (hreqs : s.reqs = [])
    (hlost : lost = []) : (s.doLinkDown port lost).mem = s.mem ∧ (s.doLinkDown port lost).host = s.host ∧
      (∀ o, s.dev.imageOp = some o → o.port = port → (s.doLinkDown port lost).dev.imageBusy = false ∧
        (s.doLinkDown port lost).dev.imageResult = irFetch) ∧
      (∀ o, s.dev.fwOp = some o → o.port = port → (s.doLinkDown port lost).dev.fwBusy = false ∧
        (s.doLinkDown port lost).dev.fwResult = irFetch) ∧
      (s.dev.fillBusy = true → s.dev.fillPort = port →
        (s.doLinkDown port lost).dev.fillBusy = false ∧ (s.doLinkDown port lost).dev.fillResult = 4) ∧
      (s.mig.copyBusy = true → s.mig.copyPort = port → mcPoison s.mig.copyCtl.toNat = false →
        (s.doLinkDown port lost).mig.copyBusy = false) := by
  subst hlost
  have heq : s.doLinkDown port [] = ((s.setLink port false).failOps port).failCopies port :=
    (State.doLinkDown_eq h []).trans (congrArg (fun u : State => (u.failOps port).failCopies port)
      (State.failHostReads_none (s := s.setLink port false) hreqs))
  rw [heq]
  have hlink : s.sameBut (s.setLink port false) [.dev] := s.withDev_sameBut _
  have hops : (s.setLink port false).dev.imageOp = s.dev.imageOp ∧ (s.setLink port false).dev.fwOp = s.dev.fwOp ∧
      (s.setLink port false).dev.fillBusy = s.dev.fillBusy ∧ (s.setLink port false).dev.fillPort = s.dev.fillPort := by
    cases port <;> exact ⟨rfl, rfl, rfl, rfl⟩
  obtain ⟨himageOp, hfwOp, hfillBusy, hfillPort⟩ := hops
  generalize s.setLink port false = u at hlink himageOp hfwOp hfillBusy hfillPort
  obtain ⟨himage, hfw, hbusy, hport, _, _⟩ := u.failOps_dev port
  have hfail : s.sameBut (u.failOps port) [.dev, .slices] := (hlink.mono (by decide)).trans (u.failOps_sameBut port)
  have hmig : (u.failOps port).mig = s.mig := hfail .mig (by decide)
  rw [himageOp] at himage
  rw [hfwOp] at hfw
  rw [hfillBusy] at hbusy
  rw [hfillPort] at hport
  generalize u.failOps port = v at himage hfw hbusy hport hfail hmig
  have hall : s.sameBut (v.failCopies port) [.dev, .slices, .mig] :=
    (hfail.mono (by decide)).trans ((v.failCopies_sameBut port).mono (by decide))
  refine ⟨hall .mem (by decide), hall .host (by decide), fun o ho hp => ?_, fun o ho hp => ?_, fun hb hp => ?_,
    fun hb hp hpoison => State.failCopies_copy (hmig ▸ hb) (hmig ▸ hp) (hmig ▸ hpoison)⟩
  · rw [State.failCopies_dev]
    split <;> exact himage o ho hp
  · rw [State.failCopies_dev]
    split <;> exact hfw o ho hp
  · rw [State.failCopies_dev, if_pos ⟨hbusy.trans hb, hport.trans hp⟩]
    exact ⟨rfl, rfl⟩

/-! ### The statement -/

section Step
variable {s : State} (hpow : s.powered = true) (hstate : s.dev.state = .bringup) (hhold : s.dev.perstHold = false)
include hpow hstate hhold

theorem State.doStepEnd_overdue (h : s.overdue = true) (x : StepInput) :
    s.doStepEnd x = s.failBringup failTimeout s.dev.step :=
  (if_neg (by simp [hpow, hstate, hhold])).trans (if_pos h)

theorem State.doStepTimeout_overdue (h : s.overdue = true) : s.doStepTimeout = s.failBringup failTimeout s.dev.step :=
  if_pos (by simp [hpow, hstate, hhold, h])

variable (hdue : s.overdue = false)
include hdue

theorem State.doStepEnd_fuses (h : s.dev.step = 2) (ok : Bool) (answers : List Bool) :
    s.doStepEnd (.fuses ok answers) = s.endStep2 ok answers :=
  (if_neg (by simp [hpow, hstate, hhold])).trans ((if_neg (by simp [hdue])).trans (if_pos h))

theorem State.doStepEnd_selfTest (h : s.dev.step = 3) (ds : List (Fin 8)) :
    s.doStepEnd (.selfTest ds) = s.endStep3 (ds.map (·.val)) :=
  (if_neg (by simp [hpow, hstate, hhold])).trans ((if_neg (by simp [hdue])).trans (if_pos h))

theorem State.doStepEnd_training (h : s.dev.step = 4) (failed : List (Fin 128)) (unsupported : List (Fin 32))
    (rates : List (List (Fin 4))) (density : List (Fin 3)) : s.doStepEnd (.training failed unsupported rates density) =
      s.endStep4 (failed.map (·.val)) (unsupported.map (·.val)) (rates.map fun p => p.map (·.val)) (density.map (·.val)) :=
  (if_neg (by simp [hpow, hstate, hhold])).trans ((if_neg (by simp [hdue])).trans (if_pos h))

theorem State.doStepEnd_plain : s.doStepEnd .plain =
    if s.dev.step = 5 then s.endStep5 else if s.dev.step = 6 then s.endStep6 else if s.dev.step = 7 then s.endStep7
    else if s.dev.step = 8 then s.endStep8 else s :=
  (if_neg (by simp [hpow, hstate, hhold])).trans (if_neg (by simp [hdue]))

end Step

/-- Settles O41: a step's end is the step's own function, and a link that goes down leaves what its operations' ends leave. -/
theorem bringupAndLinks : Obligations.BringupAndLinks := by
  refine ⟨fun s hpow hstate hhold => ?_, fun s port => ⟨fun hpow hhold => ?_, fun lost hup => ⟨_, rfl, ?_⟩⟩⟩
  · intro at_ failed
    have hfailed : ∀ code unit, failed (s.failBringup code unit) code unit := s.failBringup_failed
    refine ⟨fun hdue => ?_, fun hlate => ?_⟩
    · have hplain := State.doStepEnd_plain hpow hstate hhold hdue
      have hsix : s.dev.step = 6 → s.doStepEnd .plain = s.endStep6 := fun h =>
        hplain.trans ((if_neg (by omega)).trans (if_pos h))
      have hseven : 7 ≤ s.dev.step → s.doStepEnd .plain =
          if s.dev.step = 7 then s.endStep7 else if s.dev.step = 8 then s.endStep8 else s := fun h =>
        hplain.trans ((if_neg (by omega)).trans (if_neg (by omega)))
      refine ⟨fun h ok answers => ?_, fun h => ?_, fun h d ds hle => ?_, fun h f u rates n => ?_, fun h => ?_,
        fun h hnone => ?_, fun h hsome => ?_, fun h => ?_, fun h => ?_⟩
      · exact ⟨_, congrArg Host.Outcome.next (State.doStepEnd_fuses hpow hstate hhold hdue h ok answers),
          s.endStep2_ends ok answers⟩
      · exact ⟨_, congrArg Host.Outcome.next (State.doStepEnd_selfTest hpow hstate hhold hdue h []), s.endStep3_none⟩
      · have hleast : least ((d :: ds).map (·.val)) = some d.val := least_cons_of_le fun e he => by
          obtain ⟨x, hx, rfl⟩ := List.mem_map.mp he
          exact hle x hx
        exact ⟨_, congrArg Host.Outcome.next ((State.doStepEnd_selfTest hpow hstate hhold hdue h (d :: ds)).trans
          (s.endStep3_some hleast)), hfailed 2 d.val⟩
      · intro x fs us ns
        have hend := State.doStepEnd_training hpow hstate hhold hdue h f u rates n
        refine ⟨fun code unit hbad => ?_, fun hbad => ?_⟩
        · exact ⟨_, congrArg Host.Outcome.next (hend.trans (s.endStep4_fails _ hbad)), hfailed code unit⟩
        · obtain ⟨t, ht, hreach⟩ := s.endStep4_trains (rates.map fun p => p.map (·.val)) hbad
          exact ⟨t, congrArg Host.Outcome.next (hend.trans ht), hreach⟩
      · exact ⟨_, congrArg Host.Outcome.next (hplain.trans (if_pos h)), s.endStep5_valid⟩
      · refine ⟨_, congrArg Host.Outcome.next ((hsix h).trans (s.endStep6_waits hnone)),
          State.enterState_state _ _, (State.enterState_step _ _).trans h⟩
      · exact ⟨_, congrArg Host.Outcome.next (hsix h), s.endStep6_runs hsome⟩
      · exact ⟨_, congrArg Host.Outcome.next ((hseven (by omega)).trans (if_pos h)), s.endStep7_reaches,
          fun i hi => s.endStep7_routes hi⟩
      · exact ⟨_, congrArg Host.Outcome.next ((hseven (by omega)).trans
          ((if_neg (by omega)).trans (if_pos h))), s.endStep8_ready⟩
    · have hover : s.overdue = true := decide_eq_true hlate
      exact ⟨⟨_, congrArg Host.Outcome.next (State.doStepTimeout_overdue hpow hstate hhold hover), hfailed 5 s.dev.step⟩,
        fun x => ⟨_, congrArg Host.Outcome.next (State.doStepEnd_overdue hpow hstate hhold hover x), hfailed 5 s.dev.step⟩⟩
  · obtain ⟨hlink, hother⟩ := s.setLink_linkUp port true
    have hdo : s.doLinkUp port = s.setLink port true := if_pos (by simp [hpow, hhold])
    exact ⟨_, congrArg Host.Outcome.next hdo, hlink, hother, s.withDev_sameBut _⟩
  · obtain ⟨hdown, hother⟩ := State.doLinkDown_linkUp hup lost
    exact ⟨hdown, hother, fun hreqs hlost => State.doLinkDown_quiet hup hreqs hlost⟩

end Sys2Proof.Machine

/-! ## One edge of the arbiter (O16) -/

namespace Sys2Proof.Machine

/-! ### A dispatch (R104) -/

/-- In `t` command `id` of `s` runs as dispatched at TIME `time`, on the descriptor that it had. -/
def State.Dispatched (s t : State) (id time : Nat) : Prop :=
  (t.cmd id).phase = .running ∧ (t.cmd id).dispatched = true ∧ (t.cmd id).timeDispatch = time ∧ (t.cmd id).desc = (s.cmd id).desc

/-- A step leaves of every command what a dispatch records of it. -/
def State.keepsDispatch (s t : State) : Prop := ∀ k, (t.cmd k).phase = (s.cmd k).phase ∧
  (t.cmd k).dispatched = (s.cmd k).dispatched ∧ (t.cmd k).timeDispatch = (s.cmd k).timeDispatch ∧ (t.cmd k).desc = (s.cmd k).desc

theorem State.keepsDispatch.trans {s t u : State} (h : s.keepsDispatch t) (k : t.keepsDispatch u) : s.keepsDispatch u := fun i => by
  obtain ⟨hphase, hdone, htime, hdesc⟩ := h i
  obtain ⟨kphase, kdone, ktime, kdesc⟩ := k i
  exact ⟨kphase.trans hphase, kdone.trans hdone, ktime.trans htime, kdesc.trans hdesc⟩

theorem State.keepsDispatch_of_cmds {s t : State} (h : t.cmds = s.cmds) : s.keepsDispatch t := fun k => by
  rw [State.cmd_of_cmds h k]
  exact ⟨rfl, rfl, rfl, rfl⟩

theorem foldl_keepsDispatch {α : Type} {f : State → α → State} (hf : ∀ (s : State) a, s.keepsDispatch (f s a)) (l : List α)
    (s : State) : s.keepsDispatch (l.foldl f s) :=
  List.foldlRecOn (motive := fun t => s.keepsDispatch t) l f (State.keepsDispatch_of_cmds rfl) fun _ ht a _ => ht.trans (hf _ a)

theorem State.updCmd_keepsDispatch (s : State) (id : Nat) {f : Cmd → Cmd} (hphase : (f (s.cmd id)).phase = (s.cmd id).phase)
    (hdone : (f (s.cmd id)).dispatched = (s.cmd id).dispatched)
    (htime : (f (s.cmd id)).timeDispatch = (s.cmd id).timeDispatch) (hdesc : (f (s.cmd id)).desc = (s.cmd id).desc) :
    s.keepsDispatch (s.updCmd id f) := fun k => by
  rw [State.cmd_updCmd]
  split
  case isTrue h =>
    subst h
    exact ⟨hphase, hdone, htime, hdesc⟩
  case isFalse => exact ⟨rfl, rfl, rfl, rfl⟩

theorem State.capture_keepsDispatch (s : State) (id : Nat) : s.keepsDispatch (s.capture id) :=
  foldl_keepsDispatch (fun s _ => (State.keepsDispatch_of_cmds (s := s) (t := s.updHandle _ _ _) rfl).trans
    (State.updCmd_keepsDispatch _ id rfl rfl rfl rfl)) _ s

theorem State.roRoom_sameBut (s : State) (t : Tbl Bytes) (mine : Nat → Bool) (cap : Nat) :
    s.sameBut (s.roRoom t mine cap).2 [.free] := by
  unfold State.roRoom
  dsimp only
  split
  · exact s.sameBut_refl _
  · exact s.drawChoice_sameBut ((t.map (·.1)).filter mine).length

theorem State.cacheBlock_sameBut (s : State) (id b : Nat) : s.sameBut (s.cacheBlock id b) [.bays, .free] := by
  unfold State.cacheBlock
  dsimp only
  split
  · exact s.sameBut_refl _
  · exact ((s.roRoom_sameBut _ _ _).mono (by decide)).trans ((State.updBay_sameBut _ b _).mono (by decide))

theorem State.takeUnit_sameBut (s : State) (id u : Nat) : s.sameBut (s.takeUnit id u) [.bays] :=
  (s.updBay_sameBut _ _).trans (State.updBay_sameBut _ _ _)

theorem State.takeGrant_keepsDispatch (s : State) (id : Nat) (g : List (Nat × Nat)) : s.keepsDispatch (s.takeGrant id g) := by
  unfold State.takeGrant
  extract_lets bays s1 c s2 s3
  have h1 : s.sameBut s1 [.bays, .free] := (foldl_sameBut (fun s e => s.takeUnit_sameBut id _) g s).mono (by decide)
  have h2 : s1.sameBut s2 [.bays, .free] := by
    simp only [s2]
    split
    · refine (foldl_sameBut (fun s b => ?_) bays s1).mono (by decide : ∀ p ∈ [Part.bays], p ∈ [Part.bays, .free])
      split
      · exact (s.updBay_sameBut b _).trans (State.updBay_sameBut _ b _)
      · exact s.updBay_sameBut b _
    · exact s1.sameBut_refl _
  have h3 : s2.sameBut s3 [.bays, .free] := foldl_sameBut (fun s b => s.cacheBlock_sameBut id b) bays s2
  exact (State.keepsDispatch_of_cmds (((h1.trans h2).trans h3) .cmds (by decide))).trans
    (s3.updCmd_keepsDispatch id rfl rfl rfl rfl)

theorem State.sendGrants_keepsDispatch (s : State) (id : Nat) : s.keepsDispatch (s.sendGrants id) :=
  foldl_keepsDispatch (fun s _ => State.keepsDispatch_of_cmds (s.signalUnits_sameBut _ _ _ .cmds (by decide))) _ s

theorem State.Dispatched.keeps {s t u : State} {id time : Nat} (h : s.Dispatched t id time) (k : t.keepsDispatch u) :
    s.Dispatched u id time := by
  obtain ⟨hphase, hdone, htime, hdesc⟩ := h
  obtain ⟨kphase, kdone, ktime, kdesc⟩ := k id
  exact ⟨kphase.trans hphase, kdone.trans hdone, ktime.trans htime, kdesc.trans hdesc⟩

theorem State.leaveWindow_sameBut (s : State) (id : Nat) : s.sameBut (s.leaveWindow id) [.slices] :=
  (s.updSlice_sameBut _ _).trans (State.updSlice_sameBut _ _ _)

theorem State.cmd_setCmd (s : State) (id : Nat) (c : Cmd) : (s.setCmd id c).cmd id = c := Tbl.get_set_same _ _ _ _

theorem State.begin_dispatched (s : State) (id : Nat) (g : List (Nat × Nat)) : s.Dispatched (s.begin id g) id s.time := by
  unfold State.begin
  extract_lets s1 c s2 s3 s4 s5 s6
  have h1 : s.sameBut s1 [.slices] := s.leaveWindow_sameBut id
  have hc : c = s.cmd id := State.cmd_of_cmds (h1 .cmds (by decide)) id
  have htime : s1.time = s.time := h1 .time (by decide)
  have h2 : s.Dispatched s2 id s.time := by
    rw [State.Dispatched, show s2.cmd id = _ from s1.cmd_setCmd id _]
    exact ⟨rfl, rfl, htime, (congrArg Cmd.desc hc : c.desc = (s.cmd id).desc)⟩
  have h3 : s2.keepsDispatch s3 := State.keepsDispatch_of_cmds rfl
  have h4 : s3.keepsDispatch s4 := State.keepsDispatch_of_cmds rfl
  have h5 : s4.keepsDispatch s5 := s4.capture_keepsDispatch id
  have h6 : s5.keepsDispatch s6 := by
    simp only [s6]
    split
    · exact State.keepsDispatch_of_cmds rfl
    · exact (s5.takeGrant_keepsDispatch id g).trans (State.sendGrants_keepsDispatch _ id)
  have h : s.Dispatched s6 id s.time := h2.keeps ((h3.trans h4).trans (h5.trans h6))
  split
  · exact h.keeps (State.keepsDispatch_of_cmds rfl)
  · exact h

/-! ### The arbiter's choice (R99, R103) -/

theorem placeWalk_begun (s : State) (i : Nat) (slots : Nat → Nat → List (Nat × Nat)) (l : List Nat) (held want : Nat) :
    placeWalk s.begun i slots l held want = placeWalk s i slots l held want := by
  induction l generalizing held want with
  | nil => rfl
  | cons b l ih =>
    unfold placeWalk
    dsimp only
    simp only [ih]
    rfl

/-- What the arbiter would do does not depend on the marks that a step's accesses leave. -/
theorem State.actOn_begun (s : State) (c : Cmd) : s.begun.actOn c = s.actOn c := by
  have hresume : s.begun.resumeUnits c = s.resumeUnits c := placeWalk_begun s _ _ _ _ _
  have hgrant : s.begun.grantFor c = s.grantFor c := placeWalk_begun s _ _ _ _ _
  unfold State.actOn
  rw [hresume]
  dsimp only
  rw [hgrant]
  rfl

theorem State.carryStops_whole (s : State) (ns : Nat) (l : List StopAt) :
    (l.foldl (fun t x => t.carryStop ns x) s).whole = s.whole :=
  State.whole_of_wired (foldl_wired _ (fun s x => s.carryStop_wired ns x) l s)

theorem State.preemptFor_whole (s : State) (ns id : Nat) : (s.preemptFor ns id).whole = s.whole := by
  unfold State.preemptFor
  extract_lets c plan s1
  have h1 : s1.whole = s.whole := s.carryStops_whole ns plan
  split
  · rfl
  · refine (foldl_keeps State.whole (fun t v => ?_) _ s1).trans h1
    split <;> rfl

/-- A blocked candidate is given the stops of its plan. -/
theorem State.preemptFor_blocked {s : State} {ns id : Nat} (hbays : usesBays (dOpcode (s.cmd id).desc) = true)
    (hblocked : s.actOn (s.cmd id) = none) : s.preemptFor ns id =
      (((s.preemptPlan (s.cmd id)).map (·.cmd)).eraseDups).foldl (fun t v =>
        if dOpcode (t.cmd v).desc = opLaunch then t.updCmd v (fun c => { c with saves := c.saves + 1 }) else t)
        ((s.preemptPlan (s.cmd id)).foldl (fun t x => t.carryStop ns x) s) :=
  if_neg (by simp [hbays, hblocked])

/-- A fold of which one index acts, and the others leave what they meet, is the step of that index. -/
theorem foldl_only {f : State → Nat → State} {Q : State → Prop} {k : Nat} {s : State} (hs : Q s)
    (hact : Q (f s k)) {l : List Nat} (hstay : ∀ a ∈ l, a ≠ k → ∀ t, Q t → f t a = t) (hl : l.Nodup) (hk : k ∈ l) :
    l.foldl f s = f s k := by
  induction l with
  | nil => exact absurd hk (by simp)
  | cons a l ih =>
    obtain ⟨hnew, hl⟩ := List.nodup_cons.mp hl
    rw [List.foldl_cons]
    by_cases ha : a = k
    · subst ha
      exact foldl_eq_self fun b hb => hstay b (List.mem_cons_of_mem _ hb) (fun h => hnew (h ▸ hb)) _ hact
    · rw [hstay a List.mem_cons_self ha s hs]
      exact ih (fun b hb => hstay b (List.mem_cons_of_mem _ hb)) hl ((List.mem_cons.mp hk).resolve_left (Ne.symm ha))

/-- Where one class alone preempts, and its first candidate is of one command, the preemptions are those for it. -/
theorem State.doPreemption_one {s : State} {ns cls id : Nat} (hcls : cls < 8)
    (hprio : ∀ c, c < 8 → (s.prio c).preempts = decide (c = cls))
    (hfirst : (firstOfSlices (s.ranked cls) []).map (·.1) = [id]) : s.doPreemption ns = s.preemptFor ns id := by
  have hacts : (if (s.prio cls).preempts then
      (sortBy (fun id => (s.cmd id).slice) ((firstOfSlices (s.ranked cls) []).map (·.1))).foldl (fun s id => s.preemptFor ns id) s
      else s) = s.preemptFor ns id := by
    rw [if_pos (by simp [hprio cls hcls]), hfirst]
    rfl
  refine (foldl_only (Q := fun t => t.whole = s.whole) (k := cls) rfl ?_ (fun c hc hne t ht => ?_) List.nodup_range
    (List.mem_range.mpr hcls)).trans hacts
  · rw [hacts]
    exact s.preemptFor_whole ns id
  · have hquiet : (t.prio c).preempts = false := by
      rw [State.prio, ht]
      exact (hprio c (List.mem_range.mp hc)).trans (decide_eq_false hne)
    exact if_neg (by simp [hquiet])

/-! ### The statement -/

/-- Settles O16: the edge unfolds to its choice and its action; a dispatch keeps what it records through the capture and the
grant, and the stops of a preemption leave the classes of the image alone. -/
theorem arbiterEdge : Obligations.ArbiterEdge := by
  intro s hready acts choice s1
  have hedge : (if s.ready = true then s.arbEdge else s) = s.arbEdge := if_pos hready
  refine ⟨fun hnone => ?_, fun c id a hsome hfind => ?_, fun id g => s.begin_dispatched id g,
    fun cls id ns hcls hprio hfirst hbays hblocked => ?_⟩
  · refine congrArg Host.Outcome.next (hedge.trans ?_)
    unfold State.arbEdge
    dsimp only
    rw [hnone]
    rfl
  · refine congrArg Host.Outcome.next (hedge.trans ?_)
    unfold State.arbEdge
    dsimp only
    rw [hsome, Option.bind_some, hfind]
    rfl
  · intro f hgo
    have hone : s.begun.doPreemption ns = f s.begun := by
      rw [State.doPreemption_one (s := s.begun) hcls hprio hfirst]
      exact State.preemptFor_blocked (s := s.begun) hbays ((s.actOn_begun (s.cmd id)).trans hblocked)
    exact congrArg Host.Outcome.next ((if_pos hready).trans (State.settled_through hone hgo))

end Sys2Proof.Machine
